-- ==== Sys2Proof/Word.lean ====
section
/-!
DEFINITION. The word types of the device: 32-bit words, bytes, and 64-bit device times (R12).
-/

namespace Sys2Proof

/-- A 32-bit word: register, lane, status word, settings word. -/
abbrev Word := BitVec 32

/-- A byte of memory, of a record or of a datagram. -/
abbrev Byte := BitVec 8

/-- Two words as one 64-bit value, low word first (R8, R270). -/
def pairOf (lo hi : Word) : BitVec 64 := hi ++ lo

/-- The low word of a pair. -/
def lo32 (x : BitVec 64) : Word := x.setWidth 32

/-- The high word of a pair. -/
def hi32 (x : BitVec 64) : Word := (x >>> 32).setWidth 32

end Sys2Proof
end

