-- ==== Sys2Proof/Config.lean ====
section
/-!
DEFINITION. What an implementation fixes: the population option, and the values the manual leaves open, which are
constants without a body.
-/

namespace Sys2Proof

/-- The two population options of the family (R2, Table 0.2). -/
inductive Opt where
  | zt8
  | zt4
deriving DecidableEq, Repr

/-- SHA-384 of the starting block's mask ROM (Table 18.4, ROM_HASH): no value is given, and none is chosen (assumption 5). -/
opaque Config.romHash : List Byte

/-- DESIGN CHOICE. The rounding of a stored S3 tap against its kernel (R128: the stored values are not given beyond
Table 6.5), by prototype, phase and tap; assumption 17. -/
opaque Config.s3Adjust : Nat → Nat → Nat → Nat

/-- DESIGN CHOICE. A camera pixel's interpolated code where the tile has no pixel to interpolate from (R216), by free
value, column and code; assumption 28. -/
opaque Config.freePixel : Nat → Nat → Nat → Int

/-- DESIGN CHOICE. The shutter thermistor's temperature in 0.01 °C for a code of the supervisory ADC (R116: 10 kΩ NTC at 25 °C
under a 10.0 kΩ pull-up; no curve is given); assumption 61. -/
opaque Config.shutterTherm : Int → Int

/-- DESIGN CHOICE. The current, in codes of 78.125 µA, at which the current modulator puts out ones alone: its input range
exceeds the code range and has no number (R142); assumption 53. -/
opaque Config.csnFullScale : Nat

/-- PRESUMED. The quality of the module's own clock in the comparison of PTP clocks (clock class, accuracy, variance and
priority2): the manual gives priority1 alone (Table 19.4); assumption 112. -/
opaque Config.ptpQuality : Nat

/-- DESIGN CHOICE. Does the deadline monitor make its check at a PERIPH cycle while the device runs (R419)? Nothing says when
it does, or what stops it; assumption 81. -/
opaque Config.deadlineCheck : Nat → Bool

/-- DESIGN CHOICE. A result the manual leaves open, indexed by the free-value counter of `State`; assumption 6. -/
opaque Config.freeValue : Nat → Nat

end Sys2Proof
end

