-- ==== Sys2Proof/Machine/Crypto.lean ====
section
/-!
DEFINITION. The public algorithms that the manual names: CRC-32 (IEEE 802.3; R369, R411), SHA-384 (R382, R391), AES-256 and
its CTR_DRBG (R400), and ECDSA over brainpoolP384r1 (R387, R391).  The manual gives their names and leaves their steps to
their standards: PRESUMED, assumption 5.
-/

namespace Sys2Proof.Machine

/-! ### Numbers as bytes -/

/-- The big-endian number of a byte string (keys and signatures, Keys and identity). -/
def beNat (bs : List Byte) : Nat := bs.foldl (fun a b => 256 * a + b.toNat) 0

/-- The `n` big-endian bytes of a number. -/
def beBytes : Nat → Nat → List Byte
  | 0, _ => []
  | n + 1, x => beBytes n (x / 256) ++ [BitVec.ofNat 8 x]

/-! ### CRC-32 -/

/-- One bit of the reflected polynomial. -/
def crcBit (c : Nat) : Nat := if c % 2 = 1 then c / 2 ^^^ 0xEDB88320 else c / 2

/-- One byte. -/
def crcByte (c : Nat) (b : Byte) : Nat := (List.range 8).foldl (fun c _ => crcBit c) (c ^^^ b.toNat)

/-- CRC-32 with initial value and final XOR of ones (Table 17.3). -/
def crc32 (bs : List Byte) : Nat := bs.foldl crcByte 0xFFFFFFFF ^^^ 0xFFFFFFFF

/-! ### SHA-384 -/

/-- The largest `r` with r^k at most `n`, one bit at a time from bit `m` − 1 down. -/
def rootDown (k n : Nat) : Nat → Nat → Nat
  | 0, r => r
  | m + 1, r => rootDown k n m (if (r + 2 ^ m) ^ k ≤ n then r + 2 ^ m else r)

/-- The first 64 bits of the fraction of the k-th root of a prime below 512. -/
def rootBits (k p : Nat) : BitVec 64 := BitVec.ofNat 64 (rootDown k (p * 2 ^ (64 * k)) 69 0)

/-- The first primes, the 80th of which is 409. -/
def smallPrimes : List Nat :=
  (List.range 410).filter fun n => decide (1 < n) && (List.range 21).all fun d => decide (d < 2) || n % d ≠ 0 || decide (n = d)

/-- The constants of the 80 rounds come from cube roots of primes, the start value from square roots (FIPS 180-4). -/
def shaRounds : List (BitVec 64) := smallPrimes.map (rootBits 3)

def shaStart : List (BitVec 64) := ((smallPrimes.drop 8).take 8).map (rootBits 2)

/-- Three turned copies of a word, added without carry. -/
def turns (i j k : Nat) (x : BitVec 64) : BitVec 64 := x.rotateRight i ^^^ (x.rotateRight j ^^^ x.rotateRight k)

/-- The message schedule, last word first: `n` words follow from the 16 of a block. -/
def shaWords (n : Nat) (first : List (BitVec 64)) : List (BitVec 64) :=
  (List.range n).foldl (fun w _ =>
    let back (i : Nat) : BitVec 64 := w.getD (i - 1) 0
    let old := (back 15).rotateRight 1 ^^^ (back 15).rotateRight 8 ^^^ back 15 >>> 7
    let young := (back 2).rotateRight 19 ^^^ (back 2).rotateRight 61 ^^^ back 2 >>> 6
    (young + back 7 + old + back 16) :: w) first.reverse

/-- One round: two chains of four words each, newest first, take a new word in front. -/
def shaRound (s : List (BitVec 64) × List (BitVec 64)) (kw : BitVec 64) : List (BitVec 64) × List (BitVec 64) :=
  let a (i : Nat) : BitVec 64 := s.1.getD i 0
  let e (i : Nat) : BitVec 64 := s.2.getD i 0
  let t := e 3 + kw + turns 14 18 41 (e 0) + (e 2 ^^^ (e 0 &&& (e 1 ^^^ e 2)))
  ((t + turns 28 34 39 (a 0) + (a 0 &&& a 1 ||| a 2 &&& (a 0 ||| a 1))) :: s.1.take 3, (a 3 + t) :: s.2.take 3)

/-- One block of 128 bytes on the eight words so far. -/
def shaBlock (hs : List (BitVec 64)) (block : List Byte) : List (BitVec 64) :=
  let first := (List.range 16).map fun i => BitVec.ofNat 64 (beNat ((block.drop (8 * i)).take 8))
  let kws := List.zipWith (· + ·) shaRounds (shaWords 64 first).reverse
  let (x, y) := kws.foldl shaRound (hs.take 4, hs.drop 4)
  List.zipWith (· + ·) hs (x ++ y)

/-- A message with its padding: a one bit, zeros, and the length in bits as 16 bytes. -/
def shaPad (bs : List Byte) : List Byte :=
  bs ++ 0x80 :: List.replicate ((239 - bs.length % 128) % 128) 0 ++ beBytes 16 (8 * bs.length)

/-- SHA-384, 48 bytes. -/
def sha384 (bs : List Byte) : List Byte :=
  let m := shaPad bs
  let hs := (List.range (m.length / 128)).foldl (fun h i => shaBlock h ((m.drop (128 * i)).take 128)) shaStart
  (hs.take 6).flatMap fun x => beBytes 8 x.toNat

/-! ### AES-256 -/

/-- Multiplication in the field of 256 elements. -/
def gfMul (a b : Byte) : Byte :=
  ((List.range 8).foldl (fun (p : Byte × Byte) i =>
    (if b.getLsbD i then p.1 ^^^ p.2 else p.1, p.2 <<< 1 ^^^ (if p.2.getLsbD 7 then 0x1B else 0))) (0, a)).1

/-- The substitution: the inverse (the power 254), then the affine map. -/
def aesSub (a : Byte) : Byte :=
  let sq (x : Byte) : Byte := gfMul x x
  let inv := ((List.range 7).foldl (fun (p : Byte × Byte) _ => let q := sq p.2; (gfMul p.1 q, q)) (1, a)).1
  inv ^^^ inv.rotateLeft 1 ^^^ inv.rotateLeft 2 ^^^ inv.rotateLeft 3 ^^^ inv.rotateLeft 4 ^^^ 0x63

/-- Bytes XORed with a key stream. -/
def xorBytes (a b : List Byte) : List Byte := List.zipWith (· ^^^ ·) a b

/-- The words of the key schedule, the newest first, after `n` more than the 8 of the key. -/
def aesWords (key : List Byte) : Nat → List (List Byte)
  | 0 => ((List.range 8).map fun i => (key.drop (4 * i)).take 4).reverse
  | n + 1 =>
    let ws := aesWords key n
    let t := ws.getD 0 []
    let i := n + 8
    let u :=
      if i % 8 = 0 then
        match (t.drop 1 ++ t.take 1).map aesSub with
        | b :: r => (b ^^^ BitVec.ofNat 8 (2 ^ (i / 8 - 1))) :: r
        | [] => []
      else if i % 8 = 4 then t.map aesSub else t
    xorBytes (ws.getD 7 []) u :: ws

/-- The 15 round keys of 16 bytes. -/
def aesKeys (key : List Byte) : List (List Byte) :=
  let ws := (aesWords key 52).reverse
  (List.range 15).map fun i => ((ws.drop (4 * i)).take 4).flatten

/-- The rows of the state, which fills by columns, turned. -/
def aesShift (s : List Byte) : List Byte := (List.range 16).map fun i => s.getD ((5 * i) % 16) 0

/-- The columns of the state mixed. -/
def aesMix (s : List Byte) : List Byte :=
  (List.range 16).map fun i =>
    let x (k : Nat) : Byte := s.getD (i / 4 * 4 + (i + k) % 4) 0
    gfMul 2 (x 0) ^^^ gfMul 3 (x 1) ^^^ x 2 ^^^ x 3

/-- One block of 16 bytes encrypted under a key of 32. -/
def aes256 (key block : List Byte) : List Byte :=
  match aesKeys key with
  | k0 :: ks =>
    let s := (ks.take 13).foldl (fun s k => xorBytes (aesMix (aesShift (s.map aesSub))) k) (xorBytes block k0)
    xorBytes (aesShift (s.map aesSub)) (ks.getD 13 [])
  | [] => []

/-! ### CTR_DRBG -/

/-- The working state of the generator: a key of 32 bytes and V as a number of 128 bits (NIST SP 800-90A). -/
structure Drbg where
  key : List Byte
  v : Nat
deriving DecidableEq, Repr

/-- The generator before it is seeded. -/
def Drbg.zero : Drbg := { key := List.replicate 32 0, v := 0 }

/-- `n` blocks of the counter from V on, encrypted, and the V reached. -/
def drbgBlocks (g : Drbg) : Nat → List Byte
  | 0 => []
  | n + 1 => drbgBlocks g n ++ aes256 g.key (beBytes 16 ((g.v + n + 1) % 2 ^ 128))

/-- The update with 48 bytes of data. -/
def drbgUpdate (g : Drbg) (data : List Byte) : Drbg :=
  let t := xorBytes (drbgBlocks g 3) data
  { key := t.take 32, v := beNat (t.drop 32) }

/-- Seeding with 48 bytes of entropy. -/
def drbgSeed (entropy : List Byte) : Drbg := drbgUpdate Drbg.zero entropy

/-- `n` blocks of 16 bytes of output, and the state that follows. -/
def drbgTake (g : Drbg) (n : Nat) : List Byte × Drbg :=
  (drbgBlocks g n, drbgUpdate { g with v := (g.v + n) % 2 ^ 128 } (List.replicate 48 0))

/-! ### ECDSA over brainpoolP384r1 -/

/-- The prime of the field, the coefficients of the curve, and the order of the base point. -/
def ecP : Nat := 0x8CB91E82A3386D280F5D6F7E50E641DF152F7109ED5456B412B1DA197FB71123ACD3A729901D1A71874700133107EC53
def ecA : Nat := 0x7BC382C63D8C150C3C72080ACE05AFA0C2BEA28E4FB22787139165EFBA91F90F8AA5814A503AD4EB04A8C7DD22CE2826
def ecB : Nat := 0x04A8C7DD22CE28268B39B55416F0447C2FB77DE107DCD2A62E880EA53EEB62D57CB4390295DBC9943AB78696FA504C11
def ecN : Nat := 0x8CB91E82A3386D280F5D6F7E50E641DF152F7109ED5456B31F166E6CAC0425A7CF3AB6AF6B7FC3103B883202E9046565

/-- The base point. -/
def ecG : Nat × Nat :=
  (0x1D1C64F068CF45FFA2A63A81B7C13F6B8847A3E77EF14FE3DB7FCAFE0CBD10E8E826E03436D646AAEF87B2E247D4AF1E,
   0x8ABE1D7520F9C2A45CB1EB8E95CFD55262B70B29FEEC5864E19C054FF99129280E4646217791811142820341263C5315)

/-- The bits of a scalar of 384 bits, the highest first. -/
def bitsDown (x : Nat) : List Bool := ((List.range 384).map fun i => x.testBit i).reverse

/-- A power modulo `m`. -/
def powMod (m b e : Nat) : Nat := (bitsDown e).foldl (fun a d => if d then a * a % m * b % m else a * a % m) 1

/-- The inverse modulo a prime. -/
def invMod (m b : Nat) : Nat := powMod m (b % m) (m - 2)

/-- A point of the curve; `none` is the point at infinity. -/
abbrev EcPoint := Option (Nat × Nat)

/-- The third point on a line through two points of slope `l`. -/
def ecThird (l x1 y1 x2 : Nat) : EcPoint :=
  let x := (l * l + 2 * ecP - x1 - x2) % ecP
  some (x, (l * (x1 + ecP - x) + ecP - y1) % ecP)

/-- The sum of two points. -/
def ecAdd : EcPoint → EcPoint → EcPoint
  | none, q => q
  | p, none => p
  | some (x1, y1), some (x2, y2) =>
    if x1 ≠ x2 then ecThird ((y2 + ecP - y1) * invMod ecP (x2 + ecP - x1) % ecP) x1 y1 x2
    else if y1 = y2 ∧ y1 ≠ 0 then ecThird ((3 * x1 * x1 + ecA) * invMod ecP (2 * y1) % ecP) x1 y1 x2
    else none

/-- A difference in the field. -/
def fieldSub (a b : Nat) : Nat := (a + ecP - b) % ecP

/-- A point (x ÷ z², y ÷ z³), with z = 0 at infinity. -/
structure EcProj where
  x : Nat
  y : Nat
  z : Nat

/-- The double of a point. -/
def EcProj.double (p : EcProj) : EcProj :=
  let yy := p.y * p.y % ecP
  let s := 4 * p.x * yy % ecP
  let zz := p.z * p.z % ecP
  let m := (3 * p.x * p.x + ecA * (zz * zz % ecP)) % ecP
  let x := fieldSub (m * m % ecP) (2 * s % ecP)
  { x := x, y := fieldSub (m * fieldSub s x % ecP) (8 * yy * yy % ecP), z := 2 * p.y * p.z % ecP }

/-- The sum with a point of the curve. -/
def EcProj.add (p : EcProj) (q : Nat × Nat) : EcProj :=
  if p.z = 0 then { x := q.1, y := q.2, z := 1 }
  else
    let zz := p.z * p.z % ecP
    let h := fieldSub (q.1 * zz % ecP) p.x
    let r := fieldSub (q.2 * zz % ecP * p.z % ecP) p.y
    if h = 0 then (if r = 0 then p.double else { x := 1, y := 1, z := 0 })
    else
      let hh := h * h % ecP
      let v := p.x * hh % ecP
      let hhh := h * hh % ecP
      let x := fieldSub (r * r % ecP) ((hhh + 2 * v) % ecP)
      { x := x, y := fieldSub (r * fieldSub v x % ecP) (p.y * hhh % ecP), z := h * p.z % ecP }

/-- A multiple of a point. -/
def ecMul (k : Nat) (q : Nat × Nat) : EcPoint :=
  let p := (bitsDown k).foldl (fun (a : EcProj) d => if d then a.double.add q else a.double) { x := 1, y := 1, z := 0 }
  if p.z = 0 then none
  else
    let w := invMod ecP p.z
    some (p.x * w % ecP * w % ecP, p.y * w % ecP * w % ecP * w % ecP)

/-- Is the number pair a point of the curve? -/
def ecOn (q : Nat × Nat) : Bool :=
  decide (q.1 < ecP) && decide (q.2 < ecP) && q.2 * q.2 % ecP = (q.1 * q.1 * q.1 + ecA * q.1 + ecB) % ecP

/-- The two numbers of 96 bytes: X ‖ Y of a key, r ‖ s of a signature. -/
def ecPair (bs : List Byte) : Nat × Nat := (beNat (bs.take 48), beNat ((bs.drop 48).take 48))

/-- Is a public key X ‖ Y a valid point of the curve (R394)? -/
def ecKeyOk (key : List Byte) : Bool := key.length = 96 && ecOn (ecPair key)

/-- Does a signature r ‖ s over a hash verify under a public key X ‖ Y (ECDSA)? -/
def ecVerify (key hash sig : List Byte) : Bool :=
  let (r, s) := ecPair sig
  ecKeyOk key && sig.length = 96 && decide (0 < r) && decide (r < ecN) && decide (0 < s) && decide (s < ecN) &&
    (let w := invMod ecN s
     match ecAdd (ecMul (beNat hash * w % ecN) ecG) (ecMul (r * w % ecN) (ecPair key)) with
     | some (x, _) => x % ecN = r
     | none => false)

/-- The public key of a private key. -/
def ecPublic (d : Nat) : List Byte :=
  match ecMul (d % ecN) ecG with
  | some (x, y) => beBytes 48 x ++ beBytes 48 y
  | none => []

/-- The signature of a hash with private key `d` and the nonce `k`. -/
def ecSign (d k : Nat) (hash : List Byte) : List Byte :=
  match ecMul (k % ecN) ecG with
  | some (x, _) => beBytes 48 (x % ecN) ++ beBytes 48 (invMod ecN k * (beNat hash + x % ecN * d) % ecN)
  | none => []

end Sys2Proof.Machine
end

