-- ==== Sys2Proof/Syntax.lean ====
section
/-!
DEFINITION. The commands of the block, one constructor per row of the table of operations and events, and the operand
types they carry.
-/

namespace Sys2Proof

/-- An execution unit: 0–25 physical clusters, 26–29 hub cores 0–3 (R266). -/
abbrev UnitId := Fin 30
/-- A scalar or vector register number (R222). -/
abbrev Reg := Fin 32
/-- A predicate register number (R222). -/
abbrev Pred := Fin 8
/-- A tag number (R222); hub cores have t0–t15 only (R226). -/
abbrev Tag := Fin 256
/-- A valve number (R291). -/
abbrev Valve := Fin 128
/-- A lamp string number LS0–LS7 (R311). -/
abbrev Strng := Fin 8

/-- Second source of a SCALAR, EVENT or SYS instruction: a register, or the immediate word (X = 1) (R268). -/
inductive Src where
  | reg (n : Reg)
  | imm (w : Word)
deriving DecidableEq, Repr

/-- Second source of a VECTOR or MAC instruction: a vector, a scalar for every lane (S = 1), or a constant (R273). -/
inductive VSrc where
  | vec (n : Reg)
  | scal (n : Reg)
  | imm (w : Word)
deriving DecidableEq, Repr

/-- Compare conditions in code order (Table 12.5). -/
inductive Cond where
  | eq | ne | lt | le | gt | ge
deriving DecidableEq, Repr

/-- Second operand of a branch: a register, or with BI = 1 an unsigned constant 0–31 (Table 12.15). -/
inductive BSrc where
  | reg (n : Reg)
  | const (k : Fin 32)
deriving DecidableEq, Repr

/-- A branch target: the signed word offset of the short form, or the immediate word of the long form (Table 12.15). -/
inductive Target where
  | off (k : Int)
  | abs (w : Word)
deriving DecidableEq, Repr

/-- The address of a LOAD/STORE: constant + A × SCALE; the constant is absent when X = 0 (R274, Table 12.7). -/
structure Addr where
  const : Option Word
  idx : Reg
  scale : Fin 4
deriving DecidableEq, Repr

/-- The tag of a LOAD/STORE: named, or taken from the unit's pool when AT = 1 (R276). -/
inductive TagSel where
  | named (t : Tag)
  | auto
deriving DecidableEq, Repr

/-- The length of a STREAM: the LEN field, or a register when LR = 1 (Table 12.9). -/
inductive StreamLen where
  | const (len : BitVec 14)
  | reg (n : Reg)
deriving DecidableEq, Repr

/-- The fields of a STREAM instruction but DIR (Table 12.9). -/
structure StreamOp where
  win : Fin 16
  tag : Tag
  ep : BitVec 7
  a : Reg
  offset : BitVec 17
  len : StreamLen
deriving DecidableEq, Repr

/-- The tags a WAIT names (Table 12.14). -/
inductive WaitSel where
  | one (t : Tag)
  | range (t1 t2 : Tag)
  | all
deriving DecidableEq, Repr

/-- A monitored rail whose fault runs the brown-out sequence (Table 3.5, Table 3.6). -/
inductive Rail where
  | v12 | vcoreUv | vcoreOv | vddq | v18 | fda0 | fda1
deriving DecidableEq, Repr

/-- What the clock monitor found (R67). -/
inductive ClockLoss where
  | refclk | rootPll | diePll
deriving DecidableEq, Repr

/-- A source of device time (R70), numbered as LNK.PORT.TIME_PORT numbers it from 1. -/
inductive TimeSrc where
  | vgd0 | vgd1 | eth0 | eth1
deriving DecidableEq, Repr

/-- What one column brings to a conversion: its input in codes before clamping, and its 64 modulator bits (R108,
R112). -/
structure ColIn where
  level : Int
  bits : BitVec 64
deriving DecidableEq, Repr

/-- A baton flit (Table 10.3): payload words W0–W3, their parity bits, sequence number, type and acknowledgement. -/
structure Flit where
  w : List Word
  parity : BitVec 4
  seq : Fin 128
  type : BitVec 2
  ack : BitVec 8
deriving DecidableEq, Repr

/-- The sources of injected conversions in rank order (Table 15.5). -/
inductive InjSrc where
  | cal | thm | pwr | ejt | lum
deriving DecidableEq, Repr

/-- The junction levels and throttle steps (Table 16.2). -/
inductive Level where
  | warning | step1 | step2 | step3 | shutdown
deriving DecidableEq, Repr

/-- What a received Ethernet frame is, as far as the port looks at it (R405, R406). -/
structure EthFrame where
  length : Nat
  vlan : Bool
  fcsOk : Bool
  pause : Bool
  fragment : Bool
deriving DecidableEq, Repr

/-- The data set by which PTP clocks are compared: priority1, then the quality with priority2, then the clock's identity (R407,
IEEE 1588-2019). -/
structure PtpClock where
  prio1 : Byte
  quality : Nat
  identity : BitVec 64
deriving DecidableEq, Repr

/-- What a PTP message brings (R407): its domain and transport, the clock it announces or comes from, the time stamps it carries
and takes, and its two-step flag. -/
structure PtpMsg where
  domain : BitVec 8
  l2 : Bool
  clock : PtpClock
  twoStep : Bool
  seq : BitVec 16
  origin : Int
  taken : Int
deriving DecidableEq, Repr

/-- The header of a command datagram (Table 19.1), with its addresses, source port and UDP checksum and, as received, the
Ethernet port and MAC address it came by. -/
structure Hdr where
  magic : BitVec 16
  version : Byte
  opcode : Byte
  addr : Word
  uid : BitVec 64
  seq : Word
  length : BitVec 16
  status : Byte
  flags : Byte
  srcIp : Word
  dstIp : Word
  srcPort : BitVec 16
  sum : BitVec 16
  eth : Fin 2
  mac : BitVec 48
deriving DecidableEq, Repr

/-- A Vangad cell by its fields, with the CRC that it carries (Table 19.3). -/
structure Cell where
  hops : Nat
  group : BitVec 16
  source : BitVec 18
  cseq : Word
  payload : List Byte
  crc : Word
deriving DecidableEq, Repr

/-- An owner default decision of one band (R257). -/
inductive Dflt where
  | none
  | all (fallNs : Nat) (profile : Nat) (holdUs : Nat)
deriving DecidableEq, Repr

/-- The code of one logical cluster (Table 11.5): placement (`none` for any die), code, handler entry, windows as
(index, base, size), constants as (byte offset, words), and declared bounds as (word address, largest length). -/
structure ClusterCode where
  place : Option (Fin 8)
  code : List Word
  handler : Option Nat
  windows : List (Nat × Nat × Nat)
  consts : List (Nat × List Word)
  bounds : List (Nat × Nat)
deriving DecidableEq, Repr

/-- A Sahari image by its sections (R262, Table 11.5), whose bytes the manual does not lay out, with the bytes its digest is taken
over and its signature r ‖ s (R391).  `chain` is the vendor
key chain of R392, empty where the signer is not 0xF; `budget`,
`classifiers` and `lmin` are B, C and LMIN, absent when the section lacks them. -/
structure Image where
  magic : Word
  version : BitVec 16
  optZt4 : Bool
  optZt8 : Bool
  stepReq : Byte
  signer : BitVec 4
  chain : List Byte
  hub : List (List Word)
  hubHandler : List (Option Nat)
  hubConsts : List (List (Nat × List Word))
  clusters : List ClusterCode
  budget : Option Nat
  classifiers : Option Nat
  lmin : Option Nat
  defaults : List (Option Dflt)
  raw : List Byte
  sig : List Byte
deriving DecidableEq, Repr


/-- The commands of the block: one constructor per row of the table of operations and events.  Each docstring gives
the row's summary and the rule that names it.  The operands are what the rule's own layout gives the operation,
or what the event brings from outside the device (a level, a converted value, a verdict). -/
inductive Instr where
  /-- `ADD` (R272). SCALAR add of two registers or a constant, modulo 2^32. -/
  | add (u : UnitId) (d a : Reg) (b : Src)
  /-- `SUB` (R272). SCALAR subtract, modulo 2^32. -/
  | sub (u : UnitId) (d a : Reg) (b : Src)
  /-- `AND` (R272). SCALAR bitwise AND. -/
  | and (u : UnitId) (d a : Reg) (b : Src)
  /-- `OR` (R272). SCALAR bitwise OR. -/
  | or (u : UnitId) (d a : Reg) (b : Src)
  /-- `XOR` (R272). SCALAR bitwise XOR. -/
  | xor (u : UnitId) (d a : Reg) (b : Src)
  /-- `SHL` (R271). SCALAR shift left by bits [4:0] of the second operand. -/
  | shl (u : UnitId) (d a : Reg) (b : Src)
  /-- `SHR` (R271). SCALAR logical shift right. -/
  | shr (u : UnitId) (d a : Reg) (b : Src)
  /-- `SRA` (R271). SCALAR arithmetic shift right. -/
  | sra (u : UnitId) (d a : Reg) (b : Src)
  /-- `MUL` (R272). SCALAR low 32 bits of the product. -/
  | mul (u : UnitId) (d a : Reg) (b : Src)
  /-- `MULH` (R272). SCALAR high 32 bits of the signed 64-bit product. -/
  | mulh (u : UnitId) (d a : Reg) (b : Src)
  /-- `MIN` (R272). SCALAR signed minimum. -/
  | min (u : UnitId) (d a : Reg) (b : Src)
  /-- `MAX` (R272). SCALAR signed maximum. -/
  | max (u : UnitId) (d a : Reg) (b : Src)
  /-- `SLT` (R272). SCALAR set when less than, signed. -/
  | slt (u : UnitId) (d a : Reg) (b : Src)
  /-- `SLTU` (R272). SCALAR set when less than, unsigned. -/
  | sltu (u : UnitId) (d a : Reg) (b : Src)
  /-- `MOV` (R272). SCALAR copy of a register or constant. -/
  | mov (u : UnitId) (d : Reg) (b : Src)
  /-- `ADD_D` (R270). SCALAR pair sum modulo 2^64. -/
  | addD (u : UnitId) (d a : Reg) (b : Src)
  /-- `SUB_D` (R270). SCALAR pair difference modulo 2^64. -/
  | subD (u : UnitId) (d a : Reg) (b : Src)
  /-- `MOV_D` (R270). SCALAR pair copy or sign-extended constant. -/
  | movD (u : UnitId) (d : Reg) (b : Src)
  /-- `VADD` (R273). VECTOR lane-wise add under the governing predicate. -/
  | vadd (u : UnitId) (d a : Reg) (b : VSrc) (pg : Option Pred)
  /-- `VSUB` (R273). VECTOR lane-wise subtract. -/
  | vsub (u : UnitId) (d a : Reg) (b : VSrc) (pg : Option Pred)
  /-- `VAND` (R273). VECTOR lane-wise AND. -/
  | vand (u : UnitId) (d a : Reg) (b : VSrc) (pg : Option Pred)
  /-- `VOR` (R273). VECTOR lane-wise OR. -/
  | vor (u : UnitId) (d a : Reg) (b : VSrc) (pg : Option Pred)
  /-- `VXOR` (R273). VECTOR lane-wise XOR. -/
  | vxor (u : UnitId) (d a : Reg) (b : VSrc) (pg : Option Pred)
  /-- `VSHL` (R273). VECTOR lane-wise shift left. -/
  | vshl (u : UnitId) (d a : Reg) (b : VSrc) (pg : Option Pred)
  /-- `VSHR` (R273). VECTOR lane-wise logical shift right. -/
  | vshr (u : UnitId) (d a : Reg) (b : VSrc) (pg : Option Pred)
  /-- `VSRA` (R273). VECTOR lane-wise arithmetic shift right. -/
  | vsra (u : UnitId) (d a : Reg) (b : VSrc) (pg : Option Pred)
  /-- `VMIN` (R273). VECTOR lane-wise signed minimum. -/
  | vmin (u : UnitId) (d a : Reg) (b : VSrc) (pg : Option Pred)
  /-- `VMAX` (R273). VECTOR lane-wise signed maximum. -/
  | vmax (u : UnitId) (d a : Reg) (b : VSrc) (pg : Option Pred)
  /-- `VABS` (R273). VECTOR lane-wise saturating absolute value. -/
  | vabs (u : UnitId) (d a : Reg) (pg : Option Pred)
  /-- `VMOV` (R273). VECTOR lane-wise copy. -/
  | vmov (u : UnitId) (d : Reg) (b : VSrc) (pg : Option Pred)
  /-- `VVAL` (R273). VECTOR sign-extends the 24-bit VALUE of each lane. -/
  | vval (u : UnitId) (d a : Reg) (pg : Option Pred)
  /-- `VEXT` (R273). VECTOR extracts one lane into a scalar register. -/
  | vext (u : UnitId) (d a : Reg) (b : Src) (pg : Option Pred)
  /-- `VSUM` (R273). VECTOR sums the allowed lanes into a scalar. -/
  | vsum (u : UnitId) (d a : Reg) (pg : Option Pred)
  /-- `VCMP` (R273). VECTOR compares the 24-bit values into a predicate. -/
  | vcmp (u : UnitId) (c : Cond) (d : Pred) (a : Reg) (b : VSrc) (pg : Option Pred)
  /-- `VCMPW` (R273). VECTOR compares full 32-bit lanes into a predicate. -/
  | vcmpw (u : UnitId) (c : Cond) (d : Pred) (a : Reg) (b : VSrc) (pg : Option Pred)
  /-- `VFLAGS` (R273). VECTOR sets predicate lanes free of TAINT, BAD and DROP. -/
  | vflags (u : UnitId) (d : Pred) (a b : Reg)
  /-- `PCOUNT` (R273). Counts the set bits of a predicate. -/
  | pcount (u : UnitId) (d : Reg) (a : Pred)
  /-- `VMAC_H` (R273). MAC of signed halves, accumulating modulo 2^32. -/
  | vmacH (u : UnitId) (d a : Reg) (b : VSrc) (pg : Option Pred)
  /-- `VMAC_HS` (R273). MAC of signed halves, saturating. -/
  | vmacHs (u : UnitId) (d a : Reg) (b : VSrc) (pg : Option Pred)
  /-- `VMAC_W` (R273). MAC adding the low 32 bits of the word product. -/
  | vmacW (u : UnitId) (d a : Reg) (b : VSrc) (pg : Option Pred)
  /-- `VMUL_W` (R273). Lane-wise low 32 bits of the word product. -/
  | vmulW (u : UnitId) (d a : Reg) (b : VSrc) (pg : Option Pred)
  /-- `VMULH_W` (R273). Lane-wise high 32 bits of the signed word product. -/
  | vmulhW (u : UnitId) (d a : Reg) (b : VSrc) (pg : Option Pred)
  /-- `VDOT_H` (R273). Dot product of halves over allowed lanes into a scalar. -/
  | vdotH (u : UnitId) (d a : Reg) (b : VSrc) (pg : Option Pred)
  /-- `LOAD` (R274). Tagged 32-bit load from cluster store or hub data memory. -/
  | load (u : UnitId) (d : Reg) (m : Addr) (t : TagSel)
  /-- `LOAD_D` (R274). Tagged 64-bit load into a register pair. -/
  | loadD (u : UnitId) (d : Reg) (m : Addr) (t : TagSel)
  /-- `LOAD_H` (R274). Tagged sign-extended halfword load. -/
  | loadH (u : UnitId) (d : Reg) (m : Addr) (t : TagSel)
  /-- `LOAD_HU` (R274). Tagged zero-extended halfword load. -/
  | loadHu (u : UnitId) (d : Reg) (m : Addr) (t : TagSel)
  /-- `LOAD_B` (R274). Tagged sign-extended byte load. -/
  | loadB (u : UnitId) (d : Reg) (m : Addr) (t : TagSel)
  /-- `LOAD_BU` (R274). Tagged zero-extended byte load. -/
  | loadBu (u : UnitId) (d : Reg) (m : Addr) (t : TagSel)
  /-- `STORE` (R275). Tagged 32-bit store. -/
  | store (u : UnitId) (d : Reg) (m : Addr) (t : TagSel)
  /-- `STORE_D` (R275). Tagged 64-bit store of a register pair. -/
  | storeD (u : UnitId) (d : Reg) (m : Addr) (t : TagSel)
  /-- `STORE_H` (R275). Tagged halfword store by read-merge-write. -/
  | storeH (u : UnitId) (d : Reg) (m : Addr) (t : TagSel)
  /-- `STORE_B` (R275). Tagged byte store by read-merge-write. -/
  | storeB (u : UnitId) (d : Reg) (m : Addr) (t : TagSel)
  /-- `VLOAD` (R274). Tagged load of 32 words into a vector register. -/
  | vload (u : UnitId) (d : Reg) (m : Addr) (t : TagSel)
  /-- `VSTORE` (R275). Tagged store of 32 lanes. -/
  | vstore (u : UnitId) (d : Reg) (m : Addr) (t : TagSel)
  /-- `LOAD_COMPLETE` (R275). A tagged load or store finishes and its tag leaves BUSY. -/
  | loadComplete (u : UnitId) (t : Tag)
  /-- `STREAM_IN` (R278). Issues a tagged transfer from an endpoint into a window. -/
  | streamIn (u : UnitId) (q : StreamOp)
  /-- `STREAM_OUT` (R278). Issues a tagged transfer from a window to an endpoint. -/
  | streamOut (u : UnitId) (q : StreamOp)
  /-- `TRANSFER_COMPLETE` (R279). The last word of a transfer lands and its tag leaves BUSY. -/
  | transferComplete (u : UnitId) (t : Tag)
  /-- `TAG_TIMEOUT` (R251). A tagged operation not finished within 1 ms ends with TIMEOUT. -/
  | tagTimeout (u : UnitId) (t : Tag)
  /-- `EJECT` (R281). Checks C2 and sends a shot and decision command with its complement to the actuator dies. -/
  | eject (u : UnitId) (n : Reg)
  /-- `LATCH` (R283). Sends a latch command to named dies and, with a group, to other modules. -/
  | latch (u : UnitId) (n : Reg)
  /-- `LAMP` (R284). Stages one illumination setting at its die. -/
  | lamp (u : UnitId) (a : Reg) (b : Src)
  /-- `SADC_START_SINGLE` (R336). Starts one sequence pass, or turns continuous into single. -/
  | sadcStartSingle (u : UnitId) (b : Src)
  /-- `SADC_START_CONTINUOUS` (R336). Starts repeating passes, or turns single into continuous. -/
  | sadcStartContinuous (u : UnitId) (b : Src)
  /-- `SADC_START_STOP` (R336). Stops the sequence after the entry in progress. -/
  | sadcStartStop (u : UnitId) (b : Src)
  /-- `CAL_REQ_RUN` (R180). Sets the pending slot of a calibration item. -/
  | calReqRun (u : UnitId) (b : Src)
  /-- `CAL_REQ_CANCEL` (R180). Clears the pending slot of a calibration item. -/
  | calReqCancel (u : UnitId) (b : Src)
  /-- `CAL_REQ_GAP` (R184). Declares a gap with start and length. -/
  | calReqGap (u : UnitId) (b : Src)
  /-- `SYNC` (R117). Requests a synchronising reset and drives LSYNC in output mode. -/
  | sync (u : UnitId)
  /-- `SHUTTER_CLOSE` (R113). Drives the shutter coil closed for TRAVEL, then holds it. -/
  | shutterClose (u : UnitId) (b : Src)
  /-- `SHUTTER_OPEN` (R113). Releases the shutter flag to the spring. -/
  | shutterOpen (u : UnitId) (b : Src)
  /-- `WAIT` (R247). Stalls issue until no named tag is BUSY. -/
  | wait (u : UnitId) (w : WaitSel)
  /-- `FENCE` (R248). Holds later tagged and EVENT instructions until earlier tags leave BUSY. -/
  | fence (u : UnitId)
  /-- `TAGSTAT` (R285). Reads a tag's state and code and frees a finished tag. -/
  | tagstat (u : UnitId) (d : Reg) (t : Tag)
  /-- `BEQ` (R286). Branch when equal. -/
  | beq (u : UnitId) (a : Reg) (b : BSrc) (g : Target)
  /-- `BNE` (R286). Branch when not equal. -/
  | bne (u : UnitId) (a : Reg) (b : BSrc) (g : Target)
  /-- `BLT` (R286). Branch when less, signed. -/
  | blt (u : UnitId) (a : Reg) (b : BSrc) (g : Target)
  /-- `BGE` (R286). Branch when greater or equal, signed. -/
  | bge (u : UnitId) (a : Reg) (b : BSrc) (g : Target)
  /-- `BLTU` (R286). Branch when less, unsigned. -/
  | bltu (u : UnitId) (a : Reg) (b : BSrc) (g : Target)
  /-- `BGEU` (R286). Branch when greater or equal, unsigned. -/
  | bgeu (u : UnitId) (a : Reg) (b : BSrc) (g : Target)
  /-- `JMP` (R286). Branch always. -/
  | jmp (u : UnitId) (g : Target)
  /-- `CALL` (R287). Writes the return address to s31 and branches. -/
  | call (u : UnitId) (g : Target)
  /-- `JMPR` (R286). Branches to the address in a register. -/
  | jmpr (u : UnitId) (a : Reg)
  /-- `RET` (R287). Branches to the address in s31. -/
  | ret (u : UnitId)
  /-- `RETX` (R287). Returns from the exception handler past the faulting instruction. -/
  | retx (u : UnitId)
  /-- `LOOP` (R286). Decrements a register and branches while it is non-zero. -/
  | loop (u : UnitId) (a : Reg) (g : Target)
  /-- `STAT` (R260). Reads one status word into a scalar register. -/
  | stat (u : UnitId) (d a : Reg) (k : Option Word)
  /-- `EVT_CLR` (R443). Clears the RS and RC fields of a status word touched by a mask. -/
  | evtClr (u : UnitId) (m a : Reg) (k : Option Word)
  /-- `SYS_RESET_FULL` (R75). Hub instruction that takes a full reset. -/
  | sysResetFull (u : UnitId) (b : Src)
  /-- `SYS_RESET_DIE` (R75). Hub instruction that resets one die. -/
  | sysResetDie (u : UnitId) (b : Src)
  /-- `SYS_RESET_CLUSTER` (R75). Hub instruction that resets one stride cluster. -/
  | sysResetCluster (u : UnitId) (b : Src)
  /-- `SYS_FREEZE` (R428). Hub instruction that requests a freeze. -/
  | sysFreeze (u : UnitId)
  /-- `SYS_STANDBY` (R90). Begins entry to STANDBY. -/
  | sysStandby (u : UnitId)
  /-- `SYS_PARK` (R90). Begins entry to PARK. -/
  | sysPark (u : UnitId)
  /-- `SYS_RUN` (R91). Begins exit from STANDBY or PARK. -/
  | sysRun (u : UnitId)
  /-- `SYS_LIFECYCLE` (R92). Presents a signed life-cycle authorisation from hub data memory. -/
  | sysLifecycle (u : UnitId) (b : Src)
  /-- `SYS_LOAD` (R265). Resets a logical cluster's physical cluster and places its code again. -/
  | sysLoad (u : UnitId) (b : Src)
  /-- `POWER_ON` (R75). VIN_SNS rises from below 20 V; the supervisor starts and the power-up sequence runs. -/
  | powerOn
  /-- `REFCLK_PRESENT` (R60). Hub power control finds REFCLK and continues the power-up sequence. -/
  | refclkPresent
  /-- `INRUSH_COMPLETE` (R54). VIN0 and VIN1 reach VIN_SNS; the gate is driven fully on and the 12 V converter starts. -/
  | inrushComplete
  /-- `INRUSH_TIMEOUT` (R54). Inrush not complete within 20 ms; the gate turns off. -/
  | inrushTimeout
  /-- `INRUSH_RETRY` (R54). Inrush is attempted again 1 s after a timeout or trip. -/
  | inrushRetry
  /-- `INPUT_OVERCURRENT_TRIP` (R54). Shunt voltage reaches 100 mV for 1 µs; gate off and brown-out sequence runs. -/
  | inputOvercurrentTrip
  /-- `RAIL_SEQUENCE_STEP` (R60). A rail comes within limits and the next rail of the power-up sequence starts. -/
  | railSequenceStep
  /-- `RESET_RELEASE` (R78). Dividers are aligned and reset is released to the starting block, which begins the boot sequence. -/
  | resetRelease (cl : BitVec 26) (eng : BitVec 80) (bad : List (Fin 16))
  /-- `VIN_LOW_ENTRY` (R51). VIN_SNS enters the Low zone. -/
  | vinLowEntry
  /-- `VIN_NORMAL_ENTRY` (R51). VIN_SNS returns to the Normal zone. -/
  | vinNormalEntry
  /-- `VIN_HIGH_ENTRY` (R51). VIN_SNS enters the High zone. -/
  | vinHighEntry
  /-- `VIN_OVER_ENTRY` (R51). VIN_SNS enters the Over zone; new shots are refused and running shots quench. -/
  | vinOverEntry
  /-- `VIN_OV_TRIP` (R52). Over zone for 100 ms or above 92 V for 5 µs; gate off and brown-out reset. -/
  | vinOvTrip
  /-- `BROWNOUT` (R61). VIN_SNS below 33.0 V for 10 µs; the brown-out sequence runs. -/
  | brownout
  /-- `BROWNOUT_END` (R53). The brown-out reset ends under the rule for its cause and power-up runs again. -/
  | brownoutEnd
  /-- `RAIL_FAULT` (R62). A monitored rail leaves its limits; brown-out sequence from its 10 µs row. -/
  | railFault (r : Rail)
  /-- `RAIL_RETRY_WAIT_END` (R62). The 10 s wait after three failed attempts ends and a power-up attempt starts. -/
  | railRetryWaitEnd
  /-- `PWR_VIN_CONVERSION` (R63). VIN_SNS is converted every 1 ms into PWR.STATE.VIN. -/
  | pwrVinConversion (v : BitVec 16)
  /-- `CLOCK_LOSS` (R67). REFCLK or a PLL fails; outputs go to reset states and the device is held. -/
  | clockLoss (k : ClockLoss)
  /-- `CLOCK_RESTART` (R67). REFCLK good for 1 ms; the device restarts or the power-up sequence continues. -/
  | clockRestart
  /-- `SERDES_UNLOCK` (R68). A SerDes PLL loses lock and only its link goes down. -/
  | serdesUnlock (p : Fin 4)
  /-- `TIME_SOURCE_LOST` (R70). The time source is lost; holdover keeps the last rate correction. -/
  | timeSourceLost
  /-- `TIME_OFFSET_MEASURED` (R71). A new offset from the source starts a slew or a step. -/
  | timeOffsetMeasured (src : TimeSrc) (off : Int)
  /-- `TIME_STEP` (R72). A deferred step is made once queues are empty and no LATCH is staged. -/
  | timeStep
  /-- `SLEW_COMPLETE` (R72). A slew has corrected the last measured offset. -/
  | slewComplete
  /-- `RESET_N_ASSERT` (R75). RESET_N qualifies low and a full reset begins. -/
  | resetNAssert (ns : Nat)
  /-- `RESET_N_RELEASE` (R75). RESET_N rises and the reset ends. -/
  | resetNRelease
  /-- `HUB_WATCHDOG` (R75). Hub core 0 retires nothing for 50 ms, or the deadline monitor misses twice; full reset. -/
  | hubWatchdog
  /-- `SIGNATURE_VERIFIED` (R80). The image signature check completes; the other slot is tried or the host image awaited on failure. -/
  | signatureVerified
  /-- `INDEX_COMPLETE` (R379). The record-store scanner finishes and the index is ready. -/
  | indexComplete
  /-- `PIXEL_MODEL_LOADED` (R79). Pixel models are copied into stream-die SRAM. -/
  | pixelModelLoaded
  /-- `FIRST_INSTRUCTION` (R78). Hub cores and clusters start; the reset event is raised and ALIVE starts. -/
  | firstInstruction
  /-- `DDR_TRAINING_COMPLETE` (R78). DDR5 training ends and the background wipe starts. -/
  | ddrTrainingComplete (size : BitVec 8) (eyes : List (BitVec 16))
  /-- `DDR_WIPE_COMPLETE` (R84). The background wipe has passed all DDR5 and access is allowed. -/
  | ddrWipeComplete
  /-- `DIE_REJOIN` (R88). A reset die rejoins at the next line-slot boundary with its settings restored. -/
  | dieRejoin (d : Fin 8) (bad : List (Fin 16))
  /-- `STANDBY_PARK_ENTRY` (R90). Entry to STANDBY or PARK completes after tags finish. -/
  | standbyParkEntry
  /-- `EXIT_COMPLETE` (R91). Exit from STANDBY or PARK completes and the synchronising reset follows. -/
  | exitComplete
  /-- `LIFECYCLE_WIPE_COMPLETE` (R93). The starting block finishes erasing partitions and writes the completion mark. -/
  | lifecycleWipeComplete
  /-- `FPD_CTL_RECORD` (R99). A pacer settings record arrives at FPD0.CTL or FPD1.CTL and is accepted or refused. -/
  | fpdCtlRecord (u : UnitId) (t : Tag)
  /-- `LINE_SLOT_BOUNDARY` (R98). A line slot ends and the next begins, taking up pending settings. -/
  | lineSlotBoundary
  /-- `ROW_SLOT_END` (R108). A row conversion completes and each column yields a pixel word. -/
  | rowSlotEnd (d : Fin 2) (row : Fin 50) (x : List ColIn) (ampErr : Bool)
  /-- `SUBSTRATE_SAMPLE` (R105). The substrate sensor is sampled every 1 ms and filtered. -/
  | substrateSample (d : Fin 2) (temp : Int)
  /-- `BAND_DWELL_COMPLETE` (R105). A dwell has lasted 100 ms and a band change becomes pending. -/
  | bandDwellComplete (d : Fin 2)
  /-- `BIAS_SETTLED` (R101). 10 ms after the bias starts the settling window ends. -/
  | biasSettled (d : Fin 2)
  /-- `LSYNC_RISE` (R117). An LSYNC rising edge in input mode requests a synchronising reset. -/
  | lsyncRise (ns : Nat)
  /-- `SYNC_RESET_EDGE` (R118). The internal reset edge restarts every pacer at line 0. -/
  | syncResetEdge
  /-- `SHUTTER_TRAVEL_END` (R113). TRAVEL ends and the shutter holds CLOSED. -/
  | shutterTravelEnd (d : Fin 2)
  /-- `SHUTTER_REOPEN_END` (R113). REOPEN passes and the shutter reads OPEN. -/
  | shutterReopenEnd (d : Fin 2)
  /-- `SHUTTER_FAULT` (R115). Coil overcurrent or open load; the bridge goes to high impedance. -/
  | shutterFault (d : Fin 2) (overcurrent : Bool)
  /-- `ALG_CTL_RECORD` (R122). An ALONG settings record is accepted or refused. -/
  | algCtlRecord (u : UnitId) (t : Tag)
  /-- `ALG_RAM_LOAD` (R131). A RAM bank part is loaded or refused. -/
  | algRamLoad (u : UnitId) (t : Tag)
  /-- `ALG_DET_READ` (R140). A transfer reads detector records from ALG.DET. -/
  | algDetRead (u : UnitId) (t : Tag)
  /-- `CSN_CTL_RECORD` (R143). A CSENSE settings word is accepted or refused. -/
  | csnCtlRecord (u : UnitId) (t : Tag)
  /-- `CSN_BLOCK` (R144). A 64-sample CSENSE block is delivered to the scheduler and endpoint. -/
  | csnBlock (d : Fin 2) (age : Nat) (x : List (BitVec 64)) (cmp : List (Fin 64 × Int))
  /-- `CSN_OUT_READ` (R144). A transfer reads CSENSE blocks. -/
  | csnOutRead (u : UnitId) (t : Tag)
  /-- `ROW_SLOT_CORRECTION` (R155). The words of a row slot arrive at a stream die and are corrected. -/
  | rowSlotCorrection (d : Fin 2) (row : Fin 50) (bad : List (Fin 2048)) (refs : List (Fin 4 × Fin 16))
  /-- `MODEL_PARITY_RELOAD` (R154). The failed entry is reloaded from its master copy. -/
  | modelParityReload (d : Fin 2) (row : Fin 50) (col : Fin 2048)
  /-- `COR_MODEL_RECORD` (R152). A working-copy write record is accepted or refused. -/
  | corModelRecord (u : UnitId) (t : Tag)
  /-- `COR_CTL_RECORD` (R159). A grid and estimator record is accepted or refused. -/
  | corCtlRecord (u : UnitId) (t : Tag)
  /-- `FUSED_LINE_ENTRY` (R167). Every band and enabled port has delivered and the fused line enters the FUSED ring. -/
  | fusedLineEntry
  /-- `FUSED_READ` (R240). A transfer reads part of a held fused line. -/
  | fusedRead (u : UnitId) (t : Tag) (bad : List Nat)
  /-- `COR_BLIND_READ` (R157). A transfer reads a blind-row record. -/
  | corBlindRead (u : UnitId) (t : Tag)
  /-- `COR_REG_MAP` (R174). A camera registration map is accepted or refused. -/
  | corRegMap (u : UnitId) (t : Tag)
  /-- `FPD_RAW_READ` (R112). A transfer takes raw-modulator words in diagnostic mode. -/
  | fpdRawRead (u : UnitId) (t : Tag)
  /-- `CAL_CTL_RECORD` (R178). A calibration settings record is accepted or refused. -/
  | calCtlRecord (u : UnitId) (t : Tag)
  /-- `CAL_AUTO_REQUEST` (R182). A SHUT_EVERY or ATRIM_EVERY interval expires and a run request is raised. -/
  | calAutoRequest (i : Fin 12)
  /-- `CAL_WAITING` (R180). A SHUT or SADC request has been pending for 60 min. -/
  | calWaiting (i : Fin 12)
  /-- `DECLARED_GAP_OPEN` (R184). A declared gap opens at its START. -/
  | declaredGapOpen
  /-- `DECLARED_GAP_CLOSE` (R184). A declared gap closes LEN after opening. -/
  | declaredGapClose
  /-- `FEED_GAP_OPEN` (R183). FEED_GAP has been high for 1.0 ms and a gap opens. -/
  | feedGapOpen (rise : Bool)
  /-- `FEED_GAP_CLOSE` (R183). FEED_GAP falls and the gap closes. -/
  | feedGapClose (ns : Nat)
  /-- `SHUT_RUN_START` (R188). A pending SHUT run starts once its gap conditions hold and issues CLOSE. -/
  | shutRunStart (d : Fin 2)
  /-- `SHUT_MEASURE_START` (R188). Measurement starts at the first boundary after TRAVEL. -/
  | shutMeasureStart (d : Fin 2)
  /-- `SHUT_MEASURE_END` (R190). Measurement ends; OPEN is issued and the fit and acceptance run. -/
  | shutMeasureEnd (d : Fin 2)
  /-- `SCENE_RUN_END` (R193). Enough background line slots are summed and gains are refined. -/
  | sceneRunEnd (d : Fin 2)
  /-- `SCENE_TIMEOUT` (R194). A SCENE run exceeds SCENE_TIMEOUT and fails. -/
  | sceneTimeout (d : Fin 2)
  /-- `CLASS_A_RUN_START` (R195). A Class A run starts in its allowed time and converts its reference. -/
  | classARunStart (i : Fin 12)
  /-- `CLASS_A_REPEAT_END` (R195). A Class A measurement repeat completes; after two the trims are decided. -/
  | classARepeatEnd (i : Fin 12) (codes : List (List Int)) (amp : Int)
  /-- `CSN_IDLE_TIMEOUT` (R197). A CSN channel finds no idle time within 10 s. -/
  | csnIdleTimeout (d : Fin 2) (ch : Fin 64)
  /-- `CAL_SADC_RETRY` (R197). A dropped CAL injected request is retried after 20 µs. -/
  | calSadcRetry
  /-- `SAVE_DUE` (R200). SAVE_HOURS expires after the first unsaved acceptance and SAVE runs. -/
  | saveDue
  /-- `SAVE_RETRY` (R200). A failed SAVE is retried after 10 min. -/
  | saveRetry
  /-- `SAVE_COMPLETE` (R377). All changed records and the commit record are committed. -/
  | saveComplete (ok : Bool)
  /-- `CAM_CTL_RECORD` (R205). A camera port settings record is accepted or refused. -/
  | camCtlRecord (u : UnitId) (t : Tag)
  /-- `CAM_PIPE_RECORD` (R215). A pipeline record is accepted or refused. -/
  | camPipeRecord (u : UnitId) (t : Tag)
  /-- `CAM_DEFECT_MAP` (R217). A defect map is accepted or refused. -/
  | camDefectMap (u : UnitId) (t : Tag)
  /-- `CAM_TRIGGER` (R207). A camera trigger and exposure window are issued. -/
  | camTrigger (p : Fin 2) (k : Fin 4)
  /-- `CAM_LINE_OPEN` (R210). LVAL rises; a line opens and pairs with a trigger, or is dropped. -/
  | camLineOpen (p : Fin 2)
  /-- `CAM_LINE_CLOSE` (R210). LVAL low for two edges closes the line, padded if short. -/
  | camLineClose (p : Fin 2)
  /-- `CAM_FRAME_OPEN` (R210). FVAL rises and a frame opens. -/
  | camFrameOpen (p : Fin 2)
  /-- `CAM_FRAME_END` (R211). FVAL falls; missing lines or rows are padded. -/
  | camFrameEnd (p : Fin 2)
  /-- `CAM_LINE_TIMEOUT` (R211). TIMEOUT passes before the paired line closes; the line is synthesised. -/
  | camLineTimeout (p : Fin 2)
  /-- `CAM_LINE_ADMIT` (R213). A closed line is admitted to the shared pipeline when it is free. -/
  | camLineAdmit (p : Fin 2) (bad : List Nat)
  /-- `CAM_LINE_OUT` (R218). A processed camera line leaves the pipeline to the resampler. -/
  | camLineOut (p : Fin 2)
  /-- `CAM_WAIT_END` (R219). The camera wait ends; needed lines are treated as late. -/
  | camWaitEnd (p : Fin 2)
  /-- `FLIT_RECEIVED` (R231). A flit arrives; on parity failure a replay request is sent. -/
  | flitReceived (l : Fin 16) (up : Bool) (f : Flit) (noise : List (BitVec 33))
  /-- `REPLAY_REQUEST` (R231). A sender resends from the named flit. -/
  | replayRequest (l : Fin 16) (up : Bool) (q : Fin 128)
  /-- `LINK_REMAP_COMPLETE` (R232). Traffic of a fatal link moves to its second path. -/
  | linkRemapComplete (l : Fin 16)
  /-- `DDR_ACCESS` (R236). A transfer to or from a DDR5 endpoint. -/
  | ddrAccess (u : UnitId) (t : Tag)
  /-- `DDR_READ_BURST` (R234). A DDR5 read burst returns and is checked for parity. -/
  | ddrReadBurst (c : Fin 4) (a : BitVec 30) (fails : Nat)
  /-- `DDR_ALERT` (R237). ALERT_N reports command parity error; the command is retried or the channel is fatal. -/
  | ddrAlert (c : Fin 4) (fails : Nat)
  /-- `DDR_TEMP_CHECK` (R238). Every 100 ms the SPD sensor is read and refresh rate set. -/
  | ddrTempCheck (c : Fin 4) (temp : Int)
  /-- `CLUSTER_TRANSFER` (R239). A transfer to or from another cluster's store. -/
  | clusterTransfer (u : UnitId) (t : Tag)
  /-- `LINE_NOTICE` (R297). A line notice arrives at an actuator die. -/
  | lineNotice (d : Fin 2)
  /-- `EJECT_ARRIVAL` (R298). An EJECT arrives at an actuator die and passes the acceptance steps. -/
  | ejectArrival (d : Fin 2)
  /-- `LINE_BOUND_PASS` (R299). An OPEN line's bound passes; the owner default applies. -/
  | lineBoundPass (d : Fin 2) (b : Fin 16) (n : BitVec 24)
  /-- `UNCOMMITTED_LAST_START` (R300). An uncommitted shot's last start passes and it is discarded. -/
  | uncommittedLastStart (d : Fin 2)
  /-- `SHOT_ENERGISE` (R300). A committed shot's time and peak place come and its coil is energised. -/
  | shotEnergise (v : Valve)
  /-- `PEAK_END` (R295). Peak ends by current or PEAK_TIME and hold begins. -/
  | peakEnd (v : Valve) (x : Option Int)
  /-- `SHOT_END` (R295). HOLD or MAX_ON ends the shot and it quenches. -/
  | shotEnd (v : Valve)
  /-- `QUENCH_END` (R296). Current falls below 20 mA and VHSg opens under QUENCH = 1. -/
  | quenchEnd (v : Valve) (x : Int)
  /-- `DIP_DETECTED` (R301). The armature dip is found and the learned lag updated. -/
  | dipDetected (v : Valve)
  /-- `DIP_SEARCH_END` (R301). The search ends with NO_MOTION. -/
  | dipSearchEnd (v : Valve)
  /-- `COIL_MODEL_UPDATE` (R303). Every 1 ms coil temperature estimates and bands update. -/
  | coilModelUpdate (d : Fin 2)
  /-- `VALVE_OPEN_FAULT` (R306). Current below 50 mA 200 µs after energise. -/
  | valveOpenFault (v : Valve) (x : Int)
  /-- `VALVE_SHORT_FAULT` (R306). Channel current at least 2.4 A for 1 µs. -/
  | valveShortFault (v : Valve) (x : Int)
  /-- `HIGH_SIDE_FAULT` (R306). Group high-side overcurrent or low voltage disables the group. -/
  | highSideFault (g : Fin 16)
  /-- `EJT_CTL_DIE` (R293). An actuator die record is accepted or refused. -/
  | ejtCtlDie (u : UnitId) (t : Tag)
  /-- `EJT_CTL_PROFILE` (R293). A valve profile record is accepted or refused. -/
  | ejtCtlProfile (u : UnitId) (t : Tag)
  /-- `EJT_CTL_VALVES` (R294). Valve entries are accepted or refused. -/
  | ejtCtlValves (u : UnitId) (t : Tag)
  /-- `LUM_DIE_RECORD` (R314). An illumination die record is staged or refused. -/
  | lumDieRecord (u : UnitId) (t : Tag)
  /-- `LUM_STRING_RECORD` (R314). A string record is accepted or refused. -/
  | lumStringRecord (u : UnitId) (t : Tag)
  /-- `LATCH_ARRIVAL` (R321). A LATCH arrives at a die and is checked and staged. -/
  | latchArrival (d : Fin 2)
  /-- `LATCH_APPLY` (R320). A staged LATCH applies the stage at its application point. -/
  | latchApply (d : Fin 2)
  /-- `PWM_PERIOD_START` (R315). A PWM period starts with the effective current. -/
  | pwmPeriodStart (d : Fin 2)
  /-- `MATRIX_CYCLE_START` (R318). A matrix cycle starts its lines. -/
  | matrixCycleStart (d : Fin 2)
  /-- `LAMP_TEST_WINDOW` (R325). A lit lamp is tested in its 2 µs window. -/
  | lampTestWindow (s : Strng) (k : Fin 10) (mv pct : Nat)
  /-- `OPEN_STRING_FAULT` (R325). String current below 10 % 20 µs after a start. -/
  | openStringFault (s : Strng) (pct : Nat)
  /-- `INDUCTOR_OVERCURRENT` (R325). Eight cycle cuts within 1 ms stop the regulator. -/
  | inductorOvercurrent (s : Strng) (ma : Nat)
  /-- `REGULATOR_DECAY_END` (R312). A stopped string's current falls below 10 mA and the bypass switches open. -/
  | regulatorDecayEnd (s : Strng)
  /-- `NEIGHBOUR_TEST` (R327). A node is tested for shorts during a stopped interval. -/
  | neighbourTest (s : Strng) (v : List (Fin 4 × Fin 11 × Nat)) (a b : Nat)
  /-- `NEIGHBOUR_UNTESTED` (R327). No full neighbour test in 60 s. -/
  | neighbourUntested (s : Strng)
  /-- `LAMP_STRETCH` (R326). A short lit interval is lengthened to 4 µs for a test. -/
  | lampStretch (s : Strng) (k : Fin 10)
  /-- `LAMP_UNVERIFIED` (R326). 10 s pass without a test and the lamp becomes UNVERIFIED. -/
  | lampUnverified (s : Strng) (k : Fin 10)
  /-- `COLOUR_LOOP_UPDATE` (R323). Once per second the string trim is updated. -/
  | colourLoopUpdate (s : Strng)
  /-- `THERMISTOR_CONVERSION` (R324). Every 100 ms the lamp-board thermistor sets the derating factor. -/
  | thermistorConversion (s : Strng)
  /-- `THERMISTOR_TIMEOUT` (R324). No conversion for 1 s; the string takes fault THERM. -/
  | thermistorTimeout (s : Strng)
  /-- `LAMP_HOUR_CELL` (R330). Each lit hour programs a lamp counter cell. -/
  | lampHourCell (s : Strng) (k : Fin 10)
  /-- `SADC_CTL_CONTROL` (R335). A SADC control record is accepted or refused. -/
  | sadcCtlControl (u : UnitId) (t : Tag)
  /-- `SADC_CTL_SEQUENCE` (R335). SADC sequence entries are accepted or refused. -/
  | sadcCtlSequence (u : UnitId) (t : Tag)
  /-- `SADC_CTL_HURDLE` (R335). A hurdle record is accepted or refused. -/
  | sadcCtlHurdle (u : UnitId) (t : Tag)
  /-- `SADC_RES_READ` (R339). A transfer reads the result buffer. -/
  | sadcResRead (u : UnitId) (t : Tag)
  /-- `SADC_ENTRY_END` (R338). A sequence conversion ends and its result is written. -/
  | sadcEntryEnd (x y : Rat)
  /-- `SADC_GAP_END` (R336). GAP ends and the next continuous pass starts. -/
  | sadcGapEnd
  /-- `INJECTED_REQUEST` (R341). A subsystem requests a single conversion; accepted or dropped. -/
  | injectedRequest (src : InjSrc) (inp : Fin 64) (sub : Fin 4) (key : Nat)
  /-- `INJECTED_CONVERSION_END` (R341). An injected conversion returns its code to the source. -/
  | injectedConversionEnd (x : Rat)
  /-- `SELF_TRIM_START` (R343). The self-trim starts after work in progress finishes. -/
  | selfTrimStart
  /-- `SELF_TRIM_END` (R343). The self-trim ends and a running sequence resumes. -/
  | selfTrimEnd (off gain : BitVec 8)
  /-- `JUNCTION_SAMPLE` (R350). A die reading is formed at 1 kHz and thresholds are evaluated. -/
  | junctionSample (d : Fin 8) (temps : List Int)
  /-- `THM_CROSS_CHECK` (R348). A sensor is compared with its injected conversion. -/
  | thmCrossCheck (i : Fin 24)
  /-- `LEVEL_EXIT` (R351). A reading stays below exit for 16 ms and the level or step is left. -/
  | levelExit (d : Fin 8) (l : Level)
  /-- `SHUTDOWN_ENTRY` (R354). A die comparator enters shutdown; outputs stop device-wide. -/
  | shutdownEntry (d : Fin 8)
  /-- `THM_CTL_RECORD` (R357). Lowered set points are accepted or refused. -/
  | thmCtlRecord (u : UnitId) (t : Tag)
  /-- `AGEING_MEASURE` (R359). Hourly ageing monitors run and may re-pace VCORE. -/
  | ageingMeasure (ppm : List Nat)
  /-- `MARGIN_TABLE_WRITE` (R361). Every 24 h the margin table is written and SAVE set pending. -/
  | marginTableWrite
  /-- `NVS_READ` (R381). A transfer reads a record from the store. -/
  | nvsRead (u : UnitId) (t : Tag)
  /-- `NVS_WRITE` (R380). A transfer queues a record write. -/
  | nvsWrite (u : UnitId) (t : Tag)
  /-- `NVS_DELETE` (R380). A transfer queues deletion of a key. -/
  | nvsDelete (u : UnitId) (t : Tag)
  /-- `NVS_UNLOCK_READ` (R382). Unlocks a partition for read with its password. -/
  | nvsUnlockRead (u : UnitId) (t : Tag)
  /-- `NVS_UNLOCK_WRITE` (R382). Unlocks a partition for write with its password. -/
  | nvsUnlockWrite (u : UnitId) (t : Tag)
  /-- `NVS_LOCK` (R382). Locks a partition. -/
  | nvsLock (u : UnitId) (t : Tag)
  /-- `NVS_SET_READ_PASSWORD` (R382). Sets a partition's read password. -/
  | nvsSetReadPassword (u : UnitId) (t : Tag)
  /-- `NVS_SET_WRITE_PASSWORD` (R382). Sets a partition's write password. -/
  | nvsSetWritePassword (u : UnitId) (t : Tag)
  /-- `UNLOCK_LOCKOUT_END` (R382). The 10 s refusal after 8 failed unlocks ends. -/
  | unlockLockoutEnd (p : Fin 4)
  /-- `NVS_WRITE_START` (R371). The next queued write starts a new copy. -/
  | nvsWriteStart
  /-- `NVS_COPY_COMMIT` (R371). A copy's COMMIT verifies and the index is updated. -/
  | nvsCopyCommit
  /-- `NVS_VERIFY_FAIL` (R372). A flash word fails to verify; retried or dropped. -/
  | nvsVerifyFail
  /-- `GARBAGE_COLLECT` (R373). A bank with few free sectors collects a sector. -/
  | garbageCollect (p : Fin 4) (bank : Fin 2)
  /-- `SECTOR_ERASE_COMPLETE` (R373). A sector erase completes. -/
  | sectorEraseComplete (sec : Fin 512)
  /-- `IMAGE_VERIFY` (R391). A host-delivered image or placed code completes its signature check. -/
  | imageVerify
  /-- `AUTH_BLOCK_CHECK` (R394). The security engine checks an authorisation block and acts on it. -/
  | authBlockCheck
  /-- `ATTEST_REPORT` (R398). An attestation report is signed and returned. -/
  | attestReport
  /-- `ETH_FRAME_RECEIVE` (R405). An Ethernet frame arrives and is passed on or discarded. -/
  | ethFrameReceive (p : Fin 2) (f : EthFrame)
  /-- `ARP_REQUEST` (R406). An ARP request is answered. -/
  | arpRequest (p : Fin 2) (dst src : Word) (data : List Byte)
  /-- `ICMP_ECHO` (R406). An ICMP echo request is answered. -/
  | icmpEcho (p : Fin 2) (mac : BitVec 48) (dst src : Word) (data : List Byte)
  /-- `ADDR_CONFLICT` (R406). Link-local conflict detection finds a conflict. -/
  | addrConflict (p : Fin 2)
  /-- `PTP_SYNC` (R407). A PTP Sync message arrives. -/
  | ptpSync (p : Fin 2) (m : PtpMsg)
  /-- `PTP_FOLLOW_UP` (R407). A PTP Follow_Up message arrives. -/
  | ptpFollowUp (p : Fin 2) (m : PtpMsg)
  /-- `PTP_DELAY_REQ` (R407). A PTP Delay_Req arrives at a master port. -/
  | ptpDelayReq (p : Fin 2) (m : PtpMsg)
  /-- `PTP_DELAY_RESP` (R407). A PTP Delay_Resp arrives. -/
  | ptpDelayResp (p : Fin 2) (m : PtpMsg)
  /-- `PTP_ANNOUNCE` (R407). A PTP Announce message arrives. -/
  | ptpAnnounce (p : Fin 2) (m : PtpMsg)
  /-- `PTP_ANNOUNCE_TIMEOUT` (R407). Three announce intervals pass and the PTP source is lost. -/
  | ptpAnnounceTimeout (p : Fin 2)
  /-- `PTP_SYNC_SEND` (R407). As master, a Sync is sent every 2^LOG_SYNC s. -/
  | ptpSyncSend (p : Fin 2)
  /-- `DATAGRAM_DISCARD` (R410). A datagram failing MAGIC, VERSION or ADDR is discarded without reply. -/
  | datagramDiscard (h : Hdr) (p : List Byte)
  /-- `CMD_READ` (R410). Host reads status words. -/
  | cmdRead (h : Hdr) (p : List Byte)
  /-- `CMD_EVT_CLR` (R443). Host clears RS and RC fields of a word. -/
  | cmdEvtClr (h : Hdr) (p : List Byte)
  /-- `CMD_EVENTS` (R450). Host reads the oldest unread event records. -/
  | cmdEvents (h : Hdr) (p : List Byte)
  /-- `CMD_WAKE` (R91). Host wakes the device from STANDBY or PARK. -/
  | cmdWake (h : Hdr) (p : List Byte)
  /-- `CMD_RESUME` (R355). Host ends shutdown when every die is ready. -/
  | cmdResume (h : Hdr) (p : List Byte)
  /-- `CMD_IMAGE` (R80). Host delivers a chunk of a signed image; the final chunk starts verification. -/
  | cmdImage (h : Hdr) (p : List Byte) (img : Image)
  /-- `CMD_LOAD` (R265). Host delivers an image whose cluster code is placed. -/
  | cmdLoad (h : Hdr) (p : List Byte) (img : Image)
  /-- `CMD_ATTEST` (R398). Host requests an attestation report with a nonce. -/
  | cmdAttest (h : Hdr) (p : List Byte)
  /-- `CMD_AUTH` (R394). Host presents a key authorisation block. -/
  | cmdAuth (h : Hdr) (p : List Byte)
  /-- `CMD_NVS` (R380). Host accesses the record store as NVS.REC. -/
  | cmdNvs (h : Hdr) (p : List Byte)
  /-- `CMD_MSG` (R417). Host or a module puts a message into the receive queue. -/
  | cmdMsg (h : Hdr) (p : List Byte)
  /-- `CMD_SET_NET` (R403). Host sets device number, addresses and port modes by UID. -/
  | cmdSetNet (h : Hdr) (p : List Byte)
  /-- `LATCH_DATAGRAM` (R415). A LATCH datagram for a listed group is checked and staged. -/
  | latchDatagram (h : Hdr) (p : List Byte)
  /-- `HEARTBEAT_SEND` (R418). Every 10 ms a heartbeat datagram is sent on each up port. -/
  | heartbeatSend (p : Fin 2)
  /-- `ALIVE_TOGGLE` (R419). Every 500 µs ALIVE toggles while the hub is healthy. -/
  | aliveToggle
  /-- `VGD_LINK_TRAINED` (R411). A Vangad link completes training. -/
  | vgdLinkTrained (p : Fin 2)
  /-- `VGD_LINK_DOWN` (R411). No good cell for 8 µs; the link is declared down. -/
  | vgdLinkDown (p : Fin 2)
  /-- `VGD_SYNC_CELL` (R414). A SYNC cell arrives and places a local reset edge. -/
  | vgdSyncCell (p : Fin 2) (c : Cell)
  /-- `VGD_LATCH_CELL` (R415). A LATCH cell arrives and is forwarded and staged. -/
  | vgdLatchCell (p : Fin 2) (c : Cell)
  /-- `VGD_TIME_CELL` (R413). A TIME cell arrives and updates partner offset and delay. -/
  | vgdTimeCell (p : Fin 2) (c : Cell)
  /-- `VGD_TIME_SEND` (R413). Every 1 ms a TIME cell is sent on each link. -/
  | vgdTimeSend (p : Fin 2)
  /-- `VGD_HANDOFF_CELL` (R417). A HANDOFF cell arrives into the receive queue. -/
  | vgdHandoffCell (p : Fin 2) (c : Cell)
  /-- `VGD_OWNER_CELL` (R417). An OWNER cell arrives, is forwarded and enters the queue. -/
  | vgdOwnerCell (p : Fin 2) (c : Cell)
  /-- `LNK_MSG_SETTINGS` (R416). A link settings record is accepted or refused. -/
  | lnkMsgSettings (u : UnitId) (t : Tag)
  /-- `LNK_MSG_CELL_SEND` (R416). A transfer sends a HANDOFF or OWNER cell. -/
  | lnkMsgCellSend (u : UnitId) (t : Tag)
  /-- `LNK_MSG_ETH_SEND` (R416). A transfer sends a MSG datagram to a group. -/
  | lnkMsgEthSend (u : UnitId) (t : Tag)
  /-- `LNK_MSG_READ` (R417). A transfer reads the receive queue. -/
  | lnkMsgRead (u : UnitId) (t : Tag)
  /-- `INTEGRITY_SCAN` (R424). Every 10 ms protected values and status parity are scanned. -/
  | integrityScan
  /-- `FREEZE_N_ASSERT` (R428). FREEZE_N qualifies low and the device freezes. -/
  | freezeNAssert (ns : Nat)
  /-- `EXTEST` (R433). JTAG boundary-scan external test. -/
  | extest (v : List Bool)
  /-- `SAMPLE_PRELOAD` (R430). JTAG sample and preload of the boundary-scan chain. -/
  | samplePreload (v : List Bool)
  /-- `IDCODE` (R430). JTAG selects the identification register. -/
  | idcode
  /-- `CLAMP` (R433). JTAG clamps boundary-scan outputs. -/
  | clamp
  /-- `HIGHZ` (R433). JTAG puts boundary-scan outputs at high impedance. -/
  | highz
  /-- `ZFREEZE` (R428). JTAG requests a freeze at Update-IR. -/
  | zfreeze
  /-- `ZRESUME` (R434). JTAG ends a freeze with FREEZE_N high, or is refused. -/
  | zresume
  /-- `ZUNIT` (R430). JTAG selects an execution unit. -/
  | zunit (v : BitVec 8)
  /-- `ZCAPTURE` (R432). JTAG shifts out a frozen unit record. -/
  | zcapture
  /-- `ZADDR` (R430). JTAG sets the address and space for ZDATA. -/
  | zaddr (v : BitVec 40)
  /-- `ZDATA` (R431). JTAG Capture-DR reads a word and advances the address. -/
  | zdata
  /-- `BYPASS` (R430). JTAG one-bit bypass. -/
  | bypass (c : BitVec 8)
  /-- `TRST_N_ASSERT` (R462). TRST_N low resets the test access port. -/
  | trstNAssert (ns : Nat)
  /-- `EVENT_LOG_ENTRY` (R447). An event record arrives at the hub and enters the log. -/
  | eventLogEntry (i : Nat)
  /-- `POWER_LOST` (R51). VIN_SNS falls below 20 V, the supervisor and always-on domain stop, and the PWR fields take their after-power-on values. -/
  | powerLost
  /-- `ETH_LINK_UP` (R418). An Ethernet port's link comes up; heartbeats start on it, link-local addressing begins and LNK_ETH_UP is raised. -/
  | ethLinkUp (p : Fin 2)
  /-- `ETH_LINK_DOWN` (R422). An Ethernet port loses its link; LNK.FAULT.ETHn_DOWN is set, LNK_ETH_DOWN is raised and heartbeats and PTP on it stop. -/
  | ethLinkDown (p : Fin 2)
  /-- `PCLK_RISING_EDGE` (R203). On a CAMn_PCLK rising edge with LVAL and DVAL high, the port takes the pixels of the clock and detects a long line at pixel LINE_LEN + 1. -/
  | pclkRisingEdge (p : Fin 2) (x : BitVec 24) (lval dval : Bool)
  /-- `PEAK_WAIT_LAST_START` (R304). A committed shot waiting for a peak place reaches its last start and is dropped and counted in EJT.DROP_PEAK. -/
  | peakWaitLastStart (v : Valve)
  /-- `HEADROOM_LOSS` (R325). VIN minus V(N0) falls below 2.0 V while a lamp is lit; HEADROOM reads 1 and LUM_HEADROOM is raised once per entry. -/
  | headroomLoss (s : Strng) (mv : Nat)
deriving DecidableEq, Repr

end Sys2Proof
end

