-- ==== Sys2Proof/Machine/Parts.lean ====
section
/-!
DEFINITION. The parts of the state that the core of the device holds: its operating mode and power sequence, device
time, events, the execution units with their tags and transfers, the baton links, the starting block, the freeze and
the JTAG port.  Each part has its value after power-on beside it.
-/

namespace Sys2Proof.Machine

/-- Why a brown-out reset is in force; each cause ends in its own way (R53). -/
inductive BoCause where
  | under | overTrip | inputTrip | rail
deriving DecidableEq, Repr

/-- The rows of the power-up sequence (Table 3.3), named by what the row waits for. -/
inductive PwrRow where
  | inrush | v12 | v18 | refclk | vcore | vddq | adec | pll
deriving DecidableEq, Repr

/-- The operating mode of the device: powered or not, held in a reset, booting (R78), running, and the low-power states
of R90 and R91 with the intervals in which they are entered (`entering park?`) and left (`exiting park?`).
A freeze is not a mode: it lies over one (R434). -/
inductive Mode where
  | unpowered
  | brownout (c : BoCause)
  | railWait
  | inrushWait
  | powerUp (r : PwrRow)
  | clockHeld (r : Option PwrRow)
  | resetPin
  | inReset
  | boot
  | running
  | entering (toPark : Bool)
  | standby
  | park
  | exiting (fromPark : Bool)
deriving DecidableEq, Repr

/-- The causes of a reset (R76), in RST.CAUSE.LAST's numbering (Table 4.6). -/
inductive Cause where
  | powerOn | brownout | pin | watchdog | clockLoss | sysFull | sysDie | sysCluster | lcsChange
deriving DecidableEq, Repr

/-- Digital contacts and supply outputs the core drives or watches (Table 2.4), and the PERIPH cycle at which FEED_GAP last rose
(R183). -/
structure Pins where
  inrGate : Bool
  icv : Bool
  vcEn : Bool
  vqEn : Bool
  adec : Bool
  ddrRstN : Bool
  ethTx : Bool
  vgdTx : Bool
  alive : Bool
  lsync : Bool
  resetN : Bool
  freezeN : Bool
  feedGap : Bool
  feedAt : Nat
deriving DecidableEq, Repr

def Pins.reset : Pins :=
  { inrGate := true, icv := true, vcEn := true, vqEn := true, adec := true, ddrRstN := true, ethTx := true,
    vgdTx := true, alive := false, lsync := false, resetN := true, freezeN := true, feedGap := false, feedAt := 0 }

/-- The power sequence's own memory (R62): the starts of the attempts that rail faults ended in a row, the start of the
attempt in progress, and whether a wait of 10 s stands before every attempt; whether the clock monitor has started to watch
REFCLK (R67); and, while STANDBY or PARK is being left, the PERIPH cycle at which that began and how far Table 4.4 has
come: 0, 1 with six VCORE phases, 2 with the clusters restarted (R91). -/
structure PowerPart where
  attempts : List Nat
  attemptStart : Nat
  waiting : Bool
  monitor : Bool
  leaveAt : Nat
  leaveStage : Nat
deriving DecidableEq, Repr

/-- At the first instruction: the monitor has started, and nothing else is under way. -/
def PowerPart.reset : PowerPart :=
  { attempts := [], attemptStart := 0, waiting := false, monitor := true, leaveAt := 0, leaveStage := 0 }

/-- The correction of device time (R70–R72): the source in use, the offset that remains, whether it is being slewed,
the rate correction in ppm that every reset but power-on keeps (R70, R86) with what it has gathered since its last ns in
1/100,000 ns, the PERIPH cycles since the last slewed one, and by how many ns device time departed from 10 ns a cycle in the
last 600 cycles, newest first (R71, R72). -/
structure TimePart where
  src : Option TimeSrc
  remaining : Int
  slewing : Bool
  deferred : Bool
  rate : Int
  drift : Int
  sinceSlew : Nat
  shifts : List (Nat × Int)
deriving DecidableEq, Repr

def TimePart.reset : TimePart :=
  { src := none, remaining := 0, slewing := false, deferred := false, rate := 0, drift := 0, sinceSlew := 0, shifts := [] }

/-- One event record (R446). -/
structure EvRec where
  code : Nat
  kind : Nat
  index : Nat
  detail : Nat
  time : Nat
deriving DecidableEq, Repr

/-- When the record last entered for a code and subject entered the log, in PERIPH cycles (R449). -/
structure EvMark where
  code : Nat
  kind : Nat
  index : Nat
  at_ : Nat
deriving DecidableEq, Repr

/-- The event log (R446–R450): records on their way to the hub, the log newest first, the marks of R449, the records lost since
the last INT_EVENT_LOST, the PERIPH cycle and key of the record that entered last (R447), and the words of the log that failed
their parity and read zero since (R448). -/
structure EventPart where
  queue : List EvRec
  log : List EvRec
  marks : List EvMark
  lostSince : Nat
  last : Option (Nat × Nat)
  blank : List Nat
deriving DecidableEq, Repr

def EventPart.reset : EventPart := { queue := [], log := [], marks := [], lostSince := 0, last := none, blank := [] }

/-- The state of a tag (R245); `doneErr` carries its completion code. -/
inductive TagState where
  | free
  | busy
  | doneOk
  | doneErr (code : Nat)
deriving DecidableEq, Repr

/-- The kinds of LOAD and STORE (Table 12.8); a store carries its data words. -/
inductive MemKind where
  | ld (bytes : Nat) (signed : Bool) (d : Reg)
  | ldD (d : Reg)
  | ldV (d : Reg)
  | st (bytes : Nat) (data : List Word)
deriving DecidableEq, Repr

/-- A LOAD or STORE in flight (R275). -/
structure MemOp where
  tag : Tag
  kind : MemKind
  addr : Nat
deriving DecidableEq, Repr

/-- A cluster or hub core (R222, R226), with its instruction memory.  Its STATE, LAST_EXC, EXC_PC and counts stand in
its ISA status words.  `retPc` is the address after the faulting instruction (R287), `ranAt` the PERIPH cycle at which the unit
last retired an instruction (R419). -/
structure ExUnit where
  s : Vector Word 32
  v : Vector (Vector Word 32) 32
  p : Vector (BitVec 32) 8
  pc : Nat
  tags : Vector TagState 256
  ptr : Nat
  fence : List Tag
  ops : List MemOp
  windows : List (Nat × Nat × Nat)
  code : List Word
  codeBad : List Nat
  handler : Option Nat
  retPc : Nat
  ranAt : Option Nat
deriving DecidableEq, Repr

def ExUnit.reset : ExUnit :=
  { s := Vector.replicate 32 0, v := Vector.replicate 32 (Vector.replicate 32 0), p := Vector.replicate 8 0, pc := 0,
    tags := Vector.replicate 256 .free, ptr := 0, fence := [], ops := [], windows := [], code := [], codeBad := [],
    handler := none, retPc := 0, ranAt := none }

/-- A STREAM transfer (R278): its unit and tag, direction, endpoint code and address (R277), the byte offset of its
source or destination in the unit's store, its length in bytes, its completion code once its endpoint has acted, and, where
a cluster reset dropped its tag (R89), the words that left the store, each with whether it failed parity. -/
structure Xfer where
  unit : UnitId
  tag : Tag
  out : Bool
  ep : Nat
  addr : Nat
  base : Nat
  len : Nat
  code : Option Nat
  lost : Option (List (Word × Bool)) := none
deriving DecidableEq, Repr

/-- An EVENT command on its way from unit `u` to an actuator die, in issue order (R250): an EJECT's eight words, with whether
the die takes only its DONE (R281), a LATCH's eight words (R283), with whether the instruction has already counted as lost at the
other die, a LAMP's item on the die with its value, and a SHUTTER's direction (R284). -/
inductive Msg where
  | eject (u : UnitId) (doneOnly : Bool) (b : List Word)
  | latch (u : UnitId) (told : Bool) (b : List Word)
  | lamp (u : UnitId) (item value : Nat)
  | shutter (u : UnitId) (close : Bool)
deriving DecidableEq, Repr

/-- One direction of a baton link (R230, R231): the sender's replay buffer of every data flit sent and not yet acknowledged,
as sent, the sequence number of its next new flit and of the flit it sends next, which lies behind in a replay; the receiver's
next expected sequence number, whether it discards until the replay, the replays of the flit awaited, and the flits it took,
newest first. -/
structure LinkDir where
  buf : List Flit
  next : Fin 128
  sendAt : Fin 128
  expect : Fin 128
  discarding : Bool
  attempts : Nat
  inbox : List Flit
deriving DecidableEq, Repr

def LinkDir.reset : LinkDir :=
  { buf := [], next := 0, sendAt := 0, expect := 0, discarding := false, attempts := 0, inbox := [] }

/-- A link: its two directions; `moving` from its fatal failure until its traffic stands on a second path (R232). -/
structure Link where
  up : LinkDir
  down : LinkDir
  moving : Bool
deriving DecidableEq, Repr

def Link.reset : Link := { up := LinkDir.reset, down := LinkDir.reset, moving := false }

/-- A DDR5 channel (R234–R238, R84): whether it is trained, whether the wipe has passed all of it, the bytes from its first
that the wipe has passed, whether STC_DDR_HOT was raised for the present hot entry, and the bursts of 64 bytes whose re-reads
failed, each with the transfer that read it. -/
structure DdrChan where
  trained : Bool
  wiped : Bool
  passed : Nat
  hot : Bool
  failing : List (UnitId × Tag × Nat)
deriving DecidableEq, Repr

def DdrChan.reset : DdrChan := { trained := false, wiped := false, passed := 0, hot := false, failing := [] }

/-- The starting block and the loader (R78–R81, R227, R262–R265): the two image slots, the slots that failed in this boot,
the bytes of an image received from the host with the opcode that brings them, the image running, where each logical
cluster stands, the cause of the reset in progress with the clock losses recorded in it, whether DDR5 refused an access since
the reset, when the reset was released, whether a life-cycle wipe stands before the boot, and the logical engines without a
physical one. -/
structure BootPart where
  slotA : Option Image
  slotB : Option Image
  failed : List Nat
  running : Option Image
  place : List (Nat × Fin 26)
  chunkOp : Nat
  chunks : List Byte
  cause : Cause
  clkLoss : Bool
  pllLoss : Bool
  refusedOnce : Bool
  releasedAt : Nat
  engMissing : List Nat
deriving DecidableEq, Repr

def BootPart.reset : BootPart :=
  { slotA := none, slotB := none, failed := [], running := none, place := [], chunkOp := 0, chunks := [], cause := .powerOn,
    clkLoss := false, pllLoss := false, refusedOnce := false, releasedAt := 0, engMissing := [] }

/-- A freeze (R428, R434): its source in INT.STATE.SOURCE's code, and the supervisor's clock and device time when the
clocks stopped.  `requested` is a request that waits for the first instruction, `low` the supervisor cycle at which a pulse on
FREEZE_N ends.  `shuts` are the dies that entered shutdown since the clocks stopped, each with whether it set the latch. -/
structure FreezePart where
  since : Option (Nat × Nat)
  requested : Option Nat
  resumeRefused : Bool
  taintSlots : Nat
  low : Nat
  shuts : List (Nat × Bool)
deriving DecidableEq, Repr

def FreezePart.reset : FreezePart :=
  { since := none, requested := none, resumeRefused := false, taintSlots := 0, low := 0, shuts := [] }

/-- The instruction register of the JTAG port (Table 20.4). -/
inductive JtagIr where
  | extest | samplePreload | idcode | clamp | highz | zfreeze | zresume | zunit | zcapture | zaddr | zdata | bypass
deriving DecidableEq, Repr

/-- The JTAG port (R430–R433): instruction register, unit and address registers, and the data register as last captured,
bit 0 first out. `boundary` is what the boundary-scan register was last preloaded with, and `drive` which of EXTEST, CLAMP and
HIGHZ is in force on the contacts of the chain. -/
structure JtagPart where
  ir : JtagIr
  unit : Nat
  addr : Nat
  dr : List Bool
  boundary : List Bool
  drive : Option JtagIr
deriving DecidableEq, Repr

/-- Bits of a number, the lowest first. -/
def bitsOf (n x : Nat) : List Bool := (List.range n).map fun i => x.testBit i

/-- The identification register (Table 20.4). -/
def idcodeOf (opt : Opt) : Nat := if opt = .zt8 then 0x15A3876B else 0x15A3476B

/-- The port after a reset of the test access port: IDCODE is selected, with its register (R430). -/
def JtagPart.reset (opt : Opt) : JtagPart :=
  { ir := .idcode, unit := 0, addr := 0, dr := bitsOf 32 (idcodeOf opt), boundary := [], drive := none }

end Sys2Proof.Machine
end

