-- ==== Sys2Proof/Machine/PartsFocal.lean ====
section
/-!
DEFINITION. The parts of the state that the focal dies and the hub's line-slot timer hold beside their status fields.
-/

namespace Sys2Proof.Machine

/-- A focal die (R97–R115): the settings record the hub keeps for it (R88), the substrate history, whether a band dwell is
under way and the band pending from it (R105), the next row slot to end (50 in blanking), the time stamp of the line slot, its
header words and the band of the line slot before it (R103), the recovery intervals by group in ns still to run from the
PERIPH cycle `mark` on (R111), the words on their way to the stream dies: row, and the words of links A and B in their order
(R110), and where it converted the ramp the start of the CONV repeat that did (R187); the raw-modulator words offered (R112),
and whether the pacer restarts at the next boundary after a die reset (R88). -/
structure FocalDie where
  kept0 : Word
  kept1 : Word
  hist : List Int
  dwelling : Bool
  pend : Option Nat
  row : Nat
  stamp : Nat
  header : List Word
  lastBand : Option Nat
  recov : List (Nat × Nat)
  mark : Nat
  sent : List (Nat × List Word × List Word × Option Nat)
  raw : List Word
  rejoin : Bool
deriving DecidableEq, Repr

/-- The record in force after power-on (Table 5.2): LSYNC_MODE input and LINE_SLOT 400 belong to FD0.  Substrate history
25.00 °C: a chosen value (assumption 1). -/
def FocalDie.reset (d : Fin 2) : FocalDie :=
  { kept0 := if d = 0 then 0x200190 else 0, kept1 := 0x503C3CFC, hist := List.replicate 8 2500, dwelling := false,
    pend := none, row := 0, stamp := 0, header := [], lastBand := none, recov := [], mark := 0, sent := [], raw := [], rejoin := false }

/-- The hub's line-slot timer (R88): the number of the line slot in progress, the next synchronising reset, those pending
after it in rising order and the last one, as PERIPH cycles (R117), the LSYNC output pulses from their first cycle to their
end, the starts of recent line slots, newest first, and the PERIPH cycle at which the last one started, from which the lamps'
free timer runs (R316). -/
structure GridPart where
  line : Nat
  edge : Option Nat
  later : List Nat
  lastEdge : Option Nat
  pulses : List (Nat × Nat)
  stamps : List Nat
  slotAt : Nat
deriving DecidableEq, Repr

def GridPart.reset : GridPart := { line := 0, edge := none, later := [], lastEdge := none, pulses := [], stamps := [], slotAt := 0 }

end Sys2Proof.Machine
end

