-- ==== Sys2Proof/Machine/PartsSort.lean ====
section
/-!
DEFINITION. The parts of the state that the sorting path holds: the pixel-model working copy and its records, the bands
with their estimators and product lines, the ALONG engines, the CSENSE engines, and the fused lines.
-/

namespace Sys2Proof.Machine

/-- One model entry (Table 7.1). -/
structure Entry where
  o0 : Int
  o1 : Int
  o2 : Int
  g : Nat
  tau : Nat
  badPix : Bool
  sceneExcl : Bool
  velExcl : Bool
deriving DecidableEq, Repr

/-- The entry of R81: offsets 0, gain 1.0, τ 2.0 ms. -/
def Entry.dflt : Entry :=
  { o0 := 0, o1 := 0, o2 := 0, g := 16384, tau := 60, badPix := false, sceneExcl := false, velExcl := false }

/-- An accepted COR.MODEL record waiting for its line-slot boundary (R152, R153): its data words as sent, and the stream dies
that hold their part of it.  `cal` names the calibration item that wrote it, with the complement of the data (R199). -/
structure ModelRec where
  die : Fin 2
  part : Nat
  row : Nat
  first : Nat
  count : Nat
  data : List Word
  dies : List Nat
  cal : Option (Nat × List Word)
deriving DecidableEq, Repr

/-- A row slot corrected in the line slot under way: row, corrected words of the active columns, and whether it was taken for the
ramp (R157, R187). -/
structure RowDone where
  row : Nat
  out : List Word
  ramp : Bool
deriving DecidableEq, Repr

/-- The correction of one focal die's columns: the common modes last formed by 4 · row + stream die (R155), the substrate
value latched for the line slot, the rows corrected in it, whether the die runs on the default model (R81), and the two
blind-row records (R157), with those that the last line-slot boundary replaced, where it replaced any (R118). -/
structure CorrDie where
  cmLast : List (Nat × Int)
  sub : Int
  rows : List RowDone
  noModel : Bool
  blind : List (List Word)
  blindWas : Option (List (List Word))
deriving DecidableEq, Repr

def CorrDie.reset : CorrDie := { cmLast := [], sub := 2500, rows := [], noModel := false, blind := [], blindWas := none }

/-- The working copy (R148–R154), keyed by (die · 50 + row) · 2048 + column; D likewise; baselines with 16 · stream die +
reference as column; entries that fail parity, with whether COR.MODEL_PARITY has counted them (R154); the TAU codes that S1
still uses in this line slot where the working copy changed within it (R151); records waiting for a boundary; and the grid
record waiting for a synchronising reset (R160). -/
structure CorrPart where
  model : List (Nat × Entry)
  drift : List (Nat × Int)
  base : List (Nat × Int)
  badEntries : List (Nat × Bool)
  tauWas : List (Nat × Nat)
  waiting : List ModelRec
  grid : Option Word
  vcfg : Option (Word × Word)
  dies : Vector CorrDie 2
deriving DecidableEq, Repr

def CorrPart.reset : CorrPart :=
  { model := [], drift := [], base := [], badEntries := [], tauWas := [], waiting := [], grid := none, vcfg := none,
    dies := Vector.replicate 2 CorrDie.reset }

/-- A value of the chain with its flags (R136). -/
structure Pix where
  v : Int
  taint : Bool
  bad : Bool
deriving DecidableEq, Repr

/-- The fields of a swap (R123). -/
structure Path where
  s3 : Nat
  s4 : Nat
  sh3 : Nat
  sh4 : Nat
deriving DecidableEq, Repr

/-- A handover under way (R138): its target, length and next fade line. -/
structure Fade where
  dest : Path
  len : Nat
  i : Nat
deriving DecidableEq, Repr

/-- A swap requested (R137): its target and the handover length that travels with it. -/
structure Swap where
  dest : Path
  fade : Nat
deriving DecidableEq, Repr

/-- An engine's part of a product line, complete and waiting for the band (R165): line number, pixels, WARM. -/
structure Part where
  n : Nat
  pix : List Pix
  warm : Bool
deriving DecidableEq, Repr

/-- A logical ALONG engine (R121–R141): the last inputs (row · 64 + column), S1 outputs and laps newest first, the
responses in force and requested, settings waiting for a boundary or a product line, the line slots at which S1 or S2
settings changed, the RAM bank, the detector block, the parts complete, and whether WARM has cleared since the zero state
(R135). -/
structure Engine where
  x1 : List Pix
  ys : List (List Pix)
  zs : List (List Pix)
  path : Path
  fade : Option Fade
  held : Option Swap
  pend : Option Swap
  nextCfg : Option Word
  nextDet : Option (Word × Word)
  changes : List Nat
  ram3 : Option (List Int)
  ram4 : Option (Nat × List Int)
  blockN : Nat
  blockPeak : Nat
  blockSum : Nat
  next : Nat
  parts : List Part
  clear : Bool
deriving DecidableEq, Repr

def Engine.reset : Engine :=
  { x1 := [], ys := [], zs := [], path := ⟨0, 0, 0, 0⟩, fade := none, held := none, pend := none, nextCfg := none,
    nextDet := none, changes := [], ram3 := none, ram4 := none, blockN := 0, blockPeak := 0, blockSum := 0, next := 0,
    parts := [], clear := false }

/-- A lap's latched ρ as a fraction, and its q in 16 fraction bits (R126). -/
structure Lap where
  num : Nat
  den : Nat
  q : Int
deriving DecidableEq, Repr

/-- A product line's place on the grid (R127): number, position in 16 fraction bits, the velocity that placed it, and
its step once computed. -/
structure PLine where
  n : Nat
  pos : Nat
  vel : Nat
  step : Option Nat
deriving DecidableEq, Repr

/-- A completed product line or blind line of a band (R165, R168), with its view-line time, the bound instant of R26 and
its 256 thermal pixels. -/
structure BLine where
  n : Nat
  warm : Bool
  blind : Bool
  vel : Nat
  view : Int
  bound : Nat
  pix : List Word
deriving DecidableEq, Repr

/-- A velocity band (R126, R127, R161–R168): line slots completed since its zero state, laps newest first, product line
places newest first, the next line to complete, lines completed and not yet carried, the last line's number and
view-line time, the corrected rows of recent line slots with their lengths, the blind position in line slots (R168), and whether
a die reset of one of its dies owes it a zero state (R134). -/
structure Band where
  slot : Nat
  laps : List Lap
  lines : List PLine
  next : Nat
  done : List BLine
  last : Nat × Int
  xs : List (List (List Word) × Nat)
  blind : Option Nat
  owed : Bool
deriving DecidableEq, Repr

def Band.reset : Band :=
  { slot := 0, laps := [], lines := [⟨0, 0, 30000, none⟩], next := 0, done := [], last := (0, 0), xs := [],
    blind := none, owed := false }

/-- A fused line waiting for its bands' camera lines (R166, R167): number, line slot, time stamp, per band the line it
carries (`none` a placeholder), the header words of the bands, the stitched thermal pixels, the start of the camera wait in
PERIPH cycles, and the camera ports whose wait has ended, with the camera line and phase that each band then takes (R219). -/
structure FusedWait where
  num : Nat
  line : Nat
  stamp : Nat
  bands : List (Option BLine)
  head : List Word
  thermal : List Word
  since : Nat
  late : List (Fin 2 × List (Option (Int × Nat)))
deriving DecidableEq, Repr

/-- A fused line held in the ring (R240): its words, and whether any byte was read. -/
structure FusedLine where
  num : Nat
  words : List Word
  read : Bool
deriving DecidableEq, Repr

/-- When a band product line entered the FUSED ring, in PERIPH cycles (R258). -/
structure LineEntry where
  band : Nat
  n : Nat
  at_ : Nat
deriving DecidableEq, Repr

/-- The product-line assembler (R166–R174, R240): fused lines waiting, the ring oldest first, the next fused line number,
when lines entered the ring, the detector records unread oldest first (R140), and the column maps in force and waiting. -/
structure FusedPart where
  waiting : List FusedWait
  ring : List FusedLine
  next : Nat
  entries : List LineEntry
  det : List (List Word)
  regMap : Vector (List Word) 2
  regNext : Vector (Option (List Word)) 2
deriving DecidableEq, Repr

def FusedPart.reset : FusedPart :=
  { waiting := [], ring := [], next := 0, entries := [], det := [], regMap := Vector.replicate 2 [],
    regNext := Vector.replicate 2 none }

/-- A CSENSE channel's chain (R142, R144): the modulator bits that the decimator still reads, newest first, the S4 history
newest first, the last 500 samples with whether the channel was switched on (R303), the envelope and the instant, in quarter
nanoseconds, of the samples of a dip search newest first (R301), and the detector block. -/
structure CsnChan where
  bits : List Bool
  hist : List Int
  samples : List (Int × Bool)
  envs : List (Nat × Nat)
  blockN : Nat
  blockPeak : Nat
  blockSum : Nat
deriving DecidableEq, Repr

/-- A CSENSE engine: channels, accepted settings with their PERIPH cycles, oldest first, that wait for a sample of channel 0,
blocks since the zero state, the PERIPH cycle of a reset edge that waits for a block, and the newest blocks unread, oldest
first. -/
structure CsnEngine where
  chans : Vector CsnChan 64
  nextCfg : List (Word × Nat)
  block : Nat
  zeroAt : Option Nat
  out : List (List Word)
deriving DecidableEq, Repr

def CsnEngine.reset : CsnEngine :=
  { chans := Vector.replicate 64 { bits := [], hist := [], samples := [], envs := [], blockN := 0, blockPeak := 0, blockSum := 0 }, nextCfg := [], block := 0,
    zeroAt := none, out := [] }

end Sys2Proof.Machine
end

