-- ==== Sys2Proof/Machine/PartsCal.lean ====
section
/-!
DEFINITION. The calibration's part of the state (Calibration in the gaps).
-/

namespace Sys2Proof.Machine

/-- How far a run has come (R188, R195): a shutter run closes the flag and measures; a class A run converts its reference, the
`j`-th of four, or measures its `k`-th repeat. -/
inductive CalPhase where
  | closing | measuring | ref (j : Nat) | repeating (k : Nat)
deriving DecidableEq, Repr

/-- A calibration run in progress: its item, phase, the settings in force at its start (R178), its start, the reference
or thermistor readings taken, the line slots measured and their target, sums per pixel (row · 2,048 + column) for each
third of a SHUT run or for a SCENE run, the line slots summed per engine, the values of blind row 48 before CLOSE and in
the last third, the results of the repeats as trims (`none` at an end of the range), the attempts at a dropped request,
and of the repeat under way: its start, the ramp conversions or row slots so far, the ramp words of row 49 per column newest
first (R187), count and sum of the idle samples per channel, and the channels that found no idle time in the run (R197). -/
structure CalRun where
  item : Nat
  phase : CalPhase
  cfg : List Word
  start : Nat
  refs : List Int
  n : Nat
  total : Nat
  sums : List (List Int)
  counts : List Nat
  dark0 : List Int
  dark1 : List Int
  meas : List (List (Option (Int × Int)))
  tries : Nat
  spoiled : Bool
  since : Nat
  ramp : Nat
  codes : List (List Int)
  chans : List (Nat × Int)
  dead : List Nat
deriving DecidableEq, Repr

/-- A declared gap (R184): its start as device time, its length in ms, and whether it is open. -/
structure DeclGap where
  start : Nat
  len : Nat
  open_ : Bool
deriving DecidableEq, Repr

/-- Where the TAINT of a shutter run stands (R189). -/
inductive ShutTaint where
  | off | armed | on | ending
deriving DecidableEq, Repr

/-- The calibration unit: runs in progress, the declared gap, whether a FEED_GAP gap is open, line slots each engine has read
PRESENT = 0, the last 17 line slots of each die newest first, the shutter references with the time of their PASS and whether
it was after the last reset of the die (R194), trims in force and passed trims waiting with their complements, the offset and
gain in SADC.TRIM before those that a run not yet decided has loaded (R343), when pending requests were made and which were
reported waiting, the PERIPH cycle of each item's last request of AUTO_EN (R182), the items accepted and not yet saved with
the times of their acceptance, newest first, and how many there were when the SAVE run in progress started. -/
structure CalPart where
  runs : List CalRun
  gap : Option DeclGap
  feedOpen : Bool
  quiet : List Nat
  recent : Vector (List (List (List Word))) 2
  sref : Vector (Option (Rat × Nat × Bool)) 2
  conv : Vector (List (Int × Int)) 2
  convNext : Vector (Option (List (Int × Int) × List (Int × Int))) 2
  bias : Vector Int 2
  biasNext : Vector (Option (Int × Int)) 2
  csn : Vector (List Int) 2
  csnNext : Vector (Option (List Int × List Int)) 2
  sadcNext : Option ((Int × Int) × (Int × Int))
  sadcOld : Option (Nat × Nat)
  taint : Vector ShutTaint 2
  since : List (Nat × Nat)
  told : List Nat
  autoAt : List (Nat × Nat)
  unsaved : List (Nat × Nat)
  saving : Nat
  generation : Nat
deriving DecidableEq, Repr

def CalPart.reset : CalPart :=
  { runs := [], gap := none, feedOpen := false, quiet := List.replicate 64 0, recent := Vector.replicate 2 [],
    sref := Vector.replicate 2 none, conv := Vector.replicate 2 (List.replicate 2064 (0, 0)),
    convNext := Vector.replicate 2 none, bias := Vector.replicate 2 0, biasNext := Vector.replicate 2 none,
    csn := Vector.replicate 2 (List.replicate 64 0), csnNext := Vector.replicate 2 none, sadcNext := none, sadcOld := none,
    taint := Vector.replicate 2 .off, since := [], told := [], autoAt := [], unsaved := [], saving := 0, generation := 0 }

end Sys2Proof.Machine
end

