-- ==== Sys2Proof/Machine/PartsEjt.lean ====
section
/-!
DEFINITION. The parts of the state that the actuator dies hold for the ejector valves (Ejector valve drive).
-/

namespace Sys2Proof.Machine

/-- A line notice (R297), with the number of the fused line that carries its line, if one does. -/
structure Notice where
  fused : Option Nat
  band : Nat
  n : Nat
  warm : Bool
  blind : Bool
  view : Int
  bound : Nat
deriving DecidableEq, Repr

/-- The state of a line at an actuator die (R297). -/
inductive LineState where
  | open_ | decided | defaulted
deriving DecidableEq, Repr

/-- A notice kept, with the state of its line. -/
structure Kept where
  note : Notice
  st : LineState
deriving DecidableEq, Repr

/-- The notices of one band at one die, newest first, at most 32 (R297); and the line numbers the die has ever held a notice of,
as ranges from the first number to the one behind the last, newest first (R298). -/
structure BandNotes where
  kept : List Kept
  ever : List (Nat × Nat)
deriving DecidableEq, Repr

/-- A shot in a valve queue (R298, R300): its decision's line, its fields, and once committed its energise time, last start
and minimum off-time in ns (R294). -/
structure Shot where
  band : Nat
  line : Nat
  start : Int
  prof : Nat
  hold : Nat
  times : Option (Int × Int × Nat)
deriving DecidableEq, Repr

/-- A shot that runs (R295): the words of its profile after variant, e′, its end and whether MAX_ON sets it, whether its
peak lasts, whether the channel is switched on, whether the peak has chopped, whether the dip search runs, and the start of
its hold phase. -/
structure Run where
  w : List Word
  at_ : Nat
  stop : Nat
  byMax : Bool
  inPeak : Bool
  on : Bool
  chopped : Bool
  search : Bool
  holdAt : Nat
deriving DecidableEq, Repr

/-- A valve channel: its queue in arrival order, the shot that runs, a quench under QUENCH = 1 that keeps VHSg on, the sum of
the samples of an own-clamp quench under way (R305), the end of its last shot, its settings AIR, and R25 in force and from
the next update on (R294), the learned lag in 1/16 µs, the temperature estimate θ in °C (`none`: T_AD), the mean hold
current and the duty that wait for a conversion of VIN (R303), NO_MOTION and over-energy quenches in a row, and the cycles
since its last counter cell. -/
structure Chan where
  queue : List Shot
  run : Option Run
  quench : Bool
  clamp : Option Int
  stopped : Option Nat
  air : Nat
  r25 : Nat
  r25Next : Nat
  lag : Option Int
  theta : Option Rat
  held : Option (Rat × Rat)
  noMotion : Nat
  overRow : Nat
  cells : Nat
deriving DecidableEq, Repr

def Chan.reset : Chan :=
  { queue := [], run := none, quench := false, clamp := none, stopped := none, air := 0, r25 := 0, r25Next := 0, lag := none,
    theta := none, held := none,
    noMotion := 0, overRow := 0, cells := 0 }

/-- An actuator die's scheduler: notices on their way (R297) and kept, by band. -/
structure EjtDie where
  coming : List Notice
  bands : Vector BandNotes 16
deriving DecidableEq, Repr

def EjtDie.reset : EjtDie := { coming := [], bands := Vector.replicate 16 { kept := [], ever := [] } }

/-- Both dies, the 128 channels, and the lines counted in STC.DEADLINE_DEFAULT so far since the band's zero state (R299), newest
first, each as its band, number and bound instant, which tells it from a line that has the same number 2^24 lines later; the
dies keep at most 512 lines; and the PERIPH cycle of the deadline monitor's last check (R419). -/
structure EjtPart where
  dies : Vector EjtDie 2
  chans : Vector Chan 128
  counted : List (Nat × Nat × Nat)
  monitorAt : Nat
deriving DecidableEq, Repr

def EjtPart.reset : EjtPart :=
  { dies := Vector.replicate 2 EjtDie.reset, chans := Vector.replicate 128 Chan.reset, counted := [], monitorAt := 0 }

end Sys2Proof.Machine
end

