-- ==== Sys2Proof/Machine/PartsNvs.lean ====
section
/-!
DEFINITION. The record store's part of the state (Record store).
-/

namespace Sys2Proof.Machine

/-- A copy of a record in flash (Table 17.3): its partition, which follows from its sector; KEY and KEY_N; TYPE (1 a counter);
the payload, whose length is LENGTH; SEQ and GEN; the CRC as programmed; whether every bit of COMMIT verifies; the cells that
do not read erased, interrupted ones with them (R378); its sector and flash words; and whether an index build passed over it
for the generation of its save (R377). -/
structure Copy where
  part : Nat
  key : Nat
  keyN : Nat
  type : Nat
  data : List Byte
  seq : Nat
  gen : Nat
  crc : Nat
  commit : Bool
  cells : Nat
  sector : Nat
  words : Nat
  skip : Bool
deriving DecidableEq, Repr

/-- What STATE of a sector header says (R365). -/
inductive SectorState where
  | free | open_ | erase
deriving DecidableEq, Repr

/-- A sector: its header (MAGIC, STATE, erase count and the complement of that count), the flash words used, and whether it is
retired (R365, R384). -/
structure Sector where
  magic : Nat
  state : Nat
  erases : Nat
  erasesN : Nat
  used : Nat
  retired : Bool
deriving DecidableEq, Repr

/-- A sector erased `e` times, with the header of a free one; at 100,000 erases it is retired (R365, R384). -/
def Sector.erased (e : Nat) : Sector :=
  { magic := 0x4E56, state := 0xFFFF, erases := e, erasesN := 2 ^ 32 - 1 - e, used := 0, retired := decide (100000 ≤ e) }

def Sector.fresh : Sector := Sector.erased 0

/-- Is the header valid (R365)? -/
def Sector.headerOk (x : Sector) : Bool := x.magic = 0x4E56 && x.erases + x.erasesN = 2 ^ 32 - 1

/-- A sector whose header is not valid is erased again before it is used, as one whose STATE reads 0x0000 is (R365); another
STATE is none of the header's. -/
def Sector.st (x : Sector) : SectorState :=
  if !x.headerOk then .erase else if x.state = 0xFFFF then .free else if x.state = 0xFF00 then .open_ else .erase

/-- A write accepted (R371): partition, key, payload, save generation, counter BASE, and whether SAVE made it. -/
structure NvsWrite where
  part : Nat
  key : Nat
  data : List Byte
  gen : Nat
  counter : Option Nat
  save : Bool
deriving DecidableEq, Repr

/-- The copy being programmed for the first queued write: its sequence number, sector, words, failures so far, and the words of
the sector used before it. -/
structure NvsProg where
  seq : Nat
  sector : Nat
  words : Nat
  fails : Nat
  start : Nat
deriving DecidableEq, Repr

/-- The record store: copies, sectors that differ from a fresh one, the open sector of each bank by
2 · partition + bank, the queue of at most 16 accepted writes (R374), the device's own writes that wait for a place in it, the
failures so far of the first queued write (R372), the copy in programming, the passwords in force by 2 · partition + access,
failed unlocks in a row and lockouts, the conflicts met since the boot, the sectors whose wear was reported, the generation of
the SAVE under way, and per focal die whether VENDOR holds its factory model with the entries of R81 where `copies` lists no
record of it (assumption 3). -/
structure NvsPart where
  copies : List Copy
  sectors : List (Nat × Sector)
  opens : List (Nat × Nat)
  queue : List NvsWrite
  later : List NvsWrite
  failed : Nat
  prog : Option NvsProg
  pws : List (Nat × List Byte)
  fails : Vector Nat 4
  lockout : Vector Bool 4
  told : List (Nat × Nat)
  worn : List Nat
  save : Option Nat
  factory : Vector Bool 2
deriving DecidableEq, Repr

/-- As delivered in the model: no record, every sector free (assumption 1). -/
def NvsPart.reset : NvsPart :=
  { copies := [], sectors := [], opens := [], queue := [], later := [], failed := 0, prog := none, pws := [],
    fails := Vector.replicate 4 0, lockout := Vector.replicate 4 false, told := [], worn := [], save := none,
    factory := Vector.replicate 2 true }

/-- What every reset and the loss of power keep (Table 4.3): what lies in flash, and what is read from it. -/
def NvsPart.kept (n : NvsPart) : NvsPart :=
  { NvsPart.reset with
    copies := n.copies, sectors := n.sectors, opens := n.opens, pws := n.pws, worn := n.worn, factory := n.factory }

end Sys2Proof.Machine
end

