-- ==== Sys2Proof/Machine/PartsLum.lean ====
section
/-!
DEFINITION. The parts of the state that the actuator dies hold for the lamp strings (Illumination strings and lamp
matrix).
-/

namespace Sys2Proof.Machine

/-- A LATCH waiting at a die (R320, R321): its TIME and ID. -/
structure LatchWait where
  time : Nat
  id : Nat
deriving DecidableEq, Repr

/-- A string's regulator: whether ENABLE = 1 waits for a period, whether its switch is on and, newest first, the PERIPH cycles
at which it was cut at 2.4 A (R312, R325), the cycle of its last start, the start of the stopped interval under way, whether
its stopped current still decays with all bypass switches closed (R312), and the lamps whose bypass is held closed by an open
lamp; the conversions of its thermistor and of its light sensor that wait to be used, and of the camera reference of its
colour loop the sum and the number of pixels in this second (R323); the PERIPH cycles from which its second counts, of its
last requests for the two inputs, and of the thermistor's last conversion that succeeded (R323, R324); and the cycles for
which each lamp has been lit and no counter cell stands yet (R330). -/
structure Str where
  waits : Bool
  sw : Bool
  cuts : List Nat
  startAt : Nat
  stopAt : Option Nat
  decaying : Bool
  held : List Nat
  therm : Option Nat
  sens : List Int
  refSum : Int
  refNum : Nat
  loopAt : Nat
  sensAt : Option Nat
  thermAt : Option Nat
  thermOk : Nat
  lit : List Nat
deriving DecidableEq, Repr

def Str.reset (now : Nat) : Str :=
  { waits := false, sw := false, cuts := [], startAt := 0, stopAt := none, decaying := false, held := [], therm := none, sens := [],
    refSum := 0, refNum := 0, loopAt := now, sensAt := none, thermAt := none, thermOk := now, lit := List.replicate 10 0 }

/-- The tests of a string: the PERIPH cycle from which its times count; per lamp the cycles of its last test and of its last
stretched interval, the lamps whose lit interval is stretched now, and those cleared by ENABLE = 1 and not tested since (R326,
R328); of the neighbour-node test the node that comes next, whether the stopped interval under way has had its node, and the
cycles at which the last test began and the last full one ended (R327). -/
structure StrTest where
  since : Nat
  tested : List (Nat × Nat)
  stretchAt : List (Nat × Nat)
  stretched : List Nat
  fresh : List Nat
  node : Nat
  tried : Bool
  beganAt : Option Nat
  fullAt : Option Nat
deriving DecidableEq, Repr

def StrTest.reset (now : Nat) : StrTest :=
  { since := now, tested := [], stretchAt := [], stretched := [], fresh := [], node := 0, tried := false, beganAt := none,
    fullAt := none }

/-- An actuator die's lamps: the stage (LAMP values by 16 · string + item, and the die record), the LATCH waiting, the
PERIPH cycles at which the PWM period and the matrix cycle under way started, its strings and their tests. -/
structure LumDie where
  stage : List (Nat × Nat)
  record : Option (Word × Word)
  latch : Option LatchWait
  period : Option Nat
  cycle : Option Nat
  strs : Vector Str 4
  tests : Vector StrTest 4
deriving DecidableEq, Repr

/-- A die's lamps after a reset at PERIPH cycle `now`. -/
def LumDie.reset (now : Nat) : LumDie :=
  { stage := [], record := none, latch := none, period := none, cycle := none, strs := Vector.replicate 4 (Str.reset now),
    tests := Vector.replicate 4 (StrTest.reset now) }

end Sys2Proof.Machine
end

