-- ==== Sys2Proof/Machine/PartsCam.lean ====
section
/-!
DEFINITION. The parts of the state that the camera ports and the colour pipeline hold (Camera ports and colour
pipeline).
-/

namespace Sys2Proof.Machine

/-- A trigger issued since the last zero state (R207, R208): its index, its rise and line time in ns of device time, its place
in the line slot, how long CAMn_TRIG stays high, the exposure window on CAMn_EXPS if it is driven (its start and length in
ns), whether a line is paired with it, whether that line has closed, and whether it was issued in a line slot that R435
taints. -/
structure CamTrig where
  num : Nat
  at_ : Nat
  lt : Int
  k : Nat
  high : Nat
  exp : Option (Nat × Nat)
  lined : Bool
  done : Bool
  taint : Bool
deriving DecidableEq, Repr

/-- The line open at a port (R210): its trigger (`none` where its pixels are discarded), its pixels received in reverse,
its index in its frame, whether it ran past LINE_LEN, and the level of LVAL at the last PCLK edge. -/
structure CamOpen where
  trig : Option Nat
  pix : List Int
  row : Nat
  long : Bool
  lval : Bool
deriving DecidableEq, Repr

/-- A frame open at a port: in AREA mode its trigger, the lines or rows opened in it, and the rows of the window so far,
each pixel with its padded mark. -/
structure CamFrame where
  trig : Option Nat
  count : Nat
  rows : List (List (Int × Bool))
deriving DecidableEq, Repr

/-- A closed camera line (R211): trigger index, line time, the index that gives its tile row (R216), its row or window
rows, whether it is fully padded, and whether it is a placeholder of R214, which the pipeline does not see. -/
structure CamLn where
  num : Nat
  lt : Int
  tile : Nat
  rows : List (List (Int × Bool))
  empty : Bool
  hole : Bool
deriving DecidableEq, Repr

/-- A camera line that has left the pipeline: trigger index, line time, its channels R, G, B and NIR, its padded marks,
and whether it is fully padded. -/
structure CamOut where
  num : Nat
  lt : Int
  chans : List (List Int)
  pads : List Bool
  empty : Bool
deriving DecidableEq, Repr

/-- A port (R203–R219): records waiting for a synchronising reset, a line slot, or CH_EN for a fused line; the next trigger
index; the triggers of the line slot whose time has come; triggers newest first; the open line and frame; closed lines not
admitted, and the one that is being admitted; lines admitted, and lines out of the pipeline, by rising index; the next to
leave; the temporal state by window row; the pipeline record and defect map in force and waiting for the gap between two
lines; whether the tie of R208 does not hold; and how many triggers a resume from freeze has withdrawn, since the trigger
index counts them where it gives the tile row (R216, R434). -/
structure CamPort where
  nextSync : Option (List Word)
  nextSlot : Option (List Word)
  nextCh : Option Word
  trigNum : Nat
  fired : List Nat
  trigs : List CamTrig
  line : Option CamOpen
  frame : Option CamFrame
  closed : List CamLn
  adm : Option CamLn
  hist : List CamLn
  outs : List CamOut
  nextOut : Nat
  tnr : List (List Int)
  pipe : List Word
  pipeNext : Option (List Word)
  defects : List (Nat × Nat)
  defectsNext : Option (List (Nat × Nat))
  untied : Bool
  skew : Nat
deriving DecidableEq, Repr

/-- The pipeline record after power-on (R215): a 1×1 tile of W, and W to R, G and B at 1.0. -/
def pipeReset : List Word :=
  [0, 3, 0, 0, 0, 0, 0, 0, 0, 0, 0, 0x00001000, 0, 0, 0x10000000, 0, 0x00001000, 0, 0, 0]

def CamPort.reset : CamPort :=
  { nextSync := none, nextSlot := none, nextCh := none, trigNum := 0, fired := [], trigs := [], line := none, frame := none,
    closed := [], adm := none, hist := [], outs := [], nextOut := 0, tnr := [], pipe := pipeReset, pipeNext := none, defects := [],
    defectsNext := none, untied := false, skew := 0 }

/-- Both ports, the port admitted last, until when the pipeline is occupied, in half ns on the PERIPH clock (R213), and the CH_EN
that was in force at each port when its die went into die reset (R212). -/
structure CamPart where
  ports : Vector CamPort 2
  last : Option (Fin 2)
  busy : Nat
  heldCh : Vector Nat 2
deriving DecidableEq, Repr

def CamPart.reset : CamPart := { ports := Vector.replicate 2 CamPort.reset, last := none, busy := 0, heldCh := Vector.replicate 2 0 }

end Sys2Proof.Machine
end

