-- ==== Sys2Proof/Machine/PartsSadc.lean ====
section
/-!
DEFINITION. The supervisory converter's part of the state (Supervisory ADC).
-/

namespace Sys2Proof.Machine

/-- An injected request (R341): source, input, SUB, and the item of the source it serves. -/
structure Inj where
  src : InjSrc
  inp : Nat
  sub : Nat
  key : Nat
deriving DecidableEq, Repr

/-- A code returned to a source, with OVR and RECOV. -/
structure InjResult where
  req : Inj
  code : Int
  ovr : Bool
  recov : Bool
deriving DecidableEq, Repr

/-- Where the self-trim stands (R343): not under way, waiting for work in progress, or running. -/
inductive TrimPhase where
  | off | waiting | running
deriving DecidableEq, Repr

/-- The converter: whether a sequence entry is in progress or due, whether a stop waits for it, whether the gap between two
passes runs, the injected conversion in progress with the PERIPH cycle of its acceptance, the CAL requests to retry, the
self-trim and its last result, unread results oldest first, run counts and records waiting of the hurdles, the PERIPH cycle at
which the last conversion with OVR ended, whether the conversion in progress was discarded by a freeze, the last result
returned to each source (for the thermal manager, to each sensor), and the drops of each source since its last SADC_DROP
(Table 21.5). -/
structure SadcPart where
  entry : Bool
  stopping : Bool
  gap : Bool
  inj : Option Inj
  injAt : Nat
  retry : List Inj
  trim : TrimPhase
  trimmed : Option (Int × Int)
  ring : List (Word × Word)
  runs : Vector Nat 8
  next : Vector (Option (Word × Word)) 8
  ovrEnd : Option Nat
  redo : Bool
  results : List InjResult
  drops : Vector Nat 5
deriving DecidableEq, Repr

def SadcPart.reset : SadcPart :=
  { entry := false, stopping := false, gap := false, inj := none, injAt := 0, retry := [], trim := .off, trimmed := none, ring := [],
    runs := Vector.replicate 8 0, next := Vector.replicate 8 none, ovrEnd := none, redo := false, results := [],
    drops := Vector.replicate 5 0 }

end Sys2Proof.Machine
end

