-- ==== Sys2Proof/Machine/PartsThm.lean ====
section
/-!
DEFINITION. The thermal manager's part of the state (Temperature management and ageing).
-/

namespace Sys2Proof.Machine

/-- A die (R347–R353): the last 8 samples of each sensor, newest first; consecutive samples outside −40 to +150 °C and
consecutive disagreements, per sensor; consecutive readings at or above the set point of warning, steps 1–3 and shutdown;
consecutive readings below the exit value of the warning, of the step in force, and of shutdown; and whether the die is in
shutdown. -/
structure ThmDie where
  hist : List (List Int)
  outs : List Nat
  cross : List Nat
  at_ : List Nat
  below : List Nat
  shut : Bool
deriving DecidableEq, Repr

def ThmDie.reset : ThmDie :=
  { hist := [], outs := [0, 0, 0, 0], cross := [0, 0, 0, 0], at_ := [0, 0, 0, 0, 0], below := [0, 0, 0], shut := false }

/-- The thermal manager: its dies; set points accepted and waiting for the next reading; whether the defaults are used until a
valid record arrives (R357); factory values of the margin table (R361); since which PERIPH cycle a valve has been in AGEING or
a lamp trim at its limit; and the wear-out conditions reported (R362). -/
structure ThmPart where
  dies : Vector ThmDie 8
  next : Option Word
  dflt : Bool
  factAge : Vector Nat 8
  factG : Vector Nat 2
  factEye : Vector (Nat × Nat) 4
  valves : List (Nat × Nat)
  lamps : List (Nat × Nat)
  told : List (Nat × Nat)
deriving DecidableEq, Repr

def ThmPart.reset : ThmPart :=
  { dies := Vector.replicate 8 ThmDie.reset, next := none, dflt := false, factAge := Vector.replicate 8 0,
    factG := Vector.replicate 2 16384, factEye := Vector.replicate 4 (0, 0), valves := [], lamps := [], told := [] }

end Sys2Proof.Machine
end

