-- ==== Sys2Proof/Machine/PartsNet.lean ====
section
/-!
DEFINITION. The parts of the state that the network ports, the security engine and the starting block hold (Ethernet,
Vangad links, time and many devices; Keys, identity and attestation).
-/

namespace Sys2Proof.Machine

/-- The PTP messages a port sends (R407). -/
inductive PtpKind where
  | sync | followUp | delayReq | delayResp
deriving DecidableEq, Repr

/-- How a PTP message is carried (R407): over UDP to a port, event messages to 319 and general ones to 320, or framed in IEEE
802.3. -/
inductive PtpCarrier where
  | udp (port : Nat)
  | l2
deriving DecidableEq, Repr

/-- What left the device on a network port: a Vangad cell by TYPE, a datagram with header, destination addresses and port
(`none` for the MAC address that IPv4 multicast gives), an ARP or ICMP reply, a PTP message with its carrier, domain, sequence
number and time stamp, an Announce with the clock it names, or an IGMP membership report. -/
inductive Sent where
  | cell (link : Fin 2) (kind : Nat) (c : Cell)
  | datagram (eth : Fin 2) (mac : Option (BitVec 48)) (ip : Word) (port : Nat) (h : Hdr) (data : List Byte)
  | arp (eth : Fin 2) (ip : Word) (data : List Byte)
  | echo (eth : Fin 2) (mac : BitVec 48) (ip : Word) (data : List Byte)
  | ptp (eth : Fin 2) (carrier : PtpCarrier) (domain : Nat) (kind : PtpKind) (seq : Nat) (stamp : Int)
  | announce (eth : Fin 2) (carrier : PtpCarrier) (domain : Nat) (seq : Nat) (clock : PtpClock)
  | igmp (eth : Fin 2) (group : Word)
deriving DecidableEq, Repr

/-- A Vangad link: the partner's t3 and the own time of arrival of its last TIME cell, its STRATUM, the link delay (R413), and the
PERIPH cycle of the last cell sent (R411). -/
structure VgdPort where
  last : Option (Int × Int)
  stratum : Option Nat
  delay : Option Int
  sentAt : Nat
deriving DecidableEq, Repr

def VgdPort.reset : VgdPort := { last := none, stratum := none, delay := none, sentAt := 0 }

/-- A PTP port (R407): the better master that it follows, the Sync that waits for its Follow_Up with its arrival, the
times t1 and t2 of the last Sync, the Delay_Req sent with its t3, the path delay, the sequence numbers to send next, and the
PERIPH cycles of the last Sync and Announce sent. -/
structure PtpPort where
  parent : Option PtpClock
  sync : Option (Nat × Int)
  pair : Option (Int × Int)
  req : Option (Nat × Int)
  delay : Option Int
  nextSync : Nat
  nextReq : Nat
  nextAnnounce : Nat
  syncAt : Option Nat
  announceAt : Option Nat
deriving DecidableEq, Repr

def PtpPort.reset : PtpPort :=
  { parent := none, sync := none, pair := none, req := none, delay := none, nextSync := 0, nextReq := 0, nextAnnounce := 0,
    syncAt := none, announceAt := none }

/-- Does the port follow a master? -/
def PtpPort.slave (p : PtpPort) : Bool := p.parent.isSome

/-- A copy of a SYNC, LATCH, HANDOFF, TIME or OWNER cell, or a LATCH datagram, received: source, TYPE, CSEQ, and the
PERIPH cycle of its arrival (R412, R415). -/
structure SeenCell where
  source : Nat
  kind : Nat
  cseq : Nat
  at_ : Nat
deriving DecidableEq, Repr

/-- A request answered, and its reply (R410). -/
structure KeptReply where
  ip : Word
  port : BitVec 16
  seq : Word
  hdr : Hdr
  data : List Byte
deriving DecidableEq, Repr

/-- The network's part: CSEQ counters by TYPE, copies seen, what was sent (newest first), the receive queue (oldest
first), the replies kept (newest first), the links and ports, the address masks, and by pending
edge the E0 of the SYNC cell behind it. -/
structure NetPart where
  cseq : Vector Nat 6
  seen : List SeenCell
  sent : List Sent
  rx : List (List Word)
  replies : List KeptReply
  vgd : Vector VgdPort 2
  ptp : Vector PtpPort 2
  masks : Vector Word 2
  syncE0 : List (Nat × Int)
deriving DecidableEq, Repr

def NetPart.reset : NetPart :=
  { cseq := Vector.replicate 6 0, seen := [], sent := [], rx := [], replies := [], vgd := Vector.replicate 2 VgdPort.reset,
    ptp := Vector.replicate 2 PtpPort.reset, masks := Vector.replicate 2 0, syncE0 := [] }

/-- An authorisation block before the security engine (R395): its bytes, and the request to answer (`none` for
SYS.LIFECYCLE). -/
structure AuthReq where
  data : List Byte
  reply : Option Hdr
deriving DecidableEq, Repr

/-- The security engine (R387–R399): the life-cycle byte and its complement in OTP (R92); the hash of the vendor root public
key, the identity certificate and the private identity key in OTP (Table 18.1; their values as delivered are the model's,
assumption 1); the public keys of the owner slots; blocks waiting, oldest first; the attestation under way; the image or code
whose signature is being checked, with whether it is for LOAD; the slots whose SEC_COMPLEMENT, and whether SEC_COUNTER_LOW, was
raised since the boot; the digest of the running image and the program measurement; and the random generator (R400). -/
structure SecPart where
  otp : Byte × Byte
  rootHash : List Byte
  cert : List Byte
  identity : Nat
  keys : Vector (List Byte) 4
  auths : List AuthReq
  attest : Option (Hdr × List Byte)
  verify : Option (Bool × Hdr × Image)
  toldCompl : List Nat
  toldLow : List (Nat × Nat)
  imageHash : List Byte
  program : List Byte
  drbg : Drbg
deriving DecidableEq, Repr

def SecPart.reset : SecPart :=
  { otp := (0x01, 0xFE), rootHash := List.replicate 48 0, cert := [], identity := 1, keys := Vector.replicate 4 [], auths := [],
    attest := none, verify := none, toldCompl := [], toldLow := [], imageHash := List.replicate 48 0,
    program := List.replicate 48 0, drbg := Drbg.zero }

/-- What no reset and no loss of power touches: OTP and the owner key slots (Table 18.1). -/
def SecPart.kept (e : SecPart) : SecPart :=
  { SecPart.reset with otp := e.otp, rootHash := e.rootHash, cert := e.cert, identity := e.identity, keys := e.keys }

end Sys2Proof.Machine
end

