-- ==== Sys2Proof/Machine/StatusMap.lean ====
section
/-!
DEFINITION. The status space (R16, R438): every assigned word with its fields, their access codes and their values
after power-on, read off the field tables of the chapters.  A field is named by its word's address and its bits.
-/

namespace Sys2Proof.Machine

/-- Access codes (Table 0.3). -/
inductive Access where
  | ro | rs | rc
deriving DecidableEq, Repr

/-- One field of a status word: bits `hi` to `lo`, access code, value after power-on. -/
structure FieldSpec where
  hi : Nat
  lo : Nat
  acc : Access
  reset : Nat
deriving DecidableEq, Repr

/-- A family of status words at `base + s1 * i + s2 * j`, `i < n1`, `j < n2`.  On the ZT4 only the members with
`i < i4` and `j` in one of the half-open ranges `j4` exist (R17). -/
structure WordSpec where
  base : Nat
  s1 : Nat
  n1 : Nat
  s2 : Nat
  n2 : Nat
  i4 : Nat
  j4 : List (Nat × Nat)
  fields : List FieldSpec
deriving DecidableEq, Repr

/-- A field of the status space: word address and bits (R8). -/
structure Fld where
  addr : Nat
  hi : Nat
  lo : Nat
deriving DecidableEq, Repr


namespace F

/-- ID.PART (Table 0.4). -/
def idPart : Nat := 0x0
/-- ID.PART.FAMILY [31:16], RO. -/
def idPartFamily : Fld := ⟨idPart, 31, 16⟩
/-- ID.PART.STEP [15:8], RO. -/
def idPartStep : Fld := ⟨idPart, 15, 8⟩
/-- ID.PART.POP [7:4], RO. -/
def idPartPop : Fld := ⟨idPart, 7, 4⟩
/-- PWR.STATE (Table 3.6). -/
def pwrState : Nat := 0x10000
/-- PWR.STATE.VIN [31:16], RO; 0x12c0 after power-on is the model's choice (the table: Measured; assumption 1). -/
def pwrStateVin : Fld := ⟨pwrState, 31, 16⟩
/-- PWR.STATE.VIN_ZONE [11:8], RO; 2 after power-on is the model's choice (the table: 1–4; assumption 1). -/
def pwrStateVinZone : Fld := ⟨pwrState, 11, 8⟩
/-- PWR.STATE.V12_GOOD [7:7], RO. -/
def pwrStateV12Good : Fld := ⟨pwrState, 7, 7⟩
/-- PWR.STATE.VCORE_GOOD [6:6], RO. -/
def pwrStateVcoreGood : Fld := ⟨pwrState, 6, 6⟩
/-- PWR.STATE.VDDQ_GOOD [5:5], RO. -/
def pwrStateVddqGood : Fld := ⟨pwrState, 5, 5⟩
/-- PWR.STATE.V18_GOOD [4:4], RO. -/
def pwrStateV18Good : Fld := ⟨pwrState, 4, 4⟩
/-- PWR.STATE.FDA1_GOOD [3:3], RO. -/
def pwrStateFda1Good : Fld := ⟨pwrState, 3, 3⟩
/-- PWR.STATE.FDA0_GOOD [2:2], RO. -/
def pwrStateFda0Good : Fld := ⟨pwrState, 2, 2⟩
/-- PWR.STATE.VC_SHED [1:1], RO. -/
def pwrStateVcShed : Fld := ⟨pwrState, 1, 1⟩
/-- PWR.STATE.INRUSH_DONE [0:0], RO. -/
def pwrStateInrushDone : Fld := ⟨pwrState, 0, 0⟩
/-- PWR.VCORE_SET (Table 3.6). -/
def pwrVcoreSet : Nat := 0x10004
/-- PWR.VCORE_SET.STEP [3:0], RO; 0 after power-on is the model's choice (the table: Margin table; assumption 1). -/
def pwrVcoreSetStep : Fld := ⟨pwrVcoreSet, 3, 0⟩
/-- PWR.FAULT (Table 3.6). -/
def pwrFault : Nat := 0x10008
/-- PWR.FAULT.FDA1 [10:10], RS. -/
def pwrFaultFda1 : Fld := ⟨pwrFault, 10, 10⟩
/-- PWR.FAULT.FDA0 [9:9], RS. -/
def pwrFaultFda0 : Fld := ⟨pwrFault, 9, 9⟩
/-- PWR.FAULT.V18 [8:8], RS. -/
def pwrFaultV18 : Fld := ⟨pwrFault, 8, 8⟩
/-- PWR.FAULT.VDDQ [7:7], RS. -/
def pwrFaultVddq : Fld := ⟨pwrFault, 7, 7⟩
/-- PWR.FAULT.VCORE_OV [6:6], RS. -/
def pwrFaultVcoreOv : Fld := ⟨pwrFault, 6, 6⟩
/-- PWR.FAULT.VCORE_UV [5:5], RS. -/
def pwrFaultVcoreUv : Fld := ⟨pwrFault, 5, 5⟩
/-- PWR.FAULT.V12 [4:4], RS. -/
def pwrFaultV12 : Fld := ⟨pwrFault, 4, 4⟩
/-- PWR.FAULT.INRUSH_TIMEOUT [3:3], RS. -/
def pwrFaultInrushTimeout : Fld := ⟨pwrFault, 3, 3⟩
/-- PWR.FAULT.INPUT_TRIP [2:2], RS. -/
def pwrFaultInputTrip : Fld := ⟨pwrFault, 2, 2⟩
/-- PWR.FAULT.VIN_OV_TRIP [1:1], RS. -/
def pwrFaultVinOvTrip : Fld := ⟨pwrFault, 1, 1⟩
/-- PWR.FAULT.BROWNOUT [0:0], RS. -/
def pwrFaultBrownout : Fld := ⟨pwrFault, 0, 0⟩
/-- PWR.COUNT (Table 3.6). -/
def pwrCount : Nat := 0x1000c
/-- PWR.COUNT.INPUT_TRIP_COUNT [31:16], RC. -/
def pwrCountInputTripCount : Fld := ⟨pwrCount, 31, 16⟩
/-- PWR.COUNT.BROWNOUT_COUNT [15:0], RC. -/
def pwrCountBrownoutCount : Fld := ⟨pwrCount, 15, 0⟩
/-- CLK.STATE (Table 3.9). -/
def clkState : Nat := 0x18000
/-- CLK.STATE.TIME_SRC [9:8], RO. -/
def clkStateTimeSrc : Fld := ⟨clkState, 9, 8⟩
/-- CLK.STATE.SLEWING [7:7], RO. -/
def clkStateSlewing : Fld := ⟨clkState, 7, 7⟩
/-- CLK.STATE.VGD1_LOCK [6:6], RO. -/
def clkStateVgd1Lock : Fld := ⟨clkState, 6, 6⟩
/-- CLK.STATE.VGD0_LOCK [5:5], RO. -/
def clkStateVgd0Lock : Fld := ⟨clkState, 5, 5⟩
/-- CLK.STATE.ETH1_LOCK [4:4], RO. -/
def clkStateEth1Lock : Fld := ⟨clkState, 4, 4⟩
/-- CLK.STATE.ETH0_LOCK [3:3], RO. -/
def clkStateEth0Lock : Fld := ⟨clkState, 3, 3⟩
/-- CLK.STATE.DIE_LOCK [2:2], RO. -/
def clkStateDieLock : Fld := ⟨clkState, 2, 2⟩
/-- CLK.STATE.ROOT_LOCK [1:1], RO. -/
def clkStateRootLock : Fld := ⟨clkState, 1, 1⟩
/-- CLK.STATE.REFCLK_OK [0:0], RO. -/
def clkStateRefclkOk : Fld := ⟨clkState, 0, 0⟩
/-- CLK.FAULT (Table 3.9). -/
def clkFault : Nat := 0x18004
/-- CLK.FAULT.STEP_DEFERRED [3:3], RS. -/
def clkFaultStepDeferred : Fld := ⟨clkFault, 3, 3⟩
/-- CLK.FAULT.DIE_UNLOCK [2:2], RS. -/
def clkFaultDieUnlock : Fld := ⟨clkFault, 2, 2⟩
/-- CLK.FAULT.ROOT_UNLOCK [1:1], RS. -/
def clkFaultRootUnlock : Fld := ⟨clkFault, 1, 1⟩
/-- CLK.FAULT.REFCLK_LOSS [0:0], RS. -/
def clkFaultRefclkLoss : Fld := ⟨clkFault, 0, 0⟩
/-- CLK.TIME_OFFSET (Table 3.9). -/
def clkTimeOffset : Nat := 0x18008
/-- CLK.TIME_OFFSET.OFFSET [31:0], RO. -/
def clkTimeOffsetOffset : Fld := ⟨clkTimeOffset, 31, 0⟩
/-- CLK.TIME_LO (Table 3.9). -/
def clkTimeLo : Nat := 0x18010
/-- CLK.TIME_LO.TIME_LO [31:0], RO. -/
def clkTimeLoTimeLo : Fld := ⟨clkTimeLo, 31, 0⟩
/-- CLK.TIME_HI (Table 3.9). -/
def clkTimeHi : Nat := 0x18014
/-- CLK.TIME_HI.TIME_HI [31:0], RO. -/
def clkTimeHiTimeHi : Fld := ⟨clkTimeHi, 31, 0⟩
/-- RST.CAUSE (Table 4.6). -/
def rstCause : Nat := 0x20000
/-- RST.CAUSE.LAST [19:16], RO. -/
def rstCauseLast : Fld := ⟨rstCause, 19, 16⟩
/-- RST.CAUSE.LCS_CHANGE [8:8], RS. -/
def rstCauseLcsChange : Fld := ⟨rstCause, 8, 8⟩
/-- RST.CAUSE.SYS_CLUSTER [7:7], RS. -/
def rstCauseSysCluster : Fld := ⟨rstCause, 7, 7⟩
/-- RST.CAUSE.SYS_DIE [6:6], RS. -/
def rstCauseSysDie : Fld := ⟨rstCause, 6, 6⟩
/-- RST.CAUSE.SYS_FULL [5:5], RS. -/
def rstCauseSysFull : Fld := ⟨rstCause, 5, 5⟩
/-- RST.CAUSE.CLOCK_LOSS [4:4], RS. -/
def rstCauseClockLoss : Fld := ⟨rstCause, 4, 4⟩
/-- RST.CAUSE.WATCHDOG [3:3], RS. -/
def rstCauseWatchdog : Fld := ⟨rstCause, 3, 3⟩
/-- RST.CAUSE.RESET_PIN [2:2], RS. -/
def rstCauseResetPin : Fld := ⟨rstCause, 2, 2⟩
/-- RST.CAUSE.BROWNOUT [1:1], RS. -/
def rstCauseBrownout : Fld := ⟨rstCause, 1, 1⟩
/-- RST.CAUSE.POWER_ON [0:0], RS. -/
def rstCausePowerOn : Fld := ⟨rstCause, 0, 0⟩
/-- RST.BOOT (Table 4.6). -/
def rstBoot : Nat := 0x20004
/-- RST.BOOT.BOOT_TIME [31:16], RO; 0x1964 after power-on is the model's choice (the table: Measured; assumption 1). -/
def rstBootBootTime : Fld := ⟨rstBoot, 31, 16⟩
/-- RST.BOOT.STAGE [11:8], RO. -/
def rstBootStage : Fld := ⟨rstBoot, 11, 8⟩
/-- RST.BOOT.SLOT [5:4], RO; 3 after power-on is the model's choice (the table: Slot used; assumption 1). -/
def rstBootSlot : Fld := ⟨rstBoot, 5, 4⟩
/-- RST.BOOT.SLOT_B_FAIL [3:3], RS. -/
def rstBootSlotBFail : Fld := ⟨rstBoot, 3, 3⟩
/-- RST.BOOT.SLOT_A_FAIL [2:2], RS. -/
def rstBootSlotAFail : Fld := ⟨rstBoot, 2, 2⟩
/-- RST.BOOT.MODEL_READY [1:1], RO. -/
def rstBootModelReady : Fld := ⟨rstBoot, 1, 1⟩
/-- RST.BOOT.INDEX_READY [0:0], RO. -/
def rstBootIndexReady : Fld := ⟨rstBoot, 0, 0⟩
/-- RST.DIE (Table 4.6). -/
def rstDie : Nat := 0x20008
/-- RST.DIE.DIE_UP [7:0], RO. -/
def rstDieDieUp : Fld := ⟨rstDie, 7, 0⟩
/-- RST.DDR_WIPE (Table 4.6). -/
def rstDdrWipe : Nat := 0x2000c
/-- RST.DDR_WIPE.CH_DONE [11:8], RO. -/
def rstDdrWipeChDone : Fld := ⟨rstDdrWipe, 11, 8⟩
/-- RST.DDR_WIPE.PROGRESS [7:0], RO. -/
def rstDdrWipeProgress : Fld := ⟨rstDdrWipe, 7, 0⟩
/-- RST.COUNT (Table 4.6). -/
def rstCount : Nat := 0x20010
/-- RST.COUNT.WATCHDOG_COUNT [31:16], RC. -/
def rstCountWatchdogCount : Fld := ⟨rstCount, 31, 16⟩
/-- RST.COUNT.RESET_PIN_COUNT [15:0], RC. -/
def rstCountResetPinCount : Fld := ⟨rstCount, 15, 0⟩
/-- RST.DDR_REFUSED (Table 4.6). -/
def rstDdrRefused : Nat := 0x20014
/-- RST.DDR_REFUSED.DDR_REFUSED [31:0], RC. -/
def rstDdrRefusedDdrRefused : Fld := ⟨rstDdrRefused, 31, 0⟩
/-- LCS.STATE (Table 4.6). -/
def lcsState : Nat := 0x20100
/-- LCS.STATE.STATE_N [15:8], RO. -/
def lcsStateStateN : Fld := ⟨lcsState, 15, 8⟩
/-- LCS.STATE.STATE [7:0], RO. -/
def lcsStateState : Fld := ⟨lcsState, 7, 0⟩
/-- LCS.INFO (Table 4.6). -/
def lcsInfo : Nat := 0x20104
/-- LCS.INFO.WIPE_PENDING [7:7], RO. -/
def lcsInfoWipePending : Fld := ⟨lcsInfo, 7, 7⟩
/-- LCS.INFO.REENTRIES_LEFT [2:0], RO. -/
def lcsInfoReentriesLeft : Fld := ⟨lcsInfo, 2, 0⟩
/-- FPD.STATE (Table 5.8). -/
def fpdState (i : Nat) : Nat := 0x100000 + 0x8000 * i
/-- FPD.STATE.RUN [31:31], RO. -/
def fpdStateRun (i : Nat) : Fld := ⟨fpdState i, 31, 31⟩
/-- FPD.STATE.BIAS_ON [30:30], RO. -/
def fpdStateBiasOn (i : Nat) : Fld := ⟨fpdState i, 30, 30⟩
/-- FPD.STATE.SETTLING [29:29], RO. -/
def fpdStateSettling (i : Nat) : Fld := ⟨fpdState i, 29, 29⟩
/-- FPD.STATE.DIAG [28:28], RO. -/
def fpdStateDiag (i : Nat) : Fld := ⟨fpdState i, 28, 28⟩
/-- FPD.STATE.BAND_LOCK [27:27], RO. -/
def fpdStateBandLock (i : Nat) : Fld := ⟨fpdState i, 27, 27⟩
/-- FPD.STATE.OUT_OF_BAND [26:26], RO. -/
def fpdStateOutOfBand (i : Nat) : Fld := ⟨fpdState i, 26, 26⟩
/-- FPD.STATE.LSYNC_MODE [25:24], RO. -/
def fpdStateLsyncMode (i : Nat) : Fld := ⟨fpdState i, 25, 24⟩
/-- FPD.STATE.SHUTTER [23:21], RO. -/
def fpdStateShutter (i : Nat) : Fld := ⟨fpdState i, 23, 21⟩
/-- FPD.STATE.BAND [20:16], RO; 9 after power-on is the model's choice (the table: Measured; assumption 1). -/
def fpdStateBand (i : Nat) : Fld := ⟨fpdState i, 20, 16⟩
/-- FPD.STATE.LINE_SLOT [11:0], RO. -/
def fpdStateLineSlot (i : Nat) : Fld := ⟨fpdState i, 11, 0⟩
/-- FPD.SUBSTRATE (Table 5.8). -/
def fpdSubstrate (i : Nat) : Nat := 0x100004 + 0x8000 * i
/-- FPD.SUBSTRATE.TEMP [15:0], RO; 0x9c4 after power-on is the model's choice (the table: Measured; assumption 1). -/
def fpdSubstrateTemp (i : Nat) : Fld := ⟨fpdSubstrate i, 15, 0⟩
/-- FPD.LINE (Table 5.8). -/
def fpdLine (i : Nat) : Nat := 0x100008 + 0x8000 * i
/-- FPD.LINE.LINE [23:0], RO. -/
def fpdLineLine (i : Nat) : Fld := ⟨fpdLine i, 23, 0⟩
/-- FPD.SHUTTER_CFG (Table 5.8). -/
def fpdShutterCfg (i : Nat) : Nat := 0x10000c + 0x8000 * i
/-- FPD.SHUTTER_CFG.TRAVEL [31:24], RO. -/
def fpdShutterCfgTravel (i : Nat) : Fld := ⟨fpdShutterCfg i, 31, 24⟩
/-- FPD.SHUTTER_CFG.REOPEN [23:16], RO. -/
def fpdShutterCfgReopen (i : Nat) : Fld := ⟨fpdShutterCfg i, 23, 16⟩
/-- FPD.SHUTTER_CFG.HOLD [15:8], RO. -/
def fpdShutterCfgHold (i : Nat) : Fld := ⟨fpdShutterCfg i, 15, 8⟩
/-- FPD.SHUTTER_CFG.SHT_AIN [7:2], RO. -/
def fpdShutterCfgShtAin (i : Nat) : Fld := ⟨fpdShutterCfg i, 7, 2⟩
/-- FPD.FAULT (Table 5.8). -/
def fpdFault (i : Nat) : Nat := 0x100010 + 0x8000 * i
/-- FPD.FAULT.SYNC_IGNORED [5:5], RS. -/
def fpdFaultSyncIgnored (i : Nat) : Fld := ⟨fpdFault i, 5, 5⟩
/-- FPD.FAULT.SHUTTER_REFUSED [4:4], RS. -/
def fpdFaultShutterRefused (i : Nat) : Fld := ⟨fpdFault i, 4, 4⟩
/-- FPD.FAULT.SHUTTER_OPEN_LOAD [3:3], RS. -/
def fpdFaultShutterOpenLoad (i : Nat) : Fld := ⟨fpdFault i, 3, 3⟩
/-- FPD.FAULT.SHUTTER_OVERCURRENT [2:2], RS. -/
def fpdFaultShutterOvercurrent (i : Nat) : Fld := ⟨fpdFault i, 2, 2⟩
/-- FPD.FAULT.BIAS [1:1], RS. -/
def fpdFaultBias (i : Nat) : Fld := ⟨fpdFault i, 1, 1⟩
/-- FPD.FAULT.SETTINGS_REFUSED [0:0], RS. -/
def fpdFaultSettingsRefused (i : Nat) : Fld := ⟨fpdFault i, 0, 0⟩
/-- FPD.OVR_COUNT (Table 5.8). -/
def fpdOvrCount (i : Nat) : Nat := 0x100014 + 0x8000 * i
/-- FPD.OVR_COUNT.OVR_COUNT [31:0], RC. -/
def fpdOvrCountOvrCount (i : Nat) : Fld := ⟨fpdOvrCount i, 31, 0⟩
/-- FPD.RECOV_COUNT (Table 5.8). -/
def fpdRecovCount (i : Nat) : Nat := 0x100018 + 0x8000 * i
/-- FPD.RECOV_COUNT.RECOV_COUNT [31:0], RC. -/
def fpdRecovCountRecovCount (i : Nat) : Fld := ⟨fpdRecovCount i, 31, 0⟩
/-- FPD.COUNT (Table 5.8). -/
def fpdCount (i : Nat) : Nat := 0x10001c + 0x8000 * i
/-- FPD.COUNT.BAND_CHANGES [31:16], RC. -/
def fpdCountBandChanges (i : Nat) : Fld := ⟨fpdCount i, 31, 16⟩
/-- FPD.COUNT.SHUTTER_MOVES [15:0], RC. -/
def fpdCountShutterMoves (i : Nat) : Fld := ⟨fpdCount i, 15, 0⟩
/-- FPD.SYNC (Table 5.8). -/
def fpdSync (i : Nat) : Nat := 0x100020 + 0x8000 * i
/-- FPD.SYNC.SYNC_TAKEN [31:16], RC. -/
def fpdSyncSyncTaken (i : Nat) : Fld := ⟨fpdSync i, 31, 16⟩
/-- FPD.SYNC.SYNC_IGNORED_COUNT [15:0], RC. -/
def fpdSyncSyncIgnoredCount (i : Nat) : Fld := ⟨fpdSync i, 15, 0⟩
/-- FPD.SYNC_TIME_LO (Table 5.8). -/
def fpdSyncTimeLo (i : Nat) : Nat := 0x100024 + 0x8000 * i
/-- FPD.SYNC_TIME_LO.TIME_LO [31:0], RO. -/
def fpdSyncTimeLoTimeLo (i : Nat) : Fld := ⟨fpdSyncTimeLo i, 31, 0⟩
/-- FPD.SYNC_TIME_HI (Table 5.8). -/
def fpdSyncTimeHi (i : Nat) : Nat := 0x100028 + 0x8000 * i
/-- FPD.SYNC_TIME_HI.TIME_HI [31:0], RO. -/
def fpdSyncTimeHiTimeHi (i : Nat) : Fld := ⟨fpdSyncTimeHi i, 31, 0⟩
/-- ALG.STATE (Table 6.7). -/
def algState : Nat := 0x200000
/-- ALG.STATE.ENGINES [7:0], RO. -/
def algStateEngines : Fld := ⟨algState, 7, 0⟩
/-- ALG.STEP_HELD (Table 6.7). -/
def algStepHeld : Nat := 0x200004
/-- ALG.STEP_HELD.STEP_HELD [31:0], RC. -/
def algStepHeldStepHeld : Fld := ⟨algStepHeld, 31, 0⟩
/-- ALG.STEP_CAPPED (Table 6.7). -/
def algStepCapped : Nat := 0x200008
/-- ALG.STEP_CAPPED.STEP_CAPPED [31:0], RC. -/
def algStepCappedStepCapped : Fld := ⟨algStepCapped, 31, 0⟩
/-- ALG.RHO_CLAMPED (Table 6.7). -/
def algRhoClamped : Nat := 0x20000c
/-- ALG.RHO_CLAMPED.RHO_CLAMPED [31:0], RC. -/
def algRhoClampedRhoClamped : Fld := ⟨algRhoClamped, 31, 0⟩
/-- ALG.SWAP (Table 6.7). -/
def algSwap : Nat := 0x200010
/-- ALG.SWAP.SUPERSEDED [31:16], RC. -/
def algSwapSuperseded : Fld := ⟨algSwap, 31, 16⟩
/-- ALG.SWAP.REFUSED [15:0], RC. -/
def algSwapRefused : Fld := ⟨algSwap, 15, 0⟩
/-- ALG.SAT (Table 6.7). -/
def algSat : Nat := 0x200014
/-- ALG.SAT.SAT_COUNT [31:0], RC. -/
def algSatSatCount : Fld := ⟨algSat, 31, 0⟩
/-- ALG.FAULT (Table 6.7). -/
def algFault : Nat := 0x200018
/-- ALG.FAULT.RAM_REFUSED [2:2], RS. -/
def algFaultRamRefused : Fld := ⟨algFault, 2, 2⟩
/-- ALG.FAULT.SWAP_REFUSED [1:1], RS. -/
def algFaultSwapRefused : Fld := ⟨algFault, 1, 1⟩
/-- ALG.FAULT.SATURATION [0:0], RS. -/
def algFaultSaturation : Fld := ⟨algFault, 0, 0⟩
/-- ALG.ENG_STATE (Table 6.7). -/
def algEngState (j : Nat) : Nat := 0x201000 + 0x20 * j
/-- ALG.ENG_STATE.PHYS [30:24], RO. -/
def algEngStatePhys (j : Nat) : Fld := ⟨algEngState j, 30, 24⟩
/-- ALG.ENG_STATE.WARM [22:22], RO. -/
def algEngStateWarm (j : Nat) : Fld := ⟨algEngState j, 22, 22⟩
/-- ALG.ENG_STATE.PRESENT [21:21], RO. -/
def algEngStatePresent (j : Nat) : Fld := ⟨algEngState j, 21, 21⟩
/-- ALG.ENG_STATE.HANDOVER [20:20], RO. -/
def algEngStateHandover (j : Nat) : Fld := ⟨algEngState j, 20, 20⟩
/-- ALG.ENG_STATE.HELD [19:19], RO. -/
def algEngStateHeld (j : Nat) : Fld := ⟨algEngState j, 19, 19⟩
/-- ALG.ENG_STATE.SYNC_PENDING [18:18], RO. -/
def algEngStateSyncPending (j : Nat) : Fld := ⟨algEngState j, 18, 18⟩
/-- ALG.ENG_STATE.RAM_S4 [17:17], RO. -/
def algEngStateRamS4 (j : Nat) : Fld := ⟨algEngState j, 17, 17⟩
/-- ALG.ENG_STATE.RAM_S3 [16:16], RO. -/
def algEngStateRamS3 (j : Nat) : Fld := ⟨algEngState j, 16, 16⟩
/-- ALG.ENG_STATE.S3_SEL [15:13], RO. -/
def algEngStateS3Sel (j : Nat) : Fld := ⟨algEngState j, 15, 13⟩
/-- ALG.ENG_STATE.S4_SEL [12:10], RO. -/
def algEngStateS4Sel (j : Nat) : Fld := ⟨algEngState j, 12, 10⟩
/-- ALG.ENG_STATE.FADE [9:8], RO. -/
def algEngStateFade (j : Nat) : Fld := ⟨algEngState j, 9, 8⟩
/-- ALG.ENG_STATE.FADE_LINE [7:0], RO. -/
def algEngStateFadeLine (j : Nat) : Fld := ⟨algEngState j, 7, 0⟩
/-- ALG.ENG_CFG (Table 6.7). -/
def algEngCfg (j : Nat) : Nat := 0x201004 + 0x20 * j
/-- ALG.ENG_CFG.DEPTH [31:23], RO. -/
def algEngCfgDepth (j : Nat) : Fld := ⟨algEngCfg j, 31, 23⟩
/-- ALG.ENG_CFG.SH1 [22:19], RO. -/
def algEngCfgSh1 (j : Nat) : Fld := ⟨algEngCfg j, 22, 19⟩
/-- ALG.ENG_CFG.SH2 [18:15], RO. -/
def algEngCfgSh2 (j : Nat) : Fld := ⟨algEngCfg j, 18, 15⟩
/-- ALG.ENG_CFG.SH3 [14:11], RO. -/
def algEngCfgSh3 (j : Nat) : Fld := ⟨algEngCfg j, 14, 11⟩
/-- ALG.ENG_CFG.SH4 [10:7], RO. -/
def algEngCfgSh4 (j : Nat) : Fld := ⟨algEngCfg j, 10, 7⟩
/-- ALG.ENG_DET (Table 6.7). -/
def algEngDet (j : Nat) : Nat := 0x201008 + 0x20 * j
/-- ALG.ENG_DET.RMS_N [31:27], RO. -/
def algEngDetRmsN (j : Nat) : Fld := ⟨algEngDet j, 31, 27⟩
/-- ALG.ENG_DET.ATTACK [26:23], RO. -/
def algEngDetAttack (j : Nat) : Fld := ⟨algEngDet j, 26, 23⟩
/-- ALG.ENG_DET.DECAY [22:19], RO. -/
def algEngDetDecay (j : Nat) : Fld := ⟨algEngDet j, 22, 19⟩
/-- ALG.ENG_PRES (Table 6.7). -/
def algEngPres (j : Nat) : Nat := 0x20100c + 0x20 * j
/-- ALG.ENG_PRES.PRES_ON [31:16], RO. -/
def algEngPresPresOn (j : Nat) : Fld := ⟨algEngPres j, 31, 16⟩
/-- ALG.ENG_PRES.PRES_OFF [15:0], RO. -/
def algEngPresPresOff (j : Nat) : Fld := ⟨algEngPres j, 15, 0⟩
/-- ALG.ENG_PEAK (Table 6.7). -/
def algEngPeak (j : Nat) : Nat := 0x201010 + 0x20 * j
/-- ALG.ENG_PEAK.VALUE [23:0], RO. -/
def algEngPeakValue (j : Nat) : Fld := ⟨algEngPeak j, 23, 0⟩
/-- ALG.ENG_RMS (Table 6.7). -/
def algEngRms (j : Nat) : Nat := 0x201014 + 0x20 * j
/-- ALG.ENG_RMS.VALUE [23:0], RO. -/
def algEngRmsValue (j : Nat) : Fld := ⟨algEngRms j, 23, 0⟩
/-- ALG.ENG_ENV (Table 6.7). -/
def algEngEnv (j : Nat) : Nat := 0x201018 + 0x20 * j
/-- ALG.ENG_ENV.VALUE [23:0], RO. -/
def algEngEnvValue (j : Nat) : Fld := ⟨algEngEnv j, 23, 0⟩
/-- ALG.ENG_TAINT_LINES (Table 6.7). -/
def algEngTaintLines (j : Nat) : Nat := 0x20101c + 0x20 * j
/-- ALG.ENG_TAINT_LINES.TAINT_LINES [31:0], RC. -/
def algEngTaintLinesTaintLines (j : Nat) : Fld := ⟨algEngTaintLines j, 31, 0⟩
/-- CSN.CFG (Table 6.8). -/
def csnCfg (i : Nat) : Nat := 0x280000 + 0x4000 * i
/-- CSN.CFG.S4_SEL [31:30], RO. -/
def csnCfgS4Sel (i : Nat) : Fld := ⟨csnCfg i, 31, 30⟩
/-- CSN.CFG.SH4 [29:26], RO. -/
def csnCfgSh4 (i : Nat) : Fld := ⟨csnCfg i, 29, 26⟩
/-- CSN.CFG.RMS_N [25:21], RO. -/
def csnCfgRmsN (i : Nat) : Fld := ⟨csnCfg i, 25, 21⟩
/-- CSN.CFG.ATTACK [20:17], RO. -/
def csnCfgAttack (i : Nat) : Fld := ⟨csnCfg i, 20, 17⟩
/-- CSN.CFG.DECAY [16:13], RO. -/
def csnCfgDecay (i : Nat) : Fld := ⟨csnCfg i, 16, 13⟩
/-- CSN.SAT (Table 6.8). -/
def csnSat (i : Nat) : Nat := 0x280004 + 0x4000 * i
/-- CSN.SAT.SAT_COUNT [31:0], RC. -/
def csnSatSatCount (i : Nat) : Fld := ⟨csnSat i, 31, 0⟩
/-- CSN.FAULT (Table 6.8). -/
def csnFault (i : Nat) : Nat := 0x280008 + 0x4000 * i
/-- CSN.FAULT.SATURATION [1:1], RS. -/
def csnFaultSaturation (i : Nat) : Fld := ⟨csnFault i, 1, 1⟩
/-- CSN.FAULT.SETTINGS_REFUSED [0:0], RS. -/
def csnFaultSettingsRefused (i : Nat) : Fld := ⟨csnFault i, 0, 0⟩
/-- CSN.CH_LEVEL (Table 6.8). -/
def csnChLevel (i j : Nat) : Nat := 0x280100 + 0x4000 * i + 0x8 * j
/-- CSN.CH_LEVEL.PEAK [31:16], RO. -/
def csnChLevelPeak (i j : Nat) : Fld := ⟨csnChLevel i j, 31, 16⟩
/-- CSN.CH_LEVEL.RMS [15:0], RO. -/
def csnChLevelRms (i j : Nat) : Fld := ⟨csnChLevel i j, 15, 0⟩
/-- CSN.CH_ENV (Table 6.8). -/
def csnChEnv (i j : Nat) : Nat := 0x280104 + 0x4000 * i + 0x8 * j
/-- CSN.CH_ENV.ENV [31:16], RO. -/
def csnChEnvEnv (i j : Nat) : Fld := ⟨csnChEnv i j, 31, 16⟩
/-- CSN.CH_ENV.LAST [15:0], RO. -/
def csnChEnvLast (i j : Nat) : Fld := ⟨csnChEnv i j, 15, 0⟩
/-- COR.GRID (Table 7.8). -/
def corGrid : Nat := 0x300000
/-- COR.GRID.PITCH [31:20], RO. -/
def corGridPitch : Fld := ⟨corGrid, 31, 20⟩
/-- COR.GRID.P_ROW [19:9], RO. -/
def corGridPRow : Fld := ⟨corGrid, 19, 9⟩
/-- COR.GRID.OVERLAP [8:2], RO. -/
def corGridOverlap : Fld := ⟨corGrid, 8, 2⟩
/-- COR.GRID.PENDING [1:1], RO. -/
def corGridPending : Fld := ⟨corGrid, 1, 1⟩
/-- COR.VCFG (Table 7.8). -/
def corVcfg : Nat := 0x300004
/-- COR.VCFG.V_DEF [31:16], RO. -/
def corVcfgVDef : Fld := ⟨corVcfg, 31, 16⟩
/-- COR.VCFG.CONF_MIN [15:8], RO. -/
def corVcfgConfMin : Fld := ⟨corVcfg, 15, 8⟩
/-- COR.VCFG.LAG [7:6], RO. -/
def corVcfgLag : Fld := ⟨corVcfg, 7, 6⟩
/-- COR.VCFG.SMOOTH [5:3], RO. -/
def corVcfgSmooth : Fld := ⟨corVcfg, 5, 3⟩
/-- COR.VAR_MIN (Table 7.8). -/
def corVarMin : Nat := 0x300008
/-- COR.VAR_MIN.VAR_MIN [31:16], RO. -/
def corVarMinVarMin : Fld := ⟨corVarMin, 31, 16⟩
/-- COR.FAULT (Table 7.8). -/
def corFault : Nat := 0x30000c
/-- COR.FAULT.REG_REFUSED [5:5], RS. -/
def corFaultRegRefused : Fld := ⟨corFault, 5, 5⟩
/-- COR.FAULT.SATURATION [4:4], RS. -/
def corFaultSaturation : Fld := ⟨corFault, 4, 4⟩
/-- COR.FAULT.MODEL_PARITY [3:3], RS. -/
def corFaultModelParity : Fld := ⟨corFault, 3, 3⟩
/-- COR.FAULT.MODEL_REFUSED [2:2], RS. -/
def corFaultModelRefused : Fld := ⟨corFault, 2, 2⟩
/-- COR.FAULT.CM_HELD [1:1], RS. -/
def corFaultCmHeld : Fld := ⟨corFault, 1, 1⟩
/-- COR.FAULT.SETTINGS_REFUSED [0:0], RS. -/
def corFaultSettingsRefused : Fld := ⟨corFault, 0, 0⟩
/-- COR.CM_HELD (Table 7.8). -/
def corCmHeld : Nat := 0x300010
/-- COR.CM_HELD.CM_HELD [31:0], RC. -/
def corCmHeldCmHeld : Fld := ⟨corCmHeld, 31, 0⟩
/-- COR.NO_NEIGHBOUR (Table 7.8). -/
def corNoNeighbour : Nat := 0x300014
/-- COR.NO_NEIGHBOUR.NO_NEIGHBOUR [31:0], RC. -/
def corNoNeighbourNoNeighbour : Fld := ⟨corNoNeighbour, 31, 0⟩
/-- COR.SAT (Table 7.8). -/
def corSat : Nat := 0x300018
/-- COR.SAT.SAT_COUNT [31:0], RC. -/
def corSatSatCount : Fld := ⟨corSat, 31, 0⟩
/-- COR.MODEL_PARITY (Table 7.8). -/
def corModelParity : Nat := 0x30001c
/-- COR.MODEL_PARITY.PARITY_COUNT [31:0], RC. -/
def corModelParityParityCount : Fld := ⟨corModelParity, 31, 0⟩
/-- COR.BAD_MAPPED (Table 7.8). -/
def corBadMapped : Nat := 0x300020
/-- COR.BAD_MAPPED.FD1 [31:16], RO; 0 after power-on is the model's choice (the table: Loaded; assumption 1). -/
def corBadMappedFd1 : Fld := ⟨corBadMapped, 31, 16⟩
/-- COR.BAD_MAPPED.FD0 [15:0], RO; 0 after power-on is the model's choice (the table: Loaded; assumption 1). -/
def corBadMappedFd0 : Fld := ⟨corBadMapped, 15, 0⟩
/-- COR.FUSED (Table 7.8). -/
def corFused : Nat := 0x300024
/-- COR.FUSED.LINE [31:0], RO. -/
def corFusedLine : Fld := ⟨corFused, 31, 0⟩
/-- VEL.BAND (Table 7.8). -/
def velBand (j : Nat) : Nat := 0x301000 + 0x10 * j
/-- VEL.BAND.VELOCITY [31:16], RO. -/
def velBandVelocity (j : Nat) : Fld := ⟨velBand j, 31, 16⟩
/-- VEL.BAND.CONF [15:8], RO. -/
def velBandConf (j : Nat) : Fld := ⟨velBand j, 15, 8⟩
/-- VEL.BAND.STATE [7:6], RO. -/
def velBandState (j : Nat) : Fld := ⟨velBand j, 7, 6⟩
/-- VEL.BAND.JOINED [5:5], RO. -/
def velBandJoined (j : Nat) : Fld := ⟨velBand j, 5, 5⟩
/-- VEL.BAND_SHIFT (Table 7.8). -/
def velBandShift (j : Nat) : Nat := 0x301004 + 0x10 * j
/-- VEL.BAND_SHIFT.KK [31:16], RO. -/
def velBandShiftKk (j : Nat) : Fld := ⟨velBandShift j, 31, 16⟩
/-- VEL.BAND_SHIFT.HOLD_LINES [6:0], RO. -/
def velBandShiftHoldLines (j : Nat) : Fld := ⟨velBandShift j, 6, 0⟩
/-- VEL.BAND_DEFAULT_COUNT (Table 7.8). -/
def velBandDefaultCount (j : Nat) : Nat := 0x301008 + 0x10 * j
/-- VEL.BAND_DEFAULT_COUNT.DEFAULT_COUNT [31:0], RC. -/
def velBandDefaultCountDefaultCount (j : Nat) : Fld := ⟨velBandDefaultCount j, 31, 0⟩
/-- VEL.BAND_LOWCONF (Table 7.8). -/
def velBandLowconf (j : Nat) : Nat := 0x30100c + 0x10 * j
/-- VEL.BAND_LOWCONF.LOWCONF [31:0], RC. -/
def velBandLowconfLowconf (j : Nat) : Fld := ⟨velBandLowconf j, 31, 0⟩
/-- CAL.CFG0 (Table 8.6). -/
def calCfg0 : Nat := 0x380000
/-- CAL.CFG1 (Table 8.6). -/
def calCfg1 : Nat := 0x380004
/-- CAL.CFG2 (Table 8.6). -/
def calCfg2 : Nat := 0x380008
/-- CAL.CFG3 (Table 8.6). -/
def calCfg3 : Nat := 0x38000c
/-- CAL.STATE (Table 8.6). -/
def calState : Nat := 0x380010
/-- CAL.STATE.RUNNING [27:16], RO. -/
def calStateRunning : Fld := ⟨calState, 27, 16⟩
/-- CAL.STATE.PENDING [15:4], RO. -/
def calStatePending : Fld := ⟨calState, 15, 4⟩
/-- CAL.STATE.DECLARED [3:3], RO. -/
def calStateDeclared : Fld := ⟨calState, 3, 3⟩
/-- CAL.STATE.SAVE_DUE [2:2], RO. -/
def calStateSaveDue : Fld := ⟨calState, 2, 2⟩
/-- CAL.STATE.GAP_OPEN [1:1], RO. -/
def calStateGapOpen : Fld := ⟨calState, 1, 1⟩
/-- CAL.STATE.FEED_GAP [0:0], RO; 0 after power-on is the model's choice (the table: Contact; assumption 1). -/
def calStateFeedGap : Fld := ⟨calState, 0, 0⟩
/-- CAL.REQ_COUNT (Table 8.6). -/
def calReqCount : Nat := 0x380014
/-- CAL.REQ_COUNT.MERGED [31:16], RC. -/
def calReqCountMerged : Fld := ⟨calReqCount, 31, 16⟩
/-- CAL.REQ_COUNT.REFUSED [15:0], RC. -/
def calReqCountRefused : Fld := ⟨calReqCount, 15, 0⟩
/-- CAL.FAULT (Table 8.6). -/
def calFault : Nat := 0x380018
/-- CAL.FAULT.COMPLEMENT [2:2], RS. -/
def calFaultComplement : Fld := ⟨calFault, 2, 2⟩
/-- CAL.FAULT.REQ_REFUSED [1:1], RS. -/
def calFaultReqRefused : Fld := ⟨calFault, 1, 1⟩
/-- CAL.FAULT.SETTINGS_REFUSED [0:0], RS. -/
def calFaultSettingsRefused : Fld := ⟨calFault, 0, 0⟩
/-- CAL.ITEM_RESULT (Table 8.6). -/
def calItemResult (j : Nat) : Nat := 0x381000 + 0x10 * j
/-- CAL.ITEM_RESULT.RUN [31:16], RO. -/
def calItemResultRun (j : Nat) : Fld := ⟨calItemResult j, 31, 16⟩
/-- CAL.ITEM_RESULT.RESULT_N [15:8], RO. -/
def calItemResultResultN (j : Nat) : Fld := ⟨calItemResult j, 15, 8⟩
/-- CAL.ITEM_RESULT.RESULT [7:0], RO. -/
def calItemResultResult (j : Nat) : Fld := ⟨calItemResult j, 7, 0⟩
/-- CAL.ITEM_TIME (Table 8.6). -/
def calItemTime (j : Nat) : Nat := 0x381004 + 0x10 * j
/-- CAL.ITEM_TIME.DONE_MS [31:0], RO. -/
def calItemTimeDoneMs (j : Nat) : Fld := ⟨calItemTime j, 31, 0⟩
/-- CAL.ITEM_COUNT (Table 8.6). -/
def calItemCount (j : Nat) : Nat := 0x381008 + 0x10 * j
/-- CAL.ITEM_COUNT.PASS_COUNT [31:16], RC. -/
def calItemCountPassCount (j : Nat) : Fld := ⟨calItemCount j, 31, 16⟩
/-- CAL.ITEM_COUNT.FAIL_COUNT [15:0], RC. -/
def calItemCountFailCount (j : Nat) : Fld := ⟨calItemCount j, 15, 0⟩
/-- CAL.ITEM_WAIT (Table 8.6). -/
def calItemWait (j : Nat) : Nat := 0x38100c + 0x10 * j
/-- CAL.ITEM_WAIT.WAIT_MS [31:0], RO. -/
def calItemWaitWaitMs (j : Nat) : Fld := ⟨calItemWait j, 31, 0⟩
/-- CAM.PORT_STATE (Table 9.7). -/
def camPortState (j : Nat) : Nat := 0x400000 + 0x100 * j
/-- CAM.PORT_STATE.EN [31:31], RO. -/
def camPortStateEn (j : Nat) : Fld := ⟨camPortState j, 31, 31⟩
/-- CAM.PORT_STATE.MODE [30:30], RO. -/
def camPortStateMode (j : Nat) : Fld := ⟨camPortState j, 30, 30⟩
/-- CAM.PORT_STATE.PACK [29:28], RO. -/
def camPortStatePack (j : Nat) : Fld := ⟨camPortState j, 29, 28⟩
/-- CAM.PORT_STATE.CH_EN [27:24], RO. -/
def camPortStateChEn (j : Nat) : Fld := ⟨camPortState j, 27, 24⟩
/-- CAM.PORT_STATE.FRAME_OPEN [23:23], RO. -/
def camPortStateFrameOpen (j : Nat) : Fld := ⟨camPortState j, 23, 23⟩
/-- CAM.PORT_STATE.LINE_OPEN [22:22], RO. -/
def camPortStateLineOpen (j : Nat) : Fld := ⟨camPortState j, 22, 22⟩
/-- CAM.PORT_STATE.BUF_USED [21:20], RO. -/
def camPortStateBufUsed (j : Nat) : Fld := ⟨camPortState j, 21, 20⟩
/-- CAM.PORT_STATE.PENDING [15:15], RO. -/
def camPortStatePending (j : Nat) : Fld := ⟨camPortState j, 15, 15⟩
/-- CAM.PORT_STATE.LINE_LEN [14:0], RO. -/
def camPortStateLineLen (j : Nat) : Fld := ⟨camPortState j, 14, 0⟩
/-- CAM.CFG0 (Table 9.7). -/
def camCfg0 (j : Nat) : Nat := 0x400004 + 0x100 * j
/-- CAM.CFG1 (Table 9.7). -/
def camCfg1 (j : Nat) : Nat := 0x400008 + 0x100 * j
/-- CAM.CFG2 (Table 9.7). -/
def camCfg2 (j : Nat) : Nat := 0x40000c + 0x100 * j
/-- CAM.CFG3 (Table 9.7). -/
def camCfg3 (j : Nat) : Nat := 0x400010 + 0x100 * j
/-- CAM.CFG4 (Table 9.7). -/
def camCfg4 (j : Nat) : Nat := 0x400014 + 0x100 * j
/-- CAM.LINES (Table 9.7). -/
def camLines (j : Nat) : Nat := 0x400018 + 0x100 * j
/-- CAM.LINES.LINES [31:0], RO. -/
def camLinesLines (j : Nat) : Fld := ⟨camLines j, 31, 0⟩
/-- CAM.SHORT_LONG (Table 9.7). -/
def camShortLong (j : Nat) : Nat := 0x40001c + 0x100 * j
/-- CAM.SHORT_LONG.SHORT [31:16], RC. -/
def camShortLongShort (j : Nat) : Fld := ⟨camShortLong j, 31, 16⟩
/-- CAM.SHORT_LONG.LONG [15:0], RC. -/
def camShortLongLong (j : Nat) : Fld := ⟨camShortLong j, 15, 0⟩
/-- CAM.START (Table 9.7). -/
def camStart (j : Nat) : Nat := 0x400020 + 0x100 * j
/-- CAM.START.FALSE_START [31:16], RC. -/
def camStartFalseStart (j : Nat) : Fld := ⟨camStart j, 31, 16⟩
/-- CAM.START.UNEXPECTED [15:0], RC. -/
def camStartUnexpected (j : Nat) : Fld := ⟨camStart j, 15, 0⟩
/-- CAM.FRAME (Table 9.7). -/
def camFrame (j : Nat) : Nat := 0x400024 + 0x100 * j
/-- CAM.FRAME.SHORT_FRAME [31:16], RC. -/
def camFrameShortFrame (j : Nat) : Fld := ⟨camFrame j, 31, 16⟩
/-- CAM.FRAME.LONG_FRAME [15:0], RC. -/
def camFrameLongFrame (j : Nat) : Fld := ⟨camFrame j, 15, 0⟩
/-- CAM.LATE (Table 9.7). -/
def camLate (j : Nat) : Nat := 0x400028 + 0x100 * j
/-- CAM.LATE.SYNTH [31:16], RC. -/
def camLateSynth (j : Nat) : Fld := ⟨camLate j, 31, 16⟩
/-- CAM.LATE.TRIG_SKIPPED [15:0], RC. -/
def camLateTrigSkipped (j : Nat) : Fld := ⟨camLate j, 15, 0⟩
/-- CAM.DROPPED (Table 9.7). -/
def camDropped (j : Nat) : Nat := 0x40002c + 0x100 * j
/-- CAM.DROPPED.DROPPED [31:0], RC. -/
def camDroppedDropped (j : Nat) : Fld := ⟨camDropped j, 31, 0⟩
/-- CAM.FAULT (Table 9.7). -/
def camFault (j : Nat) : Nat := 0x400030 + 0x100 * j
/-- CAM.FAULT.TIE_MISMATCH [4:4], RS. -/
def camFaultTieMismatch (j : Nat) : Fld := ⟨camFault j, 4, 4⟩
/-- CAM.FAULT.DEFECT_REFUSED [3:3], RS. -/
def camFaultDefectRefused (j : Nat) : Fld := ⟨camFault j, 3, 3⟩
/-- CAM.FAULT.PIPE_REFUSED [2:2], RS. -/
def camFaultPipeRefused (j : Nat) : Fld := ⟨camFault j, 2, 2⟩
/-- CAM.FAULT.SETTINGS_REFUSED [1:1], RS. -/
def camFaultSettingsRefused (j : Nat) : Fld := ⟨camFault j, 1, 1⟩
/-- CAM.FAULT.DROP [0:0], RS. -/
def camFaultDrop (j : Nat) : Fld := ⟨camFault j, 0, 0⟩
/-- STC.CLUSTER (Table 10.6). -/
def stcCluster : Nat := 0x500000
/-- STC.CLUSTER.OK [25:0], RO; 0x3ffffff after power-on is the model's choice (the table: Self-test; assumption 1). -/
def stcClusterOk : Fld := ⟨stcCluster, 25, 0⟩
/-- STC.LINK (Table 10.6). -/
def stcLink : Nat := 0x500004
/-- STC.LINK.REMAPPED [31:16], RO. -/
def stcLinkRemapped : Fld := ⟨stcLink, 31, 16⟩
/-- STC.LINK.UP [15:0], RO. -/
def stcLinkUp : Fld := ⟨stcLink, 15, 0⟩
/-- STC.LINK_FATAL (Table 10.6). -/
def stcLinkFatal : Nat := 0x500008
/-- STC.LINK_FATAL.FATAL [15:0], RS. -/
def stcLinkFatalFatal : Fld := ⟨stcLinkFatal, 15, 0⟩
/-- STC.LINK_REPLAY (Table 10.6). -/
def stcLinkReplay (j : Nat) : Nat := 0x500040 + 0x4 * j
/-- STC.LINK_REPLAY.REPLAYS [31:0], RC. -/
def stcLinkReplayReplays (j : Nat) : Fld := ⟨stcLinkReplay j, 31, 0⟩
/-- STC.PARITY (Table 10.6). -/
def stcParity : Nat := 0x500080
/-- STC.PARITY.TAINT_PARITY [31:16], RC. -/
def stcParityTaintParity : Fld := ⟨stcParity, 31, 16⟩
/-- STC.PARITY.STORE_PARITY [15:0], RC. -/
def stcParityStoreParity : Fld := ⟨stcParity, 15, 0⟩
/-- STC.DDR (Table 10.6). -/
def stcDdr : Nat := 0x500090
/-- STC.DDR.FATAL [11:8], RO. -/
def stcDdrFatal : Fld := ⟨stcDdr, 11, 8⟩
/-- STC.DDR.REFRESH_2X [7:4], RO. -/
def stcDdrRefresh2x : Fld := ⟨stcDdr, 7, 4⟩
/-- STC.DDR_SIZE (Table 10.6). -/
def stcDdrSize : Nat := 0x500094
/-- STC.DDR_SIZE.SIZE [7:0], RO; 0 after power-on is the model's choice (the table: From SPD; assumption 1). -/
def stcDdrSizeSize : Fld := ⟨stcDdrSize, 7, 0⟩
/-- STC.DDR_COUNT (Table 10.6). -/
def stcDdrCount : Nat := 0x500098
/-- STC.DDR_COUNT.REREAD [31:16], RC. -/
def stcDdrCountReread : Fld := ⟨stcDdrCount, 31, 16⟩
/-- STC.DDR_COUNT.PAR_FAIL [15:0], RC. -/
def stcDdrCountParFail : Fld := ⟨stcDdrCount, 15, 0⟩
/-- STC.DDR_PAR_ADDR (Table 10.6). -/
def stcDdrParAddr : Nat := 0x50009c
/-- STC.DDR_PAR_ADDR.CHANNEL [31:30], RO. -/
def stcDdrParAddrChannel : Fld := ⟨stcDdrParAddr, 31, 30⟩
/-- STC.DDR_PAR_ADDR.ADDR [29:0], RO. -/
def stcDdrParAddrAddr : Fld := ⟨stcDdrParAddr, 29, 0⟩
/-- STC.CA_RETRY (Table 10.6). -/
def stcCaRetry : Nat := 0x5000a0
/-- STC.CA_RETRY.CA_RETRY [31:0], RC. -/
def stcCaRetryCaRetry : Fld := ⟨stcCaRetry, 31, 0⟩
/-- STC.FUSED (Table 10.6). -/
def stcFused : Nat := 0x5000a4
/-- STC.FUSED.STALE [31:16], RC. -/
def stcFusedStale : Fld := ⟨stcFused, 31, 16⟩
/-- STC.FUSED.OVERRUN [15:0], RC. -/
def stcFusedOverrun : Fld := ⟨stcFused, 15, 0⟩
/-- STC.DEADLINE_DEFAULT (Table 10.6). -/
def stcDeadlineDefault : Nat := 0x5000a8
/-- STC.DEADLINE_DEFAULT.DEADLINE_DEFAULT [31:0], RC. -/
def stcDeadlineDefaultDeadlineDefault : Fld := ⟨stcDeadlineDefault, 31, 0⟩
/-- STC.LATE_DECISION (Table 10.6). -/
def stcLateDecision : Nat := 0x5000ac
/-- STC.LATE_DECISION.LATE_DECISION [31:0], RC. -/
def stcLateDecisionLateDecision : Fld := ⟨stcLateDecision, 31, 0⟩
/-- STC.ALONG_OK0 (Table 10.6). -/
def stcAlongOk0 : Nat := 0x5000b0
/-- STC.ALONG_OK0.OK [31:0], RO. -/
def stcAlongOk0Ok : Fld := ⟨stcAlongOk0, 31, 0⟩
/-- STC.ALONG_OK1 (Table 10.6). -/
def stcAlongOk1 : Nat := 0x5000b4
/-- STC.ALONG_OK1.OK [31:0], RO. -/
def stcAlongOk1Ok : Fld := ⟨stcAlongOk1, 31, 0⟩
/-- STC.ALONG_OK2 (Table 10.6). -/
def stcAlongOk2 : Nat := 0x5000b8
/-- STC.ALONG_OK2.OK [31:0], RO. -/
def stcAlongOk2Ok : Fld := ⟨stcAlongOk2, 31, 0⟩
/-- STC.FAULT (Table 10.6). -/
def stcFault : Nat := 0x5000c0
/-- STC.FAULT.CLUSTER_FAILED [5:5], RS. -/
def stcFaultClusterFailed : Fld := ⟨stcFault, 5, 5⟩
/-- STC.FAULT.ENGINE_MISSING [4:4], RS. -/
def stcFaultEngineMissing : Fld := ⟨stcFault, 4, 4⟩
/-- STC.FAULT.STORE_PARITY [3:3], RS. -/
def stcFaultStoreParity : Fld := ⟨stcFault, 3, 3⟩
/-- STC.FAULT.DDR_CHANNEL_FATAL [2:2], RS. -/
def stcFaultDdrChannelFatal : Fld := ⟨stcFault, 2, 2⟩
/-- STC.FAULT.DDR_PARITY [1:1], RS. -/
def stcFaultDdrParity : Fld := ⟨stcFault, 1, 1⟩
/-- STC.FAULT.LINK_FATAL [0:0], RS. -/
def stcFaultLinkFatal : Fld := ⟨stcFault, 0, 0⟩
/-- STC.BLIND_LINES (Table 10.6). -/
def stcBlindLines : Nat := 0x5000c4
/-- STC.BLIND_LINES.BLIND_LINES [31:0], RC. -/
def stcBlindLinesBlindLines : Fld := ⟨stcBlindLines, 31, 0⟩
/-- ISA.LOAD (Table 11.7). -/
def isaLoad : Nat := 0x500700
/-- ISA.LOAD.REFUSE [31:24], RO. -/
def isaLoadRefuse : Fld := ⟨isaLoad, 31, 24⟩
/-- ISA.LOAD.VERSION [15:0], RO; 0 after power-on is the model's choice (the table: From image; assumption 1). -/
def isaLoadVersion : Fld := ⟨isaLoad, 15, 0⟩
/-- ISA.BUDGET (Table 11.7). -/
def isaBudget : Nat := 0x500704
/-- ISA.BUDGET.DECLARED [19:0], RO; 0 after power-on is the model's choice (the table: From image; assumption 1). -/
def isaBudgetDeclared : Fld := ⟨isaBudget, 19, 0⟩
/-- ISA.BUDGET_MAX (Table 11.7). -/
def isaBudgetMax : Nat := 0x500708
/-- ISA.BUDGET_MAX.MAX [31:0], RO. -/
def isaBudgetMaxMax : Fld := ⟨isaBudgetMax, 31, 0⟩
/-- ISA.BUDGET_OVERRUN (Table 11.7). -/
def isaBudgetOverrun : Nat := 0x50070c
/-- ISA.BUDGET_OVERRUN.OVERRUN [31:0], RC. -/
def isaBudgetOverrunOverrun : Fld := ⟨isaBudgetOverrun, 31, 0⟩
/-- ISA.EVENT_LOST (Table 11.7). -/
def isaEventLost : Nat := 0x500710
/-- ISA.EVENT_LOST.LOST [31:0], RC. -/
def isaEventLostLost : Fld := ⟨isaEventLost, 31, 0⟩
/-- ISA.FAULT (Table 11.7). -/
def isaFault : Nat := 0x500714
/-- ISA.FAULT.BUDGET_OVERRUN [2:2], RS. -/
def isaFaultBudgetOverrun : Fld := ⟨isaFault, 2, 2⟩
/-- ISA.FAULT.EXCEPTION [1:1], RS. -/
def isaFaultException : Fld := ⟨isaFault, 1, 1⟩
/-- ISA.FAULT.LOAD_REFUSED [0:0], RS. -/
def isaFaultLoadRefused : Fld := ⟨isaFault, 0, 0⟩
/-- ISA.U_STATE (Table 11.7). -/
def isaUState (j : Nat) : Nat := 0x500800 + 0x10 * j
/-- ISA.U_STATE.STATE [31:30], RO. -/
def isaUStateState (j : Nat) : Fld := ⟨isaUState j, 31, 30⟩
/-- ISA.U_STATE.LAST_EXC [23:16], RO. -/
def isaUStateLastExc (j : Nat) : Fld := ⟨isaUState j, 23, 16⟩
/-- ISA.U_STATE.BUSY [8:0], RO. -/
def isaUStateBusy (j : Nat) : Fld := ⟨isaUState j, 8, 0⟩
/-- ISA.U_EXC_PC (Table 11.7). -/
def isaUExcPc (j : Nat) : Nat := 0x500804 + 0x10 * j
/-- ISA.U_EXC_PC.PC [31:0], RO. -/
def isaUExcPcPc (j : Nat) : Fld := ⟨isaUExcPc j, 31, 0⟩
/-- ISA.U_COUNT (Table 11.7). -/
def isaUCount (j : Nat) : Nat := 0x500808 + 0x10 * j
/-- ISA.U_COUNT.EXC_COUNT [31:16], RC. -/
def isaUCountExcCount (j : Nat) : Fld := ⟨isaUCount j, 31, 16⟩
/-- ISA.U_COUNT.TAG_ERR [15:0], RC. -/
def isaUCountTagErr (j : Nat) : Fld := ⟨isaUCount j, 15, 0⟩
/-- EJT.DIE_STATE (Table 13.7). -/
def ejtDieState (i : Nat) : Nat := 0x600000 + 0x8000 * i
/-- EJT.DIE_STATE.IN_PEAK [20:16], RO. -/
def ejtDieStateInPeak (i : Nat) : Fld := ⟨ejtDieState i, 20, 16⟩
/-- EJT.DIE_STATE.HS_ON [7:0], RO. -/
def ejtDieStateHsOn (i : Nat) : Fld := ⟨ejtDieState i, 7, 0⟩
/-- EJT.DIE_CFG0 (Table 13.7). -/
def ejtDieCfg0 (i : Nat) : Nat := 0x600004 + 0x8000 * i
/-- EJT.DIE_CFG1 (Table 13.7). -/
def ejtDieCfg1 (i : Nat) : Nat := 0x600008 + 0x8000 * i
/-- EJT.DROP_WINDOW (Table 13.7). -/
def ejtDropWindow (i : Nat) : Nat := 0x600010 + 0x8000 * i
/-- EJT.DROP_WINDOW.DROP_WINDOW [31:0], RC. -/
def ejtDropWindowDropWindow (i : Nat) : Fld := ⟨ejtDropWindow i, 31, 0⟩
/-- EJT.DROP_PEAK (Table 13.7). -/
def ejtDropPeak (i : Nat) : Nat := 0x600014 + 0x8000 * i
/-- EJT.DROP_PEAK.DROP_PEAK [31:0], RC. -/
def ejtDropPeakDropPeak (i : Nat) : Fld := ⟨ejtDropPeak i, 31, 0⟩
/-- EJT.DROP_QUEUE (Table 13.7). -/
def ejtDropQueue (i : Nat) : Nat := 0x600018 + 0x8000 * i
/-- EJT.DROP_QUEUE.DROP_QUEUE [31:0], RC. -/
def ejtDropQueueDropQueue (i : Nat) : Fld := ⟨ejtDropQueue i, 31, 0⟩
/-- EJT.DROP_SUPPLY (Table 13.7). -/
def ejtDropSupply (i : Nat) : Nat := 0x60001c + 0x8000 * i
/-- EJT.DROP_SUPPLY.DROP_SUPPLY [31:0], RC. -/
def ejtDropSupplyDropSupply (i : Nat) : Fld := ⟨ejtDropSupply i, 31, 0⟩
/-- EJT.DROP_LINK (Table 13.7). -/
def ejtDropLink (i : Nat) : Nat := 0x600020 + 0x8000 * i
/-- EJT.DROP_LINK.DROP_LINK [31:0], RC. -/
def ejtDropLinkDropLink (i : Nat) : Fld := ⟨ejtDropLink i, 31, 0⟩
/-- EJT.QUEUE_FLUSH (Table 13.7). -/
def ejtQueueFlush (i : Nat) : Nat := 0x600024 + 0x8000 * i
/-- EJT.QUEUE_FLUSH.QUEUE_FLUSH [31:0], RC. -/
def ejtQueueFlushQueueFlush (i : Nat) : Fld := ⟨ejtQueueFlush i, 31, 0⟩
/-- EJT.REFUSED (Table 13.7). -/
def ejtRefused (i : Nat) : Nat := 0x600028 + 0x8000 * i
/-- EJT.REFUSED.CMD [31:16], RC. -/
def ejtRefusedCmd (i : Nat) : Fld := ⟨ejtRefused i, 31, 16⟩
/-- EJT.REFUSED.WARM [15:0], RC. -/
def ejtRefusedWarm (i : Nat) : Fld := ⟨ejtRefused i, 15, 0⟩
/-- EJT.COMPLEMENT (Table 13.7). -/
def ejtComplement (i : Nat) : Nat := 0x60002c + 0x8000 * i
/-- EJT.COMPLEMENT.COMPLEMENT [31:0], RC. -/
def ejtComplementComplement (i : Nat) : Fld := ⟨ejtComplement i, 31, 0⟩
/-- EJT.DEFAULT (Table 13.7). -/
def ejtDefault (i : Nat) : Nat := 0x600030 + 0x8000 * i
/-- EJT.DEFAULT.DEFAULT_SHOTS [31:16], RC. -/
def ejtDefaultDefaultShots (i : Nat) : Fld := ⟨ejtDefault i, 31, 16⟩
/-- EJT.DEFAULT.DISCARDED [15:0], RC. -/
def ejtDefaultDiscarded (i : Nat) : Fld := ⟨ejtDefault i, 15, 0⟩
/-- EJT.FAULT (Table 13.7). -/
def ejtFault (i : Nat) : Nat := 0x600034 + 0x8000 * i
/-- EJT.FAULT.MAXON [3:3], RS. -/
def ejtFaultMaxon (i : Nat) : Fld := ⟨ejtFault i, 3, 3⟩
/-- EJT.FAULT.VALVE [2:2], RS. -/
def ejtFaultValve (i : Nat) : Fld := ⟨ejtFault i, 2, 2⟩
/-- EJT.FAULT.COMPLEMENT [1:1], RS. -/
def ejtFaultComplement (i : Nat) : Fld := ⟨ejtFault i, 1, 1⟩
/-- EJT.FAULT.SETTINGS_REFUSED [0:0], RS. -/
def ejtFaultSettingsRefused (i : Nat) : Fld := ⟨ejtFault i, 0, 0⟩
/-- EJT.PROFILE_W0 (Table 13.7). -/
def ejtProfileW0 (i j : Nat) : Nat := 0x600100 + 0x8000 * i + 0x10 * j
/-- EJT.PROFILE_W1 (Table 13.7). -/
def ejtProfileW1 (i j : Nat) : Nat := 0x600104 + 0x8000 * i + 0x10 * j
/-- EJT.PROFILE_W2 (Table 13.7). -/
def ejtProfileW2 (i j : Nat) : Nat := 0x600108 + 0x8000 * i + 0x10 * j
/-- EJT.PROFILE_STATE (Table 13.7). -/
def ejtProfileState (i j : Nat) : Nat := 0x60010c + 0x8000 * i + 0x10 * j
/-- EJT.PROFILE_STATE.LOADED [0:0], RO. -/
def ejtProfileStateLoaded (i j : Nat) : Fld := ⟨ejtProfileState i j, 0, 0⟩
/-- EJT.V_STATE (Table 13.7). -/
def ejtVState (i j : Nat) : Nat := 0x601000 + 0x8000 * i + 0x20 * j
/-- EJT.V_STATE.ENABLED [31:31], RO. -/
def ejtVStateEnabled (i j : Nat) : Fld := ⟨ejtVState i j, 31, 31⟩
/-- EJT.V_STATE.FAULT [30:28], RO. -/
def ejtVStateFault (i j : Nat) : Fld := ⟨ejtVState i j, 30, 28⟩
/-- EJT.V_STATE.COIL_BAND [27:26], RO. -/
def ejtVStateCoilBand (i j : Nat) : Fld := ⟨ejtVState i j, 27, 26⟩
/-- EJT.V_STATE.AGEING [25:25], RO. -/
def ejtVStateAgeing (i j : Nat) : Fld := ⟨ejtVState i j, 25, 25⟩
/-- EJT.V_STATE.RUNNING [24:24], RO. -/
def ejtVStateRunning (i j : Nat) : Fld := ⟨ejtVState i j, 24, 24⟩
/-- EJT.V_STATE.QUEUED [23:20], RO. -/
def ejtVStateQueued (i j : Nat) : Fld := ⟨ejtVState i j, 23, 20⟩
/-- EJT.V_STATE.LAST_PROFILE [19:16], RO. -/
def ejtVStateLastProfile (i j : Nat) : Fld := ⟨ejtVState i j, 19, 16⟩
/-- EJT.V_STATE.LAST_RESULT [15:14], RO. -/
def ejtVStateLastResult (i j : Nat) : Fld := ⟨ejtVState i j, 15, 14⟩
/-- EJT.V_ADVANCE (Table 13.7). -/
def ejtVAdvance (i j : Nat) : Nat := 0x601004 + 0x8000 * i + 0x20 * j
/-- EJT.V_ADVANCE.DIP_MEAN [31:16], RO; 0 after power-on is the model's choice (the table: Record store; assumption 1). -/
def ejtVAdvanceDipMean (i j : Nat) : Fld := ⟨ejtVAdvance i j, 31, 16⟩
/-- EJT.V_ADVANCE.ADVANCE [15:0], RO; 0 after power-on is the model's choice (the table: Record store; assumption 1). -/
def ejtVAdvanceAdvance (i j : Nat) : Fld := ⟨ejtVAdvance i j, 15, 0⟩
/-- EJT.V_DIP (Table 13.7). -/
def ejtVDip (i j : Nat) : Nat := 0x601008 + 0x8000 * i + 0x20 * j
/-- EJT.V_DIP.LAST_DIP [31:16], RO. -/
def ejtVDipLastDip (i j : Nat) : Fld := ⟨ejtVDip i j, 31, 16⟩
/-- EJT.V_DIP.COMM [15:0], RO. -/
def ejtVDipComm (i j : Nat) : Fld := ⟨ejtVDip i j, 15, 0⟩
/-- EJT.V_COIL (Table 13.7). -/
def ejtVCoil (i j : Nat) : Nat := 0x60100c + 0x8000 * i + 0x20 * j
/-- EJT.V_COIL.TEMP [31:16], RO; 0x9c4 after power-on is the model's choice (the table: T_AD; assumption 1). -/
def ejtVCoilTemp (i j : Nat) : Fld := ⟨ejtVCoil i j, 31, 16⟩
/-- EJT.V_COIL.R_MEAS [15:0], RO. -/
def ejtVCoilRMeas (i j : Nat) : Fld := ⟨ejtVCoil i j, 15, 0⟩
/-- EJT.V_CYCLES (Table 13.7). -/
def ejtVCycles (i j : Nat) : Nat := 0x601010 + 0x8000 * i + 0x20 * j
/-- EJT.V_CYCLES.CYCLES [31:0], RO; 0 after power-on is the model's choice (the table: Record store; assumption 1). -/
def ejtVCyclesCycles (i j : Nat) : Fld := ⟨ejtVCycles i j, 31, 0⟩
/-- EJT.V_COUNT (Table 13.7). -/
def ejtVCount (i j : Nat) : Nat := 0x601014 + 0x8000 * i + 0x20 * j
/-- EJT.V_COUNT.NO_MOTION [31:16], RC. -/
def ejtVCountNoMotion (i j : Nat) : Fld := ⟨ejtVCount i j, 31, 16⟩
/-- EJT.V_COUNT.MAXON [15:0], RC. -/
def ejtVCountMaxon (i j : Nat) : Fld := ⟨ejtVCount i j, 15, 0⟩
/-- EJT.V_CLAMP (Table 13.7). -/
def ejtVClamp (i j : Nat) : Nat := 0x601018 + 0x8000 * i + 0x20 * j
/-- EJT.V_CLAMP.CLAMP_OVER [31:16], RC. -/
def ejtVClampClampOver (i j : Nat) : Fld := ⟨ejtVClamp i j, 31, 16⟩
/-- EJT.V_CLAMP.LAST_ENERGY [15:0], RO. -/
def ejtVClampLastEnergy (i j : Nat) : Fld := ⟨ejtVClamp i j, 15, 0⟩
/-- LUM.DIE_STATE (Table 14.4). -/
def lumDieState (i : Nat) : Nat := 0x700000 + 0x8000 * i
/-- LUM.DIE_STATE.MATRIX [31:31], RO. -/
def lumDieStateMatrix (i : Nat) : Fld := ⟨lumDieState i, 31, 31⟩
/-- LUM.DIE_STATE.LINES [30:29], RO. -/
def lumDieStateLines (i : Nat) : Fld := ⟨lumDieState i, 30, 29⟩
/-- LUM.DIE_STATE.BITS [28:25], RO. -/
def lumDieStateBits (i : Nat) : Fld := ⟨lumDieState i, 28, 25⟩
/-- LUM.DIE_STATE.LOCK [24:24], RO. -/
def lumDieStateLock (i : Nat) : Fld := ⟨lumDieState i, 24, 24⟩
/-- LUM.DIE_STATE.STAGED [23:23], RO. -/
def lumDieStateStaged (i : Nat) : Fld := ⟨lumDieState i, 23, 23⟩
/-- LUM.DIE_STATE.LAST_ID [15:0], RO. -/
def lumDieStateLastId (i : Nat) : Fld := ⟨lumDieState i, 15, 0⟩
/-- LUM.DIE_CFG0 (Table 14.4). -/
def lumDieCfg0 (i : Nat) : Nat := 0x700004 + 0x8000 * i
/-- LUM.DIE_CFG1 (Table 14.4). -/
def lumDieCfg1 (i : Nat) : Nat := 0x700008 + 0x8000 * i
/-- LUM.LATCH_TIME_LO (Table 14.4). -/
def lumLatchTimeLo (i : Nat) : Nat := 0x70000c + 0x8000 * i
/-- LUM.LATCH_TIME_LO.TIME [31:0], RO. -/
def lumLatchTimeLoTime (i : Nat) : Fld := ⟨lumLatchTimeLo i, 31, 0⟩
/-- LUM.LATCH_TIME_HI (Table 14.4). -/
def lumLatchTimeHi (i : Nat) : Nat := 0x700010 + 0x8000 * i
/-- LUM.LATCH_TIME_HI.TIME [31:0], RO. -/
def lumLatchTimeHiTime (i : Nat) : Fld := ⟨lumLatchTimeHi i, 31, 0⟩
/-- LUM.LATCH_COUNT (Table 14.4). -/
def lumLatchCount (i : Nat) : Nat := 0x700014 + 0x8000 * i
/-- LUM.LATCH_COUNT.LATE [31:16], RC. -/
def lumLatchCountLate (i : Nat) : Fld := ⟨lumLatchCount i, 31, 16⟩
/-- LUM.LATCH_COUNT.SUPERSEDED [15:0], RC. -/
def lumLatchCountSuperseded (i : Nat) : Fld := ⟨lumLatchCount i, 15, 0⟩
/-- LUM.COMPLEMENT (Table 14.4). -/
def lumComplement (i : Nat) : Nat := 0x700018 + 0x8000 * i
/-- LUM.COMPLEMENT.COMPLEMENT [31:0], RC. -/
def lumComplementComplement (i : Nat) : Fld := ⟨lumComplement i, 31, 0⟩
/-- LUM.MATRIX_CUT (Table 14.4). -/
def lumMatrixCut (i : Nat) : Nat := 0x70001c + 0x8000 * i
/-- LUM.MATRIX_CUT.MATRIX_CUT [31:0], RC. -/
def lumMatrixCutMatrixCut (i : Nat) : Fld := ⟨lumMatrixCut i, 31, 0⟩
/-- LUM.FAULT (Table 14.4). -/
def lumFault (i : Nat) : Nat := 0x700020 + 0x8000 * i
/-- LUM.FAULT.STRING [3:3], RS. -/
def lumFaultString (i : Nat) : Fld := ⟨lumFault i, 3, 3⟩
/-- LUM.FAULT.COMPLEMENT [2:2], RS. -/
def lumFaultComplement (i : Nat) : Fld := ⟨lumFault i, 2, 2⟩
/-- LUM.FAULT.LATCH_REFUSED [1:1], RS. -/
def lumFaultLatchRefused (i : Nat) : Fld := ⟨lumFault i, 1, 1⟩
/-- LUM.FAULT.SETTINGS_REFUSED [0:0], RS. -/
def lumFaultSettingsRefused (i : Nat) : Fld := ⟨lumFault i, 0, 0⟩
/-- LUM.S_STATE (Table 14.4). -/
def lumSState (i j : Nat) : Nat := 0x700100 + 0x8000 * i + 0x40 * j
/-- LUM.S_STATE.ENABLED [31:31], RO. -/
def lumSStateEnabled (i j : Nat) : Fld := ⟨lumSState i j, 31, 31⟩
/-- LUM.S_STATE.RUNNING [30:30], RO. -/
def lumSStateRunning (i j : Nat) : Fld := ⟨lumSState i j, 30, 30⟩
/-- LUM.S_STATE.FAULT [29:27], RO. -/
def lumSStateFault (i j : Nat) : Fld := ⟨lumSState i j, 29, 27⟩
/-- LUM.S_STATE.HEADROOM [26:26], RO. -/
def lumSStateHeadroom (i j : Nat) : Fld := ⟨lumSState i j, 26, 26⟩
/-- LUM.S_STATE.LOOP_LIMIT [25:25], RO. -/
def lumSStateLoopLimit (i j : Nat) : Fld := ⟨lumSState i j, 25, 25⟩
/-- LUM.S_STATE.NEIGHBOUR_UNTESTED [24:24], RO. -/
def lumSStateNeighbourUntested (i j : Nat) : Fld := ⟨lumSState i j, 24, 24⟩
/-- LUM.S_STATE.I_EFF [15:0], RO. -/
def lumSStateIEff (i j : Nat) : Fld := ⟨lumSState i j, 15, 0⟩
/-- LUM.S_SET (Table 14.4). -/
def lumSSet (i j : Nat) : Nat := 0x700104 + 0x8000 * i + 0x40 * j
/-- LUM.S_SET.I_SET [31:16], RO. -/
def lumSSetISet (i j : Nat) : Fld := ⟨lumSSet i j, 31, 16⟩
/-- LUM.S_SET.DUTY [15:0], RO. -/
def lumSSetDuty (i j : Nat) : Fld := ⟨lumSSet i j, 15, 0⟩
/-- LUM.S_TRIM (Table 14.4). -/
def lumSTrim (i j : Nat) : Nat := 0x700108 + 0x8000 * i + 0x40 * j
/-- LUM.S_TRIM.TRIM [31:16], RO. -/
def lumSTrimTrim (i j : Nat) : Fld := ⟨lumSTrim i j, 31, 16⟩
/-- LUM.S_TRIM.DERATE [15:0], RO. -/
def lumSTrimDerate (i j : Nat) : Fld := ⟨lumSTrim i j, 15, 0⟩
/-- LUM.S_TEMP (Table 14.4). -/
def lumSTemp (i j : Nat) : Nat := 0x70010c + 0x8000 * i + 0x40 * j
/-- LUM.S_TEMP.TEMP [31:16], RO. -/
def lumSTempTemp (i j : Nat) : Fld := ⟨lumSTemp i j, 31, 16⟩
/-- LUM.S_TEMP.SENSOR [15:0], RO. -/
def lumSTempSensor (i j : Nat) : Fld := ⟨lumSTemp i j, 15, 0⟩
/-- LUM.S_CFG0 (Table 14.4). -/
def lumSCfg0 (i j : Nat) : Nat := 0x700110 + 0x8000 * i + 0x40 * j
/-- LUM.S_CFG1 (Table 14.4). -/
def lumSCfg1 (i j : Nat) : Nat := 0x700114 + 0x8000 * i + 0x40 * j
/-- LUM.S_CFG2 (Table 14.4). -/
def lumSCfg2 (i j : Nat) : Nat := 0x700118 + 0x8000 * i + 0x40 * j
/-- LUM.S_CFG3 (Table 14.4). -/
def lumSCfg3 (i j : Nat) : Nat := 0x70011c + 0x8000 * i + 0x40 * j
/-- LUM.S_LAMP_STATE (Table 14.4). -/
def lumSLampState (i j : Nat) : Nat := 0x700120 + 0x8000 * i + 0x40 * j
/-- LUM.S_LAMP_STATE.LAMP_0 [2:0], RO. -/
def lumSLampStateLamp0 (i j : Nat) : Fld := ⟨lumSLampState i j, 2, 0⟩
/-- LUM.S_LAMP_STATE.LAMP_1 [5:3], RO. -/
def lumSLampStateLamp1 (i j : Nat) : Fld := ⟨lumSLampState i j, 5, 3⟩
/-- LUM.S_LAMP_STATE.LAMP_2 [8:6], RO. -/
def lumSLampStateLamp2 (i j : Nat) : Fld := ⟨lumSLampState i j, 8, 6⟩
/-- LUM.S_LAMP_STATE.LAMP_3 [11:9], RO. -/
def lumSLampStateLamp3 (i j : Nat) : Fld := ⟨lumSLampState i j, 11, 9⟩
/-- LUM.S_LAMP_STATE.LAMP_4 [14:12], RO. -/
def lumSLampStateLamp4 (i j : Nat) : Fld := ⟨lumSLampState i j, 14, 12⟩
/-- LUM.S_LAMP_STATE.LAMP_5 [17:15], RO. -/
def lumSLampStateLamp5 (i j : Nat) : Fld := ⟨lumSLampState i j, 17, 15⟩
/-- LUM.S_LAMP_STATE.LAMP_6 [20:18], RO. -/
def lumSLampStateLamp6 (i j : Nat) : Fld := ⟨lumSLampState i j, 20, 18⟩
/-- LUM.S_LAMP_STATE.LAMP_7 [23:21], RO. -/
def lumSLampStateLamp7 (i j : Nat) : Fld := ⟨lumSLampState i j, 23, 21⟩
/-- LUM.S_LAMP_STATE.LAMP_8 [26:24], RO. -/
def lumSLampStateLamp8 (i j : Nat) : Fld := ⟨lumSLampState i j, 26, 24⟩
/-- LUM.S_LAMP_STATE.LAMP_9 [29:27], RO. -/
def lumSLampStateLamp9 (i j : Nat) : Fld := ⟨lumSLampState i j, 29, 27⟩
/-- LUM.S_LAMP_DUTY0 (Table 14.4). -/
def lumSLampDuty0 (i j : Nat) : Nat := 0x700124 + 0x8000 * i + 0x40 * j
/-- LUM.S_LAMP_DUTY0.D_HI [31:16], RO. -/
def lumSLampDuty0DHi (i j : Nat) : Fld := ⟨lumSLampDuty0 i j, 31, 16⟩
/-- LUM.S_LAMP_DUTY0.D_LO [15:0], RO. -/
def lumSLampDuty0DLo (i j : Nat) : Fld := ⟨lumSLampDuty0 i j, 15, 0⟩
/-- LUM.S_LAMP_DUTY1 (Table 14.4). -/
def lumSLampDuty1 (i j : Nat) : Nat := 0x700128 + 0x8000 * i + 0x40 * j
/-- LUM.S_LAMP_DUTY1.D_HI [31:16], RO. -/
def lumSLampDuty1DHi (i j : Nat) : Fld := ⟨lumSLampDuty1 i j, 31, 16⟩
/-- LUM.S_LAMP_DUTY1.D_LO [15:0], RO. -/
def lumSLampDuty1DLo (i j : Nat) : Fld := ⟨lumSLampDuty1 i j, 15, 0⟩
/-- LUM.S_LAMP_DUTY2 (Table 14.4). -/
def lumSLampDuty2 (i j : Nat) : Nat := 0x70012c + 0x8000 * i + 0x40 * j
/-- LUM.S_LAMP_DUTY2.D_HI [31:16], RO. -/
def lumSLampDuty2DHi (i j : Nat) : Fld := ⟨lumSLampDuty2 i j, 31, 16⟩
/-- LUM.S_LAMP_DUTY2.D_LO [15:0], RO. -/
def lumSLampDuty2DLo (i j : Nat) : Fld := ⟨lumSLampDuty2 i j, 15, 0⟩
/-- LUM.S_LAMP_DUTY3 (Table 14.4). -/
def lumSLampDuty3 (i j : Nat) : Nat := 0x700130 + 0x8000 * i + 0x40 * j
/-- LUM.S_LAMP_DUTY3.D_HI [31:16], RO. -/
def lumSLampDuty3DHi (i j : Nat) : Fld := ⟨lumSLampDuty3 i j, 31, 16⟩
/-- LUM.S_LAMP_DUTY3.D_LO [15:0], RO. -/
def lumSLampDuty3DLo (i j : Nat) : Fld := ⟨lumSLampDuty3 i j, 15, 0⟩
/-- LUM.S_LAMP_DUTY4 (Table 14.4). -/
def lumSLampDuty4 (i j : Nat) : Nat := 0x700134 + 0x8000 * i + 0x40 * j
/-- LUM.S_LAMP_DUTY4.D_HI [31:16], RO. -/
def lumSLampDuty4DHi (i j : Nat) : Fld := ⟨lumSLampDuty4 i j, 31, 16⟩
/-- LUM.S_LAMP_DUTY4.D_LO [15:0], RO. -/
def lumSLampDuty4DLo (i j : Nat) : Fld := ⟨lumSLampDuty4 i j, 15, 0⟩
/-- LUM.S_COUNT (Table 14.4). -/
def lumSCount (i j : Nat) : Nat := 0x700138 + 0x8000 * i + 0x40 * j
/-- LUM.S_COUNT.IND_OC [31:16], RC. -/
def lumSCountIndOc (i j : Nat) : Fld := ⟨lumSCount i j, 31, 16⟩
/-- LUM.S_COUNT.STRETCH [15:0], RC. -/
def lumSCountStretch (i j : Nat) : Fld := ⟨lumSCount i j, 15, 0⟩
/-- LUM.S_HOURS (Table 14.4). -/
def lumSHours (i j : Nat) : Nat := 0x70013c + 0x8000 * i + 0x40 * j
/-- LUM.S_HOURS.HOURS [31:0], RO; 0 after power-on is the model's choice (the table: Record store; assumption 1). -/
def lumSHoursHours (i j : Nat) : Fld := ⟨lumSHours i j, 31, 0⟩
/-- SADC.STATE (Table 15.6). -/
def sadcState : Nat := 0x780000
/-- SADC.STATE.START [31:31], RO. -/
def sadcStateStart : Fld := ⟨sadcState, 31, 31⟩
/-- SADC.STATE.CONTINUOUS [30:30], RO. -/
def sadcStateContinuous : Fld := ⟨sadcState, 30, 30⟩
/-- SADC.STATE.CALIBRATING [29:29], RO. -/
def sadcStateCalibrating : Fld := ⟨sadcState, 29, 29⟩
/-- SADC.STATE.INJ_BUSY [28:28], RO. -/
def sadcStateInjBusy : Fld := ⟨sadcState, 28, 28⟩
/-- SADC.STATE.ENTRY [27:23], RO. -/
def sadcStateEntry : Fld := ⟨sadcState, 27, 23⟩
/-- SADC.STATE.PASS [22:15], RO. -/
def sadcStatePass : Fld := ⟨sadcState, 22, 15⟩
/-- SADC.STATE.UNREAD [6:0], RO. -/
def sadcStateUnread : Fld := ⟨sadcState, 6, 0⟩
/-- SADC.CFG (Table 15.6). -/
def sadcCfg : Nat := 0x780004
/-- SADC.TRIM (Table 15.6). -/
def sadcTrim : Nat := 0x780008
/-- SADC.TRIM.OFFSET [15:8], RO; 0 after power-on is the model's choice (the table: Record store; assumption 1). -/
def sadcTrimOffset : Fld := ⟨sadcTrim, 15, 8⟩
/-- SADC.TRIM.GAIN [7:0], RO; 0 after power-on is the model's choice (the table: Record store; assumption 1). -/
def sadcTrimGain : Fld := ⟨sadcTrim, 7, 0⟩
/-- SADC.FAULT (Table 15.6). -/
def sadcFault : Nat := 0x78000c
/-- SADC.FAULT.OVERRANGE [2:2], RS. -/
def sadcFaultOverrange : Fld := ⟨sadcFault, 2, 2⟩
/-- SADC.FAULT.OVERWRITE [1:1], RS. -/
def sadcFaultOverwrite : Fld := ⟨sadcFault, 1, 1⟩
/-- SADC.FAULT.SETTINGS_REFUSED [0:0], RS. -/
def sadcFaultSettingsRefused : Fld := ⟨sadcFault, 0, 0⟩
/-- SADC.DROP0 (Table 15.6). -/
def sadcDrop0 : Nat := 0x780010
/-- SADC.DROP0.THM [31:16], RC. -/
def sadcDrop0Thm : Fld := ⟨sadcDrop0, 31, 16⟩
/-- SADC.DROP0.LUM [15:0], RC. -/
def sadcDrop0Lum : Fld := ⟨sadcDrop0, 15, 0⟩
/-- SADC.DROP1 (Table 15.6). -/
def sadcDrop1 : Nat := 0x780014
/-- SADC.DROP1.CAL [31:16], RC. -/
def sadcDrop1Cal : Fld := ⟨sadcDrop1, 31, 16⟩
/-- SADC.DROP1.PWR [15:0], RC. -/
def sadcDrop1Pwr : Fld := ⟨sadcDrop1, 15, 0⟩
/-- SADC.DROP2 (Table 15.6). -/
def sadcDrop2 : Nat := 0x780018
/-- SADC.DROP2.EJT [15:0], RC. -/
def sadcDrop2Ejt : Fld := ⟨sadcDrop2, 15, 0⟩
/-- SADC.OVERWRITE (Table 15.6). -/
def sadcOverwrite : Nat := 0x78001c
/-- SADC.OVERWRITE.OVERWRITE [31:0], RC. -/
def sadcOverwriteOverwrite : Fld := ⟨sadcOverwrite, 31, 0⟩
/-- SADC.OVR_COUNT (Table 15.6). -/
def sadcOvrCount : Nat := 0x780020
/-- SADC.OVR_COUNT.OVR_COUNT [31:0], RC. -/
def sadcOvrCountOvrCount : Fld := ⟨sadcOvrCount, 31, 0⟩
/-- SADC.HURDLE (Table 15.6). -/
def sadcHurdle : Nat := 0x780024
/-- SADC.HURDLE.ACTIVE [15:8], RO. -/
def sadcHurdleActive : Fld := ⟨sadcHurdle, 15, 8⟩
/-- SADC.HURDLE.TRIPPED [7:0], RS. -/
def sadcHurdleTripped : Fld := ⟨sadcHurdle, 7, 0⟩
/-- SADC.H_CFG0 (Table 15.6). -/
def sadcHCfg0 (j : Nat) : Nat := 0x780040 + 0x8 * j
/-- SADC.H_CFG1 (Table 15.6). -/
def sadcHCfg1 (j : Nat) : Nat := 0x780044 + 0x8 * j
/-- SADC.LAST (Table 15.6). -/
def sadcLast (j : Nat) : Nat := 0x780100 + 0x4 * j
/-- SADC.LAST.RESULT [31:0], RO. -/
def sadcLastResult (j : Nat) : Fld := ⟨sadcLast j, 31, 0⟩
/-- SADC.SEQ (Table 15.6). -/
def sadcSeq (j : Nat) : Nat := 0x780180 + 0x4 * j
/-- SADC.SEQ.ENTRY [31:0], RO. -/
def sadcSeqEntry (j : Nat) : Fld := ⟨sadcSeq j, 31, 0⟩
/-- THM.STATE (Table 16.5). -/
def thmState : Nat := 0x7c0000
/-- THM.STATE.SHUTDOWN [28:28], RO. -/
def thmStateShutdown : Fld := ⟨thmState, 28, 28⟩
/-- THM.STATE.STEP [27:26], RO. -/
def thmStateStep : Fld := ⟨thmState, 27, 26⟩
/-- THM.STATE.WARNING [25:25], RO. -/
def thmStateWarning : Fld := ⟨thmState, 25, 25⟩
/-- THM.STATE.RESUME_READY [24:24], RO. -/
def thmStateResumeReady : Fld := ⟨thmState, 24, 24⟩
/-- THM.STATE.HOTTEST [15:0], RO; 0x9c4 after power-on is the model's choice (the table: Measured; assumption 1). -/
def thmStateHottest : Fld := ⟨thmState, 15, 0⟩
/-- THM.LIMITS (Table 16.5). -/
def thmLimits : Nat := 0x7c0004
/-- THM.LIMITS.WARN [31:24], RO. -/
def thmLimitsWarn : Fld := ⟨thmLimits, 31, 24⟩
/-- THM.LIMITS.THROT [23:16], RO. -/
def thmLimitsThrot : Fld := ⟨thmLimits, 23, 16⟩
/-- THM.LIMITS.SHUT [15:8], RO. -/
def thmLimitsShut : Fld := ⟨thmLimits, 15, 8⟩
/-- THM.LIMITS_N (Table 16.5). -/
def thmLimitsN : Nat := 0x7c0008
/-- THM.LIMITS_N.LIMITS_N [31:0], RO. -/
def thmLimitsNLimitsN : Fld := ⟨thmLimitsN, 31, 0⟩
/-- THM.FAULT (Table 16.5). -/
def thmFault : Nat := 0x7c000c
/-- THM.FAULT.COMPLEMENT [3:3], RS. -/
def thmFaultComplement : Fld := ⟨thmFault, 3, 3⟩
/-- THM.FAULT.SETTINGS_REFUSED [2:2], RS. -/
def thmFaultSettingsRefused : Fld := ⟨thmFault, 2, 2⟩
/-- THM.FAULT.RESUME_REFUSED [1:1], RS. -/
def thmFaultResumeRefused : Fld := ⟨thmFault, 1, 1⟩
/-- THM.FAULT.SENSOR [0:0], RS. -/
def thmFaultSensor : Fld := ⟨thmFault, 0, 0⟩
/-- THM.COUNT (Table 16.5). -/
def thmCount : Nat := 0x7c0010
/-- THM.COUNT.THROTTLE_ENTRIES [31:16], RC. -/
def thmCountThrottleEntries : Fld := ⟨thmCount, 31, 16⟩
/-- THM.COUNT.WARNING_ENTRIES [15:0], RC. -/
def thmCountWarningEntries : Fld := ⟨thmCount, 15, 0⟩
/-- THM.SHUTDOWN_COUNT (Table 16.5). -/
def thmShutdownCount : Nat := 0x7c0014
/-- THM.SHUTDOWN_COUNT.SHUTDOWNS [31:0], RC. -/
def thmShutdownCountShutdowns : Fld := ⟨thmShutdownCount, 31, 0⟩
/-- THM.THROTTLE_TIME (Table 16.5). -/
def thmThrottleTime : Nat := 0x7c0018
/-- THM.THROTTLE_TIME.MS [31:0], RC. -/
def thmThrottleTimeMs : Fld := ⟨thmThrottleTime, 31, 0⟩
/-- THM.WEAR (Table 16.5). -/
def thmWear : Nat := 0x7c001c
/-- THM.WEAR.DDR [4:4], RS. -/
def thmWearDdr : Fld := ⟨thmWear, 4, 4⟩
/-- THM.WEAR.LAMP [3:3], RS. -/
def thmWearLamp : Fld := ⟨thmWear, 3, 3⟩
/-- THM.WEAR.VALVE [2:2], RS. -/
def thmWearValve : Fld := ⟨thmWear, 2, 2⟩
/-- THM.WEAR.FD [1:1], RS. -/
def thmWearFd : Fld := ⟨thmWear, 1, 1⟩
/-- THM.WEAR.LOGIC [0:0], RS. -/
def thmWearLogic : Fld := ⟨thmWear, 0, 0⟩
/-- THM.AGE_VALVES (Table 16.5). -/
def thmAgeValves : Nat := 0x7c0020
/-- THM.AGE_VALVES.AGEING [7:0], RO. -/
def thmAgeValvesAgeing : Fld := ⟨thmAgeValves, 7, 0⟩
/-- THM.DIE (Table 16.5). -/
def thmDie (j : Nat) : Nat := 0x7c0100 + 0x10 * j
/-- THM.DIE.LEVEL [31:30], RO. -/
def thmDieLevel (j : Nat) : Fld := ⟨thmDie j, 31, 30⟩
/-- THM.DIE.STEP [29:28], RO. -/
def thmDieStep (j : Nat) : Fld := ⟨thmDie j, 29, 28⟩
/-- THM.DIE.SENSOR_FAULT [27:24], RO. -/
def thmDieSensorFault (j : Nat) : Fld := ⟨thmDie j, 27, 24⟩
/-- THM.DIE.TEMP [15:0], RO; 0x9c4 after power-on is the model's choice (the table: Measured; assumption 1). -/
def thmDieTemp (j : Nat) : Fld := ⟨thmDie j, 15, 0⟩
/-- THM.DIE_AGE (Table 16.5). -/
def thmDieAge (j : Nat) : Nat := 0x7c0104 + 0x10 * j
/-- THM.DIE_AGE.AGE [15:0], RO; 0 after power-on is the model's choice (the table: Margin table; assumption 1). -/
def thmDieAgeAge (j : Nat) : Fld := ⟨thmDieAge j, 15, 0⟩
/-- THM.SENSOR (Table 16.5). -/
def thmSensor (j : Nat) : Nat := 0x7c0200 + 0x4 * j
/-- THM.SENSOR.FAULT [31:31], RO. -/
def thmSensorFault (j : Nat) : Fld := ⟨thmSensor j, 31, 31⟩
/-- THM.SENSOR.TEMP [15:0], RO; 0x9c4 after power-on is the model's choice (the table: Measured; assumption 1). -/
def thmSensorTemp (j : Nat) : Fld := ⟨thmSensor j, 15, 0⟩
/-- THM.DDR_MARGIN (Table 16.5). -/
def thmDdrMargin (j : Nat) : Nat := 0x7c0300 + 0x4 * j
/-- THM.DDR_MARGIN.READ_EYE [15:8], RO; 0 after power-on is the model's choice (the table: Measured; assumption 1). -/
def thmDdrMarginReadEye (j : Nat) : Fld := ⟨thmDdrMargin j, 15, 8⟩
/-- THM.DDR_MARGIN.WRITE_EYE [7:0], RO; 0 after power-on is the model's choice (the table: Measured; assumption 1). -/
def thmDdrMarginWriteEye (j : Nat) : Fld := ⟨thmDdrMargin j, 7, 0⟩
/-- NVS.STATE (Table 17.4). -/
def nvsState : Nat := 0x800000
/-- NVS.STATE.INDEX_READY [31:31], RO. -/
def nvsStateIndexReady : Fld := ⟨nvsState, 31, 31⟩
/-- NVS.STATE.PROGRAMMING [30:30], RO. -/
def nvsStateProgramming : Fld := ⟨nvsState, 30, 30⟩
/-- NVS.STATE.HELD [29:29], RO. -/
def nvsStateHeld : Fld := ⟨nvsState, 29, 29⟩
/-- NVS.STATE.QUEUED [28:24], RO. -/
def nvsStateQueued : Fld := ⟨nvsState, 28, 24⟩
/-- NVS.STATE.KEYS [13:0], RO; 0 after power-on is the model's choice (the table: Measured; assumption 1). -/
def nvsStateKeys : Fld := ⟨nvsState, 13, 0⟩
/-- NVS.ACCESS (Table 17.4). -/
def nvsAccess : Nat := 0x800004
/-- NVS.ACCESS.UNLOCK_N [23:16], RO; 0 after power-on is the model's choice (the table: Complement; assumption 1). -/
def nvsAccessUnlockN : Fld := ⟨nvsAccess, 23, 16⟩
/-- NVS.ACCESS.PW_WRITE [15:12], RO; 0 after power-on is the model's choice (the table: Stored; assumption 1). -/
def nvsAccessPwWrite : Fld := ⟨nvsAccess, 15, 12⟩
/-- NVS.ACCESS.PW_READ [11:8], RO; 0 after power-on is the model's choice (the table: Stored; assumption 1). -/
def nvsAccessPwRead : Fld := ⟨nvsAccess, 11, 8⟩
/-- NVS.ACCESS.UNLOCK_WRITE [7:4], RO; 0xf after power-on is the model's choice (the table: Set where no write password;
assumption 1). -/
def nvsAccessUnlockWrite : Fld := ⟨nvsAccess, 7, 4⟩
/-- NVS.ACCESS.UNLOCK_READ [3:0], RO; 0xf after power-on is the model's choice (the table: Set where no read password;
assumption 1). -/
def nvsAccessUnlockRead : Fld := ⟨nvsAccess, 3, 0⟩
/-- NVS.SECTORS (Table 17.4). -/
def nvsSectors : Nat := 0x800008
/-- NVS.SECTORS.FREE [25:16], RO; 0x200 after power-on is the model's choice (the table: Measured; assumption 1). -/
def nvsSectorsFree : Fld := ⟨nvsSectors, 25, 16⟩
/-- NVS.SECTORS.RETIRED [9:0], RO; 0 after power-on is the model's choice (the table: Stored; assumption 1). -/
def nvsSectorsRetired : Fld := ⟨nvsSectors, 9, 0⟩
/-- NVS.ERASE_MAX (Table 17.4). -/
def nvsEraseMax : Nat := 0x80000c
/-- NVS.ERASE_MAX.ERASE_MAX [31:0], RO; 0 after power-on is the model's choice (the table: Stored; assumption 1). -/
def nvsEraseMaxEraseMax : Fld := ⟨nvsEraseMax, 31, 0⟩
/-- NVS.WRITES (Table 17.4). -/
def nvsWrites : Nat := 0x800010
/-- NVS.WRITES.WRITES [31:0], RC. -/
def nvsWritesWrites : Fld := ⟨nvsWrites, 31, 0⟩
/-- NVS.UNCOMMITTED (Table 17.4). -/
def nvsUncommitted : Nat := 0x800014
/-- NVS.UNCOMMITTED.UNCOMMITTED [31:0], RC. -/
def nvsUncommittedUncommitted : Fld := ⟨nvsUncommitted, 31, 0⟩
/-- NVS.CONFLICT (Table 17.4). -/
def nvsConflict : Nat := 0x800018
/-- NVS.CONFLICT.CONFLICTS [31:0], RC. -/
def nvsConflictConflicts : Fld := ⟨nvsConflict, 31, 0⟩
/-- NVS.LAST_CONFLICT (Table 17.4). -/
def nvsLastConflict : Nat := 0x80001c
/-- NVS.LAST_CONFLICT.PARTITION [17:16], RO. -/
def nvsLastConflictPartition : Fld := ⟨nvsLastConflict, 17, 16⟩
/-- NVS.LAST_CONFLICT.KEY [15:0], RO. -/
def nvsLastConflictKey : Fld := ⟨nvsLastConflict, 15, 0⟩
/-- NVS.REFUSED (Table 17.4). -/
def nvsRefused : Nat := 0x800020
/-- NVS.REFUSED.UNLOCK_FAIL [31:16], RC. -/
def nvsRefusedUnlockFail : Fld := ⟨nvsRefused, 31, 16⟩
/-- NVS.REFUSED.WRITE_REFUSED [15:0], RC. -/
def nvsRefusedWriteRefused : Fld := ⟨nvsRefused, 15, 0⟩
/-- NVS.FAULT (Table 17.4). -/
def nvsFault : Nat := 0x800024
/-- NVS.FAULT.UNLOCK_FAIL [5:5], RS. -/
def nvsFaultUnlockFail : Fld := ⟨nvsFault, 5, 5⟩
/-- NVS.FAULT.COMPLEMENT [4:4], RS. -/
def nvsFaultComplement : Fld := ⟨nvsFault, 4, 4⟩
/-- NVS.FAULT.WEAR [3:3], RS. -/
def nvsFaultWear : Fld := ⟨nvsFault, 3, 3⟩
/-- NVS.FAULT.FULL [2:2], RS. -/
def nvsFaultFull : Fld := ⟨nvsFault, 2, 2⟩
/-- NVS.FAULT.WRITE_FAIL [1:1], RS. -/
def nvsFaultWriteFail : Fld := ⟨nvsFault, 1, 1⟩
/-- NVS.FAULT.CONFLICT [0:0], RS. -/
def nvsFaultConflict : Fld := ⟨nvsFault, 0, 0⟩
/-- NVS.INDEX_TIME (Table 17.4). -/
def nvsIndexTime : Nat := 0x800028
/-- NVS.INDEX_TIME.US [15:0], RO; 0x1388 after power-on is the model's choice (the table: Measured; assumption 1). -/
def nvsIndexTimeUs : Fld := ⟨nvsIndexTime, 15, 0⟩
/-- SEC.UID_LO (Table 18.5). -/
def secUidLo : Nat := 0x880000
/-- SEC.UID_LO.UID [31:0], RO; 0 after power-on is the model's choice (the table: OTP; assumption 1). -/
def secUidLoUid : Fld := ⟨secUidLo, 31, 0⟩
/-- SEC.UID_HI (Table 18.5). -/
def secUidHi : Nat := 0x880004
/-- SEC.UID_HI.UID [31:0], RO; 0 after power-on is the model's choice (the table: OTP; assumption 1). -/
def secUidHiUid : Fld := ⟨secUidHi, 31, 0⟩
/-- SEC.KEYS (Table 18.5). -/
def secKeys : Nat := 0x880008
/-- SEC.KEYS.COUNT [26:16], RO; 0 after power-on is the model's choice (the table: OTP; assumption 1). -/
def secKeysCount : Fld := ⟨secKeys, 26, 16⟩
/-- SEC.KEYS.SLOTS_N [15:8], RO; 0xff after power-on is the model's choice (the table: Stored; assumption 1). -/
def secKeysSlotsN : Fld := ⟨secKeys, 15, 8⟩
/-- SEC.KEYS.SLOTS [7:0], RO; 0 after power-on is the model's choice (the table: Stored; assumption 1). -/
def secKeysSlots : Fld := ⟨secKeys, 7, 0⟩
/-- SEC.STATE (Table 18.5). -/
def secState : Nat := 0x88000c
/-- SEC.STATE.IMAGE_SIGNER [7:4], RO; 0xe after power-on is the model's choice (the table: From image; assumption 1). -/
def secStateImageSigner : Fld := ⟨secState, 7, 4⟩
/-- SEC.STATE.ATTEST_BUSY [3:3], RO. -/
def secStateAttestBusy : Fld := ⟨secState, 3, 3⟩
/-- SEC.STATE.AUTH_BUSY [2:2], RO. -/
def secStateAuthBusy : Fld := ⟨secState, 2, 2⟩
/-- SEC.COUNT (Table 18.5). -/
def secCount : Nat := 0x880010
/-- SEC.COUNT.AUTH_REFUSED [31:16], RC. -/
def secCountAuthRefused : Fld := ⟨secCount, 31, 16⟩
/-- SEC.COUNT.ATTEST_REFUSED [15:0], RC. -/
def secCountAttestRefused : Fld := ⟨secCount, 15, 0⟩
/-- SEC.LOADS (Table 18.5). -/
def secLoads : Nat := 0x880014
/-- SEC.LOADS.LOADS [31:0], RO. -/
def secLoadsLoads : Fld := ⟨secLoads, 31, 0⟩
/-- SEC.FAULT (Table 18.5). -/
def secFault : Nat := 0x880018
/-- SEC.FAULT.COMPLEMENT [2:2], RS. -/
def secFaultComplement : Fld := ⟨secFault, 2, 2⟩
/-- SEC.FAULT.AUTH_REFUSED [1:1], RS. -/
def secFaultAuthRefused : Fld := ⟨secFault, 1, 1⟩
/-- SEC.FAULT.VERIFY_FAIL [0:0], RS. -/
def secFaultVerifyFail : Fld := ⟨secFault, 0, 0⟩
/-- LNK.NET (Table 19.6). -/
def lnkNet : Nat := 0x900000
/-- LNK.NET.NUM_VALID [31:31], RO. -/
def lnkNetNumValid : Fld := ⟨lnkNet, 31, 31⟩
/-- LNK.NET.DEVNUM [17:0], RO. -/
def lnkNetDevnum : Fld := ⟨lnkNet, 17, 0⟩
/-- LNK.ETH0_ADDR (Table 19.6). -/
def lnkEth0Addr : Nat := 0x900004
/-- LNK.ETH0_ADDR.IPV4 [31:0], RO; 0xa9fe0100 after power-on is the model's choice (the table: Link-local; assumption 1). -/
def lnkEth0AddrIpv4 : Fld := ⟨lnkEth0Addr, 31, 0⟩
/-- LNK.ETH1_ADDR (Table 19.6). -/
def lnkEth1Addr : Nat := 0x900008
/-- LNK.ETH1_ADDR.IPV4 [31:0], RO; 0xa9fe0101 after power-on is the model's choice (the table: Link-local; assumption 1). -/
def lnkEth1AddrIpv4 : Fld := ⟨lnkEth1Addr, 31, 0⟩
/-- LNK.PORT (Table 19.6). -/
def lnkPort : Nat := 0x90000c
/-- LNK.PORT.VGD_UP [31:30], RO; 0 after power-on is the model's choice (the table: Measured; assumption 1). -/
def lnkPortVgdUp : Fld := ⟨lnkPort, 31, 30⟩
/-- LNK.PORT.ETH_UP [29:28], RO; 0 after power-on is the model's choice (the table: Measured; assumption 1). -/
def lnkPortEthUp : Fld := ⟨lnkPort, 29, 28⟩
/-- LNK.PORT.ETH1_MODE [27:26], RO. -/
def lnkPortEth1Mode : Fld := ⟨lnkPort, 27, 26⟩
/-- LNK.PORT.ETH0_MODE [25:24], RO. -/
def lnkPortEth0Mode : Fld := ⟨lnkPort, 25, 24⟩
/-- LNK.PORT.LINK_LOCAL [23:22], RO. -/
def lnkPortLinkLocal : Fld := ⟨lnkPort, 23, 22⟩
/-- LNK.PORT.TIME_PORT [21:19], RO. -/
def lnkPortTimePort : Fld := ⟨lnkPort, 21, 19⟩
/-- LNK.PORT.STRATUM [18:15], RO. -/
def lnkPortStratum : Fld := ⟨lnkPort, 18, 15⟩
/-- LNK.CFG0 (Table 19.6). -/
def lnkCfg0 : Nat := 0x900010
/-- LNK.CFG1 (Table 19.6). -/
def lnkCfg1 : Nat := 0x900014
/-- LNK.CFG2 (Table 19.6). -/
def lnkCfg2 : Nat := 0x900018
/-- LNK.CFG3 (Table 19.6). -/
def lnkCfg3 : Nat := 0x90001c
/-- LNK.CFG4 (Table 19.6). -/
def lnkCfg4 : Nat := 0x900020
/-- LNK.CFG5 (Table 19.6). -/
def lnkCfg5 : Nat := 0x900024
/-- LNK.CFG6 (Table 19.6). -/
def lnkCfg6 : Nat := 0x900028
/-- LNK.CFG7 (Table 19.6). -/
def lnkCfg7 : Nat := 0x90002c
/-- LNK.CFG8 (Table 19.6). -/
def lnkCfg8 : Nat := 0x900030
/-- LNK.CFG9 (Table 19.6). -/
def lnkCfg9 : Nat := 0x900034
/-- LNK.SYNC (Table 19.6). -/
def lnkSync : Nat := 0x900040
/-- LNK.SYNC.SYNC_RX [31:16], RC. -/
def lnkSyncSyncRx : Fld := ⟨lnkSync, 31, 16⟩
/-- LNK.SYNC.SYNC_LATE [15:0], RC. -/
def lnkSyncSyncLate : Fld := ⟨lnkSync, 15, 0⟩
/-- LNK.SYNC_OFFSET (Table 19.6). -/
def lnkSyncOffset : Nat := 0x900044
/-- LNK.SYNC_OFFSET.OFFSET [15:0], RO. -/
def lnkSyncOffsetOffset : Fld := ⟨lnkSyncOffset, 15, 0⟩
/-- LNK.HB (Table 19.6). -/
def lnkHb : Nat := 0x900048
/-- LNK.HB.BOOT [31:16], RO. -/
def lnkHbBoot : Fld := ⟨lnkHb, 31, 16⟩
/-- LNK.HB_COUNT (Table 19.6). -/
def lnkHbCount : Nat := 0x90004c
/-- LNK.HB_COUNT.COUNT [31:0], RO. -/
def lnkHbCountCount : Fld := ⟨lnkHbCount, 31, 0⟩
/-- LNK.CELL_CRC (Table 19.6). -/
def lnkCellCrc : Nat := 0x900050
/-- LNK.CELL_CRC.VGD1 [31:16], RC. -/
def lnkCellCrcVgd1 : Fld := ⟨lnkCellCrc, 31, 16⟩
/-- LNK.CELL_CRC.VGD0 [15:0], RC. -/
def lnkCellCrcVgd0 : Fld := ⟨lnkCellCrc, 15, 0⟩
/-- LNK.RX (Table 19.6). -/
def lnkRx : Nat := 0x900054
/-- LNK.RX.RX_DROP [31:16], RC. -/
def lnkRxRxDrop : Fld := ⟨lnkRx, 31, 16⟩
/-- LNK.RX.QUEUED [6:0], RO. -/
def lnkRxQueued : Fld := ⟨lnkRx, 6, 0⟩
/-- LNK.CMD (Table 19.6). -/
def lnkCmd : Nat := 0x900058
/-- LNK.CMD.DUPLICATE [31:16], RC. -/
def lnkCmdDuplicate : Fld := ⟨lnkCmd, 31, 16⟩
/-- LNK.CMD.REFUSED [15:0], RC. -/
def lnkCmdRefused : Fld := ⟨lnkCmd, 15, 0⟩
/-- LNK.FRAME_DROP (Table 19.6). -/
def lnkFrameDrop : Nat := 0x90005c
/-- LNK.FRAME_DROP.ETH1 [31:16], RC. -/
def lnkFrameDropEth1 : Fld := ⟨lnkFrameDrop, 31, 16⟩
/-- LNK.FRAME_DROP.ETH0 [15:0], RC. -/
def lnkFrameDropEth0 : Fld := ⟨lnkFrameDrop, 15, 0⟩
/-- LNK.FAULT (Table 19.6). -/
def lnkFault : Nat := 0x900060
/-- LNK.FAULT.ADDR_CONFLICT [5:5], RS. -/
def lnkFaultAddrConflict : Fld := ⟨lnkFault, 5, 5⟩
/-- LNK.FAULT.SETTINGS_REFUSED [4:4], RS. -/
def lnkFaultSettingsRefused : Fld := ⟨lnkFault, 4, 4⟩
/-- LNK.FAULT.VGD1_DOWN [3:3], RS. -/
def lnkFaultVgd1Down : Fld := ⟨lnkFault, 3, 3⟩
/-- LNK.FAULT.VGD0_DOWN [2:2], RS. -/
def lnkFaultVgd0Down : Fld := ⟨lnkFault, 2, 2⟩
/-- LNK.FAULT.ETH1_DOWN [1:1], RS. -/
def lnkFaultEth1Down : Fld := ⟨lnkFault, 1, 1⟩
/-- LNK.FAULT.ETH0_DOWN [0:0], RS. -/
def lnkFaultEth0Down : Fld := ⟨lnkFault, 0, 0⟩
/-- LNK.FAULT_N (Table 19.6). -/
def lnkFaultN : Nat := 0x900064
/-- LNK.FAULT_N.REASON [7:0], RO. -/
def lnkFaultNReason : Fld := ⟨lnkFaultN, 7, 0⟩
/-- INT.STATE (Table 20.7). -/
def intState : Nat := 0xa00000
/-- INT.STATE.SOURCE [3:2], RO. -/
def intStateSource : Fld := ⟨intState, 3, 2⟩
/-- INT.STATE.SAFE [1:1], RO. -/
def intStateSafe : Fld := ⟨intState, 1, 1⟩
/-- INT.STATE.FROZEN [0:0], RO. -/
def intStateFrozen : Fld := ⟨intState, 0, 0⟩
/-- INT.FREEZE_COUNT (Table 20.7). -/
def intFreezeCount : Nat := 0xa00004
/-- INT.FREEZE_COUNT.FREEZES [31:0], RC. -/
def intFreezeCountFreezes : Fld := ⟨intFreezeCount, 31, 0⟩
/-- INT.FREEZE_TIME (Table 20.7). -/
def intFreezeTime : Nat := 0xa00008
/-- INT.FREEZE_TIME.US [31:0], RO. -/
def intFreezeTimeUs : Fld := ⟨intFreezeTime, 31, 0⟩
/-- INT.COMPLEMENT (Table 20.7). -/
def intComplement : Nat := 0xa0000c
/-- INT.COMPLEMENT.MISMATCHES [31:0], RC. -/
def intComplementMismatches : Fld := ⟨intComplement, 31, 0⟩
/-- INT.COMPLEMENT_SEEN (Table 20.7). -/
def intComplementSeen : Nat := 0xa00010
/-- INT.COMPLEMENT_SEEN.KIND [7:0], RS. -/
def intComplementSeenKind : Fld := ⟨intComplementSeen, 7, 0⟩
/-- INT.STATUS_PARITY (Table 20.7). -/
def intStatusParity : Nat := 0xa00014
/-- INT.STATUS_PARITY.COUNT [31:0], RC. -/
def intStatusParityCount : Fld := ⟨intStatusParity, 31, 0⟩
/-- INT.FAULT (Table 20.7). -/
def intFault : Nat := 0xa00018
/-- INT.FAULT.RESUME_REFUSED [1:1], RS. -/
def intFaultResumeRefused : Fld := ⟨intFault, 1, 1⟩
/-- INT.FAULT.STATUS_PARITY [0:0], RS. -/
def intFaultStatusParity : Fld := ⟨intFault, 0, 0⟩
/-- ID.ROM (Table 21.2). -/
def idRom : Nat := 0x4
/-- ID.ROM.ROM_VERSION [15:0], RO. -/
def idRomRomVersion : Fld := ⟨idRom, 15, 0⟩
/-- ID.STATUS_MAP (Table 21.2). -/
def idStatusMap : Nat := 0x8
/-- ID.STATUS_MAP.MAP_VERSION [15:0], RO. -/
def idStatusMapMapVersion : Fld := ⟨idStatusMap, 15, 0⟩
/-- INT.EVT_SEQ (Table 21.3). -/
def intEvtSeq : Nat := 0xa00100
/-- INT.EVT_SEQ.SEQ [31:0], RO. -/
def intEvtSeqSeq : Fld := ⟨intEvtSeq, 31, 0⟩
/-- INT.EVT_HOST (Table 21.3). -/
def intEvtHost : Nat := 0xa00104
/-- INT.EVT_HOST.NEXT [31:0], RO. -/
def intEvtHostNext : Fld := ⟨intEvtHost, 31, 0⟩
/-- INT.EVT_LOST (Table 21.3). -/
def intEvtLost : Nat := 0xa00108
/-- INT.EVT_LOST.LOST [31:0], RC. -/
def intEvtLostLost : Fld := ⟨intEvtLost, 31, 0⟩
/-- INT.EVT_SUPPRESSED (Table 21.3). -/
def intEvtSuppressed : Nat := 0xa0010c
/-- INT.EVT_SUPPRESSED.SUPPRESSED [31:0], RC. -/
def intEvtSuppressedSuppressed : Fld := ⟨intEvtSuppressed, 31, 0⟩

end F

/-- The ID words with their fields, access codes and values after power-on. -/
def wordsId1 : List WordSpec := [
  ⟨0x0, 0x1000000, 1, 0x1000000, 1, 1, [(0, 1)], [⟨31, 16, .ro, 0x5a54⟩, ⟨15, 8, .ro, 0xb1⟩, ⟨7, 4, .ro, 8⟩]⟩]

/-- The PWR words with their fields, access codes and values after power-on.  DESIGN CHOICE where the manual gives no
number (assumption 1): PWR.STATE.VIN 0x12c0, PWR.STATE.VIN_ZONE 2, PWR.VCORE_SET.STEP 0. -/
def wordsPwr1 : List WordSpec := [
  ⟨0x10000, 0x1000000, 1, 0x1000000, 1, 1, [(0, 1)], [⟨31, 16, .ro, 0x12c0⟩, ⟨11, 8, .ro, 2⟩, ⟨7, 7, .ro, 1⟩, ⟨6, 6, .ro, 1⟩, ⟨5, 5, .ro, 1⟩, ⟨4, 4, .ro, 1⟩, ⟨3, 3, .ro, 1⟩, ⟨2, 2, .ro, 1⟩, ⟨1, 1, .ro, 0⟩, ⟨0, 0, .ro, 1⟩]⟩,
  ⟨0x10004, 0x1000000, 1, 0x1000000, 1, 1, [(0, 1)], [⟨3, 0, .ro, 0⟩]⟩,
  ⟨0x10008, 0x1000000, 1, 0x1000000, 1, 1, [(0, 1)], [⟨10, 10, .rs, 0⟩, ⟨9, 9, .rs, 0⟩, ⟨8, 8, .rs, 0⟩, ⟨7, 7, .rs, 0⟩, ⟨6, 6, .rs, 0⟩, ⟨5, 5, .rs, 0⟩, ⟨4, 4, .rs, 0⟩, ⟨3, 3, .rs, 0⟩, ⟨2, 2, .rs, 0⟩, ⟨1, 1, .rs, 0⟩, ⟨0, 0, .rs, 0⟩]⟩,
  ⟨0x1000c, 0x1000000, 1, 0x1000000, 1, 1, [(0, 1)], [⟨31, 16, .rc, 0⟩, ⟨15, 0, .rc, 0⟩]⟩]

/-- The CLK words with their fields, access codes and values after power-on. -/
def wordsClk1 : List WordSpec := [
  ⟨0x18000, 0x1000000, 1, 0x1000000, 1, 1, [(0, 1)], [⟨9, 8, .ro, 0⟩, ⟨7, 7, .ro, 0⟩, ⟨6, 6, .ro, 1⟩, ⟨5, 5, .ro, 1⟩, ⟨4, 4, .ro, 1⟩, ⟨3, 3, .ro, 1⟩, ⟨2, 2, .ro, 1⟩, ⟨1, 1, .ro, 1⟩, ⟨0, 0, .ro, 1⟩]⟩,
  ⟨0x18004, 0x1000000, 1, 0x1000000, 1, 1, [(0, 1)], [⟨3, 3, .rs, 0⟩, ⟨2, 2, .rs, 0⟩, ⟨1, 1, .rs, 0⟩, ⟨0, 0, .rs, 0⟩]⟩,
  ⟨0x18008, 0x1000000, 1, 0x1000000, 1, 1, [(0, 1)], [⟨31, 0, .ro, 0⟩]⟩,
  ⟨0x18010, 0x1000000, 1, 0x1000000, 1, 1, [(0, 1)], [⟨31, 0, .ro, 0⟩]⟩,
  ⟨0x18014, 0x1000000, 1, 0x1000000, 1, 1, [(0, 1)], [⟨31, 0, .ro, 0⟩]⟩]

/-- The RST words with their fields, access codes and values after power-on.  DESIGN CHOICE where the manual gives no
number (assumption 1): RST.BOOT.BOOT_TIME 0x1964, RST.BOOT.SLOT 3. -/
def wordsRst1 : List WordSpec := [
  ⟨0x20000, 0x1000000, 1, 0x1000000, 1, 1, [(0, 1)], [⟨19, 16, .ro, 0⟩, ⟨8, 8, .rs, 0⟩, ⟨7, 7, .rs, 0⟩, ⟨6, 6, .rs, 0⟩, ⟨5, 5, .rs, 0⟩, ⟨4, 4, .rs, 0⟩, ⟨3, 3, .rs, 0⟩, ⟨2, 2, .rs, 0⟩, ⟨1, 1, .rs, 0⟩, ⟨0, 0, .rs, 1⟩]⟩,
  ⟨0x20004, 0x1000000, 1, 0x1000000, 1, 1, [(0, 1)], [⟨31, 16, .ro, 0x1964⟩, ⟨11, 8, .ro, 5⟩, ⟨5, 4, .ro, 3⟩, ⟨3, 3, .rs, 0⟩, ⟨2, 2, .rs, 0⟩, ⟨1, 1, .ro, 1⟩, ⟨0, 0, .ro, 1⟩]⟩,
  ⟨0x20008, 0x1000000, 1, 0x1000000, 1, 1, [(0, 1)], [⟨7, 0, .ro, 0xff⟩]⟩,
  ⟨0x2000c, 0x1000000, 1, 0x1000000, 1, 1, [(0, 1)], [⟨11, 8, .ro, 0⟩, ⟨7, 0, .ro, 0⟩]⟩,
  ⟨0x20010, 0x1000000, 1, 0x1000000, 1, 1, [(0, 1)], [⟨31, 16, .rc, 0⟩, ⟨15, 0, .rc, 0⟩]⟩,
  ⟨0x20014, 0x1000000, 1, 0x1000000, 1, 1, [(0, 1)], [⟨31, 0, .rc, 0⟩]⟩]

/-- The LCS words with their fields, access codes and values after power-on. -/
def wordsLcs1 : List WordSpec := [
  ⟨0x20100, 0x1000000, 1, 0x1000000, 1, 1, [(0, 1)], [⟨15, 8, .ro, 0xfe⟩, ⟨7, 0, .ro, 1⟩]⟩,
  ⟨0x20104, 0x1000000, 1, 0x1000000, 1, 1, [(0, 1)], [⟨7, 7, .ro, 0⟩, ⟨2, 0, .ro, 7⟩]⟩]

/-- The FPD words with their fields, access codes and values after power-on.  DESIGN CHOICE where the manual gives no
number (assumption 1): FPD.STATE.BAND 9, FPD.SUBSTRATE.TEMP 0x9c4. -/
def wordsFpd1 : List WordSpec := [
  ⟨0x100000, 0x8000, 2, 0x1000000, 1, 1, [(0, 1)], [⟨31, 31, .ro, 0⟩, ⟨30, 30, .ro, 0⟩, ⟨29, 29, .ro, 0⟩, ⟨28, 28, .ro, 0⟩, ⟨27, 27, .ro, 0⟩, ⟨26, 26, .ro, 0⟩, ⟨25, 24, .ro, 1⟩, ⟨23, 21, .ro, 0⟩, ⟨20, 16, .ro, 9⟩, ⟨11, 0, .ro, 0x190⟩]⟩,
  ⟨0x100004, 0x8000, 2, 0x1000000, 1, 1, [(0, 1)], [⟨15, 0, .ro, 0x9c4⟩]⟩,
  ⟨0x100008, 0x8000, 2, 0x1000000, 1, 1, [(0, 1)], [⟨23, 0, .ro, 0⟩]⟩,
  ⟨0x10000c, 0x8000, 2, 0x1000000, 1, 1, [(0, 1)], [⟨31, 24, .ro, 0x50⟩, ⟨23, 16, .ro, 0x3c⟩, ⟨15, 8, .ro, 0x3c⟩, ⟨7, 2, .ro, 0x3f⟩]⟩,
  ⟨0x100010, 0x8000, 2, 0x1000000, 1, 1, [(0, 1)], [⟨5, 5, .rs, 0⟩, ⟨4, 4, .rs, 0⟩, ⟨3, 3, .rs, 0⟩, ⟨2, 2, .rs, 0⟩, ⟨1, 1, .rs, 0⟩, ⟨0, 0, .rs, 0⟩]⟩,
  ⟨0x100014, 0x8000, 2, 0x1000000, 1, 1, [(0, 1)], [⟨31, 0, .rc, 0⟩]⟩,
  ⟨0x100018, 0x8000, 2, 0x1000000, 1, 1, [(0, 1)], [⟨31, 0, .rc, 0⟩]⟩,
  ⟨0x10001c, 0x8000, 2, 0x1000000, 1, 1, [(0, 1)], [⟨31, 16, .rc, 0⟩, ⟨15, 0, .rc, 0⟩]⟩,
  ⟨0x100020, 0x8000, 2, 0x1000000, 1, 1, [(0, 1)], [⟨31, 16, .rc, 0⟩, ⟨15, 0, .rc, 0⟩]⟩,
  ⟨0x100024, 0x8000, 2, 0x1000000, 1, 1, [(0, 1)], [⟨31, 0, .ro, 0⟩]⟩,
  ⟨0x100028, 0x8000, 2, 0x1000000, 1, 1, [(0, 1)], [⟨31, 0, .ro, 0⟩]⟩]

/-- The ALG words with their fields, access codes and values after power-on. -/
def wordsAlg1 : List WordSpec := [
  ⟨0x200000, 0x1000000, 1, 0x1000000, 1, 1, [(0, 1)], [⟨7, 0, .ro, 0⟩]⟩,
  ⟨0x200004, 0x1000000, 1, 0x1000000, 1, 1, [(0, 1)], [⟨31, 0, .rc, 0⟩]⟩,
  ⟨0x200008, 0x1000000, 1, 0x1000000, 1, 1, [(0, 1)], [⟨31, 0, .rc, 0⟩]⟩,
  ⟨0x20000c, 0x1000000, 1, 0x1000000, 1, 1, [(0, 1)], [⟨31, 0, .rc, 0⟩]⟩,
  ⟨0x200010, 0x1000000, 1, 0x1000000, 1, 1, [(0, 1)], [⟨31, 16, .rc, 0⟩, ⟨15, 0, .rc, 0⟩]⟩,
  ⟨0x200014, 0x1000000, 1, 0x1000000, 1, 1, [(0, 1)], [⟨31, 0, .rc, 0⟩]⟩,
  ⟨0x200018, 0x1000000, 1, 0x1000000, 1, 1, [(0, 1)], [⟨2, 2, .rs, 0⟩, ⟨1, 1, .rs, 0⟩, ⟨0, 0, .rs, 0⟩]⟩,
  ⟨0x201000, 0x1000000, 1, 0x20, 64, 1, [(0, 32)], [⟨30, 24, .ro, 0⟩, ⟨22, 22, .ro, 0⟩, ⟨21, 21, .ro, 0⟩, ⟨20, 20, .ro, 0⟩, ⟨19, 19, .ro, 0⟩, ⟨18, 18, .ro, 0⟩, ⟨17, 17, .ro, 0⟩, ⟨16, 16, .ro, 0⟩, ⟨15, 13, .ro, 0⟩, ⟨12, 10, .ro, 0⟩, ⟨9, 8, .ro, 1⟩, ⟨7, 0, .ro, 0⟩]⟩,
  ⟨0x201004, 0x1000000, 1, 0x20, 64, 1, [(0, 32)], [⟨31, 23, .ro, 0x100⟩, ⟨22, 19, .ro, 0⟩, ⟨18, 15, .ro, 0⟩, ⟨14, 11, .ro, 0⟩, ⟨10, 7, .ro, 0⟩]⟩,
  ⟨0x201008, 0x1000000, 1, 0x20, 64, 1, [(0, 32)], [⟨31, 27, .ro, 0xa⟩, ⟨26, 23, .ro, 2⟩, ⟨22, 19, .ro, 8⟩]⟩,
  ⟨0x20100c, 0x1000000, 1, 0x20, 64, 1, [(0, 32)], [⟨31, 16, .ro, 0x100⟩, ⟨15, 0, .ro, 0x80⟩]⟩,
  ⟨0x201010, 0x1000000, 1, 0x20, 64, 1, [(0, 32)], [⟨23, 0, .ro, 0⟩]⟩]

/-- The ALG words with their fields, access codes and values after power-on. -/
def wordsAlg2 : List WordSpec := [
  ⟨0x201014, 0x1000000, 1, 0x20, 64, 1, [(0, 32)], [⟨23, 0, .ro, 0⟩]⟩,
  ⟨0x201018, 0x1000000, 1, 0x20, 64, 1, [(0, 32)], [⟨23, 0, .ro, 0⟩]⟩,
  ⟨0x20101c, 0x1000000, 1, 0x20, 64, 1, [(0, 32)], [⟨31, 0, .rc, 0⟩]⟩]

/-- The CSN words with their fields, access codes and values after power-on. -/
def wordsCsn1 : List WordSpec := [
  ⟨0x280000, 0x4000, 2, 0x1000000, 1, 1, [(0, 1)], [⟨31, 30, .ro, 0⟩, ⟨29, 26, .ro, 0⟩, ⟨25, 21, .ro, 8⟩, ⟨20, 17, .ro, 1⟩, ⟨16, 13, .ro, 6⟩]⟩,
  ⟨0x280004, 0x4000, 2, 0x1000000, 1, 1, [(0, 1)], [⟨31, 0, .rc, 0⟩]⟩,
  ⟨0x280008, 0x4000, 2, 0x1000000, 1, 1, [(0, 1)], [⟨1, 1, .rs, 0⟩, ⟨0, 0, .rs, 0⟩]⟩,
  ⟨0x280100, 0x4000, 2, 0x8, 64, 1, [(0, 64)], [⟨31, 16, .ro, 0⟩, ⟨15, 0, .ro, 0⟩]⟩,
  ⟨0x280104, 0x4000, 2, 0x8, 64, 1, [(0, 64)], [⟨31, 16, .ro, 0⟩, ⟨15, 0, .ro, 0⟩]⟩]

/-- The COR words with their fields, access codes and values after power-on.  DESIGN CHOICE where the manual gives no
number (assumption 1): COR.BAD_MAPPED.FD1 0, COR.BAD_MAPPED.FD0 0. -/
def wordsCor1 : List WordSpec := [
  ⟨0x300000, 0x1000000, 1, 0x1000000, 1, 1, [(0, 1)], [⟨31, 20, .ro, 0x3e8⟩, ⟨19, 9, .ro, 0x12c⟩, ⟨8, 2, .ro, 0⟩, ⟨1, 1, .ro, 0⟩]⟩,
  ⟨0x300004, 0x1000000, 1, 0x1000000, 1, 1, [(0, 1)], [⟨31, 16, .ro, 0x7530⟩, ⟨15, 8, .ro, 0x80⟩, ⟨7, 6, .ro, 0⟩, ⟨5, 3, .ro, 2⟩]⟩,
  ⟨0x300008, 0x1000000, 1, 0x1000000, 1, 1, [(0, 1)], [⟨31, 16, .ro, 0x40⟩]⟩,
  ⟨0x30000c, 0x1000000, 1, 0x1000000, 1, 1, [(0, 1)], [⟨5, 5, .rs, 0⟩, ⟨4, 4, .rs, 0⟩, ⟨3, 3, .rs, 0⟩, ⟨2, 2, .rs, 0⟩, ⟨1, 1, .rs, 0⟩, ⟨0, 0, .rs, 0⟩]⟩,
  ⟨0x300010, 0x1000000, 1, 0x1000000, 1, 1, [(0, 1)], [⟨31, 0, .rc, 0⟩]⟩,
  ⟨0x300014, 0x1000000, 1, 0x1000000, 1, 1, [(0, 1)], [⟨31, 0, .rc, 0⟩]⟩,
  ⟨0x300018, 0x1000000, 1, 0x1000000, 1, 1, [(0, 1)], [⟨31, 0, .rc, 0⟩]⟩,
  ⟨0x30001c, 0x1000000, 1, 0x1000000, 1, 1, [(0, 1)], [⟨31, 0, .rc, 0⟩]⟩,
  ⟨0x300020, 0x1000000, 1, 0x1000000, 1, 1, [(0, 1)], [⟨31, 16, .ro, 0⟩, ⟨15, 0, .ro, 0⟩]⟩,
  ⟨0x300024, 0x1000000, 1, 0x1000000, 1, 1, [(0, 1)], [⟨31, 0, .ro, 0⟩]⟩]

/-- The VEL words with their fields, access codes and values after power-on. -/
def wordsVel1 : List WordSpec := [
  ⟨0x301000, 0x1000000, 1, 0x10, 16, 1, [(0, 8)], [⟨31, 16, .ro, 0x7530⟩, ⟨15, 8, .ro, 0⟩, ⟨7, 6, .ro, 2⟩, ⟨5, 5, .ro, 0⟩]⟩,
  ⟨0x301004, 0x1000000, 1, 0x10, 16, 1, [(0, 8)], [⟨31, 16, .ro, 0⟩, ⟨6, 0, .ro, 0⟩]⟩,
  ⟨0x301008, 0x1000000, 1, 0x10, 16, 1, [(0, 8)], [⟨31, 0, .rc, 0⟩]⟩,
  ⟨0x30100c, 0x1000000, 1, 0x10, 16, 1, [(0, 8)], [⟨31, 0, .rc, 0⟩]⟩]

/-- The CAL words with their fields, access codes and values after power-on.  DESIGN CHOICE where the manual gives no
number (assumption 1): CAL.STATE.FEED_GAP 0. -/
def wordsCal1 : List WordSpec := [
  ⟨0x380000, 0x1000000, 1, 0x1000000, 1, 1, [(0, 1)], [⟨31, 0, .ro, 0x78f0200⟩]⟩,
  ⟨0x380004, 0x1000000, 1, 0x1000000, 1, 1, [(0, 1)], [⟨31, 0, .ro, 0x40034400⟩]⟩,
  ⟨0x380008, 0x1000000, 1, 0x1000000, 1, 1, [(0, 1)], [⟨31, 0, .ro, 0x1900c8c0⟩]⟩,
  ⟨0x38000c, 0x1000000, 1, 0x1000000, 1, 1, [(0, 1)], [⟨31, 0, .ro, 0x2580000⟩]⟩,
  ⟨0x380010, 0x1000000, 1, 0x1000000, 1, 1, [(0, 1)], [⟨27, 16, .ro, 0⟩, ⟨15, 4, .ro, 0⟩, ⟨3, 3, .ro, 0⟩, ⟨2, 2, .ro, 0⟩, ⟨1, 1, .ro, 0⟩, ⟨0, 0, .ro, 0⟩]⟩,
  ⟨0x380014, 0x1000000, 1, 0x1000000, 1, 1, [(0, 1)], [⟨31, 16, .rc, 0⟩, ⟨15, 0, .rc, 0⟩]⟩,
  ⟨0x380018, 0x1000000, 1, 0x1000000, 1, 1, [(0, 1)], [⟨2, 2, .rs, 0⟩, ⟨1, 1, .rs, 0⟩, ⟨0, 0, .rs, 0⟩]⟩,
  ⟨0x381000, 0x1000000, 1, 0x10, 12, 1, [(0, 1), (2, 3), (4, 5), (6, 7), (8, 9), (10, 11), (11, 12)], [⟨31, 16, .ro, 0⟩, ⟨15, 8, .ro, 0xff⟩, ⟨7, 0, .ro, 0⟩]⟩,
  ⟨0x381004, 0x1000000, 1, 0x10, 12, 1, [(0, 1), (2, 3), (4, 5), (6, 7), (8, 9), (10, 11), (11, 12)], [⟨31, 0, .ro, 0⟩]⟩,
  ⟨0x381008, 0x1000000, 1, 0x10, 12, 1, [(0, 1), (2, 3), (4, 5), (6, 7), (8, 9), (10, 11), (11, 12)], [⟨31, 16, .rc, 0⟩, ⟨15, 0, .rc, 0⟩]⟩,
  ⟨0x38100c, 0x1000000, 1, 0x10, 12, 1, [(0, 1), (2, 3), (4, 5), (6, 7), (8, 9), (10, 11), (11, 12)], [⟨31, 0, .ro, 0⟩]⟩]

/-- The CAM words with their fields, access codes and values after power-on. -/
def wordsCam1 : List WordSpec := [
  ⟨0x400000, 0x1000000, 1, 0x100, 2, 1, [(0, 2)], [⟨31, 31, .ro, 0⟩, ⟨30, 30, .ro, 0⟩, ⟨29, 28, .ro, 1⟩, ⟨27, 24, .ro, 0⟩, ⟨23, 23, .ro, 0⟩, ⟨22, 22, .ro, 0⟩, ⟨21, 20, .ro, 0⟩, ⟨15, 15, .ro, 0⟩, ⟨14, 0, .ro, 0x800⟩]⟩,
  ⟨0x400004, 0x1000000, 1, 0x100, 2, 1, [(0, 2)], [⟨31, 0, .ro, 0x10000800⟩]⟩,
  ⟨0x400008, 0x1000000, 1, 0x100, 2, 1, [(0, 2)], [⟨31, 0, .ro, 0x6432000⟩]⟩,
  ⟨0x40000c, 0x1000000, 1, 0x100, 2, 1, [(0, 2)], [⟨31, 0, .ro, 0xa02⟩]⟩,
  ⟨0x400010, 0x1000000, 1, 0x100, 2, 1, [(0, 2)], [⟨31, 0, .ro, 0x3e8⟩]⟩,
  ⟨0x400014, 0x1000000, 1, 0x100, 2, 1, [(0, 2)], [⟨31, 0, .ro, 0⟩]⟩,
  ⟨0x400018, 0x1000000, 1, 0x100, 2, 1, [(0, 2)], [⟨31, 0, .ro, 0⟩]⟩,
  ⟨0x40001c, 0x1000000, 1, 0x100, 2, 1, [(0, 2)], [⟨31, 16, .rc, 0⟩, ⟨15, 0, .rc, 0⟩]⟩,
  ⟨0x400020, 0x1000000, 1, 0x100, 2, 1, [(0, 2)], [⟨31, 16, .rc, 0⟩, ⟨15, 0, .rc, 0⟩]⟩,
  ⟨0x400024, 0x1000000, 1, 0x100, 2, 1, [(0, 2)], [⟨31, 16, .rc, 0⟩, ⟨15, 0, .rc, 0⟩]⟩,
  ⟨0x400028, 0x1000000, 1, 0x100, 2, 1, [(0, 2)], [⟨31, 16, .rc, 0⟩, ⟨15, 0, .rc, 0⟩]⟩,
  ⟨0x40002c, 0x1000000, 1, 0x100, 2, 1, [(0, 2)], [⟨31, 0, .rc, 0⟩]⟩]

/-- The CAM words with their fields, access codes and values after power-on. -/
def wordsCam2 : List WordSpec := [
  ⟨0x400030, 0x1000000, 1, 0x100, 2, 1, [(0, 2)], [⟨4, 4, .rs, 0⟩, ⟨3, 3, .rs, 0⟩, ⟨2, 2, .rs, 0⟩, ⟨1, 1, .rs, 0⟩, ⟨0, 0, .rs, 0⟩]⟩]

/-- The STC words with their fields, access codes and values after power-on.  DESIGN CHOICE where the manual gives no
number (assumption 1): STC.CLUSTER.OK 0x3ffffff, STC.DDR_SIZE.SIZE 0. -/
def wordsStc1 : List WordSpec := [
  ⟨0x500000, 0x1000000, 1, 0x1000000, 1, 1, [(0, 1)], [⟨25, 0, .ro, 0x3ffffff⟩]⟩,
  ⟨0x500004, 0x1000000, 1, 0x1000000, 1, 1, [(0, 1)], [⟨31, 16, .ro, 0⟩, ⟨15, 0, .ro, 0xffff⟩]⟩,
  ⟨0x500008, 0x1000000, 1, 0x1000000, 1, 1, [(0, 1)], [⟨15, 0, .rs, 0⟩]⟩,
  ⟨0x500040, 0x1000000, 1, 0x4, 16, 1, [(0, 1), (1, 2), (4, 5), (7, 8), (10, 11), (12, 13)], [⟨31, 0, .rc, 0⟩]⟩,
  ⟨0x500080, 0x1000000, 1, 0x1000000, 1, 1, [(0, 1)], [⟨31, 16, .rc, 0⟩, ⟨15, 0, .rc, 0⟩]⟩,
  ⟨0x500090, 0x1000000, 1, 0x1000000, 1, 1, [(0, 1)], [⟨11, 8, .ro, 0⟩, ⟨7, 4, .ro, 0⟩]⟩,
  ⟨0x500094, 0x1000000, 1, 0x1000000, 1, 1, [(0, 1)], [⟨7, 0, .ro, 0⟩]⟩,
  ⟨0x500098, 0x1000000, 1, 0x1000000, 1, 1, [(0, 1)], [⟨31, 16, .rc, 0⟩, ⟨15, 0, .rc, 0⟩]⟩,
  ⟨0x50009c, 0x1000000, 1, 0x1000000, 1, 1, [(0, 1)], [⟨31, 30, .ro, 0⟩, ⟨29, 0, .ro, 0⟩]⟩,
  ⟨0x5000a0, 0x1000000, 1, 0x1000000, 1, 1, [(0, 1)], [⟨31, 0, .rc, 0⟩]⟩,
  ⟨0x5000a4, 0x1000000, 1, 0x1000000, 1, 1, [(0, 1)], [⟨31, 16, .rc, 0⟩, ⟨15, 0, .rc, 0⟩]⟩,
  ⟨0x5000a8, 0x1000000, 1, 0x1000000, 1, 1, [(0, 1)], [⟨31, 0, .rc, 0⟩]⟩]

/-- The STC words with their fields, access codes and values after power-on. -/
def wordsStc2 : List WordSpec := [
  ⟨0x5000ac, 0x1000000, 1, 0x1000000, 1, 1, [(0, 1)], [⟨31, 0, .rc, 0⟩]⟩,
  ⟨0x5000b0, 0x1000000, 1, 0x1000000, 1, 1, [(0, 1)], [⟨31, 0, .ro, 0xffffffff⟩]⟩,
  ⟨0x5000b4, 0x1000000, 1, 0x1000000, 1, 1, [(0, 1)], [⟨31, 0, .ro, 0xffffffff⟩]⟩,
  ⟨0x5000b8, 0x1000000, 1, 0x1000000, 1, 1, [(0, 1)], [⟨31, 0, .ro, 0xffff⟩]⟩,
  ⟨0x5000c0, 0x1000000, 1, 0x1000000, 1, 1, [(0, 1)], [⟨5, 5, .rs, 0⟩, ⟨4, 4, .rs, 0⟩, ⟨3, 3, .rs, 0⟩, ⟨2, 2, .rs, 0⟩, ⟨1, 1, .rs, 0⟩, ⟨0, 0, .rs, 0⟩]⟩,
  ⟨0x5000c4, 0x1000000, 1, 0x1000000, 1, 1, [(0, 1)], [⟨31, 0, .rc, 0⟩]⟩]

/-- The ISA words with their fields, access codes and values after power-on.  DESIGN CHOICE where the manual gives no
number (assumption 1): ISA.LOAD.VERSION 0, ISA.BUDGET.DECLARED 0. -/
def wordsIsa1 : List WordSpec := [
  ⟨0x500700, 0x1000000, 1, 0x1000000, 1, 1, [(0, 1)], [⟨31, 24, .ro, 0⟩, ⟨15, 0, .ro, 0⟩]⟩,
  ⟨0x500704, 0x1000000, 1, 0x1000000, 1, 1, [(0, 1)], [⟨19, 0, .ro, 0⟩]⟩,
  ⟨0x500708, 0x1000000, 1, 0x1000000, 1, 1, [(0, 1)], [⟨31, 0, .ro, 0⟩]⟩,
  ⟨0x50070c, 0x1000000, 1, 0x1000000, 1, 1, [(0, 1)], [⟨31, 0, .rc, 0⟩]⟩,
  ⟨0x500710, 0x1000000, 1, 0x1000000, 1, 1, [(0, 1)], [⟨31, 0, .rc, 0⟩]⟩,
  ⟨0x500714, 0x1000000, 1, 0x1000000, 1, 1, [(0, 1)], [⟨2, 2, .rs, 0⟩, ⟨1, 1, .rs, 0⟩, ⟨0, 0, .rs, 0⟩]⟩,
  ⟨0x500800, 0x1000000, 1, 0x10, 30, 1, [(0, 10), (26, 30)], [⟨31, 30, .ro, 1⟩, ⟨23, 16, .ro, 0⟩, ⟨8, 0, .ro, 0⟩]⟩,
  ⟨0x500804, 0x1000000, 1, 0x10, 30, 1, [(0, 10), (26, 30)], [⟨31, 0, .ro, 0⟩]⟩,
  ⟨0x500808, 0x1000000, 1, 0x10, 30, 1, [(0, 10), (26, 30)], [⟨31, 16, .rc, 0⟩, ⟨15, 0, .rc, 0⟩]⟩]

/-- The EJT words with their fields, access codes and values after power-on. -/
def wordsEjt1 : List WordSpec := [
  ⟨0x600000, 0x8000, 2, 0x1000000, 1, 1, [(0, 1)], [⟨20, 16, .ro, 0⟩, ⟨7, 0, .ro, 0⟩]⟩,
  ⟨0x600004, 0x8000, 2, 0x1000000, 1, 1, [(0, 1)], [⟨31, 0, .ro, 0xa07900⟩]⟩,
  ⟨0x600008, 0x8000, 2, 0x1000000, 1, 1, [(0, 1)], [⟨31, 0, .ro, 0xa5a143c⟩]⟩,
  ⟨0x600010, 0x8000, 2, 0x1000000, 1, 1, [(0, 1)], [⟨31, 0, .rc, 0⟩]⟩,
  ⟨0x600014, 0x8000, 2, 0x1000000, 1, 1, [(0, 1)], [⟨31, 0, .rc, 0⟩]⟩,
  ⟨0x600018, 0x8000, 2, 0x1000000, 1, 1, [(0, 1)], [⟨31, 0, .rc, 0⟩]⟩,
  ⟨0x60001c, 0x8000, 2, 0x1000000, 1, 1, [(0, 1)], [⟨31, 0, .rc, 0⟩]⟩,
  ⟨0x600020, 0x8000, 2, 0x1000000, 1, 1, [(0, 1)], [⟨31, 0, .rc, 0⟩]⟩,
  ⟨0x600024, 0x8000, 2, 0x1000000, 1, 1, [(0, 1)], [⟨31, 0, .rc, 0⟩]⟩,
  ⟨0x600028, 0x8000, 2, 0x1000000, 1, 1, [(0, 1)], [⟨31, 16, .rc, 0⟩, ⟨15, 0, .rc, 0⟩]⟩,
  ⟨0x60002c, 0x8000, 2, 0x1000000, 1, 1, [(0, 1)], [⟨31, 0, .rc, 0⟩]⟩,
  ⟨0x600030, 0x8000, 2, 0x1000000, 1, 1, [(0, 1)], [⟨31, 16, .rc, 0⟩, ⟨15, 0, .rc, 0⟩]⟩]

/-- The EJT words with their fields, access codes and values after power-on.  DESIGN CHOICE where the manual gives no
number (assumption 1): EJT.V_ADVANCE.DIP_MEAN 0, EJT.V_ADVANCE.ADVANCE 0, EJT.V_COIL.TEMP 0x9c4, EJT.V_CYCLES.CYCLES
0. -/
def wordsEjt2 : List WordSpec := [
  ⟨0x600034, 0x8000, 2, 0x1000000, 1, 1, [(0, 1)], [⟨3, 3, .rs, 0⟩, ⟨2, 2, .rs, 0⟩, ⟨1, 1, .rs, 0⟩, ⟨0, 0, .rs, 0⟩]⟩,
  ⟨0x600100, 0x8000, 2, 0x10, 16, 1, [(0, 16)], [⟨31, 0, .ro, 0⟩]⟩,
  ⟨0x600104, 0x8000, 2, 0x10, 16, 1, [(0, 16)], [⟨31, 0, .ro, 0⟩]⟩,
  ⟨0x600108, 0x8000, 2, 0x10, 16, 1, [(0, 16)], [⟨31, 0, .ro, 0⟩]⟩,
  ⟨0x60010c, 0x8000, 2, 0x10, 16, 1, [(0, 16)], [⟨0, 0, .ro, 0⟩]⟩,
  ⟨0x601000, 0x8000, 2, 0x20, 64, 1, [(0, 64)], [⟨31, 31, .ro, 0⟩, ⟨30, 28, .ro, 0⟩, ⟨27, 26, .ro, 1⟩, ⟨25, 25, .ro, 0⟩, ⟨24, 24, .ro, 0⟩, ⟨23, 20, .ro, 0⟩, ⟨19, 16, .ro, 0⟩, ⟨15, 14, .ro, 0⟩]⟩,
  ⟨0x601004, 0x8000, 2, 0x20, 64, 1, [(0, 64)], [⟨31, 16, .ro, 0⟩, ⟨15, 0, .ro, 0⟩]⟩,
  ⟨0x601008, 0x8000, 2, 0x20, 64, 1, [(0, 64)], [⟨31, 16, .ro, 0⟩, ⟨15, 0, .ro, 0⟩]⟩,
  ⟨0x60100c, 0x8000, 2, 0x20, 64, 1, [(0, 64)], [⟨31, 16, .ro, 0x9c4⟩, ⟨15, 0, .ro, 0⟩]⟩,
  ⟨0x601010, 0x8000, 2, 0x20, 64, 1, [(0, 64)], [⟨31, 0, .ro, 0⟩]⟩,
  ⟨0x601014, 0x8000, 2, 0x20, 64, 1, [(0, 64)], [⟨31, 16, .rc, 0⟩, ⟨15, 0, .rc, 0⟩]⟩,
  ⟨0x601018, 0x8000, 2, 0x20, 64, 1, [(0, 64)], [⟨31, 16, .rc, 0⟩, ⟨15, 0, .ro, 0⟩]⟩]

/-- The LUM words with their fields, access codes and values after power-on. -/
def wordsLum1 : List WordSpec := [
  ⟨0x700000, 0x8000, 2, 0x1000000, 1, 1, [(0, 1)], [⟨31, 31, .ro, 0⟩, ⟨30, 29, .ro, 0⟩, ⟨28, 25, .ro, 8⟩, ⟨24, 24, .ro, 0⟩, ⟨23, 23, .ro, 0⟩, ⟨15, 0, .ro, 0⟩]⟩,
  ⟨0x700004, 0x8000, 2, 0x1000000, 1, 1, [(0, 1)], [⟨31, 0, .ro, 0x1000000⟩]⟩,
  ⟨0x700008, 0x8000, 2, 0x1000000, 1, 1, [(0, 1)], [⟨31, 0, .ro, 0x14140000⟩]⟩,
  ⟨0x70000c, 0x8000, 2, 0x1000000, 1, 1, [(0, 1)], [⟨31, 0, .ro, 0⟩]⟩,
  ⟨0x700010, 0x8000, 2, 0x1000000, 1, 1, [(0, 1)], [⟨31, 0, .ro, 0⟩]⟩,
  ⟨0x700014, 0x8000, 2, 0x1000000, 1, 1, [(0, 1)], [⟨31, 16, .rc, 0⟩, ⟨15, 0, .rc, 0⟩]⟩,
  ⟨0x700018, 0x8000, 2, 0x1000000, 1, 1, [(0, 1)], [⟨31, 0, .rc, 0⟩]⟩,
  ⟨0x70001c, 0x8000, 2, 0x1000000, 1, 1, [(0, 1)], [⟨31, 0, .rc, 0⟩]⟩,
  ⟨0x700020, 0x8000, 2, 0x1000000, 1, 1, [(0, 1)], [⟨3, 3, .rs, 0⟩, ⟨2, 2, .rs, 0⟩, ⟨1, 1, .rs, 0⟩, ⟨0, 0, .rs, 0⟩]⟩,
  ⟨0x700100, 0x8000, 2, 0x40, 4, 1, [(0, 4)], [⟨31, 31, .ro, 0⟩, ⟨30, 30, .ro, 0⟩, ⟨29, 27, .ro, 0⟩, ⟨26, 26, .ro, 0⟩, ⟨25, 25, .ro, 0⟩, ⟨24, 24, .ro, 0⟩, ⟨15, 0, .ro, 0⟩]⟩,
  ⟨0x700104, 0x8000, 2, 0x40, 4, 1, [(0, 4)], [⟨31, 16, .ro, 0⟩, ⟨15, 0, .ro, 0⟩]⟩,
  ⟨0x700108, 0x8000, 2, 0x40, 4, 1, [(0, 4)], [⟨31, 16, .ro, 0x8000⟩, ⟨15, 0, .ro, 0x8000⟩]⟩]

/-- The LUM words with their fields, access codes and values after power-on. -/
def wordsLum2 : List WordSpec := [
  ⟨0x70010c, 0x8000, 2, 0x40, 4, 1, [(0, 4)], [⟨31, 16, .ro, 0⟩, ⟨15, 0, .ro, 0⟩]⟩,
  ⟨0x700110, 0x8000, 2, 0x40, 4, 1, [(0, 4)], [⟨31, 0, .ro, 0x10fffffc⟩]⟩,
  ⟨0x700114, 0x8000, 2, 0x40, 4, 1, [(0, 4)], [⟨31, 0, .ro, 0x46286b58⟩]⟩,
  ⟨0x700118, 0x8000, 2, 0x40, 4, 1, [(0, 4)], [⟨31, 0, .ro, 0⟩]⟩,
  ⟨0x70011c, 0x8000, 2, 0x40, 4, 1, [(0, 4)], [⟨31, 0, .ro, 0⟩]⟩,
  ⟨0x700120, 0x8000, 2, 0x40, 4, 1, [(0, 4)], [⟨2, 0, .ro, 0⟩, ⟨5, 3, .ro, 0⟩, ⟨8, 6, .ro, 0⟩, ⟨11, 9, .ro, 0⟩, ⟨14, 12, .ro, 0⟩, ⟨17, 15, .ro, 0⟩, ⟨20, 18, .ro, 0⟩, ⟨23, 21, .ro, 0⟩, ⟨26, 24, .ro, 0⟩, ⟨29, 27, .ro, 0⟩]⟩,
  ⟨0x700124, 0x8000, 2, 0x40, 4, 1, [(0, 4)], [⟨31, 16, .ro, 0⟩, ⟨15, 0, .ro, 0⟩]⟩,
  ⟨0x700128, 0x8000, 2, 0x40, 4, 1, [(0, 4)], [⟨31, 16, .ro, 0⟩, ⟨15, 0, .ro, 0⟩]⟩,
  ⟨0x70012c, 0x8000, 2, 0x40, 4, 1, [(0, 4)], [⟨31, 16, .ro, 0⟩, ⟨15, 0, .ro, 0⟩]⟩,
  ⟨0x700130, 0x8000, 2, 0x40, 4, 1, [(0, 4)], [⟨31, 16, .ro, 0⟩, ⟨15, 0, .ro, 0⟩]⟩,
  ⟨0x700134, 0x8000, 2, 0x40, 4, 1, [(0, 4)], [⟨31, 16, .ro, 0⟩, ⟨15, 0, .ro, 0⟩]⟩,
  ⟨0x700138, 0x8000, 2, 0x40, 4, 1, [(0, 4)], [⟨31, 16, .rc, 0⟩, ⟨15, 0, .rc, 0⟩]⟩]

/-- The LUM words with their fields, access codes and values after power-on.  DESIGN CHOICE where the manual gives no
number (assumption 1): LUM.S_HOURS.HOURS 0. -/
def wordsLum3 : List WordSpec := [
  ⟨0x70013c, 0x8000, 2, 0x40, 4, 1, [(0, 4)], [⟨31, 0, .ro, 0⟩]⟩]

/-- The SADC words with their fields, access codes and values after power-on.  DESIGN CHOICE where the manual gives no
number (assumption 1): SADC.TRIM.OFFSET 0, SADC.TRIM.GAIN 0. -/
def wordsSadc1 : List WordSpec := [
  ⟨0x780000, 0x1000000, 1, 0x1000000, 1, 1, [(0, 1)], [⟨31, 31, .ro, 0⟩, ⟨30, 30, .ro, 0⟩, ⟨29, 29, .ro, 0⟩, ⟨28, 28, .ro, 0⟩, ⟨27, 23, .ro, 0⟩, ⟨22, 15, .ro, 0⟩, ⟨6, 0, .ro, 0⟩]⟩,
  ⟨0x780004, 0x1000000, 1, 0x1000000, 1, 1, [(0, 1)], [⟨31, 0, .ro, 0x419000⟩]⟩,
  ⟨0x780008, 0x1000000, 1, 0x1000000, 1, 1, [(0, 1)], [⟨15, 8, .ro, 0⟩, ⟨7, 0, .ro, 0⟩]⟩,
  ⟨0x78000c, 0x1000000, 1, 0x1000000, 1, 1, [(0, 1)], [⟨2, 2, .rs, 0⟩, ⟨1, 1, .rs, 0⟩, ⟨0, 0, .rs, 0⟩]⟩,
  ⟨0x780010, 0x1000000, 1, 0x1000000, 1, 1, [(0, 1)], [⟨31, 16, .rc, 0⟩, ⟨15, 0, .rc, 0⟩]⟩,
  ⟨0x780014, 0x1000000, 1, 0x1000000, 1, 1, [(0, 1)], [⟨31, 16, .rc, 0⟩, ⟨15, 0, .rc, 0⟩]⟩,
  ⟨0x780018, 0x1000000, 1, 0x1000000, 1, 1, [(0, 1)], [⟨15, 0, .rc, 0⟩]⟩,
  ⟨0x78001c, 0x1000000, 1, 0x1000000, 1, 1, [(0, 1)], [⟨31, 0, .rc, 0⟩]⟩,
  ⟨0x780020, 0x1000000, 1, 0x1000000, 1, 1, [(0, 1)], [⟨31, 0, .rc, 0⟩]⟩,
  ⟨0x780024, 0x1000000, 1, 0x1000000, 1, 1, [(0, 1)], [⟨15, 8, .ro, 0⟩, ⟨7, 0, .rs, 0⟩]⟩,
  ⟨0x780040, 0x1000000, 1, 0x8, 8, 1, [(0, 8)], [⟨31, 0, .ro, 0x20004000⟩]⟩,
  ⟨0x780044, 0x1000000, 1, 0x8, 8, 1, [(0, 8)], [⟨31, 0, .ro, 0x7fff8000⟩]⟩]

/-- The SADC words with their fields, access codes and values after power-on. -/
def wordsSadc2 : List WordSpec := [
  ⟨0x780100, 0x1000000, 1, 0x4, 32, 1, [(0, 32)], [⟨31, 0, .ro, 0⟩]⟩,
  ⟨0x780180, 0x1000000, 1, 0x4, 32, 1, [(0, 32)], [⟨31, 0, .ro, 0xfd800000⟩]⟩]

/-- The THM words with their fields, access codes and values after power-on.  DESIGN CHOICE where the manual gives no
number (assumption 1): THM.STATE.HOTTEST 0x9c4, THM.DIE.TEMP 0x9c4, THM.DIE_AGE.AGE 0, THM.SENSOR.TEMP 0x9c4. -/
def wordsThm1 : List WordSpec := [
  ⟨0x7c0000, 0x1000000, 1, 0x1000000, 1, 1, [(0, 1)], [⟨28, 28, .ro, 0⟩, ⟨27, 26, .ro, 0⟩, ⟨25, 25, .ro, 0⟩, ⟨24, 24, .ro, 0⟩, ⟨15, 0, .ro, 0x9c4⟩]⟩,
  ⟨0x7c0004, 0x1000000, 1, 0x1000000, 1, 1, [(0, 1)], [⟨31, 24, .ro, 0x6e⟩, ⟨23, 16, .ro, 0x76⟩, ⟨15, 8, .ro, 0x7d⟩]⟩,
  ⟨0x7c0008, 0x1000000, 1, 0x1000000, 1, 1, [(0, 1)], [⟨31, 0, .ro, 0x918982ff⟩]⟩,
  ⟨0x7c000c, 0x1000000, 1, 0x1000000, 1, 1, [(0, 1)], [⟨3, 3, .rs, 0⟩, ⟨2, 2, .rs, 0⟩, ⟨1, 1, .rs, 0⟩, ⟨0, 0, .rs, 0⟩]⟩,
  ⟨0x7c0010, 0x1000000, 1, 0x1000000, 1, 1, [(0, 1)], [⟨31, 16, .rc, 0⟩, ⟨15, 0, .rc, 0⟩]⟩,
  ⟨0x7c0014, 0x1000000, 1, 0x1000000, 1, 1, [(0, 1)], [⟨31, 0, .rc, 0⟩]⟩,
  ⟨0x7c0018, 0x1000000, 1, 0x1000000, 1, 1, [(0, 1)], [⟨31, 0, .rc, 0⟩]⟩,
  ⟨0x7c001c, 0x1000000, 1, 0x1000000, 1, 1, [(0, 1)], [⟨4, 4, .rs, 0⟩, ⟨3, 3, .rs, 0⟩, ⟨2, 2, .rs, 0⟩, ⟨1, 1, .rs, 0⟩, ⟨0, 0, .rs, 0⟩]⟩,
  ⟨0x7c0020, 0x1000000, 1, 0x1000000, 1, 1, [(0, 1)], [⟨7, 0, .ro, 0⟩]⟩,
  ⟨0x7c0100, 0x1000000, 1, 0x10, 8, 1, [(0, 2), (4, 5), (6, 7)], [⟨31, 30, .ro, 0⟩, ⟨29, 28, .ro, 0⟩, ⟨27, 24, .ro, 0⟩, ⟨15, 0, .ro, 0x9c4⟩]⟩,
  ⟨0x7c0104, 0x1000000, 1, 0x10, 8, 1, [(0, 2), (4, 5), (6, 7)], [⟨15, 0, .ro, 0⟩]⟩,
  ⟨0x7c0200, 0x1000000, 1, 0x4, 24, 1, [(0, 8), (16, 18), (20, 22)], [⟨31, 31, .ro, 0⟩, ⟨15, 0, .ro, 0x9c4⟩]⟩]

/-- The THM words with their fields, access codes and values after power-on.  DESIGN CHOICE where the manual gives no
number (assumption 1): THM.DDR_MARGIN.READ_EYE 0, THM.DDR_MARGIN.WRITE_EYE 0. -/
def wordsThm2 : List WordSpec := [
  ⟨0x7c0300, 0x1000000, 1, 0x4, 4, 1, [(0, 2)], [⟨15, 8, .ro, 0⟩, ⟨7, 0, .ro, 0⟩]⟩]

/-- The NVS words with their fields, access codes and values after power-on.  DESIGN CHOICE where the manual gives no
number (assumption 1): NVS.STATE.KEYS 0, NVS.ACCESS.UNLOCK_N 0, NVS.ACCESS.PW_WRITE 0, NVS.ACCESS.PW_READ 0,
NVS.ACCESS.UNLOCK_WRITE 0xf, NVS.ACCESS.UNLOCK_READ 0xf, NVS.SECTORS.FREE 0x200, NVS.SECTORS.RETIRED 0,
NVS.ERASE_MAX.ERASE_MAX 0, NVS.INDEX_TIME.US 0x1388. -/
def wordsNvs1 : List WordSpec := [
  ⟨0x800000, 0x1000000, 1, 0x1000000, 1, 1, [(0, 1)], [⟨31, 31, .ro, 1⟩, ⟨30, 30, .ro, 0⟩, ⟨29, 29, .ro, 0⟩, ⟨28, 24, .ro, 0⟩, ⟨13, 0, .ro, 0⟩]⟩,
  ⟨0x800004, 0x1000000, 1, 0x1000000, 1, 1, [(0, 1)], [⟨23, 16, .ro, 0⟩, ⟨15, 12, .ro, 0⟩, ⟨11, 8, .ro, 0⟩, ⟨7, 4, .ro, 0xf⟩, ⟨3, 0, .ro, 0xf⟩]⟩,
  ⟨0x800008, 0x1000000, 1, 0x1000000, 1, 1, [(0, 1)], [⟨25, 16, .ro, 0x200⟩, ⟨9, 0, .ro, 0⟩]⟩,
  ⟨0x80000c, 0x1000000, 1, 0x1000000, 1, 1, [(0, 1)], [⟨31, 0, .ro, 0⟩]⟩,
  ⟨0x800010, 0x1000000, 1, 0x1000000, 1, 1, [(0, 1)], [⟨31, 0, .rc, 0⟩]⟩,
  ⟨0x800014, 0x1000000, 1, 0x1000000, 1, 1, [(0, 1)], [⟨31, 0, .rc, 0⟩]⟩,
  ⟨0x800018, 0x1000000, 1, 0x1000000, 1, 1, [(0, 1)], [⟨31, 0, .rc, 0⟩]⟩,
  ⟨0x80001c, 0x1000000, 1, 0x1000000, 1, 1, [(0, 1)], [⟨17, 16, .ro, 0⟩, ⟨15, 0, .ro, 0⟩]⟩,
  ⟨0x800020, 0x1000000, 1, 0x1000000, 1, 1, [(0, 1)], [⟨31, 16, .rc, 0⟩, ⟨15, 0, .rc, 0⟩]⟩,
  ⟨0x800024, 0x1000000, 1, 0x1000000, 1, 1, [(0, 1)], [⟨5, 5, .rs, 0⟩, ⟨4, 4, .rs, 0⟩, ⟨3, 3, .rs, 0⟩, ⟨2, 2, .rs, 0⟩, ⟨1, 1, .rs, 0⟩, ⟨0, 0, .rs, 0⟩]⟩,
  ⟨0x800028, 0x1000000, 1, 0x1000000, 1, 1, [(0, 1)], [⟨15, 0, .ro, 0x1388⟩]⟩]

/-- The SEC words with their fields, access codes and values after power-on.  DESIGN CHOICE where the manual gives no
number (assumption 1): SEC.UID_LO.UID 0, SEC.UID_HI.UID 0, SEC.KEYS.COUNT 0, SEC.KEYS.SLOTS_N 0xff, SEC.KEYS.SLOTS 0,
SEC.STATE.IMAGE_SIGNER 0xe. -/
def wordsSec1 : List WordSpec := [
  ⟨0x880000, 0x1000000, 1, 0x1000000, 1, 1, [(0, 1)], [⟨31, 0, .ro, 0⟩]⟩,
  ⟨0x880004, 0x1000000, 1, 0x1000000, 1, 1, [(0, 1)], [⟨31, 0, .ro, 0⟩]⟩,
  ⟨0x880008, 0x1000000, 1, 0x1000000, 1, 1, [(0, 1)], [⟨26, 16, .ro, 0⟩, ⟨15, 8, .ro, 0xff⟩, ⟨7, 0, .ro, 0⟩]⟩,
  ⟨0x88000c, 0x1000000, 1, 0x1000000, 1, 1, [(0, 1)], [⟨7, 4, .ro, 0xe⟩, ⟨3, 3, .ro, 0⟩, ⟨2, 2, .ro, 0⟩]⟩,
  ⟨0x880010, 0x1000000, 1, 0x1000000, 1, 1, [(0, 1)], [⟨31, 16, .rc, 0⟩, ⟨15, 0, .rc, 0⟩]⟩,
  ⟨0x880014, 0x1000000, 1, 0x1000000, 1, 1, [(0, 1)], [⟨31, 0, .ro, 0⟩]⟩,
  ⟨0x880018, 0x1000000, 1, 0x1000000, 1, 1, [(0, 1)], [⟨2, 2, .rs, 0⟩, ⟨1, 1, .rs, 0⟩, ⟨0, 0, .rs, 0⟩]⟩]

/-- The LNK words with their fields, access codes and values after power-on.  DESIGN CHOICE where the manual gives no
number (assumption 1): LNK.ETH0_ADDR.IPV4 0xa9fe0100, LNK.ETH1_ADDR.IPV4 0xa9fe0101, LNK.PORT.VGD_UP 0,
LNK.PORT.ETH_UP 0. -/
def wordsLnk1 : List WordSpec := [
  ⟨0x900000, 0x1000000, 1, 0x1000000, 1, 1, [(0, 1)], [⟨31, 31, .ro, 0⟩, ⟨17, 0, .ro, 0⟩]⟩,
  ⟨0x900004, 0x1000000, 1, 0x1000000, 1, 1, [(0, 1)], [⟨31, 0, .ro, 0xa9fe0100⟩]⟩,
  ⟨0x900008, 0x1000000, 1, 0x1000000, 1, 1, [(0, 1)], [⟨31, 0, .ro, 0xa9fe0101⟩]⟩,
  ⟨0x90000c, 0x1000000, 1, 0x1000000, 1, 1, [(0, 1)], [⟨31, 30, .ro, 0⟩, ⟨29, 28, .ro, 0⟩, ⟨27, 26, .ro, 0⟩, ⟨25, 24, .ro, 0⟩, ⟨23, 22, .ro, 3⟩, ⟨21, 19, .ro, 0⟩, ⟨18, 15, .ro, 0xf⟩]⟩,
  ⟨0x900010, 0x1000000, 1, 0x1000000, 1, 1, [(0, 1)], [⟨31, 0, .ro, 0xde00ff00⟩]⟩,
  ⟨0x900014, 0x1000000, 1, 0x1000000, 1, 1, [(0, 1)], [⟨31, 0, .ro, 0⟩]⟩,
  ⟨0x900018, 0x1000000, 1, 0x1000000, 1, 1, [(0, 1)], [⟨31, 0, .ro, 0⟩]⟩,
  ⟨0x90001c, 0x1000000, 1, 0x1000000, 1, 1, [(0, 1)], [⟨31, 0, .ro, 0⟩]⟩,
  ⟨0x900020, 0x1000000, 1, 0x1000000, 1, 1, [(0, 1)], [⟨31, 0, .ro, 0⟩]⟩,
  ⟨0x900024, 0x1000000, 1, 0x1000000, 1, 1, [(0, 1)], [⟨31, 0, .ro, 0⟩]⟩,
  ⟨0x900028, 0x1000000, 1, 0x1000000, 1, 1, [(0, 1)], [⟨31, 0, .ro, 0⟩]⟩,
  ⟨0x90002c, 0x1000000, 1, 0x1000000, 1, 1, [(0, 1)], [⟨31, 0, .ro, 0⟩]⟩]

/-- The LNK words with their fields, access codes and values after power-on. -/
def wordsLnk2 : List WordSpec := [
  ⟨0x900030, 0x1000000, 1, 0x1000000, 1, 1, [(0, 1)], [⟨31, 0, .ro, 0⟩]⟩,
  ⟨0x900034, 0x1000000, 1, 0x1000000, 1, 1, [(0, 1)], [⟨31, 0, .ro, 0⟩]⟩,
  ⟨0x900040, 0x1000000, 1, 0x1000000, 1, 1, [(0, 1)], [⟨31, 16, .rc, 0⟩, ⟨15, 0, .rc, 0⟩]⟩,
  ⟨0x900044, 0x1000000, 1, 0x1000000, 1, 1, [(0, 1)], [⟨15, 0, .ro, 0⟩]⟩,
  ⟨0x900048, 0x1000000, 1, 0x1000000, 1, 1, [(0, 1)], [⟨31, 16, .ro, 0⟩]⟩,
  ⟨0x90004c, 0x1000000, 1, 0x1000000, 1, 1, [(0, 1)], [⟨31, 0, .ro, 0⟩]⟩,
  ⟨0x900050, 0x1000000, 1, 0x1000000, 1, 1, [(0, 1)], [⟨31, 16, .rc, 0⟩, ⟨15, 0, .rc, 0⟩]⟩,
  ⟨0x900054, 0x1000000, 1, 0x1000000, 1, 1, [(0, 1)], [⟨31, 16, .rc, 0⟩, ⟨6, 0, .ro, 0⟩]⟩,
  ⟨0x900058, 0x1000000, 1, 0x1000000, 1, 1, [(0, 1)], [⟨31, 16, .rc, 0⟩, ⟨15, 0, .rc, 0⟩]⟩,
  ⟨0x90005c, 0x1000000, 1, 0x1000000, 1, 1, [(0, 1)], [⟨31, 16, .rc, 0⟩, ⟨15, 0, .rc, 0⟩]⟩,
  ⟨0x900060, 0x1000000, 1, 0x1000000, 1, 1, [(0, 1)], [⟨5, 5, .rs, 0⟩, ⟨4, 4, .rs, 0⟩, ⟨3, 3, .rs, 0⟩, ⟨2, 2, .rs, 0⟩, ⟨1, 1, .rs, 0⟩, ⟨0, 0, .rs, 0⟩]⟩,
  ⟨0x900064, 0x1000000, 1, 0x1000000, 1, 1, [(0, 1)], [⟨7, 0, .ro, 0⟩]⟩]

/-- The INT words with their fields, access codes and values after power-on. -/
def wordsInt1 : List WordSpec := [
  ⟨0xa00000, 0x1000000, 1, 0x1000000, 1, 1, [(0, 1)], [⟨3, 2, .ro, 0⟩, ⟨1, 1, .ro, 0⟩, ⟨0, 0, .ro, 0⟩]⟩,
  ⟨0xa00004, 0x1000000, 1, 0x1000000, 1, 1, [(0, 1)], [⟨31, 0, .rc, 0⟩]⟩,
  ⟨0xa00008, 0x1000000, 1, 0x1000000, 1, 1, [(0, 1)], [⟨31, 0, .ro, 0⟩]⟩,
  ⟨0xa0000c, 0x1000000, 1, 0x1000000, 1, 1, [(0, 1)], [⟨31, 0, .rc, 0⟩]⟩,
  ⟨0xa00010, 0x1000000, 1, 0x1000000, 1, 1, [(0, 1)], [⟨7, 0, .rs, 0⟩]⟩,
  ⟨0xa00014, 0x1000000, 1, 0x1000000, 1, 1, [(0, 1)], [⟨31, 0, .rc, 0⟩]⟩,
  ⟨0xa00018, 0x1000000, 1, 0x1000000, 1, 1, [(0, 1)], [⟨1, 1, .rs, 0⟩, ⟨0, 0, .rs, 0⟩]⟩]

/-- The ID words with their fields, access codes and values after power-on. -/
def wordsId2 : List WordSpec := [
  ⟨0x4, 0x1000000, 1, 0x1000000, 1, 1, [(0, 1)], [⟨15, 0, .ro, 0xb10⟩]⟩,
  ⟨0x8, 0x1000000, 1, 0x1000000, 1, 1, [(0, 1)], [⟨15, 0, .ro, 1⟩]⟩]

/-- The INT words with their fields, access codes and values after power-on. -/
def wordsInt2 : List WordSpec := [
  ⟨0xa00100, 0x1000000, 1, 0x1000000, 1, 1, [(0, 1)], [⟨31, 0, .ro, 0⟩]⟩,
  ⟨0xa00104, 0x1000000, 1, 0x1000000, 1, 1, [(0, 1)], [⟨31, 0, .ro, 0⟩]⟩,
  ⟨0xa00108, 0x1000000, 1, 0x1000000, 1, 1, [(0, 1)], [⟨31, 0, .rc, 0⟩]⟩,
  ⟨0xa0010c, 0x1000000, 1, 0x1000000, 1, 1, [(0, 1)], [⟨31, 0, .rc, 0⟩]⟩]

/-- Every assigned word of the status space but the event ring, whose words are those of the log (R438). -/
def statusWords : List WordSpec :=
  wordsId1 ++ wordsPwr1 ++ wordsClk1 ++ wordsRst1 ++ wordsLcs1 ++ wordsFpd1 ++ wordsAlg1 ++ wordsAlg2 ++ wordsCsn1 ++ wordsCor1 ++ wordsVel1 ++ wordsCal1 ++ wordsCam1 ++ wordsCam2 ++ wordsStc1 ++ wordsStc2 ++ wordsIsa1 ++ wordsEjt1 ++ wordsEjt2 ++ wordsLum1 ++ wordsLum2 ++ wordsLum3 ++ wordsSadc1 ++ wordsSadc2 ++ wordsThm1 ++ wordsThm2 ++ wordsNvs1 ++ wordsSec1 ++ wordsLnk1 ++ wordsLnk2 ++ wordsInt1 ++ wordsId2 ++ wordsInt2

/-- The indices of the member of `w` at address `a`. -/
def WordSpec.index? (w : WordSpec) (a : Nat) : Option (Nat × Nat) :=
  if a < w.base then none
  else
    let r := (a - w.base) % w.s1
    if (a - w.base) / w.s1 < w.n1 && r % w.s2 = 0 && r / w.s2 < w.n2 then
      some ((a - w.base) / w.s1, r / w.s2)
    else none

/-- The family that holds address `a`, with the member's indices. -/
def findWord (a : Nat) : List WordSpec → Option (WordSpec × Nat × Nat)
  | [] => none
  | w :: ws =>
    match w.index? a with
    | some (i, j) => some (w, i, j)
    | none => findWord a ws

/-- Does the member exist on the option (R17)? -/
def WordSpec.present (opt : Opt) (w : WordSpec) (i j : Nat) : Bool :=
  match opt with
  | .zt8 => true
  | .zt4 => decide (i < w.i4) && w.j4.any fun r => decide (r.1 ≤ j) && decide (j < r.2)

/-- The value of a list of fields after power-on, as one word. -/
def fieldsReset (fs : List FieldSpec) : Word :=
  fs.foldl (fun a f => a ||| (BitVec.ofNat 32 f.reset <<< f.lo)) 0

/-- Words whose value after power-on differs between members or options: LSYNC_MODE of FD0 alone (Table 5.8), the
string and hurdle numbers in the records in force, the engine assignment (R228), and Table 0.2. -/
def resetOverride (opt : Opt) (a : Nat) (dflt : Word) : Word :=
  if a = F.fpdState 0 then dflt
  else if a = F.fpdState 1 then dflt &&& 0xFCFFFFFF
  else if F.algEngState 0 ≤ a && a < 0x201800 then
    let l := (a - F.algEngState 0) / 0x20
    let phys := if opt = .zt8 ∨ l < 24 then 8 + l else l - 24
    dflt ||| (BitVec.ofNat 32 phys <<< 24)
  else if F.sadcHCfg0 0 ≤ a && a < 0x780080 && a % 8 = 0 then
    dflt ||| (BitVec.ofNat 32 ((a - F.sadcHCfg0 0) / 8) <<< 25)
  else if 0x700110 ≤ a && a < 0x710000 && a % 0x40 = 0x10 then
    dflt ||| (BitVec.ofNat 32 (((a % 0x8000) - 0x110) / 0x40) <<< 26)
  else match opt with
    | .zt8 => dflt
    | .zt4 =>
      if a = F.idPart then 0x5A54B140
      else if a = F.pwrState then dflt &&& 0xFFFFFFF7
      else if a = F.rstDie then 0x53
      else if a = F.rstBoot then (dflt &&& 0xFFFF) ||| (5900 <<< 16)
      else if a = F.stcLink then 0x1493
      else if a = F.stcCluster then 0x3FF
      else if a = F.stcAlongOk1 || a = F.stcAlongOk2 then 0
      else dflt

/-- The value of the word at `a` after power-on; zero at an unassigned address or for an absent die (R17, R260). -/
def statusDefault (opt : Opt) (a : Nat) : Word :=
  match findWord a statusWords with
  | none => 0
  | some (w, i, j) => if w.present opt i j then resetOverride opt a (fieldsReset w.fields) else 0

/-- The mask of bits `hi` to `lo` of a word. -/
def bitMask (hi lo : Nat) : Word := BitVec.ofNat 32 (2 ^ (hi + 1 - lo) - 1) <<< lo

/-- The fields of the word at `a` on the option (none where the word is unassigned or absent). -/
def fieldsAt (opt : Opt) (a : Nat) : List FieldSpec :=
  match findWord a statusWords with
  | none => []
  | some (w, i, j) => if w.present opt i j then w.fields else []

/-- Is the word at `a` assigned and present? -/
def assigned (opt : Opt) (a : Nat) : Bool :=
  match findWord a statusWords with
  | none => false
  | some (w, i, j) => w.present opt i j

/-- The bits an EVT.CLR with mask `m` clears in a word with fields `fs`: each RS or RC field the mask touches, whole
(R443). -/
def clearedBits (fs : List FieldSpec) (m : Word) : Word :=
  fs.foldl (fun a f =>
    if f.acc ≠ .ro ∧ m &&& bitMask f.hi f.lo ≠ 0 then a ||| bitMask f.hi f.lo else a) 0

/-- The bits of the RS and RC fields of a word (R87). -/
def stickyBits (fs : List FieldSpec) : Word := clearedBits fs 0xFFFFFFFF

end Sys2Proof.Machine
end

