-- ==== Sys2Proof/Machine/State.lean ====
section
/-!
DEFINITION. The state of the block as plain data, why a step can stop, and the state after power-on.
-/

namespace Sys2Proof.Machine

/-- Why a step faults.  The device reports every fault of its own in its state (exceptions, completion codes, status
fields, events), so no meaning answers with a fault. -/
inductive Fault where
  /-- Raised by no meaning; safe. -/
  | none
deriving DecidableEq, Repr

/-- Why a command is refused. -/
inductive Refusal where
  /-- Raised by an arm of `exec` whose command has no meaning yet; safe. -/
  | notModelled (mnemonic : String)
  /-- Raised by the meaning of a Stride instruction with an operand that the loader refuses (check 0x03, R263, R270), so
  that no instruction memory ever holds it; safe. -/
  | illFormed (mnemonic : String)
deriving DecidableEq, Repr

/-- The state of the block.  `status` holds the words of the status space that have been written,
by rising address; `statusBad` the words that fail parity (R425); `latches` the HI words latched per reader (R442).
`tick` counts cycles of the supervisor's oscillator, `periph` PERIPH cycles, `time` is device time (R12); `timeOn` says
device time has started (R69). -/
structure State where
  opt : Opt
  mode : Mode
  time : Nat
  timeOn : Bool
  tick : Nat
  periph : Nat
  free : Nat
  pins : Pins
  power : PowerPart
  clock : TimePart
  boot : BootPart
  freeze : FreezePart
  jtag : JtagPart
  status : List (Nat × Word)
  statusBad : List Nat
  latches : List (Nat × Nat × Word)
  ev : EventPart
  units : Vector ExUnit 30
  mem : List Host.Cell
  memBad : List Nat
  backing : List (Nat × Nat)
  xfers : List Xfer
  msgs : Vector (List Msg) 2
  links : Vector Link 16
  ddr : Vector DdrChan 4
  focal : Vector FocalDie 2
  grid : GridPart
  corr : CorrPart
  engines : Vector Engine 64
  bands : Vector Band 16
  fused : FusedPart
  csn : Vector CsnEngine 2
  cal : CalPart
  ejt : EjtPart
  nvs : NvsPart
  lum : Vector LumDie 2
  cam : CamPart
  sadc : SadcPart
  thm : ThmPart
  net : NetPart
  sec : SecPart
  pending : List Instr
deriving DecidableEq, Repr

/-- The device at its first instruction after power-on, on the reference option, 6.5 ms after the release of reset
(Table 4.2), with the reset event just raised (R96); assumptions 1 and 2. -/
def State.reset : State :=
  { opt := .zt8, mode := .running, time := 6500000, timeOn := true, tick := 0, periph := 0, free := 0, pins := Pins.reset,
    power := PowerPart.reset, clock := TimePart.reset, boot := BootPart.reset, freeze := FreezePart.reset,
    jtag := JtagPart.reset .zt8, status := [], statusBad := [], latches := [], ev := { EventPart.reset with queue := [⟨0x0201, 0, 0, 1, 6500000⟩] },
    units := Vector.replicate 30 ExUnit.reset, mem := [], memBad := [], backing := [], xfers := [],
    msgs := Vector.replicate 2 [], links := Vector.replicate 16 Link.reset,
    ddr := Vector.replicate 4 DdrChan.reset, focal := Vector.ofFn FocalDie.reset, grid := GridPart.reset,
    corr := CorrPart.reset, engines := Vector.replicate 64 Engine.reset, bands := Vector.replicate 16 Band.reset,
    fused := FusedPart.reset, csn := Vector.replicate 2 CsnEngine.reset, cal := CalPart.reset, ejt := EjtPart.reset,
    nvs := NvsPart.reset, lum := Vector.replicate 2 (LumDie.reset 0), cam := CamPart.reset, sadc := SadcPart.reset, thm := ThmPart.reset, net := NetPart.reset,
    sec := SecPart.reset,
    pending := [] }

end Sys2Proof.Machine
end

