-- ==== Sys2Proof/Machine/Ops.lean ====
section
/-!
DEFINITION. The named operations over the state: status fields, events, memory, execution units and their tags, the
links between dies, and taking an exception.
-/

namespace Sys2Proof.Machine

/-! ### Numbers -/

/-- The unsigned number held by bits [hi:lo] of a word. -/
def bits (w : Word) (hi lo : Nat) : Nat := w.toNat / 2 ^ lo % 2 ^ (hi + 1 - lo)

/-- One bit of a word. -/
def bit (w : Word) (i : Nat) : Bool := w.getLsbD i

/-- Is a number in a range? -/
def inR (lo x hi : Nat) : Bool := decide (lo ≤ x) && decide (x ≤ hi)

/-- The low `n` bits of an integer, as a number. -/
def enc (n : Nat) (x : Int) : Nat := (x % (2 ^ n : Nat)).toNat

/-- The two's-complement reading of an `n`-bit number. -/
def dec (n : Nat) (x : Nat) : Int :=
  if x % 2 ^ n < 2 ^ (n - 1) then ((x % 2 ^ n : Nat) : Int) else ((x % 2 ^ n : Nat) : Int) - ((2 ^ n : Nat) : Int)

/-- Limit an integer to [lo, hi]. -/
def clampI (lo hi x : Int) : Int := max lo (min hi x)

/-- Shift right by `n`, rounding half up. -/
def rshr (n : Nat) (x : Int) : Int := (x + (2 ^ n / 2 : Nat)) / ((2 ^ n : Nat) : Int)

/-- Change one entry of a vector. -/
def vmod {α : Type} {n : Nat} (v : Vector α n) (i : Fin n) (f : α → α) : Vector α n := v.set i (f v[i])

/-- The entry of a list at `i`, or a value of the caller's. -/
def nth {α : Type} (d : α) : List α → Nat → α
  | [], _ => d
  | x :: _, 0 => x
  | _ :: xs, n + 1 => nth d xs n

/-! ### The status space -/

/-- The value listed at an address. -/
def lookupW : List (Nat × Word) → Nat → Option Word
  | [], _ => none
  | (b, x) :: t, a => if a = b then some x else lookupW t a

/-- List a value at an address, keeping addresses rising. -/
def insertW (a : Nat) (w : Word) : List (Nat × Word) → List (Nat × Word)
  | [] => [(a, w)]
  | (b, x) :: t => if a < b then (a, w) :: (b, x) :: t else if a = b then (a, w) :: t else (b, x) :: insertW a w t

/-- The word of the status space at `a` as its subsystem holds it (R438). -/
def State.word (s : State) (a : Nat) : Word := (lookupW s.status a).getD (statusDefault s.opt a)

/-- Set the word at `a`. -/
def State.setWord (a : Nat) (w : Word) (s : State) : State := { s with status := insertW a w s.status }

/-- Read a field. -/
def getF (f : Fld) (s : State) : Nat := bits (s.word f.addr) f.hi f.lo

/-- A word with one field replaced. -/
def putBits (w : Word) (hi lo v : Nat) : Word :=
  (w &&& ~~~ bitMask hi lo) ||| (BitVec.ofNat 32 (v % 2 ^ (hi + 1 - lo)) <<< lo)

/-- Set a field. -/
def setF (f : Fld) (v : Nat) (s : State) : State := s.setWord f.addr (putBits (s.word f.addr) f.hi f.lo v)

/-- Does a one-bit field read 1? -/
def flag (f : Fld) (s : State) : Bool := getF f s ≠ 0

/-- The largest value of a field. -/
def topF (f : Fld) : Nat := 2 ^ (f.hi + 1 - f.lo) - 1

/-- Count `n` times in a saturating field (R16, R445). -/
def bumpBy (f : Fld) (n : Nat) (s : State) : State := setF f (min (topF f) (getF f s + n)) s

/-- Count once. -/
def bump (f : Fld) (s : State) : State := bumpBy f 1 s

/-- One bit of a field. -/
def flagAt (f : Fld) (i : Nat) (s : State) : Bool := (getF f s).testBit i

/-- Set or clear one bit of a field. -/
def setAt (f : Fld) (i : Nat) (b : Bool) (s : State) : State :=
  let v := getF f s
  setF f (if v.testBit i = b then v else if b then v + 2 ^ i else v - 2 ^ i) s

/-- 1 for true. -/
def b2n (b : Bool) : Nat := if b then 1 else 0

/-! ### Events (R446–R449) -/

/-- Raise an event: its record sets out for the hub (R447). -/
def raise (code kind index detail : Nat) (s : State) : State :=
  { s with ev := { s.ev with queue := s.ev.queue ++ [⟨code, kind, index, detail, s.time⟩] } }

/-- PERIPH cycles in one second. -/
def secondCycles : Nat := 100000000

/-- Device time `ns` ago, at most 6 µs (R144, R338): what it departed from 10 ns a cycle since then is taken back. -/
def timeAgo (ns : Nat) (s : State) : Nat :=
  enc 64 ((s.time : Int) - ns - ((s.clock.shifts.filter fun x => decide (10 * s.periph ≤ 10 * x.1 + ns)).map (·.2)).sum)

/-- Is an event that may enter once per second withheld for this subject (R449)?  A record still on its way counts as
entered. -/
def withheld (code kind index : Nat) (s : State) : Bool :=
  s.ev.queue.any (fun r => r.code = code && r.kind = kind && r.index = index) ||
    s.ev.marks.any fun m => m.code = code && m.kind = kind && m.index = index && decide (s.periph < m.at_ + secondCycles)

/-- Raise an event that may enter once per second per code and subject (R449). -/
def raiseLim (code kind index detail : Nat) (s : State) : State :=
  if withheld code kind index s then bump F.intEvtSuppressedSuppressed s else raise code kind index detail s

/-- Count a complement mismatch of kind `k` of Table 20.1 (R423). -/
def complementFail (k : Nat) (s : State) : State :=
  setAt F.intComplementSeenKind k true (bump F.intComplementMismatches s)

/-! ### Memory -/

/-- The byte at an address of the model's one address space; an unlisted byte is zero (R83, R84; assumption 4). -/
def readB : List Host.Cell → Nat → Byte
  | [], _ => 0
  | (b, x) :: t, a => if a = b then x else readB t a

/-- Write a byte, keeping the list's addresses rising and free of zeros. -/
def writeB (a : Nat) (v : Byte) : List Host.Cell → List Host.Cell
  | [] => if v = 0 then [] else [(a, v)]
  | (b, x) :: t =>
    if a < b then (if v = 0 then (b, x) :: t else (a, v) :: (b, x) :: t)
    else if a = b then (if v = 0 then t else (a, v) :: t)
    else (b, x) :: writeB a v t

/-- The canonical form: addresses strictly rising, no entry zero. -/
def Memory.wf : List Host.Cell → Bool
  | [] => true
  | [(_, x)] => x ≠ 0
  | (a, x) :: (b, y) :: t => x ≠ 0 && decide (a < b) && Memory.wf ((b, y) :: t)

/-- Read `n` bytes from `a`. -/
def readBytes (m : List Host.Cell) (a : Nat) : Nat → List Byte
  | 0 => []
  | n + 1 => readB m a :: readBytes m (a + 1) n

/-- Write bytes from `a`. -/
def writeBytes (a : Nat) : List Byte → List Host.Cell → List Host.Cell
  | [], m => m
  | b :: bs, m => writeBytes (a + 1) bs (writeB a b m)

/-- The little-endian bytes of a word (R8). -/
def wordBytes (w : Word) : List Byte :=
  [w.setWidth 8, (w >>> 8).setWidth 8, (w >>> 16).setWidth 8, (w >>> 24).setWidth 8]

/-- The word at a byte address, low byte first (R8). -/
def readW (m : List Host.Cell) (a : Nat) : Word :=
  (readB m (a + 3)) ++ (readB m (a + 2)) ++ (readB m (a + 1)) ++ (readB m a)

/-- Read `n` words from `a`. -/
def readWords (m : List Host.Cell) (a : Nat) : Nat → List Word
  | 0 => []
  | n + 1 => readW m a :: readWords m (a + 4) n

/-- Write words from `a`. -/
def writeWords (a : Nat) : List Word → List Host.Cell → List Host.Cell
  | [], m => m
  | w :: ws, m => writeWords (a + 4) ws (writeBytes a (wordBytes w) m)

/-- Words of a little-endian byte string, a last partial word filled with zeros. -/
def toWords : List Byte → List Word
  | a :: b :: c :: d :: t => (d ++ c ++ b ++ a) :: toWords t
  | [] => []
  | [a] => [(0 : Byte) ++ (0 : Byte) ++ (0 : Byte) ++ a]
  | [a, b] => [(0 : Byte) ++ (0 : Byte) ++ b ++ a]
  | [a, b, c] => [(0 : Byte) ++ c ++ b ++ a]

/-- Bytes of a list of words. -/
def toBytes (ws : List Word) : List Byte := ws.flatMap wordBytes

/-- Where a unit's cluster store or hub data memory begins in the model's address space. -/
def storeBase (u : UnitId) : Nat := u.val * 2 ^ 20

/-- The size of a unit's cluster store (R222) or hub data memory (R226). -/
def storeSize (u : UnitId) : Nat := if u.val < 26 then 524288 else 262144

/-- Where a DDR5 channel begins in the model's address space. -/
def ddrBase (c : Fin 4) : Nat := 2 ^ 40 + c.val * 2 ^ 36

/-- Insert a value into a list sorted by `le`. -/
def insertSorted {α : Type} (le : α → α → Bool) (x : α) : List α → List α
  | [] => [x]
  | y :: t => if le x y then x :: y :: t else y :: insertSorted le x t

/-- A list in the order of `le`. -/
def sortBy {α : Type} (le : α → α → Bool) (l : List α) : List α := l.foldr (insertSorted le) []

/-- Does the word at a word-aligned address fail parity? -/
def badAt (a : Nat) (s : State) : Bool := s.memBad.contains a

/-- Write words with good parity; the pages of the unit's store they touch are no longer DDR-backed (R234). -/
def storeWords (a : Nat) (ws : List Word) (s : State) : State :=
  { s with
    mem := writeWords a ws s.mem
    memBad := s.memBad.filter fun b => !(decide (a ≤ b) && decide (b < a + 4 * ws.length))
    backing := s.backing.filter fun p => !(decide (a < p.1 + 4096) && decide (p.1 < a + 4 * ws.length)) }

/-- Mark words as failing parity. -/
def markBad (as : List Nat) (s : State) : State :=
  { s with memBad := as ++ s.memBad.filter fun b => !as.contains b }

/-- The word addresses of `n` words from `a`. -/
def wordAddrs (a : Nat) : Nat → List Nat
  | 0 => []
  | n + 1 => a :: wordAddrs (a + 4) n

/-- The value listed for a key. -/
def assoc {α : Type} : List (Nat × α) → Nat → Option α
  | [], _ => none
  | (k, x) :: t, a => if k = a then some x else assoc t a

/-- List a value for a key. -/
def assocSet {α : Type} (a : Nat) (x : α) : List (Nat × α) → List (Nat × α)
  | [] => [(a, x)]
  | (k, y) :: t => if k = a then (a, x) :: t else (k, y) :: assocSet a x t

/-! ### Dies and links -/

/-- Is the die present on the option (Table 0.1)?  Dies are numbered as RST.DIE numbers them. -/
def diePresent (opt : Opt) (d : Nat) : Bool :=
  match opt with
  | .zt8 => d < 8
  | .zt4 => d = 0 || d = 1 || d = 4 || d = 6

/-- Is the die running (RST.DIE.DIE_UP)? -/
def dieUp (d : Nat) (s : State) : Bool := flagAt F.rstDieDieUp d s

/-- The die of an execution unit (R223). -/
def dieOf (u : UnitId) : Nat :=
  if u.val < 2 then 0 else if u.val < 10 then 1 else if u.val < 18 then 2 else if u.val < 26 then 3 else 0

/-- Is the unit present on the option? -/
def unitPresent (opt : Opt) (u : UnitId) : Bool := diePresent opt (dieOf u)

def isHub (u : UnitId) : Bool := 26 ≤ u.val

/-- The ends of a baton link (Table 10.2); `none` where the option lacks it. -/
def linkEnds (opt : Opt) (l : Nat) : Option (Nat × Nat) :=
  match opt with
  | .zt8 => nth none [some (4, 1), some (4, 2), some (5, 2), some (5, 3), some (0, 1), some (0, 2), some (0, 3),
      some (1, 2), some (2, 3), some (1, 3), some (0, 6), some (0, 7), some (1, 6), some (3, 7), some (2, 6),
      some (2, 7)] l
  | .zt4 => nth none [some (4, 1), some (4, 1), none, none, some (0, 1), none, none, some (0, 1), none, none,
      some (0, 6), none, some (1, 6)] l

/-- The second paths of a link, in order of preference (Table 10.2). -/
def secondPaths (opt : Opt) (l : Nat) : List (List Nat) :=
  match opt with
  | .zt8 => nth [] [[], [], [], [], [[5, 7], [6, 9]], [[4, 7], [6, 8]], [[5, 8], [4, 9]], [[9, 8], [4, 5]],
      [[7, 9], [5, 6]], [[7, 8], [4, 6]], [[4, 12], [5, 14]], [[6, 13], [5, 15]], [[7, 14], [4, 10]],
      [[8, 15], [6, 11]], [[7, 12], [5, 10]], [[8, 13], [5, 11]]] l
  | .zt4 => nth [] [[], [], [], [], [[7]], [], [], [[4]], [], [], [[4, 12], [7, 12]], [], [[4, 10], [7, 10]]] l

/-- Is the link trained, not fatal, and between two running dies? -/
def linkUp (l : Nat) (s : State) : Bool :=
  match linkEnds s.opt l with
  | none => false
  | some (a, b) => flagAt F.stcLinkUp l s && dieUp a s && dieUp b s

/-- The first second path of a link whose links all work (R232). -/
def secondPath (l : Nat) (s : State) : Option (List Nat) :=
  (secondPaths s.opt l).find? fun p => p.all fun k => linkUp k s

/-- Does the link carry its traffic, on itself or on a second path? -/
def linkOk (l : Nat) (s : State) : Bool := linkUp l s || (secondPath l s).isSome

/-- The links between two dies: the lowest-numbered direct link, or the two-link path of Table 10.8 (R471). -/
def route (opt : Opt) (a b : Nat) : Option (List Nat) :=
  let (a, b) := (min a b, max a b)
  if a = b then some []
  else
    match (List.range 16).find? fun l => linkEnds opt l = some (a, b) || linkEnds opt l = some (b, a) with
    | some l => some [l]
    | none =>
      match opt with
      | .zt8 =>
        if (a, b) = (0, 4) then some [4, 0] else if (a, b) = (0, 5) then some [5, 2]
        else if (a, b) = (1, 5) then some [7, 2] else if (a, b) = (3, 4) then some [9, 0]
        else if (a, b) = (1, 7) then some [7, 15] else if (a, b) = (3, 6) then some [8, 14]
        else if (a, b) = (6, 7) then some [10, 11] else if (a, b) = (4, 6) then some [0, 12]
        else if (a, b) = (4, 7) then some [1, 15] else if (a, b) = (5, 6) then some [2, 14]
        else if (a, b) = (5, 7) then some [3, 13] else if (a, b) = (4, 5) then some [1, 2] else none
      | .zt4 => if (a, b) = (0, 4) then some [4, 0] else if (a, b) = (4, 6) then some [0, 12] else none

/-- Can traffic pass from die `a` to die `b` (R232, R471, R472)? -/
def reach (a b : Nat) (s : State) : Bool :=
  dieUp a s && dieUp b s &&
    match route s.opt a b with
    | none => false
    | some p => p.all fun l => linkOk l s

/-- The die of the product-line assembler (R169). -/
def asmDie (opt : Opt) : Nat :=
  match opt with
  | .zt8 => 2
  | .zt4 => 1

/-- Does the hub move the link's traffic to a second path at this moment (R232)? -/
def linkMoving (l : Nat) (s : State) : Bool :=
  (s.links.toList[l]?).any (·.moving) && !linkUp l s && (secondPath l s).isSome

/-- Do the senders hold what goes between two dies, while a link of its path is moved (R232)? -/
def held (a b : Nat) (s : State) : Bool := ((route s.opt a b).getD []).any fun l => linkMoving l s

/-- Does traffic pass between two dies now? -/
def passes (a b : Nat) (s : State) : Bool := reach a b s && !held a b s

/-! ### When things run -/

/-- Are the clocks running: released from reset and not frozen? -/
def clocked (s : State) : Bool :=
  s.freeze.since.isNone &&
    match s.mode with
    | .boot | .running | .entering _ | .standby | .park | .exiting _ => true
    | _ => false

/-- Is the device past its first instruction and not frozen? -/
def live (s : State) : Bool :=
  s.freeze.since.isNone &&
    match s.mode with
    | .running | .entering _ | .standby | .park | .exiting _ => true
    | _ => false

/-- Is the device running (R90: the sorting path runs until the entry to STANDBY or PARK completes)? -/
def sorting (s : State) : Bool :=
  s.freeze.since.isNone &&
    match s.mode with
    | .running | .entering _ => true
    | _ => false

/-- Do the clusters run: on the sorting path, and from 100 µs into the exit from STANDBY or PARK (R90, R91, Table 4.4)? -/
def clustersOn (s : State) : Bool :=
  s.freeze.since.isNone &&
    match s.mode with
    | .running | .entering _ => true
    | .exiting _ => s.power.leaveStage = 2
    | _ => false

/-- Is the starting block at work? -/
def booting (s : State) : Bool := s.freeze.since.isNone && s.mode = .boot

/-- Can the unit issue: present, its die up, code running or handling, and not stopped (R90, R254, R354)? -/
def canIssue (u : UnitId) (s : State) : Bool :=
  (if isHub u then live s else clustersOn s && !flag F.thmStateShutdown s) && unitPresent s.opt u && dieUp (dieOf u) s &&
    (getF (F.isaUStateState u) s = 1 || getF (F.isaUStateState u) s = 2)

/-! ### ALONG engines -/

/-- Logical ALONG engines of the option (R121). -/
def engCount (opt : Opt) : Nat :=
  match opt with
  | .zt8 => 64
  | .zt4 => 32

/-- Velocity bands of the option (R161). -/
def bandCount (opt : Opt) : Nat := engCount opt / 4

/-- The die of a physical ALONG engine (Table 6.7, PHYS). -/
def physDie (p : Nat) : Nat := if p < 8 then 0 else if p < 32 then 1 else if p < 56 then 2 else 3

/-- The die of the physical engine behind a logical engine. -/
def engDie (l : Nat) (s : State) : Nat := physDie (getF (F.algEngStatePhys l) s)

/-- Is there a physical engine behind the logical engine (R228)? -/
def engPlaced (l : Nat) (s : State) : Bool := decide (l < engCount s.opt) && !s.boot.engMissing.contains l

/-- Is the logical engine running (R122)? -/
def engRunning (l : Nat) (s : State) : Bool := engPlaced l s && dieUp (engDie l s) s

/-- Logical engines at work (ALG.STATE.ENGINES): running, with the pacer of their focal die while the device sorts (DESIGN CHOICE:
R145 says "running" and leaves open whether an engine whose die converts nothing runs; assumption 120). -/
def enginesAtWork (s : State) : Nat :=
  (List.range 64).countP fun l => engRunning l s && sorting s && flag (F.fpdStateRun (l / 32)) s

/-! ### Execution units -/

/-- Change one unit. -/
def modU (u : UnitId) (f : ExUnit → ExUnit) (s : State) : State := { s with units := vmod s.units u f }

/-- The words of a unit's instruction memory (R222, R226). -/
def codeSize (u : UnitId) : Nat := if isHub u then 32768 else 16384

/-- An instruction retires, and the unit goes on at a word address, which wraps in the instruction memory (R286, R419). -/
def setPc (u : UnitId) (a : Nat) (s : State) : State :=
  modU u (fun e => { e with pc := a % codeSize u, ranAt := some s.periph }) s

/-- Go on after an instruction of one word, or of two (`wide`, R268). -/
def advance (u : UnitId) (wide : Bool) (s : State) : State :=
  setPc u (s.units[u].pc + (if wide then 2 else 1)) s

/-- Tags in BUSY (ISA.U_STATE.BUSY). -/
def busyTags (e : ExUnit) : List Tag := (List.finRange 256).filter fun t => e.tags[t] = .busy

/-- Set a tag. -/
def setTag (u : UnitId) (t : Tag) (x : TagState) (s : State) : State :=
  modU u (fun e => { e with tags := e.tags.set t x }) s

/-- A BUSY tag leaves BUSY with a completion code; a non-zero one counts in TAG_ERR (R245, R255). -/
def finishTag (u : UnitId) (t : Tag) (code : Nat) (s : State) : State :=
  let s := modU u (fun e => { e with tags := e.tags.set t (if code = 0 then .doneOk else .doneErr code)
                                     fence := e.fence.filter (· ≠ t) }) s
  if code = 0 then s else bump (F.isaUCountTagErr u) s

/-- Does an earlier FENCE hold tagged and EVENT instructions back (R248)? -/
def fenceHeld (u : UnitId) (s : State) : Bool := s.units[u].fence.any fun t => s.units[u].tags[t] = .busy

/-! ### Taking an exception (R252–R254) -/

/-- Take a precise exception of cause `c` at the unit's pc, whose instruction is `wide`.  A FENCE holds it as it holds
an instruction issued after it (R248). -/
def takeExc (u : UnitId) (c : Nat) (wide : Bool) (s : State) : State :=
  if fenceHeld u s then s
  else
    let pc := s.units[u].pc
    let st := getF (F.isaUStateState u) s
    let s := setF (F.isaUStateLastExc u) c s
    let s := setF (F.isaUExcPcPc u) pc s
    let s := bump (F.isaUCountExcCount u) s
    let s := setF F.isaFaultException 1 s
    let s := raise 0x2101 6 u (c + pc % 2 ^ 24 * 256) s
    match st, s.units[u].handler with
    | 1, some h =>
      modU u (fun e => { e with pc := h % codeSize u, retPc := (pc + (if wide then 2 else 1)) % codeSize u })
        (setF (F.isaUStateState u) 2 s)
    | _, _ => raise 0x2102 6 u 0 (setF (F.isaUStateState u) 3 s)

/-- RETX (R287): inside the handler, resume after the faulting instruction; elsewhere no effect but its own issue. -/
def returnExc (u : UnitId) (s : State) : State :=
  if getF (F.isaUStateState u) s = 2 then setPc u s.units[u].retPc (setF (F.isaUStateState u) 1 s) else advance u false s

/-- The instruction classes (Table 12.2). -/
inductive Cls where
  | scalar | vector | mac | ldst | vldst | stream | event | tag | control | stat | sys
deriving DecidableEq, Repr

/-- Does a unit execute the class (Table 12.2)?  SYS is not a cluster's. -/
def executes (u : UnitId) : Cls → Bool
  | .vector | .mac | .vldst | .stream => !isHub u
  | .sys => isHub u
  | _ => true

/-- Does a FENCE hold the class back (R248)? -/
def fenced : Cls → Bool
  | .ldst | .vldst | .stream | .event => true
  | _ => false

/-- A register that an instruction reads or writes. -/
inductive RegRef where
  | s (n : Reg)
  | v (n : Reg)
deriving DecidableEq, Repr

/-- The odd member of a register pair (R270). -/
def regSucc (n : Reg) : Reg := n + 1

/-- The registers a LOAD in flight will write. -/
def MemKind.dests : MemKind → List RegRef
  | .ld _ _ d => [.s d]
  | .ldD d => [.s d, .s (regSucc d)]
  | .ldV d => [.v d]
  | .st _ _ => []

/-- Is one of the registers awaited by a pending LOAD (R244)?  s0 discards what is written to it. -/
def awaited (u : UnitId) (rs : List RegRef) (s : State) : Bool :=
  s.units[u].ops.any fun o => o.kind.dests.any fun r => r ≠ .s 0 && rs.contains r

/-- Is the address the immediate word of a 64-bit instruction of the placed code (R268, R286)? -/
def immWord : List Word → Nat → Bool
  | [], _ => false
  | _ :: _, 0 => false
  | w :: t, n + 1 =>
    if w.getLsbD 0 then
      match t, n with
      | [], _ => false
      | _ :: _, 0 => true
      | _ :: t', m + 1 => immWord t' m
    else immWord t n

/-- Does the instruction at the pc fail parity on fetch (EXC_FETCH)? -/
def fetchBad (u : UnitId) (wide : Bool) (s : State) : Bool :=
  let e := s.units[u]
  e.codeBad.contains e.pc || (wide && e.codeBad.contains ((e.pc + 1) % codeSize u))

/-- Does the pc lie past the code the loader placed (Table 11.1)? -/
def pastEnd (u : UnitId) (s : State) : Bool :=
  let e := s.units[u]
  !e.code.isEmpty && decide (e.code.length ≤ e.pc)

/-- Issue an instruction of a class, of one word or two (`wide`), that reads or writes `rs`: it stalls behind pending
LOADs of those registers (R244) and, where the class is tagged or EVENT, behind a FENCE (R248); it raises EXC_DECODE
past the placed code, where a zero word of one instruction word stands, and where the unit does not execute the class or `bad`
holds, and EXC_FETCH (R253 puts the lower code first); else it acts. -/
def issue (u : UnitId) (c : Cls) (wide : Bool) (rs : List RegRef) (bad : Bool) (act : State → State) (s : State) :
    State :=
  if !canIssue u s then s
  else if awaited u rs s then s
  else if pastEnd u s then takeExc u 1 false s
  else if !executes u c || bad then takeExc u 1 wide s
  else if fetchBad u wide s then takeExc u 2 wide s
  else if fenced c && fenceHeld u s then s
  else act s

end Sys2Proof.Machine
end

