-- ==== Sys2Proof/Machine/CodeCheck.lean ====
section
/-!
DEFINITION. The form of an instruction word: the checks of its class, its codes and its reserved fields, as the loader makes them
(check 0x03) and the decoder (R9, R268–R271, R277, R281, R288, Tables 12.1–12.17).
-/

namespace Sys2Proof.Machine

/-- May a STREAM name the endpoint code in the direction (Table 10.5, R277)? -/
def epDir (ep : Nat) (out : Bool) : Bool :=
  if ep ≤ 0x19 || (0x20 ≤ ep && ep ≤ 0x23) || ep = 0x78 || ep = 0x7C then true
  else if out then
    [0x30, 0x31, 0x38, 0x39, 0x3C, 0x3D, 0x40, 0x42, 0x43, 0x48, 0x50, 0x51, 0x52, 0x53, 0x54, 0x55, 0x60, 0x61, 0x68,
      0x69, 0x70, 0x74].contains ep
  else [0x28, 0x32, 0x33, 0x3A, 0x3E, 0x3F, 0x41, 0x71].contains ep

/-! ### Instruction words (check 0x03) -/

/-- An instruction of placed code: its word address, word 0, and its immediate word where X = 1 (R268). -/
structure CodeAt where
  addr : Nat
  w : Word
  imm : Option Word
deriving DecidableEq, Repr

/-- The instructions of a code section from address `n`; `none` where an immediate word is missing. -/
def codeList (n : Nat) : List Word → Option (List CodeAt)
  | [] => some []
  | w :: t =>
    if w.getLsbD 0 then
      match t with
      | [] => none
      | i :: t' => (codeList (n + 2) t').map fun l => ⟨n, w, some i⟩ :: l
    else (codeList (n + 1) t).map fun l => ⟨n, w, none⟩ :: l

/-- The class of an instruction (R268). -/
def classOf (w : Word) : Nat := bits w 31 26

/-- Are B and the predicate fields of the general layout well formed (Table 12.1)?  `pred` says the class knows a predicate. -/
def generalOk (pred : Bool) (c : CodeAt) : Bool :=
  (c.imm.isNone || bits c.w 9 5 = 0) && (if bit c.w 1 then pred else bits c.w 4 2 = 0)

def evenField (w : Word) (hi lo : Nat) : Bool := bits w hi lo % 2 = 0

/-- A shift constant has no bit of [31:5] (R271). -/
def shiftImmOk (c : CodeAt) : Bool := match c.imm with | some i => decide (i.toNat < 32) | none => true

/-- SCALAR (Table 12.4). -/
def scalarOk (c : CodeAt) : Bool :=
  let op := bits c.w 25 20
  generalOk false c && decide (op ≤ 0x12) && op ≠ 0x0F && (!(op = 0x0E || op = 0x12) || bits c.w 14 10 = 0) &&
    (op < 0x10 || (evenField c.w 19 15 && evenField c.w 14 10 && evenField c.w 9 5)) &&
    (!(5 ≤ op && op ≤ 7) || shiftImmOk c)

/-- VECTOR (R273, Table 12.5). -/
def vectorOk (c : CodeAt) : Bool :=
  let s := bit c.w 25
  let op := bits c.w 24 20
  let noB := !s && c.imm.isNone && bits c.w 9 5 = 0
  generalOk true c && !(s && c.imm.isSome) && op ≠ 0x0F && op ≠ 0x16 && op ≠ 0x17 &&
    (!(op = 0x0A || op = 0x0C || op = 0x0E || op = 0x1F) || noB) &&
    (op ≠ 0x0B || bits c.w 14 10 = 0) && (op ≠ 0x0D || s || c.imm.isSome) &&
    (op < 0x10 || op = 0x1F || bits c.w 19 18 = 0) && (op ≠ 0x1F || bits c.w 14 13 = 0) &&
    (op ≠ 0x1E || (!s && c.imm.isNone)) && (op < 0x1E || !bit c.w 1) && (!(5 ≤ op && op ≤ 7) || shiftImmOk c)

/-- MAC (Table 12.6). -/
def macOk (c : CodeAt) : Bool := generalOk true c && !(bit c.w 25 && c.imm.isSome) && decide (bits c.w 24 20 ≤ 5)

/-- A tag field of the unit (R270). -/
def tagFieldOk (hub : Bool) (t : Nat) : Bool := !hub || decide (t < 16)

/-- LOAD/STORE (Tables 12.7, 12.8). -/
def ldstOk (hub : Bool) (c : CodeAt) : Bool :=
  let op := bits c.w 23 20
  (op ≤ 5 || (8 ≤ op && op ≤ 13)) && (!(op = 1 || op = 9) || evenField c.w 19 15) &&
    (if bit c.w 1 then bits c.w 9 2 = 0 else tagFieldOk hub (bits c.w 9 2))

/-- STREAM (Table 12.9, R239, R277). -/
def streamOk (hub : Bool) (c : CodeAt) : Bool :=
  match c.imm with
  | none => false
  | some i => tagFieldOk hub (bits c.w 20 13) && epDir (bits c.w 12 6) (bit c.w 25) && (!bit i 14 || bits i 8 0 = 0)

/-- EVENT (Table 12.10, R270). -/
def eventOk (c : CodeAt) : Bool :=
  let op := bits c.w 25 20
  let a := bits c.w 14 10
  let noB := c.imm.isNone && bits c.w 9 5 = 0
  generalOk false c && bits c.w 19 15 = 0 && decide (op ≤ 6) &&
    (if op ≤ 1 then a % 4 = 0 && inR 4 a 24 && noB else if op = 2 then true else a = 0 && (op ≠ 5 || noB))

/-- TAG (Table 12.14). -/
def tagClassOk (hub : Bool) (c : CodeAt) : Bool :=
  match bits c.w 25 20 with
  | 0 =>
    let t1 := bits c.w 19 12
    let t2 := bits c.w 11 4
    bits c.w 1 0 = 0 &&
      (match bits c.w 3 2 with
      | 0 => tagFieldOk hub t1 && t2 = 0
      | 1 => tagFieldOk hub t2 && decide (t1 ≤ t2)
      | 2 => t1 = 0 && t2 = 0
      | _ => false)
  | 1 => bits c.w 19 0 = 0
  | 2 => bits c.w 6 0 = 0 && tagFieldOk hub (bits c.w 14 7)
  | _ => false

/-- CONTROL (Tables 12.15, 12.16). -/
def controlOk (c : CodeAt) : Bool :=
  let op := bits c.w 25 22
  let a := bits c.w 21 17
  let b := bits c.w 16 11
  (c.imm.isNone || bits c.w 10 1 = 0) &&
    (if op ≤ 5 then true
    else if op ≤ 7 then a = 0 && b = 0
    else if op = 8 then bits c.w 16 0 = 0
    else if op ≤ 10 then bits c.w 21 0 = 0
    else op = 11 && b = 0)

/-- STAT (R288). -/
def statOk (c : CodeAt) : Bool := generalOk false c && decide (bits c.w 25 20 ≤ 1) && bits c.w 9 5 = 0

/-- SYS stands in hub code alone (Tables 12.2, 12.17). -/
def sysOk (hub : Bool) (c : CodeAt) : Bool :=
  let op := bits c.w 25 20
  hub && generalOk false c && decide (op ≤ 6) && bits c.w 19 10 = 0 &&
    (!(1 ≤ op && op ≤ 4) || (c.imm.isNone && bits c.w 9 5 = 0))

/-- Does an instruction pass check 0x03? -/
def instrOk (hub : Bool) (c : CodeAt) : Bool :=
  match classOf c.w with
  | 1 => scalarOk c
  | 2 => vectorOk c
  | 3 => macOk c
  | 4 => ldstOk hub c
  | 5 => streamOk hub c
  | 6 => eventOk c
  | 7 => tagClassOk hub c
  | 8 => controlOk c
  | 9 => statOk c
  | 10 => sysOk hub c
  | _ => false

/-- Does a code section pass check 0x03? -/
def codeOk (hub : Bool) (ws : List Word) : Bool :=
  match codeList 0 ws with
  | none => false
  | some l => l.all (instrOk hub)

/-- The instructions of a section. -/
def instrsOf (ws : List Word) : List CodeAt := (codeList 0 ws).getD []

end Sys2Proof.Machine
end

