-- ==== Sys2Proof/Decode.lean ====
section
/-!
DEFINITION. The command that a word spells.  The table of operations and events gives no row any bits; a word of Stride code,
with its immediate word, spells the operation of a unit by the layouts of the spec (R268–R289, Tables 12.1–12.17).
-/

namespace Sys2Proof

/-! ### Stride code (R268, R269) -/

/-- Bits [hi:lo] of an instruction word. -/
def wordBits (w : Word) (hi lo : Nat) : Nat := w.toNat / 2 ^ lo % 2 ^ (hi + 1 - lo)

/-- Fields of the general layout (Table 12.1). -/
def wordOp (w : Word) : Nat := wordBits w 25 20
def wordD (w : Word) : Reg := Fin.ofNat 32 (wordBits w 19 15)
def wordA (w : Word) : Reg := Fin.ofNat 32 (wordBits w 14 10)
def wordB (w : Word) : Reg := Fin.ofNat 32 (wordBits w 9 5)

/-- The second source of SCALAR, EVENT and SYS. -/
def wordSrc (w : Word) (imm : Option Word) : Src := match imm with | some k => .imm k | none => .reg (wordB w)

/-- The second source of VECTOR and MAC (R273). -/
def wordVSrc (w : Word) (imm : Option Word) : VSrc :=
  match imm with
  | some k => .imm k
  | none => if w.getLsbD 25 then .scal (wordB w) else .vec (wordB w)

/-- PG where PE = 1. -/
def wordPred (w : Word) : Option Pred := if w.getLsbD 1 then some (Fin.ofNat 8 (wordBits w 4 2)) else none

/-- SCALAR (Table 12.4). -/
def scalarInstr (u : UnitId) (w : Word) (imm : Option Word) : Option Instr :=
  let d := wordD w
  let a := wordA w
  let b := wordSrc w imm
  match wordOp w with
  | 0x00 => some (.add u d a b)
  | 0x01 => some (.sub u d a b)
  | 0x02 => some (.and u d a b)
  | 0x03 => some (.or u d a b)
  | 0x04 => some (.xor u d a b)
  | 0x05 => some (.shl u d a b)
  | 0x06 => some (.shr u d a b)
  | 0x07 => some (.sra u d a b)
  | 0x08 => some (.mul u d a b)
  | 0x09 => some (.mulh u d a b)
  | 0x0A => some (.min u d a b)
  | 0x0B => some (.max u d a b)
  | 0x0C => some (.slt u d a b)
  | 0x0D => some (.sltu u d a b)
  | 0x0E => some (.mov u d b)
  | 0x10 => some (.addD u d a b)
  | 0x11 => some (.subD u d a b)
  | 0x12 => some (.movD u d b)
  | _ => none

/-- The second source of VEXT: a scalar register (S = 1) or a constant (R273). -/
def vextSrc (w : Word) (imm : Option Word) : Option Src :=
  match imm with
  | some k => some (.imm k)
  | none => if w.getLsbD 25 then some (.reg (wordB w)) else none

/-- The condition of VCMP and VCMPW, from OP[2:0]. -/
def wordCond (w : Word) : Option Cond := [Cond.eq, .ne, .lt, .le, .gt, .ge][wordBits w 22 20]?

/-- VECTOR (Table 12.5), by OP[4:0]. -/
def vectorInstr (u : UnitId) (w : Word) (imm : Option Word) : Option Instr :=
  let d := wordD w
  let a := wordA w
  let b := wordVSrc w imm
  let pg := wordPred w
  let pd : Pred := Fin.ofNat 8 d.val
  match wordBits w 24 20 with
  | 0x00 => some (.vadd u d a b pg)
  | 0x01 => some (.vsub u d a b pg)
  | 0x02 => some (.vand u d a b pg)
  | 0x03 => some (.vor u d a b pg)
  | 0x04 => some (.vxor u d a b pg)
  | 0x05 => some (.vshl u d a b pg)
  | 0x06 => some (.vshr u d a b pg)
  | 0x07 => some (.vsra u d a b pg)
  | 0x08 => some (.vmin u d a b pg)
  | 0x09 => some (.vmax u d a b pg)
  | 0x0A => some (.vabs u d a pg)
  | 0x0B => some (.vmov u d b pg)
  | 0x0C => some (.vval u d a pg)
  | 0x0D => (vextSrc w imm).map fun b => .vext u d a b pg
  | 0x0E => some (.vsum u d a pg)
  | 0x1E => some (.vflags u pd a (wordB w))
  | 0x1F => some (.pcount u d (Fin.ofNat 8 a.val))
  | n =>
    if 0x10 ≤ n ∧ n < 0x16 then (wordCond w).map fun c => .vcmp u c pd a b pg
    else if 0x18 ≤ n ∧ n < 0x1E then (wordCond w).map fun c => .vcmpw u c pd a b pg else none

/-- MAC (Table 12.6), by OP[4:0]. -/
def macInstr (u : UnitId) (w : Word) (imm : Option Word) : Option Instr :=
  let d := wordD w
  let a := wordA w
  let b := wordVSrc w imm
  let pg := wordPred w
  match wordBits w 24 20 with
  | 0 => some (.vmacH u d a b pg)
  | 1 => some (.vmacHs u d a b pg)
  | 2 => some (.vmacW u d a b pg)
  | 3 => some (.vmulW u d a b pg)
  | 4 => some (.vmulhW u d a b pg)
  | 5 => some (.vdotH u d a b pg)
  | _ => none

/-- LOAD/STORE (Tables 12.7, 12.8). -/
def ldstInstr (u : UnitId) (w : Word) (imm : Option Word) : Option Instr :=
  let d := wordD w
  let m : Addr := { const := imm, idx := wordA w, scale := Fin.ofNat 4 (wordBits w 25 24) }
  let t : TagSel := if w.getLsbD 1 then .auto else .named (Fin.ofNat 256 (wordBits w 9 2))
  match wordBits w 23 20 with
  | 0x0 => some (.load u d m t)
  | 0x1 => some (.loadD u d m t)
  | 0x2 => some (.loadH u d m t)
  | 0x3 => some (.loadB u d m t)
  | 0x4 => some (.loadHu u d m t)
  | 0x5 => some (.loadBu u d m t)
  | 0x8 => some (.store u d m t)
  | 0x9 => some (.storeD u d m t)
  | 0xA => some (.storeH u d m t)
  | 0xB => some (.storeB u d m t)
  | 0xC => some (.vload u d m t)
  | 0xD => some (.vstore u d m t)
  | _ => none

/-- STREAM, always of two words (Table 12.9). -/
def streamInstr (u : UnitId) (w : Word) (imm : Option Word) : Option Instr :=
  imm.map fun k =>
    let q : StreamOp :=
      { win := Fin.ofNat 16 (wordBits w 24 21), tag := Fin.ofNat 256 (wordBits w 20 13)
        ep := BitVec.ofNat 7 (wordBits w 12 6), a := Fin.ofNat 32 (wordBits w 5 1)
        offset := BitVec.ofNat 17 (wordBits k 31 15)
        len := if k.getLsbD 14 then .reg (Fin.ofNat 32 (wordBits k 13 9)) else .const (BitVec.ofNat 14 (wordBits k 13 0)) }
    if w.getLsbD 25 then .streamOut u q else .streamIn u q

/-- EVENT (Table 12.10); `v` is the value of the second operand, whose fields name the operation (Tables 8.3, 12.13). -/
def eventInstr (u : UnitId) (w : Word) (imm : Option Word) (v : Word) : Option Instr :=
  let b := wordSrc w imm
  match wordOp w with
  | 0 => some (.eject u (wordA w))
  | 1 => some (.latch u (wordA w))
  | 2 => some (.lamp u (wordA w) b)
  | 3 => some (if wordBits v 1 0 = 0 then .sadcStartSingle u b else if wordBits v 1 0 = 1 then .sadcStartContinuous u b
      else .sadcStartStop u b)
  | 4 => some (if wordBits v 27 26 = 0 then .calReqRun u b else if wordBits v 27 26 = 1 then .calReqCancel u b
      else .calReqGap u b)
  | 5 => some (.sync u)
  | 6 => some (if v.getLsbD 1 then .shutterOpen u b else .shutterClose u b)
  | _ => none

/-- TAG (Table 12.14). -/
def tagInstr (u : UnitId) (w : Word) : Option Instr :=
  let t1 : Tag := Fin.ofNat 256 (wordBits w 19 12)
  match wordOp w, wordBits w 3 2 with
  | 0, 0 => some (.wait u (.one t1))
  | 0, 1 => some (.wait u (.range t1 (Fin.ofNat 256 (wordBits w 11 4))))
  | 0, 2 => some (.wait u .all)
  | 1, _ => some (.fence u)
  | 2, _ => some (.tagstat u (wordD w) (Fin.ofNat 256 (wordBits w 14 7)))
  | _, _ => none

/-- CONTROL (Tables 12.15, 12.16). -/
def controlInstr (u : UnitId) (w : Word) (imm : Option Word) : Option Instr :=
  let a : Reg := Fin.ofNat 32 (wordBits w 21 17)
  let n := wordBits w 16 12
  let b : BSrc := if w.getLsbD 11 then .const (Fin.ofNat 32 n) else .reg (Fin.ofNat 32 n)
  let g : Target := match imm with
    | some k => .abs k
    | none => .off ((BitVec.ofNat 10 (wordBits w 10 1)).toInt)
  match wordBits w 25 22 with
  | 0x0 => some (.beq u a b g)
  | 0x1 => some (.bne u a b g)
  | 0x2 => some (.blt u a b g)
  | 0x3 => some (.bge u a b g)
  | 0x4 => some (.bltu u a b g)
  | 0x5 => some (.bgeu u a b g)
  | 0x6 => some (.jmp u g)
  | 0x7 => some (.call u g)
  | 0x8 => some (.jmpr u a)
  | 0x9 => some (.ret u)
  | 0xA => some (.retx u)
  | 0xB => some (.loop u a g)
  | _ => none

/-- STAT (R288). -/
def statInstr (u : UnitId) (w : Word) (imm : Option Word) : Option Instr :=
  match wordOp w with
  | 0 => some (.stat u (wordD w) (wordA w) imm)
  | 1 => some (.evtClr u (wordD w) (wordA w) imm)
  | _ => none

/-- SYS (Table 12.17); `v` is the value of the operand, whose KIND names the reset. -/
def sysInstr (u : UnitId) (w : Word) (imm : Option Word) (v : Word) : Option Instr :=
  let b := wordSrc w imm
  match wordOp w with
  | 0 => some (if wordBits v 1 0 = 1 then .sysResetDie u b else if wordBits v 1 0 = 2 then .sysResetCluster u b
      else .sysResetFull u b)
  | 1 => some (.sysFreeze u)
  | 2 => some (.sysStandby u)
  | 3 => some (.sysPark u)
  | 4 => some (.sysRun u)
  | 5 => some (.sysLifecycle u b)
  | 6 => some (.sysLoad u b)
  | _ => none

/-- The operation that word 0 `w` spells on unit `u`, with its immediate word where X = 1, by the class (R268).  `v` is the value
of its second operand. -/
def classInstr (u : UnitId) (w : Word) (imm : Option Word) (v : Word) : Option Instr :=
  match wordBits w 31 26 with
  | 0x01 => scalarInstr u w imm
  | 0x02 => vectorInstr u w imm
  | 0x03 => macInstr u w imm
  | 0x04 => ldstInstr u w imm
  | 0x05 => streamInstr u w imm
  | 0x06 => eventInstr u w imm v
  | 0x07 => tagInstr u w
  | 0x08 => controlInstr u w imm
  | 0x09 => statInstr u w imm
  | 0x0A => sysInstr u w imm v
  | _ => none

/-- The operation that word 0 `w` spells on unit `u`, with its immediate word where X = 1 (R268); `none` for a reserved class or
code (Table 12.2) and for a reserved field that is not zero (R9). -/
def strideInstr (u : UnitId) (w : Word) (imm : Option Word) (v : Word) : Option Instr :=
  if Machine.instrOk (Machine.isHub u) ⟨0, w, imm⟩ then classInstr u w imm v else none

/-- The command whose bits are `w`, of `nbits` bits: no row of the table has bits of its own, and an instruction word of 32 bits
(X = 0), or of 64 with its immediate word (X = 1), spells the operation of the first unit that can execute it, cluster 0 or, for
SYS, hub core 0. -/
def decodeTableWord (nbits w : Nat) : Option Instr :=
  let x : Word := BitVec.ofNat 32 w
  let imm : Option Word := if x.getLsbD 0 then some (BitVec.ofNat 32 (w / 2 ^ 32)) else none
  if nbits = 32 ∧ !x.getLsbD 0 ∨ nbits = 64 ∧ x.getLsbD 0 then
    strideInstr (if wordBits x 31 26 = 0x0A then 26 else 0) x imm (imm.getD 0)
  else none

end Sys2Proof
end

