-- ==== Sys2Proof/Machine/Operands.lean ====
section
/-!
DEFINITION. The operand forms of Stride instructions (R222, R268–R274): scalar registers and pairs, vectors,
predicates, second sources, addresses and branch targets.
-/

namespace Sys2Proof.Machine

/-- Read a scalar register; s0 reads zero (R222, R270). -/
def getS (u : UnitId) (n : Reg) (s : State) : Word := if n = 0 then 0 else s.units[u].s[n]

/-- Write a scalar register; a write to s0 is discarded (R222, R270). -/
def setS (u : UnitId) (n : Reg) (w : Word) (s : State) : State :=
  if n = 0 then s else modU u (fun e => { e with s := e.s.set n w }) s

/-- May the register name a pair: is it even (R270)? -/
def isPair (n : Reg) : Bool := n.val % 2 = 0

/-- Read the pair sn, sn+1, low word in sn (R270). -/
def getPair (u : UnitId) (n : Reg) (s : State) : BitVec 64 := pairOf (getS u n s) (getS u (regSucc n) s)

/-- Write the pair. -/
def setPair (u : UnitId) (n : Reg) (x : BitVec 64) (s : State) : State :=
  setS u (regSucc n) (hi32 x) (setS u n (lo32 x) s)

/-- Read a vector register. -/
def getV (u : UnitId) (n : Reg) (s : State) : Vector Word 32 := s.units[u].v[n]

/-- Write a vector register. -/
def setV (u : UnitId) (n : Reg) (x : Vector Word 32) (s : State) : State :=
  modU u (fun e => { e with v := e.v.set n x }) s

/-- Read a predicate. -/
def getP (u : UnitId) (n : Pred) (s : State) : BitVec 32 := s.units[u].p[n]

/-- Write a predicate. -/
def setP (u : UnitId) (n : Pred) (x : BitVec 32) (s : State) : State :=
  modU u (fun e => { e with p := e.p.set n x }) s

/-- Is the second source the immediate word (X = 1)? -/
def srcImm : Src → Bool
  | .reg _ => false
  | .imm _ => true

/-- The value of a second source (R271). -/
def srcVal (u : UnitId) (b : Src) (s : State) : Word :=
  match b with
  | .reg n => getS u n s
  | .imm w => w

/-- The value of a second source of a .D operation: a pair, or the immediate sign-extended (R271). -/
def srcPair (u : UnitId) (b : Src) (s : State) : BitVec 64 :=
  match b with
  | .reg n => getPair u n s
  | .imm w => w.signExtend 64

/-- The register a second source reads. -/
def srcRegs (b : Src) : List RegRef :=
  match b with
  | .reg n => [.s n]
  | .imm _ => []

/-- The registers of a pair. -/
def pairRegs (n : Reg) : List RegRef := [.s n, .s (regSucc n)]

/-- The registers of a second source of a .D operation. -/
def srcPairRegs (b : Src) : List RegRef :=
  match b with
  | .reg n => pairRegs n
  | .imm _ => []

/-- Is the second source of a .D operation well formed: an even register, or a constant (R270)? -/
def srcIsPair (b : Src) : Bool :=
  match b with
  | .reg n => isPair n
  | .imm _ => true

/-- Has a shift's second source no bit of [31:5] set as a constant (R271)? -/
def shiftOk (b : Src) : Bool :=
  match b with
  | .reg _ => true
  | .imm w => w.toNat < 32

/-- Is a vector second source the immediate word? -/
def vsrcImm : VSrc → Bool
  | .imm _ => true
  | _ => false

/-- Lane `k` of a vector second source (R273). -/
def vsrcLane (u : UnitId) (b : VSrc) (s : State) (k : Fin 32) : Word :=
  match b with
  | .vec n => (getV u n s)[k]
  | .scal n => getS u n s
  | .imm w => w

/-- The register a vector second source reads. -/
def vsrcRegs (b : VSrc) : List RegRef :=
  match b with
  | .vec n => [.v n]
  | .scal n => [.s n]
  | .imm _ => []

/-- The loader's rule for shift constants, over a vector source (R271). -/
def vshiftOk (b : VSrc) : Bool :=
  match b with
  | .imm w => w.toNat < 32
  | _ => true

/-- Does the governing predicate allow lane `k`: PE = 0, or its bit is 1 (R273)? -/
def allows (u : UnitId) (pg : Option Pred) (s : State) (k : Fin 32) : Bool :=
  match pg with
  | none => true
  | some p => (getP u p s).getLsbD k

/-- The index scale of a LOAD or STORE (Table 12.7). -/
def scaleOf (k : Fin 4) : Nat := if k = 0 then 1 else if k = 1 then 4 else if k = 2 then 16 else 128

/-- The byte address (constant + A × SCALE) modulo 2^32 (R274). -/
def addrVal (u : UnitId) (m : Addr) (s : State) : Nat :=
  ((m.const.getD 0).toNat + (getS u m.idx s).toNat * scaleOf m.scale) % 2 ^ 32

/-- Has the address an immediate word? -/
def addrImm (m : Addr) : Bool := m.const.isSome

/-- The second operand of a branch (Table 12.15). -/
def bsrcVal (u : UnitId) (b : BSrc) (s : State) : Word :=
  match b with
  | .reg n => getS u n s
  | .const k => BitVec.ofNat 32 k

/-- The register a branch's second operand reads. -/
def bsrcRegs (b : BSrc) : List RegRef :=
  match b with
  | .reg n => [.s n]
  | .const _ => []

/-- Is the target the immediate word? -/
def targetAbs : Target → Bool
  | .off _ => false
  | .abs _ => true

/-- Does the offset of a short branch fit OFF (Table 12.15)? -/
def targetOk (g : Target) : Bool :=
  match g with
  | .off k => decide (-512 ≤ k) && decide (k ≤ 511)
  | .abs _ => true

/-- The word address a branch goes to; addresses wrap in the instruction memory (R286, assumption 14). -/
def targetAddr (u : UnitId) (g : Target) (s : State) : Nat :=
  match g with
  | .off k => ((((s.units[u].pc : Nat) : Int) + k) % (codeSize u : Nat)).toNat
  | .abs w => w.toNat % codeSize u

/-- The address a register target names: its low 14 bits on a cluster, its low 15 bits on a hub core (R286). -/
def regTarget (u : UnitId) (w : Word) : Nat := w.toNat % codeSize u

/-- The base of a register block (R270). -/
def isBlock (n : Reg) : Bool := n.val % 4 = 0 && 4 ≤ n.val && n.val ≤ 24

/-- The eight registers of a block. -/
def blockRegs (n : Reg) : List Reg := (List.range 8).map fun k => n + Fin.ofNat 32 k

/-- The eight words of a block (R270, R280, R283). -/
def getBlock (u : UnitId) (n : Reg) (s : State) : List Word := (blockRegs n).map fun r => getS u r s

/-- Does the tag field name a tag the unit has (R270)? -/
def tagOk (u : UnitId) (t : Tag) : Bool := !isHub u || decide (t.val < 16)

/-- The address a STAT or EVT.CLR forms: constant + register, bits [1:0] ignored (R288). -/
def statAddr (u : UnitId) (a : Reg) (k : Option Word) (s : State) : Nat :=
  ((k.getD 0).toNat + (getS u a s).toNat) % 2 ^ 32 / 4 * 4

end Sys2Proof.Machine
end

