-- ==== Sys2Proof/Machine/Flags.lean ====
section
/-!
DEFINITION. What the device computes as truth values: compare conditions (Table 12.5, Table 12.16), the lane flags of a
product pixel (R171), and the reasons for which FAULT_N is low (R420).
-/

namespace Sys2Proof.Machine

/-- A signed comparison (Table 12.5). -/
def condHolds (c : Cond) (x y : Word) : Bool :=
  match c with
  | .eq => x = y
  | .ne => x ≠ y
  | .lt => x.slt y
  | .le => x.sle y
  | .gt => y.slt x
  | .ge => y.sle x

/-- The 24-bit VALUE of a product pixel, sign-extended (R171). -/
def pixelValue (w : Word) : Word := (w.setWidth 24).signExtend 32

/-- Are TAINT, BAD and DROP clear in both words: bits [27:25] of their OR (Table 12.5)? -/
def cleanPixels (x y : Word) : Bool := bits (x ||| y) 27 25 = 0

/-- A vector of lane values. -/
def lanes (f : Fin 32 → Word) : Vector Word 32 := Vector.ofFn f

/-- A predicate of lane bits. -/
def laneBits (f : Fin 32 → Bool) : BitVec 32 := (List.finRange 32).foldl (fun a k => if f k then a ||| BitVec.twoPow 32 k else a) 0

/-- The sum of lane values modulo 2^32. -/
def laneSum (f : Fin 32 → Word) : Word := (List.finRange 32).foldl (fun a k => a + f k) 0

/-- How many bits of a predicate are set. -/
def popCount (p : BitVec 32) : Nat := (List.finRange 32).countP fun k => p.getLsbD k

/-- |x|, saturating at 2^31 - 1 (Table 12.5). -/
def satAbs (x : Word) : Word := if x = 0x80000000 then 0x7FFFFFFF else if x.slt 0 then -x else x

/-- The smaller of two signed words. -/
def sminW (x y : Word) : Word := if x.slt y then x else y

/-- The larger of two signed words. -/
def smaxW (x y : Word) : Word := if x.slt y then y else x

/-- The high word of the signed 64-bit product (Table 12.4). -/
def mulHigh (x y : Word) : Word := BitVec.ofInt 32 (x.toInt * y.toInt / 2 ^ 32)

/-- The sum of the products of the signed halves (Table 12.6). -/
def halfDot (x y : Word) : Int :=
  (x.setWidth 16).toInt * (y.setWidth 16).toInt + ((x >>> 16).setWidth 16).toInt * ((y >>> 16).setWidth 16).toInt

/-- Saturate to signed 32 bits. -/
def sat32 (x : Int) : Word := BitVec.ofInt 32 (clampI (-(2 ^ 31)) (2 ^ 31 - 1) x)

end Sys2Proof.Machine
end

