-- ==== Sys2Proof/Machine/Scalar.lean ====
section
/-!
DEFINITION. SCALAR instructions (R270–R272, Table 12.4).
-/

namespace Sys2Proof.Machine

/-- A SCALAR operation on two words. -/
def scalarOp (u : UnitId) (d a : Reg) (b : Src) (f : Word → Word → Word) (s : State) : State :=
  issue u .scalar (srcImm b) (.s d :: .s a :: srcRegs b) false
    (fun s => advance u (srcImm b) (setS u d (f (getS u a s) (srcVal u b s)) s)) s

/-- A SCALAR operation on two pairs. -/
def pairOp (u : UnitId) (d a : Reg) (b : Src) (f : BitVec 64 → BitVec 64 → BitVec 64) (s : State) : State :=
  issue u .scalar (srcImm b) (pairRegs d ++ pairRegs a ++ srcPairRegs b) false
    (fun s => advance u (srcImm b) (setPair u d (f (getPair u a s) (srcPair u b s)) s)) s

/-- A shift amount: bits [4:0] (R271). -/
def shiftAmt (w : Word) : Nat := w.toNat % 32

def execAdd (u : UnitId) (d a : Reg) (b : Src) (s : State) : Host.Outcome State Fault Refusal :=
  .next (scalarOp u d a b (· + ·) s)

def execSub (u : UnitId) (d a : Reg) (b : Src) (s : State) : Host.Outcome State Fault Refusal :=
  .next (scalarOp u d a b (· - ·) s)

def execAnd (u : UnitId) (d a : Reg) (b : Src) (s : State) : Host.Outcome State Fault Refusal :=
  .next (scalarOp u d a b (· &&& ·) s)

def execOr (u : UnitId) (d a : Reg) (b : Src) (s : State) : Host.Outcome State Fault Refusal :=
  .next (scalarOp u d a b (· ||| ·) s)

def execXor (u : UnitId) (d a : Reg) (b : Src) (s : State) : Host.Outcome State Fault Refusal :=
  .next (scalarOp u d a b (· ^^^ ·) s)

/-- The loader refuses a constant shift amount with a bit of [31:5] set (R271). -/
def execShl (u : UnitId) (d a : Reg) (b : Src) (s : State) : Host.Outcome State Fault Refusal :=
  if shiftOk b then .next (scalarOp u d a b (fun x y => x <<< shiftAmt y) s) else .refused (.illFormed "SHL")

/-- As `execShl`, logical right (R271). -/
def execShr (u : UnitId) (d a : Reg) (b : Src) (s : State) : Host.Outcome State Fault Refusal :=
  if shiftOk b then .next (scalarOp u d a b (fun x y => x >>> shiftAmt y) s) else .refused (.illFormed "SHR")

/-- As `execShl`, arithmetic right (R271). -/
def execSra (u : UnitId) (d a : Reg) (b : Src) (s : State) : Host.Outcome State Fault Refusal :=
  if shiftOk b then .next (scalarOp u d a b (fun x y => x.sshiftRight (shiftAmt y)) s) else .refused (.illFormed "SRA")

def execMul (u : UnitId) (d a : Reg) (b : Src) (s : State) : Host.Outcome State Fault Refusal :=
  .next (scalarOp u d a b (· * ·) s)

def execMulh (u : UnitId) (d a : Reg) (b : Src) (s : State) : Host.Outcome State Fault Refusal :=
  .next (scalarOp u d a b mulHigh s)

def execMin (u : UnitId) (d a : Reg) (b : Src) (s : State) : Host.Outcome State Fault Refusal :=
  .next (scalarOp u d a b sminW s)

def execMax (u : UnitId) (d a : Reg) (b : Src) (s : State) : Host.Outcome State Fault Refusal :=
  .next (scalarOp u d a b smaxW s)

def execSlt (u : UnitId) (d a : Reg) (b : Src) (s : State) : Host.Outcome State Fault Refusal :=
  .next (scalarOp u d a b (fun x y => if x.slt y then 1 else 0) s)

def execSltu (u : UnitId) (d a : Reg) (b : Src) (s : State) : Host.Outcome State Fault Refusal :=
  .next (scalarOp u d a b (fun x y => if x.ult y then 1 else 0) s)

/-- MOV leaves A zero, which reads s0 (Table 12.4). -/
def execMov (u : UnitId) (d : Reg) (b : Src) (s : State) : Host.Outcome State Fault Refusal :=
  .next (scalarOp u d 0 b (fun _ y => y) s)

/-- An odd pair member is refused by the loader (R270). -/
def execAddD (u : UnitId) (d a : Reg) (b : Src) (s : State) : Host.Outcome State Fault Refusal :=
  if isPair d && isPair a && srcIsPair b then .next (pairOp u d a b (· + ·) s) else .refused (.illFormed "ADD.D")

def execSubD (u : UnitId) (d a : Reg) (b : Src) (s : State) : Host.Outcome State Fault Refusal :=
  if isPair d && isPair a && srcIsPair b then .next (pairOp u d a b (· - ·) s) else .refused (.illFormed "SUB.D")

def execMovD (u : UnitId) (d : Reg) (b : Src) (s : State) : Host.Outcome State Fault Refusal :=
  if isPair d && srcIsPair b then .next (pairOp u d 0 b (fun _ y => y) s) else .refused (.illFormed "MOV.D")

end Sys2Proof.Machine
end

