-- ==== Sys2Proof/Machine/Vector.lean ====
section
/-!
DEFINITION. VECTOR and MAC instructions (R273, Table 12.5, Table 12.6).
-/

namespace Sys2Proof.Machine

/-- A lane-wise operation: lane `k` of `vd` becomes `f vd[k] va[k] b[k]` where the governing predicate allows it, and is
unchanged elsewhere (R243). -/
def laneOp (u : UnitId) (c : Cls) (d a : Reg) (b : VSrc) (pg : Option Pred) (f : Word → Word → Word → Word)
    (s : State) : State :=
  issue u c (vsrcImm b) (.v d :: .v a :: vsrcRegs b) false
    (fun s =>
      let x := lanes fun k =>
        if allows u pg s k then f (getV u d s)[k] (getV u a s)[k] (vsrcLane u b s k) else (getV u d s)[k]
      advance u (vsrcImm b) (setV u d x s)) s

/-- A lane-wise operation of one source; its B field is zero. -/
def laneOp1 (u : UnitId) (d a : Reg) (pg : Option Pred) (f : Word → Word) (s : State) : State :=
  issue u .vector false [.v d, .v a] false
    (fun s =>
      let x := lanes fun k => if allows u pg s k then f (getV u a s)[k] else (getV u d s)[k]
      advance u false (setV u d x s)) s

/-- VCMP and VCMPW: every bit of `pd` is written, PG AND the comparison (R273). -/
def compareOp (u : UnitId) (c : Cond) (d : Pred) (a : Reg) (b : VSrc) (pg : Option Pred) (f : Word → Word) (s : State) :
    State :=
  issue u .vector (vsrcImm b) (.v a :: vsrcRegs b) false
    (fun s =>
      let x := laneBits fun k => allows u pg s k && condHolds c (f (getV u a s)[k]) (vsrcLane u b s k)
      advance u (vsrcImm b) (setP u d x s)) s

def execVadd (u : UnitId) (d a : Reg) (b : VSrc) (pg : Option Pred) (s : State) : Host.Outcome State Fault Refusal :=
  .next (laneOp u .vector d a b pg (fun _ x y => x + y) s)

def execVsub (u : UnitId) (d a : Reg) (b : VSrc) (pg : Option Pred) (s : State) : Host.Outcome State Fault Refusal :=
  .next (laneOp u .vector d a b pg (fun _ x y => x - y) s)

def execVand (u : UnitId) (d a : Reg) (b : VSrc) (pg : Option Pred) (s : State) : Host.Outcome State Fault Refusal :=
  .next (laneOp u .vector d a b pg (fun _ x y => x &&& y) s)

def execVor (u : UnitId) (d a : Reg) (b : VSrc) (pg : Option Pred) (s : State) : Host.Outcome State Fault Refusal :=
  .next (laneOp u .vector d a b pg (fun _ x y => x ||| y) s)

def execVxor (u : UnitId) (d a : Reg) (b : VSrc) (pg : Option Pred) (s : State) : Host.Outcome State Fault Refusal :=
  .next (laneOp u .vector d a b pg (fun _ x y => x ^^^ y) s)

def execVshl (u : UnitId) (d a : Reg) (b : VSrc) (pg : Option Pred) (s : State) : Host.Outcome State Fault Refusal :=
  if vshiftOk b then .next (laneOp u .vector d a b pg (fun _ x y => x <<< shiftAmt y) s) else .refused (.illFormed "VSHL")

def execVshr (u : UnitId) (d a : Reg) (b : VSrc) (pg : Option Pred) (s : State) : Host.Outcome State Fault Refusal :=
  if vshiftOk b then .next (laneOp u .vector d a b pg (fun _ x y => x >>> shiftAmt y) s) else .refused (.illFormed "VSHR")

def execVsra (u : UnitId) (d a : Reg) (b : VSrc) (pg : Option Pred) (s : State) : Host.Outcome State Fault Refusal :=
  if vshiftOk b then .next (laneOp u .vector d a b pg (fun _ x y => x.sshiftRight (shiftAmt y)) s) else .refused (.illFormed "VSRA")

def execVmin (u : UnitId) (d a : Reg) (b : VSrc) (pg : Option Pred) (s : State) : Host.Outcome State Fault Refusal :=
  .next (laneOp u .vector d a b pg (fun _ x y => sminW x y) s)

def execVmax (u : UnitId) (d a : Reg) (b : VSrc) (pg : Option Pred) (s : State) : Host.Outcome State Fault Refusal :=
  .next (laneOp u .vector d a b pg (fun _ x y => smaxW x y) s)

def execVabs (u : UnitId) (d a : Reg) (pg : Option Pred) (s : State) : Host.Outcome State Fault Refusal :=
  .next (laneOp1 u d a pg satAbs s)

/-- VMOV reads no first source: `vd` itself stands in its place and its value is not used (Table 12.5). -/
def execVmov (u : UnitId) (d : Reg) (b : VSrc) (pg : Option Pred) (s : State) : Host.Outcome State Fault Refusal :=
  .next (laneOp u .vector d d b pg (fun _ _ y => y) s)

def execVval (u : UnitId) (d a : Reg) (pg : Option Pred) (s : State) : Host.Outcome State Fault Refusal :=
  .next (laneOp1 u d a pg pixelValue s)

/-- VEXT: lane b[4:0] of `va` (R273).  It sums nothing, so a governing predicate has no lane to keep out (assumption 15). -/
def execVext (u : UnitId) (d a : Reg) (b : Src) (_ : Option Pred) (s : State) : Host.Outcome State Fault Refusal :=
  .next (issue u .vector (srcImm b) (.s d :: .v a :: srcRegs b) false
    (fun s =>
      advance u (srcImm b) (setS u d (getV u a s)[Fin.ofNat 32 (srcVal u b s).toNat] s)) s)

def execVsum (u : UnitId) (d a : Reg) (pg : Option Pred) (s : State) : Host.Outcome State Fault Refusal :=
  .next (issue u .vector false [.s d, .v a] false
    (fun s => advance u false (setS u d (laneSum fun k => if allows u pg s k then (getV u a s)[k] else 0) s)) s)

def execVcmp (u : UnitId) (c : Cond) (d : Pred) (a : Reg) (b : VSrc) (pg : Option Pred) (s : State) : Host.Outcome State Fault Refusal :=
  .next (compareOp u c d a b pg pixelValue s)

def execVcmpw (u : UnitId) (c : Cond) (d : Pred) (a : Reg) (b : VSrc) (pg : Option Pred) (s : State) : Host.Outcome State Fault Refusal :=
  .next (compareOp u c d a b pg id s)

def execVflags (u : UnitId) (d : Pred) (a b : Reg) (s : State) : Host.Outcome State Fault Refusal :=
  .next (issue u .vector false [.v a, .v b] false
    (fun s => advance u false (setP u d (laneBits fun k => cleanPixels (getV u a s)[k] (getV u b s)[k]) s)) s)

def execPcount (u : UnitId) (d : Reg) (a : Pred) (s : State) : Host.Outcome State Fault Refusal :=
  .next (issue u .vector false [.s d] false
    (fun s => advance u false (setS u d (BitVec.ofNat 32 (popCount (getP u a s))) s)) s)

def execVmacH (u : UnitId) (d a : Reg) (b : VSrc) (pg : Option Pred) (s : State) : Host.Outcome State Fault Refusal :=
  .next (laneOp u .mac d a b pg (fun z x y => z + BitVec.ofInt 32 (halfDot x y)) s)

def execVmacHs (u : UnitId) (d a : Reg) (b : VSrc) (pg : Option Pred) (s : State) : Host.Outcome State Fault Refusal :=
  .next (laneOp u .mac d a b pg (fun z x y => sat32 (z.toInt + halfDot x y)) s)

def execVmacW (u : UnitId) (d a : Reg) (b : VSrc) (pg : Option Pred) (s : State) : Host.Outcome State Fault Refusal :=
  .next (laneOp u .mac d a b pg (fun z x y => z + x * y) s)

def execVmulW (u : UnitId) (d a : Reg) (b : VSrc) (pg : Option Pred) (s : State) : Host.Outcome State Fault Refusal :=
  .next (laneOp u .mac d a b pg (fun _ x y => x * y) s)

def execVmulhW (u : UnitId) (d a : Reg) (b : VSrc) (pg : Option Pred) (s : State) : Host.Outcome State Fault Refusal :=
  .next (laneOp u .mac d a b pg (fun _ x y => mulHigh x y) s)

def execVdotH (u : UnitId) (d a : Reg) (b : VSrc) (pg : Option Pred) (s : State) : Host.Outcome State Fault Refusal :=
  .next (issue u .mac (vsrcImm b) (.s d :: .v a :: vsrcRegs b) false
    (fun s =>
      let x := laneSum fun k =>
        if allows u pg s k then BitVec.ofInt 32 (halfDot (getV u a s)[k] (vsrcLane u b s k)) else 0
      advance u (vsrcImm b) (setS u d (getS u d s + x) s)) s)

end Sys2Proof.Machine
end

