-- ==== Sys2Proof/Machine/LoadStore.lean ====
section
/-!
DEFINITION. LOAD and STORE (R246, R274–R276, Table 12.7, Table 12.8), their completion, and the limit of R251.
-/

namespace Sys2Proof.Machine

/-- What naming a tag gives: the tag to take and the pool pointer after it, a precise cause, or a stall (R246, R276). -/
inductive Pick where
  | take (t : Tag) (ptr : Nat)
  | exc (c : Nat)
  | stall
deriving DecidableEq, Repr

/-- The first tag of the unit's pool and the pool's size (R276). -/
def poolOf (u : UnitId) : Nat × Nat := if isHub u then (12, 4) else (240, 16)

/-- Work through the pool from place `i`, at most `n` tags (R276). -/
def pickPool (u : UnitId) (s : State) : Nat → Nat → Pick
  | _, 0 => .stall
  | i, n + 1 =>
    let t : Tag := Fin.ofNat 256 ((poolOf u).1 + i % (poolOf u).2)
    match s.units[u].tags[t] with
    | .busy => pickPool u s (i + 1) n
    | .doneErr _ => .exc 4
    | _ => .take t ((i + 1) % (poolOf u).2)

/-- Take the tag an instruction names (R246), or one of the pool (R276). -/
def pickTag (u : UnitId) (t : TagSel) (s : State) : Pick :=
  match t with
  | .named t =>
    match s.units[u].tags[t] with
    | .busy => .exc 3
    | .doneErr _ => .exc 4
    | _ => .take t s.units[u].ptr
  | .auto => pickPool u s s.units[u].ptr (poolOf u).2

/-- May the tag stand in the unit's code (R270)? -/
def tagSelOk (u : UnitId) (t : TagSel) : Bool :=
  match t with
  | .named t => tagOk u t
  | .auto => true

/-- Is an access of `size` bytes at `a` misaligned or beyond the unit's memory (R274)? -/
def addrBad (u : UnitId) (a size align : Nat) : Bool := a % align ≠ 0 || decide (storeSize u < a + size)

/-- Issue a LOAD or STORE: take the tag, set it BUSY and start the access; or raise the lowest cause (R253, R274). -/
def access (u : UnitId) (c : Cls) (size align : Nat) (m : Addr) (t : TagSel) (rs : List RegRef)
    (kind : State → MemKind) (s : State) : State :=
  issue u c (addrImm m) (.s m.idx :: rs) false
    (fun s =>
      match pickTag u t s with
      | .stall => s
      | .exc c => takeExc u c (addrImm m) s
      | .take t ptr =>
        if addrBad u (addrVal u m s) size align then takeExc u 6 (addrImm m) s
        else
          advance u (addrImm m)
            (modU u (fun e => { e with tags := e.tags.set t .busy, ptr := ptr
                                       ops := e.ops ++ [⟨t, kind s, addrVal u m s⟩] }) s)) s

/-- A load of up to one word. -/
def loadOp (u : UnitId) (n : Nat) (signed : Bool) (d : Reg) (m : Addr) (t : TagSel) (s : State) : State :=
  access u .ldst n n m t [.s d] (fun _ => .ld n signed d) s

/-- A store of the low bytes of a register. -/
def storeOp (u : UnitId) (n : Nat) (d : Reg) (m : Addr) (t : TagSel) (s : State) : State :=
  access u .ldst n n m t [.s d] (fun s => .st n [getS u d s]) s

def execLoad (u : UnitId) (d : Reg) (m : Addr) (t : TagSel) (s : State) : Host.Outcome State Fault Refusal :=
  if tagSelOk u t then .next (loadOp u 4 false d m t s) else .refused (.illFormed "LOAD")

def execLoadD (u : UnitId) (d : Reg) (m : Addr) (t : TagSel) (s : State) : Host.Outcome State Fault Refusal :=
  if tagSelOk u t && isPair d then .next (access u .ldst 8 8 m t (pairRegs d) (fun _ => .ldD d) s) else .refused (.illFormed "LOAD.D")

def execLoadH (u : UnitId) (d : Reg) (m : Addr) (t : TagSel) (s : State) : Host.Outcome State Fault Refusal :=
  if tagSelOk u t then .next (loadOp u 2 true d m t s) else .refused (.illFormed "LOAD.H")

def execLoadHu (u : UnitId) (d : Reg) (m : Addr) (t : TagSel) (s : State) : Host.Outcome State Fault Refusal :=
  if tagSelOk u t then .next (loadOp u 2 false d m t s) else .refused (.illFormed "LOAD.HU")

def execLoadB (u : UnitId) (d : Reg) (m : Addr) (t : TagSel) (s : State) : Host.Outcome State Fault Refusal :=
  if tagSelOk u t then .next (loadOp u 1 true d m t s) else .refused (.illFormed "LOAD.B")

def execLoadBu (u : UnitId) (d : Reg) (m : Addr) (t : TagSel) (s : State) : Host.Outcome State Fault Refusal :=
  if tagSelOk u t then .next (loadOp u 1 false d m t s) else .refused (.illFormed "LOAD.BU")

def execStore (u : UnitId) (d : Reg) (m : Addr) (t : TagSel) (s : State) : Host.Outcome State Fault Refusal :=
  if tagSelOk u t then .next (storeOp u 4 d m t s) else .refused (.illFormed "STORE")

def execStoreD (u : UnitId) (d : Reg) (m : Addr) (t : TagSel) (s : State) : Host.Outcome State Fault Refusal :=
  if tagSelOk u t && isPair d then .next (access u .ldst 8 8 m t (pairRegs d)
      (fun s => .st 8 [getS u d s, getS u (regSucc d) s]) s) else .refused (.illFormed "STORE.D")

def execStoreH (u : UnitId) (d : Reg) (m : Addr) (t : TagSel) (s : State) : Host.Outcome State Fault Refusal :=
  if tagSelOk u t then .next (storeOp u 2 d m t s) else .refused (.illFormed "STORE.H")

def execStoreB (u : UnitId) (d : Reg) (m : Addr) (t : TagSel) (s : State) : Host.Outcome State Fault Refusal :=
  if tagSelOk u t then .next (storeOp u 1 d m t s) else .refused (.illFormed "STORE.B")

def execVload (u : UnitId) (d : Reg) (m : Addr) (t : TagSel) (s : State) : Host.Outcome State Fault Refusal :=
  if tagSelOk u t then .next (access u .vldst 128 4 m t [.v d] (fun _ => .ldV d) s) else .refused (.illFormed "VLOAD")

def execVstore (u : UnitId) (d : Reg) (m : Addr) (t : TagSel) (s : State) : Host.Outcome State Fault Refusal :=
  if tagSelOk u t then .next (access u .vldst 128 4 m t [.v d] (fun s => .st 128 (getV u d s).toList) s) else .refused (.illFormed "VSTORE")

/-- The word addresses that `n` bytes from `a` touch. -/
def wordsOf (a n : Nat) : List Nat := wordAddrs (a / 4 * 4) ((a % 4 + n + 3) / 4)

/-- Where the DDR5 copy of a word of a DDR-backed page stands (R234). -/
def backedAt (w : Nat) (s : State) : Option Nat :=
  (s.backing.find? fun p => p.1 = w / 4096 * 4096).map fun p => p.2 + w % 4096

/-- A DDR5 burst of 64 bytes failed every re-read (R234, Table 10.4); `a` is the address of one of its bytes in the model's
address space. -/
def burstFail (a : Nat) (s : State) : State :=
  let c := (a - 2 ^ 40) / 2 ^ 36
  let s := setF F.stcDdrParAddrChannel c (setF F.stcDdrParAddrAddr ((a - 2 ^ 40) % 2 ^ 36 / 64) s)
  raiseLim 0x2003 8 c 0 (setF F.stcFaultDdrParity 1 (bump F.stcDdrCountParFail s))

/-- Can the cluster whose store holds a word reach the channel of its DDR5 copy (R234, R237)? -/
def copyReached (w d : Nat) (s : State) : Bool :=
  let c := (d - 2 ^ 40) / 2 ^ 36
  !flagAt F.stcDdrFatal c s && reach (dieOf (Fin.ofNat 30 (w / 2 ^ 20))) c s

/-- Refetch failing words of DDR-backed pages: a good DDR5 word takes its place (R234, Table 10.4). -/
def refetch (ws : List Nat) (s : State) : State :=
  ws.foldl (fun s w =>
    match badAt w s, backedAt w s with
    | true, some d =>
      if !copyReached w d s then s
      else if badAt d s then burstFail d (burstFail d (burstFail d (bumpBy F.stcDdrCountReread 9 s)))
      else { s with mem := writeWords w [readW s.mem d] s.mem, memBad := s.memBad.filter (· ≠ w) }
    | _, _ => s) s

/-- Check the words a load touches, after refetching: the state with the failures counted, and whether any failed
(R275, Table 10.4). -/
def checkLoad (ws : List Nat) (s : State) : State × Bool :=
  let s := refetch ws s
  let n := ws.countP fun w => badAt w s
  (if n = 0 then s else bumpBy F.stcParityStoreParity n s, n ≠ 0)

/-- Sign- or zero-extend the low `n` bytes of a word. -/
def extendBytes (n : Nat) (signed : Bool) (w : Word) : Word :=
  if signed then (w.setWidth (8 * n)).signExtend 32 else (w.setWidth (8 * n)).setWidth 32

/-- A word made of the `n` bytes at `a`. -/
def readPart (m : List Host.Cell) (a n : Nat) : Word :=
  BitVec.ofNat 32 ((readW m a).toNat % 2 ^ (8 * n))

/-- Write part of a word: a word that failed parity goes on failing (R275). -/
def storePart (a : Nat) (bs : List Byte) (s : State) : State :=
  { s with
    mem := writeBytes a bs s.mem
    backing := s.backing.filter fun p => !(decide (a < p.1 + 4096) && decide (p.1 < a + bs.length)) }

/-- Perform a LOAD or STORE at the moment its access is made; the completion code (R275). -/
def performOp (u : UnitId) (o : MemOp) (s : State) : State × Nat :=
  let a := storeBase u + o.addr
  match o.kind with
  | .ld n signed d =>
    let (s, bad) := checkLoad (wordsOf a n) s
    (setS u d (extendBytes n signed (readPart s.mem a n)) s, if bad then 3 else 0)
  | .ldD d =>
    let (s, bad) := checkLoad (wordsOf a 8) s
    (setPair u d (pairOf (readW s.mem a) (readW s.mem (a + 4))) s, if bad then 3 else 0)
  | .ldV d =>
    let (s, bad) := checkLoad (wordsOf a 128) s
    (setV u d (lanes fun k => readW s.mem (a + 4 * k)) s, if bad then 3 else 0)
  | .st n ws => (if n < 4 then storePart a ((toBytes ws).take n) s else storeWords a ws s, 0)

/-- A LOAD or STORE in flight under the tag finishes (R275). -/
def execLoadComplete (u : UnitId) (t : Tag) (s : State) : Host.Outcome State Fault Refusal :=
  .next (
    match s.units[u].ops.find? fun o => o.tag = t with
    | some o =>
      if live s then
        let s := modU u (fun e => { e with ops := e.ops.filter fun x => x.tag ≠ t }) s
        let (s, c) := performOp u o s
        finishTag u t c s
      else s
    | none => s)

/-- An operation not finished within 1 ms ends with TIMEOUT; data already moved stays (R251). -/
def execTagTimeout (u : UnitId) (t : Tag) (s : State) : Host.Outcome State Fault Refusal :=
  .next (
    if s.units[u].tags[t] = .busy && (if isHub u then live s else clustersOn s) then
      let s := modU u (fun e => { e with ops := e.ops.filter fun x => x.tag ≠ t }) s
      let s := { s with xfers := s.xfers.filter fun x => !(x.unit = u && x.tag = t && x.lost.isNone) }
      finishTag u t 6 s
    else s)

end Sys2Proof.Machine
end

