-- ==== Sys2Proof/Machine/Stream.lean ====
section
/-!
DEFINITION. STREAM transfers: issue, the checks of R278, the endpoints of Table 10.5, how an endpoint takes or gives the
data of a transfer (R472, Table 10.4), and completion.
-/

namespace Sys2Proof.Machine

/-- Is the endpoint present on the option (R6, R239)?  A cluster's code needs a logical cluster of the image there. -/
def epPresent (ep : Nat) (s : State) : Bool :=
  if ep ≤ 0x19 then s.boot.place.any fun p => p.1 = ep
  else match s.opt with
    | .zt8 => true
    | .zt4 => !([0x22, 0x23, 0x31, 0x33, 0x3D, 0x3F, 0x61, 0x69].contains ep)

/-- Base and size of a window; one that the image does not declare has size zero (R277). -/
def windowOf (u : UnitId) (w : Fin 16) (s : State) : Nat × Nat :=
  match s.units[u].windows.find? fun x => x.1 = w.val with
  | some (_, b, n) => (b, n)
  | none => (0, 0)

/-- The length of a transfer in bytes, before its check (Table 12.9). -/
def streamLen (u : UnitId) (l : StreamLen) (s : State) : Nat :=
  match l with
  | .const n => 4 * (n.toNat + 1)
  | .reg n => (getS u n s).toNat

/-- The registers a STREAM reads. -/
def streamRegs (q : StreamOp) : List RegRef :=
  match q.len with
  | .const _ => [.s q.a]
  | .reg n => [.s q.a, .s n]

/-- Issue a STREAM: tag state, length, window, in this order (R278). -/
def streamOp (u : UnitId) (out : Bool) (q : StreamOp) (s : State) : State :=
  issue u .stream true (streamRegs q) false
    (fun s =>
      match pickTag u (.named q.tag) s with
      | .exc c => takeExc u c true s
      | .stall => s
      | .take t _ =>
        let n := streamLen u q.len s
        if n % 4 ≠ 0 || n < 4 || 65536 < n then advance u true (finishTag u t 2 s)
        else if (windowOf u q.win s).2 < 4 * q.offset.toNat + n then takeExc u 5 true s
        else
          let x : Xfer :=
            { unit := u, tag := t, out := out, ep := q.ep.toNat, addr := (getS u q.a s).toNat,
              base := (windowOf u q.win s).1 + 4 * q.offset.toNat, len := n, code := none }
          advance u true { setTag u t .busy s with xfers := s.xfers ++ [x] }) s

/-- The loader refuses an endpoint that is reserved, absent, or closed to the direction (R239, R277). -/
def execStreamIn (u : UnitId) (q : StreamOp) (s : State) : Host.Outcome State Fault Refusal :=
  if epDir q.ep.toNat false && epPresent q.ep.toNat s then .next (streamOp u false q s)
  else .refused (.illFormed "STREAM.IN")

/-- As `execStreamIn`, outward. -/
def execStreamOut (u : UnitId) (q : StreamOp) (s : State) : Host.Outcome State Fault Refusal :=
  if epDir q.ep.toNat true && epPresent q.ep.toNat s then .next (streamOp u true q s)
  else .refused (.illFormed "STREAM.OUT")

/-- The oldest transfer of a unit's tag whose endpoint has not acted yet. -/
def firstXfer (u : UnitId) (t : Tag) (s : State) : Option Xfer :=
  s.xfers.find? fun x => x.unit = u && x.tag = t && x.code.isNone

/-- That transfer, where it has the direction and goes to an endpoint of `p`. -/
def findXfer (u : UnitId) (t : Tag) (out : Bool) (p : Nat → Bool) (s : State) : Option Xfer :=
  (firstXfer u t s).filter fun x => x.out = out && p x.ep

/-- The oldest transfer of a unit's tag that has no code takes one; where a cluster reset dropped its tag, it is over and
nothing is reported (R89). -/
def endXfer (u : UnitId) (t : Tag) (c : Nat) : List Xfer → List Xfer
  | [] => []
  | x :: r =>
    if x.unit = u ∧ x.tag = t ∧ x.code.isNone then (if x.lost.isSome then r else { x with code := some c } :: r)
    else x :: endXfer u t c r

/-- Record the code with which a transfer ends. -/
def setCode (u : UnitId) (t : Tag) (c : Nat) (s : State) : State := { s with xfers := endXfer u t c s.xfers }

/-- The source words of an OUT transfer, and their addresses in the unit's store. -/
def sourceWords (x : Xfer) (s : State) : List Word :=
  match x.lost with
  | some ws => ws.map (·.1)
  | none => readWords s.mem (storeBase x.unit + x.base) (x.len / 4)

def sourceAddrs (x : Xfer) : List Nat := wordAddrs (storeBase x.unit + x.base) (x.len / 4)

/-- Check the source words of an OUT transfer (Table 10.4): the failures count and STC.FAULT.STORE_PARITY sets. -/
def checkSource (x : Xfer) (s : State) : State × Bool :=
  match x.lost with
  | some ws => (s, ws.any (·.2))
  | none =>
    let (s, bad) := checkLoad (sourceAddrs x) s
    (if bad then setF F.stcFaultStoreParity 1 s else s, bad)

/-- A cluster reset takes the tag of a transfer: the words of an OUT transfer have left the store, and it goes on to its
destination without a completion (R89, assumption 34); one whose endpoint has acted is over. -/
def loseTag (x : Xfer) (s : State) : State × List Xfer :=
  if x.code.isSome then (s, [])
  else if x.lost.isSome then (s, [x])
  else if x.out then
    let (s, _) := checkSource x s
    (s, [{ x with lost := some ((sourceAddrs x).map fun a => (readW s.mem a, badAt a s)) }])
  else (s, [{ x with lost := some [] }])

/-- Where the words of a transfer that fail parity land from `dst`: they arrive with inverted parity (Table 10.4). -/
def badSource (x : Xfer) (dst : Nat) (s : State) : List Nat :=
  match x.lost with
  | some ws => ((ws.zip (wordAddrs dst ws.length)).filter fun p => p.1.2).map (·.2)
  | none => ((sourceAddrs x).filter fun w => badAt w s).map fun w => w - (storeBase x.unit + x.base) + dst

/-- Every transfer of a unit loses its tag. -/
def loseTags (u : UnitId) (s : State) : State :=
  s.xfers.foldl (fun s x =>
    if x.unit = u then
      let (s, xs) := loseTag x s
      { s with xfers := s.xfers ++ xs }
    else { s with xfers := s.xfers ++ [x] }) { s with xfers := [] }

/-- A record sent to a control endpoint: UNREACHABLE when a destination die cannot be reached (R472); held while the hub moves
a link of the path (R232); discarded with
PARITY when a source word fails (Table 10.4); else the endpoint acts, and answers the tag's code. -/
def recordOut (u : UnitId) (t : Tag) (p : Nat → Bool) (dies : Xfer → List Word → State → List Nat)
    (act : Xfer → List Word → State → State × Nat) (s : State) : State :=
  match findXfer u t true p s with
  | none => s
  | some x =>
    if !live s then s
    else if !(dies x (sourceWords x s) s).all fun d => reach (dieOf u) d s then setCode u t 4 s
    else if (dies x (sourceWords x s) s).any fun d => held (dieOf u) d s then s
    else
      let (s, bad) := checkSource x s
      if bad then setCode u t 3 s
      else
        let (s, c) := act x (sourceWords x s) s
        setCode u t c s

/-- Data read from an endpoint: UNREACHABLE as above; else the endpoint answers a code and, with code 0 or 3, the words
that land in the window. -/
def dataIn (u : UnitId) (t : Tag) (p : Nat → Bool) (dies : Xfer → State → List Nat)
    (act : Xfer → State → State × Nat × List Word) (s : State) : State :=
  match findXfer u t false p s with
  | none => s
  | some x =>
    if !live s then s
    else if !(dies x s).all fun d => reach (dieOf u) d s then setCode u t 4 s
    else if (dies x s).any fun d => held (dieOf u) d s then s
    else
      let (s, c, ws) := act x s
      let s := if c = 0 ∨ c = 3 then storeWords (storeBase u + x.base) ws s else s
      setCode u t c s

/-- A record of a control endpoint is refused: its sticky field sets and its event names the endpoint (Table 21.5). -/
def refuseRecord (f : Fld) (code kind index ep : Nat) (s : State) : State × Nat :=
  (raise code kind index ep (setF f 1 s), 1)

/-- The last word of a transfer has landed, and a control endpoint has accepted or refused: the tag leaves BUSY
(R279). -/
def execTransferComplete (u : UnitId) (t : Tag) (s : State) : Host.Outcome State Fault Refusal :=
  .next (
    match s.xfers.find? fun x => x.unit = u && x.tag = t && x.code.isSome with
    | some x =>
      if live s then
        finishTag u t (x.code.getD 0) { s with xfers := s.xfers.filter fun y => !(y.unit = u && y.tag = t && y.code.isSome) }
      else s
    | none => s)

/-! ### Cluster stores (R239) -/

/-- The physical cluster on which logical cluster `k` stands (R227). -/
def clusterAt (k : Nat) (s : State) : Option UnitId :=
  (s.boot.place.find? fun p => p.1 = k).map fun p => ⟨p.2.val, by omega⟩

/-- The die of an endpoint code that names a logical cluster. -/
def clusterDies (x : Xfer) (s : State) : List Nat :=
  match clusterAt x.ep s with
  | some v => [dieOf v]
  | none => []

/-- A transfer to or from another cluster's store: the address is a byte offset that must lie inside it (R239). A source
word that fails parity arrives with inverted parity (Table 10.4). -/
def execClusterTransfer (u : UnitId) (t : Tag) (s : State) : Host.Outcome State Fault Refusal :=
  .next (
    match (firstXfer u t s).filter fun x => decide (x.ep ≤ 0x19) with
    | none => s
    | some x =>
      if !live s then s
      else match clusterAt x.ep s with
        | none => s
        | some v =>
          if !reach (dieOf u) (dieOf v) s then setCode u t 4 s
          else if held (dieOf u) (dieOf v) s then s
          else if 524288 < x.addr + x.len then setCode u t 2 s
          else
            let mine := storeBase u + x.base
            let theirs := storeBase v + x.addr
            let src := if x.out then mine else theirs
            let dst := if x.out then theirs else mine
            if x.out then
              let (s, bad) := checkSource x s
              setCode u t (if bad then 3 else 0) (markBad (badSource x dst s) (storeWords dst (sourceWords x s) s))
            else
              let (s, bad) := checkLoad (wordsOf src x.len) s
              let s := if bad then setF F.stcFaultStoreParity 1 s else s
              let bads := ((wordsOf src x.len).filter fun a => badAt a s).flatMap fun a => wordsOf (a + dst - src) 4
              setCode u t (if bad then 3 else 0) (markBad bads (storeWords dst (readWords s.mem src (x.len / 4)) s)))

end Sys2Proof.Machine
end

