-- ==== Sys2Proof/Machine/Status.lean ====
section
/-!
DEFINITION. Reading and clearing the status space (R16, R260, R288, R420, R425, R438–R448), for its three kinds of
reader.
-/

namespace Sys2Proof.Machine

/-- The record of the log that stands in slot `k` of the event ring (R447, R451). -/
def ringRec (k : Nat) (s : State) : Option EvRec :=
  let p := (getF F.intEvtSeqSeq s + 2 ^ 32 - 1 - k) % 256
  s.ev.log[p]?

/-- Word `w` of an event record (R446). -/
def recWord (r : EvRec) (w : Nat) : Word :=
  if w = 0 then BitVec.ofNat 32 (r.code * 65536 + r.kind * 4096 + r.index)
  else if w = 1 then BitVec.ofNat 32 r.detail
  else if w = 2 then BitVec.ofNat 32 r.time
  else BitVec.ofNat 32 (r.time / 2 ^ 32)

/-- The address of the event ring (Table 21.3). -/
def ringBase : Nat := 0xA01000

def inRing (a : Nat) : Bool := decide (ringBase ≤ a) && decide (a < ringBase + 4096)

/-- The conditions of LNK.FAULT_N.REASON (R420). -/
def faultReason (s : State) : Nat :=
  let stage := getF F.rstBootStage s
  b2n (flag F.thmStateShutdown s) + 2 * b2n (stage = 0xE || stage = 0xF) +
    4 * b2n ((List.range 30).any fun u => getF (F.isaUStateState u) s = 3) +
    8 * b2n ((List.range 16).any fun l => (linkEnds s.opt l).isSome && !flagAt F.stcLinkUp l s && (secondPath l s).isNone) +
    16 * b2n (getF F.stcDdrFatal s ≠ 0) +
    32 * b2n (!s.boot.engMissing.isEmpty) +
    64 * b2n (getF F.pwrStateVinZone s = 4) +
    128 * b2n ((List.range 128).any fun v => getF (F.ejtVStateFault (v / 64) (v % 64)) s = 4)

/-- Is FAULT_N low: for a reason of R420, and in the classes safe state and reset of Table 20.2 (R354, R426, Table 2.4)? -/
def faultNLow (s : State) : Bool :=
  match s.mode with
  | .unpowered => false
  | .running | .entering _ | .standby | .park | .exiting _ => s.freeze.since.isSome || flag F.intStateSafe s || faultReason s ≠ 0
  | _ => true

/-- The word at `a` as it stands: device time, the event ring, counts of what runs or waits, and REASON are computed, every
other word is held. -/
def liveWord (a : Nat) (s : State) : Word :=
  if a = F.clkTimeLo then BitVec.ofNat 32 s.time
  else if a = F.clkTimeHi then BitVec.ofNat 32 (s.time / 2 ^ 32)
  else if inRing a then
    if s.ev.blank.contains a then 0 else match ringRec ((a - ringBase) / 16) s with
    | some r => recWord r (a / 4 % 4)
    | none => 0
  else if a = F.thmAgeValves then
    BitVec.ofNat 32 ((List.range 128).countP fun v => flag (F.ejtVStateAgeing (v / 64) (v % 64)) s)
  else if a = F.calState then putBits (s.word a) 0 0 (b2n s.pins.feedGap)
  else if a = F.lnkFaultN then BitVec.ofNat 32 (faultReason s)
  else if a = F.algState then putBits (s.word a) 7 0 (enginesAtWork s)
  else if F.calItemWait 0 ≤ a && a ≤ F.calItemWait 11 && (a - F.calItemWait 0) % 16 = 0 then
    match s.cal.since.find? fun x => x.1 = (a - F.calItemWait 0) / 16 with
    | some x => BitVec.ofNat 32 (min (2 ^ 32 - 1) ((s.time - x.2) / 1000000))
    | none => 0
  else
    match (List.finRange 30).find? fun (u : UnitId) => a = F.isaUState u.val with
    | some u =>
      if unitPresent s.opt u then putBits (s.word a) 8 0 (busyTags s.units[u]).length else 0
    | none => s.word a

/-- The HI word that a LO word latches (R442). -/
def hiOf (a : Nat) : Option Nat :=
  if a = F.clkTimeLo then some F.clkTimeHi
  else (List.range 2).findSome? fun i =>
    if a = F.fpdSyncTimeLo i then some (F.fpdSyncTimeHi i)
    else if a = F.lumLatchTimeLo i then some (F.lumLatchTimeHi i) else none

/-- A word that fails its parity takes its value after power-on, a word of the log zero; it counts and is reported (R425,
R448), but while the clocks are stopped, when no event is raised (R446). -/
def parityCheck (a : Nat) (s : State) : State :=
  if s.statusBad.contains a then
    let s := if inRing a then { s with ev := { s.ev with blank := a :: s.ev.blank } } else s.setWord a (statusDefault s.opt a)
    let s := { s with statusBad := s.statusBad.filter (· ≠ a) }
    let s := setF F.intFaultStatusParity 1 (bump F.intStatusParityCount s)
    if s.freeze.since.isSome then s else raiseLim 0x6003 0 0 a s
  else s

/-- The readers of the status space: 0–29 execution units, then the command protocol and the JTAG port (R440). -/
def hostReader : Nat := 30
def jtagReader : Nat := 31

/-- Read the word at `a` for a reader (R440–R442). -/
def readStatus (reader a : Nat) (s : State) : State × Word :=
  let a := a / 4 * 4
  let s := parityCheck a s
  let w := liveWord a s
  match hiOf a with
  | some h =>
    ({ s with latches := (reader, h, liveWord h s) :: s.latches.filter fun l => !(l.1 = reader && l.2.1 = h) }, w)
  | none =>
    match s.latches.find? fun l => l.1 = reader && l.2.1 = a with
    | some l => (s, l.2.2)
    | none => (s, w)

/-- EVT.CLR: clear each RS or RC field of the word that the mask touches, whole (R443). -/
def clearStatus (a : Nat) (m : Word) (s : State) : State :=
  let a := a / 4 * 4
  let c := clearedBits (fieldsAt s.opt a) m
  if c = 0 then s else s.setWord a (s.word a &&& ~~~ c)

end Sys2Proof.Machine
end

