-- ==== Sys2Proof/Machine/Control.lean ====
section
/-!
DEFINITION. TAG, CONTROL and STAT instructions (R247, R248, R260, R285–R288, Tables 12.14–12.16).
-/

namespace Sys2Proof.Machine

/-- Does the WAIT name tag `t` (R247)? -/
def waitNames (w : WaitSel) (t : Tag) : Bool :=
  match w with
  | .one x => t = x
  | .range x y => decide (x ≤ t) && decide (t ≤ y)
  | .all => true

/-- The loader's rules for a WAIT (Table 12.14, R270). -/
def waitOk (u : UnitId) (w : WaitSel) : Bool :=
  match w with
  | .one x => tagOk u x
  | .range x y => decide (x ≤ y) && tagOk u y
  | .all => true

/-- WAIT stalls issue until no named tag is BUSY and leaves the tags as they are (R247). -/
def execWait (u : UnitId) (w : WaitSel) (s : State) : Host.Outcome State Fault Refusal :=
  if waitOk u w then
    .next (issue u .tag false [] false
      (fun s => if (busyTags s.units[u]).any (waitNames w) then s else advance u false s) s)
  else .refused (.illFormed "WAIT")

/-- FENCE records the tags BUSY at its issue (R248). -/
def execFence (u : UnitId) (s : State) : Host.Outcome State Fault Refusal :=
  .next (issue u .tag false [] false
    (fun s => advance u false (modU u (fun e => { e with fence := busyTags e }) s)) s)

/-- The word TAGSTAT writes (R285). -/
def tagWord (x : TagState) : Word :=
  match x with
  | .free => 0x10
  | .busy => 0x20
  | .doneOk => 0
  | .doneErr c => BitVec.ofNat 32 c

/-- TAGSTAT frees a finished tag and leaves any other (R247). -/
def execTagstat (u : UnitId) (d : Reg) (t : Tag) (s : State) : Host.Outcome State Fault Refusal :=
  if tagOk u t then
    .next (issue u .tag false [.s d] false
      (fun s =>
        let x := s.units[u].tags[t]
        let s := setS u d (tagWord x) s
        advance u false (if x = .busy then s else setTag u t .free s)) s)
  else .refused (.illFormed "TAGSTAT")

/-- A branch that lands on the immediate word of a 64-bit instruction raises EXC_DECODE (R286). -/
def landsOnImm (u : UnitId) (a : Nat) (s : State) : Bool := immWord s.units[u].code a

/-- A conditional branch (R286, Table 12.16). -/
def branchOp (u : UnitId) (a : Reg) (b : BSrc) (g : Target) (c : Word → Word → Bool) (s : State) : State :=
  let taken := c (getS u a s) (bsrcVal u b s)
  issue u .control (targetAbs g) (.s a :: bsrcRegs b) (taken && landsOnImm u (targetAddr u g s) s)
    (fun s => if taken then setPc u (targetAddr u g s) s else advance u (targetAbs g) s) s

def execBeq (u : UnitId) (a : Reg) (b : BSrc) (g : Target) (s : State) : Host.Outcome State Fault Refusal :=
  if targetOk g then .next (branchOp u a b g (fun x y => x = y) s) else .refused (.illFormed "BEQ")

def execBne (u : UnitId) (a : Reg) (b : BSrc) (g : Target) (s : State) : Host.Outcome State Fault Refusal :=
  if targetOk g then .next (branchOp u a b g (fun x y => x ≠ y) s) else .refused (.illFormed "BNE")

def execBlt (u : UnitId) (a : Reg) (b : BSrc) (g : Target) (s : State) : Host.Outcome State Fault Refusal :=
  if targetOk g then .next (branchOp u a b g (fun x y => x.slt y) s) else .refused (.illFormed "BLT")

def execBge (u : UnitId) (a : Reg) (b : BSrc) (g : Target) (s : State) : Host.Outcome State Fault Refusal :=
  if targetOk g then .next (branchOp u a b g (fun x y => y.sle x) s) else .refused (.illFormed "BGE")

def execBltu (u : UnitId) (a : Reg) (b : BSrc) (g : Target) (s : State) : Host.Outcome State Fault Refusal :=
  if targetOk g then .next (branchOp u a b g (fun x y => x.ult y) s) else .refused (.illFormed "BLTU")

def execBgeu (u : UnitId) (a : Reg) (b : BSrc) (g : Target) (s : State) : Host.Outcome State Fault Refusal :=
  if targetOk g then .next (branchOp u a b g (fun x y => y.ule x) s) else .refused (.illFormed "BGEU")

def execJmp (u : UnitId) (g : Target) (s : State) : Host.Outcome State Fault Refusal :=
  if targetOk g then
    .next (issue u .control (targetAbs g) [] (landsOnImm u (targetAddr u g s) s)
      (fun s => setPc u (targetAddr u g s) s) s)
  else .refused (.illFormed "JMP")

/-- The address after the instruction at the pc. -/
def nextPc (u : UnitId) (wide : Bool) (s : State) : Nat := (s.units[u].pc + (if wide then 2 else 1)) % codeSize u

/-- CALL writes to s31 the address after itself (R287). -/
def execCall (u : UnitId) (g : Target) (s : State) : Host.Outcome State Fault Refusal :=
  if targetOk g then
    .next (issue u .control (targetAbs g) [.s 31] (landsOnImm u (targetAddr u g s) s)
      (fun s => setPc u (targetAddr u g s) (setS u 31 (BitVec.ofNat 32 (nextPc u (targetAbs g) s)) s)) s)
  else .refused (.illFormed "CALL")

/-- Branch to the address in a register (R286). -/
def jumpReg (u : UnitId) (a : Reg) (s : State) : State :=
  issue u .control false [.s a] (landsOnImm u (regTarget u (getS u a s)) s)
    (fun s => setPc u (regTarget u (getS u a s)) s) s

def execJmpr (u : UnitId) (a : Reg) (s : State) : Host.Outcome State Fault Refusal := .next (jumpReg u a s)

/-- RET is JMPR s31 (Table 12.16). -/
def execRet (u : UnitId) (s : State) : Host.Outcome State Fault Refusal := .next (jumpReg u 31 s)

def execRetx (u : UnitId) (s : State) : Host.Outcome State Fault Refusal :=
  .next (issue u .control false [] false (returnExc u) s)

/-- LOOP: the register, decremented, decides (Table 12.16).  A branch that raises leaves the register (R252). -/
def execLoop (u : UnitId) (a : Reg) (g : Target) (s : State) : Host.Outcome State Fault Refusal :=
  if targetOk g then
    let taken := a ≠ 0 && getS u a s - 1 ≠ 0
    .next (issue u .control (targetAbs g) [.s a] (taken && landsOnImm u (targetAddr u g s) s)
      (fun s =>
        let s' := setS u a (getS u a s - 1) s
        if taken then setPc u (targetAddr u g s) s' else advance u (targetAbs g) s') s)
  else .refused (.illFormed "LOOP")

/-- STAT (R260, R288). -/
def execStat (u : UnitId) (d a : Reg) (k : Option Word) (s : State) : Host.Outcome State Fault Refusal :=
  .next (issue u .stat k.isSome [.s d, .s a] false
    (fun s =>
      let (s, w) := readStatus u (statAddr u a k s) s
      advance u k.isSome (setS u d w s)) s)

/-- EVT.CLR: D names the mask register (R288, R443). -/
def execEvtClr (u : UnitId) (m a : Reg) (k : Option Word) (s : State) : Host.Outcome State Fault Refusal :=
  .next (issue u .stat k.isSome [.s m, .s a] false
    (fun s => advance u k.isSome (clearStatus (statAddr u a k s) (getS u m s) s)) s)

end Sys2Proof.Machine
end

