-- ==== Sys2Proof/Machine/Event.lean ====
section
/-!
DEFINITION. How an EVENT instruction issues and travels (R250, R284), and what several blocks share: the safe state and
the subject of a focal die's events.
-/

namespace Sys2Proof.Machine

/-- An EVENT instruction other than EJECT is lost for want of a path (R250). -/
def eventLost (u : UnitId) (s : State) : State := raiseLim 0x2105 6 u 0 (bump F.isaEventLostLost s)

/-- Issue an EVENT instruction of one word or two to die `d`, checked by `ok` (EXC_RANGE otherwise, R284): it acts there,
or is lost and counted when no path leads there (R250); while the hub moves a link of the path its sender holds it (R232). -/
def eventOp (u : UnitId) (wide : Bool) (rs : List RegRef) (ok : State → Bool) (d : State → Nat) (act : State → State)
    (s : State) : State :=
  issue u .event wide rs false
    (fun s =>
      if !ok s then takeExc u 7 wide s
      else if !reach (dieOf u) (d s) s then advance u wide (eventLost u s)
      else if held (dieOf u) (d s) s then s
      else advance u wide (act s)) s

/-- Is the shutdown latch set (R354)? -/
def inShutdown (s : State) : Bool := flag F.thmStateShutdown s

/-- Does the device hold the safe state (R427)? -/
def inSafe (s : State) : Bool := flag F.intStateSafe s || inShutdown s

/-- Is the sorting path at work: running, and not in the safe state, of a shutdown or another cause (R424, R427)? -/
def working (s : State) : Bool := sorting s && !inSafe s

/-- Do the life-cycle cells in OTP disagree with their complement (R92, R424)? -/
def otpBad (s : State) : Bool := s.sec.otp.2 ≠ ~~~ s.sec.otp.1

/-- A wear-out condition of monitor `b`, bit number of THM.WEAR: where it is met for the first time its bit sets and it is
reported, once per subject; a condition that persists sets nothing again (R362, R445). -/
def wearOut (b kind index : Nat) (s : State) : State :=
  let k := (16 * b + kind, index)
  if s.thm.told.contains k then s
  else
    let s := setF (nth F.thmWearLogic [F.thmWearLogic, F.thmWearFd, F.thmWearValve, F.thmWearLamp, F.thmWearDdr] b) 1 s
    raise 0x330A kind index b { s with thm := { s.thm with told := k :: s.thm.told } }

/-- Take a free value (assumption 6). -/
def takeFree (s : State) : Nat × State := (Config.freeValue s.free, { s with free := s.free + 1 })

/-- Change one focal die. -/
def modFd (d : Fin 2) (f : FocalDie → FocalDie) (s : State) : State := { s with focal := vmod s.focal d f }

/-- Is the focal die present and running? -/
def fdUp (d : Fin 2) (s : State) : Bool := diePresent s.opt (4 + d) && dieUp (4 + d) s

/-- Is the actuator die present and running? -/
def adUp (d : Fin 2) (s : State) : Bool := diePresent s.opt (6 + d) && dieUp (6 + d) s

/-! ### Messages to the actuator dies (R232, R250) -/

/-- The unit that sent a message. -/
def Msg.unit : Msg → UnitId
  | .eject u _ _ | .latch u _ _ | .lamp u _ _ | .shutter u _ => u

/-- Does a message find no working path to actuator die `d` any more?  It then is lost on its way (R250). -/
def lostOnWay (d : Fin 2) (m : Msg) (s : State) : Bool := dieUp (dieOf m.unit) s && !reach (dieOf m.unit) (6 + d) s

/-- May what die `src` sent arrive: actuator die `d` works, and no link of the path is being moved? -/
def arrivesFrom (src : Nat) (d : Fin 2) (s : State) : Bool := clocked s && adUp d s && !held src (6 + d) s

/-- May the message in front arrive? -/
def arrives (d : Fin 2) (m : Msg) (s : State) : Bool := arrivesFrom (dieOf m.unit) d s

/-- The first equal LATCH on its way to the other die no longer counts: its instruction has counted as lost. -/
def tellTwin (u : UnitId) (b : List Word) : List Msg → List Msg
  | [] => []
  | m :: t => if m = .latch u false b then .latch u true b :: t else m :: tellTwin u b t

/-- A message to die `d` is lost on its way: an EJECT is dropped at the scheduler, any other instruction counts once, whichever
dies it was sent to (R250). -/
def loseMsg (d : Fin 2) (m : Msg) (s : State) : State :=
  match m with
  | .eject _ _ _ => bump (F.ejtDropLinkDropLink d) s
  | .latch u told b =>
    if told then s else eventLost u { s with msgs := vmod s.msgs (d + 1) (tellTwin u b) }
  | .lamp u _ _ | .shutter u _ => eventLost u s

/-- Put a message behind those on their way to a die. -/
def sendMsg (d : Fin 2) (m : Msg) (s : State) : State := { s with msgs := s.msgs.set d (s.msgs[d] ++ [m]) }

end Sys2Proof.Machine
end

