-- ==== Sys2Proof/Machine/Arith.lean ====
section
/-!
DEFINITION. The arithmetic of the sorting path: the roundings of R124 and R155, and the real-number functions of the
formulas, computed in fixed point with 64 fraction bits (assumption 16).
-/

namespace Sys2Proof.Machine

/-- floor(x / 2^n), rounded to nearest, ties to even (R124). -/
def rneShift (n : Nat) (x : Int) : Int :=
  let m : Int := (2 ^ n : Nat)
  let q := x / m
  let r := x % m
  if m < 2 * r || (m = 2 * r && n ≠ 0 && q % 2 ≠ 0) then q + 1 else q

/-- num / den rounded to nearest, ties to even; den > 0. -/
def rneDiv (num : Int) (den : Nat) : Int :=
  let m : Int := den
  let q := num / m
  let r := num % m
  if m < 2 * r || (m = 2 * r && q % 2 ≠ 0) then q + 1 else q

/-- num / den rounded to nearest, halves up; den > 0. -/
def rndDiv (num : Int) (den : Nat) : Int := (2 * num + den) / (2 * (den : Int))

/-- rne_sat (R124): the result, and whether it saturated. -/
def rneSat (acc : Int) (sh n : Nat) : Int × Bool :=
  let q := rneShift sh acc
  let c := clampI (-((2 ^ (n - 1) : Nat) : Int)) ((2 ^ (n - 1) : Nat) - 1) q
  (c, c ≠ q)

/-- Round a rational to nearest, halves up. -/
def rndRat (q : Rat) : Int := (q + 1 / 2).floor

/-- The integer square root, bit by bit. -/
def isqrtFrom (n : Nat) : Nat → Nat → Nat
  | 0, acc => acc
  | k + 1, acc => isqrtFrom n k (if (acc + 2 ^ k) * (acc + 2 ^ k) ≤ n then acc + 2 ^ k else acc)

/-- floor(√n). -/
def isqrt (n : Nat) : Nat := isqrtFrom n (n.log2 / 2 + 1) 0

/-- √q of a rational, to 2^-64. -/
def ratSqrt (q : Rat) : Rat := (isqrt (q * (2 ^ 128 : Nat)).floor.toNat : Rat) / (2 ^ 64 : Nat)

/-- Terms `k`, `k-1`, … of the exponential series of x = xn / 2^64, by Horner's rule. -/
def expHorner (x : Int) : Nat → Nat → Int → Int
  | 0, _, acc => acc
  | n + 1, k, acc => expHorner x n (k - 1) (2 ^ 64 + x * acc / (2 ^ 64) / (k : Int))

/-- 2^64 · exp(x / 2^64) for |x| up to a few times 2^64. -/
def exp64 (x : Int) : Int := expHorner x 48 48 (2 ^ 64)

/-- 2^64 · exp(-num/den). -/
def expNeg (num den : Nat) : Int := exp64 (-((num * 2 ^ 64 / den : Nat) : Int))

/-- 2^64 · ln(x / 2^64) for x > 0, bisecting exp64 between `lo` and `hi`. -/
def lnBisect (x : Int) : Nat → Int → Int → Int
  | 0, lo, _ => lo
  | n + 1, lo, hi =>
    let m := (lo + hi) / 2
    if exp64 m ≤ x then lnBisect x n m hi else lnBisect x n lo m

/-- 2^64 · ln(num/den) of a ratio between exp(-4) and exp(4). -/
def ln64 (num den : Nat) : Int := lnBisect ((num * 2 ^ 64 / den : Nat) : Int) 80 (-(4 * 2 ^ 64)) (4 * 2 ^ 64)

/-- The median of a list of integers: its lower middle after sorting for odd lengths, the mean of the two middle ones
for even lengths, as a rational. -/
def medianRat (xs : List Rat) : Rat :=
  let ys := sortBy (fun x y => decide (x ≤ y)) xs
  let n := ys.length
  if n % 2 = 1 then nth 0 ys (n / 2) else (nth 0 ys (n / 2 - 1) + nth 0 ys (n / 2)) / 2

/-- Every `n`-th part of a list. -/
def chunksOf {α : Type} (n : Nat) : Nat → List α → List (List α)
  | 0, _ => []
  | k + 1, l => if l.isEmpty then [] else l.take n :: chunksOf n k (l.drop n)

end Sys2Proof.Machine
end

