-- ==== Sys2Proof/Machine/Cells.lean ====
section
/-!
DEFINITION. Sending Vangad cells (R411, R412), the LSYNC output (R117), and what several network operations share.
-/

namespace Sys2Proof.Machine

/-- Change the network's state. -/
def modNet (f : NetPart → NetPart) (s : State) : State := { s with net := f s.net }

/-- Something leaves the device. -/
def send (x : Sent) (s : State) : State := modNet (fun n => { n with sent := x :: n.sent }) s

/-- The little-endian bytes of a number (R8). -/
def leBytes : Nat → Nat → List Byte
  | 0, _ => []
  | n + 1, x => BitVec.ofNat 8 x :: leBytes n (x / 256)

/-- A little-endian number. -/
def leNat (bs : List Byte) : Nat := bs.foldr (fun b a => b.toNat + 256 * a) 0

/-- The module's device number, or that of every module while it has none (R403). -/
def devnum (s : State) : Nat := if flag F.lnkNetNumValid s then getF F.lnkNetDevnum s else 0x3FFFF

/-- Fields of the link settings in force (Table 19.4). -/
def vgdEnabled (p : Fin 2) (s : State) : Bool := bit (s.word F.lnkCfg0) (30 + p)
def syncFwd (p : Fin 2) (s : State) : Bool := bit (s.word F.lnkCfg0) (27 + p)

/-- Is the Vangad link trained? -/
def vgdUp (p : Fin 2) (s : State) : Bool := flagAt F.lnkPortVgdUp p s

/-- Do cells leave on the link: enabled and up?  In PARK it is idle but for the cells it forwards (R90, R118, Table 2.4). -/
def vgdSends (fwd : Bool) (p : Fin 2) (s : State) : Bool :=
  vgdEnabled p s && vgdUp p s && (s.pins.vgdTx || (fwd && s.mode = .park))

/-- The types of cell (Table 19.3). -/
def cellIdle : Nat := 0
def cellSync : Nat := 1
def cellLatch : Nat := 2
def cellHandoff : Nat := 3
def cellTime : Nat := 4
def cellOwner : Nat := 5

/-- Is the cell sent twice (R411)? -/
def twice (kind : Nat) : Bool := kind = cellSync || kind = cellLatch

/-- Bytes 0–59 of a cell (Table 19.3). -/
def cellBytes (kind : Nat) (c : Cell) : List Byte :=
  leBytes 1 kind ++ leBytes 1 c.hops ++ leBytes 2 c.group.toNat ++ leBytes 3 c.source.toNat ++ leBytes 1 c.cseq.toNat ++
    (c.payload ++ List.replicate 48 0).take 48 ++ leBytes 3 (c.cseq.toNat / 256) ++ [0]

/-- The CRC of a cell's bytes, in its bytes 60–63 (Table 19.3). -/
def cellCrc (kind : Nat) (c : Cell) : Word := BitVec.ofNat 32 (crc32 (cellBytes kind c))

/-- Put a cell with its CRC on a link: one of its own, or a forwarded one; an idle cell is due 1 µs after the last (R411). -/
def putCell (fwd : Bool) (p : Fin 2) (kind : Nat) (c : Cell) (s : State) : State :=
  if !vgdSends fwd p s then s
  else
    let x := Sent.cell p kind { c with crc := cellCrc kind c }
    let s := modNet (fun n => { n with vgd := vmod n.vgd p fun v => { v with sentAt := s.periph } }) s
    if twice kind then send x (send x s) else send x s

/-- The next CSEQ of a type (R412). -/
def nextCseq (kind : Nat) (s : State) : Nat := s.net.cseq[Fin.ofNat 6 kind]

/-- Originate one cell on the links named: the counter of its type advances (R412). -/
def originate (links : List (Fin 2)) (kind hops group : Nat) (payload : List Byte) (s : State) : State :=
  let c : Cell :=
    { hops := hops, group := BitVec.ofNat 16 group, source := BitVec.ofNat 18 (devnum s),
      cseq := BitVec.ofNat 32 (nextCseq kind s), payload := (payload ++ List.replicate 48 0).take 48, crc := 0 }
  let s := links.foldl (fun s p => putCell false p kind c s) s
  modNet (fun n => { n with cseq := n.cseq.set (Fin.ofNat 6 kind) ((nextCseq kind s + 1) % 2 ^ 32) }) s

/-- A link on which nothing was sent for 1 µs carries an idle cell, in PARK too (R411, Table 2.4).  Its HOPS is 1 (DESIGN
CHOICE: Table 19.3 gives 1–63 and no value for an idle cell; assumption 114). -/
def idleCell (p : Fin 2) (s : State) : State :=
  if vgdSends true p s && decide (s.net.vgd[p].sentAt + 100 ≤ s.periph) then
    let c : Cell :=
      { hops := 1, group := 0, source := BitVec.ofNat 18 (devnum s), cseq := BitVec.ofNat 32 (nextCseq cellIdle s),
        payload := List.replicate 48 0, crc := 0 }
    modNet (fun n => { n with cseq := n.cseq.set 0 ((nextCseq cellIdle s + 1) % 2 ^ 32) }) (putCell true p cellIdle c s)
  else s

/-- An edge at device time `e0` sends a SYNC cell on every link with SYNC_FWD (R414). -/
def syncCells (e0 : Nat) (s : State) : State :=
  originate ((List.finRange 2).filter fun p => syncFwd p s) cellSync 63 0 (leBytes 8 e0) s

/-- LSYNC is no longer an output: the pulses on it end (Table 2.4). -/
def cutLsync (s : State) : State :=
  { s with pins := { s.pins with lsync := false }, grid := { s.grid with pulses := [] } }

/-- The LSYNC output at a PERIPH cycle follows its pulses (R117). -/
def driveLsync (s : State) : State :=
  { s with
    pins := { s.pins with lsync := s.grid.pulses.any fun x => decide (x.1 ≤ s.periph) && decide (s.periph < x.2) }
    grid := { s.grid with pulses := s.grid.pulses.filter fun x => decide (s.periph < x.2) } }

/-- With LSYNC_MODE = output an edge at cycle `c` drives LSYNC high for 1 µs from 500 ns before it (R117). -/
def lsyncPulse (c : Nat) (s : State) : State :=
  if getF (F.fpdStateLsyncMode 0) s = 2 then
    driveLsync { s with grid := { s.grid with pulses := s.grid.pulses ++ [(c - 50, c + 50)] } }
  else s

/-- An edge that is not to come drives no pulse. -/
def dropPulse (c : Nat) (s : State) : State :=
  { s with grid := { s.grid with pulses := s.grid.pulses.filter fun x => x.2 ≠ c + 50 } }

end Sys2Proof.Machine
end

