-- ==== Sys2Proof/Machine/Focal.lean ====
section
/-!
DEFINITION. The focal dies: pacer settings (R99–R102), line headers (R103), bias bands (R104–R107), column conversion
(R108–R112), shutter (R113–R116) and synchronising resets (R117, R118).
-/

namespace Sys2Proof.Machine

/-! ### Settings -/

/-- Fields of a settings record (Table 5.2). -/
def recRun (e : FocalDie) : Bool := bit e.kept0 31
def recBias (e : FocalDie) : Bool := bit e.kept0 30
def recDiag (e : FocalDie) : Bool := bit e.kept0 29
def recLock (e : FocalDie) : Bool := bit e.kept0 28
def recLockBand (e : FocalDie) : Nat := bits e.kept0 27 23
def recSlot (e : FocalDie) : Nat := bits e.kept0 11 0

/-- Does the endpoint accept the record (R99)? -/
def fpdRecordOk (d : Fin 2) (ws : List Word) : Bool :=
  match ws with
  | [a, b] =>
    inR 0 (bits a 27 23) 17 && bits a 20 12 = 0 &&
      (if d = 0 then inR 0 (bits a 22 21) 2 && inR 400 (bits a 11 0) 4000 else bits a 22 21 = 0 && bits a 11 0 = 0) &&
      inR 20 (bits b 31 24) 200 && inR 20 (bits b 23 16) 200 && inR 20 (bits b 15 8) 200 &&
      (inR 0 (bits b 7 2) 31 || bits b 7 2 = 63) && bits b 1 0 = 0
  | _ => false

/-- The band whose range holds a substrate value in 0.01 °C, held to 0–17 (Table 5.5, R106).  A value on the edge that two
bands share counts with the upper one (DESIGN CHOICE, assumption 43). -/
def bandOf (t : Int) : Nat := (clampI 0 17 ((t + 2000) / 500)).toNat

/-- The filtered substrate value: the fifth smallest of the last eight samples (R105). -/
def filtered (e : FocalDie) : Int := nth 0 (sortBy (fun x y => decide (x ≤ y)) e.hist) 4

/-- Put a band in use: a change counts and is reported (R105). -/
def useBand (d : Fin 2) (b : Nat) (s : State) : State :=
  if getF (F.fpdStateBand d) s = b then s
  else raise 0x1001 1 (4 + d) 0 (bump (F.fpdCountBandChanges d) (setF (F.fpdStateBand d) b s))

/-- The band that the settings and the dwell call for: the locked one; on release that of the filtered value; else the
pending one, or the one in use (R103, R105). -/
def wantedBand (d : Fin 2) (s : State) : Nat :=
  let e := s.focal[d]
  if recLock e then recLockBand e
  else if flag (F.fpdStateBandLock d) s then bandOf (filtered e)
  else e.pend.getD (getF (F.fpdStateBand d) s)

/-- Take up DIAG, the lock and the band (Table 5.3). -/
def takeBand (d : Fin 2) (s : State) : State :=
  let e := s.focal[d]
  let s := useBand d (wantedBand d s) s
  let s := setF (F.fpdStateBandLock d) (b2n (recLock e)) (setF (F.fpdStateDiag d) (b2n (recDiag e)) s)
  modFd d (fun e => { e with pend := none }) s

/-- Is the pacer converting? -/
def pacing (d : Fin 2) (s : State) : Bool := flag (F.fpdStateRun d) s

/-- The shutter settings of the record show in FPD.SHUTTER_CFG (Table 5.3). -/
def takeShutter (d : Fin 2) (s : State) : State :=
  let w := s.focal[d].kept1
  setF (F.fpdShutterCfgTravel d) (bits w 31 24) (setF (F.fpdShutterCfgReopen d) (bits w 23 16)
    (setF (F.fpdShutterCfgHold d) (bits w 15 8) s))

/-- The fields of a record that act at once: LSYNC_MODE and SHT_AIN (Table 5.3). -/
def takeAtOnce (d : Fin 2) (s : State) : State :=
  let e := s.focal[d]
  let s := if d = 0 then setF (F.fpdStateLsyncMode 0) (bits e.kept0 22 21) s else s
  setF (F.fpdShutterCfgShtAin d) (bits e.kept1 7 2) s

/-- The bias starts or stops pulsing; each start after a time without pulses opens the settling window (R101). -/
def setBias (d : Fin 2) (on : Bool) (s : State) : State :=
  if on then
    if flag (F.fpdStateBiasOn d) s then s else setF (F.fpdStateSettling d) 1 (setF (F.fpdStateBiasOn d) 1 s)
  else setF (F.fpdStateSettling d) 0 (setF (F.fpdStateBiasOn d) 0 s)

/-- Does the bias of a stopped pacer pulse: in STANDBY, on the way into it and out of it, and at no other time (R101, R102)?  On
exit from PARK it starts with the pacer, at the synchronising reset, as R101 and R102 say; Table 4.4 has it on at 100 µs
(assumption 116). -/
def restBias (s : State) : Bool :=
  !inSafe s &&
    match s.mode with
    | .entering false | .standby | .exiting false => true
    | _ => false

/-- The bias of a focal die whose pacer is stopped follows its record (R100–R102). -/
def setLowBias (d : Fin 2) (s : State) : State :=
  if fdUp d s then setBias d (restBias s && recRun s.focal[d] && recBias s.focal[d]) s else s

/-- The bias of both focal dies, as STANDBY keeps it (R102). -/
def standbyBias (s : State) : State := setLowBias 1 (setLowBias 0 s)

/-! ### Line slots -/

/-- The exit of Table 4.4 begins, from PARK or from STANDBY (R91); the Vangad links are no longer idle. -/
def startLeave (park : Bool) (s : State) : State :=
  { s with mode := .exiting park, power := { s.power with leaveAt := s.periph, leaveStage := 0 }
           pins := { s.pins with vgdTx := true } }

/-- The header words of the line slot that starts (Table 5.4). -/
def headerWords (d : Fin 2) (sync changed : Bool) (s : State) : List Word :=
  let t := s.time
  let top := BitVec.ofNat 32 (63 * 2 ^ 26)
  [top ||| BitVec.ofNat 32 (t % 2 ^ 24),
   top ||| BitVec.ofNat 32 (2 ^ 24 + t / 2 ^ 24 % 2 ^ 24),
   top ||| BitVec.ofNat 32 (2 * 2 ^ 24 + b2n sync * 2 ^ 23 + getF (F.fpdStateSettling d) s * 2 ^ 22 + b2n changed * 2 ^ 21 +
     getF (F.fpdStateBand d) s * 2 ^ 16 + t / 2 ^ 48 % 2 ^ 16),
   top ||| BitVec.ofNat 32 (3 * 2 ^ 24 + s.grid.line % 2 ^ 24)]

/-- The pacer starts a line slot under the settings in force from now (R98, R100–R103). -/
def startSlot (d : Fin 2) (sync : Bool) (s : State) : State :=
  let s := setF (F.fpdStateRun d) 1 (takeBand d s)
  let s := setBias d (recBias s.focal[d]) s
  let b := getF (F.fpdStateBand d) s
  let h := headerWords d sync (s.focal[d].lastBand.any (· ≠ b)) s
  modFd d (fun e => { e with row := 0, stamp := s.time, header := h, lastBand := some b, rejoin := false }) s

/-- The pacer stops at the end of a line slot, and what waits for a boundary takes effect; the bias goes on pulsing only into
STANDBY, where the record asks for it (R101, R102, Table 5.3). -/
def stopPacer (d : Fin 2) (keepBias : Bool) (s : State) : State :=
  let s := takeBand d (setF (F.fpdStateRun d) 0 s)
  if keepBias && recRun s.focal[d] && recBias s.focal[d] then s else setBias d false s

/-- Has every running pacer finished its last row slot, so that a line-slot boundary can come? -/
def atBoundary (s : State) : Bool :=
  (List.finRange 2).all fun d => !pacing d s || s.focal[d].row = 50

/-- Recovery intervals run on by `ns`, up to now (R111). -/
def runRecov (d : Fin 2) (ns : Nat) (s : State) : State :=
  modFd d (fun e => { e with recov := (e.recov.map fun g => (g.1, g.2 - ns)).filter fun g => g.2 ≠ 0, mark := s.periph }) s

/-- The ns since recovery intervals of a die last ran on: PERIPH cycles are 10 ns. -/
def sinceMark (d : Fin 2) (s : State) : Nat := 10 * (s.periph - s.focal[d].mark)

/-- The ns from the end of row slot 49 to the end of the line slot (R98). -/
def blanking (s : State) : Nat := getF (F.fpdStateLineSlot 0) s * 250 - 100000

/-- Pacer `d` at a line-slot boundary; `other` says the pacer of the other focal die was running (Table 5.3); a pacer whose
die has rejoined restarts (R88). -/
def pacerBoundary (d : Fin 2) (other : Bool) (s : State) : State :=
  let was := pacing d s
  let s := if was then setF (F.fpdLineLine d) ((s.grid.line + 2 ^ 24 - 1) % 2 ^ 24) s else s
  let want := recRun s.focal[d]
  if !fdUp d s then s
  else match s.mode with
    | .entering park => if was then stopPacer d (!park) s else s
    | _ =>
      if want && (was || other || s.focal[d].rejoin) then startSlot d false s
      else if was then stopPacer d false s else s

/-- The line-slot length accepted takes effect at both pacers and at the hub's timer together (Table 5.3). -/
def takeLineSlot (s : State) : State :=
  let n := recSlot s.focal[(0 : Fin 2)]
  let s := setF (F.fpdStateLineSlot 0) n s
  if diePresent s.opt 5 then setF (F.fpdStateLineSlot 1) n s else s

/-- The focal dies and the hub's timer at a line-slot boundary (R98, R100). -/
def focalBoundary (s : State) : State :=
  let b := blanking s
  let one (d : Fin 2) (s : State) : State := runRecov d (if pacing d s then b else sinceMark d s) s
  let s := one 1 (one 0 s)
  let r0 := pacing 0 s
  let r1 := pacing 1 s
  let s := { s with grid := { s.grid with line := (s.grid.line + 1) % 2 ^ 24 } }
  let s := takeLineSlot s
  pacerBoundary 1 r0 (pacerBoundary 0 r1 s)

/-! ### Conversion -/

/-- Full scale and twice full scale of a converter (R108, R111). -/
def overFull (x : Int) : Bool := decide (131071 < x) || decide (x < -131072)
def overTwice (x : Int) : Bool := decide (262142 < x) || decide (x < -262144)

/-- The 18-bit code of an input level (R108). -/
def codeOf (x : Int) : Nat := enc 18 (clampI (-131072) 131071 x)

/-- The shared-reference group of a physical column (Table 5.1). -/
def groupOf (p : Nat) : Nat := p / 16

/-- The pixel word of physical column `p` (Table 5.6). -/
def pixelWord (row : Nat) (x : Int) (recov : Bool) : Word :=
  BitVec.ofNat 32 (row * 2 ^ 26 + b2n recov * 2 ^ 19 + b2n (overFull x) * 2 ^ 18 + codeOf x)

/-- Does every word of the row slot carry RECOV: bias off, settling, or out of tolerance (R101, R107)? -/
def allRecov (d : Fin 2) (ampErr : Bool) (s : State) : Bool :=
  !flag (F.fpdStateBiasOn d) s || flag (F.fpdStateSettling d) s || ampErr

/-- Is the group inside a recovery interval (R111)? -/
def inRecov (d : Fin 2) (g : Nat) (s : State) : Bool := s.focal[d].recov.any fun r => r.1 = g

/-- The groups with a column beyond twice full scale. -/
def overGroups (x : List ColIn) : List Nat :=
  (List.range 129).filter fun g => ((x.drop (16 * g)).take 16).any fun c => overTwice c.level

/-- The first die column of link B (R110). -/
def linkSplit (d : Fin 2) : Nat := if d = 0 then 1536 else 1024

/-- The links A and B of a focal die (Table 10.2). -/
def fdLink (d : Fin 2) (b : Bool) : Nat := 2 * d + b2n b

/-- What a link carries of the 2,064 physical columns: LO0–LO7, HI0–HI7, then the active columns it serves (R110); nothing
once it is fatal (R233). -/
def linkWords {α : Type} (d : Fin 2) (b : Bool) (xs : List α) (s : State) : List α :=
  if !linkOk (fdLink d b) s then []
  else
    let k := linkSplit d
    xs.take 8 ++ (xs.drop 2056).take 8 ++ (if b then ((xs.drop (8 + k)).take (2048 - k)) else (xs.drop 8).take k)

/-- The run of a calibration item. -/
def runOf (i : Nat) (s : State) : Option CalRun := s.cal.runs.find? fun r => r.item = i

/-- The CONV repeat under way on die `d`, by its start, for which R187 takes row 49 as ramp: one that measures, with blanking
below 2 µs. -/
def rampRow (d : Fin 2) (s : State) : Option Nat :=
  if 2000 ≤ blanking s then none
  else (runOf (4 + d.val) s).bind fun r =>
    match r.phase with
    | .repeating _ => some r.since
    | _ => none

/-- The row conversion of pacer `d` (R108–R112): pixel words set out for the stream dies, recovery intervals start, and
with DIAG the modulator bits are offered to a transfer that waits for them.  A further overload that restarts a running
interval counts like any other start (DEDUCED, assumption 46); at FPD0.RAW and FPD1.RAW the words of link A stand before
those of link B (DESIGN CHOICE, assumption 47). -/
def convertRow (d : Fin 2) (row : Nat) (x : List ColIn) (ampErr : Bool) (s : State) : State :=
  let all := allRecov d ampErr s
  let cols : List ColIn := (x ++ List.replicate 2064 (ColIn.mk 0 0)).take 2064
  let ws := cols.zipIdx.map fun c => pixelWord row c.1.level (all || inRecov d (groupOf c.2) s)
  let s := if ampErr && flag (F.fpdStateBiasOn d) s then
      raiseLim 0x1004 1 (4 + d) 0 (setF (F.fpdFaultBias d) 1 s) else s
  let s := bumpBy (F.fpdOvrCountOvrCount d) (cols.countP fun c => overFull c.level) s
  let gs := overGroups cols
  let s := bumpBy (F.fpdRecovCountRecovCount d) gs.length s
  let s := runRecov d 2000 s
  let raw := if flag (F.fpdStateDiag d) s then
      (linkWords d false cols s ++ linkWords d true cols s).flatMap fun c => [lo32 c.bits, hi32 c.bits] else []
  let awaited := s.xfers.any fun y => !y.out && y.code.isNone && y.ep = 0x32 + d
  modFd d (fun e => { e with
    row := row + 1
    sent := e.sent ++ [(row, linkWords d false ws s, linkWords d true ws s, if row = 49 then rampRow d s else none)]
    raw := if awaited then e.raw ++ raw else []
    recov := gs.map (fun g => (g, 4000)) ++ e.recov.filter fun r => !gs.contains r.1 }) s

/-- A row slot ends (R108). -/
def execRowSlotEnd (d : Fin 2) (row : Fin 50) (x : List ColIn) (ampErr : Bool) (s : State) :
    Host.Outcome State Fault Refusal :=
  .next (
    if working s && fdUp d s && pacing d s && s.focal[d].row = row.val then convertRow d row x ampErr s else s)

/-- A transfer takes raw-modulator words, once enough have been offered to it (R112). -/
def execFpdRawRead (u : UnitId) (t : Tag) (s : State) : Host.Outcome State Fault Refusal :=
  .next (
    match findXfer u t false (fun ep => ep = 0x32 || ep = 0x33) s with
    | none => s
    | some x =>
      let d : Fin 2 := Fin.ofNat 2 (x.ep - 0x32)
      if reach (dieOf u) (1 + d) s && decide (s.focal[d].raw.length < x.len / 4) then s
      else dataIn u t (fun ep => ep = 0x32 || ep = 0x33)
        (fun _ s => if s.opt = .zt4 then [1] else [1 + d.val, 2 + d.val])
        (fun x s => (modFd d (fun e => { e with raw := e.raw.drop (x.len / 4) }) s, 0, s.focal[d].raw.take (x.len / 4))) s)

/-! ### Substrate and bias -/

/-- Does the filtered value lie more than 0.5 °C beyond an edge of band `b` (R105)? -/
def beyondBand (b : Nat) (t : Int) : Bool := decide (t < -2000 + 500 * b - 50) || decide (-1500 + 500 * b + 50 < t)

/-- OUT_OF_BAND (R106). -/
def outOfBand (d : Fin 2) (t : Int) (s : State) : Bool :=
  if flag (F.fpdStateBandLock d) s then beyondBand (getF (F.fpdStateBand d) s) t
  else decide (t < -2000) || decide (7000 < t)

/-- The settling window ends (R101). -/
def execBiasSettled (d : Fin 2) (s : State) : Host.Outcome State Fault Refusal :=
  .next (if clocked s && fdUp d s then setF (F.fpdStateSettling d) 0 s else s)

/-! ### Shutter -/

/-- The states of the shutter (Table 5.8). -/
def shOpen : Nat := 0
def shClosing : Nat := 1
def shClosed : Nat := 2
def shOpening : Nat := 3
def shFault : Nat := 4

/-- Move the shutter; a repeat changes nothing (R113, R115). -/
def moveShutter (d : Fin 2) (close : Bool) (s : State) : State :=
  let st := getF (F.fpdStateShutter d) s
  let same := if close then st = shClosing || st = shClosed else st = shOpen || st = shOpening
  if same then s
  else bump (F.fpdCountShutterMoves d)
    (setF (F.fpdStateShutter d) (if close then shClosing else shOpening) (takeShutter d s))

/-- The flag is released, without a command: the bridge goes to high impedance, and the spring opens it (R113, R354, R427). -/
def releaseShutter (d : Fin 2) (s : State) : State :=
  let st := getF (F.fpdStateShutter d) s
  if st = shClosing ∨ st = shClosed then setF (F.fpdStateShutter d) shOpening (takeShutter d s) else s

/-! ### Synchronising resets -/

/-- The first 250 ns boundary at least 500 ns from now, in PERIPH cycles (R117). -/
def edgeCycle (now : Nat) : Nat := (now + 50 + 24) / 25 * 25

/-- Change a field of both focal dies' blocks, on dies present. -/
def bothFd (f : Nat → State → State) (s : State) : State :=
  let s := f 0 s
  if diePresent s.opt 5 then f 1 s else s

/-- The internal reset edges pending, first to last; and put them. -/
def pendingEdges (s : State) : List Nat := s.grid.edge.toList ++ s.grid.later
def setEdges (es : List Nat) (s : State) : State := { s with grid := { s.grid with edge := es.head?, later := es.drop 1 } }

/-- Would an edge at cycle `c` fall less than 10 µs after the edge before it (R117)? -/
def edgeTooSoon (c : Nat) (s : State) : Bool :=
  (s.grid.lastEdge.toList ++ (pendingEdges s).filter fun e => decide (e ≤ c)).any fun e => decide (c < e + 1000)

/-- A request is ignored (R117); one event names FD0, though both dies count it (DESIGN CHOICE, assumption 45). -/
def ignoreEdge (s : State) : State :=
  raise 0x1007 1 4 0 (bothFd (fun i s => bump (F.fpdSyncSyncIgnoredCount i) (setF (F.fpdFaultSyncIgnored i) 1 s)) s)

/-- Request the internal reset edge at cycle `c`, or ignore the request; a later edge that would now fall less than 10 µs
after this one is ignored in its turn (R117). -/
def requestEdge (c : Nat) (s : State) : State :=
  if edgeTooSoon c s then ignoreEdge s
  else
    let near := (pendingEdges s).filter fun e => decide (c < e) && decide (e < c + 1000)
    let s := near.foldl (fun s e => ignoreEdge (dropPulse e s)) s
    setEdges (insertSorted (fun x y => decide (x ≤ y)) c ((pendingEdges s).filter fun e => !near.contains e)) s

/-- A request on this module at cycle `c`: an edge that arises sends its SYNC cells (R414). -/
def ownEdge (c : Nat) (s : State) : State :=
  if edgeTooSoon c s then requestEdge c s
  else syncCells (s.time + 10 * (c - s.periph)) (requestEdge c s)

/-- SYNC requests an edge in any LSYNC_MODE, and drives LSYNC in output mode; where the pacers are stopped it does nothing
(R117, R118). -/
def execSync (u : UnitId) (s : State) : Host.Outcome State Fault Refusal :=
  .next (eventOp u false [] (fun _ => true) (fun _ => 0)
    (fun s =>
      if working s then
        let c := edgeCycle s.periph
        if edgeTooSoon c s then ownEdge c s else lsyncPulse c (ownEdge c s)
      else s) s)

/-- Record the device time of an accepted LSYNC edge (R118). -/
def noteLsync (s : State) : State :=
  bothFd (fun i s => setF (F.fpdSyncTimeLoTimeLo i) (s.time % 2 ^ 32)
    (setF (F.fpdSyncTimeHiTimeHi i) (s.time / 2 ^ 32 % 2 ^ 32) s)) s

/-- An LSYNC rising edge, high for `ns`: in input mode and at least 100 ns long it requests a synchronising reset while
running, and is only recorded in STANDBY and shutdown (R117, R118).  In the exit from STANDBY it is recorded as in STANDBY
(DESIGN CHOICE, assumption 21), and in a shutdown begun in PARK it is ignored as in PARK (DESIGN CHOICE, assumption 139). -/
def execLsyncRise (ns : Nat) (s : State) : Host.Outcome State Fault Refusal :=
  .next (
    if decide (100 ≤ ns) && getF (F.fpdStateLsyncMode 0) s = 1 then
      if working s then
        let c := edgeCycle s.periph
        if edgeTooSoon c s then ownEdge c s else ownEdge c (noteLsync s)
      else if live s && (s.mode = .standby || s.mode = .exiting false || (inShutdown s && s.mode ≠ .park && s.mode ≠ .exiting true)) then noteLsync s
      else s
    else s)

/-- Does the pacer restart at an edge (R118): a running one, and one that waits to start; on the way into STANDBY or PARK none
waits, since the entry has stopped them (R90)? -/
def startsAtEdge (d : Fin 2) (s : State) : Bool :=
  fdUp d s && recRun s.focal[d] && match s.mode with
    | .entering _ => pacing d s
    | _ => true

/-- The pacers at the internal reset edge (R118): running and waiting pacers start line 0; words on their way are
discarded; the recovery intervals run on. -/
def focalSyncEdge (s : State) : State :=
  let s := setEdges s.grid.later { s with grid := { s.grid with line := 0, lastEdge := some (s.grid.edge.getD s.periph) } }
  let s := takeLineSlot s
  let one (d : Fin 2) (s : State) : State :=
    let s := modFd d (fun e => { e with sent := [] }) (runRecov d (sinceMark d s) s)
    if startsAtEdge d s then startSlot d true s
    else if pacing d s then stopPacer d false s else s
  let s := bothFd (fun i s => bump (F.fpdSyncSyncTaken i) s) s
  one 1 (one 0 s)

end Sys2Proof.Machine
end

