-- ==== Sys2Proof/Machine/CalRuns.lean ====
section
/-!
DEFINITION. What ends a calibration run, by itself or by an interruption (R198, R199), for the blocks whose own steps
interrupt runs, and the SHUTTER with the commands that act on arrival at an actuator die (R250).
-/

namespace Sys2Proof.Machine

/-- Is the item running? -/
def calRunning (i : Nat) (s : State) : Bool := flagAt F.calStateRunning i s

/-- The trims that a SADC run loaded at the end of its second self-trim stay where the run ends in PASS, and give way to those
before them where it ends in FAIL (R195, R343; DESIGN CHOICE, assumption 125). -/
def endTrial (pass : Bool) (s : State) : State :=
  match s.cal.sadcOld with
  | none => s
  | some (o, g) =>
    let s := { s with cal := { s.cal with sadcOld := none } }
    if pass then s else setF F.sadcTrimOffset o (setF F.sadcTrimGain g s)

/-- A run ends: its result word with complement, count and time, and for a FAIL its event (R199).  A SHUT run that fails
releases the flag (R198); values of a PASS are unsaved until SAVE runs (R200). -/
def calEnd (i : Nat) (pass : Bool) (s : State) : State :=
  let s := setF (F.calItemResultRun i) ((getF (F.calItemResultRun i) s + 1) % 2 ^ 16) s
  let s := setF (F.calItemResultResult i) (if pass then 0xA5 else 0x3C) s
  let s := setF (F.calItemResultResultN i) (if pass then 0x5A else 0xC3) s
  let s := setF (F.calItemTimeDoneMs i) (s.time / 1000000 % 2 ^ 32) s
  let s := bump (if pass then F.calItemCountPassCount i else F.calItemCountFailCount i) s
  let s := setAt F.calStateRunning i false s
  let s := { s with cal := { s.cal with runs := s.cal.runs.filter fun r => r.item ≠ i } }
  let s := if i = 10 then endTrial pass s else s
  if pass then
    if i = 11 then s
    else
      { setF F.calStateSaveDue 1 s with cal := { s.cal with unsaved := (i, s.time) :: s.cal.unsaved } }
  else
    let s := raiseLim 0x1301 0xA i 0 s
    if i < 2 && getF (F.fpdStateShutter i) s ≠ shFault then moveShutter (Fin.ofNat 2 i) false s else s

/-- The runs among `is` end in FAIL (R198). -/
def calFail (is : List Nat) (s : State) : State :=
  is.foldl (fun s i => if calRunning i s then calEnd i false s else s) s

/-- The sums of a SCENE run restart (Table 8.5). -/
def sceneRestart (d : Fin 2) (s : State) : State :=
  { s with cal := { s.cal with
      runs := s.cal.runs.map fun r => if r.item = 2 + d.val then { r with sums := [], counts := [] } else r
      recent := s.cal.recent.set d [] } }

/-- A band change, line-slot change, synchronising reset, or RUN or BIAS_EN change at focal die `d` (Table 8.5). -/
def calPacerChange (d : Fin 2) (s : State) : State := sceneRestart d (calFail [d.val, 6 + d.val] s)

/-- What restarts or fails in the calibration when a die's pacing changes (Table 8.5). -/
def pacerChanges (was : State) (s : State) : State :=
  (List.finRange 2).foldl (fun s (d : Fin 2) =>
    if getF (F.fpdStateBand d) was ≠ getF (F.fpdStateBand d) s || getF (F.fpdStateLineSlot 0) was ≠ getF (F.fpdStateLineSlot 0) s || pacing d was ≠ pacing d s ||
        flag (F.fpdStateBiasOn d) was ≠ flag (F.fpdStateBiasOn d) s then calPacerChange d s else s) s

/-- A COR.MODEL record writes D, G or TAU of the die (Table 8.5). -/
def calModelWrite (d : Fin 2) (s : State) : State := calFail [d.val, 2 + d.val] s

/-- A die reset ends the runs of the die, of the focal dies a stream die serves, or of the actuator die (Table 8.5). -/
def calDieReset (die : Nat) (s : State) : State :=
  let fd (i : Nat) : List Nat := [i, 2 + i, 4 + i, 6 + i]
  let is :=
    if die = 4 then fd 0 else if die = 5 then fd 1
    else if die = 1 then fd 0
    else if die = 2 then fd 0 ++ fd 1
    else if die = 3 then fd 1
    else if die = 6 then fd 0 ++ [8] else if die = 7 then fd 1 ++ [9] else []
  calFail is s

/-- Entry to STANDBY or PARK, shutdown, or a freeze at its resume: every run but SAVE ends in FAIL (Table 8.5). -/
def calStopAll (s : State) : State := calFail [0, 1, 2, 3, 4, 5, 6, 7, 8, 9, 10] s

/-- Is an announced gap open (R184)? -/
def gapOpen (s : State) : Bool :=
  s.cal.feedOpen || match s.cal.gap with
    | some g => g.open_
    | none => false

/-- Show the gaps in CAL.STATE. -/
def showGaps (s : State) : State :=
  setF F.calStateGapOpen (b2n (gapOpen s)) (setF F.calStateDeclared (b2n s.cal.gap.isSome) s)

/-- The flag of the shutter left `OPENING`: the TAINT of R189 ends with this line slot. -/
def endShutTaint (d : Fin 2) (s : State) : State :=
  if s.cal.taint[d] = .off then s
  else { s with cal := { s.cal with taint := s.cal.taint.set d .ending } }

/-- Does a calibration shutter run on the die stand in progress (items 0 and 1 of Table 8.1)? -/
def shutRunning (d : Fin 2) (s : State) : Bool := flagAt F.calStateRunning d s

/-- A SHUTTER at its die: refused in a calibration run, which it ends in FAIL (Table 8.5), in PARK and in the safe state
(R114). In STANDBY a CLOSE is taken and the bridge driven (DESIGN CHOICE: R114 does not refuse it there, and Table 2.4 has
SHTn at high impedance; assumption 135). -/
def takeShutterCmd (d : Fin 2) (close : Bool) (s : State) : State :=
  if shutRunning d s || s.mode = .park || inSafe s then
    calFail [d.val] (raise 0x1006 1 (4 + d) 0 (setF (F.fpdFaultShutterRefused d) 1 s))
  else moveShutter d close s

/-! ### What arrives at an actuator die in front (R250) -/

/-- A LAMP or SHUTTER acts at its actuator die: a LAMP stages its value (R320), a SHUTTER drives the bridge (R113, R114). -/
def actMsg (d : Fin 2) (m : Msg) (s : State) : State :=
  match m with
  | .lamp _ k v => { s with lum := vmod s.lum d fun e => { e with stage := assocSet k v e.stage } }
  | .shutter _ close => takeShutterCmd d close s
  | .eject _ _ _ | .latch _ _ _ => s

/-- Does a message act as soon as none stands before it, with no arrival of its own in the command table? -/
def Msg.quick : Msg → Bool
  | .lamp _ _ _ | .shutter _ _ => true
  | .eject _ _ _ | .latch _ _ _ => false

/-- The LAMPs and SHUTTERs in front of a die's messages act there, in issue order (R250, R320). -/
def takeQuick (d : Fin 2) : List Msg → State → State
  | [], s => s
  | m :: rest, s =>
    if m.quick && arrives d m s then
      let s := { s with msgs := s.msgs.set d rest }
      takeQuick d rest (if lostOnWay d m s then loseMsg d m s else actMsg d m s)
    else s

def drainMsgs (d : Fin 2) (s : State) : State := takeQuick d s.msgs[d] s

/-- The die a SHUTTER operand names (Table 12.13). -/
def shutterDie (w : Word) : Fin 2 := if bit w 0 then 1 else 0

/-- The SHUTTER instruction: [0] die, [1] direction (Table 12.13); the bridge stands on the actuator die (R113), where it arrives
behind the commands on their way there (R250). -/
def shutterOp (u : UnitId) (b : Src) (s : State) : State :=
  issue u .event (srcImm b) (srcRegs b) false
    (fun s =>
      let w := srcVal u b s
      let d := shutterDie w
      if bits w 31 2 ≠ 0 || !diePresent s.opt (4 + d) then takeExc u 7 (srcImm b) s
      else if !reach (dieOf u) (6 + d) s then advance u (srcImm b) (eventLost u s)
      else advance u (srcImm b) (drainMsgs d (sendMsg d (.shutter u (!bit w 1)) s))) s

def execShutterClose (u : UnitId) (b : Src) (s : State) : Host.Outcome State Fault Refusal := .next (shutterOp u b s)

def execShutterOpen (u : UnitId) (b : Src) (s : State) : Host.Outcome State Fault Refusal := .next (shutterOp u b s)

/-- TRAVEL ends (R113). -/
def execShutterTravelEnd (d : Fin 2) (s : State) : Host.Outcome State Fault Refusal :=
  .next (
    if clocked s && getF (F.fpdStateShutter d) s = shClosing then setF (F.fpdStateShutter d) shClosed s else s)

/-- REOPEN has passed since the release (R113); the TAINT of a shutter run ends with this line slot, also where a fault released
the flag (R189, R198). -/
def execShutterReopenEnd (d : Fin 2) (s : State) : Host.Outcome State Fault Refusal :=
  .next (
    let st := getF (F.fpdStateShutter d) s
    if !clocked s then s
    else if st = shOpening then endShutTaint d (setF (F.fpdStateShutter d) shOpen s)
    else if st = shFault then endShutTaint d s else s)

/-- The bridge reports an overcurrent or an open load and goes to high impedance; a shutter run ends in FAIL, and its TAINT lasts
until REOPEN ends (R115, R198). -/
def execShutterFault (d : Fin 2) (overcurrent : Bool) (s : State) : Host.Outcome State Fault Refusal :=
  .next (
    let st := getF (F.fpdStateShutter d) s
    if clocked s && diePresent s.opt (4 + d) && (st = shClosing || (overcurrent && st = shClosed)) then
      let s := setF (F.fpdStateShutter d) shFault s
      let s := setF (if overcurrent then F.fpdFaultShutterOvercurrent d else F.fpdFaultShutterOpenLoad d) 1 s
      calFail [d.val] (raise 0x1005 1 (4 + d) 0 s)
    else s)

/-! ### Settings, substrate and band of a focal die (R99, R105, R106), which may interrupt runs (R198) -/

/-- A record arrives at FPD0.CTL or FPD1.CTL; while the die is in die reset the hub takes it, and its fields reach the die at
the rejoin (R99). -/
def execFpdCtlRecord (u : UnitId) (t : Tag) (s : State) : Host.Outcome State Fault Refusal :=
  .next (recordOut u t (fun ep => ep = 0x30 || ep = 0x31)
    (fun x _ s => [if dieUp (4 + (x.ep - 0x30)) s then 4 + (x.ep - 0x30) else 0])
    (fun x ws s =>
      let d : Fin 2 := Fin.ofNat 2 (x.ep - 0x30)
      if !fpdRecordOk d ws then refuseRecord (F.fpdFaultSettingsRefused d) 0x1003 1 (4 + d) x.ep s
      else
        let s := modFd d (fun e => { e with kept0 := nth 0 ws 0, kept1 := nth 0 ws 1 }) s
        let s := if fdUp d s then takeAtOnce d s else s
        (if fdUp d s && !pacing d s then pacerChanges s (setLowBias d (takeBand d s)) else s, 0)) s)

/-- The substrate sensor is sampled every 1 ms, in 0.01 °C (R105, R106).  FPD_OUT_OF_BAND is raised on entry with BAND_LOCK
too (DEDUCED, assumption 44). -/
def execSubstrateSample (d : Fin 2) (temp : Int) (s : State) : Host.Outcome State Fault Refusal :=
  .next (
    if clocked s && fdUp d s then
      let was := s
      let first := s.focal[d].hist.isEmpty
      let s := modFd d (fun e => { e with
        hist := if e.hist.isEmpty then List.replicate 8 temp else (temp :: e.hist).take 8 }) s
      let f := filtered s.focal[d]
      let s := setF (F.fpdSubstrateTemp d) (enc 16 f) s
      let s := if first && !flag (F.fpdStateBandLock d) s then setF (F.fpdStateBand d) (bandOf f) s else s
      let oob := outOfBand d f s
      let s := if oob && !flag (F.fpdStateOutOfBand d) s then raise 0x1002 1 (4 + d) 0 s else s
      let s := setF (F.fpdStateOutOfBand d) (b2n oob) s
      pacerChanges was <| modFd d (fun e => { e with
        dwelling := !flag (F.fpdStateBandLock d) s && beyondBand (getF (F.fpdStateBand d) s) f }) s
    else s)

/-- A dwell has lasted 100 ms: the change takes effect at the next boundary, at once when the pacer is stopped (R105). -/
def execBandDwellComplete (d : Fin 2) (s : State) : Host.Outcome State Fault Refusal :=
  .next (
    if clocked s && fdUp d s && s.focal[d].dwelling && !flag (F.fpdStateBandLock d) s then
      let b := bandOf (filtered s.focal[d])
      let s := modFd d (fun e => { e with dwelling := false }) s
      if pacing d s then modFd d (fun e => { e with pend := some b }) s else pacerChanges s (useBand d b s)
    else s)

/-! ### Class A runs (R195–R197) -/

/-- Change the calibration's state. -/
def modCal (f : CalPart → CalPart) (s : State) : State := { s with cal := f s.cal }

/-- Change the run of an item. -/
def modCalRun (i : Nat) (f : CalRun → CalRun) (s : State) : State :=
  modCal (fun c => { c with runs := c.runs.map fun r => if r.item = i then f r else r }) s

/-- Nominal reference of an item in 1/100 LSB of the supervisory converter: 2.500 V behind its divider by 2, or 1.200 V
(Table 8.4, R333, Table 15.1). -/
def refNominal (i : Nat) : Nat := if i < 8 then 1638400 else 1572864

/-- Is a reference code within ±1 % (R195)? -/
def refOk (i : Nat) (code : Int) : Bool := decide (100 * (100 * code - refNominal i).natAbs ≤ refNominal i)

/-- Complement of a trim, kept beside it (R199). -/
def trimNot (x : Int) : Int := -x - 1

/-- Calibrated values whose complement fails are not applied: the item's result becomes FAIL (R199). -/
def calComplement (i : Nat) (s : State) : State :=
  let s := setF (F.calItemResultResult i) 0x3C (setF (F.calItemResultResultN i) 0xC3 s)
  raise 0x1304 0xA i 0 (setF F.calFaultComplement 1 (complementFail 4 s))

/-- The trim a measurement calls for, with the old trim (Table 8.4, R196). `none` is a value at an end of its range. -/
def trimOf (lo hi old delta : Int) : Option Int :=
  let t := old + delta
  if t ≤ lo ∨ hi ≤ t then none else some t

/-- lo and hi of a column: the codes at which the cumulative fraction of its 4,096 codes reaches 0.01 and 0.99, the 41st and
the 4,056th smallest (R196); `none` without 4,096 codes. -/
def rampEnds (codes : List Int) : Option (Int × Int) :=
  let xs := sortBy (fun x y => decide (x ≤ y)) (codes.take 4096)
  if xs.length < 4096 then none else some (nth 0 xs 40, nth 0 xs 4055)

/-- CONV: offset and gain trims of a column from lo and hi (R196). -/
def convTrim (old lohi : Int × Int) : Option (Int × Int) :=
  let o := trimOf (-128) 127 old.1 (-rndRat (((lohi.2 + lohi.1 : Int) : Rat) / 16))
  let g := trimOf (-128) 127 old.2 (-rndRat ((((lohi.2 - lohi.1 : Int) : Rat) / 192676 - 1) * 2000))
  match o, g with
  | some o, some g => some (o, g)
  | _, _ => none

/-- Do two results agree within ±2 and ±`k` LSB? -/
def agree (k : Nat) (a b : Int × Int) : Bool := decide ((a.1 - b.1).natAbs ≤ 2) && decide ((a.2 - b.2).natAbs ≤ k)

/-- The mean of two results, ties to even (R195). -/
def meanTrim (a b : Int × Int) : Int × Int := (rneDiv (a.1 + b.1) 2, rneDiv (a.2 + b.2) 2)

/-- The ramp codes of a column in a repeat: the words of row 49, then as many of those that the blanking conversions gave
(R187). -/
def rampCodes (r : CalRun) (codes : List (List Int)) (p : Nat) : List Int :=
  (nth [] r.codes p).reverse ++ (nth [] codes p).take r.ramp

/-- Is the repeat's measurement complete (Table 8.4, R197)?  4,096 ramp conversions; 1,024 row slots; 256 samples of every
channel that found idle time; a self-trim. -/
def repeatDone (r : CalRun) (s : State) : Bool :=
  if r.item < 6 then decide (4096 ≤ r.n + r.ramp)
  else if r.item < 8 then decide (1024 ≤ r.ramp)
  else if r.item < 10 then (List.range 64).all fun k => (nth (0, 0) r.chans k).1 = 256 || r.dead.contains k
  else s.sadc.trimmed.isSome

/-- The results of a repeat as trims: CONV per column from its ramp codes; BIAS from the amplitude's deviation in mV; CSN per
channel from the mean of its samples, ties to even (assumption 56); SADC as the self-trim gave them. -/
def repeatTrims (r : CalRun) (codes : List (List Int)) (amp : Int) (s : State) : List (Option (Int × Int)) :=
  let d : Fin 2 := Fin.ofNat 2 r.item
  if r.item < 6 then
    (s.cal.conv[d].zipIdx).map fun x => (rampEnds (rampCodes r codes x.2)).bind (convTrim x.1)
  else if r.item < 8 then [(trimOf (-128) 127 s.cal.bias[d] (-amp)).map fun t => (t, 0)]
  else if r.item < 10 then
    (List.range 64).map fun k =>
      (trimOf (-64) 63 (nth 0 s.cal.csn[d] k) (-rneDiv (nth (0, 0) r.chans k).2 256)).map fun t => (t, 0)
  else
    match s.sadc.trimmed with
    | some (o, g) => [if o ≤ -128 ∨ 127 ≤ o ∨ g ≤ -128 ∨ 127 ≤ g then none else some (o, g)]
    | none => [none]

/-- The converter's trims come into SADC.TRIM; a pair that does not agree is not applied (R199, R343). -/
def takeSadcTrim (s : State) : State :=
  match s.cal.sadcNext with
  | none => s
  | some (t, c) =>
    let s := modCal (fun k => { k with sadcNext := none }) s
    if (trimNot t.1, trimNot t.2) = c then setF F.sadcTrimOffset (enc 8 t.1) (setF F.sadcTrimGain (enc 8 t.2) s)
    else calComplement 10 s

/-- Two repeats of an item, value by value: the trim where they agree (R195). -/
def agreedTrims (i : Nat) (a b : List (Option (Int × Int))) : List (Option (Int × Int)) :=
  List.zipWith (fun x y =>
    match x, y with
    | some x, some y => if agree (if i = 10 then 3 else 2) x y then some (meanTrim x y) else none
    | _, _ => none) a b

/-- The self-trim of a SADC run's second repeat ends: where the repeats agree the new trims come into SADC.TRIM (R343). -/
def tryTrim (s : State) : State :=
  match runOf 10 s with
  | none => s
  | some r =>
    match r.phase, agreedTrims 10 (nth [] r.meas 0) (repeatTrims r [] 0 s) with
    | .repeating 1, [some t] =>
      takeSadcTrim (modCal (fun c => { c with
        sadcNext := some (t, (trimNot t.1, trimNot t.2))
        sadcOld := some (getF F.sadcTrimOffset s, getF F.sadcTrimGain s) }) s)
    | _, _ => s

/-- The decision after two repeats, once the last reference has been converted (R195–R197, assumption 56). -/
def classADecide (r : CalRun) (a b : List (Option (Int × Int))) (s : State) : State :=
  let i := r.item
  let d : Fin 2 := Fin.ofNat 2 i
  let pairs := agreedTrims i a b
  let wrong := pairs.countP (·.isNone)
  if i < 6 then
    if 2 < wrong || pairs.length < 2064 then calFail [i] s
    else
      let new := List.zipWith (fun o x => x.getD o) s.cal.conv[d] pairs
      calEnd i true (modCal (fun c => { c with
        convNext := c.convNext.set d (some (new, new.map fun t => (trimNot t.1, trimNot t.2))) }) s)
  else if i < 8 || i = 10 then
    match pairs with
    | [some t] =>
      if i = 10 then calEnd i true s
      else calEnd i true (modCal (fun c => { c with biasNext := c.biasNext.set d (some (t.1, trimNot t.1)) }) s)
    | _ => calFail [i] s
  else
    let live := (List.range 64).filter fun k => !r.dead.contains k
    if live.isEmpty || live.any fun k => (nth none pairs k).isNone then calFail [i] s
    else
      let new := (List.range 64).map fun k =>
        if r.dead.contains k then nth 0 s.cal.csn[d] k else ((nth none pairs k).getD (0, 0)).1
      calEnd i true (modCal (fun c => { c with csnNext := c.csnNext.set d (some (new, new.map trimNot)) }) s)

/-- A repeat starts to measure. -/
def startRepeat (i k : Nat) (s : State) : State :=
  modCalRun i (fun r => { r with
    phase := .repeating k, since := s.time, n := 0, ramp := 0, codes := [], chans := List.replicate 64 (0, 0) }) s

end Sys2Proof.Machine
end

