-- ==== Sys2Proof/Machine/Correction.lean ====
section
/-!
DEFINITION. The working copy of the pixel model (R148–R154), the correction of a row slot (R155–R158), and the grid and
estimator settings (R159, R160).
-/

namespace Sys2Proof.Machine

/-! ### The working copy -/

/-- The key of a pixel site. -/
def siteKey (d : Nat) (row col : Nat) : Nat := (d * 50 + row) * 2048 + col

/-- The model entry of a site: as written, or the one every unlisted site starts from (R81, assumption 3). -/
def entryAt (k : Nat) (s : State) : Entry := (assoc s.corr.model k).getD Entry.dflt

/-- The drift term D and the baselines; zero where nothing was written (assumption 3).  Each stream die that corrects columns
of a focal die holds the baselines of all its references (R148). -/
def driftAt (k : Nat) (s : State) : Int := (assoc s.corr.drift k).getD 0
def baseKey (sd d row r : Nat) : Nat := siteKey d row (16 * sd + r)
def baseAt (sd d row r : Nat) (s : State) : Int := (assoc s.corr.base (baseKey sd d row r)).getD 0

/-- The stream dies that correct columns of a focal die (Table 7.2). -/
def corrDies (opt : Opt) (d : Nat) : List Nat := if opt = .zt4 then [1] else [1 + d, 2 + d]

/-- The entry in 10 little-endian bytes (Table 7.1); TAU codes above 220 load as 220 (R149). -/
def decodeEntry (b : List Byte) : Entry :=
  let u (i : Nat) : Nat := (nth 0 b i).toNat + 256 * (nth 0 b (i + 1)).toNat
  let f := nth 0 b 9
  { o0 := dec 16 (u 0), o1 := dec 16 (u 2), o2 := dec 16 (u 4), g := u 6, tau := min 220 (nth 0 b 8).toNat,
    badPix := f.getLsbD 7, sceneExcl := f.getLsbD 6, velExcl := f.getLsbD 5 }

/-- The 10 bytes of an entry. -/
def encodeEntry (e : Entry) : List Byte :=
  let two (n : Nat) : List Byte := [BitVec.ofNat 8 n, BitVec.ofNat 8 (n / 256)]
  two (enc 16 e.o0) ++ two (enc 16 e.o1) ++ two (enc 16 e.o2) ++ two e.g ++
    [BitVec.ofNat 8 e.tau, BitVec.ofNat 8 (b2n e.badPix * 128 + b2n e.sceneExcl * 64 + b2n e.velExcl * 32)]

/-- The signed halves of a list of words, low half first. -/
def halves (ws : List Word) : List Int := ws.flatMap fun w => [dec 16 (bits w 15 0), dec 16 (bits w 31 16)]

/-- The stream die that corrects a die column (Table 7.2, R110). -/
def streamDieOf (opt : Opt) (d col : Nat) : Nat :=
  match opt with
  | .zt4 => 1
  | .zt8 => if d * 2048 + col < 1536 then 1 else if d * 2048 + col < 3072 then 2 else 3

/-- The stream dies that a COR.MODEL record reaches (R472). -/
def modelDies (opt : Opt) (h : Word) : List Nat :=
  let d := b2n (bit h 31)
  if bits h 30 29 = 2 then corrDies opt d
  else
    let first := bits h 22 12
    ([streamDieOf opt d first, streamDieOf opt d (min 2047 (first + bits h 11 0 - 1))]).dedup

/-- Does the endpoint accept a COR.MODEL record (R152)? -/
def modelRecordOk (opt : Opt) (ws : List Word) : Bool :=
  match ws with
  | [] => false
  | h :: data =>
    let part := bits h 30 29
    let n := bits h 11 0
    let bs := toBytes data
    part ≠ 3 && inR 1 n 2048 && inR 0 (bits h 28 23) 49 && !(bit h 31 && opt = .zt4) &&
      decide (bits h 22 12 + n ≤ if part = 2 then 16 else 2048) &&
      (if part = 0 then
        data.length = (10 * n + 3) / 4 && (bs.drop (10 * n)).all (· = 0) &&
          (chunksOf 10 n (bs.take (10 * n))).all fun b => inR 0 (nth 0 b 8).toNat 220 && bits ((nth 0 b 9).setWidth 32) 4 0 = 0
      else data.length = (n + 1) / 2 && (bs.drop (2 * n)).all (· = 0))

/-- Decode the header of a record. -/
def modelRec (opt : Opt) (ws : List Word) : ModelRec :=
  let h := nth 0 ws 0
  { die := Fin.ofNat 2 (b2n (bit h 31)), part := bits h 30 29, row := bits h 28 23, first := bits h 22 12,
    count := bits h 11 0, data := ws.drop 1, dies := modelDies opt h, cal := none }

/-- A record arrives at COR.MODEL (R152). -/
def execCorModelRecord (u : UnitId) (t : Tag) (s : State) : Host.Outcome State Fault Refusal :=
  .next (recordOut u t (· = 0x40) (fun _ ws s => modelDies s.opt (nth 0 ws 0))
    (fun x ws s =>
      if !modelRecordOk s.opt ws then refuseRecord F.corFaultModelRefused 0x1202 0 0 x.ep s
      else
        let r := modelRec s.opt ws
        let s := { s with corr := { s.corr with waiting := s.corr.waiting ++ [r] } }
        (if r.part = 2 then s else calModelWrite r.die s, 0)) s)

/-- Entries with BAD are counted by die (COR.BAD_MAPPED). -/
def countBad (s : State) : State :=
  let n (d : Nat) : Nat := s.corr.model.countP fun e => e.2.badPix && e.1 / 102400 = d
  setF F.corBadMappedFd0 (n 0) (setF F.corBadMappedFd1 (n 1) s)

/-- The columns of a record of model entries or D values on the stream dies that hold it. -/
def recordCols (r : ModelRec) (opt : Opt) : List Nat :=
  (List.range r.count).filter fun i => r.dies.contains (streamDieOf opt r.die (r.first + i))

/-- Write one record into the working copy; entries written have good parity again (R153, R154). -/
def writeModel (r : ModelRec) (s : State) : State :=
  let bs := toBytes r.data
  let at_ (i : Nat) : Nat := siteKey r.die r.row (r.first + i)
  let hs := halves r.data
  let is := recordCols r s.opt
  if r.part = 0 then
    { s with corr := { s.corr with
        model := is.foldl (fun m i => assocSet (at_ i) (decodeEntry (bs.drop (10 * i))) m) s.corr.model
        badEntries := s.corr.badEntries.filter fun k => !(is.any fun i => at_ i = k.1) } }
  else if r.part = 1 then
    { s with corr := { s.corr with
        drift := is.foldl (fun m i => assocSet (at_ i) (nth 0 hs i) m) s.corr.drift } }
  else
    { s with corr := { s.corr with
        base := r.dies.foldl (fun m sd => (List.range r.count).foldl (fun m i =>
          assocSet (baseKey sd r.die r.row (r.first + i)) (nth 0 hs i) m) m) s.corr.base } }

/-- Accepted records take effect together at a line-slot boundary, in order (R153), from which S1 uses the TAU codes as they
then stand (R151). -/
def applyModels (s : State) : State :=
  let rs := s.corr.waiting
  let s := { s with corr := { s.corr with waiting := [], tauWas := [] } }
  let s := rs.foldl (fun s r =>
    match r.cal with
    | some (i, c) => if r.data.map (fun w => ~~~ w) = c then writeModel r s else calComplement i s
    | none => writeModel r s) s
  if rs.isEmpty then s else countBad s

/-! ### Correcting a row slot -/

/-- Normalisation by band, in ten-thousandths (Table 5.5). -/
def normTable : List Nat :=
  [10000, 9888, 9780, 9676, 9574, 9476, 9381, 9288, 9199, 9112, 9027, 8944, 8864, 8786, 8710, 8636, 8563, 8493]

/-- nq of a band (R155). -/
def nqOf (b : Nat) : Int := ((65536 * nth 10000 normTable b + 5000) / 10000 : Nat)

/-- dtq: 1/64 K from 25.00 °C, ties to even (R155). -/
def dtqOf (sub : Int) : Int := rneDiv ((sub - 2500) * 64) 100

/-- The code of a pixel word (Table 5.6). -/
def wordCode (w : Word) : Int := dec 18 (bits w 17 0)

/-- The words that a stream die receives from focal die `d` in a row slot, the 16 references first (R110): from link A or B,
and on the ZT4 the references of either. -/
def refsOf (opt : Opt) (sd d : Nat) (a b : List Word) : List Word :=
  match opt with
  | .zt8 => if sd = 1 + d then a else b
  | .zt4 => if a.isEmpty then b else a

/-- The word of a die column on its way over its link; none where the link delivers nothing (R110, R233). -/
def colWord (d : Fin 2) (a b : List Word) (c : Nat) : Option Word :=
  if c < linkSplit d then a[16 + c]? else b[16 + c - linkSplit d]?

/-- The common mode that stream die `sd` forms of a row slot from its valid references; `none` when fewer than 4 are valid
(R155, R156). -/
def commonMode (sd d row : Nat) (nq : Int) (refs : List Word) (s : State) : Option Int :=
  let valid := (List.range 16).filter fun r => bits (nth 0xC0000 refs r) 19 18 = 0
  if valid.length < 4 then none
  else
    let sum := valid.foldl (fun a r => a + (wordCode (nth 0 refs r) * nq * 2 ^ 8 - baseAt sd d row r s * 2 ^ 24)) (0 : Int)
    some (rneDiv sum valid.length)

/-- One corrected value and whether it saturated (R155). -/
def correctPixel (e : Entry) (d nq cm dtq code : Int) : Int × Bool :=
  let off := e.o0 * 2 ^ 24 + e.o1 * dtq * 2 ^ 12 + e.o2 * dtq ^ 2
  rneSat ((code * nq * 2 ^ 8 - cm - off - d * 2 ^ 22) * (e.g : Int)) 38 24

/-- A corrected word (R157). -/
def corrWord (recov bad taint ovr : Bool) (v : Int) : Word :=
  BitVec.ofNat 32 (b2n recov * 2 ^ 27 + b2n bad * 2 ^ 26 + b2n taint * 2 ^ 25 + b2n ovr * 2 ^ 24 + enc 24 v)

/-- The columns that share a link with column `c` (R110): bounds, half open. -/
def linkCols (d c : Nat) : Nat × Nat :=
  if d = 0 then (if c < 1536 then (0, 1536) else (1536, 2048)) else (if c < 1024 then (0, 1024) else (1024, 2048))

/-- The nearest of up to 4 columns on one side that may replace column `c` (R158). -/
def neighbour (ok : Nat → Bool) (lo hi c : Nat) (left : Bool) : Option Nat :=
  ((List.range 4).map fun i => if left then c - (i + 1) else c + (i + 1)).zipIdx.findSome? fun p =>
    if (if left then decide (lo + p.2 + 1 ≤ c) else decide (c + p.2 + 1 < hi)) && ok p.1 then some p.1 else none

/-- The value that replaces a BAD pixel, with whether it found a neighbour (R158). -/
def replaceBad (ok : Nat → Bool) (d c : Nat) (parity : Bool) (ws : List Word) : Word × Bool :=
  let (lo, hi) := linkCols d c
  let one (i : Nat) : Word := nth 0 ws i
  let val (i : Nat) : Int := dec 24 (bits (one i) 23 0)
  let mk (w : Word) (v : Int) : Word × Bool := (corrWord (bit w 27) true (bit w 25 || parity) (bit w 24) v, true)
  match neighbour ok lo hi c true, neighbour ok lo hi c false with
  | some l, some r => mk (one l ||| one r) (rneDiv (val l + val r) 2)
  | some l, none => mk (one l) (val l)
  | none, some r => mk (one r) (val r)
  | none, none => (corrWord false true true false 0, false)

/-- Change one focal die's correction. -/
def modCorr (d : Fin 2) (f : CorrDie → CorrDie) (s : State) : State :=
  { s with corr := { s.corr with dies := vmod s.corr.dies d f } }

/-- Does every corrected value of the die carry TAINT: a shutter run (R189) or a resume from freeze (R435)? -/
def dieTaint (d : Fin 2) (s : State) : Bool :=
  s.cal.taint[d] = .on || s.cal.taint[d] = .ending || decide (0 < s.freeze.taintSlots)

/-- A corrected word of a column whose words no link delivers: value 0 with TAINT, as COR.BLIND gives the columns of a die in
die reset (R472; DESIGN CHOICE, assumption 50). -/
def noWord : Word := 0x2000000

/-- Count live sensor words that fail parity in a line buffer (R234, Table 10.4). -/
def countTaintParity (n : Nat) (s : State) : State := bumpBy F.stcParityTaintParity n s

/-- The words that fail parity in the line buffers of the correction input (R234): die columns, and references, each by the stream
die whose line buffer it stands in. -/
structure BadWords where
  cols : List Nat
  refs : List (Nat × Nat)

/-- Correct the words of a row slot on the stream dies that run (R155–R158); words of `bad` are marked TAINT and pass on as read
(R234), and a reference so marked marks every value that its die forms from it (DESIGN CHOICE: R234 does not follow the mark of a
reference; assumption 126). -/
def correctRow (d : Fin 2) (row : Nat) (ramp : Bool) (a b : List Word) (bad : BadWords) (s : State) : State :=
  let up (sd : Nat) : Bool := dieUp sd s
  let nq := nqOf (getF (F.fpdStateBand d) s)
  let dtq := dtqOf s.corr.dies[d].sub
  let formed := (corrDies s.opt d).map fun sd =>
    (sd, if up sd then commonMode sd d row nq (refsOf s.opt sd d a b) s else none)
  let cms := formed.map fun x => (x.1, x.2.getD ((assoc s.corr.dies[d].cmLast (4 * row + x.1)).getD 0))
  let heldAt (c : Nat) : Bool := ((assoc formed (streamDieOf s.opt d c)).getD none).isNone
  let s := if up (streamDieOf s.opt d 0) && heldAt 0 && !(refsOf s.opt (streamDieOf s.opt d 0) d a b).isEmpty then
      raiseLim 0x1204 0 0 0 (setF F.corFaultCmHeld 1 (bump F.corCmHeldCmHeld s))
    else s
  let new (sd : Nat) : List (Nat × Int) := ((assoc formed sd).getD none).toList.map fun v => (4 * row + sd, v)
  let s := modCorr d (fun e => { e with
    cmLast := ((corrDies s.opt d).flatMap new).foldl (fun m x => assocSet x.1 x.2 m) e.cmLast }) s
  let keys := (List.range 2048).map fun c => siteKey d row c
  let fail (c : Nat) : Bool := s.corr.badEntries.any fun k => k.1 = siteKey d row c
  let repl (c : Nat) : Bool := (entryAt (siteKey d row c) s).badPix || fail c
  let words := (List.range 2048).map fun c => if up (streamDieOf s.opt d c) then colWord d a b c else none
  let marked (c : Nat) : Bool := bad.cols.contains c || bad.refs.any fun r => r.1 = streamDieOf s.opt d c
  let vals := words.zipIdx.map fun x =>
    match x.1 with
    | some w => correctPixel (entryAt (siteKey d row x.2) s) (driftAt (siteKey d row x.2) s) nq
        ((assoc cms (streamDieOf s.opt d x.2)).getD 0) dtq (wordCode w)
    | none => (0, false)
  let plain := (words.zip vals).zipIdx.map fun x =>
    match x.1.1 with
    | some w => corrWord (bit w 19) ((48 ≤ row && fail x.2) || s.corr.dies[d].noModel)
        (heldAt x.2 || dieTaint d s || fail x.2 || marked x.2) (bit w 18) x.1.2.1
    | none => noWord
  let outs := words.zipIdx.map fun x =>
    if x.1.isSome && row < 48 && repl x.2 then
      replaceBad (fun i => !repl i) d x.2 (fail x.2 || heldAt x.2 || dieTaint d s) plain
    else (nth 0 plain x.2, true)
  let sat := vals.countP fun v => v.2
  let s := bumpBy F.corSatSatCount sat s
  let s := if sat ≠ 0 then raiseLim 0x1205 0 0 0 (setF F.corFaultSaturation 1 s) else s
  let s := bumpBy F.corNoNeighbourNoNeighbour (outs.countP fun r => !r.2) s
  let read := (words.zip keys).filterMap fun x => if x.1.isSome then some x.2 else none
  let new := (s.corr.badEntries.filter fun k => !k.2 && read.contains k.1).map (·.1)
  let s := bumpBy F.corModelParityParityCount new.length s
  let s := if new.isEmpty then s
    else raiseLim 0x1203 0 0 0 (setF F.corFaultModelParity 1 { s with corr := { s.corr with
      badEntries := s.corr.badEntries.map fun k => (k.1, k.2 || new.contains k.1) } })
  modCorr d (fun e => { e with rows := e.rows ++ [⟨row, outs.map fun r => r.1, ramp⟩] }) s

/-- The ramp words of row 49 join the codes of the repeat that converted them, while it still measures, in physical column order
(R109, R110, R187). -/
def rampWords (d : Fin 2) (since : Nat) (a b : List Word) (s : State) : State :=
  let refs := if a.isEmpty then b.take 16 else a.take 16
  let col (p : Nat) : Option Word :=
    if p < 8 then refs[p]? else if p < 2056 then colWord d a b (p - 8) else refs[p - 2048]?
  modCalRun (4 + d.val) (fun r =>
    if r.since = since then
      match r.phase with
      | .repeating _ => { r with
          n := r.n + 1
          codes := (List.range 2064).map fun p => ((col p).map wordCode).toList ++ nth [] r.codes p }
      | _ => r
    else r) s

/-- Correct the oldest row slot on its way from die `d`. -/
def takeRow (d : Fin 2) (bad : BadWords) (s : State) : State :=
  match s.focal[d].sent with
  | [] => s
  | (row, a, b, ramp) :: rest =>
    let s := modFd d (fun e => { e with sent := rest }) s
    let s := match ramp with
      | some t => rampWords d t a b s
      | none => s
    correctRow d row ramp.isSome a b bad (countTaintParity (bad.cols.length + bad.refs.length) s)

/-- The words of a row slot arrive at their stream dies (R110, R155); `bad` are the die columns, and `refs` the references at
each of the stream dies that correct the focal die, whose words fail parity in the line buffer (R234). -/
def execRowSlotCorrection (d : Fin 2) (row : Fin 50) (bad : List (Fin 2048)) (refs : List (Fin 4 × Fin 16)) (s : State) :
    Host.Outcome State Fault Refusal :=
  .next (
    match s.focal[d].sent with
    | (r, _) :: _ => if working s && r = row.val then 
        takeRow d { cols := (bad.map (·.val)).dedup
                    refs := ((refs.map fun r => (r.1.val, r.2.val)).dedup).filter fun r => (corrDies s.opt d).contains r.1 } s
      else s
    | [] => s)

/-! ### Blind rows -/

/-- The record of a blind row before the first line slot (R157). -/
def emptyBlind (d k : Nat) : List Word :=
  BitVec.ofNat 32 (d * 2 ^ 31 + (48 + k) * 2 ^ 25) :: List.replicate 2051 0

/-- The record held for a blind row. -/
def blindHeld (d : Fin 2) (k : Nat) (s : State) : List Word :=
  match nth [] s.corr.dies[d].blind k with
  | [] => emptyBlind d k
  | ws => ws

/-- At the end of a line slot the blind-row records are replaced (R157), but row 49's where R187 took it in that line slot. -/
def blindRecords (d : Fin 2) (s : State) : State :=
  let mk (k : Nat) : List Word :=
    match s.corr.dies[d].rows.find? fun r => r.row = 48 + k with
    | none => nth [] s.corr.dies[d].blind k
    | some r =>
      if r.ramp then nth [] s.corr.dies[d].blind k
      else
        [BitVec.ofNat 32 (d.val * 2 ^ 31 + (48 + k) * 2 ^ 25), BitVec.ofNat 32 (s.grid.line % 2 ^ 24),
          BitVec.ofNat 32 s.focal[d].stamp, BitVec.ofNat 32 (s.focal[d].stamp / 2 ^ 32)] ++ r.out
  modCorr d (fun e => { e with blind := [mk 0, mk 1], blindWas := some e.blind }) s

/-- Fit a list of words to a length, filling with zeros. -/
def fitWords (n : Nat) (ws : List Word) : List Word := (ws ++ List.replicate n 0).take n

/-- A transfer reads a blind-row record; columns of a stream die in die reset read 0 with TAINT (R157, R472). -/
def execCorBlindRead (u : UnitId) (t : Tag) (s : State) : Host.Outcome State Fault Refusal :=
  .next (dataIn u t (· = 0x41) (fun x s => [streamDieOf s.opt (x.addr / 2 % 2) 0])
    (fun x s =>
      let d : Fin 2 := Fin.ofNat 2 (x.addr / 2)
      if 4 ≤ x.addr || (d = 1 && s.opt = .zt4) then (s, 2, [])
      else
        let ws := (blindHeld d (x.addr % 2) s).zipIdx.map fun p =>
          if 4 ≤ p.2 && !dieUp (streamDieOf s.opt d (p.2 - 4)) s then 0x2000000 else p.1
        (s, 0, fitWords (x.len / 4) ws)) s)

/-! ### Grid and estimator settings -/

/-- Does COR.CTL accept the record (R159, Table 7.3)? -/
def corRecordOk (opt : Opt) (ws : List Word) : Bool :=
  match ws with
  | [a, b, c] =>
    inR 100 (bits a 31 20) 4000 && inR 20 (bits a 19 9) 2000 && inR 0 (bits a 8 2) 64 && bits a 1 0 = 0 &&
      (opt = .zt8 || bits a 8 2 = 0) && inR 500 (bits b 31 16) 65535 && bits b 2 0 = 0 && bits c 15 0 = 0
  | _ => false

/-- A record arrives at COR.CTL: PITCH, P_ROW and OVERLAP wait for a synchronising reset, the other fields for the next
line-slot boundary (R159, R160). -/
def execCorCtlRecord (u : UnitId) (t : Tag) (s : State) : Host.Outcome State Fault Refusal :=
  .next (recordOut u t (· = 0x42) (fun _ _ _ => [0])
    (fun x ws s =>
      if !corRecordOk s.opt ws then refuseRecord F.corFaultSettingsRefused 0x1201 0 0 x.ep s
      else
        (setF F.corGridPending 1
          { s with corr := { s.corr with grid := some (nth 0 ws 0), vcfg := some (nth 0 ws 1, nth 0 ws 2) } }, 0)) s)

/-- The estimator's fields take effect at a line-slot boundary (R160). -/
def takeVcfg (s : State) : State :=
  match s.corr.vcfg with
  | none => s
  | some (b, c) => { (s.setWord F.corVcfg b).setWord F.corVarMin c with corr := { s.corr with vcfg := none } }

/-- PITCH, P_ROW and OVERLAP take effect at an internal synchronising reset edge (R160, R162). -/
def takeGrid (s : State) : State :=
  match s.corr.grid with
  | none => s
  | some a =>
    let s := { s.setWord F.corGrid (putBits a 1 0 0) with corr := { s.corr with grid := none } }
    let j := b2n (bits a 8 2 ≠ 0)
    if s.opt = .zt8 then setF (F.velBandJoined 7) j (setF (F.velBandJoined 8) j s) else s

end Sys2Proof.Machine
end

