-- ==== Sys2Proof/Machine/Along.lean ====
section
/-!
DEFINITION. The settings of the ALONG engines and their RAM bank (R122, R123, R131), their zero state (R134, R139), the
detector queue (R140), and the CSENSE engines (R142–R144).
-/

namespace Sys2Proof.Machine

/-! ### Engines -/

/-- Change one logical engine. -/
def modEng (l : Fin 64) (f : Engine → Engine) (s : State) : State := { s with engines := vmod s.engines l f }

/-- The responses that will be in force after every handover in progress and every held or pending swap (R123, R139). -/
def eventual (e : Engine) : Path :=
  match e.pend, e.held, e.fade with
  | some p, _, _ => p.dest
  | none, some h, _ => h.dest
  | none, none, some f => f.dest
  | none, none, none => e.path

/-- Does a response use the RAM bank? -/
def usesRam (p : Path) : Bool := p.s3 = 4 || p.s4 = 6

/-- The engines a TARGET names: one, or every running engine (R122). -/
def algTargets (t : Nat) (s : State) : List Nat :=
  if t = 255 then (List.range 64).filter fun l => engRunning l s else [t]

/-- The dies a record for a TARGET must reach (R472). -/
def algDies (t : Nat) (s : State) : List Nat :=
  ((algTargets t s).filter fun l => engPlaced l s).map fun l => engDie l s

/-- The swap fields of a record (Table 6.2). -/
def swapOf (w : Word) : Path := { s3 := bits w 20 18, s4 := bits w 17 15, sh3 := bits w 14 11, sh4 := bits w 10 7 }

/-- The handover length that FADE names (Table 6.2). -/
def fadeLen (w : Word) : Nat := 16 * 2 ^ bits w 22 21

/-- Does ALG.CTL accept the record, as far as its own words go (R122)? -/
def algRecordOk (opt : Opt) (ws : List Word) : Bool :=
  match ws with
  | [a, b, c, d] =>
    (decide (bits a 31 24 < engCount opt) || bits a 31 24 = 255) && inR 0 (bits a 22 21) 2 && inR 0 (bits a 20 18) 4 && inR 0 (bits a 17 15) 6 && bits a 6 0 = 0 &&
      inR 0 (bits b 31 23) 256 && bits b 14 0 = 0 && inR 4 (bits c 31 27) 16 && bits c 18 0 = 0 &&
      decide (bits d 15 0 ≤ bits d 31 16)
  | _ => false

/-- Does the engine accept the record (R122)? -/
def algEngineOk (a : Word) (l : Nat) (s : State) : Bool :=
  engPlaced l s &&
    let e := s.engines[Fin.ofNat 64 l]
    let p := swapOf a
    (bit a 23 || p = eventual e || usesRam p = usesRam (eventual e)) &&
      (p.s3 ≠ 4 || e.ram3.isSome) && (p.s4 ≠ 6 || e.ram4.isSome)

/-- Show the swap in progress in ALG.ENG_STATE (Table 6.7). -/
def showSwap (l : Fin 64) (s : State) : State :=
  let e := s.engines[l]
  let s := setF (F.algEngStateHandover l) (b2n e.fade.isSome) s
  let s := setF (F.algEngStateHeld l) (b2n e.held.isSome) s
  let s := setF (F.algEngStateSyncPending l) (b2n e.pend.isSome) s
  match e.fade with
  | some f => setF (F.algEngStateFade l) (f.len.log2 - 4) (setF (F.algEngStateFadeLine l) f.i s)
  | none => setF (F.algEngStateFadeLine l) 0 s

/-- Show the active responses (Table 6.7). -/
def showPath (l : Fin 64) (s : State) : State :=
  let p := s.engines[l].path
  setF (F.algEngStateS3Sel l) p.s3 (setF (F.algEngStateS4Sel l) p.s4
    (setF (F.algEngCfgSh3 l) p.sh3 (setF (F.algEngCfgSh4 l) p.sh4 s)))

/-- Request a swap (R123, R137).  DESIGN CHOICE: a MODE = 1 request that comes behind an accepted one whose first fade line has
still to come finds a running handover and is held; assumption 118. -/
def requestSwap (l : Fin 64) (sync : Bool) (q : Swap) (s : State) : State :=
  let e := s.engines[l]
  if q.dest = eventual e then s
  else
    let full := if sync then e.pend.isSome else e.fade.isSome && e.held.isSome
    let s := if full then raise 0x1102 2 l 0 (bump F.algSwapSuperseded s) else s
    showSwap l (modEng l (fun e =>
      if sync then { e with pend := some q }
      else if e.fade.isSome then { e with held := some q }
      else { e with fade := some { dest := q.dest, len := q.fade, i := 0 } }) s)

/-- The fields of an accepted record wait for their times at one engine (R123). -/
def takeAlgRecord (a b c d : Word) (l : Nat) (s : State) : State :=
  let l : Fin 64 := Fin.ofNat 64 l
  let s := modEng l (fun e => { e with nextCfg := some b, nextDet := some (c, d) }) s
  requestSwap l (!bit a 23) { dest := swapOf a, fade := fadeLen a } s

/-- A settings record arrives at ALG.CTL (R122); a refused one raises its event once for each engine targeted (DESIGN CHOICE,
assumption 49). -/
def execAlgCtlRecord (u : UnitId) (t : Tag) (s : State) : Host.Outcome State Fault Refusal :=
  .next (recordOut u t (· = 0x38) (fun _ ws s => algDies (bits (nth 0 ws 0) 31 24) s)
    (fun x ws s =>
      let a := nth 0 ws 0
      let ts := algTargets (bits a 31 24) s
      if algRecordOk s.opt ws && ts.all fun l => algEngineOk a l s then
        (ts.foldl (fun s l => takeAlgRecord a (nth 0 ws 1) (nth 0 ws 2) (nth 0 ws 3) l s) s, 0)
      else
        let s := setF F.algFaultSwapRefused 1 (bumpBy F.algSwapRefused ts.length s)
        (ts.foldl (fun s l => raise 0x1101 2 l x.ep s) s, 1)) s)

/-! ### The RAM bank (R131) -/

/-- The Q1.14 values of a part, low half first. -/
def ramValues (ws : List Word) : List Int := halves ws

/-- Sum of a list of integers. -/
def sumI (xs : List Int) : Int := xs.foldl (· + ·) 0

/-- Does ALG.RAM accept the load, as far as its own words go (R131)? -/
def ramLoadOk (ws : List Word) : Bool :=
  match ws with
  | [] => false
  | h :: data =>
    let v := ramValues data
    let n := bits h 20 17
    inR 0 (bits h 22 21) 2 && bits h 16 0 = 0 &&
      if bit h 23 then
        inR 1 n 9 && data.length = (n + 1) / 2 && (v.take n).reverse = v.take n && sumI (v.take n) = 16384
      else
        data.length = 256 && (List.range 64).all fun p => sumI ((v.drop (8 * p)).take 8) = 16384

/-- Is the part of the bank in use: active, in a handover, or named by a held or pending swap (R131)? -/
def ramInUse (part4 : Bool) (e : Engine) : Bool :=
  ([some e.path, e.fade.map (·.dest), e.held.map (·.dest), e.pend.map (·.dest)].filterMap id).any fun p =>
    if part4 then p.s4 = 6 else p.s3 = 4

/-- A RAM part arrives at ALG.RAM (R131). -/
def execAlgRamLoad (u : UnitId) (t : Tag) (s : State) : Host.Outcome State Fault Refusal :=
  .next (recordOut u t (· = 0x39) (fun _ ws s => algDies (bits (nth 0 ws 0) 31 24) s)
    (fun x ws s =>
      let h := nth 0 ws 0
      let ts := algTargets (bits h 31 24) s
      let p4 := bit h 23
      if ramLoadOk ws && ts.all fun l => engPlaced l s && !ramInUse p4 s.engines[Fin.ofNat 64 l] then
        let v := ramValues (ws.drop 1)
        (ts.foldl (fun s l =>
          let l : Fin 64 := Fin.ofNat 64 l
          let s := setF (if p4 then F.algEngStateRamS4 l else F.algEngStateRamS3 l) 1 s
          modEng l (fun e =>
            if p4 then { e with ram4 := some (2 ^ bits h 22 21, v.take (bits h 20 17)) }
            else { e with ram3 := some v }) s) s, 0)
      else
        let s := setF F.algFaultRamRefused 1 (bump F.algSwapRefused s)
        (raise 0x1103 2 (nth (bits h 31 24) ts 0) x.ep s, 1)) s)

/-! ### Detectors and zero state -/

/-- PRESENT follows the envelope (R141). -/
def showPresent (l : Nat) (s : State) : State :=
  let e := getF (F.algEngEnvValue l) s
  if 256 * getF (F.algEngPresPresOn l) s ≤ e then setF (F.algEngStatePresent l) 1 s
  else if e < 256 * getF (F.algEngPresPresOff l) s then setF (F.algEngStatePresent l) 0 s
  else s

/-- Responses that a zero state applies: the running handover's target, the held request and, at a synchronising reset,
the pending one; a later one overrides (R139). -/
def zeroPath (sync : Bool) (e : Engine) : Path :=
  match sync, e.pend, e.held, e.fade with
  | true, some p, _, _ => p.dest
  | _, _, some h, _ => h.dest
  | _, _, none, some f => f.dest
  | _, _, none, none => e.path

/-- An engine starts from zero state (R134, R139). -/
def zeroEngine (sync : Bool) (l : Fin 64) (s : State) : State :=
  let s := modEng l (fun e => { e with
    x1 := [], ys := [], zs := [], path := zeroPath sync e, fade := none, held := none,
    pend := if sync then none else e.pend, changes := [], blockN := 0, blockPeak := 0, blockSum := 0, next := 0,
    parts := [], clear := false }) s
  showPresent l (setF (F.algEngEnvValue l) 0 (showSwap l (showPath l s)))

/-- A transfer reads the detector queue in units of 16 bytes (R140). -/
def execAlgDetRead (u : UnitId) (t : Tag) (s : State) : Host.Outcome State Fault Refusal :=
  .next (dataIn u t (· = 0x3A) (fun _ _ => [0])
    (fun x s =>
      if x.addr ≠ 0 ∨ x.len % 16 ≠ 0 then (s, 2, [])
      else
        let n := x.len / 16
        ({ s with fused := { s.fused with det := s.fused.det.drop n } }, 0,
          fitWords (x.len / 4) (s.fused.det.take n).flatten)) s)

/-! ### CSENSE (R142–R144) -/

/-- Change one CSENSE engine. -/
def modCsn (d : Fin 2) (f : CsnEngine → CsnEngine) (s : State) : State := { s with csn := vmod s.csn d f }

/-- Does the endpoint accept a CSN.CFG word (R143)? -/
def csnRecordOk (ws : List Word) : Bool :=
  match ws with
  | [w] => inR 0 (bits w 31 30) 2 && inR 4 (bits w 25 21) 16 && bits w 12 0 = 0
  | _ => false

/-- A CSENSE settings word arrives at CSN0.CTL or CSN1.CTL (R143). -/
def execCsnCtlRecord (u : UnitId) (t : Tag) (s : State) : Host.Outcome State Fault Refusal :=
  .next (recordOut u t (fun ep => ep = 0x3C || ep = 0x3D) (fun x _ _ => [6 + (x.ep - 0x3C)])
    (fun x ws s =>
      let d : Fin 2 := Fin.ofNat 2 (x.ep - 0x3C)
      if !csnRecordOk ws then refuseRecord (F.csnFaultSettingsRefused d) 0x1501 1 (6 + d) x.ep s
      else (modCsn d (fun e => { e with nextCfg := e.nextCfg ++ [(nth 0 ws 0, s.periph)] }) s, 0)) s)

/-- The taps of S4 responses 0–2 in Q1.14 (Table 6.6). -/
def s4Smooth (n : Nat) : List Int :=
  if n = 1 then [4096, 8192, 4096] else if n = 2 then [1024, 4096, 6144, 4096, 1024] else [16384]

/-- Sum of products. -/
def dotI (a b : List Int) : Int := sumI (List.zipWith (· * ·) a b)

/-- The weight of the bit `i` MOD cycles before the newest in a third-order sinc of ratio 64: 190 bits, symmetric (R142). -/
def sinc3 (i : Nat) : Int :=
  let j : Int := if i < 95 then (i : Int) else 189 - (i : Int)
  if j < 64 then (j + 1) * (j + 2) / 2 else (j + 1) * (j + 2) / 2 - 3 * ((j - 63) * (j - 62) / 2)

/-- The decimator over the modulator bits, newest first; in zero state there are fewer (R142, R144). -/
def decimate (bs : List Bool) : Int := sumI ((bs.take 190).zipIdx.map fun b => if b.1 then sinc3 b.2 else -sinc3 b.2)

/-- The scaling of step 2: the current in codes, clamped to 16 bits, with whether it clamped (R142).  The factor is open, the
rounding chosen (assumption 53). -/
def csnScale (x : Int) : Int × Bool :=
  let v := rndDiv (x * Config.csnFullScale) 262144
  let c := clampI (-32768) 32767 v
  (c, c ≠ v)

/-- The 64 modulator bits of a block, newest first. -/
def blockBits (x : BitVec 64) : List Bool := (List.range 64).map fun i => x.getLsbD (63 - i)

/-- The channel is switched on: its shot runs and its low-side switch is closed (R295). -/
def switchedOn (v : Nat) (s : State) : Bool := (s.ejt.chans[(Fin.ofNat 128 v)].run.map (·.on)).getD false

/-- Update PEAK, RMS and ENV of a channel with |x| of a sample that is not WARM (R140, R144). -/
def csnDetect (d : Fin 2) (k : Fin 64) (m : Nat) (s : State) : State :=
  let c := s.csn[d].chans[k]
  let e := getF (F.csnChEnvEnv d k) s
  let coef := if e < m then getF (F.csnCfgAttack d) s else getF (F.csnCfgDecay d) s
  let s := setF (F.csnChEnvEnv d k) ((e : Int) + rneShift coef ((m : Int) - e)).toNat s
  let n := c.blockN + 1
  let peak := max c.blockPeak m
  let sum := c.blockSum + m * m
  let full := 2 ^ getF (F.csnCfgRmsN d) s
  if n < full then
    modCsn d (fun g => { g with chans := vmod g.chans k fun c => { c with blockN := n, blockPeak := peak, blockSum := sum } }) s
  else
    let s := setF (F.csnChLevelPeak d k) peak (setF (F.csnChLevelRms d k) (isqrt (sum / full)) s)
    modCsn d (fun g => { g with chans := vmod g.chans k fun c => { c with blockN := 0, blockPeak := 0, blockSum := 0 } }) s

/-- One sample of channel `k`, from its modulator bits of the block, goes through the decimator, S4 and the detectors (R142,
R144). -/
def csnSample (d : Fin 2) (warm : Bool) (k : Fin 64) (x : BitVec 64) (s : State) : State :=
  let bs := (blockBits x ++ s.csn[d].chans[k].bits).take 190
  let (c, sat1) := csnScale (decimate bs)
  let hist := (c :: s.csn[d].chans[k].hist).take 5
  let taps := s4Smooth (getF (F.csnCfgS4Sel d) s)
  let (v, sat2) := rneSat (dotI taps hist) (14 + getF (F.csnCfgSh4 d) s) 16
  let on := switchedOn (64 * d.val + k.val) s
  let s := modCsn d (fun g => { g with chans := vmod g.chans k fun c => { c with
    bits := bs.take 126, hist := hist, samples := ((v, on) :: c.samples).take 500 } }) s
  let s := setF (F.csnChEnvLast d k) (enc 16 v) s
  let s := if sat1 || sat2 then
      raiseLim 0x1502 1 (6 + d) 0 (setF (F.csnFaultSaturation d) 1 (bump (F.csnSatSatCount d) s)) else s
  if warm then s else csnDetect d k v.natAbs s

/-- Does an instant at PERIPH cycle `c` lie before the start of a block that started `age` ns ago? -/
def beforeBlock (c age : Nat) (s : State) : Bool := decide (10 * c + age ≤ 10 * s.periph)

/-- An accepted word takes effect at the next sample of channel 0, and the blocks restart (R143): `age` is how many ns ago
channel 0 of the block was sampled. -/
def takeCsnCfg (d : Fin 2) (age : Nat) (s : State) : State :=
  match (s.csn[d].nextCfg.filter fun x => beforeBlock x.2 age s).getLast? with
  | none => s
  | some (w, _) =>
    modCsn d (fun g => { g with
      nextCfg := g.nextCfg.filter fun x => !beforeBlock x.2 age s
      chans := g.chans.map fun c => { c with blockN := 0, blockPeak := 0, blockSum := 0 } }) (s.setWord (F.csnCfg d) w)

/-- The decimators and S4 start from zero state at the first block that starts at or after the reset edge (R144): `age` is how
many ns ago the block started. -/
def zeroCsn (d : Fin 2) (age : Nat) (s : State) : State :=
  if s.csn[d].zeroAt.any fun c => beforeBlock c age s then
    modCsn d (fun g => { g with zeroAt := none, block := 0, chans := g.chans.map fun c => { c with bits := [], hist := [] } }) s
  else s

/-- WARM blocks from a zero state: 2 + (length − 1) / 2 (R144). -/
def csnWarm (d : Fin 2) (s : State) : Bool :=
  decide (s.csn[d].block < 2 + ((s4Smooth (getF (F.csnCfgS4Sel d) s)).length - 1) / 2)

/-- The words of a block whose channel 0 was sampled at `t` (R144). -/
def csnWords (d : Fin 2) (t : Nat) (warm : Bool) (s : State) : List Word :=
  let v (k : Nat) : Nat := getF (F.csnChEnvLast d k) s
  [BitVec.ofNat 32 t, BitVec.ofNat 32 (t / 2 ^ 32), BitVec.ofNat 32 (b2n warm * 2 ^ 31 + 2 ^ 30),
      BitVec.ofNat 32 s.csn[d].block] ++
    (List.range 32).map fun i => BitVec.ofNat 32 (v (2 * i) + v (2 * i + 1) * 65536)

/-- Passed trims take effect at the next block (R197); a pair that does not agree is not applied (R199). -/
def takeCsnTrim (d : Fin 2) (s : State) : State :=
  match s.cal.csnNext[d] with
  | none => s
  | some (t, c) =>
    let s := { s with cal := { s.cal with csnNext := s.cal.csnNext.set d none } }
    if t.map trimNot = c then { s with cal := { s.cal with csn := s.cal.csn.set d t } } else calComplement (8 + d) s

/-- A block of 64 samples (R142–R144) goes through the chain: `x` holds each channel's 64 modulator bits, bit 0 first in time,
and channel 0's sample instant lies `age` ns back.  It answers whether the block is WARM, too. -/
def csnChain (d : Fin 2) (age : Nat) (x : List (BitVec 64)) (s : State) : State × Bool :=
  let s := takeCsnTrim d (zeroCsn d age (takeCsnCfg d age s))
  let warm := csnWarm d s
  let s := (List.finRange 64).foldl (fun s k => csnSample d warm k (nth 0 x k) s) s
  let b := csnWords d (timeAgo age s) warm s
  (modCsn d (fun g => { g with
    block := g.block + 1
    out := (if g.out.length < 16 then g.out else g.out.drop 1) ++ [b] }) s, warm)

/-- A read of CSN0.OUT or CSN1.OUT, in units of 144 bytes (R144). -/
def execCsnOutRead (u : UnitId) (t : Tag) (s : State) : Host.Outcome State Fault Refusal :=
  .next (dataIn u t (fun ep => ep = 0x3E || ep = 0x3F) (fun x _ => [6 + (x.ep - 0x3E)])
    (fun x s =>
      let d : Fin 2 := Fin.ofNat 2 (x.ep - 0x3E)
      if x.addr ≠ 0 ∨ x.len % 144 ≠ 0 then (s, 2, [])
      else
        let n := x.len / 144
        let bs := s.csn[d].out
        (modCsn d (fun g => { g with out := g.out.drop n }) s, 0, fitWords (x.len / 4) (bs.take n).flatten)) s)

end Sys2Proof.Machine
end

