-- ==== Sys2Proof/Machine/Store.lean ====
section
/-!
DEFINITION. The record store (R365–R386): records and their resolution, programming, collection, counters, and access
through NVS.REC.
-/

namespace Sys2Proof.Machine

/-! ### Records (R367–R370, R375, R378) -/

/-- Change the record store. -/
def modNvs (f : NvsPart → NvsPart) (s : State) : State := { s with nvs := f s.nvs }

/-- First sector and number of sectors of a partition (Table 17.1). -/
def partRange (p : Nat) : Nat × Nat :=
  if p = 0 then (0, 320) else if p = 1 then (480, 20) else if p = 2 then (320, 160) else (500, 12)

/-- Does the device own the key (R367)? -/
def deviceKey (p k : Nat) : Bool := (p = 0 || p = 2) && decide (k < 0x1000)

/-- The key of the save commit record (Table 17.2). -/
def commitKey : Nat := 0x238

/-- LENGTH, TYPE and KEY_N hold (R370, the first three conditions). -/
def Copy.formed (c : Copy) : Bool := c.keyN = 65535 - c.key && decide (c.data.length ≤ 4096) && decide (c.type ≤ 1)

/-- Bytes 0 to 15 + P of a copy (Table 17.3). -/
def Copy.head (c : Copy) : List Byte :=
  leBytes 2 c.key ++ leBytes 2 c.keyN ++ leBytes 2 c.data.length ++ [BitVec.ofNat 8 c.type, 0] ++ leBytes 4 c.seq ++
    leBytes 4 c.gen ++ c.data ++ List.replicate ((4096 - c.data.length) % 16) 0xFF

/-- A copy is valid when all of R370 holds. -/
def Copy.valid (c : Copy) : Bool := c.formed && c.commit && c.crc = crc32 c.head

/-- A copy that meets the first three conditions of R370 but not the others. -/
def Copy.uncommitted (c : Copy) : Bool := c.formed && !c.valid

/-- Is the copy of partition `p` and key `k`? -/
def Copy.of (p k : Nat) (c : Copy) : Bool := c.part = p && c.key = k

/-- The valid copies of a key that the last index build did not pass over. -/
def candidates (p k : Nat) (n : NvsPart) : List Copy := n.copies.filter fun c => c.of p k && !c.skip && c.valid

/-- The highest sequence number of a list of copies. -/
def topSeq (cs : List Copy) : Nat := cs.foldl (fun a c => max a c.seq) 0

/-- What a key resolves to (R375). -/
inductive Resolved where
  | absent
  | conflict (seq : Nat)
  | found (c : Copy)
deriving DecidableEq, Repr

/-- Resolve a key (R375). -/
def resolve (p k : Nat) (n : NvsPart) : Resolved :=
  let cs := candidates p k n
  match cs.filter fun c => c.seq = topSeq cs with
  | [] => .absent
  | c :: rest =>
    if rest.all fun d => d.data = c.data then (if c.data.isEmpty then .absent else .found c) else .conflict c.seq

/-- The value of a counter record: BASE and the cells that do not read erased (R378). -/
def counterValue (c : Copy) : Nat := leNat (c.data.take 8) + c.cells

/-- The bytes a record yields: its payload, or a counter's value in 8 bytes (R378). -/
def copyBytes (c : Copy) : List Byte := if c.type = 1 then leBytes 8 (counterValue c) else c.data

/-- The bytes of a record, where it is present. -/
def record (p k : Nat) (s : State) : Option (List Byte) :=
  match resolve p k s.nvs with
  | .found c => some (copyBytes c)
  | _ => none

/-- The generation of the last complete SAVE (R377). -/
def lastGen (n : NvsPart) : Nat :=
  match resolve 2 commitKey n with
  | .found c => leNat c.data
  | _ => 0

/-- A key meets ERR_CONFLICT: it counts, and is reported once per key and boot (R376, R449). It is met where the index is
built and where NVS.REC reads it; other readers find it absent (assumption 111). -/
def noteConflict (p k : Nat) (s : State) : State :=
  let s := setF F.nvsLastConflictPartition p (setF F.nvsLastConflictKey k (setF F.nvsFaultConflict 1 (bump F.nvsConflictConflicts s)))
  if s.nvs.told.contains (p, k) then bump F.intEvtSuppressedSuppressed s
  else raise 0x4001 0xF p k (modNvs (fun n => { n with told := (p, k) :: n.told }) s)

/-- The keys present, without repeats. -/
def liveKeys (n : NvsPart) : List (Nat × Nat) :=
  ((n.copies.map fun c => (c.part, c.key)).dedup).filter fun x =>
    match resolve x.1 x.2 n with
    | .found _ => true
    | _ => false

/-! ### Sectors -/

def sectorAt (i : Nat) (n : NvsPart) : Sector := (assoc n.sectors i).getD Sector.fresh

def setSector (i : Nat) (x : Sector) (n : NvsPart) : NvsPart := { n with sectors := assocSet i x n.sectors }

/-- The sectors of a bank of a partition: even numbers are bank 0 (R365). -/
def bankSectors (p b : Nat) : List Nat :=
  ((List.range (partRange p).2).map fun i => (partRange p).1 + i).filter fun i => i % 2 = b

/-- The free sectors of a bank. -/
def freeSectors (p b : Nat) (n : NvsPart) : List Nat :=
  (bankSectors p b).filter fun i => (sectorAt i n).st = .free && !(sectorAt i n).retired

/-- Flash words of a sector that can hold copies: all but its header (R365). -/
def sectorRoom : Nat := 1023

/-- Flash words of a copy: header, payload, CRC and COMMIT, and the cells of a counter (Table 17.3). -/
def copyWords (len : Nat) (counter : Bool) : Nat := 3 + (len + 15) / 16 + (if counter then 64 else 0)

/-- Take `w` words in the open sector of a bank, opening a free one when it has no room (R371); `none` when no sector
can be opened. -/
def takeRoom (p b w : Nat) (n : NvsPart) : Option (Nat × NvsPart) :=
  let fits (i : Nat) : Bool := (sectorAt i n).st = .open_ && decide ((sectorAt i n).used + w ≤ sectorRoom)
  match (assoc n.opens (2 * p + b)).filter fits, freeSectors p b n with
  | some i, _ => some (i, setSector i { sectorAt i n with used := (sectorAt i n).used + w } n)
  | none, i :: _ =>
    some (i, { setSector i { sectorAt i n with state := 0xFF00, used := w } n with opens := assocSet (2 * p + b) i n.opens })
  | none, [] => none

/-- Is the copy obsolete: not valid, or not the newest of its key in its bank (R370, R373)?  A counter record is obsolete
once a newer base record has committed, in whichever bank (R378), and a data copy once collection has copied it to another
sector: `copies` lists the newest first. -/
def obsolete (n : NvsPart) (c : Copy) : Bool :=
  let rival (d : Copy) : Bool := d.of c.part c.key && (d.sector % 2 = c.sector % 2 || c.type = 1)
  !c.valid || (n.copies.any fun d => rival d && decide (c.seq < d.seq) && d.valid) ||
    ((n.copies.find? fun d => rival d && d.seq = c.seq && d.data = c.data && d.valid).any fun d => d.sector ≠ c.sector)

/-- Obsolete space of a sector, in words. -/
def obsoleteWords (i : Nat) (n : NvsPart) : Nat :=
  ((n.copies.filter fun c => c.sector = i && obsolete n c).map fun c => c.words).sum

/-- Show the store in its status fields (Table 17.4). -/
def showNvs (s : State) : State :=
  let n := s.nvs
  let free := (List.range 512).countP fun i => (sectorAt i n).st = .free && !(sectorAt i n).retired
  let s := setF F.nvsStateQueued n.queue.length s
  let s := setF F.nvsStateProgramming (b2n n.prog.isSome) s
  let s := setF F.nvsStateKeys (liveKeys n).length s
  let s := setF F.nvsSectorsFree free s
  let s := setF F.nvsSectorsRetired ((List.range 512).countP fun i => (sectorAt i n).retired) s
  setF F.nvsEraseMaxEraseMax ((List.range 512).foldl (fun a i => max a (sectorAt i n).erases) 0) s

/-! ### Programming (R371–R374) -/

/-- May the store program and erase (R374, R379)? -/
def nvsWorks (s : State) : Bool := live s && !inShutdown s

/-- The sequence number of the next copy of a key (R371). -/
def nextSeq (p k : Nat) (n : NvsPart) : Nat :=
  match n.copies.filter fun c => c.of p k && c.valid with
  | [] => 0
  | cs => topSeq cs + 1

/-- The queue takes the device's waiting writes while it has room for them: it holds 16 (R374). -/
def feed (n : NvsPart) : NvsPart :=
  { n with queue := n.queue ++ n.later.take (16 - n.queue.length), later := n.later.drop (16 - n.queue.length) }

/-- The device's own writes follow what already waits. -/
def pushWrites (ws : List NvsWrite) (n : NvsPart) : NvsPart := feed { n with later := n.later ++ ws }

/-- The first queued write leaves the queue. -/
def dropWrite (n : NvsPart) : NvsPart := feed { n with queue := n.queue.drop 1, prog := none, failed := 0 }

/-- What a SAVE has still to write is not written, its commit record with it (R377). -/
def dropSave (n : NvsPart) : NvsPart :=
  feed { n with queue := n.queue.filter fun x => !x.save, later := n.later.filter fun x => !x.save, save := none }

/-- The first queued write is dropped; where it was a SAVE's, the SAVE cannot be completed. -/
def dropFailed (w : NvsWrite) (n : NvsPart) : NvsPart := if w.save then dropSave (dropWrite n) else dropWrite n

/-- The copy a write makes, with its CRC; `done` says whether COMMIT verifies.  Of a copy not finished the CRC word counts as
erased. -/
def copyOf (w : NvsWrite) (g : NvsProg) (done : Bool) : Copy :=
  let c : Copy :=
    { part := w.part, key := w.key, keyN := 65535 - w.key, type := b2n w.counter.isSome, data := w.data, seq := g.seq,
      gen := w.gen, crc := 0xFFFFFFFF, commit := done, cells := 0, sector := g.sector, words := g.words, skip := false }
  if done then { c with crc := crc32 c.head } else c

/-- A new base record of a counter: BASE, and every cell erased. -/
def baseRecord (p k b : Nat) : NvsWrite :=
  { part := p, key := k, gen := 0, counter := some b, save := false, data := leBytes 8 b ++ List.replicate 8 0 }

/-- Is the write a new base record of the key? -/
def isBase (p k : Nat) (w : NvsWrite) : Bool := w.part = p && w.key = k && w.counter.isSome

/-- The BASE of a new base record of the key that waits to be written. -/
def queuedBase (p k : Nat) (n : NvsPart) : Option Nat := ((n.queue ++ n.later).find? (isBase p k)).bind (·.counter)

/-- The new base record of the key need not be written any more. -/
def dropBase (p k : Nat) (n : NvsPart) : NvsPart :=
  feed { n with
    queue := n.queue.filter fun w => !isBase p k w
    later := n.later.filter fun w => !isBase p k w
    failed := if n.queue.head?.any (isBase p k) then 0 else n.failed }

/-- The sector that collection of a bank chooses: most obsolete space, then lowest erase count, then lowest number (R373); the
one in which a copy is being programmed is open still. -/
def collectChoice (p b : Nat) (n : NvsPart) : Option Nat :=
  let can := (bankSectors p b).filter fun i =>
    (sectorAt i n).st = .open_ && assoc n.opens (2 * p + b) ≠ some i && n.prog.all (·.sector ≠ i) &&
      decide (0 < obsoleteWords i n)
  can.foldl (fun a i =>
    match a with
    | none => some i
    | some j =>
      if obsoleteWords j n < obsoleteWords i n ||
          (obsoleteWords j n = obsoleteWords i n && decide ((sectorAt i n).erases < (sectorAt j n).erases)) then some i
      else some j) none

/-- Is the copy a deletion with no older copy of its key left (R380)? -/
def dropsOut (n : NvsPart) (c : Copy) : Bool :=
  c.data.isEmpty && !n.copies.any fun d => d.of c.part c.key && decide (d.seq < c.seq) && d.valid

/-- Copy what a sector that is collected still holds of one key: data go to the open sector of the bank with their sequence
number, a counter gets a new base record, the one that waits for it if any, and a deletion with nothing older is dropped (R373,
R378, R380).  `none` where there is no room, or the counter's base record is just being programmed. -/
def relocateCopy (p b : Nat) (n : NvsPart) (c : Copy) : Option NvsPart :=
  if c.type = 1 then
    if n.prog.isSome && n.queue.head?.any (isBase p c.key) then none
    else
      let seq := nextSeq p c.key n
      let base := (queuedBase p c.key n).getD (counterValue c)
      (takeRoom p (seq % 2) c.words n).map fun x =>
        dropBase p c.key { x.2 with copies := copyOf (baseRecord p c.key base) ⟨seq, x.1, c.words, 0, 0⟩ true :: x.2.copies }
  else if dropsOut n c then some n
  else (takeRoom p b c.words n).map fun x => { x.2 with copies := { c with sector := x.1 } :: x.2.copies }

/-- Everything a sector holds that is not obsolete. -/
def inUse (i : Nat) (n : NvsPart) : List Copy := n.copies.filter fun c => c.sector = i && !obsolete n c

/-- Copy out of a sector all that is in use. -/
def relocate (p b i : Nat) (n : NvsPart) : Option NvsPart := (inUse i n).foldlM (relocateCopy p b) n

/-- Can collection still give the bank room: an erase is to come, or the sector it would choose can be copied out? -/
def collectable (p b : Nat) (n : NvsPart) : Bool :=
  ((bankSectors p b).any fun i => (sectorAt i n).st = .erase && !(sectorAt i n).retired) ||
    (collectChoice p b n).any fun i => (relocate p b i n).isSome

/-- The flash words of a copy that are programmed: of a counter's base record its cells stay erased (R371, R378). -/
def progWords (w : NvsWrite) (g : NvsProg) : Nat := if w.counter.isSome then g.words - 64 else g.words

/-- The copy in programming ends unfinished after some of its words, a free number of them; the sector goes on at the next
flash word that is free (R372, R374). -/
def abandonCopy (s : State) : State :=
  match s.nvs.queue, s.nvs.prog with
  | w :: _, some g =>
    let (x, s) := takeFree s
    let k := 1 + x % progWords w g
    let n := s.nvs
    let sec := sectorAt g.sector n
    let n := if sec.used = g.start + g.words then setSector g.sector { sec with used := g.start + k } n else n
    showNvs { s with nvs := { n with copies := { copyOf w g false with words := k } :: n.copies, prog := none } }
  | _, _ => showNvs (modNvs (fun n => { n with prog := none }) s)

/-- Programming ends: the copy left has no COMMIT (R374). -/
def nvsInterrupt (s : State) : State := if s.nvs.prog.isSome then abandonCopy s else s

/-- Begin or begin again the copy of the first queued write (R371, R372): it waits while collection can still give room;
it is dropped when none can, or when it would add a key to 8,192 (R373). -/
def startCopy (w : NvsWrite) (s : State) : State :=
  let n := s.nvs
  let seq := nextSeq w.part w.key n
  let words := copyWords w.data.length w.counter.isSome
  let fullIndex := decide (8192 ≤ (liveKeys n).length) && (record w.part w.key s).isNone && !w.data.isEmpty
  let full (s : State) : State :=
    raise 0x4003 0xF w.part w.key (setF F.nvsFaultFull 1 (showNvs (modNvs (dropFailed w) s)))
  if fullIndex then full s
  else
    match takeRoom w.part (seq % 2) words n with
    | some (i, n) =>
      showNvs { s with nvs := { n with
        prog := some { seq := seq, sector := i, words := words, fails := n.failed, start := (sectorAt i n).used - words } } }
    | none => if collectable w.part (seq % 2) n then s else full s

/-- The next queued write starts a new copy (R371). -/
def execNvsWriteStart (s : State) : Host.Outcome State Fault Refusal :=
  .next (
    match s.nvs.queue, s.nvs.prog with
    | w :: _, none => if nvsWorks s then startCopy w s else s
    | _, _ => s)

/-- A copy's COMMIT verifies, and the index is updated (R371). -/
def execNvsCopyCommit (s : State) : Host.Outcome State Fault Refusal :=
  .next (
    match s.nvs.queue, s.nvs.prog with
    | w :: _, some g =>
      if nvsWorks s then
        showNvs (bump F.nvsWritesWrites (modNvs (fun n => dropWrite { n with copies := copyOf w g true :: n.copies }) s))
      else s
    | _, _ => s)

/-- A word fails to verify: the copy stays uncommitted and the store tries again, up to 3 times (R372).  A write of a SAVE
that fails ends what the SAVE still had to write. -/
def execNvsVerifyFail (s : State) : Host.Outcome State Fault Refusal :=
  .next (
    match s.nvs.queue, s.nvs.prog with
    | w :: _, some g =>
      if nvsWorks s then
        let s := abandonCopy (bump F.nvsUncommittedUncommitted s)
        if g.fails = 3 then
          raise 0x4002 0xF w.part w.key (setF F.nvsFaultWriteFail 1 (showNvs (modNvs (dropFailed w) s)))
        else startCopy w (modNvs (fun n => { n with failed := g.fails + 1 }) s)
      else s
    | _, _ => s)

/-! ### Counters (R378) -/

/-- Queue a new base record of a counter, or bring the one that waits to the value. -/
def putBase (p k b : Nat) (s : State) : State :=
  let put (ws : List NvsWrite) : List NvsWrite :=
    ws.map fun w => if w.part = p && w.key = k && w.counter.isSome then baseRecord p k b else w
  showNvs (modNvs (fun n =>
    if (queuedBase p k n).isSome then { n with queue := put n.queue, later := put n.later }
    else pushWrites [baseRecord p k b] n) s)

/-- Add one unit to a counter: the lowest erased cell is programmed, and counts even where that is interrupted; a full record
rolls over to a new base record, and one that waits keeps the value.  A counter without a record gets one. -/
def countUp (k : Nat) (s : State) : State :=
  let wait := queuedBase 0 k s.nvs
  match resolve 0 k s.nvs with
  | .found c =>
    if c.type = 1 then
      let s := if c.cells < 8192 then
          modNvs (fun n => { n with copies := n.copies.map fun d => if d = c then { d with cells := c.cells + 1 } else d }) s
        else s
      if wait.isSome || 8192 ≤ c.cells + 1 then putBase 0 k (wait.getD (counterValue c) + 1) s else s
    else s
  | _ => putBase 0 k (wait.getD 0 + 1) s

/-- The units a counter holds. -/
def counterOf (k : Nat) (s : State) : Nat :=
  match resolve 0 k s.nvs with
  | .found c => if c.type = 1 then counterValue c else 0
  | _ => 0

/-! ### Collection (R373, R384) -/

/-- A bank with fewer than 2 free sectors collects a sector: what it holds in use is copied out, every copy counting in WRITES,
and it is marked for erasing (R373).  Until the erase both copies stand. -/
def execGarbageCollect (p : Fin 4) (bank : Fin 2) (s : State) : Host.Outcome State Fault Refusal :=
  .next (
    if nvsWorks s && decide ((freeSectors p bank s.nvs).length < 2) then
      match collectChoice p bank s.nvs with
      | none => s
      | some i =>
        match relocate p bank i s.nvs with
        | none => s
        | some n =>
          showNvs (bumpBy F.nvsWritesWrites (n.copies.length - s.nvs.copies.length)
            { s with nvs := setSector i { sectorAt i n with state := 0 } n })
    else s)

/-- The partition of a sector (Table 17.1). -/
def sectorPart (i : Nat) : Nat := if i < 320 then 0 else if i < 480 then 2 else if i < 500 then 1 else 3

/-- A sector is erased: it counts, its copies are gone, and at 100,000 it retires; that it has reached 90,000 is reported once
(R384). -/
def eraseSector (i : Nat) (s : State) : State :=
  let e := (sectorAt i s.nvs).erases + 1
  let s := modNvs (fun n => { setSector i (Sector.erased e) n with copies := n.copies.filter fun c => c.sector ≠ i }) s
  if 90000 ≤ e && !s.nvs.worn.contains i then
    raise 0x4004 0xF (sectorPart i) i (setF F.nvsFaultWear 1 (modNvs (fun n => { n with worn := i :: n.worn }) s))
  else s

/-- A sector erase completes (R373). -/
def execSectorEraseComplete (sec : Fin 512) (s : State) : Host.Outcome State Fault Refusal :=
  .next (if nvsWorks s && (sectorAt sec s.nvs).st = .erase then showNvs (eraseSector sec s) else s)

/-! ### Access through NVS.REC (R380–R383) -/

/-- The unlock state for an access to partition `p`, unless its complement fails, when every partition counts as locked
(R382); the event names the partition (R386). -/
def unlockBits (p : Nat) (s : State) : State × Nat :=
  let u := bits (s.word F.nvsAccess) 7 0
  if u + getF F.nvsAccessUnlockN s = 255 then (s, u)
  else (raise 0x4005 0xF p 0 (setF F.nvsFaultComplement 1 (complementFail 5 s)), 0)

/-- The lowest partition whose unlock bits disagree with their complement, which the scan names (DESIGN CHOICE: R386 names the
partition of an access, and the scan is for none; assumption 141). -/
def wrongPart (s : State) : Nat :=
  let bad := (bits (s.word F.nvsAccess) 7 0) ^^^ (255 - getF F.nvsAccessUnlockN s)
  ((List.range 4).find? fun p => bad.testBit p || bad.testBit (4 + p)).getD 0

/-- Set one unlock bit, with the complement written beside it: 0–3 read, 4–7 write (Table 17.4). -/
def setUnlock (i : Nat) (on : Bool) (s : State) : State :=
  let (s, u) := unlockBits (i % 4) s
  let v := if u.testBit i = on then u else if on then u + 2 ^ i else u - 2 ^ i
  setF F.nvsAccessUnlockN (255 - v) (s.setWord F.nvsAccess (putBits (s.word F.nvsAccess) 7 0 v))

/-- Show which passwords are set (Table 17.4). -/
def showPw (s : State) : State :=
  let m (acc : Nat) : Nat := ((List.range 4).map fun p => if (assoc s.nvs.pws (2 * p + acc)).isSome then 2 ^ p else 0).sum
  setF F.nvsAccessPwRead (m 0) (setF F.nvsAccessPwWrite (m 1) s)

/-- A password without its trailing zeros (R380). -/
def trimZeros (bs : List Byte) : List Byte := (bs.reverse.dropWhile (· = 0)).reverse

/-- May VENDOR be unlocked for write in this life-cycle state (R382)? -/
def vendorWrite (s : State) : Bool := getF F.lcsStateState s = 1 || getF F.lcsStateState s = 4

/-- Does the unlock match (R382)? -/
def unlockMatches (p acc : Nat) (pw : List Byte) (s : State) : Bool :=
  (p ≠ 0 || acc = 0 || vendorWrite s) &&
    match assoc s.nvs.pws (2 * p + acc) with
    | some r => sha384 (r.take 16 ++ pw) = r.drop 16
    | none => false

/-- Queue a write. -/
def nvsQueue (w : NvsWrite) (s : State) : State :=
  showNvs (modNvs (pushWrites [w]) s)

/-- Is the length of a request's data in range (R383)? -/
def nvsLenOk (bs : List Byte) : Bool := decide (4 ≤ bs.length) && decide (bs.length ≤ 4096)

/-- Is the password of 1–32 characters, in a request of a length in range (R380, R383)? -/
def pwOk (bs : List Byte) : Bool := nvsLenOk bs && !(trimZeros bs).isEmpty && decide ((trimZeros bs).length ≤ 32)

/-- A request that is refused counts (R383). -/
def nvsRefuse (s : State) : State × Nat := (bump F.nvsRefusedWriteRefused s, 1)

/-- A write of an owner's record, or its deletion (R380, R383). -/
def nvsWrite (del : Bool) (p k : Nat) (bs : List Byte) (s : State) : State × Nat :=
  let (s, u) := unlockBits p s
  if !u.testBit (4 + p) || deviceKey p k || !nvsLenOk bs ||
      (del && bs ≠ [0, 0, 0, 0]) || 16 ≤ s.nvs.queue.length then nvsRefuse s
  else
    (nvsQueue { part := p, key := k, data := if del then [] else bs, gen := 0, counter := none, save := false } s, 0)

/-- An unlock of partition `p` for an access; 8 failures in a row refuse every unlock for 10 s (R382). -/
def nvsUnlock (acc p : Nat) (bs : List Byte) (s : State) : State × Nat :=
  let pw := trimZeros bs
  let i : Fin 4 := Fin.ofNat 4 p
  if !pwOk bs || s.nvs.lockout[i] then nvsRefuse s
  else if unlockMatches p acc pw s then
    (setUnlock (4 * acc + p) true (modNvs (fun n => { n with fails := n.fails.set i 0 }) s), 0)
  else
    let f := s.nvs.fails[i] + 1
    let s := modNvs (fun n => { n with fails := n.fails.set i (f % 8), lockout := n.lockout.set i (f = 8) }) s
    (raise 0x4006 0xF p 0 (setF F.nvsFaultUnlockFail 1 (bump F.nvsRefusedUnlockFail s)), 1)

/-- A lock of a partition (R382). -/
def nvsLock (p : Nat) (bs : List Byte) (s : State) : State × Nat :=
  if !pwOk bs then nvsRefuse s else (setUnlock p false (setUnlock (4 + p) false s), 0)

/-- The next bytes of the security engine's generator (R400). -/
def randomBytes (n : Nat) (s : State) : List Byte × State :=
  let (bs, g) := drbgTake s.sec.drbg ((n + 15) / 16)
  (bs.take n, { s with sec := { s.sec with drbg := g } })

/-- A password is set for an access; it takes effect at once (R382), with 16 bytes of salt from the generator (R400). -/
def nvsSetPw (acc p : Nat) (bs : List Byte) (s : State) : State × Nat :=
  let pw := trimZeros bs
  let (s, u) := unlockBits p s
  if !pwOk bs || !u.testBit (4 + p) || 16 ≤ s.nvs.queue.length then nvsRefuse s
  else
    let (salt, s) := randomBytes 16 s
    let r := salt ++ sha384 (salt ++ pw)
    let s := showPw (modNvs (fun n => { n with pws := assocSet (2 * p + acc) r n.pws }) s)
    (nvsQueue { part := 0, key := 0x510 + 2 * p + acc, data := r, gen := 0, counter := none, save := false } s, 0)

/-- The 16-byte header of a record read (R381). -/
def nvsHeader (status len seq : Nat) : List Word :=
  [BitVec.ofNat 32 (status * 2 ^ 28 + len), BitVec.ofNat 32 seq, 0, 0]

/-- A record as NVS.REC delivers it, in `n` bytes (R381); a password record reads LOCKED (R400). -/
def nvsRead (p k n : Nat) (s : State) : State × List Word :=
  let (s, u) := unlockBits p s
  if !u.testBit p || (p = 0 && inR 0x510 k 0x517) then (s, fitWords (n / 4) (nvsHeader 3 0 0))
  else
    match resolve p k s.nvs with
    | .absent => (s, fitWords (n / 4) (nvsHeader 1 0 0))
    | .conflict q => (noteConflict p k s, fitWords (n / 4) (nvsHeader 2 0 q))
    | .found c =>
      let bs := copyBytes c
      (s, fitWords (n / 4) (nvsHeader (if n < 16 + bs.length then 4 else 0) bs.length c.seq ++ toWords bs))

/-- Address fields of NVS.REC (R380). -/
def nvsPartOf (a : Nat) : Nat := a / 2 ^ 30
def nvsOpOf (a : Nat) : Nat := a / 2 ^ 27 % 8
def nvsKeyOf (a : Nat) : Nat := a % 65536
def nvsAddrOk (a : Nat) : Bool := a / 65536 % 2048 = 0 && nvsOpOf a ≠ 7 && (nvsOpOf a = 0 || nvsOpOf a = 6 || nvsKeyOf a = 0)

/-- A request to the store by operation code: writes and deletions, unlocks, lock, passwords (R380, R383). -/
def nvsRequest (a : Nat) (bs : List Byte) (s : State) : State × Nat :=
  let p := nvsPartOf a
  let op := nvsOpOf a
  if !nvsAddrOk a then nvsRefuse s
  else if op = 0 || op = 6 then nvsWrite (op = 6) p (nvsKeyOf a) bs s
  else if op = 1 || op = 2 then nvsUnlock (op - 1) p bs s
  else if op = 3 then nvsLock p bs s
  else nvsSetPw (op - 4) p bs s

/-- A transfer to NVS.REC whose address carries one of `ops`. -/
def nvsOut (u : UnitId) (t : Tag) (ops : Nat → Bool) (s : State) : State :=
  match findXfer u t true (· = 0x78) s with
  | some x =>
    if ops (nvsOpOf x.addr) then
      recordOut u t (· = 0x78) (fun _ _ _ => [0]) (fun x ws s => nvsRequest x.addr (toBytes ws) s) s
    else s
  | none => s

/-- STREAM.IN from NVS.REC (R381). -/
def execNvsRead (u : UnitId) (t : Tag) (s : State) : Host.Outcome State Fault Refusal :=
  .next (dataIn u t (· = 0x78) (fun _ _ => [0])
    (fun x s =>
      if x.len < 16 || nvsOpOf x.addr ≠ 0 || !nvsAddrOk x.addr then (s, 2, [])
      else
        let (s, ws) := nvsRead (nvsPartOf x.addr) (nvsKeyOf x.addr) x.len s
        (s, 0, ws)) s)

/-- STREAM.OUT with OP 0 queues a write; a request with the reserved OP is refused here too (R380, R383). -/
def execNvsWrite (u : UnitId) (t : Tag) (s : State) : Host.Outcome State Fault Refusal :=
  .next (nvsOut u t (fun op => op = 0 || op = 7) s)

def execNvsDelete (u : UnitId) (t : Tag) (s : State) : Host.Outcome State Fault Refusal :=
  .next (nvsOut u t (· = 6) s)

def execNvsUnlockRead (u : UnitId) (t : Tag) (s : State) : Host.Outcome State Fault Refusal :=
  .next (nvsOut u t (· = 1) s)

def execNvsUnlockWrite (u : UnitId) (t : Tag) (s : State) : Host.Outcome State Fault Refusal :=
  .next (nvsOut u t (· = 2) s)

def execNvsLock (u : UnitId) (t : Tag) (s : State) : Host.Outcome State Fault Refusal :=
  .next (nvsOut u t (· = 3) s)

def execNvsSetReadPassword (u : UnitId) (t : Tag) (s : State) : Host.Outcome State Fault Refusal :=
  .next (nvsOut u t (· = 4) s)

def execNvsSetWritePassword (u : UnitId) (t : Tag) (s : State) : Host.Outcome State Fault Refusal :=
  .next (nvsOut u t (· = 5) s)

/-- The 10 s refusal ends (R382). -/
def execUnlockLockoutEnd (p : Fin 4) (s : State) : Host.Outcome State Fault Refusal :=
  .next (if clocked s then modNvs (fun n => { n with lockout := n.lockout.set p false }) s else s)

/-! ### Index at boot (R376, R377, R379) -/

/-- For the generation of the last complete SAVE, pass over the newer copies of the save set, and queue the repair of each key
whose copy in use is not its newest (R377). -/
def resolveSaves (n : NvsPart) : NvsPart :=
  let g := lastGen n
  let late (c : Copy) : Bool := c.part = 2 && decide (c.key < 0x1000) && c.key ≠ commitKey && decide (g < c.gen) && c.valid
  let m := { n with copies := n.copies.map fun c => { c with skip := late c } }
  let keys := ((n.copies.filter late).map fun c => c.key).dedup
  pushWrites (keys.filterMap fun k =>
    match resolve 2 k m with
    | .found c =>
      if c.seq + 1 < nextSeq 2 k m then some { part := 2, key := k, data := c.data, gen := c.gen, counter := none, save := false }
      else none
    | _ => none) m

/-- The index as the scanner leaves it: the queue is lost, uncommitted copies count, sectors to erase are marked, the
passwords and the unlocks follow the records (R374, R379, R382). -/
def buildIndex (s : State) : State :=
  let s := bumpBy F.nvsUncommittedUncommitted (s.nvs.copies.countP Copy.uncommitted) s
  let s := modNvs (fun n => resolveSaves { n with
    queue := []
    later := []
    failed := 0
    prog := none
    told := []
    save := none
    fails := Vector.replicate 4 0
    lockout := Vector.replicate 4 false }) s
  let s := modNvs (fun n => { n with
    pws := (List.range 8).filterMap fun i =>
      match resolve 0 (0x510 + i) n with
      | .found c => some (i, c.data)
      | _ => none }) s
  let bad := (s.nvs.copies.map fun c => (c.part, c.key)).dedup.filter fun x =>
    match resolve x.1 x.2 s.nvs with
    | .conflict _ => true
    | _ => false
  let s := bad.foldl (fun s x => noteConflict x.1 x.2 s) s
  let u := ((List.range 8).map fun i =>
    if (assoc s.nvs.pws (2 * (i % 4) + i / 4)).isNone && (i ≠ 4 || vendorWrite s) then 2 ^ i else 0).sum
  let s := setF F.nvsAccessUnlockN (255 - u) (s.setWord F.nvsAccess (putBits (s.word F.nvsAccess) 7 0 u))
  showNvs (showPw (setF F.nvsStateIndexReady 1 s))

end Sys2Proof.Machine
end

