-- ==== Sys2Proof/Machine/Ejector.lean ====
section
/-!
DEFINITION. The ejector valves: EJECT (R280–R282), settings (R293, R294), notices and decisions (R297–R299, R474),
fire time and energising (R300, R304), the end of a shot (R295, R296, R305), learning (R301, R302), the coil model
(R303), faults (R306) and what ends valves from outside (R307).
-/

namespace Sys2Proof.Machine

/-! ### Channels -/

/-- The actuator die of a valve (R291). -/
def valveDie (v : Valve) : Fin 2 := Fin.ofNat 2 (v.val / 64)

/-- The channel of a valve on its die (R291). -/
def valveChan (v : Valve) : Nat := v.val % 64

/-- The group of a valve (R291). -/
def groupOfValve (v : Valve) : Nat := v.val / 8

/-- Is the valve present on the option? -/
def valvePresent (opt : Opt) (v : Nat) : Bool := diePresent opt (6 + v / 64)

/-- Change one channel. -/
def modChan (v : Valve) (f : Chan → Chan) (s : State) : State :=
  { s with ejt := { s.ejt with chans := vmod s.ejt.chans v f } }

/-- Change one actuator die's scheduler. -/
def modEjt (d : Fin 2) (f : EjtDie → EjtDie) (s : State) : State :=
  { s with ejt := { s.ejt with dies := vmod s.ejt.dies d f } }

/-- The valves of a die. -/
def valvesOf (d : Fin 2) : List Valve := (List.finRange 128).filter fun v => valveDie v = d

/-- The valves of a group. -/
def groupValves (g : Nat) : List Valve := (List.finRange 128).filter fun v => groupOfValve v = g

/-- Is the channel energised? -/
def energised (v : Valve) (s : State) : Bool := s.ejt.chans[v].run.isSome

/-- Is the channel in peak? -/
def peaking (v : Valve) (s : State) : Bool :=
  match s.ejt.chans[v].run with
  | some r => r.inPeak
  | none => false

/-- Is VHSg on: a member energised, or a last member quenching under QUENCH = 1 (R292, R296)? -/
def highSideOn (g : Nat) (s : State) : Bool :=
  (groupValves g).any fun v => energised v s || s.ejt.chans[v].quench

/-- Show a die's groups and peaks (Table 13.7). -/
def showDie (d : Fin 2) (s : State) : State :=
  let s := setF (F.ejtDieStateInPeak d) ((valvesOf d).countP fun v => peaking v s) s
  setF (F.ejtDieStateHsOn d) (((List.range 8).map fun g => if highSideOn (8 * d.val + g) s then 2 ^ g else 0).sum) s

/-- Show a channel's queue and state (Table 13.7). -/
def showChan (v : Valve) (s : State) : State :=
  let d := valveDie v
  let k := valveChan v
  let c := s.ejt.chans[v]
  let s := setF (F.ejtVStateRunning d k) (b2n c.run.isSome) (setF (F.ejtVStateQueued d k) c.queue.length s)
  let mean := (rneShift 4 (c.lag.getD 0)).toNat
  setF (F.ejtVAdvanceDipMean d k) mean (setF (F.ejtVAdvanceAdvance d k) (mean + c.air) s)

/-- The words of a profile. -/
def profileWords (d : Fin 2) (p : Nat) (s : State) : List Word :=
  [s.word (F.ejtProfileW0 d p), s.word (F.ejtProfileW1 d p), s.word (F.ejtProfileW2 d p)]

/-- Is the profile loaded? -/
def profileLoaded (d : Fin 2) (p : Nat) (s : State) : Bool := flag (F.ejtProfileStateLoaded d p) s

/-- Does the valve accept shots? -/
def valveEnabled (v : Valve) (s : State) : Bool := flag (F.ejtVStateEnabled (valveDie v) (valveChan v)) s

/-- Is VIN in the Over zone (R51)? -/
def vinOver (s : State) : Bool := getF F.pwrStateVinZone s = 4

/-! ### Queues -/

/-- EJT_DROPPED, naming the valve (R298, R449). -/
def noteDrop (v : Valve) (s : State) : State := raiseLim 0x3003 4 v 0 s

/-- The valve's queue is emptied; each shot counts in QUEUE_FLUSH (R44, R77, R294, R306). -/
def flushValve (v : Valve) (s : State) : State :=
  let n := s.ejt.chans[v].queue.length
  showChan v (modChan v (fun c => { c with queue := [] }) (bumpBy (F.ejtQueueFlushQueueFlush (valveDie v)) n s))

/-- The advance in µs; a valve without a learned lag has that of AIR alone (R300). -/
def advanceOf (v : Valve) (s : State) : Int := rneShift 4 (s.ejt.chans[v].lag.getD 0) + s.ejt.chans[v].air

/-- Settings of the die record (Table 13.1). -/
def startWin (d : Fin 2) (s : State) : Nat := bits (s.word (F.ejtDieCfg0 d)) 27 18
def offMin (d : Fin 2) (s : State) : Nat := bits (s.word (F.ejtDieCfg0 d)) 17 10
def learnExp (d : Fin 2) (s : State) : Nat := bits (s.word (F.ejtDieCfg0 d)) 9 6

/-- The energise time and the last start of a shot under the settings of now (R300). -/
def shotTimes (v : Valve) (x : Shot) (s : State) : Int × Int :=
  let e := x.start - 1000 * advanceOf v s
  (e, e + 1000 * startWin (valveDie v) s)

/-- The earliest instant at which a committed shot may energise, under the minimum off-time `off`, in ns, with which it was
committed (R294, R300). -/
def readyAt (v : Valve) (e : Int) (off : Nat) (s : State) : Int :=
  match s.ejt.chans[v].stopped with
  | some t => max e ((t : Int) + off)
  | none => e

/-- The committed shot with the lowest energise time, the earliest arrival on a tie, with its energise time, last start and
minimum off-time (R300). -/
def nextShot (q : List Shot) : Option (Shot × Int × Int × Nat) :=
  q.foldl (fun a x =>
    match x.times, a with
    | none, _ => a
    | some t, none => some (x, t)
    | some t, some (y, ty) => if t.1 < ty.1 then some (x, t) else some (y, ty)) none

/-- Remove the first shot equal to `x`. -/
def eraseShot (x : Shot) : List Shot → List Shot
  | [] => []
  | y :: t => if y = x then t else y :: eraseShot x t

/-- Drop a shot from its queue, counted in `f` (R300, R304). -/
def dropShot (v : Valve) (f : Fld) (x : Shot) (s : State) : State :=
  noteDrop v (showChan v (modChan v (fun c => { c with queue := eraseShot x c.queue }) (bump f s)))

/-- While no shot runs, shots that can no longer start in their window are dropped (R300). -/
def settleValve (v : Valve) : Nat → State → State
  | 0, s => s
  | n + 1, s =>
    if energised v s then s
    else
      match nextShot s.ejt.chans[v].queue with
      | some (x, e, l, off) =>
        if l < readyAt v e off s then settleValve v n (dropShot v (F.ejtDropWindowDropWindow (valveDie v)) x s) else s
      | none => s

/-- Commit a shot: fix its times, or drop it when its last start has passed (R294, R300). -/
def commitShot (v : Valve) (x : Shot) (s : State) : State :=
  let (e, l) := shotTimes v x s
  if l < (s.time : Int) then dropShot v (F.ejtDropWindowDropWindow (valveDie v)) x s
  else
    settleValve v 9 (modChan v (fun c => { c with queue := c.queue.map fun y => if y = x then { y with times := some (e, l, 10000 * offMin (valveDie v) s) } else y }) s)

/-! ### Acceptance (Table 13.4, steps 5–8) -/

/-- The shot part of an EJECT, or a default shot: refused, dropped or queued; whether it was queued. -/
def acceptShot (v : Valve) (x : Shot) (warm : Bool) (s : State) : State × Bool :=
  let d := valveDie v
  if vinOver s then (bump (F.ejtDropSupplyDropSupply d) s, false)
  else if x.hold < 1 || 25500 < x.hold || !profileLoaded d x.prof s || !valveEnabled v s then
    (raiseLim 0x3002 4 v 0 (bump (F.ejtRefusedCmd d) s), false)
  else if warm then (bump (F.ejtRefusedWarm d) s, false)
  else if 8 ≤ s.ejt.chans[v].queue.length then (noteDrop v (bump (F.ejtDropQueueDropQueue d) s), false)
  else (showChan v (modChan v (fun c => { c with queue := c.queue ++ [x] }) s), true)

/-- EJT_REFUSED for a command that names no valve or is refused before step 4: it names the die (R298). -/
def refuseCmd (d : Fin 2) (s : State) : State := raiseLim 0x3002 1 (6 + d) 0 (bump (F.ejtRefusedCmd d) s)

/-! ### Lines -/

/-- Change one band's notices at a die. -/
def modNotes (d : Fin 2) (b : Fin 16) (f : BandNotes → BandNotes) (s : State) : State :=
  modEjt d (fun e => { e with bands := vmod e.bands b f }) s

/-- The line as a die keeps it. -/
def lineKept (d : Fin 2) (b : Fin 16) (n : Nat) (s : State) : Option Kept :=
  s.ejt.dies[d].bands[b].kept.find? fun k => k.note.n = n

/-- Set the state of a kept line. -/
def setLine (d : Fin 2) (b : Fin 16) (n : Nat) (st : LineState) (s : State) : State :=
  modNotes d b (fun e => { e with kept := e.kept.map fun k => if k.note.n = n then { k with st := st } else k }) s

/-- Is the number in one of the ranges? -/
def everHeld (n : Nat) (l : List (Nat × Nat)) : Bool := l.any fun r => decide (r.1 ≤ n ∧ n < r.2)

/-- The ranges with one more number held. -/
def noteHeld (n : Nat) (l : List (Nat × Nat)) : List (Nat × Nat) :=
  if everHeld n l then l
  else match l with
    | r :: t => if r.2 = n then (r.1, n + 1) :: t else (n, n + 1) :: r :: t
    | [] => [(n, n + 1)]

/-- The die once held a notice of the line and keeps none (a closed line of R474 among them), or the line is older than every
notice kept (R298). -/
def lineOlder (d : Fin 2) (b : Fin 16) (n : Nat) (s : State) : Bool :=
  let e := s.ejt.dies[d].bands[b]
  everHeld n e.ever || (!e.kept.isEmpty && e.kept.all fun k => decide (n < k.note.n))

/-- The queued shots of a line on a die, uncommitted, with their valves. -/
def lineShots (d : Fin 2) (b n : Nat) (s : State) : List (Valve × Shot) :=
  (valvesOf d).flatMap fun v =>
    (s.ejt.chans[v].queue.filter fun x => x.band = b && x.line = n && x.times.isNone).map fun x => (v, x)

/-- DONE: the queued shots of the line commit, and the line is DECIDED (R299). -/
def takeDone (d : Fin 2) (b : Fin 16) (n : Nat) (s : State) : State :=
  setLine d b n .decided ((lineShots d b n s).foldl (fun s x => commitShot x.1 x.2 s) s)

/-- The owner default of a band in the image that runs (R257). -/
def bandDefault (b : Nat) (s : State) : Dflt :=
  match s.boot.running with
  | some i => (nth none i.defaults b).getD .none
  | none => .none

/-- The owner default at one die: under ALL each of its valves of the band takes one committed shot (R257, R299).  The
valves of band b are 8b to 8b + 7 (assumption 23). -/
def applyDefault (d : Fin 2) (b : Fin 16) (k : Kept) (s : State) : State :=
  match bandDefault b s with
  | .none => s
  | .all fall prof hold =>
    ((valvesOf d).filter fun v => v.val / 8 = b.val).foldl (fun s v =>
      let x : Shot := { band := b, line := k.note.n, start := k.note.view + fall, prof := prof, hold := hold, times := none }
      let (s, ok) := acceptShot v x k.note.warm s
      if ok then commitShot v x (bump (F.ejtDefaultDefaultShots d) s) else s) s

/-- The deadline monitor acts on a line at a die (R28, R299): uncommitted shots are discarded, the line is DEFAULTED, and
the owner default is applied.  STC.DEADLINE_DEFAULT counts the line once, and never a blind line (R168). -/
def boundPass (d : Fin 2) (b : Fin 16) (k : Kept) (s : State) : State :=
  let n := k.note.n
  let xs := lineShots d b n s
  let s := bumpBy (F.ejtDefaultDiscarded d) xs.length s
  let s := xs.foldl (fun s x => showChan x.1 (modChan x.1 (fun c => { c with queue := eraseShot x.2 c.queue }) s)) s
  let s := setLine d b n .defaulted s
  let s := if k.note.blind || s.ejt.counted.contains (b.val, n, k.note.bound) then s
    else bump F.stcDeadlineDefaultDeadlineDefault { s with ejt := { s.ejt with counted := ((b.val, n, k.note.bound) :: s.ejt.counted).take 1024 } }
  applyDefault d b k s

/-- A line notice arrives at an actuator die; a blind line is decided by the owner default at once (R168, R297). -/
def execLineNotice (d : Fin 2) (s : State) : Host.Outcome State Fault Refusal :=
  .next (
    match s.ejt.dies[d].coming with
    | [] => s
    | x :: rest =>
      if !arrivesFrom (if dieUp (asmDie s.opt) s then asmDie s.opt else 0) d s then s
      else
        let b : Fin 16 := Fin.ofNat 16 x.band
        let k : Kept := { note := x, st := .open_ }
        let s := modEjt d (fun e => { e with coming := rest }) s
        let s := modNotes d b (fun e => { e with kept := (k :: e.kept).take 32, ever := noteHeld x.n e.ever }) s
        if x.blind then boundPass d b k s else s)

/-- A line's bound instant passes while it is OPEN (R299). -/
def execLineBoundPass (d : Fin 2) (b : Fin 16) (n : BitVec 24) (s : State) : Host.Outcome State Fault Refusal :=
  .next (
    match lineKept d b n.toNat s with
    | some k => if clocked s && adUp d s && k.st = .open_ && decide (k.note.bound ≤ s.time) then boundPass d b k s else s
    | none => s)

/-- A band's zero state at the schedulers: every OPEN line has reached its bound, and the notices kept are emptied (R297).
DESIGN CHOICE: R297 names the notices a die keeps; one still on its way is not lost: it arrives later, and its line is decided
or defaulted at its own bound, as R26 asks of every product line; assumption 133. -/
def notesZero (b : Fin 16) (s : State) : State :=
  let one (d : Fin 2) (s : State) : State :=
    let open_ := (s.ejt.dies[d].bands[b].kept.reverse).filter fun k => k.st = .open_
    let s := if adUp d s then open_.foldl (fun s k => boundPass d b k s) s else s
    modEjt d (fun e => { e with bands := vmod e.bands b fun x => { x with kept := [] } }) s
  let s := one 1 (one 0 s)
  { s with ejt := { s.ejt with counted := s.ejt.counted.filter fun c => c.1 ≠ b.val } }

/-- On entry to STANDBY, PARK or shutdown the OPEN lines are closed and the notices emptied (R474). DESIGN CHOICE: lines that
have completed and are not yet OPEN at a die, held in a band, in a fused line that has not left or with their notice on its
way, end here too: their bound falls where R26 does not apply, and lines after the exit are new ones; assumption 133. -/
def closeLines (s : State) : State :=
  let one (d : Fin 2) (s : State) : State :=
    modEjt d (fun e => { e with
      coming := []
      bands := e.bands.map fun x => { x with kept := [] } }) s
  let s := one 1 (one 0 s)
  { s with fused := { s.fused with waiting := [] }, bands := s.bands.map fun e => { e with done := [] } }

/-! ### EJECT -/

/-- Fields of C2 and C3 (Table 12.11). -/
def cDone (b : List Word) : Bool := bit (nth 0 b 2) 31
def cNone (b : List Word) : Bool := bit (nth 0 b 2) 30
def cProf (b : List Word) : Nat := bits (nth 0 b 2) 29 26
def cValve (b : List Word) : Valve := ⟨bits (nth 0 b 2) 25 19, by unfold bits; omega⟩
def cBand (b : List Word) : Fin 16 := ⟨bits (nth 0 b 2) 18 15, by unfold bits; omega⟩
def cHold (b : List Word) : Nat := bits (nth 0 b 2) 14 0
def cLine (b : List Word) : Nat := bits (nth 0 b 3) 23 0
def cStart (b : List Word) : Int := (pairOf (nth 0 b 0) (nth 0 b 1)).toNat

/-- The check of C2 at issue (R281). -/
def ejectOk (b : List Word) (s : State) : Bool :=
  decide ((cBand b).val < bandCount s.opt) && (cNone b || valvePresent s.opt (cValve b))

/-- The dies an EJECT goes to, each with whether it takes only the DONE (R281). -/
def ejectDies (b : List Word) (s : State) : List (Fin 2 × Bool) :=
  let home : Fin 2 := if cNone b then 0 else valveDie (cValve b)
  (home, false) :: (if cDone b && diePresent s.opt 7 then [(1 - home, true)] else [])

/-- The hub measures the line of a DONE from its entry into FUSED to the issue, in CORE cycles at 1.2 GHz (R258). -/
def measureBudget (u : UnitId) (b n : Nat) (s : State) : State :=
  match s.fused.entries.find? fun e => e.band = b && e.n = n with
  | none => s
  | some e =>
    let s := { s with fused := { s.fused with entries := s.fused.entries.filter (· ≠ e) } }
    let r := (s.periph - e.at_) * 12
    let s := if getF F.isaBudgetMaxMax s < r then setF F.isaBudgetMaxMax (min r (topF F.isaBudgetMaxMax)) s else s
    if getF F.isaBudgetDeclared s < r then
      raiseLim 0x2104 6 u 0 (setF F.isaFaultBudgetOverrun 1 (bump F.isaBudgetOverrunOverrun s))
    else s

/-- Send an EJECT to one die; without a path it is dropped and counted (R250, Table 13.6). -/
def sendEject (u : UnitId) (b : List Word) (s : State) (x : Fin 2 × Bool) : State :=
  if reach (dieOf u) (6 + x.1) s then sendMsg x.1 (.eject u x.2 b) s
  else bump (F.ejtDropLinkDropLink x.1) s

/-- EJECT (R280, R281). -/
def execEject (u : UnitId) (n : Reg) (s : State) : Host.Outcome State Fault Refusal :=
  if isBlock n then
    .next (issue u .event false ((blockRegs n).map .s) false
      (fun s =>
        let b := getBlock u n s
        if !ejectOk b s then takeExc u 7 false s
        else
          let s := if cDone b then measureBudget u (cBand b) (cLine b) s else s
          advance u false ((ejectDies b s).foldl (sendEject u b) s)) s)
  else .refused (.illFormed "EJECT")

/-- Do K0–K3 hold the complement of the command (R282, R321)? -/
def complementOk (b : List Word) : Bool :=
  (List.range 4).all fun i => nth 0 b (i + 4) = ~~~ (nth 0 b i)

/-- Is the command malformed by its own fields (Table 13.4, step 2)? -/
def ejectMalformed (b : List Word) : Bool :=
  bits (nth 0 b 3) 31 24 ≠ 0 ||
    (cNone b && (!cDone b || cStart b ≠ 0 || cProf b ≠ 0 || (cValve b).val ≠ 0 || cHold b ≠ 0))

/-- Table 13.4 at one die; a line whose bound has come is decided by the deadline monitor first (R28, R299).  A command that
arrives at exactly the bound is late (DESIGN CHOICE: R28 sets the bound and does not say on which side the instant itself falls;
assumption 121). -/
def takeEject (d : Fin 2) (doneOnly : Bool) (b : List Word) (s : State) : State :=
  let band := cBand b
  let n := cLine b
  if !complementOk b then
    raise 0x3001 1 (6 + d) 0 (setF (F.ejtFaultComplement d) 1 (bump (F.ejtComplementComplement d) (complementFail 0 s)))
  else if ejectMalformed b then refuseCmd d s
  else
    let s := match lineKept d band n s with
      | some k => if k.st = .open_ && decide (k.note.bound ≤ s.time) then boundPass d band k s else s
      | none => s
    match lineKept d band n s with
    | none => if lineOlder d band n s then bump F.stcLateDecisionLateDecision s else refuseCmd d s
    | some k =>
      if k.st ≠ .open_ then bump F.stcLateDecisionLateDecision s
      else
        let s :=
          if cNone b || doneOnly then s
          else (acceptShot (cValve b)
            { band := band, line := n, start := cStart b, prof := cProf b, hold := cHold b, times := none } k.note.warm s).1
        if cDone b then takeDone d band n s else s

/-- An EJECT arrives at an actuator die (R298); one whose path has no working link left is dropped at the scheduler (R250). -/
def execEjectArrival (d : Fin 2) (s : State) : Host.Outcome State Fault Refusal :=
  .next (
    match s.msgs[d] with
    | .eject u o b :: rest =>
      if arrives d (.eject u o b) s then
        let s := { s with msgs := s.msgs.set d rest }
        drainMsgs d (if lostOnWay d (.eject u o b) s then loseMsg d (.eject u o b) s else takeEject d o b s)
      else s
    | _ => s)

/-! ### Running shots (R295, R296, R300–R306) -/

/-- The last start of uncommitted shots passes: they are discarded (R300). -/
def execUncommittedLastStart (d : Fin 2) (s : State) : Host.Outcome State Fault Refusal :=
  .next (
    if clocked s && adUp d s then
      (valvesOf d).foldl (fun s v =>
        (s.ejt.chans[v].queue.filter fun x => x.times.isNone && decide ((shotTimes v x s).2 < (s.time : Int))).foldl
          (fun s x => dropShot v (F.ejtDropWindowDropWindow d) x s) s) s
    else s)

/-- The profile a shot takes in the valve's coil band (R300). -/
def variantOf (v : Valve) (p : Nat) (s : State) : Nat :=
  let d := valveDie v
  let w := s.word (F.ejtProfileW2 d p)
  let b := getF (F.ejtVStateCoilBand d (valveChan v)) s
  if b = 0 && profileLoaded d (bits w 7 4) s then bits w 7 4
  else if b = 2 && profileLoaded d (bits w 3 0) s then bits w 3 0
  else p

/-- Is there a peak place for the valve (R304)? -/
def peakPlace (v : Valve) (s : State) : Bool :=
  decide (((groupValves (groupOfValve v)).countP fun w => peaking w s) < 2) &&
    decide (((valvesOf (valveDie v)).countP fun w => peaking w s) < 16)

/-- The committed shot that waits to energise at the valve now, with its times. -/
def waitingShot (v : Valve) (s : State) : Option (Shot × Int × Int × Nat) :=
  if energised v s then none
  else (nextShot s.ejt.chans[v].queue).filter fun x => decide (readyAt v x.2.1 x.2.2.2 s ≤ (s.time : Int))

/-- Is the valve first among those that wait for a place: lowest e, then lowest number (R304)? -/
def firstWaiting (v : Valve) (e : Int) (s : State) : Bool :=
  (valvesOf (valveDie v)).all fun w =>
    match waitingShot w s with
    | some (_, ew, _, _) => w = v || !peakPlace w s || decide (e < ew) || (e = ew && decide (v < w))
    | none => true

/-- One cycle of a valve: every 1,024 cycles a counter cell is programmed (R308). -/
def countCycle (v : Valve) (s : State) : State :=
  let c := s.ejt.chans[v].cells + 1
  let s := if c = 1024 then countUp (0x400 + v.val) s else s
  let s := modChan v (fun x => { x with cells := c % 1024 }) s
  bump (F.ejtVCyclesCycles (valveDie v) (valveChan v)) s

/-- Energise a channel with a shot (R295). -/
def energise (v : Valve) (x : Shot) (s : State) : State :=
  let d := valveDie v
  let p := variantOf v x.prof s
  let w := profileWords d p s
  let maxOn := bits (nth 0 w 1) 14 7 * 100
  let r : Run :=
    { w := w, at_ := s.time, stop := s.time + 1000 * min x.hold maxOn, byMax := decide (maxOn < x.hold), inPeak := true,
      on := true, chopped := false, search := true, holdAt := 0 }
  let s := modChan v (fun c => { c with queue := eraseShot x c.queue, run := some r, quench := false }) s
  let s := setF (F.ejtVStateLastProfile d (valveChan v)) p s
  showDie d (showChan v (countCycle v s))

/-! ### The dip (R301, R302) -/

/-- AGEING follows the learned lag (R302). -/
def ageingCheck (v : Valve) (s : State) : State :=
  let d := valveDie v
  let k := valveChan v
  let comm := 16 * getF (F.ejtVDipComm d k) s
  let diff := ((s.ejt.chans[v].lag.getD 0) - (comm : Int)).natAbs
  if comm = 0 then setF (F.ejtVStateAgeing d k) 0 s
  else if 30 * comm < 100 * diff then
    if flag (F.ejtVStateAgeing d k) s then s else raise 0x3007 4 v 0 (setF (F.ejtVStateAgeing d k) 1 s)
  else if 100 * diff ≤ 25 * comm then setF (F.ejtVStateAgeing d k) 0 s
  else s

/-- The CSENSE channel of a valve (R146). -/
def csnChanOf (v : Valve) (s : State) : CsnChan := s.csn[valveDie v].chans[(⟨valveChan v, by unfold valveChan; omega⟩ : Fin 64)]

/-- ℓ in quarter ns, from the envelopes of consecutive samples that are not WARM, oldest first: the first sample j whose
instant lies in the window, that lies above the one before it, and after which the envelope falls and then does not rise
for three samples more (R301). -/
def dipIn (at_ : Nat) (w2 : Word) : List (Nat × Nat) → Option Nat
  | p :: j :: e1 :: e2 :: e3 :: e4 :: t =>
    if decide (4 * (at_ + 1000 * bits w2 31 20) ≤ j.2) && decide (j.2 ≤ 4 * (at_ + 1000 * bits w2 19 8)) && decide (p.1 < j.1) &&
        decide (e1.1 < j.1) && decide (e2.1 ≤ e1.1) && decide (e3.1 ≤ e2.1) && decide (e4.1 ≤ e3.1) then some (j.2 - 4 * at_)
    else dipIn at_ w2 (j :: e1 :: e2 :: e3 :: e4 :: t)
  | _ => none

/-- The dip that a search under way has found so far (R301). -/
def dipOf (v : Valve) (s : State) : Option Nat :=
  match s.ejt.chans[v].run with
  | some r => if r.search then dipIn r.at_ (nth 0 r.w 2) (csnChanOf v s).envs.reverse else none
  | none => none

/-- The search ends, with the dip (`lag` is ℓ in quarter ns, of which 250 are 1/16 µs) or with NO_MOTION (R301, R302). A valve
with neither a stored lag nor a COMM takes its first ℓ whole (DESIGN CHOICE, assumption 62). -/
def endSearch (v : Valve) (lag : Option Nat) (s : State) : State :=
  let d := valveDie v
  let k := valveChan v
  match s.ejt.chans[v].run with
  | none => s
  | some r =>
    if !r.search then s
    else
      match lag with
      | some lag =>
        let m := match s.ejt.chans[v].lag with
          | some m => m + rneDiv ((lag : Int) - 250 * m) (250 * 2 ^ learnExp d s)
          | none => rneDiv lag 250
        let s := modChan v (fun c => { c with run := some { r with search := false }, lag := some m, noMotion := 0 }) s
        let s := setF (F.ejtVStateLastResult d k) 1 (setF (F.ejtVDipLastDip d k) (rneDiv lag 4000).toNat s)
        ageingCheck v (showChan v s)
      | none =>
        let n := s.ejt.chans[v].noMotion + 1
        let s := modChan v (fun c => { c with run := some { r with search := false }, noMotion := n }) s
        let s := bump (F.ejtVCountNoMotion d k) (setF (F.ejtVStateLastResult d k) 2 s)
        if n = 16 then raise 0x3006 4 v 0 s else s

/-- The search ends with what it has found (R301). -/
def closeSearch (v : Valve) (s : State) : State := endSearch v (dipOf v s) s

/-- The dip is found (R301): the learned lag moves towards it (R302). -/
def execDipDetected (v : Valve) (s : State) : Host.Outcome State Fault Refusal :=
  .next (
    match dipOf v s with
    | some lag => if clocked s then endSearch v (some lag) s else s
    | none => s)

/-- The search ends with the window or with the first chop of the peak phase (R301). -/
def execDipSearchEnd (v : Valve) (s : State) : Host.Outcome State Fault Refusal :=
  .next (
    match s.ejt.chans[v].run with
    | some r =>
      if clocked s && (r.chopped || decide (r.at_ + 1000 * bits (nth 0 r.w 2) 19 8 ≤ s.time)) then closeSearch v s else s
    | none => s)

/-! ### The phases of a shot (R295) -/

/-- Change the shot that runs. -/
def modRun (v : Valve) (f : Run → Run) (s : State) : State := modChan v (fun c => { c with run := c.run.map f }) s

/-- Peak ends and hold begins, with the current freewheeling down (R295); the dip search ends (R301). -/
def endPeak (v : Valve) (s : State) : State :=
  showDie (valveDie v) (modRun v (fun r => { r with inPeak := false, on := false, holdAt := s.time }) (closeSearch v s))

/-- The target of a shot's peak or its HOLD_I, at which the channel switches off, in 7.8125 µA (R295). -/
def chopTop (r : Run) : Int := if r.inPeak then 1000 * bits (nth 0 r.w 0) 23 15 else 128 * bits (nth 0 r.w 1) 31 23

/-- The comparator sees the channel current `x` on a MOD cycle, in 7.8125 µA: the channel switches off at its upper level and on
again at its lower one, and reaching the target ends a peak under PEAK_MODE = 1 (R291, R295). -/
def chop (v : Valve) (x : Int) (s : State) : State :=
  match s.ejt.chans[v].run with
  | none => s
  | some r =>
    if decide (chopTop r ≤ x) then
      if !r.inPeak then modRun v (fun r => { r with on := false }) s
      else if bit (nth 0 r.w 0) 14 then endPeak v s
      else if r.on then modRun v (fun r => { r with on := false, chopped := true }) (closeSearch v s)
      else s
    else if decide (x ≤ chopTop r - 128 * bits (nth 0 r.w 1) 22 16) then modRun v (fun r => { r with on := true }) s
    else s

/-- Peak ends (R295): under PEAK_MODE = 1 where the comparator sees a current `x` that reaches the target, in 7.8125 µA, else by
PEAK_TIME. -/
def execPeakEnd (v : Valve) (x : Option Int) (s : State) : Host.Outcome State Fault Refusal :=
  .next (
    match s.ejt.chans[v].run with
    | some r =>
      let w := nth 0 r.w 0
      let due := match x with
        | some x => bit w 14 && decide (chopTop r ≤ x)
        | none => decide (r.at_ + 1000 * bits w 13 3 ≤ s.time)
      if clocked s && r.inPeak && due then endPeak v s else s
    | none => s)

/-! ### The coil model (R303) -/

/-- The temperature of an actuator die for the coil model, in °C (R303): its higher sensor. -/
def tAd (d : Fin 2) (s : State) : Rat :=
  let t (i : Nat) : Int := dec 16 (getF (F.thmSensorTemp (20 + 2 * d.val + i)) s)
  (max (t 0) (t 1) : Rat) / 100

/-- θ of a channel: T_AD from power-on until its first update (R303). -/
def thetaOf (v : Valve) (s : State) : Rat := s.ejt.chans[v].theta.getD (tAd (valveDie v) s)

/-- Show θ. -/
def showTemp (v : Valve) (s : State) : State :=
  setF (F.ejtVCoilTemp (valveDie v) (valveChan v)) (enc 16 (rndRat (thetaOf v s * 100))) s

/-- θ selects the coil band (R303). -/
def selectCoil (v : Valve) (s : State) : State :=
  let d := valveDie v
  let k := valveChan v
  let th := thetaOf v s
  let w := s.word (F.ejtDieCfg1 d)
  let cold : Rat := dec 8 (bits w 31 24)
  let hot : Rat := (bits w 23 16 : Nat)
  let b := getF (F.ejtVStateCoilBand d k) s
  let b := if s.ejt.chans[v].r25 = 0 then 1
    else if th < cold then 0
    else if hot < th then 2
    else if b = 0 && decide (th < cold + 3) then 0
    else if b = 2 && decide (hot - 3 < th) then 2
    else 1
  setF (F.ejtVStateCoilBand d k) b s

/-- A current code in amperes (R142). -/
def ampere (x : Int) : Rat := (x : Rat) * 78125 / 1000000000

/-- The mean of a list of rationals; 0 of none. -/
def meanRat (xs : List Rat) : Rat := if xs.isEmpty then 0 else xs.foldl (· + ·) 0 / (xs.length : Rat)

/-- At the end of a hold of at least 1 ms, VIN in the Normal zone, the mean current and the duty of its last 1 ms, or 500
samples, wait for a conversion of VIN (R303, R341). -/
def coilAwait (v : Valve) (s : State) : State :=
  let c := s.ejt.chans[v]
  let xs := (csnChanOf v s).samples
  let ok := c.r25 ≠ 0 && getF F.pwrStateVinZone s = 2 && c.run.any fun r => !r.inPeak && decide (r.holdAt + 1000000 ≤ s.time)
  let i := meanRat (xs.map fun x => ampere x.1)
  let duty := meanRat (xs.map fun x => (b2n x.2 : Nat))
  modChan v (fun c => { c with held := if ok && i ≠ 0 then some (i, duty) else none }) s

/-- The measured form of θ, once VIN in volts has been converted (R303). -/
def coilMeasure (v : Valve) (vin : Rat) (s : State) : State :=
  match s.ejt.chans[v].held with
  | none => s
  | some (i, duty) =>
    let r25 : Rat := (s.ejt.chans[v].r25 : Rat) / 100
    let s := modChan v (fun c => { c with held := none }) s
    if r25 = 0 then s
    else
      let rm := vin * duty / i
      let s := setF (F.ejtVCoilRMeas (valveDie v) (valveChan v)) (clampI 0 65535 (rndRat (rm * 100))).toNat s
      showTemp v (modChan v (fun c => { c with theta := some (25 + (rm / r25 - 1) * 100000 / 393) }) s)

/-- θ of a valve 1 ms on, with R25 and the band limits that are accepted (R294, R303). -/
def coilStep (d : Fin 2) (v : Valve) (s : State) : State :=
  let s := modChan v (fun c => { c with r25 := c.r25Next }) s
  let c := s.ejt.chans[v]
  let s :=
    if c.r25 = 0 then s
    else
      let w := s.word (F.ejtDieCfg1 d)
      let th := thetaOf v s
      let r : Rat := (c.r25 : Rat) / 100 * (1 + (th - 25) * 393 / 100000)
      let ms := meanRat ((csnChanOf v s).samples.map fun x => ampere x.1 * ampere x.1)
      let th := th + ((tAd d s + ms * r * (bits w 15 8 : Nat)) - th) / (1000 * (bits w 7 0 : Nat))
      modChan v (fun c => { c with theta := some th }) s
  selectCoil v (showTemp v s)

/-- Every 1 ms the coil temperature estimates update (R303). -/
def execCoilModelUpdate (d : Fin 2) (s : State) : Host.Outcome State Fault Refusal :=
  .next (if clocked s && adUp d s then (valvesOf d).foldl (fun s v => coilStep d v s) s else s)

/-! ### The end of a shot (R295, R296, R305, R306) -/

/-- A valve is disabled by a fault: its queue is discarded (R306). -/
def valveFault (v : Valve) (code : Nat) (s : State) : State :=
  let d := valveDie v
  let k := valveChan v
  let s := setF (F.ejtVStateFault d k) code (setF (F.ejtVStateEnabled d k) 0 s)
  flushValve v (raise 0x3004 4 v code (setF (F.ejtFaultValve d) 1 s))

/-- The clamp energy of a sum of current codes, one each 2 µs, at 85 V, in 10 µJ (R305): 1.328125 · 10^-3 for each code. -/
def clampEnergy (sum : Int) : Rat := (sum : Rat) * 1328125 / 1000000000

/-- An own-clamp quench is over; the third in a row above 5 mJ disables the valve (R305). -/
def clampCheck (v : Valve) (s : State) : State :=
  let d := valveDie v
  let k := valveChan v
  match s.ejt.chans[v].clamp with
  | none => s
  | some sum =>
    let s := modChan v (fun c => { c with clamp := none }) s
    let s := setF (F.ejtVClampLastEnergy d k) (clampI 0 65535 (rndRat (clampEnergy sum))).toNat s
    if (500 : Rat) < clampEnergy sum then
      let n := s.ejt.chans[v].overRow + 1
      let s := bump (F.ejtVClampClampOver d k) (modChan v (fun c => { c with overRow := n }) s)
      if n = 3 then valveFault v 3 (modChan v (fun c => { c with overRow := 0 }) s) else s
    else modChan v (fun c => { c with overRow := 0 }) s

/-- The clamp takes a sample of the quench current, at its instant in quarter ns, where that is not before the switch opened: the
quench is over with the first that is not above 0 (R305; DESIGN CHOICE, assumption 55). -/
def clampSample (v : Valve) (at_ : Nat) (x : Int) (s : State) : State :=
  match s.ejt.chans[v].clamp with
  | none => s
  | some sum =>
    if decide (at_ < 4 * (s.ejt.chans[v].stopped.getD 0)) then s
    else if x ≤ 0 then clampCheck v s
    else modChan v (fun c => { c with clamp := some (sum + x) }) s

/-- The shot of a channel ends: `quench` says VHSg stays on for its own quench. -/
def endRun (v : Valve) (quench : Bool) (s : State) : State :=
  let s := coilAwait v (closeSearch v s)
  let s := modChan v (fun c => { c with run := none, stopped := some s.time, quench := quench }) s
  showDie (valveDie v) (showChan v s)

/-- The channel opens and quenches (R296): through its own clamp while another member of its group is energised or, as the
last member, under QUENCH = 1, whose energy the scheduler integrates (R305). -/
def endShot (v : Valve) (s : State) : State :=
  match s.ejt.chans[v].run with
  | none => s
  | some r =>
    let others := (groupValves (groupOfValve v)).any fun w => w ≠ v && energised w s
    let own := others || bit (nth 0 r.w 1) 15
    let s := endRun v (!others && own) s
    if own then modChan v (fun c => { c with clamp := some 0 }) s else s

/-- A shot ends by HOLD or MAX_ON and quenches (R295, R296). -/
def execShotEnd (v : Valve) (s : State) : Host.Outcome State Fault Refusal :=
  .next (
    match s.ejt.chans[v].run with
    | some r =>
      if clocked s && decide (r.stop ≤ s.time) then
        let d := valveDie v
        let s := if r.byMax then
            raiseLim 0x3005 4 v 0 (setF (F.ejtFaultMaxon d) 1 (bump (F.ejtVCountMaxon d (valveChan v)) s)) else s
        settleValve v 9 (endShot v s)
      else s
    | none => s)

/-- The current `x` of a last member, in 7.8125 µA, falls below 20 mA under QUENCH = 1, and VHSg opens (R296). -/
def execQuenchEnd (v : Valve) (x : Int) (s : State) : Host.Outcome State Fault Refusal :=
  .next (
    if clocked s && s.ejt.chans[v].quench && decide (x < 2560) then
      showDie (valveDie v) (modChan v (fun c => { c with quench := false }) s)
    else s)

/-- The channel current `x`, in 7.8125 µA, 200 µs after e′: below 50 mA the coil is open (R306). -/
def execValveOpenFault (v : Valve) (x : Int) (s : State) : Host.Outcome State Fault Refusal :=
  .next (
    match s.ejt.chans[v].run with
    | some r =>
      if clocked s && decide (r.at_ + 200000 ≤ s.time) && decide (x < 6400) then valveFault v 1 (endShot v s) else s
    | none => s)

/-- A channel current `x`, in 7.8125 µA, has lasted 1 µs: at 2.4 A or more it is a short (R306). -/
def execValveShortFault (v : Valve) (x : Int) (s : State) : Host.Outcome State Fault Refusal :=
  .next (if clocked s && energised v s && decide (307200 ≤ x) then valveFault v 2 (endShot v s) else s)

/-! ### The start of a shot (R300, R304) -/

/-- A committed shot's time and peak place come (R300, R304); in the Over zone a starting shot is refused (R307).  A quench of the
valve still under way is over, and may disable it (R305). -/
def execShotEnergise (v : Valve) (s : State) : Host.Outcome State Fault Refusal :=
  .next (
    if clocked s && adUp (valveDie v) s && !inSafe s then
      match waitingShot v s with
      | none => s
      | some (x, e, l, _) =>
        if l < (s.time : Int) || !peakPlace v s || !firstWaiting v e s then s
        else if vinOver s then
          showChan v (modChan v (fun c => { c with queue := eraseShot x c.queue })
            (bump (F.ejtDropSupplyDropSupply (valveDie v)) s))
        else
          let s := clampCheck v s
          if valveEnabled v s then energise v x s else s
    else s)

/-- A shot that waits for a peak place reaches its last start (R304). -/
def execPeakWaitLastStart (v : Valve) (s : State) : Host.Outcome State Fault Refusal :=
  .next (
    if clocked s && adUp (valveDie v) s then
      match waitingShot v s with
      | some (x, _, l, _) =>
        if decide (l < (s.time : Int)) then settleValve v 9 (dropShot v (F.ejtDropPeakDropPeak (valveDie v)) x s) else s
      | none => s
    else s)

/-- A group's high-side fault: VHSg and every member off, all eight valves disabled (R306). -/
def execHighSideFault (g : Fin 16) (s : State) : Host.Outcome State Fault Refusal :=
  .next (
    if clocked s && highSideOn g s then
      let s := (groupValves g).foldl (fun s v => if energised v s then endRun v false s else s) s
      let s := (groupValves g).foldl (fun s v => modChan v (fun c => { c with quench := false, clamp := none }) s) s
      (groupValves g).foldl (fun s v => valveFault v 4 s) (showDie (Fin.ofNat 2 (g.val / 8)) s)
    else s)

/-- Running shots of a die end at once by group high-side quench (R307, Table 2.4). -/
def stopRuns (d : Fin 2) (s : State) : State :=
  let s := (valvesOf d).foldl (fun s v => if energised v s then endRun v false s else s) s
  showDie d ((valvesOf d).foldl (fun s v => modChan v (fun c => { c with quench := false, clamp := none }) s) s)

/-- The queues of a die are emptied (R44, R77, R307). -/
def flushDie (d : Fin 2) (s : State) : State :=
  (valvesOf d).foldl (fun s v => if s.ejt.chans[v].queue.isEmpty then s else flushValve v s) s

/-- Valves off and queues empty on both dies. -/
def valvesOff (s : State) : State := flushDie 1 (flushDie 0 (stopRuns 1 (stopRuns 0 s)))

/-! ### Settings (R293, R294) -/

/-- A record of one of the TYPEs that a command takes at an endpoint of `p`. -/
def typedRecord (u : UnitId) (t : Tag) (p : Nat → Bool) (types : Nat → Bool) (dies : Xfer → List Word → State → List Nat)
    (act : Xfer → List Word → State → State × Nat) (s : State) : State :=
  match findXfer u t true p s with
  | some x => if types (bits (nth 0 (sourceWords x s) 0) 31 28) then recordOut u t p dies act s else s
  | none => s

/-- Is the endpoint EJT0.CTL or EJT1.CTL, and its die. -/
def ejtEp (ep : Nat) : Bool := ep = 0x60 || ep = 0x61
def ejtEpDie (ep : Nat) : Fin 2 := Fin.ofNat 2 (ep - 0x60)

/-- A record refused (R293). -/
def ejtRefuse (d : Fin 2) (ep : Nat) (s : State) : State × Nat :=
  refuseRecord (F.ejtFaultSettingsRefused d) 0x3008 1 (6 + d) ep s

/-- Does the endpoint accept a die record (Table 13.1)? -/
def dieRecordOk (ws : List Word) : Bool :=
  match ws with
  | [a, b] =>
    bits a 31 28 = 0 && inR 10 (bits a 27 18) 1000 && inR 5 (bits a 17 10) 255 && inR 1 (bits a 9 6) 8 && bits a 5 0 = 0 &&
      decide (-40 ≤ dec 8 (bits b 31 24)) && decide (dec 8 (bits b 31 24) ≤ 100) && inR 20 (bits b 23 16) 180 &&
      inR 1 (bits b 15 8) 255 && inR 1 (bits b 7 0) 255
  | _ => false

/-- A die record; a record of a reserved TYPE is refused here (R293). -/
def execEjtCtlDie (u : UnitId) (t : Tag) (s : State) : Host.Outcome State Fault Refusal :=
  .next (typedRecord u t ejtEp (fun k => k = 0 || 3 ≤ k) (fun x _ _ => [6 + (ejtEpDie x.ep).val])
    (fun x ws s =>
      let d := ejtEpDie x.ep
      if !dieRecordOk ws then ejtRefuse d x.ep s
      else (((s.setWord (F.ejtDieCfg0 d) (nth 0 ws 0)).setWord (F.ejtDieCfg1 d) (nth 0 ws 1)), 0)) s)

/-- Does the endpoint accept a profile (R293, Table 13.2)? -/
def profileOk (ws : List Word) : Bool :=
  match ws with
  | [a, b, c] =>
    inR 1 (bits a 23 15) 256 && inR 20 (bits a 13 3) 2000 && bits a 2 0 = 0 && inR 50 (bits b 31 23) 500 &&
      inR 10 (bits b 22 16) 80 && inR 1 (bits b 14 7) 255 && bits b 6 0 = 0 && inR 1 (bits c 19 8) 4095 &&
      decide (bits b 31 23 * 10000 < bits a 23 15 * 78125) && decide (bits c 31 20 < bits c 19 8)
  | _ => false

/-- A profile (R293). -/
def execEjtCtlProfile (u : UnitId) (t : Tag) (s : State) : Host.Outcome State Fault Refusal :=
  .next (typedRecord u t ejtEp (· = 1) (fun x _ _ => [6 + (ejtEpDie x.ep).val])
    (fun x ws s =>
      let d := ejtEpDie x.ep
      let p := bits (nth 0 ws 0) 27 24
      if !profileOk ws then ejtRefuse d x.ep s
      else
        let s := ((s.setWord (F.ejtProfileW0 d p) (nth 0 ws 0)).setWord (F.ejtProfileW1 d p) (nth 0 ws 1)).setWord
          (F.ejtProfileW2 d p) (nth 0 ws 2)
        (setF (F.ejtProfileStateLoaded d p) 1 s, 0)) s)

/-- Is a pair of words a valid valve entry (Table 13.3)? -/
def valveEntryOk (a b : Word) : Bool :=
  inR 0 (bits a 29 16) 10000 && (bits b 31 16 = 0 || inR 100 (bits b 31 16) 20000) && bits b 15 0 = 0 &&
    (!bit a 30 || bits b 31 16 ≠ 0)

/-- Does the endpoint accept valve entries (R293)? -/
def valveEntriesOk (ws : List Word) : Bool :=
  match ws with
  | [] => false
  | h :: es =>
    let n := bits h 21 15
    inR 1 n 64 && bits h 14 0 = 0 && decide (bits h 27 22 + n ≤ 64) && es.length = 2 * n &&
      (List.range n).all fun i => valveEntryOk (nth 0 es (2 * i)) (nth 0 es (2 * i + 1))

/-- One accepted valve entry acts at once (R294). -/
def takeEntry (d : Fin 2) (k : Nat) (a b : Word) (s : State) : State :=
  let v : Valve := Fin.ofNat 128 (64 * d.val + k)
  let comm := bits b 31 16
  let s := setF (F.ejtVDipComm d k) comm s
  let s := modChan v (fun c => { c with
    air := bits a 29 16
    r25Next := bits a 15 0
    lag := if comm ≠ 0 ∧ (bit a 30 ∨ c.lag.isNone) then some (16 * (comm : Int)) else c.lag }) s
  let s := if bit a 31 then setF (F.ejtVStateEnabled d k) 1 (setF (F.ejtVStateFault d k) 0 s)
    else flushValve v (setF (F.ejtVStateEnabled d k) 0 s)
  ageingCheck v (showChan v s)

/-- Valve entries (R293, R294). -/
def execEjtCtlValves (u : UnitId) (t : Tag) (s : State) : Host.Outcome State Fault Refusal :=
  .next (typedRecord u t ejtEp (· = 2) (fun x _ _ => [6 + (ejtEpDie x.ep).val])
    (fun x ws s =>
      let d := ejtEpDie x.ep
      if !valveEntriesOk ws then ejtRefuse d x.ep s
      else
        let h := nth 0 ws 0
        ((List.range (bits h 21 15)).foldl (fun s i =>
          takeEntry d (bits h 27 22 + i) (nth 0 ws (1 + 2 * i)) (nth 0 ws (2 + 2 * i)) s) s, 0)) s)

/-! ### The scheduler's part in a CSENSE block (R186, R295, R301, R305) -/

/-- Is the valve channel idle (R186)? -/
def valveIdle (v : Valve) (s : State) : Bool :=
  !energised v s && !highSideOn (groupOfValve v) s &&
    (match s.ejt.chans[v].stopped with
      | some t => decide (t + 2000000 ≤ s.time)
      | none => true) &&
    s.ejt.chans[v].queue.all fun x =>
      decide ((s.time : Int) + 1200000 < ((x.times.map (·.1)).getD (shotTimes v x s).1))

/-- The instant of channel `k`'s sample in quarter ns, where channel 0's lies at `at_` ns (R133). -/
def csnInstant (at_ : Nat) (k : Fin 64) : Nat := 4 * at_ + 125 * k.val

/-- The envelope of the newest sample joins the search (R301): all the samples that its window spans while one runs, else the
last one. -/
def envSample (d : Fin 2) (k : Fin 64) (at_ : Nat) (s : State) : State :=
  let v : Valve := Fin.ofNat 128 (64 * d.val + k.val)
  let keep := if s.ejt.chans[v].run.any (·.search) then 2060 else 1
  let x := (getF (F.csnChEnvEnv d k) s, csnInstant at_ k)
  modCsn d (fun g => { g with chans := vmod g.chans k fun c => { c with envs := (x :: c.envs).take keep } }) s

/-- A CSN run takes the sample of an idle channel, 256 in a row (Table 8.4, R186). -/
def csnTrimSample (d : Fin 2) (k : Fin 64) (x : Int) (s : State) : State :=
  let idle := valveIdle (Fin.ofNat 128 (64 * d.val + k.val)) s
  { s with cal := { s.cal with runs := s.cal.runs.map fun r =>
      match r.phase with
      | .repeating _ =>
        if r.item ≠ 8 + d.val then r
        else { r with chans := r.chans.zipIdx.map fun c =>
            if c.2 ≠ k.val || c.1.1 = 256 then c.1 else if idle then (c.1.1 + 1, c.1.2 + x) else (0, 0) }
      | _ => r } }

/-- What the scheduler of a die makes of channel `k`'s newest sample. -/
def schedSample (d : Fin 2) (warm : Bool) (at_ : Nat) (k : Fin 64) (s : State) : State :=
  let v : Valve := Fin.ofNat 128 (64 * d.val + k.val)
  let x := (((s.csn[d].chans[k]).samples.map (·.1)).head?).getD 0
  let s := csnTrimSample d k x (clampSample v (csnInstant at_ k) x s)
  if warm then s else envSample d k at_ s

/-- A block of 64 samples is delivered to the scheduler and the endpoint (R142–R144): `x` holds the 64 modulator bits of each
channel, bit 0 first in time, and `age` the ns since channel 0's sample instant.  `cmp` holds the currents that the channels'
comparators see on the MOD cycles up to the delivery, in order, each with its channel and in 7.8125 µA (R291, R295); they act at
the delivery, and a cycle that is not listed changes nothing (DESIGN CHOICE, assumption 54). -/
def execCsnBlock (d : Fin 2) (age : Nat) (x : List (BitVec 64)) (cmp : List (Fin 64 × Int)) (s : State) :
    Host.Outcome State Fault Refusal :=
  .next (
    if clocked s && adUp d s then
      let age := min age 5968
      let at_ := timeAgo age s
      let (s, warm) := csnChain d age x s
      let s := (List.finRange 64).foldl (fun s k => schedSample d warm at_ k s) s
      cmp.foldl (fun s c => chop (Fin.ofNat 128 (64 * d.val + c.1.val)) c.2 s) s
    else s)

end Sys2Proof.Machine
end

