-- ==== Sys2Proof/Machine/Models.lean ====
section
/-!
DEFINITION. Loading the pixel models and trims from the record store (R79, R81, R86, R154, R368).
-/

namespace Sys2Proof.Machine

/-- A 16-bit little-endian number of a record. -/
def u16At (b : List Byte) (i : Nat) : Nat := leNat ((b.drop i).take 2)

/-- The factory entry of a site (Table 17.2, R368); a row whose record is absent or in conflict has none, unless VENDOR holds
the factory entries of assumption 3. -/
def factoryEntry (d : Fin 2) (row col : Nat) (s : State) : Option Entry :=
  match resolve 0 (400 * d.val + 8 * row + col / 256) s.nvs with
  | .found c => some (decodeEntry (c.data.drop (10 * (col % 256))))
  | .absent => if s.nvs.factory[d] then some Entry.dflt else none
  | .conflict _ => none

/-- The quarter-row record of a site of rows 0–47 (R368). -/
def quarterOf (d : Fin 2) (row col : Nat) (s : State) : Option (List Byte) :=
  if row < 48 then record 2 (192 * d.val + 4 * row + col / 512) s else none

/-- The master entry and the master D of a site (R368). -/
def masterEntry (d : Fin 2) (row col : Nat) (s : State) : Option Entry :=
  (factoryEntry d row col s).map fun e =>
    match quarterOf d row col s with
    | some b => { e with g := u16At b (2 * (col % 512)), tau := min 220 (nth 0 b (2048 + col % 512)).toNat }
    | none => e

def masterDrift (d : Fin 2) (row col : Nat) (s : State) : Int :=
  match quarterOf d row col s with
  | some b => dec 16 (u16At b (1024 + 2 * (col % 512)))
  | none => 0

/-- Has the die a model to load (R81)? -/
def hasModel (d : Fin 2) (s : State) : Bool :=
  (List.range 50).all fun row => (List.range 8).all fun ch => (factoryEntry d row (256 * ch) s).isSome

/-- Load the model and the drift of the columns of focal die `d` that `mine` names; without a factory record the columns run on
the entry of R81. -/
def loadModel (d : Fin 2) (mine : Nat → Bool) (s : State) : State :=
  let ok := hasModel d s
  let keep {α : Type} (l : List (Nat × α)) : List (Nat × α) := l.filter fun e => e.1 / 102400 ≠ d.val || !mine (e.1 % 2048)
  let cols := (List.range 2048).filter mine
  let sites := if ok then (List.range 50).flatMap fun row => cols.map fun c => (row, c) else []
  let es := sites.filterMap fun x =>
    match masterEntry d x.1 x.2 s with
    | some e => if e = Entry.dflt then none else some (siteKey d x.1 x.2, e)
    | none => none
  let ds := sites.filterMap fun x =>
    let v := masterDrift d x.1 x.2 s
    if v = 0 then none else some (siteKey d x.1 x.2, v)
  let s := { s with corr := { s.corr with
    model := keep s.corr.model ++ es
    drift := keep s.corr.drift ++ ds
    badEntries := s.corr.badEntries.filter fun k => k.1 / 102400 ≠ d.val || !mine (k.1 % 2048) } }
  let s := modCorr d (fun e => { e with noModel := !ok }) s
  countBad (if ok then s else raise 0x0212 1 (4 + d) 0 s)

/-- A failed entry is reloaded from its master copy (R154); S1 takes up a changed TAU at the next line-slot boundary (R125,
R151). -/
def execModelParityReload (d : Fin 2) (row : Fin 50) (col : Fin 2048) (s : State) : Host.Outcome State Fault Refusal :=
  .next (
    let k := siteKey d row col
    if !live s || !diePresent s.opt (4 + d) || !(s.corr.badEntries.any fun x => x.1 = k) then s
    else
      let e := if s.corr.dies[d].noModel then Entry.dflt else (masterEntry d row col s).getD Entry.dflt
      countBad { s with corr := { s.corr with
        model := assocSet k e s.corr.model
        tauWas := if (assoc s.corr.tauWas k).isSome then s.corr.tauWas else (k, (entryAt k s).tau) :: s.corr.tauWas
        badEntries := s.corr.badEntries.filter fun x => x.1 ≠ k } })

/-- A signed byte of a record. -/
def i8At (b : List Byte) (i : Nat) : Int := (nth 0 b i).toInt

/-- The trims and the shutter reference of a focal die (Table 17.2; assumption 30): the accepted ones, else the factory's. -/
def loadFocalTrims (d : Fin 2) (s : State) : State :=
  let fact := record 0 (0x524 + d.val) s
  let pairs (b : List Byte) : List (Int × Int) := (List.range 1032).map fun i => (i8At b (2 * i), i8At b (2 * i + 1))
  let half (h : Nat) : List (Int × Int) :=
    match record 2 (0x200 + 2 * d.val + h) s, fact with
    | some b, _ => pairs b
    | none, some f => pairs (f.drop (2064 * h))
    | none, none => List.replicate 1032 (0, 0)
  let bias := match record 2 (0x210 + d.val) s, fact with
    | some b, _ => i8At b 0
    | none, some f => i8At f 4128
    | none, none => 0
  let sref := (record 2 (0x228 + d.val) s).map fun b =>
    ((dec 32 (leNat (b.take 4)) : Rat) / 256, leNat ((b.drop 4).take 8), false)
  modCal (fun c => { c with
    conv := c.conv.set d (half 0 ++ half 1)
    convNext := c.convNext.set d none
    bias := c.bias.set d bias
    biasNext := c.biasNext.set d none
    sref := c.sref.set d sref }) s

/-- The CSN trims and the learned lags of an actuator die (Table 17.2). -/
def loadActuatorTrims (d : Fin 2) (s : State) : State :=
  let csn := match record 2 (0x218 + d.val) s, record 0 (0x526 + d.val) s with
    | some b, _ => (List.range 64).map fun i => i8At b i
    | none, some f => (List.range 64).map fun i => i8At f i
    | none, none => List.replicate 64 0
  let s := modCal (fun c => { c with csn := c.csn.set d csn, csnNext := c.csnNext.set d none }) s
  match record 2 0x230 s with
  | none => s
  | some b =>
    (List.range 64).foldl (fun s i =>
      let v : Valve := Fin.ofNat 128 (64 * d.val + i)
      let x := u16At b (2 * v.val)
      showChan v (if x = 0xFFFF then s else modChan v (fun c => { c with lag := some (16 * (x : Int)) }) s)) s

/-- The converter's trims (Table 17.2). -/
def loadSadcTrims (s : State) : State :=
  match record 2 0x220 s with
  | some b => setF F.sadcTrimOffset (nth 0 b 0).toNat (setF F.sadcTrimGain (nth 0 b 1).toNat s)
  | none => s

/-- Everything Table 4.2 loads at 5.0 ms. -/
def loadAll (s : State) : State :=
  let s := (List.finRange 2).foldl (fun s (d : Fin 2) =>
    let s := if diePresent s.opt (4 + d) then loadFocalTrims d (loadModel d (fun _ => true) s) else s
    if diePresent s.opt (6 + d) then loadActuatorTrims d s else s) s
  loadSadcTrims s

end Sys2Proof.Machine
end

