-- ==== Sys2Proof/Machine/Lamps.lean ====
section
/-!
DEFINITION. The lamp strings: LAMP and LATCH (R283, R284, R320–R322), settings (R313, R314), PWM and matrix (R315–R319),
the colour loop and derating (R323, R324), faults and tests (R325–R328), and lit hours (R330).
-/

namespace Sys2Proof.Machine

/-! ### Strings -/

/-- The die and local index of a string (Table 0.2). -/
def strDie (n : Strng) : Fin 2 := Fin.ofNat 2 (n.val / 4)
def strIdx (n : Strng) : Fin 4 := Fin.ofNat 4 (n.val % 4)

/-- The strings of a die. -/
def strsOf (d : Fin 2) : List Strng := (List.finRange 8).filter fun n => strDie n = d

/-- Change one die's lamps. -/
def modLum (d : Fin 2) (f : LumDie → LumDie) (s : State) : State := { s with lum := vmod s.lum d f }

/-- Change one string. -/
def modStr (n : Strng) (f : Str → Str) (s : State) : State :=
  modLum (strDie n) (fun e => { e with strs := vmod e.strs (strIdx n) f }) s

/-- Change the tests of one string. -/
def modTest (n : Strng) (f : StrTest → StrTest) (s : State) : State :=
  modLum (strDie n) (fun e => { e with tests := vmod e.tests (strIdx n) f }) s

/-- A word of the string record in force (Table 14.2). -/
def strCfg (n : Strng) (i : Nat) (s : State) : Word :=
  let d := strDie n
  let j := strIdx n
  s.word (if i = 0 then F.lumSCfg0 d j else if i = 1 then F.lumSCfg1 d j else if i = 2 then F.lumSCfg2 d j
    else F.lumSCfg3 d j)

/-- The state of lamp `k` (Table 14.4, LAMP_k). -/
def lampFld (n : Strng) (k : Nat) : Fld := ⟨F.lumSLampState (strDie n) (strIdx n), 3 * k + 2, 3 * k⟩

/-- D_k (Table 14.4). -/
def dutyFld (n : Strng) (k : Nat) : Fld :=
  ⟨F.lumSLampDuty0 (strDie n) (strIdx n) + 4 * (k / 2), 16 * (k % 2) + 15, 16 * (k % 2)⟩

/-- Is a lamp fitted at position `k` (USED)? -/
def lampUsed (n : Strng) (k : Nat) (s : State) : Bool := bit (strCfg n 0 s) (2 + k)

/-- Is the string's regulator switching? -/
def strRunning (n : Strng) (s : State) : Bool := flag (F.lumSStateRunning (strDie n) (strIdx n)) s

/-- The fault of the string (Table 14.4). -/
def strFault (n : Strng) (s : State) : Nat := getF (F.lumSStateFault (strDie n) (strIdx n)) s

/-- Is the die in matrix mode? -/
def inMatrix (d : Fin 2) (s : State) : Bool := flag (F.lumDieStateMatrix d) s

/-- BLANK and LIT of the die record in force, in µs (Table 14.1). -/
def blankUs (d : Fin 2) (s : State) : Nat := bits (s.word (F.lumDieCfg1 d)) 31 26
def litUs (d : Fin 2) (s : State) : Nat := bits (s.word (F.lumDieCfg1 d)) 25 16

/-- Matrix lines K, and the mask of line `k`. -/
def matrixLines (d : Fin 2) (s : State) : Nat := getF (F.lumDieStateLines d) s + 1
def lineMask (d : Fin 2) (k : Nat) (s : State) : Nat := bits (s.word (F.lumDieCfg1 d)) 15 0 / 16 ^ k % 16

/-- Is the string named in any line's mask? -/
def inMask (d : Fin 2) (j : Nat) (s : State) : Bool :=
  (List.range (matrixLines d s)).any fun k => (lineMask d k s).testBit j

/-- May strings light: not in PARK, not in the safe state (R322, R329)? -/
def lampsMay (s : State) : Bool := s.mode ≠ .park && !inSafe s

/-- A stopped interval of a string begins (R327). -/
def beginStop (n : Strng) (s : State) : State :=
  modTest n (fun e => { e with tried := false }) (modStr n (fun e => { e with stopAt := some s.periph }) s)

/-- The regulator stops: its current decays with all bypass switches closed (R312). -/
def stopString (n : Strng) (s : State) : State :=
  let d := strDie n
  let j := strIdx n
  let was := strRunning n s
  let s := setF (F.lumSStateHeadroom d j) 0 (setF (F.lumSStateRunning d j) 0 s)
  if was then beginStop n (modStr n (fun e => { e with decaying := true, sw := false }) s) else s

/-- The current of a stopped string falls below 10 mA and the bypass switches open (R312). -/
def execRegulatorDecayEnd (n : Strng) (s : State) : Host.Outcome State Fault Refusal :=
  .next (
    if clocked s && !strRunning n s && (s.lum[strDie n].strs[strIdx n]).decaying then
      modStr n (fun e => { e with decaying := false }) s
    else s)

/-- LUM_LAMP_FAULT and LUM_STRING_FAULT: at most once per second per string (R325). -/
def raiseStr (code : Nat) (n : Strng) (lamp : Nat) (s : State) : State :=
  let same (c k i : Nat) : Bool := c = code && k = 5 && i / 16 = n.val
  if s.ev.queue.any (fun r => same r.code r.kind r.index) ||
      s.ev.marks.any (fun m => same m.code m.kind m.index && decide (s.periph < m.at_ + secondCycles)) then
    bump F.intEvtSuppressedSuppressed s
  else raise code 5 (16 * n.val + lamp) 0 s

/-- A string fault: the regulator stops (R325). -/
def stringFault (n : Strng) (code : Nat) (s : State) : State :=
  let s := setF (F.lumSStateFault (strDie n) (strIdx n)) code (setF (F.lumFaultString (strDie n)) 1 s)
  raiseStr 0x3106 n 15 (if code = 4 then s else stopString n s)

/-- A lamp fault (R325): an open lamp's bypass is held closed. -/
def lampFault (n : Strng) (k : Fin 10) (code : Nat) (s : State) : State :=
  let s := if code = 1 then modStr n (fun e => { e with held := k.val :: e.held.filter (· ≠ k.val) }) s else s
  raiseStr 0x3105 n k (setF (lampFld n k) code s)

/-! ### LAMP and LATCH -/

/-- The string a LAMP names, and its item (Table 12.13). -/
def lampString (w : Word) : Strng := ⟨bits w 6 4, by unfold bits; omega⟩

/-- Are the operand words of a LAMP in range on the option (R284)? -/
def lampOk (a b : Word) (s : State) : Bool :=
  bits a 31 8 = 0 && decide (bits a 7 4 < if s.opt = .zt8 then 8 else 4) && inR 0 (bits a 3 0) 11 &&
    (if bits a 3 0 = 11 then inR 0 b.toNat 1500 else inR 0 b.toNat 65535)

/-- LAMP goes to its die behind the commands on their way there, and stages its value (R250, R284, R320). -/
def execLamp (u : UnitId) (a : Reg) (b : Src) (s : State) : Host.Outcome State Fault Refusal :=
  .next (issue u .event (srcImm b) (.s a :: srcRegs b) false
    (fun s =>
      let w := getS u a s
      let n := lampString w
      let d := strDie n
      if !lampOk w (srcVal u b s) s then takeExc u 7 (srcImm b) s
      else if !reach (dieOf u) (6 + d) s then advance u (srcImm b) (eventLost u s)
      else
        let item := 16 * (strIdx n).val + bits w 3 0
        advance u (srcImm b) (drainMsgs d (sendMsg d (.lamp u item (srcVal u b s).toNat) s))) s)

/-- Does L2 name the die (Table 12.12)? -/
def latchNames (b : List Word) (d : Fin 2) : Bool := bit (nth 0 b 2) (28 + d)
def latchGroup (b : List Word) : Nat := bits (nth 0 b 2) 15 0
def latchTime (b : List Word) : Nat := (pairOf (nth 0 b 0) (nth 0 b 1)).toNat
def latchId (b : List Word) : Nat := bits (nth 0 b 3) 15 0

/-- The checks of LATCH at issue (R283). -/
def latchOk (b : List Word) (s : State) : Bool :=
  (!latchNames b 1 || diePresent s.opt 7) && (latchNames b 0 || latchNames b 1 || latchGroup b ≠ 0)

/-- Show the LATCH waiting. -/
def showLatch (d : Fin 2) (s : State) : State := setF (F.lumDieStateStaged d) (b2n s.lum[d].latch.isSome) s

/-- A die checks a LATCH and stages it (R321). -/
def stageLatch (d : Fin 2) (b : List Word) (s : State) : State :=
  if !complementOk b then
    raise 0x3103 1 (6 + d) 0
      (setF (F.lumFaultComplement d) 1 (bump (F.lumComplementComplement d) (complementFail 1 s)))
  else if s.time + 60000000000 < latchTime b then raise 0x3102 1 (6 + d) 0 (setF (F.lumFaultLatchRefused d) 1 s)
  else
    let s := if latchTime b < s.time then raise 0x3104 1 (6 + d) 0 (bump (F.lumLatchCountLate d) s) else s
    let s := if s.lum[d].latch.isSome then bump (F.lumLatchCountSuperseded d) s else s
    showLatch d (modLum d (fun e => { e with latch := some { time := latchTime b, id := latchId b } }) s)

/-- A LATCH arrives at a die (R321); one whose path has no working link left is lost (R250). -/
def execLatchArrival (d : Fin 2) (s : State) : Host.Outcome State Fault Refusal :=
  .next (
    match s.msgs[d] with
    | .latch u told b :: rest =>
      if arrives d (.latch u told b) s then
        let s := { s with msgs := s.msgs.set d rest }
        drainMsgs d (if lostOnWay d (.latch u told b) s then loseMsg d (.latch u told b) s else stageLatch d b s)
      else s
    | _ => s)

/-- The staged values of a string come into force. -/
def applyString (n : Strng) (s : State) : State :=
  let d := strDie n
  let j := strIdx n
  let v (i : Nat) : Option Nat := assoc s.lum[d].stage (16 * j.val + i)
  let put (f : Fld) (o : Option Nat) (s : State) : State :=
    match o with
    | some x => setF f x s
    | none => s
  let s := (List.range 10).foldl (fun s k => put (dutyFld n k) (v k) s) s
  put (F.lumSSetISet d j) (v 11) (put (F.lumSSetDuty d j) (v 10) s)

/-- The stage of a die comes into force, and stays as it is (R320). -/
def applyStage (d : Fin 2) (s : State) : State :=
  let s := match s.lum[d].record with
    | none => s
    | some (a, b) =>
      let s := (s.setWord (F.lumDieCfg0 d) a).setWord (F.lumDieCfg1 d) b
      setF (F.lumDieStateMatrix d) (bits a 27 27) (setF (F.lumDieStateLines d) (bits a 26 25)
        (setF (F.lumDieStateBits d) (bits a 24 21) (setF (F.lumDieStateLock d) (bits a 20 20) s)))
  (strsOf d).foldl (fun s n => applyString n s) s

/-! ### PWM and matrix (R312, R315–R319) -/

/-- I_eff (R317). -/
def effective (n : Strng) (s : State) : Nat :=
  let d := strDie n
  let j := strIdx n
  let x := getF (F.lumSSetISet d j) s * getF (F.lumSTrimTrim d j) s * getF (F.lumSTrimDerate d j) s
  min 1500 (rneShift 30 x).toNat

/-- c_s of a period of `p` cycles (R315). -/
def stringCycles (n : Strng) (s : State) : Nat :=
  let d := strDie n
  let b := getF (F.lumDieStateBits d) s
  let ds := getF (F.lumSSetDuty d (strIdx n)) s
  if ds = 0xFFFF then 2 ^ (b + 8) else ds / 2 ^ (8 - b)

/-- The lit cycles of lamp `k`: c_k in PWM (R315), or the part of LIT in matrix mode (R318). -/
def litCycles (n : Strng) (k : Nat) (s : State) : Nat :=
  let dk := getF (dutyFld n k) s
  let c := if inMatrix (strDie n) s then litUs (strDie n) s * 100 else stringCycles n s
  if dk = 0xFFFF then c else c * dk / 65536

/-- PERIPH cycles since the start of the line slot: while the pacers are stopped, by a free timer of the last LINE_SLOT in force,
in unbroken phase (R316). -/
def slotPhase (s : State) : Nat :=
  let n := s.periph - s.grid.slotAt
  if pacing 0 s || pacing 1 s then n else n % (25 * getF (F.fpdStateLineSlot 0) s)

/-- PERIPH cycles since the lit interval under way started, if one is: of the PWM period, or of the matrix line behind its
blanking that names the string (R315, R318). -/
def litPhase (n : Strng) (s : State) : Option Nat :=
  let d := strDie n
  if inMatrix d s then
    match s.lum[d].cycle with
    | none => none
    | some c =>
      let t := s.periph - c
      let len := (blankUs d s + litUs d s) * 100
      let k := t / len
      let p := t % len
      if k < matrixLines d s && (lineMask d k s).testBit (strIdx n) && decide (100 * blankUs d s ≤ p) then some (p - 100 * blankUs d s)
      else none
  else
    match s.lum[d].period with
    | none => none
    | some c => if s.periph < c + 2 ^ (getF (F.lumDieStateBits d) s + 8) then some (s.periph - c) else none

/-- The room of a lit interval in PERIPH cycles: the period, or LIT (R326). -/
def litRoom (n : Strng) (s : State) : Nat :=
  if inMatrix (strDie n) s then 100 * litUs (strDie n) s else 2 ^ (getF (F.lumDieStateBits (strDie n)) s + 8)

/-- The PERIPH cycles for which lamp `k` is lit in the interval under way: 4.0 µs where it is stretched (R326). -/
def litFor (n : Strng) (k : Nat) (s : State) : Nat :=
  if (s.lum[strDie n].tests[strIdx n]).stretched.contains k then max (litCycles n k s) (min 400 (litRoom n s)) else litCycles n k s

/-- Is a lamp's bypass held closed: a position without a lamp, or an open lamp (R315, R325)? -/
def bypassHeld (n : Strng) (k : Nat) (s : State) : Bool :=
  !lampUsed n k s || (s.lum[strDie n].strs[strIdx n]).held.contains k

/-- Is lamp `k` lit now: its regulator runs, its bypass switch is open, and its lit interval lasts (R312, R315, R318)? -/
def lampLit (n : Strng) (k : Nat) (s : State) : Bool :=
  strRunning n s && !bypassHeld n k s && (litPhase n s).any fun p => decide (p < litFor n k s)

/-- Is bypass switch `k` of a string closed (R312, R315)? While the regulator runs a lamp that is not lit is dark by its
switch; with all ten closed the string is dark by shunt; a stopped regulator keeps all closed until its current has decayed.
-/
def bypassClosed (n : Strng) (k : Nat) (s : State) : Bool :=
  if strRunning n s then !lampLit n k s else (s.lum[strDie n].strs[strIdx n]).decaying || bypassHeld n k s

/-- The regulator of a string runs where it is enabled without fault, for the current formed at the last start. -/
def runString (n : Strng) (s : State) : State :=
  let d := strDie n
  let j := strIdx n
  let f := strFault n s
  if lampsMay s && flag (F.lumSStateEnabled d j) s && (f = 0 || f = 4) && getF (F.lumSStateIEff d j) s ≠ 0 then
    if strRunning n s then s
    else
      setF (F.lumSStateRunning d j) 1
        (modStr n (fun e => { e with decaying := false, sw := true, startAt := s.periph, stopAt := none }) s)
  else stopString n s

/-- The regulator sees the string current, in mA: LSn_SW opens at I_eff + 10 % and closes at I_eff − 10 %, with a band of at least
20 mA to each side; at 2.4 A the cycle is cut, and the cuts of the last 1 ms count (R312, R325). -/
def regulate (n : Strng) (ma : Nat) (s : State) : State :=
  let i := getF (F.lumSStateIEff (strDie n) (strIdx n)) s
  let w := max i 200
  modStr n (fun e =>
    let old := e.cuts.filter fun c => decide (s.periph < c + 100000)
    if 2400 ≤ ma then { e with sw := false, cuts := if e.sw then s.periph :: old else old }
    else { e with cuts := old, sw := if 10 * i + w ≤ 10 * ma then false else if 10 * ma + w ≤ 10 * i then true else e.sw }) s

/-- A string at the start of a period or cycle: ENABLE = 1 acts, I_eff is formed, and the regulator runs or is stopped for the
period (R315). A string that stays stopped is in the stopped interval it was in; of a long one in PWM each period counts as
one for the neighbour-node test (R327; DESIGN CHOICE, assumption 143). -/
def startString (on : Bool) (n : Strng) (s : State) : State :=
  let d := strDie n
  let j := strIdx n
  let s := if s.lum[d].strs[j].waits then
      setF (F.lumSStateEnabled d j) 1 (modStr n (fun e => { e with waits := false }) s) else s
  let s := modTest n (fun e => { e with stretched := [] }) (setF (F.lumSStateIEff d j) (effective n s) s)
  let s := if on then runString n s else stopString n s
  if strRunning n s then s
  else if (s.lum[d].strs[j]).stopAt.isNone then beginStop n s
  else if inMatrix d s then s else modTest n (fun e => { e with tried := false }) s

/-- A PWM period starts (R315–R317). -/
def pwmStart (d : Fin 2) (s : State) : State :=
  let s := (strsOf d).foldl (fun s n => startString (stringCycles n s ≠ 0) n s) s
  modLum d (fun e => { e with period := some s.periph }) s

/-- Is a PWM period due (R316): one after the other, or with LOCK at every line-slot start and every period after it? -/
def periodDue (d : Fin 2) (s : State) : Bool :=
  let lock := flag (F.lumDieStateLock d) s
  (lock && slotPhase s = 0) ||
    match s.lum[d].period with
    | some c => decide (c + 2 ^ (getF (F.lumDieStateBits d) s + 8) ≤ s.periph)
    | none => !lock

def execPwmPeriodStart (d : Fin 2) (s : State) : Host.Outcome State Fault Refusal :=
  .next (if clocked s && adUp d s && !inMatrix d s && periodDue d s then pwmStart d s else s)

/-- A matrix cycle starts, with the blanking of line 0 (R317, R318). -/
def matrixStart (d : Fin 2) (s : State) : State :=
  let s := (strsOf d).foldl (fun s n => startString ((lineMask d 0 s).testBit (strIdx n)) n s) s
  modLum d (fun e => { e with cycle := some s.periph }) s

/-- OFFSET after the start of row slot 0 a cycle starts, one in each line slot (R318): at that PERIPH cycle and at no other. -/
def execMatrixCycleStart (d : Fin 2) (s : State) : Host.Outcome State Fault Refusal :=
  .next (
    if clocked s && adUp d s && inMatrix d s && s.lum[d].cycle.isNone &&
        decide (10 * bits (s.word (F.lumDieCfg0 d)) 19 4 = slotPhase s) then matrixStart d s
    else s)

/-- The lines of a matrix cycle at this PERIPH cycle: where line `k` starts its blanking its strings start, those named in
consecutive lines running on, and where its lit interval ends the others stop (R318).  A string whose ENABLE = 1 waits for the
next cycle does not start (R314). -/
def matrixTick (d : Fin 2) (s : State) : State :=
  match s.lum[d].cycle with
  | none => s
  | some c =>
    let len := (blankUs d s + litUs d s) * 100
    let k := (s.periph - c) / len
    if (s.periph - c) % len ≠ 0 || k = 0 then s
    else
      let mask (k : Nat) : Nat := if k < matrixLines d s then lineMask d k s else 0
      (strsOf d).foldl (fun s n =>
        let j := (strIdx n).val
        let s := modTest n (fun e => { e with stretched := [] }) s
        if (mask k).testBit j then
          (if (mask (k - 1)).testBit j || s.lum[d].strs[strIdx n].waits then s else runString n s)
        else if (mask (k - 1)).testBit j then stopString n s else s) s

/-- The ns from the start of row slot 0 to the end of a matrix cycle (R319). -/
def cycleEnd (d : Fin 2) (s : State) : Nat :=
  bits (s.word (F.lumDieCfg0 d)) 19 4 * 100 + matrixLines d s * (blankUs d s + litUs d s) * 1000

/-- At a line-slot start the cycle under way is over: cut, where it does not fit the line slot (R319). -/
def matrixCut (d : Fin 2) (s : State) : State :=
  if s.lum[d].cycle.isNone then s
  else
    let cut := decide (getF (F.fpdStateLineSlot 0) s * 250 < cycleEnd d s)
    let s := (strsOf d).foldl (fun s n => stopString n s) (modLum d (fun e => { e with cycle := none }) s)
    if cut then raiseLim 0x310A 1 (6 + d) 0 (bump (F.lumMatrixCutMatrixCut d) s) else s

/-- What a PERIPH cycle brings to the lamps of a die: the lines of a matrix cycle and, while the pacers are stopped, the
line-slot starts of the free timer (R316, R318, R319). -/
def lampTick (d : Fin 2) (s : State) : State :=
  if !adUp d s || !inMatrix d s then s
  else
    let s := if !pacing 0 s && !pacing 1 s && slotPhase s = 0 then matrixCut d s else s
    matrixTick d s

/-- Is this the application point of a LATCH with the given TIME (R320): in matrix mode or with LOCK the start of a line slot,
and else any PERIPH edge, at or after TIME? -/
def latchPoint (d : Fin 2) (t : Nat) (s : State) : Bool :=
  decide (t ≤ s.time) && ((!inMatrix d s && !flag (F.lumDieStateLock d) s) || slotPhase s = 0)

/-- A staged LATCH applies at its point (R320); where PWM then is in force a new period starts there (R316), and a change to
matrix mode ends the one under way. -/
def execLatchApply (d : Fin 2) (s : State) : Host.Outcome State Fault Refusal :=
  .next (
    match s.lum[d].latch with
    | none => s
    | some l =>
      if clocked s && adUp d s && latchPoint d l.time s then
        let pwm := !inMatrix d s
        let s := showLatch d (modLum d (fun e => { e with latch := none }) (applyStage d s))
        let s := setF (F.lumDieStateLastId d) l.id s
        let s := setF (F.lumLatchTimeLoTime d) (s.time % 2 ^ 32) (setF (F.lumLatchTimeHiTime d) (s.time / 2 ^ 32 % 2 ^ 32) s)
        if !inMatrix d s then pwmStart d s
        else if pwm then (strsOf d).foldl (fun s n => stopString n s) (modLum d (fun e => { e with period := none }) s)
        else s
      else s)

/-- The lamps of a die go off (R329). -/
def lampsOff (d : Fin 2) (s : State) : State :=
  (strsOf d).foldl (fun s n => stopString n s) (modLum d (fun e => { e with period := none, cycle := none }) s)

/-! ### Settings (R313, R314) -/

def lumEp (ep : Nat) : Bool := ep = 0x68 || ep = 0x69
def lumEpDie (ep : Nat) : Fin 2 := Fin.ofNat 2 (ep - 0x68)

/-- A record refused (R313). -/
def lumRefuse (d : Fin 2) (ep : Nat) (s : State) : State × Nat :=
  refuseRecord (F.lumFaultSettingsRefused d) 0x3101 1 (6 + d) ep s

/-- Does the endpoint accept a die record (Table 14.1)? -/
def lumDieOk (ws : List Word) : Bool :=
  match ws with
  | [a, b] =>
    let k := bits a 26 25 + 1
    bits a 31 28 = 0 && inR 0 (bits a 24 21) 8 && inR 0 (bits a 19 4) 9999 && bits a 3 0 = 0 &&
      inR 1 (bits b 31 26) 50 && inR 1 (bits b 25 16) 900 &&
      (List.range 4).all fun i => (bits b 15 0 / 16 ^ i % 16 ≠ 0) = (i < k)
  | _ => false

/-- A die record is staged; one of a reserved TYPE is refused here (R313, R314). -/
def execLumDieRecord (u : UnitId) (t : Tag) (s : State) : Host.Outcome State Fault Refusal :=
  .next (typedRecord u t lumEp (· ≠ 1) (fun x _ _ => [6 + (lumEpDie x.ep).val])
    (fun x ws s =>
      let d := lumEpDie x.ep
      if !lumDieOk ws then lumRefuse d x.ep s
      else (modLum d (fun e => { e with record := some (nth 0 ws 0, nth 0 ws 1) }) s, 0)) s)

/-- Does the endpoint accept a string record (Table 14.2)? -/
def lumStringOk (ws : List Word) : Bool :=
  match ws with
  | [a, b, c, e] =>
    (inR 0 (bits a 23 18) 31 || bits a 23 18 = 63) && (inR 0 (bits a 17 12) 31 || bits a 17 12 = 63) && bits a 1 0 = 0 &&
      inR 0 (bits b 31 24) 150 && inR 2000 (bits b 15 3) 4500 && bits b 2 0 = 0 && inR 0 (bits c 31 30) 2 &&
      bits e 15 0 = 0
  | _ => false

/-- Lamp states after a clearing: fitted lamps take `fresh`, the others read not fitted. -/
def clearLamps (n : Strng) (fresh : Nat) (s : State) : State :=
  let s := modTest n (fun e => { e with tested := (List.range 10).map fun k => (k, s.periph), fresh := if fresh = 3 then List.range 10 else [] })
    (modStr n (fun e => { e with held := [] }) s)
  (List.range 10).foldl (fun s k => setF (lampFld n k) (if lampUsed n k s then fresh else 4) s) s

/-- A string record takes effect (R314, R328); ENABLE = 1 waits for the next period or cycle where the string could not run. A
lamp whose state ENABLE = 1 clears is UNVERIFIED until it is tested (assumption 27). -/
def takeString (n : Strng) (ws : List Word) (s : State) : State :=
  let d := strDie n
  let j := strIdx n
  let a := nth 0 ws 0
  let used := bits (strCfg n 0 s) 11 2
  let s := if bits (strCfg n 2 s) 31 30 = 0 then modStr n (fun e => { e with loopAt := s.periph }) s else s
  let s := if bits (strCfg n 0 s) 23 18 = 63 then modStr n (fun e => { e with thermOk := s.periph }) s else s
  let s := (((s.setWord (F.lumSCfg0 d j) a).setWord (F.lumSCfg1 d j) (nth 0 ws 1)).setWord (F.lumSCfg2 d j)
    (nth 0 ws 2)).setWord (F.lumSCfg3 d j) (nth 0 ws 3)
  let s := if bits a 11 2 ≠ used then clearLamps n 0 s else s
  let s := if bits (nth 0 ws 2) 31 30 = 0 then setF (F.lumSStateLoopLimit d j) 0 (setF (F.lumSTrimTrim d j) 32768 s) else s
  let s := if bits a 23 18 = 63 then setF (F.lumSTrimDerate d j) 32768 s else s
  if bit a 25 then
    let runs := flag (F.lumSStateEnabled d j) s && (strFault n s = 0 || strFault n s = 4)
    let s := clearLamps n 3 (setF (F.lumSStateHeadroom d j) 0 (setF (F.lumSStateFault d j) 0 s))
    modStr n (fun e => { e with waits := e.waits || !runs }) s
  else stopString n (setF (F.lumSStateEnabled d j) 0 (modStr n (fun e => { e with waits := false }) s))

/-- A string record (R313, R314). -/
def execLumStringRecord (u : UnitId) (t : Tag) (s : State) : Host.Outcome State Fault Refusal :=
  .next (typedRecord u t lumEp (· = 1) (fun x _ _ => [6 + (lumEpDie x.ep).val])
    (fun x ws s =>
      let d := lumEpDie x.ep
      if !lumStringOk ws then lumRefuse d x.ep s
      else (takeString (Fin.ofNat 8 (4 * d.val + bits (nth 0 ws 0) 27 26)) ws s, 0)) s)

/-! ### Colour loop and derating (R323, R324) -/

/-- The mean of the second that a string's loop works on (R323): of its camera reference, or of its light sensor's
conversions. -/
def loopMean (n : Strng) (s : State) : Option Rat :=
  let e := s.lum[strDie n].strs[strIdx n]
  if bits (strCfg n 2 s) 31 30 = 2 then
    (if e.sens.isEmpty then none else some (meanRat (e.sens.map fun x => (x : Rat))))
  else if e.refNum = 0 then none else some ((e.refSum : Rat) / (e.refNum : Nat))

/-- A camera line that has left the pipeline joins the reference of the strings whose loop names its port and its place `k` in
the line slot, where no pixel of it is padded or dropped and the reference lies inside LINE_LEN (R314, R323). -/
def loopLine (p k : Nat) (len : Nat) (chans : List (List Int)) (s : State) : State :=
  (List.finRange 8).foldl (fun s (n : Strng) =>
    let w := strCfg n 2 s
    let first := bits w 24 11
    let count := bits w 10 0 + 1
    if bits w 31 30 = 1 && bits w 29 29 = p && bits w 26 25 = k && decide (first + count ≤ len) then
      let xs := ((nth [] chans (bits w 28 27)).drop first).take count
      modStr n (fun e => { e with refSum := e.refSum + xs.foldl (· + ·) 0, refNum := e.refNum + xs.length }) s
    else s) s

/-- A sensor's request: its conversion at the middle of the string's lit interval, in matrix mode of its first line (R323). -/
def litMiddle (n : Strng) (s : State) : Bool :=
  let d := strDie n
  let len := (blankUs d s + litUs d s) * 100
  let first : Bool := !inMatrix d s || s.lum[d].cycle.any fun c =>
    (List.range ((s.periph - c) / len)).all fun k => !(lineMask d k s).testBit (strIdx n)
  let c := if inMatrix d s then 100 * litUs d s else stringCycles n s
  strRunning n s && first && litPhase n s = some (c / 2)

/-- Has the interval passed since a request of the string, if one was made? -/
def askedBefore (last : Option Nat) (cycles : Nat) (s : State) : Bool := last.all fun c => decide (c + cycles ≤ s.periph)

/-- Does the string ask for its thermistor now: THERM_AIN, every 100 ms (R324)? -/
def thermDue (n : Strng) (inp : Nat) (s : State) : Bool :=
  let ain := bits (strCfg n 0 s) 23 18
  ain ≠ 63 && inp = ain && askedBefore (s.lum[strDie n].strs[strIdx n]).thermAt 10000000 s

/-- Does the string ask for its light sensor now: SENS_AIN with LOOP_SRC sensor, every 10 ms (R323)? The middle of a lit
interval comes with the period or cycle: the first one that stands 10 ms or more behind the last request is taken (DESIGN
CHOICE, assumption 144). -/
def sensDue (n : Strng) (inp : Nat) (s : State) : Bool :=
  bits (strCfg n 2 s) 31 30 = 2 && inp = bits (strCfg n 0 s) 17 12 &&
    askedBefore (s.lum[strDie n].strs[strIdx n]).sensAt 1000000 s && litMiddle n s

/-- Once per second the trim is updated with the mean of the second, if it gave one (R323).  A mean of 0 leaves the quotient
open: its result is a free value within the limits (assumption 6). -/
def execColourLoopUpdate (n : Strng) (s : State) : Host.Outcome State Fault Refusal :=
  .next (
    let d := strDie n
    let j := strIdx n
    let src := bits (strCfg n 2 s) 31 30
    if clocked s && adUp d s && src ≠ 0 && decide ((s.lum[d].strs[j]).loopAt + secondCycles ≤ s.periph) then
      let set (q : Rat) (s : State) : State :=
        let lim := decide (q ≤ 4 / 5) || decide (6 / 5 ≤ q)
        let q := max (4 / 5) (min (6 / 5) q)
        let s := if lim && !flag (F.lumSStateLoopLimit d j) s then raise 0x3109 5 (16 * n.val + 15) 0 s else s
        setF (F.lumSStateLoopLimit d j) (b2n lim) (setF (F.lumSTrimTrim d j) (rndRat (q * 32768)).toNat s)
      let m := loopMean n s
      let s := modStr n (fun e => { e with sens := [], refSum := 0, refNum := 0, loopAt := s.periph }) s
      match m with
      | none => s
      | some m =>
        if m = 0 then
          let (f, s) := takeFree s
          set ((f % 65536 : Nat) / 32768) s
        else
          let t : Rat := (getF (F.lumSTrimTrim d j) s : Rat) / 32768
          set (t + t * ((bits (strCfg n 3 s) 31 16 : Rat) / m - 1) / 4) s
    else s)

/-- 2^64 · ln(num / den) of any positive ratio: halvings or doublings into the range of `ln64`. -/
def lnWide (num den : Nat) : Int :=
  let k : Int := (num.log2 : Int) - den.log2
  let l2 := ln64 2 1
  if 0 ≤ k then k * l2 + ln64 num (den * 2 ^ k.toNat) else k * l2 + ln64 (num * 2 ^ (-k).toNat) den

/-- The temperature of a thermistor in °C (R116, R324); a code at an end of the scale gives none. -/
def thermTemp (code beta : Nat) : Option Rat :=
  if code = 0 || 32768 ≤ code then none
  else
    let l : Rat := (lnWide code (32768 - code) : Rat) / (2 ^ 64 : Nat)
    some (1 / (100 / 29815 + l / (beta : Rat)) - 27315 / 100)

/-- The thermistor faults: the string runs with f = 0.5 (R324). -/
def thermFault (n : Strng) (s : State) : State :=
  setF (F.lumSTrimDerate (strDie n) (strIdx n)) 16384 (if strFault n s = 0 then stringFault n 4 s else s)

/-- The derating factor f (R324). -/
def derateOf (n : Strng) (t : Rat) (s : State) : Rat :=
  let w := strCfg n 1 s
  min 1 (max 0 (1 - (t - (bits w 31 24 : Nat)) * (bits w 23 16 : Nat) / 1000))

/-- A conversion of the lamp-board thermistor sets the derating factor (R324). -/
def execThermistorConversion (n : Strng) (s : State) : Host.Outcome State Fault Refusal :=
  .next (
    let d := strDie n
    let j := strIdx n
    match s.lum[d].strs[j].therm with
    | none => s
    | some code =>
      if clocked s && adUp d s && bits (strCfg n 0 s) 23 18 ≠ 63 then
        let s := modStr n (fun e => { e with therm := none }) s
        match thermTemp code (bits (strCfg n 1 s) 15 3) with
        | none => thermFault n s
        | some t =>
          let s := setF (F.lumSTempTemp d j) (enc 16 (clampI (-32768) 32767 (rndRat (t * 100)))) s
          if decide (t < -40) || decide (150 < t) then thermFault n s
          else if strFault n s = 4 then s
          else setF (F.lumSTrimDerate d j) (rndRat (derateOf n t s * 32768)).toNat s
      else s)

/-- No conversion succeeded for 1 s (R324). -/
def execThermistorTimeout (n : Strng) (s : State) : Host.Outcome State Fault Refusal :=
  .next (
    if clocked s && adUp (strDie n) s && bits (strCfg n 0 s) 23 18 ≠ 63 &&
        decide ((s.lum[strDie n].strs[strIdx n]).thermOk + secondCycles ≤ s.periph) then thermFault n s
    else s)

/-! ### Tests and faults (R325–R327, R330) -/

/-- Is the lamp lit, but never for 2.0 µs (R326)? -/
def litShort (n : Strng) (k : Fin 10) (s : State) : Bool :=
  lampUsed n k s && decide (0 < getF (dutyFld n k) s) && decide (litCycles n k s < 200)

/-- Does a lamp's test window stand open: the 2.000 µs that start 0.5 µs after its lit interval, which lasts 2.0 µs or is
stretched (R325, R326)? -/
def testWindow (n : Strng) (k : Fin 10) (s : State) : Bool :=
  lampLit n k s && decide (200 ≤ litFor n k s) && (litPhase n s).any fun p => decide (50 ≤ p ∧ p ≤ 250)

/-- A lamp is tested: `mv` across it, the string current in per cent of I_eff (R325, R326): in its window, and for an open
lamp at all times while the current is below 10 %. -/
def execLampTestWindow (n : Strng) (k : Fin 10) (mv pct : Nat) (s : State) : Host.Outcome State Fault Refusal :=
  .next (
    if clocked s && testWindow n k s then
      let s := modTest n (fun e => { e with tested := assocSet k.val s.periph e.tested, fresh := e.fresh.filter (· ≠ k.val) }) s
      if 8000 < mv then lampFault n k 1 s
      else if mv < 1000 && decide (50 ≤ pct) then lampFault n k 2 s
      else if getF (lampFld n k) s = 3 then setF (lampFld n k) 0 s
      else s
    else if clocked s && strRunning n s && lampUsed n k s && decide (8000 < mv) && decide (pct < 10) then lampFault n k 1 s
    else s)

/-- The string current 20 µs after a start, in per cent of I_eff: below 10 %, with no lamp open, the string is open (R325). -/
def execOpenStringFault (n : Strng) (pct : Nat) (s : State) : Host.Outcome State Fault Refusal :=
  .next (
    if clocked s && strRunning n s && decide ((s.lum[strDie n].strs[strIdx n]).startAt + 2000 ≤ s.periph) && decide (pct < 10) &&
        (List.range 10).all (fun k => getF (lampFld n k) s ≠ 1) then stringFault n 1 s
    else s)

/-- The regulator sees the string current, in mA (R312); the eighth cycle cut within 1 ms stops and faults the string (R325). -/
def execInductorOvercurrent (n : Strng) (ma : Nat) (s : State) : Host.Outcome State Fault Refusal :=
  .next (
    if clocked s && strRunning n s then
      let s := regulate n ma s
      if 8 ≤ (s.lum[strDie n].strs[strIdx n]).cuts.length then
        stringFault n 2 (bump (F.lumSCountIndOc (strDie n) (strIdx n)) (modStr n (fun e => { e with cuts := [] }) s))
      else s
    else s)

/-- VIN − V(N0) in mV while a lamp is lit: HEADROOM reads 1 below 2.0 V, with its event on each entry (R325). -/
def execHeadroomLoss (n : Strng) (mv : Nat) (s : State) : Host.Outcome State Fault Refusal :=
  .next (
    let f := F.lumSStateHeadroom (strDie n) (strIdx n)
    if clocked s && (List.range 10).any (fun k => lampLit n k s) then
      if 2000 ≤ mv then setF f 0 s
      else if flag f s then s
      else raise 0x3108 5 (16 * n.val + 15) 0 (setF f 1 s)
    else s)

/-- Are two nodes of a string joined on the board, by positions without a lamp (R311)? -/
def joined (n : Strng) (i j : Nat) (s : State) : Bool :=
  (List.range 10).all fun k => !(decide (min i j ≤ k ∧ k < max i j)) || !lampUsed n k s

/-- May a node of the string be tested now (R327): the regulator has stopped for 4.0 µs with its switches open again, this stopped
interval has had no node, and the first node comes at most once per 10 s? -/
def nodeDue (n : Strng) (s : State) : Bool :=
  let e := s.lum[strDie n].strs[strIdx n]
  let t := s.lum[strDie n].tests[strIdx n]
  !strRunning n s && !e.decaying && e.stopAt.any (fun c => decide (c + 400 ≤ s.periph)) && !t.tried &&
    (t.node ≠ 0 || t.beganAt.all fun c => decide (c + 1000000000 ≤ s.periph))

/-- The next node of the test is behind it; after the last the test is full (R327). -/
def nodeTested (n : Strng) (s : State) : State :=
  let t := s.lum[strDie n].tests[strIdx n]
  let s := modTest n (fun e => { e with
    tried := true
    beganAt := if t.node = 0 then some s.periph else e.beganAt
    node := (t.node + 1) % 10
    fullAt := if t.node = 9 then some s.periph else e.fullAt }) s
  if t.node = 9 then setF (F.lumSStateNeighbourUntested (strDie n) (strIdx n)) 0 s else s

/-- The neighbour-node test of the string's next node N(i) (R327). `v` holds the voltages of the die's nodes in mV in step 1,
with their string and node, those not listed being at 0; `a` and `b` those of N(i) and N(i + 1) in step 2. A node above 1.0 V
is shorted to N(i), which stops and faults both strings; a switch that fails to join the two nodes to within 0.1 V is an open
bypass, treated as an open lamp. -/
def execNeighbourTest (n : Strng) (v : List (Fin 4 × Fin 11 × Nat)) (a b : Nat) (s : State) : Host.Outcome State Fault Refusal :=
  .next (
    if clocked s && adUp (strDie n) s && nodeDue n s then
      let i := (s.lum[strDie n].tests[strIdx n]).node
      let bad := v.filter fun x => decide (1000 < x.2.2) && !(decide (x.1 = strIdx n) && joined n i x.2.1 s)
      let s := nodeTested n s
      let s := if bad.isEmpty then s else
        (n :: bad.map fun x => Fin.ofNat 8 (4 * (strDie n).val + x.1.val)).dedup.foldl (fun s m => stringFault m 3 s) s
      if 100 < ((a : Int) - b).natAbs then lampFault n (Fin.ofNat 10 i) 1 s else s
    else s)

/-- No full neighbour test in 60 s (R327). -/
def execNeighbourUntested (n : Strng) (s : State) : Host.Outcome State Fault Refusal :=
  .next (
    let t := s.lum[strDie n].tests[strIdx n]
    if clocked s && adUp (strDie n) s && decide (t.fullAt.getD t.since + 6000000000 ≤ s.periph) then
      setF (F.lumSStateNeighbourUntested (strDie n) (strIdx n)) 1 s
    else s)

/-- May its interval be stretched: STRETCH = 1 and room (R326)? -/
def stretchRoom (n : Strng) (s : State) : Bool :=
  bit (strCfg n 0 s) 24 &&
    if inMatrix (strDie n) s then decide (2500 ≤ litUs (strDie n) s * 1000)
    else decide (400 ≤ 2 ^ (getF (F.lumDieStateBits (strDie n)) s + 8))

/-- The lit interval of a lamp, while it lasts or where it ends, is lengthened to 4.0 µs for a test, once per second (R326). -/
def execLampStretch (n : Strng) (k : Fin 10) (s : State) : Host.Outcome State Fault Refusal :=
  .next (
    let t := s.lum[strDie n].tests[strIdx n]
    if clocked s && strRunning n s && litShort n k s && stretchRoom n s && !bypassHeld n k s &&
        (assoc t.stretchAt k).all (fun c => decide (c + secondCycles ≤ s.periph)) &&
        (litPhase n s).any (fun p => decide (p ≤ litCycles n k s)) then
      bump (F.lumSCountStretch (strDie n) (strIdx n)) (modTest n (fun e => { e with
        stretched := k.val :: e.stretched
        stretchAt := assocSet k.val s.periph e.stretchAt }) s)
    else s)

/-- 10 s pass without a test of a lamp that cannot be tested (R326): it becomes UNVERIFIED, with the event once on entry, also
where it has read so since ENABLE = 1 cleared it (R328; assumption 27). -/
def execLampUnverified (n : Strng) (k : Fin 10) (s : State) : Host.Outcome State Fault Refusal :=
  .next (
    let t := s.lum[strDie n].tests[strIdx n]
    let st := getF (lampFld n k) s
    if clocked s && adUp (strDie n) s && litShort n k s && !stretchRoom n s && (st = 0 || (st = 3 && t.fresh.contains k.val)) &&
        decide ((assoc t.tested k).getD t.since + 1000000000 ≤ s.periph) then
      raise 0x3107 5 (16 * n.val + k.val) 0
        (modTest n (fun e => { e with fresh := e.fresh.filter (· ≠ k.val) }) (setF (lampFld n k) 3 s))
    else s)

/-- The lit hours of a lamp: its counter, or the base record queued for it. -/
def lampHours (n : Strng) (k : Nat) (s : State) : Nat :=
  let key := 0x480 + 10 * n.val + k
  (queuedBase 0 key s.nvs).getD (counterOf key s)

/-- The PERIPH cycles of an hour. -/
def hourCycles : Nat := 360000000000

/-- A PERIPH cycle of lit time for the lamps of a die that are lit (R330). -/
def litTick (d : Fin 2) (s : State) : State :=
  (strsOf d).foldl (fun s n =>
    if strRunning n s then
      modStr n (fun e => { e with lit := e.lit.zipIdx.map fun x => if lampLit n x.2 s then x.1 + 1 else x.1 }) s
    else s) s

/-- Each lit hour of a lamp programs a cell of its counter (R330). -/
def execLampHourCell (n : Strng) (k : Fin 10) (s : State) : Host.Outcome State Fault Refusal :=
  .next (
    if nvsWorks s && adUp (strDie n) s && decide (hourCycles ≤ nth 0 (s.lum[strDie n].strs[strIdx n]).lit k.val) then
      let s := modStr n (fun e => { e with lit := e.lit.set k.val (nth 0 e.lit k.val - hourCycles) }) s
      let s := countUp (0x480 + 10 * n.val + k.val) s
      setF (F.lumSHoursHours (strDie n) (strIdx n)) (((List.range 10).map fun i => lampHours n i s).foldl max 0) s
    else s)

end Sys2Proof.Machine
end

