-- ==== Sys2Proof/Machine/Taps.lean ====
section
/-!
DEFINITION. The S3 prototypes in ROM (R128, Tables 6.4 and 6.5), which the along-track chain and the camera resampler
share.
-/

namespace Sys2Proof.Machine

/-- π in 64 fraction bits. -/
def pi64 : Int := 57952155664616982739

/-- The sine series of x = xn / 2^64 by Horner's rule in x²: terms `k`, `k-2`, … -/
def sinHorner (x2 : Int) : Nat → Nat → Int → Int
  | 0, _, acc => acc
  | n + 1, k, acc => sinHorner x2 n (k - 2) (2 ^ 64 - x2 * acc / 2 ^ 64 / ((k : Int) * (k + 1)))

/-- 2^64 · sin(x / 2^64) for 0 ≤ x ≤ π in 64 fraction bits. -/
def sin64 (x : Int) : Int := x * sinHorner (x * x / 2 ^ 64) 20 40 (2 ^ 64) / 2 ^ 64

/-- 2^64 · sin(π · k / d) for k < 2d. -/
def sinPi (k d : Nat) : Int := if k ≤ d then sin64 (pi64 * k / d) else -sin64 (pi64 * ((k - d : Nat) : Int) / d)

/-- The kernel of a prototype at `u` sixty-fourths of a line slot from the output position, to a common factor: sharp
and medium are sinc(x)·sinc(x/a) with a = 4 and 2, smooth is the Gaussian with σ = 1 (Table 6.4). -/
def kernel (proto u : Nat) : Int :=
  let lanczos (a : Nat) : Int :=
    if u = 0 then 2 ^ 64
    else if 64 * a ≤ u then 0
    else
      sinPi (u % 128) 64 * sinPi (u % (128 * a)) (64 * a) / 2 ^ 64 * ((a * 4096 : Nat) : Int) * 2 ^ 64 /
        (((u * u : Nat) : Int) * (pi64 * pi64 / 2 ^ 64))
  if proto = 0 then lanczos 4 else if proto = 1 then lanczos 2 else expNeg (u * u) 8192

/-- The distance of tap `i` from the output position at phase `p`, in sixty-fourths. -/
def tapDist (p i : Nat) : Nat := if 192 + p ≤ 64 * i then 64 * i - 192 - p else 192 + p - 64 * i

/-- A tap of a box of width 4: half weight at its edges (Table 6.5). -/
def boxTap (p i : Nat) : Int := if tapDist p i < 128 then 4096 else if tapDist p i = 128 then 2048 else 0

/-- A tap as the kernel gives it, rounded, up to one unit (assumption 17); outside the kernel's support it is 0. -/
def kernelTap (proto p i : Nat) : Int :=
  if kernel proto (tapDist p i) = 0 then 0 else
  let sum := ((List.range 8).map fun k => kernel proto (tapDist p k)).foldl (· + ·) 0
  (2 * 16384 * kernel proto (tapDist p i) + sum) / (2 * sum) + (Config.s3Adjust proto p i % 3 : Nat) - 1

/-- Phases 1 to 31 from the kernel; the centre tap makes the sum 16,384 (R128). -/
def innerTap (proto p i : Nat) : Int :=
  if i = 3 then 16384 - (([0, 1, 2, 4, 5, 6, 7].map fun k => kernelTap proto p k).foldl (· + ·) 0) else kernelTap proto p i

/-- The taps of smooth at phase 32, by their distance from the centre: the sum leaves open which pair gives up the unit
by which the rounded values exceed 16,384 (assumption 17). -/
def smooth32 (k : Nat) : Int :=
  nth 0 [5769, 2122, 287, 15] k - (if Config.s3Adjust 2 32 0 % 4 = k then 1 else 0)

/-- Tap `i` of phase `p` of a ROM prototype (R128). -/
def romTap (proto p i : Nat) : Int :=
  if proto = 3 then boxTap p i
  else if p = 0 then
    if proto = 2 then nth 0 [72, 885, 3965, 6538, 3965, 885, 72, 2] i else if i = 3 then 16384 else 0
  else if p = 32 then
    let k := if i < 4 then 3 - i else i - 4
    if proto = 0 then nth 0 [10140, -2720, 979, -207] k
    else if proto = 1 then nth 0 [9216, -1024, 0, 0] k
    else smooth32 k
  else if p < 32 then innerTap proto p i else innerTap proto (64 - p) (7 - i)

/-- The eight taps of a phase. -/
def romTaps (proto p : Nat) : List Int := (List.range 8).map fun i => romTap proto p i

end Sys2Proof.Machine
end

