-- ==== Sys2Proof/Machine/Camera.lean ====
section
/-!
DEFINITION. The camera ports: settings (R205, R206), triggers (R207–R209), framing and repair (R203, R204, R210, R211),
the effect of a synchronising reset (R212), buffers and admission (R213, R214) and the pipeline stages (R215–R217).
-/

namespace Sys2Proof.Machine

/-! ### Ports -/

/-- The stream die of a port and its pipeline (R214). -/
def camDie (opt : Opt) (p : Fin 2) : Nat :=
  match opt with
  | .zt8 => 1 + p.val
  | .zt4 => 1

/-- Change one port. -/
def modCam (p : Fin 2) (f : CamPort → CamPort) (s : State) : State :=
  { s with cam := { s.cam with ports := vmod s.cam.ports p f } }

/-- Word `i` of the settings record in force (CAM.CFG0 to CAM.CFG4). -/
def camCfg (p : Fin 2) (i : Nat) (s : State) : Word := s.word (F.camCfg0 p + 4 * i)

/-- Fields in force (Table 9.3). -/
def camEn (p : Fin 2) (s : State) : Bool := bit (camCfg p 0 s) 31
def camArea (p : Fin 2) (s : State) : Bool := bit (camCfg p 0 s) 30
def camLineLen (p : Fin 2) (s : State) : Nat := bits (camCfg p 0 s) 14 0
def camFrameLines (p : Fin 2) (s : State) : Nat := bits (camCfg p 1 s) 9 0
def camTriggers (p : Fin 2) (s : State) : Nat := bits (camCfg p 0 s) 26 25 + 1

/-- The value of a padded pixel with no pixel received before it, and the padding rule (R211). -/
def camPad (p : Fin 2) (last : Int) (s : State) : Int :=
  if bit (camCfg p 0 s) 27 then (bits (camCfg p 4 s) 5 0 : Nat) * 1024 else last

/-- Is the port at work: its die up, the device running, the port enabled (R209)? -/
def camOn (p : Fin 2) (s : State) : Bool := working s && dieUp (camDie s.opt p) s && camEn p s

/-- An event of a port, whose record names it (R221). -/
def camEvent (code : Nat) (p : Fin 2) (s : State) : State := raiseLim code 9 p 0 s

/-! ### Settings (R205, R206) -/

/-- Is a settings record well formed (R205)? -/
def camFieldsOk (opt : Opt) (ws : List Word) : Bool :=
  match ws with
  | [a, b, c, d, e] =>
    let len := bits a 14 0
    let area := bit a 30
    !bit a 15 && inR 1 len 16384 && bits b 31 28 = 0 && inR 0 (bits b 27 20) 200 && inR 1 (bits b 19 10) 1000 &&
      inR 1 (bits c 15 8) 255 && bits c 7 5 = 0 && inR 2 (bits c 4 0) 16 && inR 1 (bits d 15 0) 65535 &&
      inR 0 (bits e 15 6) 1020 && decide ((if area then 4 * len else len) ≤ bits c 4 0 * 1024) &&
      !(area && decide (bits b 9 0 < 3)) && !(bit a 23 && opt = .zt4)
  | _ => false

/-- Does the endpoint accept a settings record (R205)?  No channel that the other port's record enables, in force or waiting. -/
def camRecordOk (p : Fin 2) (ws : List Word) (s : State) : Bool :=
  let q : Fin 2 := 1 - p
  let other := bits (camCfg q 0 s) 21 18 ||| (match s.cam.ports[q].nextCh with | some w => bits w 21 18 | none => 0)
  camFieldsOk s.opt ws && bits (nth 0 ws 0) 21 18 &&& other = 0

/-- Which bits of each word take effect at a synchronising reset, and which at a line-slot boundary (R206). -/
def camSyncMask : List Word := [0xF0007FFF, 0x3FF, 0x1F, 0, 0xFFC0]
def camSlotMask : List Word := [0x0FC30000, 0x0FFFFC00, 0xFFFFFF00, 0xFFFFFFFF, 0xFFFF003F]

/-- Take the bits of a mask from a record. -/
def camMerge (p : Fin 2) (mask ws : List Word) (s : State) : State :=
  (List.range 5).foldl (fun s i =>
    let m := nth 0 mask i
    s.setWord (F.camCfg0 p + 4 * i) ((camCfg p i s &&& ~~~ m) ||| (nth 0 ws i &&& m))) s

/-- Buffers of a port that hold closed lines, the one being admitted among them (R213). -/
def camClosed (p : Fin 2) (s : State) : Nat := s.cam.ports[p].closed.length + b2n s.cam.ports[p].adm.isSome

/-- Show what stands in force and in the buffers in CAM.PORT_STATE (Table 9.7). -/
def showCam (p : Fin 2) (s : State) : State :=
  let w := camCfg p 0 s
  let e := s.cam.ports[p]
  s.setWord (F.camPortState p) (BitVec.ofNat 32 (
    bits w 31 28 * 2 ^ 28 + bits w 21 18 * 2 ^ 24 + b2n e.frame.isSome * 2 ^ 23 + b2n e.line.isSome * 2 ^ 22 +
      min 2 (camClosed p s) * 2 ^ 20 + b2n e.nextSync.isSome * 2 ^ 15 + bits w 14 0))

/-- The fields that wait for a line-slot boundary take effect, and the triggers of a line slot begin. -/
def camSlotBoundary (p : Fin 2) (s : State) : State :=
  let s := modCam p (fun e => { e with fired := [] }) s
  match s.cam.ports[p].nextSlot with
  | none => s
  | some ws => showCam p (modCam p (fun e => { e with nextSlot := none }) (camMerge p camSlotMask ws s))

/-- CH_EN takes effect at a fused line. -/
def camFusedLine (p : Fin 2) (s : State) : State :=
  match s.cam.ports[p].nextCh with
  | none => s
  | some w => showCam p (modCam p (fun e => { e with nextCh := none }) (camMerge p [0x003C0000] [w] s))

/-- The port at the internal synchronising reset edge: triggers, lines, history and temporal state go, and the fields
that wait for it take effect (R206, R212). -/
def camSyncEdge (p : Fin 2) (s : State) : State :=
  let s := match s.cam.ports[p].nextSync with
    | none => s
    | some ws => camMerge p camSyncMask ws s
  showCam p (modCam p (fun e => { e with
    nextSync := none, trigNum := 0, skew := 0, fired := [], trigs := [], line := none, frame := none, closed := [], adm := none, hist := [], outs := [],
    nextOut := 0, tnr := [], pipe := e.pipeNext.getD e.pipe, pipeNext := none,
    defects := e.defectsNext.getD e.defects, defectsNext := none }) s)

/-- A record arrives at CAM0.CTL or CAM1.CTL (R205). -/
def execCamCtlRecord (u : UnitId) (t : Tag) (s : State) : Host.Outcome State Fault Refusal :=
  .next (recordOut u t (fun ep => ep = 0x50 || ep = 0x51) (fun x _ s => [camDie s.opt (Fin.ofNat 2 (x.ep - 0x50))])
    (fun x ws s =>
      let p : Fin 2 := Fin.ofNat 2 (x.ep - 0x50)
      if !camRecordOk p ws s then refuseRecord (F.camFaultSettingsRefused p) 0x1401 9 p x.ep s
      else
        (showCam p (modCam p (fun e => { e with
          nextSync := some ws, nextSlot := some ws, nextCh := some (nth 0 ws 0) }) s), 0)) s)

/-- A record of the pipeline or a defect map waits while a line or frame is open; else it takes effect (R215, R217). -/
def camBetween (p : Fin 2) (s : State) : State :=
  let e := s.cam.ports[p]
  if e.line.isSome || e.frame.isSome then s
  else modCam p (fun e => { e with
    pipe := e.pipeNext.getD e.pipe, pipeNext := none, defects := e.defectsNext.getD e.defects, defectsNext := none }) s

/-- Width and height of a tile, and its codes R, G, B, W, I, X = 0 to 5 (Table 9.5). -/
def tileW (ws : List Word) : Nat := bits (nth 0 ws 0) 31 30 + 1
def tileH (ws : List Word) : Nat := bits (nth 0 ws 0) 29 28 + 1
def cellCode (ws : List Word) (k : Nat) : Nat := bits (nth 0 ws (1 + k / 8)) (3 * (k % 8) + 2) (3 * (k % 8))
def tileCode (ws : List Word) (r c : Nat) : Nat := cellCode ws (4 * (r % tileH ws) + c % tileW ws)

/-- Does the endpoint accept a pipeline record (R215)? -/
def camPipeOk (ws : List Word) : Bool :=
  ws.length = 20 && bits (nth 0 ws 0) 27 0 = 0 && bits (nth 0 ws 2) 31 24 = 0 && bits (nth 0 ws 5) 15 0 = 0 &&
    bits (nth 0 ws 6) 11 0 = 0 && bits (nth 0 ws 7) 15 0 = 0 && ((List.range 16).all fun k => decide (cellCode ws k ≤ 5)) &&
    (List.range (tileH ws)).any fun r => (List.range (tileW ws)).any fun c => decide (tileCode ws r c ≤ 3)

def execCamPipeRecord (u : UnitId) (t : Tag) (s : State) : Host.Outcome State Fault Refusal :=
  .next (recordOut u t (fun ep => ep = 0x52 || ep = 0x53) (fun x _ s => [camDie s.opt (Fin.ofNat 2 (x.ep - 0x52))])
    (fun x ws s =>
      let p : Fin 2 := Fin.ofNat 2 (x.ep - 0x52)
      if !camPipeOk ws then refuseRecord (F.camFaultPipeRefused p) 0x1402 9 p x.ep s
      else (camBetween p (modCam p (fun e => { e with pipeNext := some ws }) s), 0)) s)

/-- Does the endpoint accept a defect map (R217)? -/
def camDefectOk (p : Fin 2) (ws : List Word) (s : State) : Bool :=
  match ws with
  | [] => false
  | h :: es => bits h 31 9 = 0 && decide (bits h 8 0 ≤ 256) && es.length = bits h 8 0 &&
      es.all fun w => bits w 31 16 = 0 && decide (bits w 13 0 < camLineLen p s)

def execCamDefectMap (u : UnitId) (t : Tag) (s : State) : Host.Outcome State Fault Refusal :=
  .next (recordOut u t (fun ep => ep = 0x54 || ep = 0x55) (fun x _ s => [camDie s.opt (Fin.ofNat 2 (x.ep - 0x54))])
    (fun x ws s =>
      let p : Fin 2 := Fin.ofNat 2 (x.ep - 0x54)
      if !camDefectOk p ws s then refuseRecord (F.camFaultDefectRefused p) 0x1403 9 p x.ep s
      else
        let m := (ws.drop 1).map fun w => (bits w 15 14, bits w 13 0)
        (camBetween p (modCam p (fun e => { e with defectsNext := some m }) s), 0)) s)

/-! ### Triggers (R207–R209) -/

/-- The actuator die whose matrix is followed (R208). -/
def tieDie (p : Fin 2) (s : State) : Fin 2 := Fin.ofNat 2 (b2n (bit (camCfg p 0 s) 23))

/-- Does the tie of R208 hold: that die in matrix mode with exactly K lines? -/
def tieHolds (p : Fin 2) (s : State) : Bool :=
  adUp (tieDie p s) s && inMatrix (tieDie p s) s && matrixLines (tieDie p s) s = camTriggers p s

/-- Report each entry into the condition that the tie does not hold (R208). -/
def checkTie (p : Fin 2) (s : State) : State :=
  let bad := camEn p s && bit (camCfg p 0 s) 24 && !tieHolds p s
  let was := s.cam.ports[p].untied
  let s := modCam p (fun e => { e with untied := bad }) s
  if bad && !was then raise 0x1407 9 p 0 (setF (F.camFaultTieMismatch p) 1 s) else s

/-- Rise after row slot 0, and start and length of the exposure after the rise, in ns (R207, R208). -/
def trigTimes (p : Fin 2) (k : Nat) (s : State) : Nat × Nat × Nat :=
  let K := camTriggers p s
  if bit (camCfg p 0 s) 24 && tieHolds p s then
    let d := tieDie p s
    let lit := litUs d s * 1000
    (bits (s.word (F.lumDieCfg0 d)) 19 4 * 100 + (k * (blankUs d s + litUs d s) + blankUs d s) * 1000, 0, lit)
  else
    let L := getF (F.fpdStateLineSlot 0) s
    ((bits (camCfg p 2 s) 31 16 + (2 * k * L * 25 + K) / (2 * K)) * 10,
      bits (camCfg p 3 s) 31 16 * 10, bits (camCfg p 3 s) 15 0 * 10)

/-- The time of trigger `k` of the line slot comes (R207): it is issued once, and not at or after the next line slot.  Its
line time is the middle of its exposure, and with EXP_OUT the exposure stands on CAMn_EXPS.  A line that a camera wait has
given out already has its trigger (R219). -/
def execCamTrigger (p : Fin 2) (k : Fin 4) (s : State) : Host.Outcome State Fault Refusal :=
  .next (
    if camOn p s && pacing 0 s && decide (k.val < camTriggers p s) && !s.cam.ports[p].fired.contains k.val then
      let s := modCam p (fun e => { e with fired := k.val :: e.fired }) (checkTie p s)
      let (rise, delay, len) := trigTimes p k s
      let at_ := s.focal[(0 : Fin 2)].stamp + rise
      if getF (F.fpdStateLineSlot 0) s * 250 ≤ rise then bump (F.camLateTrigSkipped p) s
      else
        modCam p (fun e => { e with
          trigNum := e.trigNum + 1
          trigs := { num := e.trigNum, at_ := at_, lt := (at_ + delay + len / 2 : Nat), k := k.val, high := bits (camCfg p 2 s) 15 8 * 100
                     exp := if bit (camCfg p 0 s) 22 then some (delay, len) else none
                     lined := decide (e.trigNum < e.nextOut), done := decide (e.trigNum < e.nextOut)
                     taint := decide (0 < s.freeze.taintSlots) } :: e.trigs }) s
    else s)

/-- Outstanding triggers are withdrawn and open lines discarded, uncounted; the lines kept, and the triggers to come, close the
gaps that the withdrawn indexes leave (R434). -/
def withdraw (e : CamPort) : CamPort :=
  let gone := (e.trigs.filter fun t => !t.done).map (·.num)
  let new (n : Nat) : Nat := n - gone.countP fun g => decide (g < n)
  { e with
    trigs := (e.trigs.filter (·.done)).map fun t => { t with num := new t.num }
    closed := e.closed.map fun l => { l with num := new l.num }
    adm := e.adm.map fun l => { l with num := new l.num }
    hist := e.hist.map fun l => { l with num := new l.num }
    trigNum := new e.trigNum
    skew := e.skew + gone.length
    line := none
    frame := none }

/-! ### Framing and repair (R203, R204, R210, R211) -/

/-- Change the trigger of an index. -/
def modTrig (p : Fin 2) (n : Nat) (f : CamTrig → CamTrig) (s : State) : State :=
  modCam p (fun e => { e with trigs := e.trigs.map fun x => if x.num = n then f x else x }) s

/-- Put a line in its place by index. -/
def camInsert (l : CamLn) : List CamLn → List CamLn
  | [] => [l]
  | x :: t => if l.num < x.num then l :: x :: t else x :: camInsert l t

/-- How a trigger's line comes about (R211): received, synthesised, or a placeholder of R214. -/
inductive CamHow where
  | received | synth | hole
deriving DecidableEq, Repr

/-- Buffers of a port in use: closed lines, and the line or window that fills one (R213). -/
def camUsed (p : Fin 2) (s : State) : Nat :=
  let e := s.cam.ports[p]
  camClosed p s + b2n (e.line.any (·.trig.isSome) || e.frame.any (·.trig.isSome))

/-- A trigger's line closes: a received one in its buffer, a synthesised one in a free buffer; a placeholder, and a synthesised
line that finds no buffer (DESIGN CHOICE, assumption 58), straight into the history (R211, R214). -/
def camPut (p : Fin 2) (how : CamHow) (n tile : Nat) (rows : List (List (Int × Bool))) (s : State) : State :=
  match s.cam.ports[p].trigs.find? fun x => x.num = n with
  | none => s
  | some x =>
    let l : CamLn :=
      { num := n, lt := x.lt, tile := tile, rows := rows, empty := rows.all fun r => r.all (·.2), hole := how = .hole }
    let buffered := how = .received || (how = .synth && decide (camUsed p s < 2))
    let s := modTrig p n (fun x => { x with lined := true, done := true }) s
    showCam p (modCam p (fun e =>
      if buffered then { e with closed := camInsert l e.closed } else { e with hist := camInsert l e.hist }) s)

/-- A row padded to LINE_LEN from the pixels received, in reverse (R211). -/
def padRow (p : Fin 2) (rev : List Int) (s : State) : List (Int × Bool) :=
  let n := camLineLen p s
  let v := camPad p (rev.head?.getD 0) s
  ((rev.reverse.map fun x => (x, false)) ++ List.replicate (n - rev.length) (v, true)).take n

/-- The rows of a fully padded line: one, or a window in AREA mode. -/
def emptyRows (p : Fin 2) (s : State) : List (List (Int × Bool)) :=
  List.replicate (if camArea p s then tileH s.cam.ports[p].pipe else 1) (padRow p [] s)

/-- The index from which a line takes its tile row (R216): its trigger's, with those withdrawn counted, or that in its frame.
A line outside every frame counts as the first of one (DESIGN CHOICE, assumption 57). -/
def camTile (p : Fin 2) (n row : Nat) (s : State) : Nat := if camFrameLines p s = 0 then n + s.cam.ports[p].skew else row

/-- Count a line into the open frame. -/
def countLine (p : Fin 2) (s : State) : State :=
  modCam p (fun e => { e with frame := e.frame.map fun f => { f with count := f.count + 1 } }) s

/-- Lines or rows opened in the frame. -/
def frameCount (p : Fin 2) (s : State) : Nat := (s.cam.ports[p].frame.map (·.count)).getD 0

/-- Is a row inside the kept window of AREA mode (R210)? -/
def inWindow (p : Fin 2) (row : Nat) (s : State) : Bool :=
  let r := bits (camCfg p 4 s) 15 6
  inR r row (r + tileH s.cam.ports[p].pipe - 1)

/-- The window of the open frame is complete: it is the trigger's line. -/
def closeWindow (p : Fin 2) (s : State) : State :=
  match s.cam.ports[p].frame with
  | some { trig := some n, count := c, rows := rs } =>
    if rs.length < tileH s.cam.ports[p].pipe then s
    else camPut p .received n 0 rs (modCam p (fun e => { e with frame := some { trig := none, count := c, rows := [] } }) s)
  | _ => s

/-- What the window of the open frame lacks is padded, and it is complete (R211). -/
def fillWindow (p : Fin 2) (s : State) : State :=
  closeWindow p (modCam p (fun e => { e with
    frame := e.frame.map fun f =>
      if f.trig.isSome then { f with rows := f.rows ++ List.replicate (tileH e.pipe - f.rows.length) (padRow p [] s) } else f }) s)

/-- A line or row closes; where short it is padded, and `counts` says the case is a short line (Table 9.4). -/
def closeLine (p : Fin 2) (counts : Bool) (s : State) : State :=
  match s.cam.ports[p].line with
  | none => s
  | some l =>
    let s := showCam p (modCam p (fun e => { e with line := none }) s)
    match l.trig with
    | none => s
    | some n =>
      let short := decide (l.pix.length < camLineLen p s)
      let s := if short && counts then camEvent 0x1406 p (bump (F.camShortLongShort p) s) else s
      let row := padRow p l.pix s
      if camArea p s then
        closeWindow p (modCam p (fun e => { e with frame := e.frame.map fun f => { f with rows := f.rows ++ [row] } }) s)
      else camPut p .received n (camTile p n l.row s) [row] s

/-- The newest trigger, where it has no line yet (R210). -/
def freeTrigger (p : Fin 2) (s : State) : Option Nat :=
  match s.cam.ports[p].trigs with
  | x :: _ => if x.lined then none else some x.num
  | [] => none

/-- The incoming line is dropped and a placeholder stands for it (R214). -/
def dropLine (p : Fin 2) (n tile : Nat) (s : State) : State :=
  let s := camEvent 0x1404 p (setF (F.camFaultDrop p) 1 (bump (F.camDroppedDropped p) s))
  camPut p .hole n tile (emptyRows p s) s

/-- Count a pairing (CAM.LINES wraps). -/
def pairLine (p : Fin 2) (n : Nat) (s : State) : State :=
  modTrig p n (fun x => { x with lined := true })
    (setF (F.camLinesLines p) ((getF (F.camLinesLines p) s + 1) % 2 ^ 32) s)

/-- A line or row opens under index `row`, for trigger `t`. -/
def openRow (p : Fin 2) (t : Option Nat) (row : Nat) (s : State) : State :=
  showCam p (modCam p (fun e => { e with line := some { trig := t, pix := [], row := row, long := false, lval := true } }) s)

/-- Pair a line of LINE mode that opens (R210, R214). -/
def openLine (p : Fin 2) (s : State) : State :=
  let row := frameCount p s
  let full := camFrameLines p s
  if full ≠ 0 && decide (full ≤ row) then
    openRow p none row (camEvent 0x1406 p (bump (F.camFrameLongFrame p) s))
  else match freeTrigger p s with
    | none => openRow p none row (bump (F.camStartUnexpected p) s)
    | some n =>
      let s := countLine p (pairLine p n s)
      if 2 ≤ camClosed p s then openRow p none row (dropLine p n (camTile p n row s) s)
      else openRow p (some n) row s

/-- A row of AREA mode opens: kept inside the window, refused past FRAME_LINES, else discarded, as it is outside a frame
(R210, R211). -/
def openAreaRow (p : Fin 2) (s : State) : State :=
  match s.cam.ports[p].frame with
  | none => openRow p none 0 s
  | some f =>
    if camFrameLines p s ≤ f.count then openRow p none f.count (camEvent 0x1406 p (bump (F.camFrameLongFrame p) s))
    else openRow p (if inWindow p f.count s then f.trig else none) f.count (countLine p s)

/-- LVAL rises (R210); over an open line it is a false start (R211). -/
def lineOpen (p : Fin 2) (s : State) : State :=
  let s := if s.cam.ports[p].line.isSome then
      closeLine p false (camEvent 0x1406 p (bump (F.camShortLongShort p) (bump (F.camStartFalseStart p) s))) else s
  if camArea p s then openAreaRow p s else openLine p s

def execCamLineOpen (p : Fin 2) (s : State) : Host.Outcome State Fault Refusal :=
  .next (if camOn p s then lineOpen p s else s)

/-- LVAL has been low for two edges (R210). -/
def execCamLineClose (p : Fin 2) (s : State) : Host.Outcome State Fault Refusal :=
  .next (if camOn p s then camBetween p (closeLine p true s) else s)

/-- FVAL rises: ignored without frames; while LVAL is high over an open line it is a false start, and the line goes on in the new
frame.  A line whose LVAL is low already, in its close qualification, closes by itself; a row of AREA mode is then no row of the
new frame (R210, R211). -/
def frameOpen (p : Fin 2) (s : State) : State :=
  let running := s.cam.ports[p].line.any (·.lval)
  let s := if camArea p s && !running then
      modCam p (fun e => { e with line := e.line.map fun l => { l with trig := none } }) s else s
  let s := if running then
      closeLine p false (camEvent 0x1406 p (bump (F.camShortLongShort p) (bump (F.camStartFalseStart p) s))) else s
  let start (t : Option Nat) (s : State) : State :=
    showCam p (modCam p (fun e => { e with frame := some { trig := t, count := 0, rows := [] } }) s)
  let s := if !camArea p s then start none s
    else match freeTrigger p s with
      | none => start none (bump (F.camStartUnexpected p) s)
      | some n =>
        let s := pairLine p n s
        if 2 ≤ camClosed p s then start none (dropLine p n 0 s) else start (some n) s
  if running then lineOpen p s else s

def execCamFrameOpen (p : Fin 2) (s : State) : Host.Outcome State Fault Refusal :=
  .next (if camOn p s && camFrameLines p s ≠ 0 then frameOpen p s else s)

/-- A fully padded line for a trigger (R211). -/
def synthLine (p : Fin 2) (n : Nat) (s : State) : State :=
  if camArea p s then camPut p .synth n 0 (emptyRows p s) s
  else camPut p .synth n (camTile p n (frameCount p s) s) (emptyRows p s) (countLine p s)

/-- A row of the window that is open closes with the pixels received, padded; what still comes for it is discarded (R211). -/
def closeOpenRow (p : Fin 2) (s : State) : State :=
  match s.cam.ports[p].line with
  | some l => if l.trig.isSome then openRow p none l.row (closeLine p false s) else s
  | none => s

/-- FVAL falls before the window is complete: an open row keeps the pixels received, and the missing rows are padded (R211). -/
def shortWindow (p : Fin 2) (s : State) : State :=
  let s := closeOpenRow p s
  match s.cam.ports[p].frame with
  | some { trig := some _, count := _, rows := rs } =>
    fillWindow p (camEvent 0x1406 p (bumpBy (F.camFrameShortFrame p) (tileH s.cam.ports[p].pipe - rs.length) s))
  | _ => s

/-- FVAL falls: a short frame is repaired (R211). -/
def frameEnd (p : Fin 2) (s : State) : State :=
  match s.cam.ports[p].frame with
  | none => s
  | some f =>
    let s := if camArea p s then shortWindow p s
      else
        let free := ((s.cam.ports[p].trigs.filter fun x => !x.lined).map (·.num)).reverse
        let ns := free.take (camFrameLines p s - f.count)
        if ns.isEmpty then s
        else ns.foldl (fun s n => synthLine p n (camEvent 0x1406 p (bump (F.camFrameShortFrame p) s))) s
    camBetween p (showCam p (modCam p (fun e => { e with frame := none }) s))

def execCamFrameEnd (p : Fin 2) (s : State) : Host.Outcome State Fault Refusal :=
  .next (if camOn p s then frameEnd p s else s)

/-- A trigger's line is late: an open line is closed and padded, else one is synthesised (R211). -/
def lateLine (p : Fin 2) (n : Nat) (s : State) : State :=
  let s := camEvent 0x1405 p (bump (F.camLateSynth p) s)
  let e := s.cam.ports[p]
  match e.line, e.frame with
  | some l, _ =>
    if l.trig = some n && !camArea p s then
      let s := closeLine p false s
      openRow p none l.row s
    else if camArea p s && (e.frame.bind (·.trig)) = some n then
      openRow p none l.row (fillWindow p (closeLine p false s))
    else synthLine p n s
  | none, some f =>
    if camArea p s && f.trig = some n then fillWindow p s
    else synthLine p n s
  | none, none => synthLine p n s

/-- The oldest trigger whose line has not closed. -/
def oldestOpen (p : Fin 2) (s : State) : Option CamTrig := (s.cam.ports[p].trigs.filter fun x => !x.done).getLast?

/-- TIMEOUT after its trigger passes (R211). -/
def execCamLineTimeout (p : Fin 2) (s : State) : Host.Outcome State Fault Refusal :=
  .next (
    match oldestOpen p s with
    | some x =>
      if camOn p s && decide (x.at_ + bits (camCfg p 1 s) 19 10 * 1000 ≤ s.time) then lateLine p x.num s else s
    | none => s)

/-- The pixels of one clock on the pipeline scale (R203, R204). -/
def clockPixels (pack : Nat) (x : BitVec 24) : List Int :=
  let f (hi lo : Nat) : Int := (x.toNat / 2 ^ lo % 2 ^ (hi + 1 - lo) : Nat)
  if pack = 0 then [rneShift 8 (f 23 0)]
  else if pack = 1 then [f 15 0]
  else if pack = 2 then [f 11 0 * 16, f 23 12 * 16]
  else [f 7 0 * 256, f 15 8 * 256, f 23 16 * 256]

/-- CAMn_PCLK rises (R203), and LVAL is sampled (R210): with LVAL and DVAL high an open line takes its pixels; a pixel past
LINE_LEN makes a long line, unused slots of the last clock do not (R211). -/
def execPclkRisingEdge (p : Fin 2) (x : BitVec 24) (lval dval : Bool) (s : State) : Host.Outcome State Fault Refusal :=
  .next (
    let s := modCam p (fun e => { e with line := e.line.map fun l => { l with lval := lval } }) s
    match s.cam.ports[p].line with
    | some l =>
      if camOn p s && lval && dval && l.trig.isSome then
        let n := camLineLen p s
        if n ≤ l.pix.length then
          if l.long then s
          else
            camEvent 0x1406 p (bump (F.camShortLongLong p)
              (modCam p (fun e => { e with line := some { l with long := true } }) s))
        else
          let pix := (clockPixels (bits (camCfg p 0 s) 29 28) x).foldl
            (fun a v => if a.length < n then v :: a else a) l.pix
          modCam p (fun e => { e with line := some { l with pix := pix } }) s
      else s
    | none => s)

/-! ### Admission (R213) -/

/-- Pixels that fail parity in the line buffer, row by row, are treated as padded (R234). -/
def spoilRows (bad : List Nat) (rows : List (List (Int × Bool))) : List (List (Int × Bool)) :=
  rows.zipIdx.map fun r => r.1.zipIdx.map fun x => (x.1.1, x.1.2 || bad.contains (r.2 * r.1.length + x.2))

/-- The line being admitted has been, once the pipeline is free again: its buffer is free (R213). -/
def admitEnd (p : Fin 2) (s : State) : State :=
  match s.cam.ports[p].adm with
  | none => s
  | some l =>
    if s.cam.busy ≤ 20 * s.periph then showCam p (modCam p (fun e => { e with adm := none, hist := camInsert l e.hist }) s) else s

/-- A closed line is admitted once the pipeline is free, which it occupies for 2.5 ns a pixel: alternately where lines of
both ports wait (R213).  One arbiter on SD0 grants it (R214).  `bad` are the pixels that fail parity in the line buffer
(R234).  The line holds its buffer until it has been admitted (`admitEnd`). -/
def execCamLineAdmit (p : Fin 2) (bad : List Nat) (s : State) : Host.Outcome State Fault Refusal :=
  .next (
    let s := admitEnd 1 (admitEnd 0 s)
    match s.cam.ports[p].closed with
    | [] => s
    | l :: rest =>
      let q : Fin 2 := 1 - p
      if camOn p s && dieUp 1 s && decide (s.cam.busy ≤ 20 * s.periph) &&
          !(s.cam.last = some p && !s.cam.ports[q].closed.isEmpty) then
        let size : Nat := (l.rows.map (·.length)).sum
        let bad := bad.dedup.filter fun i => decide (i < size)
        let l := { l with rows := spoilRows bad l.rows }
        let s := modCam p (fun e => { e with closed := rest, adm := some l }) (countTaintParity bad.length s)
        showCam p { s with cam := { s.cam with last := some p, busy := 20 * s.periph + 5 * size } }
      else s)

/-! ### Pipeline stages (R215–R217) -/

/-- A row in the pipeline: its place among the rows, its tile row and its values. -/
structure CamRow where
  y : Nat
  tile : Nat
  v : Array Int

/-- The row at a place. -/
def rowAt (rs : List CamRow) (y : Nat) : Option CamRow := rs.find? fun r => r.y = y

/-- A value of a row. -/
def rowVal (r : CamRow) (x : Nat) : Int := r.v.getD x 0

/-- Defect pixels are replaced by same-code neighbours of their row (Table 9.6). -/
def fixDefects (ws : List Word) (ds : List (Nat × Nat)) (r : CamRow) : CamRow :=
  let w := tileW ws
  let n := r.v.size
  { r with v := r.v.mapIdx fun x v =>
      if ds.any fun d => d.1 = r.tile && d.2 = x then
        if w ≤ x && x + w < n then rneDiv (rowVal r (x - w) + rowVal r (x + w)) 2
        else if w ≤ x then rowVal r (x - w)
        else if x + w < n then rowVal r (x + w) else v
      else v }

/-- BLK of a code (Table 9.5). -/
def blackOf (ws : List Word) (c : Nat) : Int :=
  if c = 0 then bits (nth 0 ws 3) 31 16 else if c = 1 then bits (nth 0 ws 3) 15 0
  else if c = 2 then bits (nth 0 ws 4) 31 16 else if c = 3 then bits (nth 0 ws 4) 15 0
  else if c = 4 then bits (nth 0 ws 5) 31 16 else (0 : Nat)

/-- Black level; X pixels untouched. -/
def subBlack (ws : List Word) (r : CamRow) : CamRow :=
  { r with v := r.v.mapIdx fun x v => v - blackOf ws (tileCode ws r.tile x) }

/-- Spatial noise reduction over the 8 same-code neighbours, replicated at edges; 0 is off. -/
def snr (ws : List Word) (rs : List CamRow) (r : CamRow) : CamRow :=
  let t : Int := bits (nth 0 ws 6) 31 16
  if t = 0 then r
  else
    let w := tileW ws
    let up := (if r.y < tileH ws then none else rowAt rs (r.y - tileH ws)).getD r
    let dn := (rowAt rs (r.y + tileH ws)).getD r
    { r with v := r.v.mapIdx fun x v =>
        let xl := if x < w then x else x - w
        let xr := if x + w < r.v.size then x + w else x
        let nb := [rowVal up xl, rowVal up x, rowVal up xr, rowVal r xl, rowVal r xr, rowVal dn xl, rowVal dn x, rowVal dn xr]
        let ok := nb.filter fun a => decide ((a - v).natAbs ≤ t.toNat)
        rneDiv (v + ok.foldl (· + ·) 0) (ok.length + 1) }

/-- Temporal noise reduction of a window row against its state (AREA only). -/
def tnr (ws : List Word) (y : Option (List Int)) (r : CamRow) : CamRow :=
  let k := bits (nth 0 ws 6) 15 12
  let g := bits (nth 0 ws 7) 31 16
  match y with
  | none => r
  | some old =>
    if k = 0 then r
    else
      let o := old.toArray
      { r with v := r.v.mapIdx fun x v =>
          let y := o.getD x 0
          if (v - y).natAbs ≤ g then y + rneShift k (v - y) else v }

/-- Nearest pixels of code `c` from (y, x): to the left, right, above and below, each with its distance. -/
def nearest (ws : List Word) (rs : List CamRow) (r : CamRow) (x c : Nat) : List (Option (Nat × Nat × Nat)) :=
  let dx := (List.range (tileW ws)).drop 1
  let dy := (List.range (tileH ws)).drop 1
  let hor (left : Bool) : Option (Nat × Nat × Nat) :=
    dx.findSome? fun d =>
      let x' := if left then x - d else x + d
      if (if left then decide (d ≤ x) else decide (x + d < r.v.size)) && tileCode ws r.tile x' = c then some (r.y, x', d) else none
  let ver (above : Bool) : Option (Nat × Nat × Nat) :=
    dy.findSome? fun d =>
      if above && decide (r.y < d) then none
      else match rowAt rs (if above then r.y - d else r.y + d) with
        | some q => if tileCode ws q.tile x = c then some (q.y, x, d) else none
        | none => none
  [hor true, hor false, ver true, ver false]

/-- The value at a place. -/
def valAt (rs : List CamRow) (y x : Nat) : Int := ((rowAt rs y).map fun r => rowVal r x).getD 0

/-- Does the tile hold a code? -/
def tileHas (ws : List Word) (c : Nat) : Bool :=
  (List.range (tileH ws)).any fun r => (List.range (tileW ws)).any fun x => tileCode ws r x = c

/-- The guide Y (Table 9.6).  Where neither direction holds a W the value is left open (assumption 28). -/
def guide (fv : Nat) (ws : List Word) (rs : List CamRow) (r : CamRow) (x : Nat) : Int :=
  if !tileHas ws 3 || tileCode ws r.tile x = 3 then rowVal r x
  else
    let ps := (nearest ws rs r x 3).filterMap id
    if ps.isEmpty then Config.freePixel fv x 6
    else rneDiv ((ps.map fun p => valAt rs p.1 p.2.1).foldl (· + ·) 0) ps.length

/-- Linear interpolation of c − Y between two pixels, and |ΔY| between them; `none` where neither exists. -/
def between (f g : Nat × Nat × Nat → Int) (y0 : Int) (a b : Option (Nat × Nat × Nat)) : Option (Int × Nat) :=
  match a, b with
  | some p, some q =>
    some (rneDiv ((f p - g p) * (q.2.2 : Nat) + (f q - g q) * (p.2.2 : Nat)) (p.2.2 + q.2.2), (g p - g q).natAbs)
  | some p, none | none, some p => some (f p - g p, (g p - y0).natAbs)
  | none, none => none

/-- The value of code `c` at a pixel (Table 9.6, demosaic). -/
def demosaic (fv : Nat) (ws : List Word) (rs gs : List CamRow) (r : CamRow) (x c : Nat) : Int :=
  if tileCode ws r.tile x = c then rowVal r x
  else if !tileHas ws c then 0
  else
    let y0 := valAt gs r.y x
    let f (p : Nat × Nat × Nat) : Int := valAt rs p.1 p.2.1
    let g (p : Nat × Nat × Nat) : Int := valAt gs p.1 p.2.1
    match nearest ws rs r x c with
    | [l, rt, u, d] =>
      match between f g y0 l rt, between f g y0 u d with
      | some h, some v => y0 + (if h.2 ≤ v.2 then h.1 else v.1)
      | some h, none => y0 + h.1
      | none, some v => y0 + v.1
      | none, none => Config.freePixel fv x c
    | _ => 0

/-- K of a code (Table 9.5). -/
def irCoef (ws : List Word) (c : Nat) : Int :=
  let w := nth 0 ws (8 + c / 2)
  if c % 2 = 0 then bits w 31 16 else (bits w 15 0 : Nat)

/-- M[o][i] (Table 9.5). -/
def matrixCoef (ws : List Word) (o i : Nat) : Int :=
  let k := 5 * o + i
  let w := nth 0 ws (10 + k / 2)
  dec 16 (if k % 2 = 0 then bits w 31 16 else bits w 15 0)

/-- IR subtraction and colour matrix (Table 9.6): `v` holds R, G, B, W, I. -/
def colour (ws : List Word) (v : List Int) : List Int :=
  let ir := nth 0 v 4
  let u := (List.range 5).map fun c => if c = 4 then ir else nth 0 v c - rneShift 12 (irCoef ws c * ir)
  (List.range 4).map fun o => (rneSat (((List.range 5).map fun i => matrixCoef ws o i * nth 0 u i).foldl (· + ·) 0) 12 24).1

/-- The pipeline's lookahead (R218). -/
def lookahead (ws : List Word) (area : Bool) : Nat :=
  if area then 0 else if bits (nth 0 ws 6) 31 16 = 0 then tileH ws - 1 else 2 * tileH ws - 1

/-- The rows of a port in the pipeline after defect map and black level: one window, or the lines admitted that a line's
stages can reach: back by TH − 1 for the demosaic, TH − 1 for its guide and TH for the noise reduction, and forward as far as
R218 has the line wait (DEDUCED, assumption 145). -/
def prepRows (ws : List Word) (ds : List (Nat × Nat)) (area : Bool) (hist : List CamLn) (l : CamLn) : List CamRow :=
  let one (y tile : Nat) (r : List (Int × Bool)) : CamRow :=
    subBlack ws (fixDefects ws ds { y := y, tile := tile % tileH ws, v := (r.map (·.1)).toArray })
  if area then l.rows.zipIdx.map fun p => one p.2 p.2 p.1
  else
    let near := hist.filter fun k => decide (l.num + 2 ≤ k.num + 3 * tileH ws) && decide (k.num ≤ l.num + lookahead ws area)
    near.map fun k => one k.num k.tile (nth [] k.rows 0)

/-- A line leaves the pipeline (R216, Table 9.6). -/
def lineOut (p : Fin 2) (l : CamLn) (s : State) : State :=
  let e := s.cam.ports[p]
  let ws := e.pipe
  let area := camArea p s
  let prep := prepRows ws e.defects area e.hist l
  let quiet := prep.map (snr ws prep)
  let rs := if area then quiet.map fun r => tnr ws (e.tnr[r.y]?) r else quiet
  let gs := rs.map fun r => { r with v := r.v.mapIdx fun x _ => guide (s.free + r.y % 16) ws rs r x }
  let mine := rs.filter fun r => area || r.y = l.num
  let n := camLineLen p s
  let val (x c : Nat) : Int :=
    rneDiv ((mine.map fun r => demosaic (s.free + r.y % 16) ws rs gs r x c).foldl (· + ·) 0) (max 1 mine.length)
  let px := (List.range n).map fun x => colour ws ((List.range 5).map fun c => val x c)
  let taint := e.trigs.any fun t => t.num = l.num && t.taint
  let out : CamOut :=
    { num := l.num, lt := l.lt, empty := l.empty
      chans := (List.range 4).map fun o => px.map fun v => nth 0 v o
      pads := (List.range n).map fun x => taint || l.rows.any fun r => (nth (0, false) r x).2 }
  let whole := !l.hole && l.rows.all fun r => r.all fun x => !x.2
  let s := match (e.trigs.find? fun t => t.num = l.num).filter fun _ => whole with
    | some t => loopLine p t.k n out.chans s
    | none => s
  modCam p (fun e => { e with
    outs := e.outs ++ [out]
    nextOut := l.num + 1
    hist := e.hist.filter fun k => decide (l.num < k.num + 16)
    tnr := if area && !l.hole then rs.map (·.v.toList) else e.tnr }) { s with free := s.free + 16 }

/-- The next camera line leaves the pipeline, once the line it looks ahead to has closed (R218). -/
def execCamLineOut (p : Fin 2) (s : State) : Host.Outcome State Fault Refusal :=
  .next (
    let e := s.cam.ports[p]
    match e.hist.find? fun k => k.num = e.nextOut with
    | some l =>
      if camOn p s && (List.range (lookahead e.pipe (camArea p s) + 1)).all fun i => e.hist.any fun k => k.num = e.nextOut + i then
        lineOut p l s
      else s
    | none => s)

/-- A line that the camera wait gives up (R219, Table 9.4, late line): an open one is closed with the pixels received and
padded, else a fully padded one is synthesised; it goes straight into the pipeline, also where its trigger has not come. -/
def giveUp (p : Fin 2) (n : Nat) (s : State) : State :=
  let s := camEvent 0x1405 p (bump (F.camLateSynth p) s)
  let e := s.cam.ports[p]
  let area := camArea p s
  let mine := e.line.any fun l => l.trig = some n
  let row : List (List (Int × Bool)) := if mine then [padRow p ((e.line.map (·.pix)).getD []) s] else []
  let kept := if area then (if e.frame.any fun f => f.trig = some n then ((e.frame.map (·.rows)).getD []) ++ row else []) else row
  let rows := kept ++ (emptyRows p s).drop kept.length
  let tile := match (e.closed ++ e.adm.toList ++ e.hist).find? fun l => l.num = n with
    | some l => l.tile
    | none => if area then 0 else camTile p n (if mine then (e.line.map (·.row)).getD 0 else frameCount p s) s
  let lt := ((e.trigs.find? fun x => x.num = n).map (·.lt)).getD 0
  let l : CamLn := { num := n, lt := lt, tile := tile, rows := rows, empty := rows.all fun r => r.all (·.2), hole := false }
  showCam p (modTrig p n (fun x => { x with lined := true, done := true }) (modCam p (fun e => { e with
    line := e.line.map fun o => if o.trig = some n then { o with trig := none } else o
    frame := e.frame.map fun f => if f.trig = some n then { f with trig := none, rows := [] } else f
    closed := e.closed.filter fun k => k.num ≠ n
    adm := e.adm.filter fun k => k.num ≠ n
    hist := camInsert l (e.hist.filter fun k => k.num ≠ n) }) s))

/-- Every line up to `top` that has not left the pipeline is given up, and they leave at once (R219; the lines before the first
one needed among them are the model's reading, assumption 59). -/
def flushLines (p : Fin 2) (top : Nat) (s : State) : State :=
  let a := s.cam.ports[p].nextOut
  let ns := (List.range (top + 1 - a)).map fun i => a + i
  let s := ns.foldl (fun s n => giveUp p n s) s
  ns.foldl (fun s n =>
    match s.cam.ports[p].hist.find? fun k => k.num = n with
    | some l => lineOut p l s
    | none => s) s

end Sys2Proof.Machine
end

