-- ==== Sys2Proof/Machine/Chain.lean ====
section
/-!
DEFINITION. The along-track chain of an engine over one line slot (R124–R130, R134–R138, R140, R141) and the velocity
estimator of a band (R161–R164).
-/

namespace Sys2Proof.Machine

/-! ### Bands -/

/-- The focal die and first die column of a band (R161). -/
def bandFd (b : Nat) : Fin 2 := Fin.ofNat 2 (b / 8)
def bandCol (b : Nat) : Nat := b % 8 * 256

/-- The stream die that corrects a band's columns (Table 7.2). -/
def bandDie (opt : Opt) (b : Nat) : Nat := streamDieOf opt (bandFd b) (bandCol b)

/-- The focal-die link that carries a band's columns (R110). -/
def bandLink (opt : Opt) (b : Nat) : Nat :=
  match opt with
  | .zt8 => if b < 6 then 0 else if b < 8 then 1 else if b < 12 then 2 else 3
  | .zt4 => if b < 6 then 0 else 1

/-- The engines of a band. -/
def bandEngines (b : Nat) : List (Fin 64) := (List.range 4).map fun i => Fin.ofNat 64 (4 * b + i)

/-- Is the band blind (R168)?  An engine whose die is in die reset counts with those that have no physical engine. -/
def bandBlind (b : Nat) (s : State) : Bool :=
  !fdUp (bandFd b) s || !dieUp (bandDie s.opt b) s || !linkOk (bandLink s.opt b) s ||
    !((bandEngines b).all fun l => engRunning l s) || !dieUp (asmDie s.opt) s

/-- Change a band. -/
def modBand (b : Fin 16) (f : Band → Band) (s : State) : State := { s with bands := vmod s.bands b f }

/-- Line-slot length in units of 250 ns, row pitch, grid pitch. -/
def slotLen (s : State) : Nat := getF (F.fpdStateLineSlot 0) s
def rowPitch (s : State) : Nat := getF F.corGridPRow s
def gridPitch (s : State) : Nat := getF F.corGridPitch s

/-- A lap that latches now from the published velocity: ρ held within 0.75 to 4, and q; with whether it was held
(R126).  The manual gives q 16 fraction bits and no rounding: to nearest, halves up (DESIGN CHOICE, assumption 48). -/
def latchLap (v : Nat) (s : State) : Lap × Bool :=
  let num := v * slotLen s
  let den := 40000 * rowPitch s
  let (n, d, held) := if 4 * num < 3 * den then (3, 4, true) else if 4 * den < num then (4, 1, true) else (num, den, false)
  ({ num := n, den := d, q := rndRat ((65536 : Rat) * ((d : Rat) / n - 8 / slotLen s)) }, held)

/-- Count laps whose ρ is held (R126). The event names an engine (R147): the first of the band (DESIGN CHOICE: the count is
the band's and R147 does not say which of its engines; assumption 127), as ALG_STEP_CAPPED does. -/
def countHeld (b n : Nat) (s : State) : State :=
  if n = 0 then s else raiseLim 0x1105 2 (4 * b) 0 (bumpBy F.algRhoClampedRhoClamped n s)

/-- Does the band's pacer deliver, and can its engines see it? -/
def bandSeen (b : Fin 16) (s : State) : Bool := pacing (bandFd b) s && !bandBlind b s

/-- The band's velocity enters DEFAULT (Table 7.4). -/
def velDefault (b : Nat) (s : State) : State :=
  let was := getF (F.velBandState b) s
  let s := setF (F.velBandState b) 2 (setF (F.velBandShiftHoldLines b) 0 (setF (F.velBandVelocity b) (getF F.corVcfgVDef s) s))
  if was = 2 then s else raiseLim 0x1210 3 b 0 s

/-- The common modes kept by the correction engine of a band's columns are zero in its zero state (R156). -/
def zeroCm (b : Fin 16) (s : State) : State :=
  modCorr (bandFd b) (fun e => { e with cmLast := e.cmLast.filter fun c => c.1 % 4 ≠ bandDie s.opt b }) s

/-- A band at a zero state of its engines: its OPEN lines reach their bound (R297), the estimator is in DEFAULT (R164), laps 0
to 63 latch where the band is seen, and product line 0 stands at position 0 (R126, R127, R134). A blind band's position starts
again, too (R168; DESIGN CHOICE, assumption 51). Lines that have completed and wait for a fused line stay (R166: none is lost;
assumption 133). -/
def zeroBand (b : Fin 16) (s : State) : State :=
  let s := zeroCm b (velDefault b (notesZero b s))
  let v := getF (F.velBandVelocity b) s
  let (l, held) := latchLap v s
  let s := countHeld b (if held && bandSeen b s then 64 else 0) s
  modBand b (fun e => { Band.reset with done := e.done, laps := List.replicate 64 l, lines := [⟨0, 0, v, none⟩] }) s

/-- A band and its engines start from zero state (R134). -/
def zeroBandEngines (sync : Bool) (b : Fin 16) (s : State) : State :=
  zeroBand b ((bandEngines b).foldl (fun s l => zeroEngine sync l s) s)

/-- The lap of number `m`, while line slot `slot` of the band ends: the newest lap latched is `slot + 63`. -/
def lapOf (e : Band) (m : Nat) : Option Lap := e.laps[e.slot + 63 - m]?

/-! ### S1 and S2 (R125, R126) -/

/-- An input of the chain: RECOV, OVR and TAINT taint it (R136). -/
def pixOf (w : Word) : Pix := { v := dec 24 (bits w 23 0), taint := bit w 27 || bit w 25 || bit w 24, bad := bit w 26 }

/-- The corrected pixels of the engine's columns in the line slot, row by row. -/
def engineInput (l : Nat) (s : State) : List Pix :=
  let rows := s.corr.dies[Fin.ofNat 2 (l / 32)].rows
  (List.range 48).flatMap fun k =>
    match rows.find? fun r => r.row = k with
    | some r => ((r.out.drop (l % 32 * 64)).take 64).map pixOf
    | none => List.replicate 64 ⟨0, true, false⟩

/-- a and g of a pixel (R125): T_L/τ = L·250 ns / (500 + 25·TAU) µs. -/
def s1Coef (depth len tau : Nat) : Int × Int :=
  let e := expNeg len (4 * (500 + 25 * tau))
  let a := (2 * 65536 * (depth : Int) * e + 256 * 2 ^ 64) / (2 * 256 * 2 ^ 64)
  (a, rndDiv (2 ^ 32) (65536 - a).toNat)

/-- The TAU code of a site in the engine's copy for the line slot under way (R151). -/
def tauAt (k : Nat) (s : State) : Nat := (assoc s.corr.tauWas k).getD (entryAt k s).tau

/-- S1 of the engine (R125): outputs, and how many saturated. -/
def s1Slot (l : Fin 64) (s : State) : List Pix × Nat :=
  let depth := getF (F.algEngCfgDepth l) s
  let sh := getF (F.algEngCfgSh1 l) s
  let e := s.engines[l]
  let tbl := ((List.range 256).map fun t => s1Coef depth (slotLen s) t).toArray
  let x1 := e.x1.toArray
  let chg := e.changes.contains s.bands[Fin.ofNat 16 (l.val / 4)].slot
  let ys := (engineInput l s).zipIdx.map fun (x, i) =>
    let p := x1.getD i ⟨0, false, false⟩
    let tau := tauAt (siteKey (l.val / 32) (i / 64) (l.val % 32 * 64 + i % 64)) s
    let (a, g) := tbl.getD tau (0, 65536)
    let (v, sat) := rneSat (g * (x.v * 65536 - a * p.v)) (32 + sh) 24
    ((⟨v, x.taint || p.taint || chg, x.bad || p.bad⟩ : Pix), sat)
  (ys.map (·.1), ys.countP (·.2))

/-- Where row `k` reads for lap `m`: line slot i and the weight f of i + 1 in 1/256 (R126). -/
def lapTerm (m : Nat) (q : Int) (k : Nat) : Int × Nat :=
  let t : Int := (m : Int) * 65536 - (47 - k : Nat) * q
  let i := t / 65536
  let f := ((t % 65536).toNat + 128) / 256
  if f = 256 then (i + 1, 0) else (i, f)

/-- Lap `m` (R126, R136): `ys` holds the S1 outputs newest first, line slot `m` in front. -/
def lapLine (m : Nat) (q : Int) (sh : Nat) (changes : List Nat) (ys : List (List Pix)) : List (Pix × Bool) :=
  let ya := (ys.map (·.toArray)).toArray
  let terms := (List.range 48).map fun k => (k, lapTerm m q k)
  let first := (lapTerm m q 0).1
  let chg := changes.any fun c => decide (first < (c : Int)) && decide (c ≤ m)
  let at_ (i : Int) (k c : Nat) : Pix :=
    if i < 0 then ⟨0, false, false⟩ else (ya.getD ((m : Int) - i).toNat #[]).getD (64 * k + c) ⟨0, false, false⟩
  (List.range 64).map fun c =>
    let parts := terms.flatMap fun (k, i, f) => if f = 0 then [(at_ i k c, 256)] else [(at_ i k c, 256 - f), (at_ (i + 1) k c, f)]
    let (v, sat) := rneSat (parts.foldl (fun a p => a + p.1.v * (p.2 : Nat)) 0) (8 + sh) 24
    (⟨v, chg || parts.any (·.1.taint), parts.any (·.1.bad)⟩, sat)

/-- Is S2 line `m` WARM (R135)? -/
def lapWarm (e : Band) (m : Nat) : Bool :=
  match lapOf e m with
  | some l => decide ((m : Int) < max 48 ((65536 + 47 * l.q + 65535) / 65536))
  | none => false

/-! ### S3 and S4 (R127–R129) -/

/-- j and p of a position in 16 fraction bits (R127). -/
def posJP (pos : Int) : Int × Nat :=
  let j := pos / 65536
  let p := ((pos % 65536).toNat + 512) / 1024
  if p = 64 then (j + 1, 0) else (j, p)

/-- The S3 taps of a phase (R128, R131). -/
def s3Taps (e : Engine) (sel p : Nat) : List Int :=
  if sel = 4 then ((e.ram3.getD []).drop (8 * p)).take 8 else romTaps sel p

/-- Decimation and taps of an S4 response (Table 6.6). -/
def s4Taps (e : Engine) (sel : Nat) : Nat × List Int :=
  if sel ≤ 2 then (1, s4Smooth sel)
  else if sel = 3 then (2, [-512, 0, 4608, 8192, 4608, 0, -512])
  else if sel = 4 then (2, [8192, 8192])
  else if sel = 5 then (4, [4096, 4096, 4096, 4096])
  else e.ram4.getD (1, [16384])

/-- The position of S3 line `g` of a response of decimation `d` (R127, R129): `none` while it is not known. -/
def s3Pos (b : Band) (d : Nat) (even : Bool) (g : Nat) : Option Int :=
  match b.lines.find? fun l => l.n = g / d with
  | none => none
  | some l =>
    if g % d = 0 && !even then some l.pos
    else l.step.map fun st => (l.pos : Int) + (g % d) * (st / d : Nat) - (if even then (st / d / 2 : Nat) else 0)

/-- An S3 line: its pixels, WARM, and saturations (R127, R135, R136). -/
structure S3Line where
  pix : List Pix
  warm : Bool
  sats : Nat

/-- Make an S3 line from S2 lines up to `m` (`e.zs` newest first), once the last it reads has come. -/
def s3Line (b : Band) (e : Engine) (path : Path) (m : Nat) (pos : Int) : Option S3Line :=
  let (j, p) := posJP pos
  if (m : Int) < j + 4 then none
  else
    let taps := s3Taps e path.s3 p
    let zs : List (Array Pix) := (List.range 8).map fun i =>
      let k := j - 3 + (i : Int)
      if k < 0 then #[] else ((e.zs[((m : Int) - k).toNat]?).getD []).toArray
    let out := (List.range 64).map fun c =>
      let px := zs.map fun z => z.getD c ⟨0, false, false⟩
      let (v, sat) := rneSat (dotI taps (px.map (·.v))) (14 + path.sh3) 24
      ((⟨v, px.any (·.taint), px.any (·.bad)⟩ : Pix), sat)
    let warm := (List.range 8).any fun i => let k := j - 3 + (i : Int); decide (0 ≤ k) && lapWarm b k.toNat
    some { pix := out.map (·.1), warm := warm, sats := out.countP (·.2) }

/-- Product line `n` on one path: pixels, WARM and saturations, once its support is complete (R129, R135, R136).  `fresh` says
that the path makes its first product line; else its S3 lines up to the support of product line `n` - 1 are made and
counted already (R124). -/
def pathLine (b : Band) (e : Engine) (path : Path) (fresh : Bool) (m n : Nat) : Option (List Pix × Bool × Nat) :=
  let (d, taps) := s4Taps e path.s4
  let len := taps.length
  let even := len % 2 = 0
  let first : Int := (n * d : Nat) - (if even then (len / 2 - 1 : Nat) else (len / 2 : Nat))
  let last := n * d + len / 2
  let line (g : Nat) : Option S3Line := (s3Pos b d even g).bind (s3Line b e path m)
  let lines := (List.range len).map fun i =>
    let g := first + (i : Int)
    if g < 0 then some ({ pix := [], warm := false, sats := 0 } : S3Line) else line g.toNat
  let from_ := if fresh then first.toNat else last + 1 - d
  let sats := ((List.range (last + 1 - from_)).map fun i => ((line (from_ + i)).map (·.sats)).getD 0).sum
  if lines.any (·.isNone) then none
  else
    let ls := lines.filterMap id
    let arrs := ls.map (·.pix.toArray)
    let out := (List.range 64).map fun c =>
      let px := arrs.map fun z => z.getD c ⟨0, false, false⟩
      let (v, sat) := rneSat (dotI taps (px.map (·.v))) (14 + path.sh4) 24
      ((⟨v, px.any (·.taint), px.any (·.bad)⟩ : Pix), sat)
    some (out.map (·.1), ls.any (·.warm), out.countP (·.2) + sats)

/-- A product value of a fade line (R138). -/
def fadePix (len i : Nat) (a b : Pix) : Pix :=
  ⟨(rneSat (((len - 1 - i : Nat) : Int) * a.v + ((i + 1 : Nat) : Int) * b.v) len.log2 24).1, a.taint || b.taint, a.bad || b.bad⟩

/-- The engine's next part, with saturations, once complete (R138, R165); WARM, once clear, stays clear (R135). -/
def nextPart (b : Band) (e : Engine) (m : Nat) : Option (Part × Nat) :=
  match pathLine b e e.path (e.next = 0) m e.next with
  | none => none
  | some (old, w, k) =>
    match e.fade with
    | none => some ({ n := e.next, pix := old, warm := w && !e.clear }, k)
    | some f =>
      match pathLine b e f.dest (f.i = 0) m e.next with
      | none => none
      | some (new, w', k') =>
        some ({ n := e.next, pix := List.zipWith (fadePix f.len f.i) old new, warm := (w || w') && !e.clear }, k + k')

/-! ### Detectors and handover over a product line -/

/-- The detector settings take effect at a product line, and the blocks restart (R123); PRESENT compares the envelope with the
new levels (R141). -/
def takeDet (l : Fin 64) (s : State) : State :=
  match s.engines[l].nextDet with
  | none => s
  | some (c, d) =>
    let s := (s.setWord (F.algEngDet l) c).setWord (F.algEngPres l) d
    showPresent l (modEng l (fun e => { e with nextDet := none, blockN := 0, blockPeak := 0, blockSum := 0 }) s)

/-- The detectors over a product line with largest value `m` (R140, R141). -/
def detect (l : Fin 64) (n m : Nat) (s : State) : State :=
  let ev := getF (F.algEngEnvValue l) s
  let coef := if ev < m then getF (F.algEngDetAttack l) s else getF (F.algEngDetDecay l) s
  let s := showPresent l (setF (F.algEngEnvValue l) ((ev : Int) + rneShift coef ((m : Int) - ev)).toNat s)
  let e := s.engines[l]
  let k := e.blockN + 1
  let peak := max e.blockPeak m
  let sum := e.blockSum + m * m
  let full := 2 ^ getF (F.algEngDetRmsN l) s
  if k < full then modEng l (fun e => { e with blockN := k, blockPeak := peak, blockSum := sum }) s
  else
    let rms := isqrt (sum / full)
    let s := setF (F.algEngPeakValue l) peak (setF (F.algEngRmsValue l) rms s)
    let s := modEng l (fun e => { e with blockN := 0, blockPeak := 0, blockSum := 0 }) s
    let r := [BitVec.ofNat 32 (l * 2 ^ 24 + n % 2 ^ 24), BitVec.ofNat 32 (2 ^ 31 + peak), BitVec.ofNat 32 rms,
      BitVec.ofNat 32 (getF (F.algEngStatePresent l) s * 2 ^ 31 + getF (F.algEngEnvValue l) s)]
    if s.fused.det.length < 256 then { s with fused := { s.fused with det := s.fused.det ++ [r] } } else s

/-- A fade line is done; after the last the target is active and the held request starts (R137, R138). -/
def fadeStep (l : Fin 64) (s : State) : State :=
  match s.engines[l].fade with
  | none => s
  | some f =>
    let s := modEng l (fun e =>
      if f.i + 1 < f.len then { e with fade := some { f with i := f.i + 1 } }
      else { e with path := f.dest, fade := e.held.map fun h => { dest := h.dest, len := h.fade, i := 0 }, held := none }) s
    showSwap l (showPath l s)

/-- Count saturated stage results (R124). -/
def countSat (l : Fin 64) (n : Nat) (s : State) : State :=
  if n = 0 then s
  else raiseLim 0x1104 2 l 0 (setF F.algFaultSaturation 1 (bumpBy F.algSatSatCount n s))

/-- The engine completes the parts it can (R165): flags, detectors and handover follow each. -/
def makeParts (l : Fin 64) (m : Nat) : Nat → State → State
  | 0, s => s
  | k + 1, s =>
    let b := s.bands[Fin.ofNat 16 (l.val / 4)]
    match nextPart b s.engines[l] m with
    | none => s
    | some (p, sats) =>
      let s := countSat l sats (takeDet l s)
      let s := modEng l (fun e => { e with next := e.next + 1, parts := e.parts ++ [p], clear := e.clear || !p.warm }) s
      let s := setF (F.algEngStateWarm l) (b2n p.warm) s
      let s := if p.pix.any (·.taint) then bump (F.algEngTaintLinesTaintLines l) s else s
      let clean := p.pix.filter fun x => !x.taint && !x.bad
      let s := if p.warm || clean.isEmpty then s
        else detect l p.n ((clean.map fun x => x.v.natAbs).foldl max 0) s
      makeParts l m k (fadeStep l s)

/-- S1 and S2 of an engine over the line slot that ends (R125, R126). -/
def engineSlot (l : Fin 64) (s : State) : State :=
  let b := s.bands[Fin.ofNat 16 (l.val / 4)]
  let m := b.slot
  let x := engineInput l s
  let (ys, k1) := s1Slot l s
  let e := s.engines[l]
  let all := (ys :: e.ys).take 65
  let q := ((lapOf b m).map (·.q)).getD 0
  let z := lapLine m q (getF (F.algEngCfgSh2 l) s) e.changes all
  countSat l (k1 + z.countP (·.2)) (modEng l (fun e => { e with
    x1 := x
    ys := all
    zs := (z.map (·.1) :: e.zs).take 192
    changes := e.changes.filter fun c => decide (m < c + 80) }) s)

/-! ### Product lines of a band (R127, R130, R165) -/

/-- Decimation, and whether the length is even, of every S4 response in use in the band (R165). -/
def bandS4 (b : Fin 16) (s : State) : List (Nat × Bool) :=
  (bandEngines b).flatMap fun l =>
    let e := s.engines[l]
    (e.path :: (e.fade.map (·.dest)).toList).map fun p =>
      let (d, taps) := s4Taps e p.s4
      (d, taps.length % 2 = 0)

/-- The place of the last S3 line of a product line at `pos` under step `st` (R127, R129); the offset of a response of even
length is the model's reading (DEDUCED, assumption 52). -/
def lastS3 (pos st : Nat) (r : Nat × Bool) : Int :=
  (pos : Int) + ((r.1 - 1) * (st / r.1) : Nat) - (if r.2 then (st / r.1 / 2 : Nat) else 0)

/-- The step for the newest product line, from the velocity published at the start of the line slot in which S3 makes the last
S3 line of it (R24, R127).  DESIGN CHOICE: where the engines of a band hold responses of different D and length, the latest of
their last S3 lines, of fade targets too, decides, since the step is the band's (R165); assumption 128. -/
def placeLine (b : Fin 16) (s : State) : State :=
  let e := s.bands[b]
  match e.lines with
  | l :: _ =>
    let v := getF (F.velBandVelocity b) s
    let raw := rndRat ((65536 * 40000 * gridPitch s : Nat) / ((v * slotLen s : Nat) : Rat))
    let st := (clampI 81920 1048576 raw).toNat
    if l.step.isNone && (bandS4 b s).all fun r => decide ((posJP (lastS3 l.pos st r)).1 + 4 ≤ (e.slot : Int)) then
      let s := if raw < 81920 then bump F.algStepHeldStepHeld s
        else if 1048576 < raw then raiseLim 0x1106 2 (4 * b.val) 0 (bump F.algStepCappedStepCapped s) else s
      modBand b (fun e => { e with
        lines := (⟨l.n + 1, l.pos + st, v, none⟩ :: e.lines.map fun x => if x.n = l.n then { x with step := some st } else x).take 128 }) s
    else s
  | [] => s

/-- Every step that the line slot allows. -/
def placeLines (b : Fin 16) : Nat → State → State
  | 0, s => s
  | k + 1, s => placeLines b k (placeLine b s)

/-- The view-line time of a product line at a position (R130). DESIGN CHOICE: it is rounded to whole ns, halves up, and T_L is
the line-slot length at completion even where it changed after line slot j; R130 gives neither; assumption 129. -/
def viewTime (e : Band) (pos : Nat) (s : State) : Int :=
  let (j, p) := posJP pos
  let tl : Rat := (slotLen s * 250 : Nat)
  let ts : Rat := (nth 0 s.grid.stamps (e.slot - j.toNat) : Nat)
  let back : Rat := match lapOf e j.toNat with
    | some l => 47 / 2 * tl * l.den / l.num
    | none => 0
  rndRat (ts + (p : Rat) / 64 * tl + 94000 - back)

/-- A product pixel of the thermal channel (R171). -/
def thermalWord (warm : Bool) (x : Pix) : Word :=
  BitVec.ofNat 32 (b2n x.bad * 2 ^ 26 + b2n x.taint * 2 ^ 25 + b2n warm * 2 ^ 24 + enc 24 x.v)

/-- The band completes the product lines whose parts are all there (R165). -/
def completeLines (b : Fin 16) : Nat → State → State
  | 0, s => s
  | k + 1, s =>
    let e := s.bands[b]
    let parts := (bandEngines b).map fun l => s.engines[l].parts.find? fun p => p.n = e.next
    match e.lines.find? fun l => l.n = e.next with
    | none => s
    | some pl =>
      if parts.any (·.isNone) then s
      else
        let ps := parts.filterMap id
        let warm := ps.any (·.warm)
        let view := viewTime e pl.pos s
        let line : BLine :=
          { n := e.next, warm := warm, blind := false, vel := pl.vel, view := view
            bound := nth 0 s.grid.stamps 0 + 1300000
            pix := ps.flatMap fun p => p.pix.map (thermalWord warm) }
        let s := (bandEngines b).foldl (fun s l => modEng l (fun g => { g with parts := g.parts.filter fun p => p.n ≠ e.next }) s) s
        completeLines b k (modBand b (fun e => { e with
          next := e.next + 1, done := e.done ++ [line], last := (line.n, line.view) }) s)

/-! ### Velocity estimator (R161–R164) -/

/-- The bands whose columns an estimator uses (R162): the joined pair, whose columns count where they are valid (R161), but
for a band whose pacer has stopped. -/
def estBands (b : Nat) (s : State) : List Nat :=
  if flag (F.velBandJoined b) s then [7, 8].filter fun k => pacing (bandFd k) s else [b]

/-- The band whose line slots time an estimate: of those it reads, the first that holds the lag's rows. -/
def estLead (b : Nat) (s : State) : Nat :=
  ((estBands b s).find? fun k => decide (getF F.corVcfgLag s + 1 < s.bands[Fin.ofNat 16 k].xs.length)).getD b

/-- Sums over the valid columns of a row pair: count, Σx, Σy, Σx², Σy², Σxy. -/
structure PairSums where
  n : Int
  x : Int
  y : Int
  xx : Int
  yy : Int
  xy : Int

/-- Is a corrected word valid (R161)? -/
def wordValid (w : Word) : Bool := bits w 27 24 = 0

/-- The sums of row r of line slot n against row r2 of line slot n + m over the bands' columns (R161, R162). -/
def pairSums (bs : List Nat) (lag r r2 : Nat) (s : State) : PairSums :=
  let ov := getF F.corGridOverlap s
  bs.foldl (fun a b =>
    let e := s.bands[Fin.ofNat 16 b]
    let xs := nth [] (nth ([], 0) e.xs lag).1 r
    let ys := nth [] (nth ([], 0) e.xs 0).1 r2
    ((xs.zip ys).zipIdx).foldl (fun a p =>
      let c := bandCol b + p.2
      let skip := b = 8 && flag (F.velBandJoined 8) s && decide (c < ov)
      let excl (row : Nat) : Bool := (entryAt (siteKey (bandFd b) row c) s).velExcl
      if skip || !wordValid p.1.1 || !wordValid p.1.2 || excl r || excl r2 then a
      else
        let x := dec 24 (bits p.1.1 23 0)
        let y := dec 24 (bits p.1.2 23 0)
        { n := a.n + 1, x := a.x + x, y := a.y + y, xx := a.xx + x * x, yy := a.yy + y * y, xy := a.xy + x * y }) a)
    { n := 0, x := 0, y := 0, xx := 0, yy := 0, xy := 0 }

/-- Σa·a, Σb·b, Σa·b of a pair about its means. -/
def aa (p : PairSums) : Rat := if p.n = 0 then 0 else p.xx - (p.x * p.x : Rat) / p.n
def bb (p : PairSums) : Rat := if p.n = 0 then 0 else p.yy - (p.y * p.y : Rat) / p.n
def ab (p : PairSums) : Rat := if p.n = 0 then 0 else p.xy - (p.x * p.y : Rat) / p.n

/-- Sum of rationals. -/
def sumR (xs : List Rat) : Rat := xs.foldl (· + ·) 0

/-- An estimate: whether it is valid, kk in 1/256 row where it was formed, v in 0.1 mm/s, and conf (R163). -/
structure Estimate where
  valid : Bool
  kk : Option Int
  v : Int
  conf : Nat

/-- The estimate of a band after a line slot (R163). -/
def estimate (b : Nat) (s : State) : Estimate :=
  let bs := estBands b s
  let lag := getF F.corVcfgLag s + 1
  let pairs := (List.range 9).map fun k => (List.range 32).map fun i => pairSums bs lag (8 + i) (8 + i + k) s
  let qs := pairs.map fun ps => sumR (ps.map aa) * sumR (ps.map bb)
  let cc := (pairs.zip qs).map fun (ps, q) => if q = 0 then (0 : Rat) else sumR (ps.map ab) / ratSqrt q
  let p0 := nth [] pairs 0
  let var := sumR (p0.map fun p => if p.n = 0 then 0 else aa p / p.n) / 32
  let ks := ((List.range 9).drop 1).foldl (fun best k => if nth 0 cc best < nth 0 cc k then k else best) 1
  let den : Rat := nth 0 cc (ks - 1) - 2 * nth 0 cc ks + nth 0 cc (ks + 1)
  if ks = 8 || decide (0 ≤ den) then { valid := false, kk := none, v := 0, conf := 0 }
  else
    let delta := (nth 0 cc (ks - 1) - nth 0 cc (ks + 1)) / (2 * den)
    let kk := rndRat ((ks + delta) * 256)
    let e := s.bands[Fin.ofNat 16 (estLead b s)]
    let lens := (((e.xs.drop 1).take lag).map (·.2)).sum
    let v := if kk ≤ 0 then 0 else
      rndRat ((kk : Rat) / 256 * rowPitch s * 10000000 / (250 * (lens : Rat) + 2000 * ((kk : Rat) / 256)))
    let bad := (pairs.any fun ps => ps.any fun p => decide (p.n < 64)) || (qs.any fun q => q = 0) ||
      decide (var < (getF F.corVarMinVarMin s : Rat)) || decide (v < 500) || decide (65535 < v)
    let conf := (clampI 0 255 (rndRat (255 * nth 0 cc ks))).toNat
    { valid := !bad, kk := some kk, v := v, conf := if bad then 0 else conf }

/-- Table 7.4: the band's state after an estimate. DESIGN CHOICE: the bands of the joined pair take the same estimate, each
into its own state and velocity, which can differ after one of them alone entered zero state (R162 says only that both use the
result; assumption 130). -/
def takeEstimate (b : Nat) (x : Estimate) (s : State) : State :=
  let good := x.valid && decide (getF F.corVcfgConfMin s ≤ x.conf)
  let st := getF (F.velBandState b) s
  let s := setF (F.velBandConf b) x.conf s
  let s := match x.kk with
    | some k => setF (F.velBandShiftKk b) (enc 16 k) s
    | none => s
  let s := if good then s else bump (F.velBandLowconfLowconf b) s
  if good then
    let vs : Int := getF (F.velBandVelocity b) s
    let new := if st = 2 then x.v else vs + rneShift (getF F.corVcfgSmooth s) (x.v - vs)
    let s := setF (F.velBandVelocity b) (clampI 0 65535 new).toNat
      (setF (F.velBandShiftHoldLines b) 0 (setF (F.velBandState b) 0 s))
    if st = 2 then raiseLim 0x1211 3 b 0 s else s
  else if st = 2 then s
  else
    let h := if st = 0 then 1 else getF (F.velBandShiftHoldLines b) s + 1
    if 65 ≤ h then velDefault b s else setF (F.velBandShiftHoldLines b) h (setF (F.velBandState b) 1 s)

/-- The estimator of a band after a line slot, on the stream die that corrects its columns, whether the band is blind or not:
a line slot spent in DEFAULT counts, and an estimate forms once the lag is covered (R163, R164). -/
def estimatorSlot (b : Fin 16) (s : State) : State :=
  let lag := getF F.corVcfgLag s + 1
  let s := if getF (F.velBandState b) s = 2 then bump (F.velBandDefaultCountDefaultCount b) s else s
  if decide (lag < s.bands[Fin.ofNat 16 (estLead b s)].xs.length) then takeEstimate b (estimate b s) s else s

/-- In DEFAULT the band publishes V_DEF (Table 7.4). -/
def publishDefault (b : Nat) (s : State) : State :=
  if getF (F.velBandState b) s = 2 then setF (F.velBandVelocity b) (getF F.corVcfgVDef s) s else s

/-- The corrected rows of a band's columns in the line slot, kept for the estimator with the slot's length. -/
def keepRows (b : Fin 16) (s : State) : State :=
  let rows := s.corr.dies[bandFd b].rows
  let xs := (List.range 48).map fun k =>
    match rows.find? fun r => r.row = k with
    | some r => (r.out.drop (bandCol b)).take 256
    | none => List.replicate 256 0x2000000
  modBand b (fun e => { e with xs := ((xs, slotLen s) :: e.xs).take 5 }) s

end Sys2Proof.Machine
end

