-- ==== Sys2Proof/Machine/Fused.lean ====
section
/-!
DEFINITION. The product-line assembler: blind lines (R168, R169), the fused line (R166, R167, R170–R172), the camera
channels (R173, R174, R218, R219) and the FUSED ring (R240).
-/

namespace Sys2Proof.Machine

/-! ### Blind lines (R168, R169) -/

/-- A placeholder pixel (R171). -/
def dropPixel : Word := 0x08000000

/-- s_DEF in line slots, held within 1.25 to 16 (R168). -/
def blindStep (s : State) : Rat :=
  max (5 / 4) (min 16 ((40000 * gridPitch s : Nat) / ((getF F.corVcfgVDef s * slotLen s : Nat) : Rat)))

/-- The view-line time of a blind line (R168), rounded to ns. DESIGN CHOICE: where fewer than five line slots have started
since the synchronising reset, TS(j − 4) is taken four line-slot lengths before the newest stamp; assumption 131. -/
def blindView (s : State) : Int :=
  let ts : Rat :=
    match s.grid.stamps.drop 4 with
    | t :: _ => (t : Rat)
    | [] => (nth 0 s.grid.stamps 0 : Rat) - 1000 * (slotLen s : Rat)
  rndRat (ts + 94000 - 235000000 * (rowPitch s : Rat) / (getF F.corVcfgVDef s : Rat))

/-- Send a line notice to every present actuator die that runs and can be reached (R297). -/
def sendNotice (src : Nat) (n : Notice) (s : State) : State :=
  (List.finRange 2).foldl (fun s d =>
    if adUp d s && reach src (6 + d) s then modEjt d (fun e => { e with coming := e.coming ++ [n] }) s else s) s

/-- The notice of a line, carried by fused line `fused` if any; its number has 24 bits (Table 7.7). -/
def noticeOf (fused : Option Nat) (b : Nat) (l : BLine) : Notice :=
  { fused := fused, band := b, n := l.n % 2 ^ 24, warm := l.warm, blind := l.blind, view := l.view, bound := l.bound }

/-- A blind band over the line slot that ends: its position advances, and a blind line completes where it reaches the next
multiple of s_DEF (R168); without the assembler's die the hub sends its notice (R169). -/
def blindSlot (b : Fin 16) (s : State) : State :=
  match s.bands[b].blind with
  | none => modBand b (fun e => { e with blind := some 0 }) s
  | some x =>
    let s := modBand b (fun e => { e with blind := some (x + 1) }) s
    let st := blindStep s
    if (((x + 1 : Nat) : Rat) / st).floor ≤ ((x : Rat) / st).floor then s
    else
      let e := s.bands[b]
      let l : BLine :=
        { n := e.next, warm := false, blind := true, vel := getF F.corVcfgVDef s, view := blindView s
          bound := nth 0 s.grid.stamps 0 + 1300000, pix := List.replicate 256 dropPixel }
      let s := modBand b (fun e => { e with next := e.next + 1, last := (l.n, l.view) }) (bump F.stcBlindLinesBlindLines s)
      if dieUp (asmDie s.opt) s then modBand b (fun e => { e with done := e.done ++ [l] }) s
      else sendNotice 0 (noticeOf none b.val l) s

/-! ### The fused line (R166, R170–R172) -/

/-- Pixel of a device column from the bands' lines. -/
def devPixel (bands : List (Option BLine)) (c : Nat) : Word :=
  match nth none bands (c / 256) with
  | some l => nth dropPixel l.pix (c % 256)
  | none => dropPixel

/-- The blend of two overlapping columns (Table 7.5). -/
def blend (o i : Nat) (a b : Word) : Word :=
  if bit a 27 && bit b 27 then dropPixel
  else if bit a 27 then b
  else if bit b 27 then a
  else
    let v := rneDiv (((2 * o - 2 * i - 1 : Nat) : Int) * dec 24 (bits a 23 0) + ((2 * i + 1 : Nat) : Int) * dec 24 (bits b 23 0)) (2 * o)
    BitVec.ofNat 32 (bits (a ||| b) 26 24 * 2 ^ 24 + enc 24 v)

/-- Stitched columns of the option. -/
def columns (opt : Opt) : Nat := engCount opt * 64

/-- The thermal pixels in stitched order (R170). -/
def stitch (opt : Opt) (o : Nat) (bands : List (Option BLine)) : List Word :=
  (List.range (columns opt)).map fun c =>
    if o = 0 then devPixel bands c
    else if c < 2048 - o then devPixel bands c
    else if c < 2048 then blend o (c + o - 2048) (devPixel bands c) (devPixel bands (c + o))
    else if c < 4096 - o then devPixel bands (c + o)
    else dropPixel

/-- The device column behind a stitched column, from which the camera channels take the band (R174, R218). -/
def stitchedSource (opt : Opt) (o : Nat) (bands : List (Option BLine)) (c : Nat) : Option Nat :=
  if opt = .zt4 || o = 0 then some c
  else if c < 2048 - o then some c
  else if c < 2048 then (if bit (devPixel bands c) 27 then some (c + o) else some c)
  else if c < 4096 - o then some (c + o) else none

/-- The header words of a band (Table 7.7). DESIGN CHOICE: a placeholder, for which R172 gives a number and a view time,
carries the velocity that the band publishes now; assumption 132. -/
def bandHead (b : Nat) (l : Option BLine) (s : State) : List Word :=
  let e := s.bands[Fin.ofNat 16 b]
  let conf := getF (F.velBandConf b) s
  let st := getF (F.velBandState b) s
  let (w0, n, v, t) : Nat × Nat × Nat × Int := match l with
    | some l => (2 ^ 31 + b2n l.warm * 2 ^ 30 + b2n l.blind * 2 ^ 29, l.n, l.vel, l.view)
    | none => (0, e.last.1, getF (F.velBandVelocity b) s, e.last.2)
  let (conf, st) := if l.any (·.blind) then (0, 2) else (conf, st)
  let t := enc 64 t
  [BitVec.ofNat 32 (w0 + n % 2 ^ 24), BitVec.ofNat 32 (v * 2 ^ 16 + conf * 2 ^ 8 + st * 2 ^ 6), BitVec.ofNat 32 t,
    BitVec.ofNat 32 (t / 2 ^ 32)]

/-- At the end of a line slot one fused line is made where a band holds a line not yet carried (R166); without the
assembler's die only its number advances (R169). -/
def makeFused (blindLine : Bool) (s : State) : State :=
  let nb := bandCount s.opt
  let next (s : State) : State := { s with fused := { s.fused with next := (s.fused.next + 1) % 2 ^ 32 } }
  if !dieUp (asmDie s.opt) s then (if blindLine then next s else s)
  else
    let bands := (List.range nb).map fun b => s.bands[Fin.ofNat 16 b].done.head?
    if bands.all (·.isNone) then s
    else
      let ts := nth 0 s.grid.stamps 0
      let head := [BitVec.ofNat 32 s.fused.next, BitVec.ofNat 32 (s.grid.line % 2 ^ 24), BitVec.ofNat 32 ts,
        BitVec.ofNat 32 (ts / 2 ^ 32)] ++ (bands.zipIdx.flatMap fun x => bandHead x.2 x.1 s)
      let w : FusedWait :=
        { num := s.fused.next, line := s.grid.line, stamp := ts, bands := bands, head := head
          thermal := stitch s.opt (getF F.corGridOverlap s) bands, since := s.periph, late := [] }
      let s := (List.range nb).foldl (fun s b => modBand (Fin.ofNat 16 b) (fun e => { e with done := e.done.drop 1 }) s) s
      next { s with fused := { s.fused with waiting := s.fused.waiting ++ [w] } }

/-! ### Camera channels (R173, R174, R218, R219) -/

/-- Vc of a product line (R218), in ns. -/
def camTime (p : Fin 2) (l : BLine) (s : State) : Rat :=
  l.view + (dec 16 (bits (camCfg p 4 s) 31 16) : Rat) * 100000000 / (max 1 l.vel : Nat)

/-- Camera line i and phase p for a time (R218): i is -8 before the first line, and `none` while the line after i has no
trigger yet. -/
def camSpot (p : Fin 2) (vc : Rat) (s : State) : Option (Int × Nat) :=
  let ts := s.cam.ports[p].trigs
  match ts.find? fun x => decide ((x.lt : Rat) ≤ vc) with
  | none => if ts.isEmpty then none else some (-8, 0)
  | some x =>
    match ts.find? fun y => y.num = x.num + 1 with
    | none => none
    | some y =>
      let ph := (rndRat (64 * (vc - x.lt) / ((y.lt : Rat) - x.lt))).toNat
      if 64 ≤ ph then some ((x.num : Int) + 1, 0) else some ((x.num : Int), ph)

/-- Where the newest trigger stands for a time beyond it, once the wait has ended. -/
def lateSpot (p : Fin 2) (s : State) : Int × Nat :=
  match s.cam.ports[p].trigs with
  | x :: _ => ((x.num : Int), 0)
  | [] => (-8, 0)

/-- The map entry of a stitched column; after power-on every entry has VALID = 0 (R174). -/
def regEntry (p : Fin 2) (c : Nat) (s : State) : Word := nth 0 s.fused.regMap[p] c

/-- The bands whose columns the port's map reads and which carry a seen line. -/
def camBands (p : Fin 2) (w : FusedWait) (s : State) : List (Nat × BLine) :=
  let o := getF F.corGridOverlap s
  let read := ((List.range (columns s.opt)).filterMap fun c =>
    if bit (regEntry p c s) 7 then (stitchedSource s.opt o w.bands c).map (· / 256) else none).dedup
  (w.bands.zipIdx).filterMap fun x =>
    match x.1 with
    | some l => if l.blind || !read.contains x.2 then none else some (x.2, l)
    | none => none

/-- Is the port's part of the fused line to come from camera lines: enabled, some channel on, its die up? -/
def camLive (p : Fin 2) (s : State) : Bool :=
  camEn p s && dieUp (camDie s.opt p) s && bits (camCfg p 0 s) 21 18 ≠ 0

/-- The camera lines a product line needs. -/
def camNeeds (i : Int) : List Nat := (List.range 8).filterMap fun k => let n := i - 3 + (k : Int); if n < 0 then none else some n.toNat

/-- Has the port every camera line the fused line needs, or has its wait ended (R219)? -/
def camReady (p : Fin 2) (w : FusedWait) (s : State) : Bool :=
  !camLive p s || (w.late.any fun x => x.1 = p) ||
    (camBands p w s).all fun x =>
      match camSpot p (camTime p x.2 s) s with
      | none => false
      | some (i, _) => (camNeeds i).all fun n => s.cam.ports[p].outs.any fun o => o.num = n

/-- A camera pixel of a product line: value, TAINT, DROP (R218). -/
def camPixel (p : Fin 2) (spot : Int × Nat) (ch x : Nat) (s : State) : Int × Bool × Bool :=
  let taps := romTaps (bits (camCfg p 0 s) 17 16) spot.2
  let terms := taps.zipIdx.map fun h =>
    let n := spot.1 - 3 + (h.2 : Int)
    if n < 0 then (h.1, (0 : Int), false, false)
    else match s.cam.ports[p].outs.find? fun o => o.num = n.toNat with
      | some o => (h.1, nth 0 (nth [] o.chans ch) x, nth true o.pads x || o.empty, o.empty)
      | none => (h.1, 0, true, true)
  let live := terms.filter fun t => t.1 ≠ 0
  ((rneSat (terms.foldl (fun a t => a + t.1 * t.2.1) 0) 14 24).1, live.any (·.2.2.1), live.all (·.2.2.2))

/-- A product pixel of a camera channel (R171, R173, R218). -/
def camWord (p : Fin 2) (ch : Nat) (spot : Int × Nat) (warm : Bool) (entry : Word) (s : State) : Word :=
  let top := (ch + 1) * 2 ^ 28
  let x := bits entry 31 16
  let f := bits entry 15 8
  let (a, ta, da) := camPixel p spot ch x s
  let (b, tb, _) := camPixel p spot ch (x + 1) s
  BitVec.ofNat 32 (top + b2n da * 2 ^ 27 + b2n (ta || (f ≠ 0 && tb)) * 2 ^ 25 + b2n (warm || decide (spot.1 < 3)) * 2 ^ 24 +
    (if da then 0 else enc 24 (rneShift 8 ((256 - f : Nat) * a + f * b))))

/-- The camera line and phase that each band's line takes (R218). -/
def camSpots (p : Fin 2) (w : FusedWait) (s : State) : List (Option (Int × Nat)) :=
  w.bands.map fun l => l.map fun l => (camSpot p (camTime p l s) s).getD (lateSpot p s)

/-- The pixels of a camera channel in stitched order (R173, R174). -/
def camChannel (p : Fin 2) (ch : Nat) (w : FusedWait) (s : State) : List Word :=
  let o := getF F.corGridOverlap s
  let drop : Word := BitVec.ofNat 32 ((ch + 1) * 2 ^ 28 + 2 ^ 27)
  let spots := ((w.late.find? fun x => x.1 = p).map (·.2)).getD (camSpots p w s)
  (List.range (columns s.opt)).map fun c =>
    let e := regEntry p c s
    match stitchedSource s.opt o w.bands c with
    | none => drop
    | some dev =>
      match nth none w.bands (dev / 256), nth none spots (dev / 256) with
      | some l, some sp => if l.blind || !bit e 7 || !camLive p s then drop else camWord p ch sp l.warm e s
      | _, _ => drop

/-- CH_EN of a port for the assembler: that in force, or while the port's die is in die reset that in force before it (R212),
but for channels that the other port has taken since. -/
def channelsOn (p : Fin 2) (s : State) : Nat :=
  if dieUp (camDie s.opt p) s then bits (camCfg p 0 s) 21 18
  else s.cam.heldCh[p] - (s.cam.heldCh[p] &&& bits (camCfg (1 - p) 0 s) 21 18)

/-- The enabled channels in ascending CHANNEL order with their port (R172, R205). -/
def enabledChannels (s : State) : List (Nat × Fin 2) :=
  (List.range 4).flatMap fun ch => (List.finRange 2).filterMap fun p => if (channelsOn p s).testBit ch then some (ch, p) else none

/-- The words of a fused line (R172). -/
def fusedWords (w : FusedWait) (s : State) : List Word :=
  let chs := enabledChannels s
  let present := (chs.map fun c => 2 ^ (c.1 + 1)).sum + 1
  let head := w.head.zipIdx.map fun x => if x.2 = 1 then x.1 ||| BitVec.ofNat 32 (present * 2 ^ 24) else x.1
  head ++ w.thermal ++ chs.flatMap fun c => camChannel c.2 c.1 w s

/-- CH_EN and the column maps that wait take effect at a fused line (R174, R206). -/
def takeMaps (s : State) : State :=
  let s := camFusedLine 1 (camFusedLine 0 s)
  { s with fused := { s.fused with
      regMap := Vector.ofFn fun p => (s.fused.regNext[p]).getD s.fused.regMap[p]
      regNext := Vector.replicate 2 none } }

/-- The oldest fused line waits for port `p` no longer: the camera lines still needed are late, and the port's channels complete
(R219). -/
def endCamWait (p : Fin 2) (s : State) : State :=
  match s.fused.waiting with
  | [] => s
  | w :: rest =>
    let s' := takeMaps s
    if camReady p w s' then s
    else
      let spots := camSpots p w s'
      let need := (camBands p w s').flatMap fun x => camNeeds ((nth none spots x.1).getD (0, 0)).1
      let s := if need.isEmpty then s else flushLines p (need.foldl max 0) s
      { s with fused := { s.fused with waiting := { w with late := (p, spots) :: w.late } :: rest } }

/-- The camera wait of a port ends (R219). -/
def execCamWaitEnd (p : Fin 2) (s : State) : Host.Outcome State Fault Refusal :=
  .next (
    match s.fused.waiting with
    | [] => s
    | w :: _ =>
      if !working s || decide (s.periph < w.since + 100 * bits (camCfg p 1 s) 27 20) then s else endCamWait p s)

/-! ### The ring (R240, R258, R297) -/

/-- The held line that a FUSED address names (R240): after a synchronising reset the newest of its number (DESIGN CHOICE,
assumption 117). -/
def fusedAt (x : Xfer) (s : State) : Option FusedLine :=
  s.fused.ring.reverse.find? fun l => l.num % 32768 = x.addr / 131072 % 32768

/-- Is the line being read by a transfer that has begun and not ended? -/
def lineRead (l : FusedLine) (s : State) : Bool :=
  s.xfers.any fun x => x.ep = 0x28 && x.code = some 0 && fusedAt x s = some l

/-- Take the `n` oldest lines that no transfer reads out of the ring: what stays, and what goes. -/
def evict (reads : FusedLine → Bool) : Nat → List FusedLine → List FusedLine × List FusedLine
  | 0, xs => (xs, [])
  | _, [] => ([], [])
  | n + 1, x :: t =>
    if reads x then ((x :: (evict reads (n + 1) t).1), (evict reads (n + 1) t).2)
    else ((evict reads n t).1, x :: (evict reads n t).2)

/-- A new line enters the ring; the oldest held goes, but for lines a transfer reads, and one unread counts (R240). -/
def enterRing (l : FusedLine) (s : State) : State :=
  let r := evict (fun x => lineRead x s) (s.fused.ring.length - 7) s.fused.ring
  bumpBy F.stcFusedOverrun (r.2.countP fun x => !x.read) { s with fused := { s.fused with ring := r.1 ++ [l] } }

/-- The oldest fused line leaves: CH_EN and the maps that wait take effect with it, it enters the ring, and its bands' notices set
out (R172, R174, R240, R297). -/
def fusedLeaves (s : State) : State :=
  match s.fused.waiting with
  | [] => s
  | w :: rest =>
    let s := takeMaps s
    let words := fusedWords w s
    let s := enterRing { num := w.num, words := words, read := false } { s with fused := { s.fused with waiting := rest } }
    let s := setF F.corFusedLine w.num s
    let lines := w.bands.zipIdx.filterMap fun x => x.1.map fun l => (x.2, l)
    let entries := lines.map fun x => ({ band := x.1, n := x.2.n % 2 ^ 24, at_ := s.periph } : LineEntry)
    let old := s.fused.entries.filter fun e => !(entries.any fun x => x.band = e.band && x.n = e.n)
    let s := { s with fused := { s.fused with entries := old ++ entries } }
    lines.foldl (fun s x => sendNotice (asmDie s.opt) (noticeOf (some w.num) x.1 x.2) s) s

/-- The oldest fused line leaves once every port has completed it (R167, R219). -/
def execFusedLineEntry (s : State) : Host.Outcome State Fault Refusal :=
  .next (
    match s.fused.waiting with
    | [] => s
    | w :: _ =>
      let s' := takeMaps s
      if working s && dieUp (asmDie s.opt) s && camReady 0 w s' && camReady 1 w s' then fusedLeaves s else s)

/-- At the internal reset edge the fused lines that still wait for camera lines leave at once, in order, with those lines
late: the ports' triggers and lines end at the edge (R207), and no product line is lost (R26). DESIGN CHOICE: no rule says
what becomes of them; assumption 133. -/
def fusedAtEdge (s : State) : State :=
  s.fused.waiting.foldl (fun s _ => fusedLeaves (endCamWait 1 (endCamWait 0 s))) s

/-- `n` bytes from byte `off` of a list of words. -/
def sliceWords (ws : List Word) (off n : Nat) : List Word :=
  if off % 4 = 0 then (ws.drop (off / 4)).take (n / 4)
  else toWords (((toBytes (ws.drop (off / 4))).drop (off % 4)).take n)

/-- Is a notice of the transfer's line still on its way to a die?  No cluster reads the line before (R297). -/
def noticesOut (u : UnitId) (t : Tag) (s : State) : Bool :=
  match (findXfer u t false (· = 0x28) s).bind fun x => fusedAt x s with
  | some l => (List.finRange 2).any fun d => adUp d s && (s.ejt.dies[d].coming.any fun n => n.fused = some l.num)
  | none => false

/-- The words of a line as the ring gives them: a pixel word whose parity fails is marked TAINT (R234). -/
def ringWords (bad : List Nat) (ws : List Word) : List Word :=
  ws.zipIdx.map fun x => if bad.contains x.2 then x.1 ||| 0x2000000 else x.1

/-- A STREAM.IN from FUSED (R240); `bad` are the pixel words of the line that fail parity where the transfer reads them
(R234). -/
def execFusedRead (u : UnitId) (t : Tag) (bad : List Nat) (s : State) : Host.Outcome State Fault Refusal :=
  .next (if noticesOut u t s then s else dataIn u t (· = 0x28) (fun _ s => [asmDie s.opt])
    (fun x s =>
      let off := x.addr % 131072
      match fusedAt x s with
      | none => (bump F.stcFusedStale s, 5, [])
      | some l =>
        if 4 * l.words.length < off + x.len then (s, 2, [])
        else
          let bad := bad.dedup.filter fun i => decide (off ≤ 4 * i) && decide (4 * i < off + x.len) &&
            decide (4 + 4 * bandCount s.opt ≤ i) && decide (i < l.words.length)
          let s := { s with fused := { s.fused with
            ring := s.fused.ring.map fun y => if y = l then { y with read := true } else y } }
          (countTaintParity bad.length s, 0, sliceWords (ringWords bad l.words) off x.len)) s)

/-! ### Column maps (R173, R174) -/

/-- Does the endpoint accept a map (R174)? -/
def regMapOk (ws : List Word) (s : State) : Bool :=
  match ws with
  | [] => false
  | h :: es =>
    let p : Fin 2 := Fin.ofNat 2 (b2n (bit h 31))
    bits h 30 0 = 0 && es.length = columns s.opt &&
      es.all fun w => bits w 6 0 = 0 && (!bit w 7 || decide (bits w 31 16 + 1 < camLineLen p s))

/-- A map arrives at COR.REG (R173, R174). -/
def execCorRegMap (u : UnitId) (t : Tag) (s : State) : Host.Outcome State Fault Refusal :=
  .next (recordOut u t (· = 0x43)
    (fun _ ws s => [camDie s.opt (Fin.ofNat 2 (b2n (bit (nth 0 ws 0) 31)))])
    (fun x ws s =>
      if !regMapOk ws s then refuseRecord F.corFaultRegRefused 0x1206 0 0 x.ep s
      else
        let p : Fin 2 := Fin.ofNat 2 (b2n (bit (nth 0 ws 0) 31))
        ({ s with fused := { s.fused with regNext := s.fused.regNext.set p (some (ws.drop 1)) } }, 0)) s)

end Sys2Proof.Machine
end

