-- ==== Sys2Proof/Machine/Sadc.lean ====
section
/-!
DEFINITION. The supervisory converter: SADC.START (R336), settings (R335), sequence and results (R333, R336–R340),
injected requests (R341), overrange (R342) and self-trim (R343).
-/

namespace Sys2Proof.Machine

/-- Change the converter. -/
def modSadc (f : SadcPart → SadcPart) (s : State) : State := { s with sadc := f s.sadc }

/-- Show the conversion under way and the unread results. -/
def showSadc (s : State) : State :=
  setF F.sadcStateUnread s.sadc.ring.length (setF F.sadcStateInjBusy (b2n s.sadc.inj.isSome)
    (setF F.sadcStateCalibrating (b2n (s.sadc.trim ≠ .off)) s))

/-- Entries per pass (Table 15.3). -/
def sadcCount (s : State) : Nat := bits (s.word F.sadcCfg) 27 22

/-! ### Injected requests (R341) -/

/-- The rank of a source (Table 15.5), and its drop counter. -/
def injRank : InjSrc → Nat
  | .cal => 1
  | .thm => 2
  | .pwr => 3
  | .ejt => 4
  | .lum => 5

def injDrops : InjSrc → Fld
  | .cal => F.sadcDrop1Cal
  | .thm => F.sadcDrop0Thm
  | .pwr => F.sadcDrop1Pwr
  | .ejt => F.sadcDrop2Ejt
  | .lum => F.sadcDrop0Lum

/-- The attempts of a calibration run at a dropped request: after the tenth the run ends in FAIL (R197). -/
def calAttempt (r : Inj) (s : State) : State :=
  let n := ((runOf r.key s).map (·.tries)).getD 0 + 1
  let s := modCalRun r.key (fun x => { x with tries := n }) (modSadc (fun e => { e with retry := e.retry.filter (· ≠ r) }) s)
  if 10 ≤ n then calFail [r.key] s else modSadc (fun e => { e with retry := e.retry ++ [r] }) s

/-- What a source does with a dropped request (Table 15.5). -/
def injDropped (r : Inj) (s : State) : State :=
  match r.src with
  | .cal => if calRunning r.key s then calAttempt r s else s
  | .ejt => modChan (Fin.ofNat 128 r.key) (fun c => { c with held := none }) s
  | _ => s

/-- A drop is reported with the drops of its source since its last record (R341, Table 21.5). -/
def reportDrop (r : Inj) (s : State) : State :=
  let k : Fin 5 := Fin.ofNat 5 (injRank r.src - 1)
  let n := min (2 ^ 32 - 1) (s.sadc.drops[k] + 1)
  let held := withheld 0x3205 0xB (512 + injRank r.src) s
  raiseLim 0x3205 0xB (512 + injRank r.src) n (modSadc (fun e => { e with drops := e.drops.set k (if held then n else 0) }) s)

/-- Is the converter idle (R337)? -/
def sadcIdle (s : State) : Bool := !s.sadc.entry && s.sadc.inj.isNone && s.sadc.trim = .off

/-- A request is accepted. -/
def injAccept (r : Inj) (s : State) : State :=
  showSadc (modSadc (fun e => { e with inj := some r, injAt := s.periph, retry := e.retry.filter (· ≠ r) }) s)

/-- A request is dropped and counted. -/
def injDrop (r : Inj) (s : State) : State := injDropped r (reportDrop r (bump (injDrops r.src) s))

/-- A request: accepted when the converter is idle, else dropped; of several on one idle edge the one ranked first is accepted,
whichever order they come in (R341). -/
def injRequest (r : Inj) (s : State) : State :=
  if sadcIdle s then injAccept r s
  else
    match s.sadc.inj with
    | some q => if s.sadc.injAt = s.periph && decide (injRank r.src < injRank q.src) then injDrop q (injAccept r s) else injDrop r s
    | none => injDrop r s

/-- An entry that falls due, or a START, on the edge on which a request was accepted makes the converter busy first: the
request is dropped (R341). -/
def injYield (s : State) : State :=
  match s.sadc.inj with
  | some q => if s.sadc.injAt = s.periph then injDrop q (showSadc (modSadc (fun e => { e with inj := none }) s)) else s
  | none => s

/-! ### SADC.START (R336) -/

/-- A pass starts with entry 0, under the next pass number where `next` holds, or is due after a self-trim (R336, R343): then
neither an entry nor a gap runs before the first pass, and the gap runs on before a later one. -/
def startPass (next : Bool) (s : State) : State :=
  let s := if next then setF F.sadcStatePass ((getF F.sadcStatePass s + 1) % 256) s else setF F.sadcStatePass 0 s
  let held := s.sadc.trim ≠ .off
  setF F.sadcStateEntry 0 (modSadc (fun e => { e with entry := !held, gap := held && next, stopping := false }) s)

/-- The sequence ends: START clears. -/
def endSequence (s : State) : State :=
  setF F.sadcStateStart 0 (setF F.sadcStateContinuous 0
    (setF F.sadcStateEntry 0 (modSadc (fun e => { e with entry := false, gap := false, stopping := false }) s)))

/-- The MODE operand acts (R336).  An entry that is due behind an injected conversion is not in progress. -/
def sadcStart (mode : Nat) (s : State) : State :=
  let on := flag F.sadcStateStart s
  if mode = 2 then
    if !on then s
    else if s.sadc.entry && s.sadc.inj.isNone then modSadc (fun e => { e with stopping := true }) s
    else endSequence s
  else if !on then startPass false (injYield <| setF F.sadcStateStart 1 (setF F.sadcStateContinuous mode s))
  else if mode = 0 && s.sadc.gap then endSequence s
  else setF F.sadcStateContinuous mode s

/-- SADC.START: [1:0] MODE (Table 12.13). -/
def sadcStartOp (u : UnitId) (b : Src) (s : State) : State :=
  eventOp u (srcImm b) (srcRegs b) (fun s => decide ((srcVal u b s).toNat < 3)) (fun _ => 0)
    (fun s => sadcStart (srcVal u b s).toNat s) s

def execSadcStartSingle (u : UnitId) (b : Src) (s : State) : Host.Outcome State Fault Refusal := .next (sadcStartOp u b s)

def execSadcStartContinuous (u : UnitId) (b : Src) (s : State) : Host.Outcome State Fault Refusal := .next (sadcStartOp u b s)

def execSadcStartStop (u : UnitId) (b : Src) (s : State) : Host.Outcome State Fault Refusal := .next (sadcStartOp u b s)

/-! ### Settings (R335) -/

/-- Does the option have the input (Table 15.1)? -/
def sadcInput (opt : Opt) (i : Nat) : Bool :=
  opt = .zt8 || !(inR 40 i 47 || [50, 51, 54, 55, 62].contains i)

/-- Is a sequence entry in range (R335)? -/
def sadcEntryOk (opt : Opt) (w : Word) : Bool :=
  let i := bits w 31 26
  bits w 14 0 = 0 && sadcInput opt i && !(bit w 25 && (i % 2 = 1 || decide (32 ≤ i))) &&
    (if i = 63 then !(opt = .zt4 && bits w 24 23 = 2) else true) && (i = 63 || bits w 24 23 = 0)

/-- Is a record for SADC.CTL well formed (R335)? -/
def sadcFieldsOk (opt : Opt) (ws : List Word) : Bool :=
  let h := nth 0 ws 0
  match bits h 31 28 with
  | 0 => ws.length = 1 && inR 1 (bits h 27 22) 32 && bits h 9 0 = 0
  | 1 =>
    let n := bits h 22 17
    inR 1 n 32 && ws.length = 1 + n && bits h 16 0 = 0 && inR 0 (bits h 27 23 + n) 32 && (ws.drop 1).all (sadcEntryOk opt)
  | 2 => ws.length = 2 && inR 1 (bits h 17 14) 15 && bits h 13 0 = 0 &&
      decide (dec 16 (bits (nth 0 ws 1) 15 0) ≤ dec 16 (bits (nth 0 ws 1) 31 16))
  | _ => false

/-- Does SADC.CTL accept the record (R335)?  A control or sequence record not while a sequence runs. -/
def sadcRecordOk (ws : List Word) (s : State) : Bool :=
  sadcFieldsOk s.opt ws && (bits (nth 0 ws 0) 31 28 = 2 || !flag F.sadcStateStart s)

/-- The subject of a refused record: the hurdle or the entry it names (R346). -/
def sadcSubject (ws : List Word) : Nat :=
  let h := nth 0 ws 0
  if bits h 31 28 = 2 then 256 + bits h 27 25 else if bits h 31 28 = 1 then bits h 27 23 else 0

/-- An accepted record takes effect: control and sequence at once, a hurdle at the next result of its entry (R335). -/
def takeSadcRecord (ws : List Word) (s : State) : State :=
  let h := nth 0 ws 0
  match bits h 31 28 with
  | 0 => s.setWord F.sadcCfg h
  | 1 => ((ws.drop 1).zipIdx).foldl (fun s x => s.setWord (F.sadcSeq (bits h 27 23 + x.2)) x.1) s
  | _ => modSadc (fun e => { e with next := e.next.set (Fin.ofNat 8 (bits h 27 25)) (some (h, nth 0 ws 1)) }) s

/-- A record of a TYPE that the command takes arrives at SADC.CTL. -/
def sadcRecord (u : UnitId) (t : Tag) (types : Nat → Bool) (s : State) : State :=
  match findXfer u t true (· = 0x70) s with
  | none => s
  | some x =>
    if !types (bits (nth 0 (sourceWords x s) 0) 31 28) then s
    else recordOut u t (· = 0x70) (fun _ _ _ => [0])
      (fun x ws s =>
        if !sadcRecordOk ws s then refuseRecord F.sadcFaultSettingsRefused 0x3201 0xB (sadcSubject ws) x.ep s
        else (takeSadcRecord ws s, 0)) s

/-- A record of TYPE 0, or of a reserved TYPE, which is refused. -/
def execSadcCtlControl (u : UnitId) (t : Tag) (s : State) : Host.Outcome State Fault Refusal :=
  .next (sadcRecord u t (fun k => k = 0 || decide (2 < k)) s)

def execSadcCtlSequence (u : UnitId) (t : Tag) (s : State) : Host.Outcome State Fault Refusal :=
  .next (sadcRecord u t (· = 1) s)

def execSadcCtlHurdle (u : UnitId) (t : Tag) (s : State) : Host.Outcome State Fault Refusal :=
  .next (sadcRecord u t (· = 2) s)

/-! ### Conversions (R333, R334, R338, R342) -/

/-- V of an input, in volts (R333, Table 15.1): `x` is what the input holds, the voltage of a contact or rail, a sensor's
temperature in °C, or for input 63 what the reference that SUB selects differs from its nominal voltage by. -/
def sadcVolts (inp sub : Nat) (x : Rat) : Rat :=
  if 32 ≤ inp ∧ inp ≤ 55 then 3 / 2 + (x - 25) / 500
  else if inp = 56 then x / 40
  else if inp = 57 then x / 8
  else if inp = 61 ∨ inp = 62 then x / 2
  else if inp = 63 then x + (if sub = 3 then 0 else 6 / 5)
  else x

/-- V of a sequence entry: of its input, or of the pair from its even input on (R333); `y` is what the odd input of a pair
holds. -/
def entryVolts (w : Word) (x y : Rat) : Rat :=
  let v := sadcVolts (bits w 31 26) (bits w 24 23) x
  if bit w 25 then v - y else v

/-- The code of V, and OVR (R333). -/
def sadcCode (v : Rat) : Int × Bool :=
  let l := v * 65536 / 5
  if 65535 / 2 ≤ l then (32767, true) else if l < -65537 / 2 then (-32768, true) else (max (-32768) (rndRat l), false)

/-- Does the conversion that ends now carry RECOV: sampled 0.7 µs ago, less than 2 µs after an overranged one, or repeated
after a freeze (R334, R342, R344)? -/
def sadcRecov (s : State) : Bool :=
  s.sadc.redo || match s.sadc.ovrEnd with
    | some e => decide (s.periph < e + 270)
    | none => false

/-- A conversion that ends with OVR counts and starts the recovery (R342); `sub` is its subject (Table 21.4). -/
def sadcOvr (ovr : Bool) (sub : Nat) (s : State) : State :=
  let s := modSadc (fun e => { e with redo := false, ovrEnd := if ovr then some s.periph else e.ovrEnd }) s
  if ovr then raiseLim 0x3204 0xB sub 0 (setF F.sadcFaultOverrange 1 (bump F.sadcOvrCountOvrCount s)) else s

/-- Take up a hurdle record that waits for a result of its entry (R335). -/
def takeHurdle (h : Fin 8) (i : Nat) (s : State) : State :=
  match s.sadc.next[h] with
  | some (a, b) =>
    if bits a 22 18 = i then
      (modSadc (fun e => { e with next := e.next.set h none, runs := e.runs.set h 0 })
        ((s.setWord (F.sadcHCfg0 h) a).setWord (F.sadcHCfg1 h) b))
    else s
  | none => s

/-- A hurdle examines a result of its entry (R340). -/
def hurdle (h : Fin 8) (i : Nat) (code : Int) (recov : Bool) (s : State) : State :=
  let s := takeHurdle h i s
  let a := s.word (F.sadcHCfg0 h)
  let b := s.word (F.sadcHCfg1 h)
  if !bit a 24 || bits a 22 18 ≠ i || recov then s
  else
    let inside := decide (dec 16 (bits b 15 0) ≤ code) && decide (code ≤ dec 16 (bits b 31 16))
    if inside = bit a 23 then
      let n := s.sadc.runs[h] + 1
      let s := modSadc (fun e => { e with runs := e.runs.set h n }) s
      if n ≠ bits a 17 14 then s
      else
        let was := flagAt F.sadcHurdleActive h s
        let s := setAt F.sadcHurdleActive h true (setAt F.sadcHurdleTripped h true s)
        if was then s else raiseLim 0x3202 0xB (256 + h) 0 s
    else setAt F.sadcHurdleActive h false (modSadc (fun e => { e with runs := e.runs.set h 0 }) s)

/-- A result enters the buffer (R338). -/
def pushResult (i : Nat) (r : Word × Word) (s : State) : State :=
  let full := decide (64 ≤ s.sadc.ring.length)
  let s := modSadc (fun e => { e with ring := (if full then e.ring.drop 1 else e.ring) ++ [r] }) s
  if full then raiseLim 0x3203 0xB i 0 (setF F.sadcFaultOverwrite 1 (bump F.sadcOverwriteOverwrite s)) else s

/-- What follows the entry that has ended (R336, R343). -/
def nextEntry (s : State) : State :=
  let i := getF F.sadcStateEntry s
  let last := decide (sadcCount s ≤ i + 1)
  if s.sadc.stopping || (last && !flag F.sadcStateContinuous s) then endSequence s
  else if s.sadc.trim ≠ .off then setF F.sadcStateEntry 0 (modSadc (fun e => { e with entry := false, gap := true }) s)
  else if !last then setF F.sadcStateEntry (i + 1) s
  else if bits (s.word F.sadcCfg) 21 10 = 0 then startPass true s
  else setF F.sadcStateEntry 0 (modSadc (fun e => { e with entry := false, gap := true }) s)

/-- A sequence conversion ends (R338); `x` and `y` are what its input, and the odd input of a pair, hold. -/
def execSadcEntryEnd (x y : Rat) (s : State) : Host.Outcome State Fault Refusal :=
  .next (
    if clocked s && s.sadc.entry && s.sadc.inj.isNone then
      let i := getF F.sadcStateEntry s
      let (code, ovr) := sadcCode (entryVolts (s.word (F.sadcSeq i)) x y)
      let recov := sadcRecov s
      let w := BitVec.ofNat 32 (2 ^ 31 + b2n ovr * 2 ^ 30 + b2n recov * 2 ^ 29 + i * 2 ^ 24 +
        getF F.sadcStatePass s * 2 ^ 16 + enc 16 code)
      let s := pushResult i (w, BitVec.ofNat 32 (timeAgo 700 s)) ((sadcOvr ovr i s).setWord (F.sadcLast i) w)
      let s := (List.finRange 8).foldl (fun s h => hurdle h i code recov s) s
      showSadc (nextEntry s)
    else s)

/-- GAP ends, and the next pass starts (R336); passes that fall due during a self-trim are not made (R343). -/
def execSadcGapEnd (s : State) : Host.Outcome State Fault Refusal :=
  .next (
    if clocked s && flag F.sadcStateStart s && s.sadc.gap && s.sadc.trim = .off then showSadc (startPass true (injYield s)) else s)

/-- A STREAM.IN from SADC.RES (R339). -/
def execSadcResRead (u : UnitId) (t : Tag) (s : State) : Host.Outcome State Fault Refusal :=
  .next (dataIn u t (· = 0x71) (fun _ _ => [0])
    (fun x s =>
      if x.addr ≠ 0 ∨ x.len % 8 ≠ 0 then (s, 2, [])
      else
        let n := x.len / 8
        let ws := (s.sadc.ring.take n).flatMap fun r => [r.1, r.2]
        (showSadc (modSadc (fun e => { e with ring := e.ring.drop n }) s), 0, fitWords (x.len / 4) ws)) s)

/-! ### Requests and results (R195, R341) -/

/-- Does the item's run convert its reference, for which it has made its own request (R195)? -/
def refWaits (i : Nat) (s : State) : Bool :=
  (runOf i s).any fun r =>
    match r.phase with
    | .ref _ => true
    | _ => false

/-- A subsystem requests a conversion (R341); a class A run's own request for its reference stands already. -/
def execInjectedRequest (src : InjSrc) (inp : Fin 64) (sub : Fin 4) (key : Nat) (s : State) :
    Host.Outcome State Fault Refusal :=
  .next (
    let ask (s : State) : State := injRequest { src := src, inp := inp, sub := sub, key := key } s
    if !clocked s then s
    else match src with
      | .cal => if refWaits key s then s else ask s
      | .lum =>
        let n : Strng := Fin.ofNat 8 key
        if !adUp (strDie n) s then s
        else if thermDue n inp s then ask (modStr n (fun e => { e with thermAt := some s.periph }) s)
        else if sensDue n inp s then ask (modStr n (fun e => { e with sensAt := some s.periph }) s)
        else s
      | _ => ask s)

/-- A dropped CAL request is made again (R197). -/
def execCalSadcRetry (s : State) : Host.Outcome State Fault Refusal :=
  .next (
    match s.sadc.retry with
    | r :: rest =>
      if !clocked s then s
      else if calRunning r.key s then injRequest r s
      else modSadc (fun e => { e with retry := rest }) s
    | [] => s)

/-- The input and SUB of an item's reference (Table 8.4, Table 15.1). -/
def refInput (i : Nat) : Nat × Nat :=
  if i < 8 then (61 + i % 2, 0) else if i < 10 then (63, i - 7) else (63, 0)

/-- The run requests its reference from the converter (R195). -/
def requestRef (i : Nat) (s : State) : State := injRequest { src := .cal, inp := (refInput i).1, sub := (refInput i).2, key := i } s

/-- The self-trim waits for work in progress. -/
def armTrim (s : State) : State := showSadc (modSadc (fun e => { e with trim := .waiting, trimmed := none }) s)

/-- A class A run takes a reference code, before or after a repeat: beyond ±1 % the run ends in FAIL; before a repeat the
measurement starts, and after the second the trims are decided (R195). -/
def takeRef (i : Nat) (code : Int) (s : State) : State :=
  match runOf i s with
  | none => s
  | some r =>
    match r.phase with
    | .ref j =>
      if !refOk i code then calFail [i] s
      else
        let s := modCalRun i (fun r => { r with refs := r.refs ++ [code] }) s
        if j = 1 then requestRef i (modCalRun i (fun r => { r with phase := .ref 2 }) s)
        else if j < 3 then
          let s := startRepeat i (j / 2) s
          if i = 10 then armTrim s else s
        else classADecide r (nth [] r.meas 0) (nth [] r.meas 1) s
    | _ => s

/-- A code of VIN_SNS in volts (Table 15.1). -/
def vinOfCode (c : Int) : Rat := (c : Rat) * 100 / 32768

/-- What a source does with a result: the supervisor's VIN (R63), the coil model (R303), a calibration reference (R195),
thermistors and light sensors (R323, R324). -/
def injDeliver (x : InjResult) (s : State) : State :=
  let r := x.req
  match r.src with
  | .pwr => if r.inp = 56 then setF F.pwrStateVin (clampI 0 65535 (rndRat (vinOfCode x.code * 100))).toNat s else s
  | .ejt => coilMeasure (Fin.ofNat 128 r.key) (vinOfCode x.code) s
  | .cal => takeRef r.key x.code s
  | .lum =>
    let n : Strng := Fin.ofNat 8 r.key
    let w := strCfg n 0 s
    if r.inp = bits w 23 18 then modStr n (fun e => { e with therm := some x.code.toNat, thermOk := s.periph }) s
    else if r.inp = bits w 17 12 then
      setF (F.lumSTempSensor (strDie n) (strIdx n)) (enc 16 x.code) (modStr n (fun e => { e with sens := e.sens ++ [x.code] }) s)
    else s
  | _ => s

/-- An injected conversion ends (R341); `x` is what its input holds. -/
def execInjectedConversionEnd (x : Rat) (s : State) : Host.Outcome State Fault Refusal :=
  .next (
    match s.sadc.inj with
    | none => s
    | some r =>
      if clocked s then
        let (code, ovr) := sadcCode (sadcVolts r.inp r.sub x)
        let x : InjResult := { req := r, code := code, ovr := ovr, recov := sadcRecov s }
        let s := sadcOvr ovr (512 + injRank r.src) s
        let s := modSadc (fun e => { e with inj := none, results := x :: e.results.filter fun y => y.req.src ≠ r.src || (r.src = .thm && y.req.inp ≠ r.inp) }) s
        let s := if r.src = .cal then modCalRun r.key (fun x => { x with tries := 0 }) s else s
        showSadc (injDeliver x s)
      else s)

/-! ### Self-trim (R343) -/

/-- The self-trim starts, after the entry and the injected conversion in progress (R343). -/
def execSelfTrimStart (s : State) : Host.Outcome State Fault Refusal :=
  .next (
    if clocked s && s.sadc.trim = .waiting && !s.sadc.entry && s.sadc.inj.isNone then
      modSadc (fun e => { e with trim := .running, trimmed := none }) s
    else s)

/-- The self-trim ends with its offset and gain, which a run whose two repeats agree loads; a running sequence starts its next
pass at once (R343). -/
def execSelfTrimEnd (off gain : BitVec 8) (s : State) : Host.Outcome State Fault Refusal :=
  .next (
    if clocked s && s.sadc.trim = .running then
      let s := tryTrim (modSadc (fun e => { e with trim := .off, trimmed := some (off.toInt, gain.toInt) }) s)
      showSadc (if flag F.sadcStateStart s then startPass s.sadc.gap s else s)
    else s)

end Sys2Proof.Machine
end

