-- ==== Sys2Proof/Machine/Calib.lean ====
section
/-!
DEFINITION. The calibration: settings and requests (R178–R182), gaps (R183, R184), the shutter run (R188–R192), scene
refinement (R193, R194), class A items (R195–R197), saving (R200), and its part in a line slot (R185, R187, R189).
-/

namespace Sys2Proof.Machine

/-- The die of an item (Table 8.1). -/
def itemDie (i : Nat) : Nat := if i < 8 then 4 + i % 2 else if i < 10 then 6 + (i - 8) else 0

/-- Is the item present on the option (R177)? -/
def itemPresent (opt : Opt) (i : Nat) : Bool := diePresent opt (itemDie i)

/-- The settings in force (R178). -/
def calCfgWords (s : State) : List Word := (List.range 4).map fun k => s.word (F.calCfg0 + 4 * k)

/-- A run record at its start. -/
def newRun (i : Nat) (ph : CalPhase) (s : State) : CalRun :=
  { item := i, phase := ph, cfg := calCfgWords s, start := s.time, refs := [], n := 0, total := 0, sums := [], counts := [],
    dark0 := [], dark1 := [], meas := [], tries := 0, spoiled := false, since := s.time, ramp := 0, codes := [],
    chans := List.replicate 64 (0, 0), dead := [] }

/-- Clear the pending slot of an item. -/
def clearPending (i : Nat) (s : State) : State :=
  modCal (fun c => { c with since := c.since.filter fun x => x.1 ≠ i, told := c.told.filter (· ≠ i) })
    (setAt F.calStatePending i false s)

/-- An item starts to run. -/
def startRun (r : CalRun) (s : State) : State :=
  modCal (fun c => { c with runs := r :: c.runs }) (setAt F.calStateRunning r.item true (clearPending r.item s))

/-- Is the pending slot of the item set? -/
def calPending (i : Nat) (s : State) : Bool := flagAt F.calStatePending i s

/-! ### SCENE and SAVE start by themselves -/

/-- A SCENE run starts where one is due: on request, or whenever SCENE_EN is set and none runs (R182). -/
def startScene (d : Fin 2) (s : State) : State :=
  let i := 2 + d.val
  if working s && fdUp d s && !calRunning i s && (calPending i s || bit (s.word F.calCfg0) 31) then
    modCal (fun c => { c with recent := c.recent.set d [] }) (startRun (newRun i .measuring s) s)
  else s

/-- Passed CONV trims take effect, and D and G of rows 0–47 and the baselines of the columns that change follow (R177, R196);
a pair that does not agree is not applied (R199). -/
def applyConv (d : Fin 2) (s : State) : State :=
  match s.cal.convNext[d] with
  | none => s
  | some (t, c) =>
    let s := modCal (fun k => { k with convNext := k.convNext.set d none }) s
    if t.map (fun x => (trimNot x.1, trimNot x.2)) ≠ c then calComplement (4 + d) s
    else
      let nq := nqOf (getF (F.fpdStateBand d) s)
      let old := s.cal.conv[d]
      let s := modCal (fun k => { k with conv := k.conv.set d t }) s
      (List.range 2064).foldl (fun s p =>
        let o := nth (0, 0) old p
        let n := nth (0, 0) t p
        if o = n then s
        else
          let dc := 8 * (n.1 - o.1)
          let k : Rat := (2000 + n.2 : Int) / ((2000 + o.2 : Int) : Rat)
          if 8 ≤ p && p < 2056 then
            (List.range 48).foldl (fun s row =>
              let key := siteKey d row (p - 8)
              let e := entryAt key s
              let g := (clampI 0 65535 (rndRat ((e.g : Rat) / k))).toNat
              let dr := clampI (-32768) 32767 (driftAt key s + rndRat (4 * dc * nq / 65536))
              { s with corr := { s.corr with model := assocSet key { e with g := g } s.corr.model
                                             drift := assocSet key dr s.corr.drift } }) s
          else
            let r := if p < 8 then p else p - 2048
            (corrDies s.opt d).foldl (fun s sd => (List.range 50).foldl (fun s row =>
              let b := clampI (-32768) 32767 (baseAt sd d row r s + rndRat ((dc * nq : Int) / 65536))
              { s with corr := { s.corr with base := assocSet (baseKey sd d row r) b s.corr.base } }) s) s) s

/-- Little-endian 16-bit bytes of an integer. -/
def bytes16 (x : Int) : List Byte := [BitVec.ofNat 8 (enc 16 x), BitVec.ofNat 8 (enc 16 x / 256)]

/-- A quarter row of G, D and TAU (Table 17.2). -/
def quarterBytes (d row q : Nat) (s : State) : List Byte :=
  let keys := (List.range 512).map fun c => siteKey d row (512 * q + c)
  (keys.flatMap fun k => bytes16 (entryAt k s).g) ++ (keys.flatMap fun k => bytes16 (driftAt k s)) ++
    keys.map fun k => BitVec.ofNat 8 (entryAt k s).tau

/-- The quarter rows in which a site is listed: die, row, quarter. -/
def quartersOf (s : State) : List (Nat × Nat × Nat) :=
  ((((s.corr.model.map (·.1)) ++ (s.corr.drift.map (·.1))).filter fun k => k / 2048 % 50 < 48).map fun k =>
    (k / 102400, k / 2048 % 50, k % 2048 / 512)).dedup

/-- The CAL records of the trims of focal die and actuator die `d` as the accepted values give them (Table 17.2; the layouts it
leaves open are those of assumption 30): a reference that is not there gives no bytes. -/
def trimRecords (d : Fin 2) (s : State) : List (Nat × List Byte) :=
  (if diePresent s.opt (4 + d) then
    ((List.range 2).map fun h => (0x200 + 2 * d.val + h,
      ((s.cal.conv[d].drop (1032 * h)).take 1032).flatMap fun t => [BitVec.ofInt 8 t.1, BitVec.ofInt 8 t.2])) ++
    [(0x210 + d.val, [BitVec.ofInt 8 ((s.cal.biasNext[d].map (·.1)).getD s.cal.bias[d])]),
     (0x228 + d.val, match s.cal.sref[d] with
      | some (v, t, _) => wordBytes (BitVec.ofInt 32 (rndRat (v * 256))) ++ wordBytes (BitVec.ofNat 32 t) ++
          wordBytes (BitVec.ofNat 32 (t / 2 ^ 32))
      | none => [])] else []) ++
  (if diePresent s.opt (6 + d) then
    [(0x218 + d.val, ((s.cal.csnNext[d].map (·.1)).getD s.cal.csn[d]).map fun x => BitVec.ofInt 8 x)] else [])

/-- The device's CAL records as the values stand, over the quarter rows named. -/
def calRecords (quarters : List (Nat × Nat × Nat)) (s : State) : List (Nat × List Byte) :=
  (quarters.map fun x => (192 * x.1 + 4 * x.2.1 + x.2.2, quarterBytes x.1 x.2.1 x.2.2 s)) ++ trimRecords 0 s ++ trimRecords 1 s ++
    [(0x220, [BitVec.ofNat 8 ((s.cal.sadcOld.map (·.1)).getD (getF F.sadcTrimOffset s)),
      BitVec.ofNat 8 ((s.cal.sadcOld.map (·.2)).getD (getF F.sadcTrimGain s))]),
     (0x230, (List.finRange 128).flatMap fun v =>
        match s.ejt.chans[v].lag with
        | some m => bytes16 (rshr 4 m)
        | none => [0xFF, 0xFF])]

/-- The calibration values accepted: those that wait for a line-slot boundary count (R200). -/
def accepted (s : State) : State := applyConv 1 (applyConv 0 (applyModels s))

/-- The calibration values that a reset would reload now (R86, R200). -/
def reloaded (s : State) : State :=
  loadAll ((List.finRange 128).foldl (fun s v => modChan v (fun c => { c with lag := none }) s)
    (setF F.sadcTrimOffset 0 (setF F.sadcTrimGain 0 s)))

/-- The records that a SAVE writes: those that differ from what a reset would reload (R200). -/
def changedRecords (s : State) : List (Nat × List Byte) :=
  let now := accepted s
  let then_ := reloaded s
  let qs := (quartersOf now ++ quartersOf then_).dedup
  ((calRecords qs now).zip (calRecords qs then_)).filterMap fun x => if x.1.2 ≠ x.2.2 && x.1.2 ≠ [] then some x.1 else none

/-- SAVE starts: the changed records are queued with generation G + 1, and after them the commit record (R200, R377). In a
shutdown the store takes the writes and holds them (R374). -/
def startSave (s : State) : State :=
  if calRunning 11 s || !live s then s
  else
    let g := lastGen s.nvs + 1
    let changed := changedRecords s
    let w (k : Nat) (b : List Byte) (gen : Nat) : NvsWrite := { part := 2, key := k, data := b, gen := gen, counter := none, save := true }
    let s := startRun (newRun 11 .measuring s) (modCal (fun c => { c with saving := c.unsaved.length }) s)
    let ws := changed.map (fun x => w x.1 x.2 g) ++ [w commitKey (wordBytes (BitVec.ofNat 32 g)) 0]
    showNvs (modNvs (fun n => pushWrites ws { n with save := some g }) s)

/-- An item's pending slot is set: it waits from now (R180, R201). -/
def setPending (i : Nat) (s : State) : State :=
  if calPending i s then s
  else modCal (fun c => { c with since := (i, s.time) :: c.since }) (setAt F.calStatePending i true s)

/-- SAVE runs, or runs again once the one in progress has ended (R180, R200). -/
def wantSave (s : State) : State := if calRunning 11 s then setPending 11 s else startSave s

/-! ### Settings and requests (R178–R182) -/

/-- Does CAL.CTL accept the record (R178)? -/
def calRecordOk (ws : List Word) : Bool :=
  match ws with
  | [a, b, c, d] =>
    inR 1 (bits a 13 6) 255 && bits a 5 0 = 0 && inR 1 (bits b 31 22) 1023 && inR 1 (bits b 21 14) 255 &&
      inR 1 (bits b 13 4) 1023 && bits b 3 0 = 0 && inR 1 (bits c 31 20) 4095 && inR 1 (bits c 19 8) 4095 &&
      inR 8 (bits c 7 4) 15 && bits c 3 0 = 0 && inR 1 (bits d 31 16) 65535 && bits d 15 0 = 0
  | _ => false

/-- A record arrives at CAL.CTL: it takes effect at once for runs that start later (R178). -/
def execCalCtlRecord (u : UnitId) (t : Tag) (s : State) : Host.Outcome State Fault Refusal :=
  .next (recordOut u t (· = 0x48) (fun _ _ _ => [0])
    (fun x ws s =>
      if !calRecordOk ws then refuseRecord F.calFaultSettingsRefused 0x1303 0 0 x.ep s
      else
        let s := (List.range 4).foldl (fun s k => s.setWord (F.calCfg0 + 4 * k) (nth 0 ws k)) s
        (startScene 1 (startScene 0 s), 0)) s)

/-- A run request (R180); SCENE and SAVE need nothing to wait for. -/
def requestRun (i : Nat) (s : State) : State :=
  if calPending i s then bump F.calReqCountMerged s
  else
    let s := setPending i s
    if i = 2 ∨ i = 3 then startScene (Fin.ofNat 2 i) s else if i = 11 then startSave s else s

/-- Is the request word in range (R181)? -/
def calReqOk (w : Word) (s : State) : Bool :=
  let item := bits w 31 28
  match bits w 27 26 with
  | 2 => item = 0 && bits w 25 16 ≠ 0 && !(s.cal.gap.any (·.open_))
  | 3 => false
  | _ => decide (item ≤ 11) && bits w 25 0 = 0

/-- A request at the calibration (R180, R181, R184). -/
def calReq (w : Word) (s : State) : State :=
  let item := bits w 31 28
  if !calReqOk w s then raise 0x1302 0xA item 0 (setF F.calFaultReqRefused 1 (bump F.calReqCountRefused s))
  else
    match bits w 27 26 with
    | 0 => requestRun item s
    | 1 => clearPending item s
    | _ =>
      let s := if s.cal.gap.isSome then bump F.calReqCountMerged s else s
      showGaps (modCal (fun c => { c with
        gap := some { start := s.time + bits w 15 0 * 10000, len := bits w 25 16, open_ := false } }) s)

/-- CAL.REQ: only an item of an absent die is out of range (Table 12.13). -/
def calReqOp (u : UnitId) (b : Src) (s : State) : State :=
  eventOp u (srcImm b) (srcRegs b)
    (fun s => let i := bits (srcVal u b s) 31 28; decide (11 < i) || itemPresent s.opt i)
    (fun _ => 0) (fun s => calReq (srcVal u b s) s) s

def execCalReqRun (u : UnitId) (b : Src) (s : State) : Host.Outcome State Fault Refusal := .next (calReqOp u b s)

def execCalReqCancel (u : UnitId) (b : Src) (s : State) : Host.Outcome State Fault Refusal := .next (calReqOp u b s)

def execCalReqGap (u : UnitId) (b : Src) (s : State) : Host.Outcome State Fault Refusal := .next (calReqOp u b s)

/-- Has the item's interval passed since its last request of AUTO_EN (R182)?  DESIGN CHOICE: the spec does not say from when the
first interval counts, so the first request of an item may come at any moment; assumption 119. -/
def autoDue (i : Fin 12) (every : Nat) (s : State) : Bool :=
  match assoc s.cal.autoAt i with
  | some t => decide (t + every * 6000000000 ≤ s.periph)
  | none => true

/-- An interval of AUTO_EN expires (R182): SHUT_EVERY or ATRIM_EVERY in minutes. -/
def execCalAutoRequest (i : Fin 12) (s : State) : Host.Outcome State Fault Refusal :=
  .next (
    let w := s.word F.calCfg0
    let every := if i.val < 2 then bits w 29 22 else if 4 ≤ i.val && i.val ≤ 10 then bits w 21 14 else 0
    if live s && bit w 30 && every ≠ 0 && itemPresent s.opt i && autoDue i every s then
      requestRun i (modCal (fun c => { c with autoAt := assocSet i.val s.periph c.autoAt }) s)
    else s)

/-- A SHUT or SADC request has been pending for 60 min (R180). -/
def execCalWaiting (i : Fin 12) (s : State) : Host.Outcome State Fault Refusal :=
  .next (
    match assoc s.cal.since i with
    | some t =>
      if live s && (i.val < 2 || i.val = 10) && decide (t + 3600000000000 ≤ s.time) && !s.cal.told.contains i.val then
        raise 0x1305 0xA i 0 (modCal (fun c => { c with told := i.val :: c.told }) s)
      else s
    | none => s)

/-! ### Gaps (R183, R184) -/

def execDeclaredGapOpen (s : State) : Host.Outcome State Fault Refusal :=
  .next (
    match s.cal.gap with
    | some g =>
      if live s && !g.open_ && decide (g.start ≤ s.time) then
        showGaps (modCal (fun c => { c with gap := some { g with open_ := true } }) s)
      else s
    | none => s)

def execDeclaredGapClose (s : State) : Host.Outcome State Fault Refusal :=
  .next (
    match s.cal.gap with
    | some g =>
      if live s && g.open_ && decide (g.start + g.len * 1000000 ≤ s.time) then
        showGaps (modCal (fun c => { c with gap := none }) s)
      else s
    | none => s)

/-- FEED_GAP rises, or it has been high for 1.0 ms and its gap opens (R183); in PARK, in reset and while frozen it is ignored. -/
def execFeedGapOpen (rise : Bool) (s : State) : Host.Outcome State Fault Refusal :=
  .next (
    if rise then
      if s.pins.feedGap then s else { s with pins := { s.pins with feedGap := true, feedAt := s.periph } }
    else if live s && s.mode ≠ .park && s.pins.feedGap && decide (s.pins.feedAt + 100000 ≤ s.periph) then
      showGaps (modCal (fun c => { c with feedOpen := true }) s)
    else s)

/-- A gap that FEED_GAP opened is over where the level has fallen unseen, or in PARK (R183). -/
def dropFeedGap (park : Bool) (s : State) : State :=
  if s.cal.feedOpen && (park || !s.pins.feedGap) then showGaps (modCal (fun c => { c with feedOpen := false }) s) else s

/-- FEED_GAP falls, and stays low for `ns`: the gap closes, and SHUT runs end in FAIL (R183, Table 8.5).  Below 10 ns the pulse is
ignored, from 20 ns on it is taken, and between them a free value says (R462, Table 22.9). -/
def execFeedGapClose (ns : Nat) (s : State) : Host.Outcome State Fault Refusal :=
  .next (
    let take (s : State) : State :=
      let s := { s with pins := { s.pins with feedGap := false } }
      if live s && s.cal.feedOpen then calFail [0, 1] (showGaps (modCal (fun c => { c with feedOpen := false }) s)) else s
    if ns < 10 then s
    else if ns < 20 then
      let (x, s) := takeFree s
      if x % 2 = 1 then take s else s
    else take s)

/-! ### The shutter run (R188–R192) -/

/-- Running engines of a focal die. -/
def dieEngines (d : Fin 2) (s : State) : List (Fin 64) := (List.finRange 64).filter fun l => l.val / 32 = d.val && engRunning l s

/-- Does a declared gap leave `ns` more, where no FEED_GAP gap is open (R188, R197)? -/
def gapLeaves (ns : Nat) (s : State) : Bool :=
  s.cal.feedOpen ||
    match s.cal.gap with
    | some g => g.open_ && decide (s.time + ns ≤ g.start + g.len * 1000000)
    | none => false

/-- The corrected values of blind row 48 in the line slot last recorded (R157). -/
def blindRow (d : Fin 2) (s : State) : List Int :=
  ((blindHeld d 0 s).drop 4).map fun w => dec 24 (bits w 23 0)

/-- What a declared gap must leave for a SHUT run, in ns: TRAVEL, REOPEN, 10 ms and one line slot (R188). -/
def shutNeed (d : Fin 2) (s : State) : Nat :=
  let w := s.focal[d].kept1
  (bits w 31 24 + bits w 23 16) * 100000 + 10000000 + slotLen s * 250

/-- Is a SHUT run of the die pending that the gap open now can still take, but for engines that read PRESENT (R188)? -/
def shutWaits (d : Fin 2) (s : State) : Bool :=
  working s && fdUp d s && calPending d s && !calRunning d s && gapOpen s && gapLeaves (shutNeed d s) s

/-- A pending SHUT run starts: CLOSE is issued (R188).  While the bridge is in FAULT the run ends in FAIL (R115). -/
def execShutRunStart (d : Fin 2) (s : State) : Host.Outcome State Fault Refusal :=
  .next (
    if shutWaits d s &&
        (dieEngines d s).all fun l => !flag (F.algEngStatePresent l) s then
      let s := startRun { newRun d .closing s with dark0 := blindRow d s } s
      if getF (F.fpdStateShutter d) s = shFault then calEnd d false s
      else modCal (fun c => { c with taint := c.taint.set d .armed }) (moveShutter d true s)
    else s)

/-- The shutter thermistor's temperature in 0.01 °C (R116): the supervisory ADC's last result of the input that SHT_AIN names,
from the first sequence entry that converts it against ground; with no such result there is none (DESIGN CHOICE, assumption
61). -/
def shutTherm (d : Fin 2) (s : State) : Option Int :=
  let ain := bits s.focal[d].kept1 7 2
  ((List.range 32).find? fun i =>
    bits (s.word (F.sadcSeq i)) 31 25 = 2 * ain && decide (i < bits (s.word F.sadcCfg) 27 22) &&
      bit (s.word (F.sadcLast i)) 31).map fun i =>
    Config.shutterTherm (dec 16 (bits (s.word (F.sadcLast i)) 15 0))

/-- Measurement starts at a line-slot boundary after TRAVEL (R188), with a reading of the thermistor (R192). -/
def execShutMeasureStart (d : Fin 2) (s : State) : Host.Outcome State Fault Refusal :=
  .next (
    match runOf d s with
    | some r =>
      let st := getF (F.fpdStateShutter d) s
      if working s && r.phase = .closing && st ≠ shClosing && s.grid.slotAt = s.periph then
        modCalRun d (fun r => { r with
          phase := .measuring, refs := (shutTherm d s).toList, n := 0, total := 40000 / slotLen s, spoiled := st ≠ shClosed
          sums := List.replicate 3 (List.replicate 98304 0) }) s
      else s
    | none => s)

/-- What the fit gives of one pixel (R190): the settled value, and τ in µs where it was fitted. -/
def shutFit (e : Entry) (n3 len stepMin : Nat) (s1 s2 s3 : Int) : Rat × Option Rat :=
  let d1 := s2 - s1
  let d2 := s3 - s2
  let t : Rat := (n3 * len : Nat) / 4
  if decide ((n3 * stepMin : Nat) ≤ d1.natAbs) && decide (0 < d1 * d2) && decide (d2.natAbs < d1.natAbs) then
    let r : Rat := (d2 : Rat) / d1
    let tau : Rat := t / (-(lnWide d2.natAbs d1.natAbs : Rat) / (2 ^ 64 : Nat))
    (((s3 : Rat) + d2 * r / (1 - r)) / n3, some tau)
  else
    let r : Rat := (expNeg (n3 * len) (4 * (500 + 25 * e.tau)) : Rat) / (2 ^ 64 : Nat)
    (((s3 : Rat) + d2 * r / (1 - r)) / n3, none)

/-- One pixel of the fit: its site, settled value, change of D and new TAU code, and whether it is an outlier (R190,
R191). -/
structure ShutPixel where
  key : Nat
  a : Rat
  tau : Option Rat

/-- dd of a pixel (R190); a gain of 0 leaves none. -/
def shutDd (e : Entry) (dev : Rat) : Option Int := if e.g = 0 then none else some (rndRat (4 * dev * 16384 / (e.g : Rat)))

/-- Is the pixel an outlier (R191)? -/
def shutOutlier (dmax : Nat) (dd : Option Int) (tau : Option Rat) : Bool :=
  (match dd with
    | some x => decide (4 * dmax < x.natAbs)
    | none => true) ||
  match tau with
    | some t => decide (t < 500) || decide (6000 < t)
    | none => false

/-- Records through which the calibration writes D or whole entries of a row, with their complements (R152, R191,
R199). -/
def rowRecord (opt : Opt) (i : Nat) (d : Fin 2) (part row : Nat) (data : List Word) (count : Nat) : ModelRec :=
  { die := d, part := part, row := row, first := 0, count := count, data := data, dies := corrDies opt d, cal := some (i, data.map fun w => ~~~ w) }

/-- Pack 16-bit values, low half first. -/
def packHalves (xs : List Int) : List Word := toWords (xs.flatMap bytes16)

/-- The records that give sites new entries and drift terms: one pair for each row named. -/
def modelWrites (i : Nat) (d : Fin 2) (drift : Bool) (es : List (Nat × Entry)) (ds : List (Nat × Int)) (rows : List Nat) (s : State) :
    List ModelRec :=
  let ea := (es.map (·.1)).toArray
  let em := es.toArray
  let find (k : Nat) : Option Nat := ea.findIdx? (· = k)
  rows.flatMap fun row =>
    let sites := (List.range 2048).map fun c => siteKey d row c
    let ents := sites.flatMap fun k =>
      encodeEntry (match (find k).bind fun j => em[j]? with
        | some x => x.2
        | none => entryAt k s)
    let e := rowRecord s.opt i d 0 row (toWords ents) 2048
    if drift then
      [rowRecord s.opt i d 1 row (packHalves (sites.map fun k => (assoc ds k).getD (driftAt k s))) 2048, e]
    else [e]

/-- Queue the calibration's writes for the next line-slot boundary (R153, R191). -/
def queueWrites (rs : List ModelRec) (s : State) : State := { s with corr := { s.corr with waiting := s.corr.waiting ++ rs } }

/-- The mean of squared deviations, and the sum, of rationals. -/
def variance (xs : List Rat) : Rat :=
  let m := meanRat xs
  meanRat (xs.map fun x => (x - m) * (x - m))

/-- The thermistor part of the precondition (R192). -/
def thermOk (refs : List Int) : Bool :=
  match refs with
  | [a, b] => [a, b].all (fun x => decide (-2000 ≤ x) && decide (x ≤ 8500)) && decide ((a - b).natAbs ≤ 10)
  | _ => false

/-- The fit and the acceptance of a SHUT run (R190–R192). -/
def shutDecide (d : Fin 2) (r : CalRun) (s : State) : State :=
  let b := nth 0 r.cfg 1
  let c := nth 0 r.cfg 2
  let n3 := r.total / 3
  let arr := (r.sums.map (·.toArray)).toArray
  let sum (k i : Nat) : Int := (arr.getD k #[]).getD i 0
  let px := (List.range 98304).filterMap fun i =>
    let key := siteKey d (i / 2048) (i % 2048)
    let e := entryAt key s
    if e.badPix then none
    else
      let f := shutFit e n3 (slotLen s) (bits b 13 4) (sum 0 i) (sum 1 i) (sum 2 i)
      some ({ key := key, a := f.1, tau := f.2 } : ShutPixel)
  let ref := medianRat (px.map (·.a))
  let out := px.map fun p =>
    let dd := shutDd (entryAt p.key s) (p.a - ref)
    (p, dd, shutOutlier (bits b 31 22) dd p.tau)
  let bad := out.countP fun x => x.2.2
  let sig : Rat := (bits c 31 20 : Nat)
  let dark := decide (((medianRat (r.dark1.map fun x => (x : Rat))) - medianRat (r.dark0.map fun x => (x : Rat))) ≤ 64) &&
    decide (((medianRat (r.dark0.map fun x => (x : Rat))) - medianRat (r.dark1.map fun x => (x : Rat))) ≤ 64)
  let ok := decide (bad * 1000 ≤ px.length) && !r.spoiled && bits s.focal[d].kept1 7 2 ≠ 63 && thermOk r.refs &&
    decide (variance (px.map (·.a)) ≤ sig * sig) && dark
  if !ok then calFail [d.val] s
  else
    let good := out.filter fun x => !x.2.2
    let es := good.filterMap fun x =>
      match x.1.tau with
      | some t => some (x.1.key, { entryAt x.1.key s with tau := (rndRat ((t - 500) / 25)).toNat })
      | none => none
    let ds := good.map fun x => (x.1.key, clampI (-32768) 32767 (driftAt x.1.key s + x.2.1.getD 0))
    let s := queueWrites (modelWrites d d true es ds (List.range 48) s) s
    calEnd d true (modCal (fun c => { c with sref := c.sref.set d (some (ref, s.time, true)) }) s)

/-- Measurement ends: OPEN is issued, and the fit and the acceptance run (R188, R190). -/
def execShutMeasureEnd (d : Fin 2) (s : State) : Host.Outcome State Fault Refusal :=
  .next (
    match runOf d s with
    | some r =>
      if working s && r.phase = .measuring && r.n = r.total then
        shutDecide d { r with refs := r.refs ++ (shutTherm d s).toList } (moveShutter d false s)
      else s
    | none => s)

/-! ### Scene refinement (R193, R194) -/

/-- The sums of a SCENE run are complete (R193). -/
def sceneFull (d : Fin 2) (r : CalRun) (s : State) : Bool :=
  (dieEngines d s).all fun l => nth 0 r.counts (l.val % 32) = 2 ^ bits (nth 0 r.cfg 2) 7 4

/-- After a SCENE PASS the median G of the die's non-BAD pixels is measured against its factory value (R359). -/
def fdAge (d : Fin 2) (gs : List Nat) (s : State) : State :=
  let m := (rndRat (medianRat (gs.map fun g => (g : Rat)))).toNat
  let s := setF (F.thmDieAgeAge (4 + d)) m s
  if s.mode ≠ .park && !inShutdown s && decide (130 * s.thm.factG[d] ≤ 100 * m) then wearOut 1 1 (4 + d) s else s

/-- The refined gains and the acceptance of a SCENE run (R193, R194). -/
def sceneDecide (d : Fin 2) (r : CalRun) (s : State) : State :=
  let i := 2 + d.val
  match s.cal.sref[d] with
  | none => calFail [i] s
  | some (sref, at_, fresh) =>
    let n : Rat := (2 ^ bits (nth 0 r.cfg 2) 7 4 : Nat)
    let sums := (nth [] r.sums 0).toArray
    let engs := (dieEngines d s).map fun l => l.val % 32
    let px := (List.range 98304).filterMap fun k =>
      let key := siteKey d (k / 2048) (k % 2048)
      let e := entryAt key s
      if e.badPix || e.sceneExcl || !engs.contains (k % 2048 / 64) then none
      else some (key, (sums.getD k 0 : Rat) / n - sref)
    let m := medianRat (px.map (·.2))
    let gmax := bits (nth 0 r.cfg 1) 21 14
    let out := px.map fun p =>
      let g := (entryAt p.1 s).g
      let gn : Int := if p.2 = 0 then 0 else rndRat ((g : Rat) * m / p.2)
      (p.1, gn, decide (p.2 * m ≤ 0) || decide (gn < 8192) || decide (32767 < gn) ||
        decide (g * gmax < 256 * (gn - (g : Int)).natAbs))
    let bad := out.countP fun x => x.2.2
    let ok := decide (bad * 1000 ≤ px.length) && fresh && decide (s.time ≤ at_ + 1800000000000) &&
      decide (((bits (nth 0 r.cfg 2) 19 8 : Nat) : Rat) ≤ max m (-m)) &&
      decide (s.time ≤ r.start + bits (nth 0 r.cfg 3) 31 16 * 1000000000)
    if !ok then calFail [i] s
    else
      let es := (out.filter fun x => !x.2.2).map fun x => (x.1, { entryAt x.1 s with g := x.2.1.toNat })
      let kept := (List.range 98304).filterMap fun k =>
        let e := entryAt (siteKey d (k / 2048) (k % 2048)) s
        if !e.badPix && (e.sceneExcl || !engs.contains (k % 2048 / 64)) then some e.g else none
      let gs := out.map fun x => if x.2.2 then (entryAt x.1 s).g else x.2.1.toNat
      calEnd i true (fdAge d (gs ++ kept) (queueWrites (modelWrites i d false es [] (List.range 48) s) s))

/-- Enough background line slots are summed (R193); with SCENE_EN the next run starts (R182). -/
def execSceneRunEnd (d : Fin 2) (s : State) : Host.Outcome State Fault Refusal :=
  .next (
    match runOf (2 + d.val) s with
    | some r => if working s && sceneFull d r s then startScene d (sceneDecide d r s) else s
    | none => s)

def execSceneTimeout (d : Fin 2) (s : State) : Host.Outcome State Fault Refusal :=
  .next (
    match runOf (2 + d.val) s with
    | some r =>
      if working s && decide (r.start + bits (nth 0 r.cfg 3) 31 16 * 1000000000 ≤ s.time) then
        startScene d (calFail [2 + d.val] s)
      else s
    | none => s)

/-! ### Class A items (R195–R197) -/

/-- May the item start now (R195, R197, Table 8.1)? No run starts in STANDBY or PARK (R198). SADC follows every SHUT run of
the gap, those still pending that the gap can take among them (DEDUCED, assumption 142). -/
def classAMay (i : Nat) (s : State) : Bool :=
  working s && itemPresent s.opt i && dieUp (itemDie i) s && calPending i s && !calRunning i s &&
    (if i < 6 then pacing (Fin.ofNat 2 i) s
    else if i < 8 then flag (F.fpdStateBiasOn (i % 2)) s
    else if i < 10 then true
    else gapOpen s && gapLeaves 2000000 s && !calRunning 0 s && !calRunning 1 s && !shutWaits 0 s && !shutWaits 1 s)

/-- A class A run starts, and converts its reference (R195). -/
def execClassARunStart (i : Fin 12) (s : State) : Host.Outcome State Fault Refusal :=
  .next (if 4 ≤ i.val && i.val ≤ 10 && classAMay i s then requestRef i (startRun (newRun i (.ref 0) s) s) else s)

/-- A repeat's measurement is complete, and the reference is converted again (R195).  `codes` are the ramp conversions of the
blanking per column in physical order, oldest first (R187, R196), and `amp` the deviation of the bias amplitude in mV. -/
def execClassARepeatEnd (i : Fin 12) (codes : List (List Int)) (amp : Int) (s : State) : Host.Outcome State Fault Refusal :=
  .next (
    match runOf i s with
    | some r =>
      match r.phase with
      | .repeating k =>
        if !working s || !repeatDone r s then s
        else
          let t := repeatTrims r codes amp s
          requestRef i (modCalRun i (fun r => { r with phase := .ref (2 * k + 1), meas := r.meas ++ [t] }) s)
      | _ => s
    | none => s)

/-- A CSN channel finds no idle time within 10 s of the repeat's start: it takes no part (R197; assumption 56). -/
def execCsnIdleTimeout (d : Fin 2) (ch : Fin 64) (s : State) : Host.Outcome State Fault Refusal :=
  .next (
    match runOf (8 + d.val) s with
    | some r =>
      match r.phase with
      | .repeating _ =>
        if live s && decide (r.since + 10000000000 ≤ s.time) && (nth (0, 0) r.chans ch.val).1 ≠ 256 then
          modCalRun (8 + d.val) (fun r => { r with dead := ch.val :: r.dead }) s
        else s
      | _ => s
    | none => s)

/-! ### Saving (R200, R377) -/

/-- SAVE_HOURS after the first unsaved acceptance (R200). -/
def execSaveDue (s : State) : Host.Outcome State Fault Refusal :=
  .next (
    if live s && (s.cal.unsaved.getLast?.any fun x => decide (x.2 + bits (s.word F.calCfg0) 13 6 * 3600000000000 ≤ s.time)) then
      startSave s
    else s)

/-- A failed SAVE is retried after 10 min (R200). -/
def execSaveRetry (s : State) : Host.Outcome State Fault Refusal :=
  .next (
    let ms := (s.time / 1000000 + 2 ^ 32 - getF (F.calItemTimeDoneMs 11) s) % 2 ^ 32
    if live s && getF (F.calItemResultResult 11) s = 0x3C && decide (600000 ≤ ms) then startSave s else s)

/-- A SAVE requested while one ran starts when that has ended (R180). -/
def saveAgain (s : State) : State := if calPending 11 s then startSave s else s

/-- What a SAVE that fails has still to write is dropped; a copy of it in programming ends unfinished (R374, R377). -/
def endSave (s : State) : State :=
  match s.nvs.queue with
  | w :: _ => showNvs (modNvs dropSave (if w.save then modNvs (fun n => { n with failed := 0 }) (nvsInterrupt s) else s))
  | [] => showNvs (modNvs dropSave s)

/-- SAVE ends: it passes when every record and the commit record are committed (R200).  What was accepted after its start stays
unsaved. -/
def execSaveComplete (ok : Bool) (s : State) : Host.Outcome State Fault Refusal :=
  .next (
    if !live s || !calRunning 11 s then s
    else
      let left := (s.nvs.queue ++ s.nvs.later).any (·.save)
      if ok && !left && s.nvs.save.isSome then
        let s := modNvs (fun n => { n with save := none }) s
        let left := s.cal.unsaved.take (s.cal.unsaved.length - s.cal.saving)
        saveAgain (calEnd 11 true (setF F.calStateSaveDue (b2n !left.isEmpty)
          (modCal (fun c => { c with unsaved := left, generation := lastGen s.nvs }) s)))
      else if ok then s
      else saveAgain (calEnd 11 false (endSave s)))

/-! ### In a line slot (R185, R189, R196) -/

/-- The corrected values of rows 0–47 of the line slot, row by row. -/
def activeRows (d : Fin 2) (s : State) : List (List Word) :=
  (List.range 48).map fun k =>
    match s.corr.dies[d].rows.find? fun r => r.row = k with
    | some r => r.out
    | none => List.replicate 2048 0x2000000

/-- Add a line slot to sums, row by row. -/
def addSlot (sums : List Int) (rows : List (List Word)) : List Int :=
  List.zipWith (· + ·) sums (rows.flatMap fun r => r.map fun w => dec 24 (bits w 23 0))

/-- A SHUT run measures the line slot (R190, R192). -/
def shutSlot (d : Fin 2) (s : State) : State :=
  match runOf d s with
  | some r =>
    if r.phase ≠ .measuring || r.n = r.total then s
    else
      let k := r.n / (r.total / 3)
      let sums := r.sums.zipIdx.map fun x => if x.2 = k then addSlot x.1 (activeRows d s) else x.1
      let spoiled := r.spoiled || getF (F.fpdStateShutter d) s ≠ shClosed
      let dark := if k = 2 then r.dark1 ++ blindRow d s else r.dark1
      modCalRun d (fun r => { r with n := r.n + 1, sums := sums, spoiled := spoiled, dark1 := dark }) s
  | none => s

/-- Is every value of an engine's columns in a kept line slot free of flags (R185)? -/
def slotClean (rows : List (List Word)) (e : Nat) : Bool :=
  rows.all fun r => ((r.drop (64 * e)).take 64).all wordValid

/-- A SCENE run takes line slot n once line slot n + 16 confirms it (R185, R193). -/
def sceneSlot (d : Fin 2) (s : State) : State :=
  let rec16 := s.cal.recent[d]
  match runOf (2 + d.val) s, rec16[16]? with
  | some r, some rows =>
    let top := 2 ^ bits (nth 0 r.cfg 2) 7 4
    let counts := if r.counts.isEmpty then List.replicate 32 0 else r.counts
    let sums := if r.sums.isEmpty then List.replicate 98304 0 else nth [] r.sums 0
    let take : List (Fin 64) := (dieEngines d s).filter fun (l : Fin 64) =>
      decide (81 ≤ nth 0 s.cal.quiet l.val) && decide (nth 0 counts (l.val % 32) < top) && slotClean rows (l.val % 32)
    let es := take.map fun (l : Fin 64) => l.val % 32
    let vals := (rows.flatMap fun w => w.map fun w => dec 24 (bits w 23 0)).zipIdx
    modCalRun (2 + d.val) (fun r => { r with
      counts := counts.zipIdx.map fun c => if es.contains c.2 then c.1 + 1 else c.1
      sums := [List.zipWith (fun a v => if es.contains (v.2 % 2048 / 64) then a + v.1 else a) sums vals] }) s
  | _, _ => s

/-- The ramp conversions of the blanking and the row slots of a line slot count for the CONV and BIAS runs (R187, Table
8.4). -/
def classASlot (d : Fin 2) (s : State) : State :=
  let add (n : Nat) (r : CalRun) : CalRun :=
    match r.phase with
    | .repeating _ => { r with ramp := r.ramp + n }
    | _ => r
  let s := if flag (F.fpdStateBiasOn d) s then modCalRun (6 + d.val) (add 50) s else s
  if 2000 ≤ blanking s then modCalRun (4 + d.val) (add (min 8 (blanking s / 2000))) s else s

/-- The line slot of a focal die joins the calibration's sums and records. -/
def calSlot (d : Fin 2) (s : State) : State :=
  let s := classASlot d (shutSlot d s)
  let s := if calRunning (2 + d.val) s then
      sceneSlot d (modCal (fun c => { c with recent := c.recent.set d ((activeRows d s :: c.recent[d]).take 17) }) s) else s
  s

/-- How long each engine has read PRESENT = 0, in line slots (R185). -/
def countQuiet (s : State) : State :=
  modCal (fun c => { c with quiet := c.quiet.zipIdx.map fun q => if flag (F.algEngStatePresent q.2) s then 0 else q.1 + 1 }) s

/-- The TAINT of a shutter run at a line-slot boundary (R189). -/
def taintBoundary (d : Fin 2) (s : State) : State :=
  modCal (fun c => { c with taint := c.taint.set d (
    match c.taint[d] with
    | .armed => .on
    | .ending => .off
    | x => x) }) s

end Sys2Proof.Machine
end

