-- ==== Sys2Proof/Machine/LineSlot.lean ====
section
/-!
DEFINITION. The line-slot boundary (R98, R100) with all that a line slot brings to the correction, the along-track chain,
the estimators, the fused lines and the calibration, and the internal synchronising reset edge (R118, R134, R160).
-/

namespace Sys2Proof.Machine

/-- Words still on their way are corrected before the line slot's results are formed. -/
def takeRows (d : Fin 2) : Nat → State → State
  | 0, s => s
  | k + 1, s => if s.focal[d].sent.isEmpty then s else takeRows d k (takeRow d ⟨[], []⟩ s)

/-- The chain of a band over the line slot that ends (R125–R130, R165): a band that is blind, or owes a zero state, has none.
A handover back to a short response can complete five parts in one line slot. -/
def chainSlot (b : Fin 16) (s : State) : State :=
  if s.bands[b].blind.isSome || s.bands[b].owed then s
  else
    let s := (bandEngines b).foldl (fun s l => engineSlot l s) s
    let m := s.bands[b].slot
    let s := placeLines b 8 s
    completeLines b 8 ((bandEngines b).foldl (fun s l => makeParts l m 8 s) s)

/-- A band over the line slot that ends: blind lines (R168) or its product lines, and its estimator, which the stream die of its
columns runs (R161–R164). -/
def bandSlot (b : Fin 16) (s : State) : State :=
  let s := if bandBlind b s then blindSlot b s else if pacing (bandFd b) s then chainSlot b s else s
  if (estBands b s).any (fun k => pacing (bandFd k) s) && dieUp (bandDie s.opt b) s then estimatorSlot b s else s

/-- The bands of the option. -/
def bandsOf (opt : Opt) : List (Fin 16) := (List.range (bandCount opt)).map fun b => Fin.ofNat 16 b

/-- What the line slot that ends brings (R155–R172, R185–R193). -/
def slotResults (s : State) : State :=
  let s := takeRows 1 50 (takeRows 0 50 s)
  let each (f : Fin 2 → State → State) (s : State) : State :=
    (List.finRange 2).foldl (fun s d => if pacing d s then f d s else s) s
  let s := (List.finRange 2).foldl (fun s d => modCorr d (fun e => { e with blindWas := none }) s) s
  let s := each (fun d s => if dieUp (streamDieOf s.opt d 0) s then blindRecords d s else s) s
  let s := (bandsOf s.opt).foldl (fun s (b : Fin 16) => if pacing (bandFd b) s then keepRows b s else s) s
  let s := each calSlot (countQuiet s)
  let before := (bandsOf s.opt).map fun b => s.bands[b].next
  let s := (bandsOf s.opt).foldl (fun s b => bandSlot b s) s
  let blindLine := ((bandsOf s.opt).zip before).any fun x => bandBlind x.1 s && s.bands[x.1].next ≠ x.2
  makeFused blindLine s

/-- DEPTH, SH1 and SH2 take effect at a boundary; a change of them, or of the line-slot length, taints the spans across
it: it is kept as the number of the line slot that starts (R123, R136). -/
def takeEngCfg (lenChanged : Bool) (l : Fin 64) (s : State) : State :=
  let w := s.word (F.algEngCfg l)
  let n := match s.engines[l].nextCfg with
    | some c => putBits w 31 15 (bits c 31 15)
    | none => w
  let slot := s.bands[Fin.ofNat 16 (l.val / 4)].slot + 1
  let s := if n = w then s else s.setWord (F.algEngCfg l) n
  modEng l (fun e => { e with
    nextCfg := none
    changes := if n ≠ w || lenChanged then slot :: e.changes.filter (· ≠ slot) else e.changes }) s

/-- A passed BIAS trim takes effect at a zero state of the die's engines, and sets the die's SHUT pending slot (R197); a pair
that does not agree is not applied (R199). -/
def applyBias (d : Fin 2) (s : State) : State :=
  match s.cal.biasNext[d] with
  | none => s
  | some (t, c) =>
    let s := modCal (fun k => { k with biasNext := k.biasNext.set d none }) s
    if trimNot t = c then requestRun d (modCal (fun k => { k with bias := k.bias.set d t }) s) else calComplement (6 + d) s

/-- A band starts its next line slot: its lap 63 ahead latches ρ (R126). One that was blind, or owes it to a die that was
reset and is back, starts from zero state (R88, R134, R168), its pacer running or not; one whose pacer starts only now does so
in `zeroStarted`. -/
def startBandSlot (was : State) (b : Fin 16) (s : State) : State :=
  if bandBlind b s || (!pacing (bandFd b) was && pacing (bandFd b) s) then s
  else if s.bands[b].blind.isSome || s.bands[b].owed then applyBias (bandFd b) (zeroBandEngines false b s)
  else if !pacing (bandFd b) was || !pacing (bandFd b) s then s
  else
    let (l, held) := latchLap (getF (F.velBandVelocity b) s) s
    countHeld b (b2n held) (modBand b (fun e => { e with slot := e.slot + 1, laps := (l :: e.laps).take 264 }) s)

/-- The correction of a die starts a line slot: the substrate value is latched, and the rows are empty. -/
def startCorr (d : Fin 2) (s : State) : State :=
  modCorr d (fun e => { e with sub := dec 16 (getF (F.fpdSubstrateTemp d) s), rows := [] }) s

/-- Settings that wait for a line-slot boundary take effect (R100, R123, R153, R160, R164, R196). -/
def takeSettings (was : State) (s : State) : State :=
  let s := takeVcfg s
  let s := (bandsOf s.opt).foldl (fun s b => publishDefault b s) s
  let s := applyConv 1 (applyConv 0 (applyModels s))
  (List.finRange 64).foldl (fun s l => if l.val < engCount s.opt then takeEngCfg (slotLen was ≠ slotLen s) l s else s) s

/-- The next line slot starts (R22). -/
def startLineSlot (was : State) (s : State) : State :=
  let s := { s with
    grid := { s.grid with stamps := (s.time :: s.grid.stamps).take 256, slotAt := s.periph }
    freeze := { s.freeze with taintSlots := s.freeze.taintSlots - 1 } }
  let s := startCorr 1 (startCorr 0 s)
  let s := (List.finRange 2).foldl (fun s d => taintBoundary d s) s
  startScene 1 (startScene 0 (pacerChanges was s))

/-- A zero state of the engines of a band that stays blind: its velocity enters DEFAULT and its estimator starts anew, and it
keeps its place in the blind lines (R134, R164, R168). -/
def zeroStillBlind (b : Fin 16) (s : State) : State :=
  let e := s.bands[b]
  modBand b (fun x => { x with next := e.next, last := e.last, blind := e.blind, owed := e.owed }) (zeroBandEngines false b s)

/-- The engines of a die whose pacer starts without a synchronising reset start from zero state (R134); a band that stays blind
keeps its place in the blind lines (R168). -/
def zeroStarted (was : State) (s : State) : State :=
  (List.finRange 2).foldl (fun s (d : Fin 2) =>
    if !pacing d was && pacing d s then
      modCorr d (fun e => { e with cmLast := [] }) (applyBias d ((bandsOf s.opt).foldl (fun s (b : Fin 16) => if bandFd b ≠ d then s
        else if bandBlind b s then zeroStillBlind b s
        else zeroBandEngines false b s) s))
    else s) s

/-- A line slot ends and the next begins (R98, R100). -/
def execLineSlotBoundary (s : State) : Host.Outcome State Fault Refusal :=
  .next (
    if !working s || !atBoundary s || s.grid.lastEdge.isNone then s
    else
      let s := matrixCut 1 (matrixCut 0 (slotResults s))
      let was := s
      let s := takeSettings was (focalBoundary s)
      let s := (bandsOf s.opt).foldl (fun s b => startBandSlot was b s) s
      let s := checkTie 1 (checkTie 0 (camSlotBoundary 1 (camSlotBoundary 0 s)))
      zeroStarted was (startLineSlot was s))

/-- The records at COR.BLIND of the last complete line slot before an edge are not made (R118): those that its boundary
replaced are held again, where the die's pacer ran through it up to the edge. -/
def undoBlind (d : Fin 2) (s : State) : State :=
  modCorr d (fun e => { e with
    blind := if pacing d s then e.blindWas.getD e.blind else e.blind
    blindWas := none, rows := [], cmLast := [] }) s

/-- The device time of the edge at cycle `c` against E0 of the SYNC cell behind it, if one is (R414). -/
def showSyncOffset (c : Nat) (s : State) : State :=
  match s.net.syncE0.find? fun x => x.1 = c with
  | none => s
  | some x =>
    modNet (fun n => { n with syncE0 := n.syncE0.filter fun y => decide (c < y.1) }) (setF F.lnkSyncOffsetOffset (enc 16 (s.time - x.2)) s)

/-- The internal reset edge (R118, R134, R139, R144, R160, R166). -/
def syncEdge (s : State) : State :=
  let s := undoBlind 1 (undoBlind 0 (fusedAtEdge (matrixCut 1 (matrixCut 0 s))))
  let was := s
  let s := showSyncOffset (s.grid.edge.getD s.periph) (focalSyncEdge s)
  let s := takeGrid s
  let s := takeSettings was s
  let s := (bandsOf s.opt).foldl (fun s b => zeroBandEngines true b s) s
  let s := camSyncEdge 1 (camSyncEdge 0 (camSlotBoundary 1 (camSlotBoundary 0 s)))
  let s := (List.finRange 2).foldl (fun s d => applyBias d (modCsn d (fun e => { e with zeroAt := some s.periph }) s)) s
  let s := { s with fused := { s.fused with next := 0 } }
  let s := startLineSlot was { s with grid := { s.grid with stamps := [] } }
  calPacerChange 1 (calPacerChange 0 s)

def execSyncResetEdge (s : State) : Host.Outcome State Fault Refusal :=
  .next (if working s && s.grid.edge.isSome then syncEdge s else s)

end Sys2Proof.Machine
end

