-- ==== Sys2Proof/Machine/Links.lean ====
section
/-!
DEFINITION. The baton links (R230–R233) and the DDR5 channels (R85, R234–R238).
-/

namespace Sys2Proof.Machine

/-! ### Baton links -/

/-- Change a link; change one of its directions. -/
def modLink (l : Fin 16) (f : Link → Link) (s : State) : State := { s with links := vmod s.links l f }
def linkDir (up : Bool) (k : Link) : LinkDir := if up then k.up else k.down
def modDir (l : Fin 16) (up : Bool) (f : LinkDir → LinkDir) (s : State) : State :=
  modLink l (fun k => if up then { k with up := f k.up } else { k with down := f k.down }) s

/-- Odd parity of a word (R230). -/
def oddParity (w : Word) : Bool := popCount w % 2 = 0

/-- Does every word of the flit carry odd parity? -/
def flitOk (f : Flit) : Bool := (List.range 4).all fun i => f.parity.getLsbD i = oddParity (nth 0 f.w i)

/-- The link becomes fatal: its traffic moves where it has a second path (R231–R233). -/
def linkFatal (l : Fin 16) (s : State) : State :=
  let s := setAt F.stcLinkUp l false (setAt F.stcLinkFatalFatal l true (setF F.stcFaultLinkFatal 1 s))
  raise 0x2001 7 l 0 (modLink l (fun k => { k with moving := !(secondPaths s.opt l).isEmpty }) s)

/-- The sender of a direction resends from flit `q`, in order (R231). -/
def replay (l : Fin 16) (up : Bool) (q : Fin 128) (s : State) : State :=
  let d := linkDir up s.links[l]
  if !d.discarding || d.expect ≠ q then s
  else
    bump (F.stcLinkReplayReplays l)
      (modDir l up (fun e => { e with sendAt := q, attempts := e.attempts + 1, discarding := false }) s)

/-- Flits up to sequence number `q` are acknowledged. -/
def acknowledge (l : Fin 16) (up : Bool) (q : Fin 128) (s : State) : State :=
  modDir l up (fun e => { e with buf := if e.buf.any (·.seq = q) then (e.buf.dropWhile (·.seq ≠ q)).drop 1 else e.buf }) s

/-- The flit as it was sent: `noise` holds, per word, the bits that the link turned over, its parity bit uppermost. -/
def sentFlit (f : Flit) (noise : List (BitVec 33)) : Flit :=
  { f with
    w := (List.range 4).map fun i => nth 0 f.w i ^^^ (nth 0 noise i).setWidth 32
    parity := f.parity ^^^ BitVec.ofNat 4 (((List.range 4).filter fun i => (nth 0 noise i).getLsbD 32).map (2 ^ ·)).sum }

/-- May the sender send this data flit next (R230, R231): a new one, while fewer than 64 are unacknowledged, or in a replay the
one of its buffer that follows? -/
def maySend (d : LinkDir) (g : Flit) : Bool :=
  g.seq = d.sendAt &&
    if d.sendAt = d.next then decide (d.buf.length < 64)
    else (d.buf.find? fun x => x.seq = d.sendAt).any fun x => x.w = g.w

/-- The sender keeps the data flit it sends, and goes on to the next. -/
def keepSent (d : LinkDir) (g : Flit) : LinkDir :=
  if d.sendAt = d.next then { d with buf := d.buf ++ [g], next := d.next + 1, sendAt := d.sendAt + 1 }
  else { d with sendAt := d.sendAt + 1 }

/-- A data flit `f`, sent as `g`, at its receiver (R231): in sequence and whole it is delivered; failing it starts a replay
or, on the fourth reception, makes the link fatal; every later flit is discarded until the replay. -/
def takeFlit (l : Fin 16) (up : Bool) (f g : Flit) (s : State) : State :=
  let d := linkDir up s.links[l]
  if !maySend d g then s
  else
    let s := modDir l up (fun e => keepSent e g) s
    if d.discarding || f.seq ≠ d.expect then s
    else if flitOk f then
      modDir l up (fun e => { e with expect := f.seq + 1, attempts := 0, inbox := (f :: e.inbox).take 64 }) s
    else if 3 ≤ d.attempts then linkFatal l s
    else modDir l up (fun e => { e with discarding := true }) s

/-- A flit arrives: `up` runs from the first end of Table 10.2 to the second, and `noise` is what the link turned over of it
(R230, R231). -/
def execFlitReceived (l : Fin 16) (up : Bool) (f : Flit) (noise : List (BitVec 33)) (s : State) :
    Host.Outcome State Fault Refusal :=
  .next (
    if !clocked s || !linkUp l s || !flitOk (sentFlit f noise) then s
    else
      let s := if flitOk f && f.ack.getLsbD 7 then acknowledge l (!up) (Fin.ofNat 128 (f.ack.toNat % 128)) s else s
      match f.type.toNat with
      | 1 => takeFlit l up f (sentFlit f noise) s
      | 2 => if flitOk f then replay l (!up) f.seq s else s
      | _ => s)

/-- A replay request for flit `q` of a direction reaches its sender (R231). -/
def execReplayRequest (l : Fin 16) (up : Bool) (q : Fin 128) (s : State) : Host.Outcome State Fault Refusal :=
  .next (if clocked s && linkUp l s then replay l up q s else s)

/-- A direction whose replay buffer is resent over the new path: what had not been received arrives there, once and in order
(R232). -/
def resend (d : LinkDir) : LinkDir :=
  { d with
    buf := [], sendAt := d.next, expect := d.next, discarding := false, attempts := 0
    inbox := ((d.buf.dropWhile (·.seq ≠ d.expect)).reverse ++ d.inbox).take 64 }

/-- The traffic of a fatal link stands on its second path, and the replay buffers are resent over it (R232). -/
def execLinkRemapComplete (l : Fin 16) (s : State) : Host.Outcome State Fault Refusal :=
  .next (
    if clocked s && s.links[l].moving && !linkUp l s && (secondPath l s).isSome then
      let s := modLink l (fun k => { up := resend k.up, down := resend k.down, moving := false }) s
      drainMsgs 1 (drainMsgs 0 (raise 0x2002 7 l 0 (setAt F.stcLinkRemapped l true s)))
    else s)

/-! ### DDR5 -/

/-- Change a channel. -/
def modDdr (c : Fin 4) (f : DdrChan → DdrChan) (s : State) : State := { s with ddr := vmod s.ddr c f }

/-- The populated size of a channel in bytes (STC.DDR_SIZE). -/
def ddrSize (c : Fin 4) (s : State) : Nat :=
  let n := getF F.stcDdrSizeSize s / 4 ^ c.val % 4
  if n = 0 then 0 else 2 ^ (32 + n)

/-- Why an access does not reach the channel (R85, R235–R237): the completion code, and whether it counts as refused.  The wipe
passes a channel from its first byte up (DESIGN CHOICE, assumption 41); before training nothing has been wiped. -/
def ddrRefusal (c : Fin 4) (x : Xfer) (s : State) : Option (Nat × Bool) :=
  if flagAt F.stcDdrFatal c s then some (4, false)
  else if !s.ddr[c].trained then some (4, true)
  else if ddrSize c s = 0 then some (4, false)
  else if x.len % 8 ≠ 0 ∨ ddrSize c s < 8 * x.addr + x.len then some (2, false)
  else if !s.ddr[c].wiped && decide (s.ddr[c].passed < 8 * x.addr + x.len) then some (4, true) else none

/-- A refused access counts, and the first after a reset is reported (R85). DESIGN CHOICE: "each reset" is each full reset; a
die or cluster reset does not arm the event again; assumption 124. -/
def countRefused (s : State) : State :=
  let s := bump F.rstDdrRefusedDdrRefused s
  if s.boot.refusedOnce then s else raise 0x0230 0 0 0 { s with boot := { s.boot with refusedOnce := true } }

/-- The bursts of 64 bytes that bytes from `a` touch, in 64-byte units. -/
def burstsOf (a n : Nat) : List Nat := (List.range ((a % 64 + n + 63) / 64)).map fun i => a / 64 + i

/-- A word of a burst, or zero where the burst failed. -/
def burstWord (c : Fin 4) (bad : List Nat) (a : Nat) (s : State) : Word :=
  if bad.contains (a / 64) then 0 else readW s.mem (ddrBase c + a)

/-- The pages of a unit's store that a transfer fills whole, with their DDR5 source (R234). -/
def backedPages (base a n : Nat) : List (Nat × Nat) :=
  (List.range (n / 4096 + 1)).filterMap fun i =>
    let p := (base + 4095) / 4096 * 4096 + 4096 * i
    if p + 4096 ≤ base + n then some (p, a + (p - base)) else none

/-- A STREAM.IN from a channel: bursts that hold a word that fails parity, or whose re-reads failed, arrive as zeros
(Table 10.4); the whole pages of a cluster's store that it fills from good bursts are DDR-backed. -/
def ddrRead (c : Fin 4) (x : Xfer) (s : State) : State :=
  let a := 8 * x.addr
  let stuck := (burstsOf a x.len).filter fun b => (wordAddrs (ddrBase c + 64 * b) 16).any fun w => badAt w s
  let mine (y : UnitId × Tag × Nat) : Bool := y.1 = x.unit && y.2.1 = x.tag
  let bad := stuck ++ (s.ddr[c].failing.filter mine).map (·.2.2)
  let s := stuck.foldl (fun s b => burstFail (ddrBase c + 64 * b) (bumpBy F.stcDdrCountReread 3 s)) s
  let ws := (List.range (x.len / 4)).map fun i => burstWord c bad (a + 4 * i) s
  let base := storeBase x.unit + x.base
  let hit := (burstsOf a x.len).any fun b => bad.contains b
  let s := storeWords base ws (modDdr c (fun e => { e with failing := e.failing.filter fun y => !mine y }) s)
  let whole (p : Nat × Nat) : Bool := !((burstsOf (p.2 - ddrBase c) 4096).any fun b => bad.contains b)
  let s := if x.unit.val < 26 then
      { s with backing := (backedPages base (ddrBase c + a) x.len).filter whole ++ s.backing } else s
  setCode x.unit x.tag (if hit then 3 else 0) s

/-- A STREAM.OUT to a channel: a source word that fails parity arrives with inverted parity (Table 10.4). -/
def ddrWrite (c : Fin 4) (x : Xfer) (s : State) : State :=
  let (s, bad) := checkSource x s
  let dst := ddrBase c + 8 * x.addr
  setCode x.unit x.tag (if bad then 3 else 0) (markBad (badSource x dst s) (storeWords dst (sourceWords x s) s))

/-- A transfer reaches its DDR5 channel; addresses are in units of 8 bytes (R85, R236). -/
def execDdrAccess (u : UnitId) (t : Tag) (s : State) : Host.Outcome State Fault Refusal :=
  .next (
    match (firstXfer u t s).filter fun x => decide (0x20 ≤ x.ep) && decide (x.ep ≤ 0x23) with
    | none => s
    | some x =>
      let c : Fin 4 := Fin.ofNat 4 (x.ep - 0x20)
      if !live s then s
      else if !reach (dieOf u) c s then setCode u t 4 s
      else if held (dieOf u) c s then s
      else
        match ddrRefusal c x s with
        | some (code, counts) => setCode u t code (if counts then countRefused s else s)
        | none => if x.out then ddrWrite c x s else ddrRead c x s)

/-- A read burst of the first transfer under way that reads it fails parity `fails` times in a row; `a` in units of 64 bytes
(Table 10.4). -/
def execDdrReadBurst (c : Fin 4) (a : BitVec 30) (fails : Nat) (s : State) : Host.Outcome State Fault Refusal :=
  .next (
    let reads (x : Xfer) : Bool := !x.out && x.code.isNone && x.ep = 0x20 + c.val &&
      (burstsOf (8 * x.addr) x.len).contains a.toNat && (ddrRefusal c x s).isNone &&
      !s.ddr[c].failing.contains (x.unit, x.tag, a.toNat)
    match s.xfers.find? reads with
    | none => s
    | some x =>
      if !live s then s
      else
        let s := bumpBy F.stcDdrCountReread (min fails 3) s
        if fails < 4 then s
        else modDdr c (fun e => { e with failing := (x.unit, x.tag, a.toNat) :: e.failing })
          (burstFail (ddrBase c + 64 * a.toNat) s))

/-- A DRAM signals ALERT_N `fails` times in a row for one command (R237). -/
def execDdrAlert (c : Fin 4) (fails : Nat) (s : State) : Host.Outcome State Fault Refusal :=
  .next (
    if !clocked s || ddrSize c s = 0 || flagAt F.stcDdrFatal c s || !dieUp c s then s
    else
      let s := bumpBy F.stcCaRetryCaRetry (min fails 3) s
      if fails < 4 then s
      else raise 0x2004 8 c 0 (setF F.stcFaultDdrChannelFatal 1 (setAt F.stcDdrFatal c true s)))

/-- The SPD hub sensor is read, in °C (R238). -/
def execDdrTempCheck (c : Fin 4) (temp : Int) (s : State) : Host.Outcome State Fault Refusal :=
  .next (
    if !clocked s || ddrSize c s = 0 || !dieUp c s then s
    else
      let s := if 85 ≤ temp then setAt F.stcDdrRefresh2x c true s else if temp < 82 then setAt F.stcDdrRefresh2x c false s else s
      let s := if 95 ≤ temp && !s.ddr[c].hot then raise 0x2005 8 c 0 s else s
      modDdr c (fun e => { e with hot := decide (95 ≤ temp) }) s)

end Sys2Proof.Machine
end

