-- ==== Sys2Proof/Machine/Thermal.lean ====
section
/-!
DEFINITION. Temperature management and ageing (R347–R362): readings, levels and throttle steps, shutdown and RESUME, the
set points, and the ageing monitors.
-/

namespace Sys2Proof.Machine

/-- Change a die's thermal state. -/
def modThm (d : Fin 8) (f : ThmDie → ThmDie) (s : State) : State := { s with thm := { s.thm with dies := vmod s.thm.dies d f } }

/-- Junction sensors of a die: the first of its sensors and how many (Table 16.1, Table 15.1). -/
def sensorsOf (d : Nat) : Nat × Nat :=
  if d < 4 then (4 * d, 4) else if d < 6 then (16 + 2 * (d - 4), 1) else (20 + 2 * (d - 6), 2)

/-- The die of a sensor, and whether it is a substrate sensor. -/
def sensorDie (i : Nat) : Nat × Bool :=
  if i < 16 then (i / 4, false) else if i < 20 then (4 + (i - 16) / 2, i % 2 = 1) else (6 + (i - 20) / 2, false)

/-- Is the die one that throttles (Table 16.2)? -/
def throttles (d : Nat) : Bool := decide (d < 4)

/-! ### Set points (R350, R357) -/

/-- The set points in force, WARN, THROT and SHUT in °C: the defaults where they and their complement disagree. -/
def setPoints (s : State) : Nat × Nat × Nat :=
  if s.thm.dflt || s.word F.thmLimitsN ≠ ~~~ s.word F.thmLimits then (110, 118, 125)
  else (getF F.thmLimitsWarn s, getF F.thmLimitsThrot s, getF F.thmLimitsShut s)

/-- A mismatch of the set points at the point of use (R357, R423): reported once until a valid record arrives. -/
def checkLimits (s : State) : State :=
  if s.thm.dflt || s.word F.thmLimitsN = ~~~ s.word F.thmLimits then s
  else raise 0x3308 0 0 0 (setF F.thmFaultComplement 1 (complementFail 2 { s with thm := { s.thm with dflt := true } }))

/-- An accepted record takes effect at the next reading (R357). -/
def takeLimits (s : State) : State :=
  match s.thm.next with
  | none => s
  | some w => (({ s with thm := { s.thm with next := none, dflt := false } }).setWord F.thmLimits w).setWord F.thmLimitsN (~~~ w)

/-- Does THM.CTL accept the record but for its complement (R357)? -/
def thmRangeOk (w : Word) : Bool :=
  inR 60 (bits w 31 24) 110 && inR 60 (bits w 23 16) 118 && inR 60 (bits w 15 8) 125 && bits w 7 0 = 0 &&
    decide (bits w 31 24 < bits w 23 16) && decide (bits w 23 16 < bits w 15 8)

/-- A record arrives at THM.CTL (R357). -/
def execThmCtlRecord (u : UnitId) (t : Tag) (s : State) : Host.Outcome State Fault Refusal :=
  .next (recordOut u t (· = 0x74) (fun _ _ _ => [0])
    (fun x ws s =>
      match ws with
      | [a, b] =>
        if b ≠ ~~~ a then
          refuseRecord F.thmFaultSettingsRefused 0x3307 0 0 x.ep
            (raise 0x3308 0 0 0 (setF F.thmFaultComplement 1 (complementFail 2 s)))
        else if !thmRangeOk a then refuseRecord F.thmFaultSettingsRefused 0x3307 0 0 x.ep s
        else ({ s with thm := { s.thm with next := some a } }, 0)
      | _ => refuseRecord F.thmFaultSettingsRefused 0x3307 0 0 x.ep s) s)

/-! ### Readings (R347–R349) -/

/-- The filtered value of a history of 8 samples: the fifth smallest (R347). -/
def medianOf8 (h : List Int) : Int := nth 0 (sortBy (fun x y => decide (x ≤ y)) h) 4

/-- A sample enters a history; the first fills it (R347). -/
def pushSample (h : List Int) (x : Int) : List Int := if h.isEmpty then List.replicate 8 x else (x :: h).take 8

/-- Is the sensor faulted? -/
def sensorFaulted (i : Nat) (s : State) : Bool := flag (F.thmSensorFault i) s

/-- The filtered value of a sensor. -/
def sensorTemp (i : Nat) (s : State) : Int := dec 16 (getF (F.thmSensorTemp i) s)

/-- A sensor is faulted until the next full reset (R348). -/
def sensorFault (i : Nat) (s : State) : State :=
  if sensorFaulted i s then s
  else
    let (d, sub) := sensorDie i
    let s := setF (F.thmSensorFault i) 1 (setF F.thmFaultSensor 1 s)
    let s := if sub then s else setAt (F.thmDieSensorFault d) (i - (sensorsOf d).1) true s
    raise 0x3306 0xC i 0 s

/-- The die reading: the highest filtered value among sensors not faulted; 0 °C at a focal or actuator die without one, none
at HUB or a stream die without one (R347, R349). -/
def dieReading (d : Nat) (s : State) : Option Int :=
  let (a, n) := sensorsOf d
  let xs := ((List.range n).filter fun k => !sensorFaulted (a + k) s).map fun k => sensorTemp (a + k) s
  match xs with
  | x :: rest => some (rest.foldl max x)
  | [] => if throttles d then none else some 0

/-- Take the samples of a die: histories, filtered values and the range test (R347, R348). -/
def takeSamples (d : Fin 8) (temps : List Int) (s : State) : State :=
  let (a, n) := sensorsOf d
  let e := s.thm.dies[d]
  let hist := (List.range n).map fun k => pushSample (nth [] e.hist k) (nth 0 temps k)
  let vals := hist.map medianOf8
  let s := vals.zipIdx.foldl (fun s x => setF (F.thmSensorTemp (a + x.2)) (enc 16 x.1) s) s
  let sub := 4 ≤ d.val && d.val < 6
  let s := if sub then setF (F.thmSensorTemp (a + 1)) (getF (F.fpdSubstrateTemp (d - 4)) s) s else s
  let vals := if sub then vals ++ [sensorTemp (a + 1) s] else vals
  let outs := vals.zipIdx.map fun x =>
    if x.1 < -4000 ∨ 15000 < x.1 then nth 0 e.outs x.2 + 1 else 0
  let s := modThm d (fun e => { e with hist := hist, outs := outs }) s
  outs.zipIdx.foldl (fun s x => if x.1 = 16 then sensorFault (a + x.2) s else s) s

/-! ### Levels and steps (R350–R353) -/

/-- The step in force on a die, its warning level, and its throttle level. -/
def dieStep (d : Nat) (s : State) : Nat := getF (F.thmDieStep d) s
def dieLevel (d : Nat) (s : State) : Nat := getF (F.thmDieLevel d) s

/-- Is the die in level `k` (0 warning, 1–3 the throttle steps, 4 the readings of shutdown)? A level holds once four
consecutive readings have reached it, and its count then stands at 4 until the level is left (R351). -/
def inLevel (k : Nat) (d : Fin 8) (s : State) : Bool := decide (4 ≤ nth 0 s.thm.dies[d].at_ k)

/-- Show a die's level and step, and the device's (R349, Table 16.5). -/
def showThm (s : State) : State :=
  let s := (List.finRange 8).foldl (fun s (d : Fin 8) =>
    if !diePresent s.opt d then s
    else if (dieReading d s).isNone then
      setF (F.thmDieTemp d) 0x8000 (setF (F.thmDieLevel d) 2 (setF (F.thmDieStep d) 3 s))
    else
      let step := if !throttles d then 0 else if inLevel 3 d s then 3 else if inLevel 2 d s then 2 else if inLevel 1 d s then 1 else 0
      let lvl := if s.thm.dies[d].shut then 3 else if inLevel 1 d s then 2 else if inLevel 0 d s then 1 else 0
      setF (F.thmDieLevel d) lvl (setF (F.thmDieStep d) step s)) s
  let ds := (List.finRange 8).filter fun (d : Fin 8) => diePresent s.opt d
  let read := ds.filterMap fun d => if s.thm.dies[d].hist.isEmpty then none else dieReading d s
  let s := match read with
    | x :: rest => setF F.thmStateHottest (enc 16 (rest.foldl max x)) s
    | [] => s
  let s := setF F.thmStateStep ((ds.map fun d => dieStep d s).foldl max 0) s
  let s := setF F.thmStateWarning (b2n (ds.any fun d => decide (1 ≤ dieLevel d s) && (dieReading d s).isSome)) s
  setF F.thmStateResumeReady (b2n (inShutdown s && ds.all fun d => !s.thm.dies[d].shut)) s

/-- The set point of warning (0), steps 1–3 and shutdown (4), in 0.01 °C. -/
def setPoint (k : Nat) (s : State) : Int :=
  let (w, t, h) := setPoints s
  100 * (nth 0 [w, t, t + 2, t + 4, h] k : Nat)

/-- Hysteresis, in 0.01 °C (Table 16.2). -/
def hysteresis (k : Nat) : Int := nth 0 [500, 600, 600, 600, 1500] k

/-- Level `k` is entered (R351): its count and its event. -/
def enterLevel (d : Fin 8) (k : Nat) (s : State) : State :=
  if k = 0 then raiseLim 0x3301 1 d 0 (bump F.thmCountWarningEntries s)
  else if k < 4 then raiseLim 0x3302 1 d 0 (bump F.thmCountThrottleEntries s) else s

/-- Which throttle step governs the exit timer: the step in force (R353); a focal or actuator die has step 1 alone. -/
def exitStep (d : Fin 8) (s : State) : Nat := if inLevel 3 d s then 3 else if inLevel 2 d s then 2 else 1

/-- One reading against the levels, from the highest down (R351, R353).  A count that has reached 4 stays while its level
holds. -/
def evaluate (d : Fin 8) (x : Int) (s : State) : State :=
  let e := s.thm.dies[d]
  let ks := if throttles d then [0, 1, 2, 3, 4] else [0, 1, 4]
  let new := (List.range 5).map fun k =>
    let c := nth 0 e.at_ k
    if !ks.contains k then 0
    else if k < 4 && 4 ≤ c then 4
    else if setPoint k s ≤ x then min 4 (c + 1) else 0
  let was := exitStep d s
  let s' := modThm d (fun e => { e with at_ := new }) s
  let s' := [3, 2, 1, 0].foldl (fun s k => if nth 0 e.at_ k < 4 ∧ 4 ≤ nth 0 new k then enterLevel d k s else s) s'
  let now := exitStep d s'
  let run (c : Nat) (k : Nat) : Nat := if x < setPoint k s - hysteresis k then c + 1 else 0
  modThm d (fun g => { g with below :=
    [run (nth 0 e.below 0) 0, run (if was = now then nth 0 e.below 1 else 0) now, run (nth 0 e.below 2) 4] }) s'

/-- A code of a temperature sensor in 0.01 °C: T = 25 °C + (V − 1.500 V) ÷ 2.000 mV/°C (Table 15.1). -/
def tempOfCode (c : Int) : Rat := 2500 + ((c : Rat) * 5 / 65536 - 3 / 2) * 50000

/-- Is the result an injected conversion of sensor `i` for the thermal manager? -/
def isCross (i : Nat) (x : InjResult) : Bool := x.req.src = .thm && x.req.inp = 32 + i

/-- A sensor's filtered value is compared with the result of its injected conversion, which is used once; without one, its
request having been dropped, the check is skipped (R348). -/
def execThmCrossCheck (i : Fin 24) (s : State) : Host.Outcome State Fault Refusal :=
  .next (
    let (d, sub) := sensorDie i
    let d : Fin 8 := Fin.ofNat 8 d
    let k := if sub then 1 else i.val - (sensorsOf d).1
    match s.sadc.results.find? (isCross i) with
    | none => s
    | some x =>
      if !live s || !diePresent s.opt d || !dieUp d s || s.thm.dies[d].hist.isEmpty || sensorFaulted i s then s
      else
        let far := decide (500 < |(sensorTemp i s : Rat) - tempOfCode x.code|)
        let n := if far then nth 0 s.thm.dies[d].cross k + 1 else 0
        let s := modSadc (fun e => { e with results := e.results.filter fun y => !isCross i y }) s
        let s := modThm d (fun e => { e with cross := e.cross.set k n }) s
        if n = 1000 then showThm (sensorFault i s) else s)

/-- A level or the step in force has stayed below its exit value for 16 ms, 16 readings, and is left (R351, R353). -/
def execLevelExit (d : Fin 8) (l : Level) (s : State) : Host.Outcome State Fault Refusal :=
  .next (
    if !clocked s || !diePresent s.opt d then s
    else
      let e := s.thm.dies[d]
      let leave (k : Nat) (s : State) : State :=
        showThm (modThm d (fun e => { e with at_ := e.at_.set k 0, below := if k = 0 then e.below else e.below.set 1 0 }) s)
      let step (k : Nat) : State :=
        if inLevel k d s && exitStep d s = k && decide (16 ≤ nth 0 e.below 1) then leave k s else s
      match l with
      | .warning => if inLevel 0 d s && decide (16 ≤ nth 0 e.below 0) then leave 0 s else s
      | .step1 => step 1
      | .step2 => step 2
      | .step3 => step 3
      | .shutdown =>
        if e.shut && (decide (16 ≤ nth 0 e.below 2) || (dieReading d s).isNone) then
          showThm (modThm d (fun e => { e with shut := false }) s)
        else s)

/-! ### Shutdown and RESUME (R354–R356, R427) -/

/-- The shutter bridges go to high impedance, and the springs open the flags (R354, R427). -/
def releaseShutters (s : State) : State :=
  (List.finRange 2).foldl (fun s (d : Fin 2) =>
    let st := getF (F.fpdStateShutter d) s
    if st = shClosing ∨ st = shClosed then endShutTaint d (releaseShutter d s) else s) s

/-- Close or open the shutters of the dies that work; in the safe state the bridges stay at high impedance (R427). -/
def moveShutters (close : Bool) (s : State) : State :=
  if inSafe s then s
  else (List.finRange 2).foldl (fun s (d : Fin 2) =>
    if diePresent s.opt (4 + d) && adUp d s then moveShutter d close s else s) s

/-- The pacers stop at once, with their bias (R354). -/
def haltPacers (s : State) : State :=
  let s := (List.finRange 2).foldl (fun s (d : Fin 2) =>
    modFd d (fun e => { e with sent := [], row := 50, rejoin := false }) (if fdUp d s then stopPacer d false s else s)) s
  cutLsync (setEdges [] s)

/-- Steps 1–5 of R354, with the closing of lines of R474, and what R427 holds. R427 names no pacer and no request: the safe
state of a life-cycle copy failure stops the pacers and ignores synchronising requests as the shutdown of R354 does (DESIGN
CHOICE, assumption 140). -/
def safeState (s : State) : State :=
  let s := lampsOff 1 (lampsOff 0 (closeLines (valvesOff s)))
  haltPacers (releaseShutters (calStopAll (setF F.intStateSafe 1 s)))

/-- What a die's entry into shutdown does, `first` where it sets the latch (R354, R356, R374). -/
def actShutdown (d : Fin 8) (first : Bool) (s : State) : State :=
  let s := if first then
      let s := nvsInterrupt (safeState s)
      let s := setF F.nvsStateHeld 1 (setF F.pwrStateVcShed 1 s)
      { s with pins := { s.pins with alive := true } }
    else s
  showThm (raise 0x3303 1 d 0 (bump F.thmShutdownCountShutdowns s))

/-- A die enters shutdown. While the clocks are stopped only its latch sets (R429); the rest follows once they run, since no
event is raised and nothing moves before (R446). -/
def enterShutdown (d : Fin 8) (s : State) : State :=
  if s.thm.dies[d].shut then s
  else
    let first := !inShutdown s
    let s := setF F.thmStateShutdown 1 (modThm d (fun e => { e with shut := true, below := e.below.set 2 0 }) s)
    if s.freeze.since.isSome then { s with freeze := { s.freeze with shuts := s.freeze.shuts ++ [(d.val, first)] } }
    else actShutdown d first s

/-- A die's comparator enters shutdown (R354, R429). DESIGN CHOICE: the comparator judges its own sensor, on the internal
oscillator and while the clocks are stopped too, and its verdict is this command; readings that reach SHUT four times enter
shutdown by themselves (`execJunctionSample`); assumption 123. -/
def execShutdownEntry (d : Fin 8) (s : State) : Host.Outcome State Fault Refusal :=
  .next (if (clocked s || s.freeze.since.isSome) && diePresent s.opt d then enterShutdown d s else s)

/-- A die reading is formed at 1 kHz; `temps` are its junction sensors in 0.01 °C.  THM.THROTTLE_TIME counts with HUB's
readings, and the fourth one in a row at or above SHUT enters shutdown (R347–R352, R356). -/
def execJunctionSample (d : Fin 8) (temps : List Int) (s : State) : Host.Outcome State Fault Refusal :=
  .next (
    if !clocked s || !diePresent s.opt d || !dieUp d s then s
    else
      let s := takeSamples d temps (takeLimits s)
      let s := checkLimits s
      let s := match dieReading d s with
        | some x => evaluate d x (setF (F.thmDieTemp d) (enc 16 x) s)
        | none => modThm d (fun e => { e with at_ := e.at_.set 4 0 }) s
      let s := showThm (if inLevel 4 d s then enterShutdown d s else s)
      if d = 0 && (List.range 8).any fun k => diePresent s.opt k && decide (1 ≤ dieStep k s) then bump F.thmThrottleTimeMs s else s)


/-- RESUME (R355): whether it was accepted.  In PARK the flag, which stands open at RESUME (R114), is then closed again (DESIGN
CHOICE: R355 returns the device to PARK, where R90 closes the shutter; assumption 122). -/
def resumeDevice (s : State) : State × Bool :=
  if !inShutdown s then (s, true)
  else if !flag F.thmStateResumeReady s || !live s then (raise 0x3305 0 0 0 (setF F.thmFaultResumeRefused 1 s), false)
  else
    let s := setF F.nvsStateHeld 0 (setF F.intStateSafe (b2n (otpBad s)) (setF F.thmStateShutdown 0 s))
    let s := showThm (raise 0x3304 0 0 0 s)
    match s.mode with
    | .running => (startLeave true s, true)
    | .exiting park => (standbyBias (startLeave park s), true)
    | .standby => (wantSave (standbyBias s), true)
    | .park => (wantSave (moveShutters true s), true)
    | _ => (s, true)

/-! ### Ageing (R359–R362) -/

/-- The dies with ring oscillators, in the order of their measurements (Table 16.4). -/
def ringDies (opt : Opt) : List Nat := [0, 1, 2, 3, 6, 7].filter fun d => diePresent opt d

/-- The margin table as bytes (R361; its layout is the model's, assumption 30). -/
def marginBytes (s : State) : List Byte :=
  let two (n : Nat) : List Byte := leBytes 2 n
  [BitVec.ofNat 8 (getF F.pwrVcoreSetStep s)] ++
    ((List.finRange 8).flatMap fun (d : Fin 8) => two s.thm.factAge[d] ++ two (getF (F.thmDieAgeAge d) s)) ++
    ((List.finRange 2).flatMap fun (d : Fin 2) => two s.thm.factG[d]) ++
    ((List.finRange 4).flatMap fun (c : Fin 4) =>
      [BitVec.ofNat 8 s.thm.factEye[c].1, BitVec.ofNat 8 s.thm.factEye[c].2, BitVec.ofNat 8 (getF (F.thmDdrMarginReadEye c) s),
        BitVec.ofNat 8 (getF (F.thmDdrMarginWriteEye c) s)])

/-- Write the margin table (R361). -/
def writeMargin (s : State) : State :=
  nvsQueue { part := 0, key := 0x500, data := marginBytes s, gen := 0, counter := none, save := false } s

/-- Do the ageing monitors run (R359)? -/
def ageingRuns (s : State) : Bool := live s && s.mode ≠ .park && !inShutdown s

/-- Since when each subject of a condition has met it. -/
def sinceWhen (old : List (Nat × Nat)) (now : Nat) (ks : List Nat) : List (Nat × Nat) := ks.map fun k => (k, (assoc old k).getD now)

/-- Those that have met it for 24 h, in PERIPH cycles. -/
def forADay (xs : List (Nat × Nat)) (now : Nat) : List Nat := (xs.filter fun x => decide (x.2 + 8640000000000 ≤ now)).map (·.1)

/-- Re-pacing (R360). -/
def repace (s : State) : State :=
  let step := getF F.pwrVcoreSetStep s
  let worst := (((List.range 4).filter fun d => diePresent s.opt d).map fun d => getF (F.thmDieAgeAge d) s).foldl max 0
  if step < 12 ∧ 4000 + 3000 * step < worst ∧ !(s.thm.dies.toList.any (·.shut)) then
    raise 0x3309 0 0 0 (writeMargin (setF F.pwrVcoreSetStep (step + 1) s))
  else s

/-- The hourly monitors (R359, R360): `ppm` is the slowdown of each die of `ringDies`, in order. -/
def execAgeingMeasure (ppm : List Nat) (s : State) : Host.Outcome State Fault Refusal :=
  .next (
    if !ageingRuns s then s
    else
      let s := (ringDies s.opt).zipIdx.foldl (fun s x => setF (F.thmDieAgeAge x.1) (min 65535 (nth 0 ppm x.2)) s) s
      let step := getF F.pwrVcoreSetStep s
      let s := (ringDies s.opt).foldl (fun s d =>
        if step = 12 ∧ 4000 + 3000 * step ≤ getF (F.thmDieAgeAge d) s then wearOut 0 1 d s else s) s
      let s := repace s
      let vs := (List.range 128).filter fun v => flag (F.ejtVStateAgeing (v / 64) (v % 64)) s
      let on := (List.finRange 8).filter fun (n : Fin 8) => diePresent s.opt (6 + strDie n) && bits (strCfg n 2 s) 31 30 ≠ 0
      let top := (on.filter fun n => decide (39322 ≤ getF (F.lumSTrimTrim (strDie n) (strIdx n)) s)).map (·.val)
      let s := { s with thm := { s.thm with
        valves := sinceWhen s.thm.valves s.periph vs
        lamps := sinceWhen s.thm.lamps s.periph top } }
      let s := (forADay s.thm.valves s.periph).foldl (fun s v => wearOut 2 4 v s) s
      let hot := (on.filter fun n =>
        decide (1425 * 32768 < getF (F.lumSSetISet (strDie n) (strIdx n)) s * getF (F.lumSTrimTrim (strDie n) (strIdx n)) s)).map (·.val)
      (hot ++ forADay s.thm.lamps s.periph).foldl (fun s n => wearOut 3 5 (16 * n + 15) s) s)

/-- Every 24 h the margin table is written and the SAVE item is set pending (R361). -/
def execMarginTableWrite (s : State) : Host.Outcome State Fault Refusal :=
  .next (if live s then requestRun 11 (writeMargin s) else s)

end Sys2Proof.Machine
end

