-- ==== Sys2Proof/Machine/Loader.lean ====
section
/-!
DEFINITION. The loader: its checks of an image (R224, R227, R259, R262–R264, R268–R271, R473, Table 11.6) and placing code
(R265).
-/

namespace Sys2Proof.Machine

/-- The operation that the placed code of a unit spells at its pc: what the unit issues next (R266, R268, R286). -/
def spelled (u : UnitId) (s : State) : Option Instr :=
  let e := s.units[u]
  match e.code[e.pc]? with
  | none => none
  | some w =>
    let imm := if bit w 0 then some (nth 0 e.code ((e.pc + 1) % codeSize u)) else none
    strideInstr u w imm (srcVal u (wordSrc w imm) s)

/-! ### Constant operands and records (checks 0x04, 0x07, 0x08) -/

/-- Does a constant operand or endpoint name a resource that the option or the image lacks (R6, R239)? -/
def absentRes (clusters : Nat) (c : CodeAt) (s : State) : Bool :=
  let op := bits c.w 25 20
  match classOf c.w, c.imm with
  | 5, some _ => if bits c.w 12 6 ≤ 0x19 then decide (clusters ≤ bits c.w 12 6) else !epPresent (bits c.w 12 6) s
  | 6, some i =>
    (op = 4 && decide (bits i 31 28 ≤ 11) && !itemPresent s.opt (bits i 31 28)) || (op = 6 && i.toNat % 2 = 1 && s.opt = .zt4)
  | 10, some i =>
    op = 0 && ((bits i 1 0 = 1 && !diePresent s.opt (bits i 15 8)) ||
      (bits i 1 0 = 2 && !(if s.opt = .zt8 then decide (bits i 15 8 < 26) else decide (bits i 15 8 < 10))))
  | _, _ => false

/-- The size of a window of a cluster's table. -/
def winSize (c : ClusterCode) (w : Nat) : Nat := ((c.windows.find? fun x => x.1 = w).map fun x => x.2.2).getD 0
def winBase (c : ClusterCode) (w : Nat) : Nat := ((c.windows.find? fun x => x.1 = w).map fun x => x.2.1).getD 0

/-- Does the largest request of a STREAM fit its window (R264)? -/
def largestOk (k : ClusterCode) (c : CodeAt) : Bool :=
  match classOf c.w, c.imm with
  | 5, some i =>
    let n := if bit i 14 then ((k.bounds.find? fun b => b.1 = c.addr).map (·.2)).getD 65536 else 4 * (bits i 13 0 + 1)
    decide (4 * bits i 31 15 + n ≤ winSize k (bits c.w 24 21))
  | _, _ => true

/-- Do a cluster's windows keep R224? -/
def windowsOk (c : ClusterCode) : Bool :=
  decide (c.windows.length ≤ 16) &&
    c.windows.zipIdx.all fun x =>
      let (w, b, n) := x.1
      decide (w < 16) && b % 4096 = 0 && n % 4096 = 0 && inR 4096 n 524288 && decide (b + n ≤ 524288) &&
        c.windows.zipIdx.all fun y => y.2 = x.2 || (y.1.1 ≠ w && (decide (y.1.2.1 + y.1.2.2 ≤ b) || decide (b + n ≤ y.1.2.1)))

/-- The byte that the Constants section places at an address: that of the last part covering it, as they are placed in
order. -/
def constByte (c : ClusterCode) (a : Nat) : Option Nat :=
  c.consts.reverse.findSome? fun x =>
    if x.1 ≤ a && a < x.1 + 4 * x.2.length then some ((nth 0 x.2 ((a - x.1) / 4)).toNat / 256 ^ ((a - x.1) % 4) % 256) else none

/-- The word that it places at a byte address, where it places the whole of it. -/
def constAt (c : ClusterCode) (a : Nat) : Option Word :=
  match constByte c a, constByte c (a + 1), constByte c (a + 2), constByte c (a + 3) with
  | some b0, some b1, some b2, some b3 => some (BitVec.ofNat 32 (b0 + 256 * b1 + 65536 * b2 + 16777216 * b3))
  | _, _, _, _ => none

/-- The settings record that a STREAM.OUT sends from constants alone, with its endpoint (R473). -/
def constRecord (k : ClusterCode) (c : CodeAt) : Option (Nat × List Word) :=
  match classOf c.w, c.imm with
  | 5, some i =>
    if bit c.w 25 && !bit i 14 then
      let a := winBase k (bits c.w 24 21) + 4 * bits i 31 15
      let ws := (List.range (bits i 13 0 + 1)).filterMap fun j => constAt k (a + 4 * j)
      if ws.length = bits i 13 0 + 1 then some (bits c.w 12 6, ws) else none
    else none
  | _, _ => none

/-- The rules of each endpoint for its record, as far as the record itself goes (check 0x08, R473); what stands in force
counts only when the record arrives. -/
def recordRules (lmin ep : Nat) (ws : List Word) (opt : Opt) : Bool :=
  let ty := bits (nth 0 ws 0) 31 28
  if ep = 0x30 then fpdRecordOk 0 ws && decide (lmin ≤ bits (nth 0 ws 0) 11 0)
  else if ep = 0x31 then fpdRecordOk 1 ws
  else if ep = 0x38 then algRecordOk opt ws
  else if ep = 0x3C || ep = 0x3D then csnRecordOk ws
  else if ep = 0x42 then corRecordOk opt ws
  else if ep = 0x48 then calRecordOk ws
  else if ep = 0x50 || ep = 0x51 then camFieldsOk opt ws
  else if ep = 0x52 || ep = 0x53 then camPipeOk ws
  else if ep = 0x60 || ep = 0x61 then (if ty = 1 then profileOk ws else if ty = 2 then valveEntriesOk ws else dieRecordOk ws)
  else if ep = 0x68 || ep = 0x69 then (if ty = 1 then lumStringOk ws else lumDieOk ws)
  else if ep = 0x70 then sadcFieldsOk opt ws
  else if ep = 0x74 then
    match ws with
    | [a, b] => b = ~~~ a && thmRangeOk a
    | _ => false
  else true

/-! ### The checks (Table 11.6) -/

/-- The magic word of an image (Table 11.5). -/
def imageMagic : Word := 0x53484152

/-- Check 0x01. -/
def headerOk (img : Image) (s : State) : Bool :=
  img.magic = imageMagic && img.stepReq = 0xB1 && (if s.opt = .zt8 then img.optZt8 else img.optZt4)

/-- Do constants lie in a memory of `n` bytes? -/
def constsFit (n : Nat) (cs : List (Nat × List Word)) : Bool := cs.all fun x => decide (x.1 + 4 * x.2.length ≤ n)

/-- Check 0x02 for the hub's sections and for a cluster's. -/
def hubSizesOk (img : Image) : Bool :=
  decide (img.hub.length ≤ 4) && img.hub.all (fun c => decide (c.length ≤ 32768)) && img.hubConsts.all (constsFit 262144)

def clusterSizesOk (c : ClusterCode) : Bool := decide (c.code.length ≤ 16384) && constsFit 524288 c.consts

/-- Is a physical cluster usable (R223, R227)? -/
def usable (p : Fin 26) (s : State) : Bool :=
  let u : UnitId := ⟨p.val, by omega⟩
  flagAt F.stcClusterOk p s && unitPresent s.opt u && dieUp (dieOf u) s

/-- The physical cluster that a logical cluster takes beside those taken (R227). -/
def choose (taken : List (Fin 26)) (c : ClusterCode) (s : State) : Option (Fin 26) :=
  (List.finRange 26).find? fun (p : Fin 26) =>
    usable p s && !taken.contains p &&
      match c.place with
      | none => true
      | some d => dieOf ⟨p.val, by omega⟩ = d.val

/-- Place logical clusters in ascending number beside those that stay (R227); `none` when too few usable clusters remain. -/
def placeThem : List (Nat × ClusterCode) → List (Nat × Fin 26) → State → Option (List (Nat × Fin 26))
  | [], done, _ => some done
  | (k, c) :: t, done, s =>
    match choose (done.map (·.2)) c s with
    | none => none
    | some p => placeThem t (done ++ [(k, p)]) s

/-- Check 0x09 (R259, R262). -/
def budgetOk (img : Image) : Bool :=
  match img.budget, img.classifiers, img.lmin with
  | some b, some c, some l => inR 1 b 960000 && decide (b ≤ c * 300 * l)
  | _, _, _ => false

/-- Check 0x0A. -/
def defaultsOk (img : Image) (s : State) : Bool :=
  (List.range (if s.opt = .zt8 then 16 else 8)).all fun b =>
    match nth none img.defaults b with
    | none => false
    | some .none => true
    | some (.all _ p _) => decide (p ≤ 15)

/-- The checks of Table 11.6 in order, for the hub's sections (`hub`) and the logical clusters `ks`, beside placements
`stay`: the code of the first that fails, else 0 with the placements. -/
def loaderCheck (hub : Bool) (img : Image) (ks : List (Nat × ClusterCode)) (stay : List (Nat × Fin 26)) (s : State) :
    Nat × List (Nat × Fin 26) :=
  let hubCode := if hub then img.hub else []
  let no (code : Nat) : Nat × List (Nat × Fin 26) := (code, stay)
  if !headerOk img s then no 1
  else if (hub && !hubSizesOk img) || !(ks.all fun k => clusterSizesOk k.2) then no 2
  else if !(hubCode.all (codeOk true) && ks.all fun k => codeOk false k.2.code) then no 3
  else if (hubCode.any fun c => (instrsOf c).any fun i => absentRes img.clusters.length i s) ||
      (ks.any fun k => (instrsOf k.2.code).any fun i => absentRes img.clusters.length i s) then no 4
  else
    match placeThem ks stay s with
    | none => no 5
    | some pl =>
      if !(ks.all fun k => windowsOk k.2) then no 6
      else if !(ks.all fun k => (instrsOf k.2.code).all (largestOk k.2)) then no 7
      else if !(ks.all fun k => (instrsOf k.2.code).all fun i =>
          match constRecord k.2 i with
          | some (ep, ws) => recordRules (img.lmin.getD 0) ep ws s.opt
          | none => true) then no 8
      else if !budgetOk img then no 9
      else if !defaultsOk img s then no 10
      else (0, pl)

/-- A refusal by the loader shows its check (R263); its record names the unit that asked, where one did (R267). -/
def loaderRefuse (who : Option UnitId) (code : Nat) (s : State) : State :=
  raise 0x2103 (match who with | some _ => 6 | none => 0) (match who with | some u => u.val | none => 0) code (setF F.isaFaultLoadRefused 1 (setF F.isaLoadRefuse code s))

/-! ### Placing code (R265) -/

/-- A unit at its start with a code section: tags FREE, its windows and handler set. -/
def startUnit (code : List Word) (handler : Option Nat) (windows : List (Nat × Nat × Nat)) : ExUnit :=
  { ExUnit.reset with code := code, handler := handler, windows := windows }

/-- Place a unit's code and constants; a unit without code has STATE 0b00 (Table 11.7). -/
def placeUnit (u : UnitId) (e : ExUnit) (consts : List (Nat × List Word)) (s : State) : State :=
  let s := consts.foldl (fun s x => storeWords (storeBase u + x.1) x.2 s) (modU u (fun _ => e) s)
  setF (F.isaUStateState u) (if e.code.isEmpty then 0 else 1) (setF (F.isaUStateLastExc u) 0 (setF (F.isaUExcPcPc u) 0 s))

/-- The unit of a physical cluster. -/
def clusterUnit (p : Fin 26) : UnitId := ⟨p.val, by omega⟩

/-- Place one logical cluster. -/
def placeCluster (c : ClusterCode) (p : Fin 26) (s : State) : State :=
  placeUnit (clusterUnit p) (startUnit c.code c.handler c.windows) c.consts s

/-- Numbered logical clusters of an image. -/
def clustersOf (img : Image) : List (Nat × ClusterCode) := img.clusters.zipIdx.map fun x => (x.2, x.1)

/-- Place a whole image that passed its checks. -/
def placeImage (img : Image) (pl : List (Nat × Fin 26)) (s : State) : State :=
  let s := (List.finRange 4).foldl (fun s (c : Fin 4) =>
    placeUnit ⟨26 + c.val, by omega⟩ (startUnit (nth [] img.hub c) (nth none img.hubHandler c) []) (nth [] img.hubConsts c) s) s
  let s := (List.finRange 26).foldl (fun s (p : Fin 26) => placeUnit (clusterUnit p) ExUnit.reset [] s) s
  let s := pl.foldl (fun s x =>
    match (clustersOf img).find? fun k => k.1 = x.1 with
    | some k => placeCluster k.2 x.2 s
    | none => s) s
  let s := setF F.isaLoadVersion img.version.toNat (setF F.isaBudgetDeclared (img.budget.getD 0) s)
  { s with boot := { s.boot with running := some img, place := pl } }

/-- Place logical clusters of an image again (R265): the loader's checks for them alone, against the physical clusters then
usable. -/
def replace (who : Option UnitId) (img : Image) (ks : List Nat) (s : State) : State × Nat :=
  let cs := (clustersOf img).filter fun k => ks.contains k.1
  let stay := s.boot.place.filter fun x => !ks.contains x.1
  match loaderCheck false img cs stay s with
  | (0, pl) =>
    let s := (pl.filter fun x => ks.contains x.1).foldl (fun s x =>
      match cs.find? fun k => k.1 = x.1 with
      | some k => placeCluster k.2 x.2 s
      | none => s) s
    ({ s with boot := { s.boot with place := pl } }, 0)
  | (code, _) => (loaderRefuse who code s, code)

end Sys2Proof.Machine
end

