-- ==== Sys2Proof/Machine/Reset.lean ====
section
/-!
DEFINITION. Full, die and cluster resets: what each takes down and what outlives it (R75–R77, R82–R89, Table 4.3), and the
SYS instructions (R90, R91, R289, Table 12.17).
-/

namespace Sys2Proof.Machine

/-! ### Causes (R76) -/

/-- The rank of a cause, highest 0 (R76). -/
def causeRank : Cause → Nat
  | .powerOn => 0
  | .brownout => 1
  | .clockLoss => 2
  | .watchdog => 3
  | .pin => 4
  | .lcsChange => 5
  | .sysFull => 6
  | .sysDie => 7
  | .sysCluster => 8

/-- RST.CAUSE.LAST for a cause, and its bit of RST.CAUSE (Table 4.6). -/
def causeLast : Cause → Nat
  | .powerOn => 0
  | .brownout => 1
  | .pin => 2
  | .watchdog => 3
  | .clockLoss => 4
  | .sysFull => 5
  | .sysDie => 6
  | .sysCluster => 7
  | .lcsChange => 8

def causeFld : Cause → Fld
  | .powerOn => F.rstCausePowerOn
  | .brownout => F.rstCauseBrownout
  | .pin => F.rstCauseResetPin
  | .watchdog => F.rstCauseWatchdog
  | .clockLoss => F.rstCauseClockLoss
  | .sysFull => F.rstCauseSysFull
  | .sysDie => F.rstCauseSysDie
  | .sysCluster => F.rstCauseSysCluster
  | .lcsChange => F.rstCauseLcsChange

/-- Is a reset in progress: a full one, powered and before the first instruction, or that of a die which has not rejoined? -/
def resetting (s : State) : Bool :=
  match s.mode with
  | .unpowered => false
  | .running | .entering _ | .standby | .park | .exiting _ => (List.range 8).any fun d => diePresent s.opt d && !dieUp d s
  | _ => true

/-- Has the reset been released to the starting block? -/
def released (s : State) : Bool :=
  match s.mode with
  | .boot | .running | .entering _ | .standby | .park | .exiting _ => true
  | _ => false

/-- A cause sets its bit; LAST holds the highest-ranked cause of the reset (R76). -/
def noteCause (c : Cause) (s : State) : State :=
  let top := if resetting s && decide (causeRank s.boot.cause < causeRank c) then s.boot.cause else c
  let s := setF (causeFld c) 1 (setF F.rstCauseLast (causeLast top) s)
  { s with boot := { s.boot with cause := top } }

/-! ### Words through a reset (Table 4.3, R87, R403, R418, R446, R450) -/

/-- Words that every reset but power-on keeps whole. -/
def keptWord (a : Nat) : Bool :=
  inR 0x10000 a 0x1000F || inR 0x18000 a 0x18017 || inR 0x20000 a 0x20017 || a = F.lcsState || a = F.lcsInfo ||
    (inR 0x381000 a 0x3810BF && decide (a % 16 < 12)) || inR 0x880000 a 0x88000B || inR 0x900000 a 0x90000B || a = F.lnkHb ||
    a = F.intEvtSeq || a = F.intEvtHost

/-- Of a word that is not kept whole, counters and sticky fields outlive the reset and the rest takes its value after
power-on. -/
def resetWord (opt : Opt) (a : Nat) (w : Word) : Word :=
  let m := stickyBits (fieldsAt opt a)
  (statusDefault opt a &&& ~~~ m) ||| (w &&& m)

/-- Words at the addresses that `p` names lose their settings. -/
def loseWords (p : Nat → Bool) (s : State) : State :=
  { s with status := s.status.map fun x => if p x.1 && !keptWord x.1 then (x.1, resetWord s.opt x.1 x.2) else x }

/-- The cells of the SRAM address space are zeroed; DDR5 keeps its own (R83). -/
def ddrCells (m : List Host.Cell) : List Host.Cell := m.filter fun c => decide (2 ^ 40 ≤ c.1)

/-! ### Full reset (R75–R77, R82–R87) -/

/-- What a full reset leaves of the DDR5 channels: their contents are lost with VDDQ, and a life-cycle change or a reset
before the wipe has passed wipes all of it again (R84, R85). -/
def resetDdr (c : Cause) (s : State) : Vector DdrChan 4 :=
  let cold := c = .powerOn || c = .brownout
  let owed := (List.finRange 4).any fun (k : Fin 4) => ddrSize k s ≠ 0 && !s.ddr[k].wiped
  s.ddr.map fun e =>
    if cold then DdrChan.reset
    else
      let kept := e.wiped && !owed && c ≠ .lcsChange
      { DdrChan.reset with trained := e.trained, wiped := kept, passed := if kept then e.passed else 0 }

/-- The reset states of the contacts (Table 2.4). -/
def resetPins (c : Cause) (p : Pins) : Pins :=
  { p with ethTx := false, vgdTx := false, alive := false, lsync := false
           ddrRstN := if c = .powerOn || c = .brownout then false else p.ddrRstN }

/-- The network link state goes; port modes and addresses stay (R403, Table 4.3). -/
def resetPort (s : State) : State :=
  setF F.lnkPortVgdUp 0 (setF F.lnkPortEthUp 0 (setF F.lnkPortTimePort 0 (setF F.lnkPortStratum 15 s)))

/-- A full reset of cause `c`, into mode `m`; the safe state holds from its start (R426). Device time and its rate go on
(R72); the correction under way and the time source go, the source without CLK_TIME_HOLDOVER (DESIGN CHOICE, assumption 138).
-/
def fullReset (c : Cause) (m : Mode) (s : State) : State :=
  let s := if released s then setF F.lnkHbBoot ((getF F.lnkHbBoot s + 1) % 65536) s else s
  let wait := if live s || s.freeze.since.isSome then none else s.freeze.requested
  let s := nvsInterrupt (valvesOff (noteCause c s))
  let cold := c = .powerOn || c = .brownout
  let ddr := resetDdr c s
  let shut := inShutdown s
  let port := s.word F.lnkPort
  let n := loseWords (fun _ => true) s
  let n : State := { State.reset with
    opt := s.opt
    mode := m
    time := s.time
    timeOn := s.timeOn
    tick := s.tick
    periph := s.periph
    free := s.free
    pins := resetPins c s.pins
    power := s.power
    clock := { TimePart.reset with rate := s.clock.rate, drift := s.clock.drift }
    boot := { BootPart.reset with
      slotA := s.boot.slotA
      slotB := s.boot.slotB
      cause := s.boot.cause
      clkLoss := s.boot.clkLoss
      pllLoss := s.boot.pllLoss }
    freeze := { FreezePart.reset with
      requested := if s.pins.freezeN then wait else some 1
      low := s.freeze.low }
    jtag := if s.pins.resetN then { s.jtag with drive := none } else s.jtag
    status := n.status
    statusBad := s.statusBad
    ev := s.ev
    mem := if cold then [] else ddrCells s.mem
    memBad := if cold then [] else s.memBad.filter fun a => decide (2 ^ 40 ≤ a)
    ddr := ddr
    focal := Vector.ofFn fun d => { FocalDie.reset d with hist := [] }
    lum := Vector.replicate 2 (LumDie.reset s.periph)
    nvs := s.nvs.kept
    thm := { ThmPart.reset with
      dies := s.thm.dies.map fun e => { ThmDie.reset with shut := e.shut }
      factAge := s.thm.factAge
      factG := s.thm.factG
      factEye := s.thm.factEye
      told := s.thm.told }
    net := { NetPart.reset with sent := s.net.sent, masks := s.net.masks }
    sec := s.sec.kept
    pending := s.pending }
  let n := resetPort (n.setWord F.lnkPort port)
  let n := if cold then n
    else (List.finRange 4).foldl (fun n (c : Fin 4) => n.setWord (F.thmDdrMargin c) (s.word (F.thmDdrMargin c)))
      (n.setWord F.stcDdrSize (s.word F.stcDdrSize))
  let n := setF F.rstBootStage 0 (setF F.rstBootSlot 3 (setF F.rstBootIndexReady 0 (setF F.rstBootModelReady 0 n)))
  let n := setF F.rstDieDieUp 0 (setF F.clkStateTimeSrc 0 (setF F.clkStateSlewing 0 n))
  let n := if n.ddr.toList.all (·.wiped) then n else setF F.rstDdrWipeChDone 0 (setF F.rstDdrWipeProgress 0 n)
  let n := setF F.nvsAccessUnlockN 255 (n.setWord F.nvsAccess 0)
  let n := setF F.nvsStateIndexReady 0 (setF F.secStateImageSigner 0xE n)
  let n := (List.finRange 30).foldl (fun n (u : UnitId) => setF (F.isaUStateState u) 0 n) n
  let n := setF F.isaLoadVersion 0 (setF F.isaBudgetDeclared 0 n)
  let b := b2n shut
  setF F.thmStateShutdown b (setF F.intStateSafe 1 (setF F.pwrStateVcShed b (setF F.nvsStateHeld b n)))

/-! ### Cluster reset (R83, R86, R89) -/

/-- A unit's code, registers, tags and store are gone. -/
def wipeUnit (u : UnitId) (s : State) : State :=
  let lo := storeBase u
  let hi := lo + storeSize u
  let inside (a : Nat) : Bool := decide (lo ≤ a) && decide (a < hi)
  let s := modU u (fun _ => ExUnit.reset) { s with ddr := s.ddr.map fun e => { e with failing := e.failing.filter fun x => x.1 ≠ u } }
  let s := { s with
    mem := s.mem.filter fun c => !inside c.1
    memBad := s.memBad.filter fun a => !inside a
    backing := s.backing.filter fun p => !inside p.1 }
  loseWords (fun a => inR (F.isaUState u) a (F.isaUState u + 15)) s |> setF (F.isaUStateState u) 0

/-- A reset that loses programs starts the program measurement again and clears ISA.BUDGET_MAX (R266, R399). -/
def losePrograms (s : State) : State :=
  setF F.isaBudgetMaxMax 0 (setF F.secLoadsLoads 0 { s with sec := { s.sec with program := s.sec.imageHash } })

/-- Cluster reset: its tags are dropped, and transfers the fabric had accepted go on without a completion (R89). -/
def clusterReset (p : Fin 26) (s : State) : State :=
  losePrograms (wipeUnit (clusterUnit p) (loseTags (clusterUnit p) (noteCause .sysCluster s)))

/-! ### Die reset (R75, R83, R86, R88, R89, R99, R153) -/

/-- What a stream die's reset leaves of the rows and blind-row records of a focal die: the columns it holds are gone, and the
record it assembles starts again (R83, R157, R472). -/
def loseColumns (opt : Opt) (f : Fin 2) (d : Nat) (e : CorrDie) : CorrDie :=
  let mine (c : Nat) : Bool := streamDieOf opt f c = d
  let rec_ (ws : List Word) : List Word :=
    if mine 0 then [] else ws.zipIdx.map fun x => if 4 ≤ x.2 && mine (x.2 - 4) then 0 else x.1
  { e with
    rows := e.rows.map fun r => { r with out := r.out.zipIdx.map fun x => if mine x.2 then noWord else x.1 }
    blind := e.blind.map rec_
    blindWas := e.blindWas.map fun ws => ws.map rec_ }

/-- Bands whose engines, correction or assembler stand on a stream die owe a zero state once it is back (R134, R169). -/
def oweZero (d : Nat) (s : State) : State :=
  (bandsOf s.opt).foldl (fun s (b : Fin 16) =>
    if asmDie s.opt = d || bandDie s.opt b = d || (bandEngines b).any fun l => engPlaced l s && engDie l s = d then
      modBand b (fun e => { e with owed := true }) s
    else s) s

/-- Die reset of a stream die. -/
def resetStreamDie (d : Fin 8) (s : State) : State :=
  let s := oweZero d s
  let us := (List.finRange 26).filter fun (p : Fin 26) => dieOf (clusterUnit p) = d.val
  let s := us.foldl (fun s p =>
    wipeUnit (clusterUnit p) { s with xfers := s.xfers.filter fun x => x.unit ≠ clusterUnit p }) s
  let s := if us.isEmpty then s else losePrograms s
  let s := (List.finRange 64).foldl (fun s (l : Fin 64) =>
    if engPlaced l s && engDie l s = d.val then
      let phys := getF (F.algEngStatePhys l) s
      let s := loseWords (fun a => inR (F.algEngState l) a (F.algEngState l + 31)) (modEng l (fun _ => Engine.reset) s)
      setF (F.algEngStatePhys l) phys s
    else s) s
  let s := (List.finRange 2).foldl (fun s (p : Fin 2) =>
    if camDie s.opt p = d.val then
      let ch := bits (camCfg p 0 s) 21 18
      let s := modCam p (fun _ => CamPort.reset) { s with cam := { s.cam with heldCh := s.cam.heldCh.set p ch } }
      let s := if d = 1 then { s with cam := { s.cam with last := none, busy := 0 } } else s
      let s := { s with fused := { s.fused with regMap := s.fused.regMap.set p [], regNext := s.fused.regNext.set p none } }
      loseWords (fun a => inR (0x400000 + 0x100 * p.val) a (0x4000FF + 0x100 * p.val)) s
    else s) s
  let mine (f : Fin 2) (col : Nat) : Bool := streamDieOf s.opt f col = d.val
  let s := { s with corr := { s.corr with
    model := s.corr.model.filter fun e => !mine (Fin.ofNat 2 (e.1 / 102400)) (e.1 % 2048)
    drift := s.corr.drift.filter fun e => !mine (Fin.ofNat 2 (e.1 / 102400)) (e.1 % 2048)
    base := s.corr.base.filter fun e => e.1 % 2048 / 16 ≠ d.val
    badEntries := s.corr.badEntries.filter fun k => !mine (Fin.ofNat 2 (k.1 / 102400)) (k.1 % 2048)
    waiting := (s.corr.waiting.map fun r => { r with dies := r.dies.filter (· ≠ d.val) }).filter fun r => !r.dies.isEmpty
    dies := Vector.ofFn fun f => loseColumns s.opt f d.val { s.corr.dies[f] with
      cmLast := s.corr.dies[f].cmLast.filter fun c => c.1 % 4 ≠ d.val } } }
  if asmDie s.opt = d.val then
    { s with
      fused := { s.fused with ring := [], waiting := [], entries := [] }
      bands := s.bands.map fun e => { e with done := [] } }
  else s

/-- Die reset of a focal die: its pacer and bias stop; the hub keeps its record, its line-slot length and the shutter. -/
def resetFocalDie (d : Fin 2) (s : State) : State :=
  let w := s.word (F.fpdState d)
  let e := s.focal[d]
  let s := modFd d (fun _ => { FocalDie.reset d with kept0 := e.kept0, kept1 := e.kept1, hist := [], row := 50 }) s
  let s := loseWords (fun a => inR (F.fpdState d) a (F.fpdState d + 0x7FFF)) s
  let keep (f : Fld) (s : State) : State := setF f (bits w f.hi f.lo) s
  keep (F.fpdStateShutter d) (keep (F.fpdStateLsyncMode d) (keep (F.fpdStateLineSlot d) s))

/-- Die reset of an actuator die: valves, lamps and the shutter bridges go to their reset states (Table 2.4), and the commands on
their way to it are lost (R250). -/
def resetActuatorDie (d : Fin 2) (s : State) : State :=
  let s := lampsOff d (flushDie d (stopRuns d s))
  let st := getF (F.fpdStateShutter d) s
  let s := if st = shClosing ∨ st = shClosed then endShutTaint d (releaseShutter d s) else s
  let s := s.msgs[d].foldl (fun s m => loseMsg d m s) s
  let s := { s with
    msgs := s.msgs.set d []
    lum := s.lum.set d (LumDie.reset s.periph)
    csn := s.csn.set d CsnEngine.reset
    ejt := { s.ejt with
      dies := s.ejt.dies.set d EjtDie.reset
      chans := Vector.ofFn fun v => if valveDie v = d then Chan.reset else s.ejt.chans[v] } }
  let s := modCal (fun c => { c with csnNext := c.csnNext.set d none }) s
  loseWords (fun a => inR (0x600000 + 0x8000 * d.val) a (0x607FFF + 0x8000 * d.val) ||
    inR (0x700000 + 0x8000 * d.val) a (0x707FFF + 0x8000 * d.val) || inR (0x280000 + 0x4000 * d.val) a (0x283FFF + 0x4000 * d.val)) s

/-- Die reset of a die other than the hub. -/
def dieReset (d : Fin 8) (s : State) : State :=
  let s := calDieReset d (noteCause .sysDie s)
  let s := if d.val < 4 then resetStreamDie d s
    else if d.val < 6 then resetFocalDie (Fin.ofNat 2 d.val) s
    else resetActuatorDie (Fin.ofNat 2 d.val) s
  let s := modThm d (fun e => { ThmDie.reset with shut := e.shut }) s
  showThm (setAt F.rstDieDieUp d false s)

/-! ### The rejoin (R88, R233) -/

/-- The links of a die are trained while it was down, and return to service with it; one in `bad` failed to train: it stays
fatal, or becomes so (R233). -/
def rejoinLinks (d : Nat) (bad : List (Fin 16)) (s : State) : State :=
  (List.finRange 16).foldl (fun s (l : Fin 16) =>
    match linkEnds s.opt l with
    | some (a, b) =>
      if (a = d || b = d) && bad.contains l then (if flagAt F.stcLinkUp l s then linkFatal l s else s)
      else if a = d || b = d then
        setAt F.stcLinkUp l true (setAt F.stcLinkRemapped l false (modLink l (fun _ => Link.reset) s))
      else s
    | none => s) s

/-- The cycle and hour counts of an actuator die, from the counters of the record store (R308, R330). -/
def loadCounts (d : Fin 2) (s : State) : State :=
  let s := (valvesOf d).foldl (fun s (v : Valve) =>
    setF (F.ejtVCyclesCycles d (valveChan v)) (1024 * counterOf (0x400 + v.val) s % 2 ^ 32) s) s
  (strsOf d).foldl (fun s (n : Strng) =>
    setF (F.lumSHoursHours d (strIdx n)) (((List.range 10).map fun i => lampHours n i s).foldl max 0) s) s

/-- A focal die takes up the record that the hub keeps; its pacer restarts at the next boundary of the hub's grid, and in STANDBY
its bias pulses again (R88, R101). -/
def rejoinFocal (d : Fin 2) (s : State) : State :=
  let e := s.focal[d]
  let s := takeShutter d (takeAtOnce d s)
  let s := setF (F.fpdStateBandLock d) (b2n (recLock e)) (setF (F.fpdStateDiag d) (b2n (recDiag e)) s)
  let s := if recLock e then setF (F.fpdStateBand d) (recLockBand e) s else s
  setLowBias d (loadFocalTrims d (modFd d (fun e => { e with rejoin := recRun e && working s && s.grid.lastEdge.isSome }) s))

/-- With the assembler's die back every band restarts from zero state: one that is seen at its next line slot, and one that stays
blind at once (R134, R169). -/
def rejoinBands (s : State) : State :=
  (bandsOf s.opt).foldl (fun s (b : Fin 16) =>
    if bandBlind b s then modBand b (fun e => { e with owed := true }) (zeroBandEngines false b s) else s) s

/-- A stream die corrects with the models reloaded from the record store (R79, R81, R153). -/
def rejoinStream (d : Nat) (s : State) : State :=
  let s := if asmDie s.opt = d then rejoinBands s else s
  (List.finRange 2).foldl (fun s (f : Fin 2) =>
    if diePresent s.opt (4 + f) && (corrDies s.opt f).contains d then loadModel f (fun c => streamDieOf s.opt f c = d) s else s) s

/-- A reset die rejoins at a line-slot boundary (R88); RST_DIE names it (R96).  `bad` are the links that failed to train
(R233). -/
def execDieRejoin (d : Fin 8) (bad : List (Fin 16)) (s : State) : Host.Outcome State Fault Refusal :=
  .next (
    if !live s || d = 0 || !diePresent s.opt d || dieUp d s then s
    else
      let s := rejoinLinks d bad (setAt F.rstDieDieUp d true s)
      let s := if d.val < 4 then rejoinStream d s
        else if d.val < 6 then rejoinFocal (Fin.ofNat 2 d.val) s
        else loadCounts (Fin.ofNat 2 d.val) (loadActuatorTrims (Fin.ofNat 2 d.val) s)
      drainMsgs 1 (drainMsgs 0 (raise 0x0207 1 d (bits (s.word F.rstCause) 8 0) s)))

/-! ### SYS (Table 12.17, R289) -/

/-- Issue a SYS instruction; it raises EXC_RANGE where `bad` holds, and else advances and acts. -/
def sysOp (u : UnitId) (wide : Bool) (rs : List RegRef) (bad : State → Bool) (act : State → State) (s : State) : State :=
  issue u .sys wide rs false (fun s => if bad s then takeExc u 7 wide s else act (advance u wide s)) s

/-- Is a SYS.RESET operand out of range (R289)? -/
def resetBad (w : Word) (s : State) : Bool :=
  let t := bits w 15 8
  bits w 31 16 ≠ 0 || bits w 7 2 ≠ 0 ||
    match bits w 1 0 with
    | 0 => false
    | 1 => !(decide (t < 8) && diePresent s.opt t)
    | 2 => !(decide (t < 26) && diePresent s.opt (dieOf (Fin.ofNat 30 t)))
    | _ => true

/-- SYS.RESET: full, a die, or a cluster; the die HUB is the whole device (Table 4.1). -/
def sysReset (u : UnitId) (b : Src) (s : State) : State :=
  sysOp u (srcImm b) (srcRegs b) (fun s => resetBad (srcVal u b s) s)
    (fun s =>
      let w := srcVal u b s
      let t := bits w 15 8
      if bits w 1 0 = 0 || (bits w 1 0 = 1 && t = 0) then fullReset .sysFull .inReset s
      else if bits w 1 0 = 1 then dieReset (Fin.ofNat 8 t) s
      else clusterReset (Fin.ofNat 26 t) s) s

def execSysResetFull (u : UnitId) (b : Src) (s : State) : Host.Outcome State Fault Refusal := .next (sysReset u b s)

def execSysResetDie (u : UnitId) (b : Src) (s : State) : Host.Outcome State Fault Refusal := .next (sysReset u b s)

def execSysResetCluster (u : UnitId) (b : Src) (s : State) : Host.Outcome State Fault Refusal := .next (sysReset u b s)

/-- Code placed for a logical cluster is measured (R399). -/
def measureLoad (img : Image) (k : Nat) (s : State) : State :=
  match img.clusters[k]? with
  | none => s
  | some c =>
    bump F.secLoadsLoads { s with sec := { s.sec with
      program := sha384 (s.sec.program ++ sha384 (toBytes c.code) ++ wordBytes (BitVec.ofNat 32 k)) } }

/-- Place logical clusters of an image again and measure them; the code of a refused check, or 0. -/
def placeAgain (who : Option UnitId) (img : Image) (ks : List Nat) (s : State) : State × Nat :=
  match replace who img ks s with
  | (s, 0) => (ks.foldl (fun s k => measureLoad img k s) s, 0)
  | (s, n + 1) => (s, n + 1)

/-- SYS.LOAD: a reset of the logical cluster's physical cluster, then placement from the running image (R265). -/
def execSysLoad (u : UnitId) (b : Src) (s : State) : Host.Outcome State Fault Refusal :=
  .next (sysOp u (srcImm b) (srcRegs b)
    (fun s => match s.boot.running with
      | some img => decide (img.clusters.length ≤ (srcVal u b s).toNat)
      | none => true)
    (fun s =>
      let k := (srcVal u b s).toNat
      let s := match assoc s.boot.place k with
        | some p => clusterReset p s
        | none => s
      match s.boot.running with
      | some img => (placeAgain (some u) img [k] s).1
      | none => s) s)

/-! ### STANDBY and PARK (R44, R90, R91, R102, R329, Tables 2.4 and 4.4) -/

/-- A LATCH staged at a die is lost (Table 4.3). -/
def dropLatches (s : State) : State :=
  (List.finRange 2).foldl (fun s (d : Fin 2) => showLatch d (modLum d (fun e => { e with latch := none }) s)) s

/-- Is the device in PARK, or on its way out of it with the shutters closed? -/
def fromPark (s : State) : Bool := s.mode = .park || s.mode = .exiting true

/-- What a STANDBY holds that a PARK does not, and the other way; VCORE runs on two phases (R59), a staged LATCH is lost
(Table 4.3), LSYNC is an input (Table 2.4), and SAVE runs (R200). From PARK the shutters are opened; otherwise the bridges are
released. -/
def takeLow (park : Bool) (s : State) : State :=
  let was := fromPark s
  let s := setEdges [] (setF F.pwrStateVcShed 1 { s with
    mode := if park then .park else .standby
    pins := { s.pins with alive := true, vgdTx := !park } })
  let s := cutLsync (dropLatches s)
  if park then
    let s := (List.finRange 2).foldl (fun s (d : Fin 2) => if fdUp d s then setBias d false s else s) s
    wantSave (dropFeedGap true (lampsOff 1 (lampsOff 0 (moveShutters true s))))
  else wantSave (releaseShutters (if was then moveShutters false (standbyBias s) else standbyBias s))

/-- SYS.STANDBY and SYS.PARK. -/
def requestLow (park : Bool) (s : State) : State :=
  if inShutdown s then s
  else match s.mode with
    | .running | .entering _ => { s with mode := .entering park }
    | .standby => if park then takeLow true s else s
    | .park => if park then s else takeLow false s
    | .exiting _ => if s.power.leaveStage = 2 then { s with mode := .entering park } else takeLow park s
    | _ => s

def execSysStandby (u : UnitId) (s : State) : Host.Outcome State Fault Refusal :=
  .next (sysOp u false [] (fun _ => false) (requestLow false) s)

def execSysPark (u : UnitId) (s : State) : Host.Outcome State Fault Refusal :=
  .next (sysOp u false [] (fun _ => false) (requestLow true) s)

/-- The entry completes once the pacers have stopped and every outstanding tag has completed (R90). -/
def execStandbyParkEntry (s : State) : Host.Outcome State Fault Refusal :=
  .next (
    match s.mode with
    | .entering park =>
      let busy := (List.finRange 30).any fun (u : UnitId) => !(busyTags s.units[u]).isEmpty
      if s.freeze.since.isSome || inShutdown s || busy || pacing 0 s || pacing 1 s then s
      else takeLow park (calStopAll (closeLines (valvesOff s)))
    | _ => s)

/-- The exit from STANDBY or PARK begins (R91, Table 4.4). -/
def leaveLow (s : State) : State :=
  if inShutdown s || s.freeze.since.isSome then s
  else
    match s.mode with
    | .standby => startLeave false s
    | .park => startLeave true s
    | _ => s

/-- 50 µs into the exit six VCORE phases run (R59); 100 µs into it the clusters restart, and from PARK the shutters open
(Table 4.4).  The bias starts with the pacers (`restBias`). -/
def leaveTo (k : Nat) (s : State) : State :=
  let s := if s.power.leaveStage = 0 && decide (1 ≤ k) then
      setF F.pwrStateVcShed 0 { s with power := { s.power with leaveStage := 1 } }
    else s
  if s.power.leaveStage = 1 && decide (2 ≤ k) then
    let s := { s with power := { s.power with leaveStage := 2 } }
    if s.mode = .exiting true then moveShutters false s else s
  else s

/-- The exit as far as it has come at this PERIPH cycle. -/
def leaveTick (s : State) : State :=
  match s.mode with
  | .exiting _ =>
    if inShutdown s then s
    else leaveTo (if s.power.leaveAt + 10000 ≤ s.periph then 2 else if s.power.leaveAt + 5000 ≤ s.periph then 1 else 0) s
  | _ => s

def execSysRun (u : UnitId) (s : State) : Host.Outcome State Fault Refusal :=
  .next (sysOp u false [] (fun _ => false) leaveLow s)

/-- The exit completes: the device runs, and a synchronising reset follows at the next MOD edge (Table 4.4). -/
def execExitComplete (s : State) : Host.Outcome State Fault Refusal :=
  .next (
    match s.mode with
    | .exiting _ =>
      if s.freeze.since.isSome || inShutdown s then s
      else
        let s := { leaveTo 2 s with mode := .running }
        setEdges [(s.periph + 24) / 25 * 25] s
    | _ => s)

end Sys2Proof.Machine
end

