-- ==== Sys2Proof/Machine/Power.lean ====
section
/-!
DEFINITION. The input bus and its zones, the power-up and brown-out sequences, the clock monitor, RESET_N, the hub watchdog,
and the release of reset (R51–R67, R75, R78, R94, R223, R228).
-/

namespace Sys2Proof.Machine

/-- Change the power sequence's memory; the contacts. -/
def modPower (f : PowerPart → PowerPart) (s : State) : State := { s with power := f s.power }
def modPins (f : Pins → Pins) (s : State) : State := { s with pins := f s.pins }

/-- An event of the power unit is raised only while the clocks run (R446). -/
def raiseClocked (code kind index detail : Nat) (s : State) : State :=
  if clocked s then raise code kind index detail s else s

/-! ### Power-up (R54, R60, Table 3.3) -/

/-- A power-up attempt starts at the first row (R62). -/
def startAttempt (s : State) : State :=
  modPower (fun p => { p with attemptStart := s.tick })
    (modPins (fun p => { p with inrGate := true }) { s with mode := .powerUp .inrush })

/-- Below 20 V everything volatile is lost (R51, R53, Table 4.3): the record store, the image slots, the life-cycle cells, the
keys and the factory values stay. -/
def unpower (s : State) : State :=
  let s := nvsInterrupt s
  { State.reset with
    opt := s.opt
    mode := .unpowered
    time := 0
    timeOn := false
    tick := s.tick
    periph := s.periph
    free := s.free
    pins := { Pins.reset with
      inrGate := false
      icv := false
      vcEn := false
      vqEn := false
      adec := false
      ddrRstN := false
      ethTx := false
      vgdTx := false
      resetN := s.pins.resetN
      freezeN := s.pins.freezeN
      feedGap := s.pins.feedGap
      feedAt := s.pins.feedAt }
    boot := { BootPart.reset with slotA := s.boot.slotA, slotB := s.boot.slotB }
    jtag := JtagPart.reset s.opt
    status := s.status.filter fun x => x.1 = F.lcsState || x.1 = F.lcsInfo || inR 0x880000 x.1 0x88000B
    ev := EventPart.reset
    power := { PowerPart.reset with monitor := false }
    units := Vector.replicate 30 ExUnit.reset
    focal := Vector.ofFn fun d => { FocalDie.reset d with hist := [] }
    nvs := s.nvs.kept
    thm := { ThmPart.reset with factAge := s.thm.factAge, factG := s.thm.factG, factEye := s.thm.factEye }
    net := { NetPart.reset with sent := s.net.sent }
    sec := s.sec.kept
    pending := s.pending }

/-- VIN_SNS falls below 20 V (R51). -/
def execPowerLost (s : State) : Host.Outcome State Fault Refusal := .next (if s.mode = .unpowered then s else unpower s)

/-- The rails are not up: the GOOD bits, INRUSH_DONE and the locks read 0 (DEDUCED: they show the rails as they stand,
assumption 37); VC_SHED stays as the reset set it (R63, R354). -/
def railsOff (s : State) : State :=
  let s := s.setWord F.pwrState (s.word F.pwrState &&& 0xFFFFFF02)
  s.setWord F.clkState (s.word F.clkState &&& ~~~ 0x7F)

/-- VIN_SNS rises from below 20 V (R51, R75): the supervisor starts, and after 35.0 V the power-up sequence runs.  The
status space of a part without power shows no boot. -/
def execPowerOn (s : State) : Host.Outcome State Fault Refusal :=
  .next (
    if s.mode ≠ .unpowered then s
    else
      let s := setF F.intStateSafe 1 (setF F.pwrStateVinZone 1 (railsOff s))
      let s := setF F.rstBootStage 0 (setF F.rstBootSlot 3 (setF F.rstBootIndexReady 0 (setF F.rstBootModelReady 0 s)))
      let s := setF F.nvsAccessUnlockN 255 ((setF F.rstDieDieUp 0 s).setWord F.nvsAccess 0)
      let s := setF F.nvsStateIndexReady 0 (setF F.secStateImageSigner 0xE s)
      let s := (List.finRange 30).foldl (fun s (u : UnitId) => setF (F.isaUStateState u) 0 s) s
      startAttempt { s with
        boot := { s.boot with cause := .powerOn }
        freeze := { s.freeze with requested := if s.pins.freezeN then none else some 1 } })

/-- Inrush is complete: the 12 V converter starts (R54). -/
def execInrushComplete (s : State) : Host.Outcome State Fault Refusal :=
  .next (
    if s.mode = .powerUp .inrush then
      modPins (fun p => { p with icv := true }) (setF F.pwrStateInrushDone 1 { s with mode := .powerUp .v12 })
    else s)

/-- Inrush is not complete within 20 ms (R54).  DESIGN CHOICE: an attempt that ends otherwise than by a rail fault (this timeout,
an undervoltage, a trip) breaks the row of three attempts of R62; assumption 38. -/
def execInrushTimeout (s : State) : Host.Outcome State Fault Refusal :=
  .next (
    if s.mode = .powerUp .inrush then
      modPower (fun p => { p with attempts := [] })
        (modPins (fun p => { p with inrGate := false }) (setF F.pwrFaultInrushTimeout 1 { s with mode := .inrushWait }))
    else s)

/-- 1 s after a timeout or a trip inrush is attempted again, also while a wait of 10 s is in force for rail faults (DESIGN
CHOICE: R54 gives 1 s and R62 puts its wait before "each further attempt" after rail faults, and which of them stands before
this attempt is left open; assumption 38); after a trip with VIN_SNS still below 35.0 V the brown-out reset lasts until it has
risen above that (R53, R54). -/
def execInrushRetry (s : State) : Host.Outcome State Fault Refusal :=
  .next (
    if s.mode = .inrushWait then startAttempt s
    else if s.mode = .brownout .inputTrip then
      if getF F.pwrStateVinZone s = 0 then { s with mode := .brownout .under } else startAttempt s
    else s)

/-- A rail comes within its limits, and the next starts (Table 3.3). -/
def execRailSequenceStep (s : State) : Host.Outcome State Fault Refusal :=
  .next (
    match s.mode with
    | .powerUp .v12 => setF F.pwrStateV12Good 1 { s with mode := .powerUp .v18 }
    | .powerUp .v18 => setF F.pwrStateV18Good 1 { s with mode := .powerUp .refclk }
    | .powerUp .vcore => modPins (fun p => { p with vqEn := true }) (setF F.pwrStateVcoreGood 1 { s with mode := .powerUp .vddq })
    | .powerUp .vddq => modPins (fun p => { p with adec := true }) (setF F.pwrStateVddqGood 1 { s with mode := .powerUp .adec })
    | .powerUp .adec =>
      let s := setF F.pwrStateFda0Good 1 { s with mode := .powerUp .pll }
      if diePresent s.opt 5 then setF F.pwrStateFda1Good 1 s else s
    | _ => s)

/-- Hub power control finds REFCLK, and the clock monitor watches it from then on (R67, Table 3.3). -/
def execRefclkPresent (s : State) : Host.Outcome State Fault Refusal :=
  .next (
    if s.mode = .powerUp .refclk then
      modPower (fun p => { p with monitor := true })
        (modPins (fun p => { p with vcEn := true }) (setF F.clkStateRefclkOk 1 { s with mode := .powerUp .vcore }))
    else s)

/-! ### Brown-out (R52, R53, R61, R62, Table 3.4) -/

/-- The brown-out sequence runs: its fault and count, a full reset, and every rail off; `gate` says INR_GATE stays under inrush
control. -/
def brownOut (m : Mode) (gate : Bool) (s : State) : State :=
  let s := raiseClocked 0x0104 0 0 0 (bump F.pwrCountBrownoutCount (setF F.pwrFaultBrownout 1 s))
  let s := railsOff (fullReset .brownout m s)
  modPins (fun p => { p with inrGate := gate, icv := false, vcEn := false, vqEn := false, adec := false, ddrRstN := false }) s

/-- Is the device powered and not in a brown-out reset? -/
def powered (s : State) : Bool :=
  match s.mode with
  | .unpowered | .brownout _ => false
  | _ => true

/-- VIN_SNS stays below 33.0 V for 10 µs (R61).  DEDUCED: in a brown-out reset of another cause the sequence runs again, and
the reset then ends as for an undervoltage; an input trip keeps its own end, which asks for 35.0 V too (R53, assumption 39).
Below 33.0 V already, nothing crosses. -/
def execBrownout (s : State) : Host.Outcome State Fault Refusal :=
  .next (
    let take (c : BoCause) (gate : Bool) (s : State) : State :=
      modPower (fun p => { p with attempts := [] }) (setF F.pwrStateVinZone 0 (brownOut (.brownout c) gate s))
    match s.mode with
    | .unpowered | .brownout .under => s
    | .brownout .inputTrip => if getF F.pwrStateVinZone s = 0 then s else take .inputTrip false s
    | _ => take .under true s)

/-- The brown-out reset ends under the rule for its cause, and the power-up sequence runs, after any wait of R62 (R53). -/
def execBrownoutEnd (s : State) : Host.Outcome State Fault Refusal :=
  .next (
    match s.mode with
    | .brownout c =>
      let s := if c = .overTrip then setF F.pwrStateVinZone 2 s
        else if getF F.pwrStateVinZone s = 0 then setF F.pwrStateVinZone 1 s else s
      if s.power.waiting then { s with mode := .railWait } else startAttempt s
    | _ => s)

/-- After inrush the shunt voltage reaches 100 mV for 1 µs (R54). -/
def execInputOvercurrentTrip (s : State) : Host.Outcome State Fault Refusal :=
  .next (
    if powered s && flag F.pwrStateInrushDone s then
      let s := bump F.pwrCountInputTripCount (setF F.pwrFaultInputTrip 1 s)
      modPower (fun p => { p with attempts := [] }) (brownOut (.brownout .inputTrip) false (raiseClocked 0x0105 0 0 0 s))
    else s)

/-- The bit of PWR.FAULT of a rail (Table 3.6). -/
def railFld : Rail → Fld
  | .v12 => F.pwrFaultV12
  | .vcoreUv => F.pwrFaultVcoreUv
  | .vcoreOv => F.pwrFaultVcoreOv
  | .vddq => F.pwrFaultVddq
  | .v18 => F.pwrFaultV18
  | .fda0 => F.pwrFaultFda0
  | .fda1 => F.pwrFaultFda1

/-- Ten seconds of the supervisor's clock. -/
def tenSeconds : Nat := 1000000000

/-- A monitored rail leaves its limits (R62): before the release of reset it ends the attempt, and three such attempts in a
row, all starting within 10 s, put a wait of 10 s before each further one. -/
def execRailFault (r : Rail) (s : State) : Host.Outcome State Fault Refusal :=
  .next (
    let up := powered s && s.mode ≠ .railWait && s.mode ≠ .inrushWait
    if !up || (r = .fda1 && s.opt = .zt4) then s
    else
      let early := match s.mode with
        | .powerUp _ | .clockHeld (some _) => true
        | _ => false
      let row := if early then s.power.attemptStart :: s.power.attempts else []
      let wait := s.power.waiting || (match row with
        | a :: _ :: c :: _ => decide (a ≤ c + tenSeconds)
        | _ => false)
      let s := raiseClocked 0x0106 0 0 0 (setF (railFld r) 1 s)
      modPower (fun p => { p with attempts := row.take 3, waiting := wait })
        (brownOut (if wait then .railWait else .brownout .rail) true s))

/-- The wait of 10 s ends and an attempt starts (R62). -/
def execRailRetryWaitEnd (s : State) : Host.Outcome State Fault Refusal :=
  .next (if s.mode = .railWait then startAttempt s else s)

/-! ### VIN zones (R51, R52, R63) -/

/-- VIN_SNS enters a zone of Table 3.1; below the end of an undervoltage brown-out no zone is entered. -/
def enterZone (z code : Nat) (s : State) : State :=
  if s.mode = .unpowered || s.mode = .brownout .under || getF F.pwrStateVinZone s = z then s
  else
    let s := setF F.pwrStateVinZone z s
    if code = 0 then s else raiseClocked code 0 0 0 s

def execVinLowEntry (s : State) : Host.Outcome State Fault Refusal := .next (enterZone 1 0x0101 s)

def execVinNormalEntry (s : State) : Host.Outcome State Fault Refusal := .next (enterZone 2 0 s)

def execVinHighEntry (s : State) : Host.Outcome State Fault Refusal := .next (enterZone 3 0x0102 s)

/-- The shots that run end by group high-side quench, each counted, and committed shots that can no longer start in their window
are dropped (R51, R300, R307). -/
def endForSupply (s : State) : State :=
  (List.finRange 128).foldl (fun s (v : Valve) =>
    if energised v s then settleValve v 9 (bump (F.ejtDropSupplyDropSupply (valveDie v)) (endRun v false s)) else s) s

def execVinOverEntry (s : State) : Host.Outcome State Fault Refusal := .next (endForSupply (enterZone 4 0x0103 s))

/-- VIN_SNS has stayed in the Over zone for 100 ms, or above 92.0 V for 5 µs, in whatever state the supervisor runs (R52). -/
def execVinOvTrip (s : State) : Host.Outcome State Fault Refusal :=
  .next (
    if s.mode ≠ .unpowered && s.mode ≠ .brownout .overTrip && getF F.pwrStateVinZone s = 4 then
      modPower (fun p => { p with attempts := [] }) (brownOut (.brownout .overTrip) false (setF F.pwrFaultVinOvTrip 1 s))
    else s)

/-- VIN_SNS is converted, in units of 10 mV (R63, Table 3.6: the field keeps the last conversion). -/
def execPwrVinConversion (v : BitVec 16) (s : State) : Host.Outcome State Fault Refusal :=
  .next (if s.mode = .unpowered || s.freeze.since.isSome then s else setF F.pwrStateVin v.toNat s)

/-! ### The clock monitor (R67) -/

/-- The loss sets its bits, and is reported at the first instruction. -/
def noteClockLoss (k : ClockLoss) (s : State) : State :=
  match k with
  | .refclk =>
    setF F.clkStateRefclkOk 0 (setF F.clkFaultRefclkLoss 1 { s with boot := { s.boot with clkLoss := true } })
  | .rootPll =>
    setF F.clkStateRootLock 0 (setF F.clkFaultRootUnlock 1 { s with boot := { s.boot with pllLoss := true } })
  | .diePll =>
    setF F.clkStateDieLock 0 (setF F.clkFaultDieUnlock 1 { s with boot := { s.boot with pllLoss := true } })

/-- REFCLK or a PLL fails, once the monitor watches: before the release of reset the sequence is held where it stands, and one
that has not begun waits for REFCLK at its own row; after the release the device is held in reset (R67). The restart takes the
path of the hub watchdog (Table 4.1) and is no watchdog expiry: it sets neither RST.CAUSE.WATCHDOG nor counts in
WATCHDOG_COUNT (DESIGN CHOICE, assumption 136). -/
def execClockLoss (k : ClockLoss) (s : State) : Host.Outcome State Fault Refusal :=
  .next (
    if !s.power.monitor then s
    else match s.mode with
      | .unpowered => s
      | .brownout _ | .railWait | .inrushWait | .clockHeld _ => noteCause .clockLoss (noteClockLoss k s)
      | .powerUp r => noteCause .clockLoss (noteClockLoss k { s with mode := .clockHeld (some r) })
      | _ => noteClockLoss k (fullReset .clockLoss (.clockHeld none) s))

/-- REFCLK has been good for 1 ms: the sequence continues, or the device restarts through the starting block (R67). -/
def execClockRestart (s : State) : Host.Outcome State Fault Refusal :=
  .next (
    match s.mode with
    | .clockHeld (some r) => setF F.clkStateRefclkOk 1 { s with mode := .powerUp r }
    | .clockHeld none => setF F.clkStateRefclkOk 1 { s with mode := if s.pins.resetN then .inReset else .resetPin }
    | _ => s)

/-! ### RESET_N and the hub watchdog (R75, R462) -/

/-- A full reset by RESET_N: during power-up, and while the clock monitor holds the device, the reset in progress goes on. -/
def takePin (s : State) : State :=
  let s := modPins (fun p => { p with resetN := false }) s
  let hold (s : State) : State := noteCause .pin (bump F.rstCountResetPinCount s)
  match s.mode with
  | .unpowered | .resetPin => s
  | .brownout _ | .railWait | .inrushWait | .powerUp _ | .clockHeld _ => hold s
  | _ => fullReset .pin .resetPin (bump F.rstCountResetPinCount s)

/-- RESET_N has been low for `ns`; between 400 and 600 ns it is taken or ignored (R462). -/
def execResetNAssert (ns : Nat) (s : State) : Host.Outcome State Fault Refusal :=
  .next (
    if ns < 400 then s
    else if ns < 600 then
      let (x, s) := takeFree s
      if x % 2 = 1 then takePin s else s
    else takePin s)

/-- RESET_N rises, and the reset ends (Table 4.1); the contacts leave the scan levels (Table 20.4). -/
def execResetNRelease (s : State) : Host.Outcome State Fault Refusal :=
  .next (
    let s := modPins (fun p => { p with resetN := true }) s
    let s := if s.freeze.since.isSome then s else { s with jtag := { s.jtag with drive := none } }
    if s.mode = .resetPin then { s with mode := .inReset } else s)

/-- Hub core 0 retires nothing for 50 ms, or the deadline monitor misses its check twice (Table 4.1). -/
def execHubWatchdog (s : State) : Host.Outcome State Fault Refusal :=
  .next (if live s then fullReset .watchdog .inReset (bump F.rstCountWatchdogCount s) else s)

/-! ### The release of reset (R66, R69, R78, R80, R94, R223, R228) -/

/-- The clusters that failed their self-test (R223). -/
def takeClusterTest (cl : BitVec 26) (s : State) : State :=
  let there (p : Fin 26) : Bool := unitPresent s.opt (clusterUnit p)
  let s := setF F.stcClusterOk (((List.finRange 26).filter fun p => there p && cl.getLsbD p).map fun (p : Fin 26) => 2 ^ p.val).sum s
  ((List.finRange 26).filter fun p => there p && !cl.getLsbD p).foldl (fun s (p : Fin 26) =>
    raise 0x2006 6 p 0 (setF F.stcFaultClusterFailed 1 s)) s

/-- The physical engine of a logical one where it passed, else the lowest free spare (R228). -/
def engineFor (opt : Opt) (ok : Nat → Bool) (used : List Nat) (l : Nat) : Option Nat :=
  let own := if opt = .zt8 || l < 24 then 8 + l else l - 24
  if ok own then some own
  else if opt = .zt4 then none
  else ((List.range 8).map (· + 72) ++ List.range 8).find? fun p => ok p && !used.contains p

/-- The engine self-test and the assignment of the logical engines (R228). -/
def takeEngineTest (eng : BitVec 80) (s : State) : State :=
  let there (p : Nat) : Bool := diePresent s.opt (physDie p)
  let ok (p : Nat) : Bool := there p && eng.getLsbD p
  let mask (lo n : Nat) : Nat := (((List.range n).filter fun i => ok (lo + i)).map (2 ^ ·)).sum
  let s := setF F.stcAlongOk0Ok (mask 0 32) (setF F.stcAlongOk1Ok (mask 32 32) (setF F.stcAlongOk2Ok (mask 64 16) s))
  ((List.range (engCount s.opt)).foldl (fun (x : List Nat × State) l =>
    let (used, s) := x
    let own := if s.opt = .zt8 || l < 24 then 8 + l else l - 24
    match engineFor s.opt ok used l with
    | some p =>
      if p = own then (p :: used, setF (F.algEngStatePhys l) p s)
      else (p :: used, raise 0x2007 2 l 0 (setF (F.algEngStatePhys l) p s))
    | none =>
      (used, raise 0x2008 2 l 0 (setF F.stcFaultEngineMissing 1
        { s with boot := { s.boot with engMissing := s.boot.engMissing ++ [l] } }))) ([], s)).2

/-- The version of a slot's image that has not failed in this boot (R80). -/
def slotVersion (k : Nat) (s : State) : Option Nat :=
  if s.boot.failed.contains k then none
  else ((if k = 0 then s.boot.slotA else s.boot.slotB).map fun i => i.version.toNat)

/-- The slot to try next: the higher version, A on a tie (R80). -/
def nextSlot (s : State) : Option Nat :=
  match slotVersion 0 s, slotVersion 1 s with
  | some a, some b => if a < b then some 1 else some 0
  | some _, none => some 0
  | none, some _ => some 1
  | none, none => none

/-- The image whose signature the starting block checks, from the slot it shows. -/
def bootImage (s : State) : Option Image :=
  match getF F.rstBootSlot s with
  | 0 => s.boot.slotA
  | 1 => s.boot.slotB
  | _ => none

/-- Choose an image slot, or wait for the host (R80). -/
def chooseSlot (s : State) : State :=
  match nextSlot s with
  | some k => setF F.rstBootStage 2 (setF F.rstBootSlot k s)
  | none => raise 0x0211 0 0 0 (setF F.rstBootStage 0xE (setF F.rstBootSlot 3 s))

/-- The life-cycle check: a mismatch and RETIRED load no image; a wipe that is pending comes first (R93, R94). -/
def checkLifecycle (s : State) : State :=
  let (a, b) := s.sec.otp
  let s := setF F.lcsStateState a.toNat (setF F.lcsStateStateN b.toNat s)
  if b ≠ ~~~ a then raise 0x0221 0 0 0 (complementFail 3 (setF F.rstBootStage 0xF s))
  else if flag F.lcsInfoWipePending s then setF F.rstBootStage 1 s
  else if a = 0x08 then setF F.rstBootStage 0xF s
  else chooseSlot s

/-- SEC_COUNTER_LOW, once per boot and subject (R449), while 16 or fewer counter cells remain (R395); its subject is the
signer of the block that left so few, where it is one (R402), and else the device. -/
def checkCounter (signer : Option Nat) (s : State) : State :=
  let who : Nat × Nat := match signer with
    | some i => (0xE, i)
    | none => (0, 0)
  if getF F.secKeysCount s < 1008 then s
  else if s.sec.toldLow.contains who then bump F.intEvtSuppressedSuppressed s
  else raise 0x4106 who.1 who.2 0 { s with sec := { s.sec with toldLow := who :: s.sec.toldLow } }

/-- The reset is released to the starting block: dies run, device time starts after power-on, the random generator is seeded,
from entropy that is a free value (R400, assumption 5), the self-tests stand, and the life-cycle state is checked. `cl` and
`eng` are what passed; a link in `bad` fails to train and counts as fatal (R233: the full reset trains every link; DESIGN
CHOICE that its failure reports like another, assumption 60). The model's choices also: the network transmitters run from here
on, though Table 2.4 has no column for the boot sequence (assumption 134); a RESET_N low at this moment holds the device with
the power-up attempt counted as complete (assumption 83); and every release sets the SerDes lock bits (assumption 137). -/
def execResetRelease (cl : BitVec 26) (eng : BitVec 80) (bad : List (Fin 16)) (s : State) : Host.Outcome State Fault Refusal :=
  .next (
    if s.mode ≠ .powerUp .pll && s.mode ≠ .inReset then s
    else
      let s := s.setWord F.clkState (s.word F.clkState ||| 0x7F)
      if !s.pins.resetN then { s with mode := .resetPin, power := PowerPart.reset }
      else
        let s := if s.timeOn then s else { s with time := 0, timeOn := true }
        let (x, s) := takeFree s
        let s := { s with
          mode := .boot
          sec := { s.sec with drbg := drbgSeed (beBytes 48 x) }
          power := PowerPart.reset
          pins := { s.pins with ddrRstN := true, ethTx := true, vgdTx := true }
          boot := { s.boot with releasedAt := s.time, failed := [] } }
        let s := setF F.rstDieDieUp (((List.range 8).filter fun d => diePresent s.opt d).map (2 ^ ·)).sum s
        let s := (List.finRange 16).foldl (fun s (l : Fin 16) =>
          if bad.contains l && (linkEnds s.opt l).isSome then linkFatal l s else s) s
        checkCounter none (checkLifecycle (takeEngineTest eng (takeClusterTest cl s))))

end Sys2Proof.Machine
end

