-- ==== Sys2Proof/Machine/Time.lean ====
section
/-!
DEFINITION. The correction of device time (R69–R73, R408).
-/

namespace Sys2Proof.Machine

/-- The sources in the order of R70, with CLK.STATE.TIME_SRC and LNK.PORT.TIME_PORT. -/
def srcRank : TimeSrc → Nat
  | .vgd0 | .vgd1 => 0
  | .eth0 | .eth1 => 1

def srcCode : TimeSrc → Nat
  | .vgd0 | .vgd1 => 2
  | .eth0 | .eth1 => 1

def srcPort : TimeSrc → Nat
  | .vgd0 => 1
  | .vgd1 => 2
  | .eth0 => 3
  | .eth1 => 4

/-- The Vangad link that announces the lower STRATUM below 15, VGD0 on a tie; none for the master of the chain (R413). -/
def bestVgd (s : State) : Option (Fin 2) :=
  if bit (s.word F.lnkCfg0) 29 then none
  else
    let str (p : Fin 2) : Nat := if vgdEnabled p s && vgdUp p s then (s.net.vgd[p].stratum.getD 15) else 15
    if str 0 < 15 && str 0 ≤ str 1 then some 0 else if str 1 < 15 then some 1 else none

/-- May the module take time from the source: the Vangad link that announces the lower STRATUM (R413), PTP where the port
carries it (Table 19.4)? -/
def srcAllowed (x : TimeSrc) (s : State) : Bool :=
  let w := s.word F.lnkCfg0
  match x with
  | .vgd0 => bestVgd s = some 0
  | .vgd1 => bestVgd s = some 1
  | .eth0 => bit w 25
  | .eth1 => bit w 26

/-- May device time step: every valve queue empty and no LATCH staged (R72)?  A LATCH counts as staged until its TIME
(R283). -/
def mayStep (s : State) : Bool :=
  ((List.finRange 128).all fun v => s.ejt.chans[v].queue.isEmpty) &&
    ((List.finRange 2).all fun d => s.lum[d].latch.all fun l => decide (l.time ≤ s.time))

/-- Change the discipline of device time, and show it. -/
def modClock (f : TimePart → TimePart) (s : State) : State :=
  let s := { s with clock := f s.clock }
  setF F.clkStateSlewing (b2n s.clock.slewing) s

/-- Device time moved by `d` ns; it is a 64-bit count (R12). -/
def moveTime (d : Int) (s : State) : State := { s with time := enc 64 ((s.time : Int) + d) }

/-- Device time departs by `d` ns from 10 ns for each PERIPH cycle, by a slew or a step (R71, R72). -/
def shiftTime (d : Int) (s : State) : State :=
  if d = 0 then s
  else
    { moveTime d s with clock := { s.clock with
      shifts := (s.periph, d) :: s.clock.shifts.filter fun x => decide (s.periph ≤ x.1 + 600) } }

/-- Device time moves by what remains of the correction (R72). -/
def stepTime (s : State) : State :=
  let s := shiftTime s.clock.remaining s
  raise 0x0112 0 0 0 (modClock (fun c => { c with remaining := 0, slewing := false, deferred := false }) s)

/-- STRATUM that the module announces: 0 as the master of its chain, one more than the partner it takes time from, which is below
15, else 15 (R413). -/
def ownStratum (s : State) : Nat :=
  let behind (p : Fin 2) : Nat := min 15 (s.net.vgd[p].stratum.getD 14 + 1)
  if bit (s.word F.lnkCfg0) 29 then 0
  else match s.clock.src with
    | some .vgd0 => behind 0
    | some .vgd1 => behind 1
    | _ => 15

def showStratum (s : State) : State := setF F.lnkPortStratum (ownStratum s) s

/-- A source is taken up (R70, R413). -/
def useSource (x : TimeSrc) (s : State) : State :=
  showStratum (setF F.clkStateTimeSrc (srcCode x)
    (setF F.lnkPortTimePort (srcPort x) (modClock (fun c => { c with src := some x }) s)))

/-- A new offset of device time from its source, in ns (own time less the source's): it replaces what remains; up to 1 ms is
slewed, and more is stepped once that may be (R71, R72, R408). While another source is in use, PTP brings nothing (R70). The
rate correction that the discipline forms with it is a free value of at most 100 ppm: the manual names it (R70, R86) and gives
no rule for it beyond the bound of R71; assumption 40. -/
def takeOffset (x : TimeSrc) (off : Int) (s : State) : State :=
  let worse := decide (srcRank x = 1) && s.clock.src.any (· ≠ x)
  if !live s || worse || !srcAllowed x s then s
  else
    let s := useSource x (setF F.clkTimeOffsetOffset (enc 32 (clampI (-(2 ^ 31)) (2 ^ 31 - 1) off)) s)
    let (r, s) := takeFree s
    let s := modClock (fun c => { c with
      remaining := -off, slewing := off ≠ 0, deferred := false, rate := ((r % 201 : Nat) : Int) - 100 }) s
    if off.natAbs ≤ 1000000 then s
    else if mayStep s then stepTime s
    else setF F.clkFaultStepDeferred 1 (modClock (fun c => { c with deferred := true }) s)

def execTimeOffsetMeasured (x : TimeSrc) (off : Int) (s : State) : Host.Outcome State Fault Refusal :=
  .next (takeOffset x off s)

/-- A step that was held back is made (R72). -/
def execTimeStep (s : State) : Host.Outcome State Fault Refusal :=
  .next (if live s && s.clock.deferred && mayStep s then stepTime s else s)

/-- The slew has corrected the last offset (R71). -/
def execSlewComplete (s : State) : Host.Outcome State Fault Refusal :=
  .next (if live s && s.clock.slewing && s.clock.remaining = 0 then modClock (fun c => { c with slewing := false, deferred := false }) s else s)

/-- The source in use is lost: holdover keeps the last rate correction, and the correction under way goes on (R70, R72). -/
def loseSource (s : State) : State :=
  match s.clock.src with
  | none => s
  | some _ =>
    let s := setF F.lnkPortTimePort 0 (setF F.clkStateTimeSrc 3 s)
    raise 0x0113 0 0 0 (showStratum (modClock (fun c => { c with src := none }) s))

def execTimeSourceLost (s : State) : Host.Outcome State Fault Refusal := .next (if live s then loseSource s else s)

/-- The source of a port or link that is lost (R70, R407, R411). -/
def loseIf (x : TimeSrc) (s : State) : State := if s.clock.src = some x then loseSource s else s

/-- One PERIPH cycle of device time: 10 ns, or 9 or 11 ns on a slewed cycle, at most one in 1,000 (R69, R71).  What remains of
the offset is slewed first; else the rate correction held slews a cycle for each ns it has gathered (R70, assumption 40). -/
def tickTime (s : State) : State :=
  let c := s.clock
  let g := c.drift + c.rate
  let may := decide (999 ≤ c.sinceSlew)
  if may && c.slewing && c.remaining ≠ 0 then
    let d := c.remaining.sign
    shiftTime d (moveTime 10 { s with clock := { c with remaining := c.remaining - d, sinceSlew := 0 } })
  else if may && !c.slewing && decide (100000 ≤ g.natAbs) then
    shiftTime g.sign (moveTime 10 { s with clock := { c with drift := g - 100000 * g.sign, sinceSlew := 0 } })
  else
    moveTime 10 { s with clock := { c with drift := if c.slewing then c.drift else clampI (-100000) 100000 g, sinceSlew := min 999 (c.sinceSlew + 1) } }

end Sys2Proof.Machine
end

