-- ==== Sys2Proof/Machine/Freeze.lean ====
section
/-!
DEFINITION. The integrity scan (R423–R425), and freeze and resume (R427–R429, R434, R435).
-/

namespace Sys2Proof.Machine

/-! ### Owner key slots (R388) -/

/-- The state of an owner key slot; one whose complement disagrees counts as REVOKED (R388). -/
def slotState (i : Nat) (s : State) : Nat :=
  let x := getF F.secKeysSlots s / 4 ^ i % 4
  if x + getF F.secKeysSlotsN s / 4 ^ i % 4 = 3 then x else 2

/-- A slot's state is used: a mismatch counts, and is reported once per boot and slot (R388, R423, R449). -/
def checkSlot (s : State) (i : Nat) : State :=
  if getF F.secKeysSlots s / 4 ^ i % 4 + getF F.secKeysSlotsN s / 4 ^ i % 4 = 3 then s
  else
    let s := setF F.secFaultComplement 1 (complementFail 6 s)
    if s.sec.toldCompl.contains i then bump F.intEvtSuppressedSuppressed s
    else raise 0x4105 0xE i 0 { s with sec := { s.sec with toldCompl := i :: s.sec.toldCompl } }

/-- The slot states are used. -/
def checkSlots (s : State) : State := (List.range 4).foldl checkSlot s

/-! ### The scan (R424, R425) -/

/-- The working copy of the life-cycle state fails its complement: it is restored from OTP, or the device holds the safe state
(R424). -/
def scanLifecycle (s : State) : State :=
  if getF F.lcsStateState s + getF F.lcsStateStateN s = 255 then s
  else
    let s := raise 0x0221 0 0 0 (complementFail 3 s)
    if otpBad s then safeState s
    else setF F.lcsStateState s.sec.otp.1.toNat (setF F.lcsStateStateN s.sec.otp.2.toNat s)

/-- Every 10 ms the protected values that rest in the hub and the parity of the status words are scanned. -/
def execIntegrityScan (s : State) : Host.Outcome State Fault Refusal :=
  .next (
    if !live s then s
    else
      let s := checkSlots (let s := scanLifecycle (checkLimits s); (unlockBits (wrongPart s) s).1)
      s.statusBad.foldl (fun s a => parityCheck a s) s)

/-! ### Freeze entry (R428, R429, Table 20.3) -/

/-- The device freezes: outputs are forced off, the links go down, and the clocks stop. The time source in use is lost with
its link, and that acts at the resume (`endFreeze`; DEDUCED, assumption 22). -/
def freezeNow (src : Nat) (s : State) : State :=
  let s := lampsOff 1 (lampsOff 0 (stopRuns 1 (stopRuns 0 s)))
  let s := (List.finRange 2).foldl (fun s (d : Fin 2) => if diePresent s.opt (4 + d) then setBias d false s else s) (releaseShutters s)
  let s := cutLsync (setF F.lnkPortVgdUp 0 (setF F.lnkPortEthUp 0 s))
  let s := setF F.intStateFrozen 1 (setF F.intStateSafe 1 (setF F.intStateSource src s))
  showStratum { s with
    freeze := { s.freeze with since := some (s.tick, s.time), requested := none, resumeRefused := false }
    pins := { s.pins with ethTx := false, vgdTx := false }
    net := { s.net with vgd := Vector.replicate 2 VgdPort.reset, ptp := Vector.replicate 2 PtpPort.reset } }

/-- A request: at once where the device runs, just before the first instruction where it is in reset (R428). -/
def requestFreeze (src : Nat) (s : State) : State :=
  if s.freeze.since.isSome || s.mode = .unpowered then s
  else if live s then freezeNow src s
  else { s with freeze := { s.freeze with requested := some (s.freeze.requested.getD src) } }

/-- FREEZE_N is low for `ns`; between 130 and 170 ns it is taken or ignored (R462). -/
def execFreezeNAssert (ns : Nat) (s : State) : Host.Outcome State Fault Refusal :=
  .next (
    let take (s : State) : State :=
      requestFreeze 1 { s with
        pins := { s.pins with freezeN := false }
        freeze := { s.freeze with low := s.tick + ns / 10 } }
    if ns < 130 then s
    else if ns < 170 then
      let (x, s) := takeFree s
      if x % 2 = 1 then take s else s
    else take s)

def execSysFreeze (u : UnitId) (s : State) : Host.Outcome State Fault Refusal :=
  .next (sysOp u false [] (fun _ => false) (requestFreeze 2) s)

/-! ### Resume (R434, R435, Table 20.6) -/

/-- The TAINT bit on a word. -/
def tainted (w : Word) : Word := w ||| 0x02000000

/-- Words in line buffers at the resume edge carry TAINT (R435). -/
def taintBuffers (s : State) : State :=
  let head := 4 + 4 * bandCount s.opt
  { s with
    freeze := { s.freeze with taintSlots := 64 }
    corr := { s.corr with dies := s.corr.dies.map fun e => { e with rows := e.rows.map fun r => { r with out := r.out.map tainted } } }
    cam := { s.cam with ports := (s.cam.ports.map withdraw).map fun e => { e with
      closed := e.closed.map fun l => { l with rows := l.rows.map fun r => r.map fun p => (p.1, true) }
      adm := e.adm.map fun l => { l with rows := l.rows.map fun r => r.map fun p => (p.1, true) }
      hist := e.hist.map fun l => { l with rows := l.rows.map fun r => r.map fun p => (p.1, true) }
      outs := e.outs.map fun o => { o with pads := o.pads.map fun _ => true } } }
    fused := { s.fused with ring := s.fused.ring.map fun l => { l with words := l.words.take head ++ (l.words.drop head).map tainted } } }

/-- Raise an event with the device time at which the clocks stopped. -/
def raiseAt (t code detail : Nat) (s : State) : State :=
  { s with ev := { s.ev with queue := s.ev.queue ++ [⟨code, 0, 0, detail, t⟩] } }

/-- The freeze ends: `a` and `t` are the supervisor's cycle and device time at its start.  The state before it resumes (R434): in
STANDBY the bias pulses, in PARK the shutters close again and the Vangad links stay idle, the time source is lost with the links
that went down, and a shutdown that arose meanwhile acts. -/
def endFreeze (a t : Nat) (s : State) : State :=
  let us := min (2 ^ 32 - 1) ((s.tick - a) / 100)
  let refused := s.freeze.resumeRefused
  let s := setF F.intFreezeTimeUs us (bump F.intFreezeCountFreezes (setF F.intStateFrozen 0 s))
  let s := setF F.intStateSafe (b2n (inShutdown s || otpBad s)) s
  let shuts := s.freeze.shuts
  let s := { s with
    freeze := { s.freeze with since := none, resumeRefused := false, shuts := [] }
    pins := { s.pins with ethTx := true, vgdTx := s.mode ≠ .park }
    jtag := { s.jtag with drive := none }
    sadc := { s.sadc with redo := s.sadc.redo || s.sadc.entry || s.sadc.inj.isSome } }
  let s := standbyBias s
  let s := if s.mode = .park && !inShutdown s then moveShutters true s else s
  let s := showCam 1 (showCam 0 (taintBuffers (flushDie 1 (flushDie 0 (dropFeedGap false s)))))
  let s := loseSource (raiseAt t 0x6002 us (raiseAt t 0x6001 us (calStopAll s)))
  let s := shuts.foldl (fun s x => actShutdown (Fin.ofNat 8 x.1) x.2 s) s
  let s := if inShutdown s then { s with pins := { s.pins with alive := true } } else s
  if refused then raise 0x6004 0 0 0 s else s

end Sys2Proof.Machine
end

