-- ==== Sys2Proof/Machine/Boot.lean ====
section
/-!
DEFINITION. The boot sequence (R78–R85, R93–R96, R379, R389, R391, R399) and DDR5 training and wiping.
-/

namespace Sys2Proof.Machine

/-- Does an image carry the 288 bytes of a vendor key chain exactly when its signer is the vendor (R262, R392), inside the bytes
that its digest is taken over?  Without its chain a vendor signature verifies under no key. -/
def chainOk (img : Image) : Bool :=
  img.chain.length = (if img.signer = 0xF then 288 else 0) && (img.raw.tails.any fun t => img.chain.isPrefixOf t)

/-- May the signer of an image sign it in the life-cycle state held (Table 18.2), and does it carry the chain for it? -/
def imageSignerOk (img : Image) (s : State) : Bool :=
  let n := img.signer.toNat
  let active (i : Nat) : Bool := slotState i s = 1
  chainOk img && match getF F.lcsStateState s with
  | 1 => n = 15
  | 2 => (n < 4 && active n) || (n = 15 && !((List.range 4).any active))
  | 4 => n = 15
  | _ => false

/-- Does a vendor key chain hold (R392): ROOT's hash is that of OTP, and VKEY is ROOT with VCERT zero, or VCERT verifies under
ROOT? -/
def chainHolds (chain : List Byte) (s : State) : Bool :=
  let root := chain.take 96
  let vkey := (chain.drop 96).take 96
  let vcert := chain.drop 192
  chain.length = 288 && decide (sha384 root = s.sec.rootHash) &&
    ((vkey = root && vcert.all (· = 0)) || ecVerify root (sha384 (leBytes 4 0x56434552 ++ vkey)) vcert)

/-- The public key that a signer names: VKEY of the vendor's chain, or the owner slot's (R389, R392). -/
def signerKey (signer : Nat) (chain : List Byte) (s : State) : List Byte :=
  if signer = 0xF then (chain.drop 96).take 96 else if signer < 4 then s.sec.keys[Fin.ofNat 4 signer] else []

/-- Does a signature r ‖ s over a hash hold: a vendor's chain first, then the signature under the key that the signer names, and
under no other (R389, R391, R392, R394)? -/
def signatureHolds (signer : Nat) (chain hash sig : List Byte) (s : State) : Bool :=
  (signer ≠ 0xF || chainHolds chain s) && ecVerify (signerKey signer chain s) hash sig

/-- Does an image pass its signature check (R80, R389, R391)? -/
def imageHolds (img : Image) (s : State) : Bool :=
  imageSignerOk img s && signatureHolds img.signer.toNat img.chain (sha384 img.raw) img.sig s

/-- A signature check fails (R391). -/
def verifyFail (n : Nat) (s : State) : State := raise 0x4104 0xE n 0 (setF F.secFaultVerifyFail 1 s)

/-- The slot under check has failed: the other is tried (R80). -/
def slotFails (s : State) : State :=
  let k := getF F.rstBootSlot s
  let s := setF (if k = 0 then F.rstBootSlotAFail else F.rstBootSlotBFail) 1 s
  chooseSlot (raise 0x0210 0 0 0 { s with boot := { s.boot with failed := k :: s.boot.failed } })

/-- An image that passed is placed, and its digest and signer shown (R391). -/
def takeImage (img : Image) (pl : List (Nat × Fin 26)) (s : State) : State :=
  let s := placeImage img pl { s with sec := { s.sec with imageHash := sha384 img.raw } }
  let s := setF F.secStateImageSigner img.signer.toNat s
  setF F.rstBootStage (if flag F.rstBootIndexReady s then 4 else 3) s

/-- The signature check of the slot's image completes; the loader then checks it (R80, R263, R391). -/
def execSignatureVerified (s : State) : Host.Outcome State Fault Refusal :=
  .next (
    match bootImage s with
    | none => s
    | some img =>
      if !booting s || getF F.rstBootStage s ≠ 2 then s
      else
        let s := checkSlots s
        if !imageHolds img s then slotFails (verifyFail img.signer.toNat s)
        else
          match loaderCheck true img (clustersOf img) [] s with
          | (0, pl) => takeImage img pl s
          | (code, _) => slotFails (loaderRefuse none code s))

/-- The margin table as read at boot (R361; its layout is the model's, assumption 30); after power-on and brown-out its STEP
is the VCORE set point (R59, Table 4.3). DESIGN CHOICE: where the store holds no margin table, STEP is 0 after power-on and
brown-out, and otherwise stays; assumption 42. -/
def loadMargin (s : State) : State :=
  let cold := s.boot.cause = .powerOn || s.boot.cause = .brownout
  match record 0 0x500 s with
  | none => if cold then setF F.pwrVcoreSetStep 0 s else s
  | some b =>
    let s := if cold then setF F.pwrVcoreSetStep (min 12 (nth 0 b 0).toNat) s else s
    let s := (List.finRange 8).foldl (fun s (d : Fin 8) => setF (F.thmDieAgeAge d) (u16At b (3 + 4 * d.val)) s) s
    { s with thm := { s.thm with
      factAge := Vector.ofFn fun d => u16At b (1 + 4 * d.val)
      factG := Vector.ofFn fun d => u16At b (33 + 2 * d.val)
      factEye := Vector.ofFn fun c => ((nth 0 b (37 + 4 * c.val)).toNat, (nth 0 b (38 + 4 * c.val)).toNat) } }

/-- The scanner finishes and the index is ready (R379). -/
def execIndexComplete (s : State) : Host.Outcome State Fault Refusal :=
  .next (
    if !booting s || flag F.rstBootIndexReady s || flag F.lcsInfoWipePending s then s
    else
      let s := loadMargin (buildIndex s)
      let s := setF F.nvsIndexTimeUs (min 65535 ((s.time - s.boot.releasedAt) / 1000)) (setF F.rstBootIndexReady 1 s)
      if getF F.rstBootStage s = 3 then setF F.rstBootStage 4 s else s)

/-- The pixel models, trims and lags are loaded (R79, R81, Table 4.2). -/
def execPixelModelLoaded (s : State) : Host.Outcome State Fault Refusal :=
  .next (
    if !booting s || !flag F.rstBootIndexReady s || flag F.rstBootModelReady s then s
    else
      let s := (List.finRange 2).foldl (fun s (d : Fin 2) => if adUp d s then loadCounts d s else s) (loadAll s)
      setF F.rstBootModelReady 1 s)

/-- The reset event of a cause (R96). -/
def resetEvent : Cause → Nat
  | .powerOn => 0x0201
  | .brownout => 0x0202
  | .pin => 0x0203
  | .watchdog => 0x0204
  | .clockLoss => 0x0205
  | .sysFull | .sysDie | .sysCluster => 0x0206
  | .lcsChange => 0x0208

/-- The first instruction: the device runs, and BOOT_TIME shows the time since the release of reset (R95); a freeze requested
in the reset takes effect just before it (R78, R80, R96, R399, R428). -/
def execFirstInstruction (s : State) : Host.Outcome State Fault Refusal :=
  .next (
    if !booting s || s.boot.running.isNone || !flag F.rstBootIndexReady s || !flag F.rstBootModelReady s ||
        getF F.rstBootStage s = 0xE || getF F.rstBootStage s = 0xF then s
    else
      let s := setF F.rstBootBootTime (min 65535 ((s.time - s.boot.releasedAt) / 1000)) (setF F.rstBootStage 5 { s with mode := .running })
      let s := raise (resetEvent s.boot.cause) 0 0 (bits (s.word F.rstCause) 8 0) s
      let s := if s.boot.clkLoss then raise 0x0110 0 0 0 s else s
      let s := if s.boot.pllLoss then raise 0x0111 0 0 0 s else s
      let s := setF F.secLoadsLoads 0 { s with sec := { s.sec with program := s.sec.imageHash } }
      let s := { s with boot := { s.boot with clkLoss := false, pllLoss := false } }
      let s := setF F.intStateSafe (b2n (inShutdown s)) s
      match s.freeze.requested with
      | some src => freezeNow src s
      | none => { s with pins := { s.pins with alive := true } })

/-! ### DDR5 (R78, R84, R85, R235) -/

/-- The wipe has passed `n` bytes of a channel from its first: they are zero with valid parity (R84). -/
def wipeTo (c : Fin 4) (n : Nat) (s : State) : State :=
  let size := ddrSize c s
  let n := min size n
  let inside (a : Nat) : Bool := decide (ddrBase c ≤ a) && decide (a < ddrBase c + n)
  modDdr c (fun e => { e with passed := n, wiped := decide (n = size) }) { s with
    mem := s.mem.filter fun x => !inside x.1
    memBad := s.memBad.filter fun a => !inside a }

/-- RST.DDR_WIPE shows how far the wipe has come (Table 4.6). -/
def showWipe (s : State) : State :=
  let total := ((List.finRange 4).map fun (c : Fin 4) => ddrSize c s).sum
  let done := ((List.finRange 4).map fun (c : Fin 4) => if s.ddr[c].wiped then ddrSize c s else s.ddr[c].passed).sum
  let ch := (((List.finRange 4).filter fun (c : Fin 4) => ddrSize c s ≠ 0 && s.ddr[c].wiped).map fun (c : Fin 4) => 2 ^ c.val).sum
  setF F.rstDdrWipeChDone ch (setF F.rstDdrWipeProgress (if total = 0 then 255 else min 255 (256 * done / total)) s)

/-- Bytes of each channel that the wipe passes in one PERIPH cycle: 32 GB in 0.67 s, the "about 0.7 s" of R84 (DESIGN CHOICE,
assumption 41). -/
def wipeRate : Nat := 512

/-- Is a channel being wiped?  In self-refresh no channel is (R90, R354). -/
def wiping (s : State) : Bool :=
  (s.ddr.toList.any fun e => e.trained && !e.wiped) && !inShutdown s && s.mode ≠ .standby && s.mode ≠ .park

/-- One PERIPH cycle of the background wipe. -/
def wipeTick (s : State) : State :=
  if wiping s then
    showWipe ((List.finRange 4).foldl (fun s (c : Fin 4) =>
      if s.ddr[c].trained && !s.ddr[c].wiped then wipeTo c (s.ddr[c].passed + wipeRate) s else s) s)
  else s

/-- Training ends: `size` is read from the SPD hubs, 2 bits per channel, and `eyes` are the read and write eye widths (R235,
Table 16.4), monitored but in PARK and in a shutdown (R359); the background wipe starts. -/
def execDdrTrainingComplete (size : BitVec 8) (eyes : List (BitVec 16)) (s : State) : Host.Outcome State Fault Refusal :=
  .next (
    if !clocked s || (s.ddr.toList.all fun e => e.trained) then s
    else
      let s := setF F.stcDdrSizeSize (if s.opt = .zt8 then size.toNat else size.toNat % 16) s
      let s := (List.finRange 4).foldl (fun s (c : Fin 4) =>
        if ddrSize c s = 0 then modDdr c (fun e => { e with trained := true, wiped := true }) s
        else
          let e := nth 0 eyes c
          let s := setF (F.thmDdrMarginReadEye c) (e.toNat / 256) (setF (F.thmDdrMarginWriteEye c) (e.toNat % 256) s)
          let s := modDdr c (fun e => { e with trained := true }) s
          if (e.toNat / 256 < 16 || e.toNat % 256 < 16) && s.mode ≠ .park && !inShutdown s then wearOut 4 8 c s else s) s
      showWipe s)

/-- The wipe has passed all DDR5: it reads zero with valid parity (R84). -/
def execDdrWipeComplete (s : State) : Host.Outcome State Fault Refusal :=
  .next (
    if !clocked s || !(s.ddr.toList.all fun e => e.trained) || (s.ddr.toList.all fun e => e.wiped) then s
    else
      let s := { s with
        ddr := Vector.ofFn fun c => { s.ddr[c] with wiped := true, passed := ddrSize c s }
        mem := s.mem.filter fun c => decide (c.1 < 2 ^ 40)
        memBad := s.memBad.filter fun a => decide (a < 2 ^ 40) }
      setF F.rstDdrWipeProgress 255 (showWipe s))

/-! ### Life-cycle wipe (R92–R94, R382, R396) -/

/-- The sectors of a partition are erased. -/
def erasePartition (p : Nat) (s : State) : State :=
  let own := (bankSectors p 0 ++ bankSectors p 1).filter fun i => (sectorAt i s.nvs).st ≠ .free
  modNvs (fun n => { n with copies := n.copies.filter (fun c => c.part ≠ p), opens := n.opens.filter fun x => x.1 / 2 ≠ p })
    (own.foldl (fun s i => eraseSector i s) s)

/-- The completion mark of a life-cycle state in VENDOR (R93, Table 17.2); its payload, which the manual does not give, is the
state's byte (assumption 113). -/
def completionMark (st : Nat) (s : State) : State :=
  let n := s.nvs
  let w : NvsWrite := { part := 0, key := 0x501, data := [BitVec.ofNat 8 st], gen := 0, counter := none, save := false }
  let seq := nextSeq 0 0x501 n
  match takeRoom 0 (seq % 2) 4 n with
  | some (i, n) => bump F.nvsWritesWrites { s with nvs := { n with copies := copyOf w ⟨seq, i, 4, 0, 0⟩ true :: n.copies } }
  | none => s

/-- The starting block finishes the wipe of a life-cycle transition and writes the completion mark (R93). -/
def execLifecycleWipeComplete (s : State) : Host.Outcome State Fault Refusal :=
  .next (
    if !booting s || !flag F.lcsInfoWipePending s || otpBad s then s
    else
      let s := erasePartition 3 (erasePartition 2 (erasePartition 1 s))
      let s := modNvs (fun n => { n with
        copies := n.copies.filter fun c => !(c.part = 0 && inR 0x512 c.key 0x517)
        pws := n.pws.filter fun x => decide (x.1 < 2) }) s
      let st := getF F.lcsStateState s
      let s := if st = 4 || st = 8 then
          setF F.secKeysSlots 0 (setF F.secKeysSlotsN 255 { s with sec := { s.sec with keys := Vector.replicate 4 [] } })
        else s
      checkLifecycle (raise 0x0220 0 0 0 (showNvs (setF F.lcsInfoWipePending 0 (completionMark st s)))))

end Sys2Proof.Machine
end

