-- ==== Sys2Proof/Machine/EventLog.lean ====
section
/-!
DEFINITION. The event log (R446–R451).
-/

namespace Sys2Proof.Machine

/-- Records entered and not yet read by the host (R447, R450). -/
def unread (s : State) : Nat := (getF F.intEvtSeqSeq s + 2 ^ 32 - getF F.intEvtHostNext s) % 2 ^ 32

/-- The oldest unread record is lost (R447). -/
def loseRecord (s : State) : State :=
  let s := bump F.intEvtLostLost s
  let s := setF F.intEvtHostNext ((getF F.intEvtHostNext s + 1) % 2 ^ 32) s
  let n := s.ev.lostSince + 1
  if withheld 0x6005 0 0 s then
    bump F.intEvtSuppressedSuppressed { s with ev := { s.ev with lostSince := n } }
  else raise 0x6005 0 0 n { s with ev := { s.ev with lostSince := 0 } }

/-- The order in which records enter that reach the hub in one PERIPH cycle: CODE, KIND, INDEX (R447). -/
def evKey (r : EvRec) : Nat := r.code * 65536 + r.kind * 4096 + r.index

/-- May the record enter in this PERIPH cycle, behind those that entered in it? -/
def inOrder (r : EvRec) (s : State) : Bool := s.ev.last.all fun x => x.1 ≠ s.periph || decide (x.2 ≤ evKey r)

/-- A record enters the log in the slot of its number, with good parity, and marks its code and subject (R447–R449). -/
def enterLog (r : EvRec) (s : State) : State :=
  let n := getF F.intEvtSeqSeq s
  let full := unread s = 256
  let slot := ringBase + 16 * (n % 256)
  let s := { s with
    ev := { s.ev with
      log := (r :: s.ev.log).take 256
      last := some (s.periph, evKey r)
      blank := s.ev.blank.filter fun a => !(decide (slot ≤ a) && decide (a < slot + 16))
      marks := ⟨r.code, r.kind, r.index, s.periph⟩ ::
        s.ev.marks.filter fun m => !(m.code = r.code && m.kind = r.kind && m.index = r.index) }
    statusBad := s.statusBad.filter fun a => !(decide (slot ≤ a) && decide (a < slot + 16)) }
  let s := setF F.intEvtSeqSeq ((n + 1) % 2 ^ 32) s
  if full then loseRecord s else s

/-- Record `i` of those on their way arrives at the hub (R447). -/
def execEventLogEntry (i : Nat) (s : State) : Host.Outcome State Fault Refusal :=
  .next (
    match s.ev.queue[i]? with
    | none => s
    | some r =>
      if clocked s && inOrder r s then enterLog r { s with ev := { s.ev with queue := s.ev.queue.eraseIdx i } } else s)

end Sys2Proof.Machine
end

