-- ==== Sys2Proof/Machine/Request.lean ====
section
/-!
DEFINITION. The command protocol (R403, R404, R409, R410, Tables 19.1 and 19.2): which datagrams are requests to this
module, how a request is refused or answered, and the replies that are kept.
-/

namespace Sys2Proof.Machine

/-- The state that the command protocol and the heartbeats name (R418): 0 waiting for a host image, 1 life-cycle fault,
2 running, 3 STANDBY, 4 PARK, 5 shutdown; `none` where the hub does not serve. -/
def hostState (s : State) : Option Nat :=
  if s.freeze.since.isSome then none
  else match s.mode with
    | .boot =>
      if getF F.rstBootStage s = 0xE then some 0 else if getF F.rstBootStage s = 0xF then some 1 else none
    | .running | .entering _ => some (if inShutdown s then 5 else 2)
    | .standby | .exiting false => some (if inShutdown s then 5 else 3)
    | .park | .exiting true => some (if inShutdown s then 5 else 4)
    | _ => none

/-- Is the Ethernet port's link up? -/
def ethUp (p : Fin 2) (s : State) : Bool := flagAt F.lnkPortEthUp p s


/-- The device UID. -/
def uidOf (s : State) : BitVec 64 := s.word F.secUidHi ++ s.word F.secUidLo

/-- The addressing mode (Table 19.1). -/
def hdrMode (h : Hdr) : Nat := bits h.addr 31 30

/-- Is ADDR well formed: no reserved mode, and no bit set outside its fields (R410)? -/
def hdrAddrOk (h : Hdr) : Bool :=
  match hdrMode h with
  | 0 => bits h.addr 29 18 = 0
  | 1 => bits h.addr 29 16 = 0
  | 2 => bits h.addr 29 0 = 0
  | _ => false

/-- Is the datagram one of the protocol at all (R410, step 1)? -/
def dgramOk (h : Hdr) : Bool := h.magic = 0x5A43 && h.version = 1 && hdrAddrOk h

/-- The groups in force (Table 19.4). -/
def groupsOf (s : State) : List Nat :=
  ((List.range 8).flatMap fun i => let w := s.word (F.lnkCfg2 + 4 * i); [bits w 31 16, bits w 15 0]).filter (· ≠ 0)

/-- The multicast address of a group; group 0 is every module (R404). -/
def groupAddr (g : Nat) : Word := BitVec.ofNat 32 (0xEF5A0000 + g)

/-- The IPv4 address of a port in force. -/
def ethAddr (e : Fin 2) (s : State) : Word := s.word (F.lnkEth0Addr + 4 * e.val)

/-- Does the port take datagrams to an IPv4 address: its own, the all-devices address, or that of a group in force (R404,
R406)? -/
def ipTakes (e : Fin 2) (ip : Word) (s : State) : Bool :=
  ip = ethAddr e s || (0 :: groupsOf s).any fun g => ip = groupAddr g

/-- An IPv4 address in network order. -/
def ipBytes (w : Word) : List Byte := beBytes 4 w.toNat

/-- The 24 bytes of a header (Table 19.1). -/
def hdrBytes (h : Hdr) : List Byte :=
  leBytes 2 h.magic.toNat ++ [h.version, h.opcode] ++ leBytes 4 h.addr.toNat ++ leBytes 8 h.uid.toNat ++ leBytes 4 h.seq.toNat ++
    leBytes 2 h.length.toNat ++ [h.status, h.flags]

/-- The one's complement sum of words of 16 bits in network order, with an odd last byte padded (RFC 768). -/
def onesSum : List Byte → Nat
  | [] => 0
  | [a] => 256 * a.toNat
  | a :: b :: r => let t := 256 * a.toNat + b.toNat + onesSum r; t % 65536 + t / 65536

/-- The UDP port of the protocol. -/
def udpPort : Nat := 47110

/-- The UDP checksum of a datagram over IPv4 (R406). PRESUMED: RFC 768, which the manual names only as UDP; 0 is sent as
0xFFFF, and a received 0 means that the sender formed none; assumption 115. -/
def udpSum (src dst : Word) (sp dp : Nat) (data : List Byte) : BitVec 16 :=
  let n := 8 + data.length
  let t := onesSum (ipBytes src ++ ipBytes dst ++ [0, 17] ++ beBytes 2 n ++ beBytes 2 sp ++ beBytes 2 dp ++ beBytes 2 n ++ [0, 0] ++ data)
  if t = 65535 then 0xFFFF else BitVec.ofNat 16 (65535 - t)

/-- Does the checksum of a received datagram hold? -/
def sumOk (h : Hdr) (p : List Byte) : Bool :=
  h.sum = 0 || h.sum = udpSum h.srcIp h.dstIp h.srcPort.toNat udpPort (hdrBytes h ++ p)

/-- Does a datagram reach the hub by the port it comes to, for an address of the port's and with a good checksum? -/
def hears (h : Hdr) (p : List Byte) (s : State) : Bool :=
  (hostState s).isSome && ethUp h.eth s && ipTakes h.eth h.dstIp s && sumOk h p

/-- Is the request addressed to every module? -/
def toAll (h : Hdr) : Bool := hdrMode h = 0 && bits h.addr 17 0 = 0x3FFFF

/-- Is the datagram addressed to this module (R403, R404)?  Until it has a device number it accepts only its UID and the
number of all modules. -/
def addressed (h : Hdr) (s : State) : Bool :=
  match hdrMode h with
  | 0 => toAll h || (flag F.lnkNetNumValid s && bits h.addr 17 0 = getF F.lnkNetDevnum s)
  | 1 => flag F.lnkNetNumValid s && (groupsOf s).contains (bits h.addr 15 0)
  | 2 => h.uid = uidOf s
  | _ => false

/-- Is the request answered (R410, steps 3 and 4)? -/
def answered (h : Hdr) : Bool := hdrMode h ≠ 1 && !toAll h

/-- STATUS of a reply (Table 19.1). -/
def stOk : Nat := 0
def stMalformed : Nat := 1
def stRefused : Nat := 2
def stBusy : Nat := 3

/-- The header of a datagram that the module sends. -/
def sentHdr (op : Nat) (addr : Nat) (seq : Word) (len st fl : Nat) : Hdr :=
  { magic := 0x5A43, version := 1, opcode := BitVec.ofNat 8 op, addr := BitVec.ofNat 32 addr, uid := 0, seq := seq,
    length := BitVec.ofNat 16 len, status := BitVec.ofNat 8 st, flags := BitVec.ofNat 8 fl, srcIp := 0, dstIp := 0,
    srcPort := BitVec.ofNat 16 udpPort, sum := 0, eth := 0, mac := 0 }

/-- The header as port `e` sends it to an address and UDP port: with its own address and the checksum (R406). -/
def sealHdr (e : Fin 2) (ip : Word) (port : Nat) (h : Hdr) (data : List Byte) (s : State) : Hdr :=
  { h with srcIp := ethAddr e s, dstIp := ip, eth := e, sum := udpSum (ethAddr e s) ip udpPort port (hdrBytes h ++ data) }

/-- A reply to the source of a request, on the port that the request arrived on (R406). -/
def replyTo (h r : Hdr) (data : List Byte) (s : State) : Sent :=
  .datagram h.eth (some h.mac) h.srcIp h.srcPort.toNat (sealHdr h.eth h.srcIp h.srcPort.toNat r data s) data

/-- An ADDR with its UID of the form of Table 19.1, chosen by `x`. -/
def freeAddr (x : Nat) : Nat × Nat :=
  match x % 3 with
  | 0 => (x / 3 % 2 ^ 18, 0)
  | 1 => (2 ^ 30 + x / 3 % 2 ^ 16, 0)
  | _ => (2 ^ 31, x / 3 % 2 ^ 64)

/-- Send a reply to the source of its request, and keep it (R406, R410). Which address of the form of Table 19.1 ADDR and UID
hold in a reply is not stated: a free value. -/
def reply (h : Hdr) (st : Nat) (data : List Byte) (s : State) : State :=
  if !answered h then s
  else
    let (x, s) := takeFree s
    let r := { sentHdr h.opcode.toNat (freeAddr x).1 h.seq data.length st 1 with uid := BitVec.ofNat 64 (freeAddr x).2 }
    send (replyTo h r data s)
      (modNet (fun n => { n with replies := (⟨h.srcIp, h.srcPort, h.seq, r, data⟩ :: n.replies).take 16 }) s)

/-- A request ends: MALFORMED and REFUSED outcomes count (R410). -/
def conclude (h : Hdr) (st : Nat) (data : List Byte) (s : State) : State :=
  reply h st data (if st = stMalformed ∨ st = stRefused then bump F.lnkCmdRefused s else s)

/-- The reply kept for a repeated request. -/
def keptReply (h : Hdr) (s : State) : Option KeptReply :=
  s.net.replies.find? fun r => r.ip = h.srcIp && r.port = h.srcPort && r.seq = h.seq

/-- Is an earlier image of the same opcode still being checked (Table 19.2)?  A second ATTEST and a second AUTH answer so for
themselves (R398; assumption 70). -/
def opBusy (op : Nat) (s : State) : Bool :=
  match s.sec.verify with
  | some (isLoad, _, _) => op = (if isLoad then 0x21 else 0x20)
  | none => false

/-- One row of Table 19.2: its opcode, the modes it may be addressed in, and the states that accept it. -/
structure OpRow where
  op : Nat
  modes : List Nat
  states : List Nat
deriving DecidableEq, Repr

def deviceUid : List Nat := [0, 2]
def allModes : List Nat := [0, 1, 2]

/-- The rows that are requests, and LATCH, which another module sends and R415 ties to no state. -/
def opTable : List OpRow :=
  [⟨0x01, deviceUid, [0, 1, 2, 3, 4, 5]⟩, ⟨0x02, allModes, [2, 3, 4, 5]⟩, ⟨0x03, deviceUid, [0, 1, 2, 3, 4, 5]⟩,
   ⟨0x10, allModes, [3, 4]⟩, ⟨0x11, allModes, [5]⟩, ⟨0x20, deviceUid, [0]⟩, ⟨0x21, deviceUid, [2, 3]⟩,
   ⟨0x30, deviceUid, [0, 1, 2, 3, 4, 5]⟩, ⟨0x31, deviceUid, [2, 3, 4]⟩, ⟨0x40, deviceUid, [2, 3, 4, 5]⟩,
   ⟨0x50, allModes, [2, 3, 4]⟩, ⟨0x60, [2], [0, 1, 2, 3, 4, 5]⟩, ⟨0x71, [1], [0, 1, 2, 3, 4, 5]⟩]

/-- Why a request is not carried out, if so: its STATUS.  Faults of the header come first, then an opcode that is none of the
table's, the layout of the payload, the mode and the state, and a request of its kind under way. -/
def refusal (op : Nat) (layout : List Byte → Bool) (h : Hdr) (p : List Byte) (s : State) : Option Nat :=
  if h.length.toNat ≠ p.length || 1448 < p.length || h.flags ≠ 0 || h.status ≠ 0 then some stMalformed
  else match opTable.find? fun r => r.op = h.opcode.toNat with
    | none => some stRefused
    | some r =>
      if !layout p then some stMalformed
      else if !r.modes.contains (hdrMode h) || !r.states.contains ((hostState s).getD 6) then some stRefused
      else if opBusy op s then some stBusy else none

/-- A datagram with opcode `op` arrives (R410): `act` carries the request out, and answers STATUS and payload, or nothing
where the answer comes later; `after` is what takes effect once the request has been executed and its reply sent. -/
def requestThen (op : Nat) (layout : List Byte → Bool) (act : State → State × Option (Nat × List Byte))
    (after : State → State) (h : Hdr) (p : List Byte) (s : State) : State :=
  if !hears h p s then s
  else if !dgramOk h then bump F.lnkCmdRefused s
  else if !addressed h s || (h.opcode.toNat ≠ op && opTable.any fun r => r.op = h.opcode.toNat) then s
  else
    match keptReply h s with
    | some r => if answered h then send (replyTo h r.hdr r.data s) (bump F.lnkCmdDuplicate s) else s
    | none =>
      match refusal op layout h p s with
      | some st => conclude h st [] s
      | none =>
        match act s with
        | (s, none) => s
        | (s, some (st, data)) => if st = stOk then after (conclude h st data s) else conclude h st data s

/-- A request with nothing left to do after its reply. -/
def request (op : Nat) (layout : List Byte → Bool) (act : State → State × Option (Nat × List Byte)) (h : Hdr)
    (p : List Byte) (s : State) : State :=
  requestThen op layout act id h p s

/-- A request carried out at once without a payload in its reply, or refused by its own rule. -/
def plain (f : State → State × Bool) (s : State) : State × Option (Nat × List Byte) :=
  let (s, ok) := f s
  (s, some (if ok then stOk else stRefused, []))

/-- The payload must have `n` bytes. -/
def sized (n : Nat) (p : List Byte) : Bool := p.length = n

/-- A datagram that fails MAGIC, VERSION or ADDR is no request (R410, step 1). -/
def execDatagramDiscard (h : Hdr) (p : List Byte) (s : State) : Host.Outcome State Fault Refusal :=
  .next (if hears h p s && !dgramOk h then bump F.lnkCmdRefused s else s)

/-! ### Status, events and modes -/

/-- A little-endian field of a payload. -/
def fieldAt (p : List Byte) (i n : Nat) : Nat := leNat ((p.drop i).take n)

/-- Read `n` words of the status space in ascending order (R260, R440). -/
def readMany (a : Nat) : Nat → State → State × List Word
  | 0, s => (s, [])
  | n + 1, s =>
    let (s, w) := readStatus hostReader (a % 2 ^ 32) s
    let (s, ws) := readMany (a + 4) n s
    (s, w :: ws)

def execCmdRead (h : Hdr) (p : List Byte) (s : State) : Host.Outcome State Fault Refusal :=
  .next (request 0x01 (fun p => sized 6 p && inR 1 (fieldAt p 4 2) 256)
    (fun s =>
      let (s, ws) := readMany (fieldAt p 0 4) (fieldAt p 4 2) s
      (s, some (stOk, toBytes ws))) h p s)

def execCmdEvtClr (h : Hdr) (p : List Byte) (s : State) : Host.Outcome State Fault Refusal :=
  .next (request 0x02 (sized 8)
    (plain fun s => (clearStatus (fieldAt p 4 4) (BitVec.ofNat 32 (fieldAt p 0 4)) s, true)) h p s)

/-- EVENTS: the oldest unread records, which count as read (R450). -/
def execCmdEvents (h : Hdr) (p : List Byte) (s : State) : Host.Outcome State Fault Refusal :=
  .next (request 0x03 (fun p => sized 2 p && inR 1 (fieldAt p 0 2) 64)
    (fun s =>
      let n := getF F.intEvtHostNext s
      let k := min (fieldAt p 0 2) (unread s)
      let (s, recs) := (List.range k).foldl (fun (x : State × List Word) i =>
        let (s, ws) := readMany (ringBase + 16 * ((n + i) % 256)) 4 x.1
        (s, x.2 ++ ws)) (s, [])
      (setF F.intEvtHostNext ((n + k) % 2 ^ 32) s, some (stOk, leBytes 4 n ++ leBytes 2 k ++ [0, 0] ++ toBytes recs))) h p s)

def execCmdWake (h : Hdr) (p : List Byte) (s : State) : Host.Outcome State Fault Refusal :=
  .next (request 0x10 (sized 0) (plain fun s => (leaveLow s, true)) h p s)

def execCmdResume (h : Hdr) (p : List Byte) (s : State) : Host.Outcome State Fault Refusal :=
  .next (request 0x11 (sized 0) (plain resumeDevice) h p s)

/-! ### The record store (R380–R383) -/

/-- NVS: an address, then data; an address with OP 0 and no data reads the record, cut to what a reply holds. -/
def execCmdNvs (h : Hdr) (p : List Byte) (s : State) : Host.Outcome State Fault Refusal :=
  .next (request 0x40 (fun p => decide (4 ≤ p.length) && p.length % 4 = 0)
    (fun s =>
      let a := fieldAt p 0 4
      if p.length = 4 && nvsOpOf a = 0 then
        if !nvsAddrOk a then (s, some (stRefused, []))
        else
          let (s, ws) := nvsRead (nvsPartOf a) (nvsKeyOf a) 1448 s
          let len := bits (nth 0 ws 0) 15 0
          (s, some (stOk, (toBytes ws).take (16 + len)))
      else
        let (s, code) := nvsRequest a (p.drop 4) s
        (s, some (if code = 0 then stOk else stRefused, []))) h p s)

/-! ### Network settings (R403) -/

/-- Give a port its address, mask and mode; an address of zero leaves the port on its link-local address (R406). -/
def setPort (e : Fin 2) (ip mask : Word) (mode : Nat) (s : State) : State :=
  let s := setF (if e = 0 then F.lnkPortEth0Mode else F.lnkPortEth1Mode) mode s
  if ip = 0 then s
  else
    let s := modNet (fun n => { n with masks := n.masks.set e mask }) (s.setWord (F.lnkEth0Addr + 4 * e.val) ip)
    setAt F.lnkPortLinkLocal e false s

/-- The settings of a SET_NET payload: the device number, and for each port its address, mask and mode (Table 19.2). -/
def setNet (p : List Byte) (s : State) : State :=
  let s := setF F.lnkNetDevnum (fieldAt p 0 4) (setF F.lnkNetNumValid 1 s)
  let port (e : Fin 2) (s : State) : State :=
    let i := 4 + 12 * e.val
    setPort e (BitVec.ofNat 32 (fieldAt p i 4)) (BitVec.ofNat 32 (fieldAt p (i + 4) 4)) (fieldAt p (i + 8) 4) s
  port 1 (port 0 s)

/-- SET_NET takes effect after its reply, which still leaves from the old address (Table 19.2). -/
def execCmdSetNet (h : Hdr) (p : List Byte) (s : State) : Host.Outcome State Fault Refusal :=
  .next (requestThen 0x60 (fun p => sized 28 p && decide (fieldAt p 12 4 ≤ 3) && decide (fieldAt p 24 4 ≤ 3))
    (plain fun s => (s, decide (fieldAt p 0 4 ≤ 0x3FFFE))) (setNet p) h p s)

end Sys2Proof.Machine
end

