-- ==== Sys2Proof/Machine/Security.lean ====
section
/-!
DEFINITION. The security engine (R80, R92, R93, R263, R265, R387–R399): images and code that the host delivers,
authorisation blocks, and attestation.
-/

namespace Sys2Proof.Machine

/-- Change the security engine's state. -/
def modSec (f : SecPart → SecPart) (s : State) : State := { s with sec := f s.sec }

/-! ### Images and code from the host (R80, R263, R265, R391) -/

/-- A chunk of an image: contiguous from offset 0, else what has come is discarded; the last chunk, which ends with the
signature, starts the check (Table 19.2). -/
def takeChunk (op : Nat) (img : Image) (h : Hdr) (p : List Byte) (s : State) : State × Option (Nat × List Byte) :=
  let off := fieldAt p 0 4
  let got := if s.boot.chunkOp = op then s.boot.chunks else []
  let keep (bs : List Byte) (s : State) : State := { s with boot := { s.boot with chunkOp := op, chunks := bs } }
  if off ≠ 0 && off ≠ got.length then (keep [] s, some (stMalformed, []))
  else
    let bs := (if off = 0 then [] else got) ++ p.drop 8
    if fieldAt p 4 4 = 0 then (keep bs s, some (stOk, []))
    else
      (modSec (fun e => { e with verify := some (op = 0x21, h, { img with raw := bs.take (bs.length - 96), sig := bs.drop (bs.length - 96) }) }) (keep [] s), none)

/-- The layout of a chunk. -/
def chunkOk (p : List Byte) : Bool := inR 8 p.length 1448 && decide (fieldAt p 4 4 ≤ 1)

/-- `img` is the image that the bytes spell once the last chunk has come: the manual gives the sections of an image and not their
layout in bytes (Table 11.5, assumption 5). -/
def execCmdImage (h : Hdr) (p : List Byte) (img : Image) (s : State) : Host.Outcome State Fault Refusal :=
  .next (request 0x20 chunkOk (fun s => takeChunk 0x20 img h p s) h p s)

def execCmdLoad (h : Hdr) (p : List Byte) (img : Image) (s : State) : Host.Outcome State Fault Refusal :=
  .next (request 0x21 chunkOk (fun s => takeChunk 0x21 img h p s) h p s)

/-- The logical clusters of an image whose code a reset has taken and LOAD places again (R265). -/
def affected (img : Image) (s : State) : List Nat :=
  (List.range img.clusters.length).filter fun k =>
    match img.clusters[k]?, clusterAt k s with
    | some c, some u => !c.code.isEmpty && s.units[u].code.isEmpty
    | some c, none => !c.code.isEmpty
    | none, _ => false

/-- The code of a failed loader check, as a refusal reports it (R263). -/
def codeBytes (n : Nat) : List Byte := leBytes 4 n

/-- The signature check of an image or of code from the host completes; the loader then checks it (R80, R263, R265). -/
def execImageVerify (s : State) : Host.Outcome State Fault Refusal :=
  .next (
    match s.sec.verify with
    | none => s
    | some (isLoad, h, img) =>
      if !clocked s then s
      else
        let s := checkSlots (modSec (fun e => { e with verify := none }) s)
        if !imageHolds img s then conclude h stRefused [] (verifyFail img.signer.toNat s)
        else if isLoad then
          match placeAgain none img (affected img s) s with
          | (s, 0) => conclude h stOk [] s
          | (s, code) => conclude h stRefused (codeBytes code) s
        else
          match loaderCheck true img (clustersOf img) [] s with
          | (0, pl) => conclude h stOk [] (takeImage img pl (setF F.rstBootSlot 2 s))
          | (code, _) => conclude h stRefused (codeBytes code) (loaderRefuse none code s))

/-! ### Authorisation blocks (R393–R396) -/

/-- Fields of a block (Table 18.3). -/
def authType (b : List Byte) : Nat := fieldAt b 4 1
def authSigner (b : List Byte) : Nat := fieldAt b 5 1
def authTarget (b : List Byte) : Nat := fieldAt b 6 1

/-- The length of a block by its signer (R393). -/
def authLen (signer : Nat) : Nat := if signer = 0xF then 500 else 212

/-- A block waits for the security engine (R395). -/
def pushAuth (r : AuthReq) (s : State) : State :=
  setF F.secStateAuthBusy 1 (modSec (fun e => { e with auths := e.auths ++ [r] }) s)

/-- SYS.LIFECYCLE presents a block from hub data memory (R289). -/
def execSysLifecycle (u : UnitId) (b : Src) (s : State) : Host.Outcome State Fault Refusal :=
  .next (
    let at_ (s : State) : Nat := (srcVal u b s).toNat
    let len (s : State) : Nat := authLen (readB s.mem (storeBase u + at_ s + 5)).toNat
    sysOp u (srcImm b) (srcRegs b)
      (fun s => at_ s % 4 ≠ 0 || storeSize u < at_ s + 212 || storeSize u < at_ s + len s)
      (fun s => pushAuth { data := readBytes s.mem (storeBase u + at_ s) (len s), reply := none } s) s)

/-- A block is refused: it changes nothing, counts, and is reported by its kind (R92, R394). -/
def refuseAuth (r : AuthReq) (s : State) : State :=
  let s := setF F.secFaultAuthRefused 1 (bump F.secCountAuthRefused s)
  if authType r.data = 1 || (r.reply.isNone && !inR 2 (authType r.data) 3) then raise 0x0222 0 0 0 s
  else raise 0x4101 0xE (authSigner r.data) 0 s

/-- Is a key block of the host's still waiting for its reply? -/
def authUnderWay (s : State) : Bool := s.sec.auths.any fun r => r.reply.isSome

/-- AUTH presents a key block; a life-cycle block is refused (Table 19.2). A block that finds an earlier AUTH under way is
answered BUSY by Table 19.2 and waits behind it by R395 and Example 18.1: a free value says which (assumption 70). -/
def execCmdAuth (h : Hdr) (p : List Byte) (s : State) : Host.Outcome State Fault Refusal :=
  .next (request 0x31 (fun p => p.length = authLen (authSigner p))
    (fun s =>
      let r : AuthReq := { data := p, reply := some h }
      if authType p = 1 then (refuseAuth r s, some (stRefused, []))
      else if authUnderWay s then
        let (x, s) := takeFree s
        if x % 2 = 0 then (s, some (stBusy, [])) else (pushAuth r s, none)
      else (pushAuth r s, none)) h p s)

/-- Is a slot ACTIVE? -/
def slotActive (i : Nat) (s : State) : Bool := decide (i < 4) && slotState i s = 1
def anyActive (s : State) : Bool := (List.range 4).any fun i => slotActive i s

/-- The transitions of Table 4.5 with their signers. -/
def transitionOk (signer target : Nat) (s : State) : Bool :=
  let owner := slotActive signer s
  let vendor := signer = 0xF
  match getF F.lcsStateState s, target with
  | 1, 2 => vendor
  | 2, 4 => owner
  | 4, 2 => vendor && getF F.lcsInfoReentriesLeft s ≠ 0
  | 2, 8 => owner || vendor
  | 4, 8 => owner || vendor
  | _, _ => false

/-- Does the state accept the signer for the block (Table 18.2)? -/
def authSignerOk (type signer target : Nat) (s : State) : Bool :=
  match type, getF F.lcsStateState s with
  | 1, _ => transitionOk signer target s
  | 2, 1 => signer = 0xF
  | 2, 2 => slotActive signer s || (signer = 0xF && !anyActive s)
  | 3, 2 => slotActive signer s
  | _, _ => false

/-- Step 5 of R394. -/
def authTargetOk (type target : Nat) (keyOk : Bool) (s : State) : Bool :=
  match type with
  | 2 => decide (target < 4) && slotState target s = 0 && keyOk
  | 3 => slotActive target s && (List.range 4).any fun i => i ≠ target && slotActive i s
  | _ => true

/-- Does TARGET_N hold the complement of TARGET? -/
def authCompl (b : List Byte) : Bool := authTarget b + fieldAt b 7 1 = 255

/-- The checks of R394 in order, with the path a block may take: life-cycle blocks through SYS.LIFECYCLE, key blocks from the
host. -/
def authOk (r : AuthReq) (s : State) : Bool :=
  let b := r.data
  fieldAt b 0 4 = 0x48545541 && inR 1 (authType b) 3 && fieldAt b 18 2 = 0 && authCompl b &&
    (r.reply.isNone = (authType b = 1)) && fieldAt b 8 8 = (uidOf s).toNat &&
    fieldAt b 16 2 = getF F.secKeysCount s && decide (getF F.secKeysCount s < 1024) &&
    authSignerOk (authType b) (authSigner b) (authTarget b) s && authTargetOk (authType b) (authTarget b) (ecKeyOk ((b.drop 20).take 96)) s &&
    signatureHolds (authSigner b) (b.drop 212) (sha384 (b.take 116)) ((b.drop 116).take 96) s

/-- A digit of two bits replaced. -/
def putDigit (v i x : Nat) : Nat := v - v / 4 ^ i % 4 * 4 ^ i + x * 4 ^ i

/-- Write the state of a slot with its complement. -/
def setSlot (i x : Nat) (s : State) : State :=
  setF F.secKeysSlots (putDigit (getF F.secKeysSlots s) i x)
    (setF F.secKeysSlotsN (putDigit (getF F.secKeysSlotsN s) i (3 - x)) s)

/-- A life-cycle transition: outputs off, the new state programmed, and a full reset with the wipe pending (R93). -/
def changeLifecycle (target : Nat) (s : State) : State :=
  let from_ := getF F.lcsStateState s
  let s := lampsOff 1 (lampsOff 0 (valvesOff s))
  let s := (List.finRange 2).foldl (fun s (d : Fin 2) => if diePresent s.opt (4 + d) then setBias d false s else s) s
  let s := modSec (fun e => { e with otp := (BitVec.ofNat 8 target, ~~~ (BitVec.ofNat 8 target)) }) s
  let s := if from_ = 4 && target = 2 then setF F.lcsInfoReentriesLeft (getF F.lcsInfoReentriesLeft s - 1) s else s
  let s := setF F.lcsInfoWipePending 1 (setF F.lcsStateState target (setF F.lcsStateStateN (255 - target) s))
  fullReset .lcsChange .inReset s

/-- What an accepted block does (R394). -/
def acceptAuth (r : AuthReq) (s : State) : State :=
  let i := authTarget r.data
  let s := checkCounter (some (authSigner r.data)) (setF F.secKeysCount (getF F.secKeysCount s + 1) s)
  match authType r.data with
  | 1 => changeLifecycle i s
  | 2 => raise 0x4102 0xE i 0 (setSlot i 1 (modSec (fun e => { e with keys := e.keys.set (Fin.ofNat 4 i) ((r.data.drop 20).take 96) }) s))
  | _ => raise 0x4103 0xE i 0 (setSlot i 2 s)

/-- The next block is checked (R394). -/
def execAuthBlockCheck (s : State) : Host.Outcome State Fault Refusal :=
  .next (
    match s.sec.auths with
    | [] => s
    | r :: rest =>
      if !clocked s then s
      else
        let s := modSec (fun e => { e with auths := rest }) s
        let s := checkSlots (setF F.secStateAuthBusy (b2n (!rest.isEmpty)) s)
        let s := if authCompl r.data then s else complementFail 7 s
        let ok := authOk r s
        let s := if ok then acceptAuth r s else refuseAuth r s
        match r.reply with
        | some h => conclude h (if ok then stOk else stRefused) [] s
        | none => s)

/-! ### Attestation (R397–R399) -/

/-- ATTEST: a request while a report is being signed is refused, with STATUS BUSY (R398, R410). -/
def execCmdAttest (h : Hdr) (p : List Byte) (s : State) : Host.Outcome State Fault Refusal :=
  .next (request 0x30 (sized 32)
    (fun s =>
      if s.sec.attest.isSome then (bump F.secCountAttestRefused s, some (stBusy, []))
      else (setF F.secStateAttestBusy 1 (modSec (fun e => { e with attest := some (h, p) }) s), none)) h p s)

/-- A byte string of `n` bytes. -/
def fitBytes (n : Nat) (bs : List Byte) : List Byte := (bs ++ List.replicate n 0).take n

/-- The signed bytes of a report (Table 18.4). -/
def reportBytes (nonce : List Byte) (s : State) : List Byte :=
  leBytes 4 0x54535441 ++ leBytes 2 1 ++ leBytes 1 (getF F.idPartStep s) ++ leBytes 1 (getF F.idPartPop s) ++
    leBytes 8 (uidOf s).toNat ++ leBytes 4 (getF F.lnkNetDevnum s) ++
    leBytes 1 (getF F.lcsStateState s) ++ leBytes 1 (getF F.lcsStateStateN s) ++ leBytes 1 (getF F.secKeysSlots s) ++
    leBytes 1 (getF F.rstBootStage s) ++ leBytes 8 s.time ++ fitBytes 32 nonce ++ fitBytes 48 Config.romHash ++
    fitBytes 48 (if s.boot.running.isSome then s.sec.imageHash else []) ++ leBytes 2 (getF F.isaLoadVersion s) ++
    leBytes 1 (getF F.rstBootSlot s) ++ [0] ++ leBytes 4 (getF F.secLoadsLoads s) ++ fitBytes 48 s.sec.program ++
    ((List.range 12).flatMap fun i => leBytes 1 (getF (F.calItemResultResult i) s) ++ leBytes 1 (getF (F.calItemResultResultN i) s)) ++
    leBytes 2 (getF F.secKeysCount s) ++ List.replicate 6 0

/-- The report is signed with the identity key and returned (R397, R398); the nonce of the signature comes from the generator. -/
def execAttestReport (s : State) : Host.Outcome State Fault Refusal :=
  .next (
    match s.sec.attest with
    | none => s
    | some (h, nonce) =>
      if !clocked s then s
      else
        let b := reportBytes nonce s
        let s := setF F.secStateAttestBusy 0 (modSec (fun e => { e with attest := none }) s)
        let (k, s) := randomBytes 48 s
        conclude h stOk (b ++ fitBytes 96 (ecSign s.sec.identity (1 + beNat k % (ecN - 1)) (sha384 b))) s)

end Sys2Proof.Machine
end

