-- ==== Sys2Proof/Machine/Vangad.lean ====
section
/-!
DEFINITION. The Vangad links (R411–R417) and LATCH (R283, R415).
-/

namespace Sys2Proof.Machine

/-! ### Link state -/

/-- The time source that a Vangad link is. -/
def vgdSrc (p : Fin 2) : TimeSrc := if p = 0 then .vgd0 else .vgd1

/-- A link goes down (R411, R422). -/
def vgdDown (p : Fin 2) (s : State) : State :=
  if !vgdUp p s then s
  else
    let s := setF (if p = 0 then F.lnkFaultVgd0Down else F.lnkFaultVgd1Down) 1 (setAt F.lnkPortVgdUp p false s)
    let s := modNet (fun n => { n with vgd := n.vgd.set p VgdPort.reset }) (raise 0x5001 0xD (2 + p) 0 s)
    showStratum (loseIf (vgdSrc p) s)

/-- The lock of a link's PLL (R68). -/
def vgdLock (p : Fin 2) : Fld := if p = 0 then F.clkStateVgd0Lock else F.clkStateVgd1Lock

/-- A link trains once both ends are enabled (R411). -/
def execVgdLinkTrained (p : Fin 2) (s : State) : Host.Outcome State Fault Refusal :=
  .next (
    if !clocked s || !vgdEnabled p s || vgdUp p s || !s.pins.vgdTx then s
    else raise 0x5002 0xD (2 + p) 0 (setF (vgdLock p) 1 (setAt F.lnkPortVgdUp p true s)))

/-- No good cell has come for 8 µs (R411). -/
def execVgdLinkDown (p : Fin 2) (s : State) : Host.Outcome State Fault Refusal :=
  .next (if clocked s then vgdDown p s else s)

/-! ### Receiving cells (R411, R412) -/

/-- PERIPH cycles in 1 ms and in 1 s. -/
def msCycles : Nat := 100000

/-- Is a cell or datagram a copy of one that came within `n` cycles? -/
def seenWithin (n source kind cseq : Nat) (s : State) : Bool :=
  s.net.seen.any fun e => e.source = source && e.kind = kind && e.cseq = cseq && decide (s.periph ≤ e.at_ + n)

/-- Remember the arrival of a copy; copies older than 1 s are forgotten. -/
def noteSeen (source kind cseq : Nat) (s : State) : State :=
  let rest := s.net.seen.filter fun e =>
    decide (s.periph ≤ e.at_ + secondCycles) && !(e.source = source && e.kind = kind && e.cseq = cseq)
  modNet (fun n => { n with seen := ⟨source, kind, cseq, s.periph⟩ :: rest }) s

/-- Is the cell from this module itself (R412)? -/
def ownSource (source : Nat) (s : State) : Bool := flag F.lnkNetNumValid s && source = getF F.lnkNetDevnum s

/-- The other link. -/
def otherLink (p : Fin 2) : Fin 2 := if p = 0 then 1 else 0

/-- Forward a SYNC, LATCH or OWNER cell (R412). -/
def forward (p : Fin 2) (kind : Nat) (c : Cell) (s : State) : State :=
  if 1 < c.hops && (kind = cellSync || kind = cellLatch || kind = cellOwner) then
    putCell true (otherLink p) kind { c with hops := c.hops - 1 } s
  else s

/-- The mark under which a LATCH datagram is remembered, beside that of the LATCH cells: a cell is a copy of a cell only
(R412), and a LATCH one of whichever path delivered it (R415). -/
def latchDatagram : Nat := 10

/-- Has a LATCH of this number come within the last second, as a cell or as a datagram (R415)? -/
def latchSeen (source cseq : Nat) (s : State) : Bool :=
  seenWithin secondCycles source cellLatch cseq s || seenWithin secondCycles source latchDatagram cseq s

/-- A cell of a type arrives: a bad CRC counts, whatever its TYPE byte holds; one of its own or a copy is discarded; else it is
forwarded, and acted on by `act`, which learns whether a LATCH of its number came within the last second (R411, R412, R415). -/
def cellIn (p : Fin 2) (kind : Nat) (c : Cell) (act : Bool → State → State) (s : State) : State :=
  if !clocked s || !vgdEnabled p s || !vgdUp p s then s
  else if c.crc ≠ cellCrc kind c then bump (if p = 0 then F.lnkCellCrcVgd0 else F.lnkCellCrcVgd1) s
  else
    let src := c.source.toNat
    let n := c.cseq.toNat
    if ownSource src s then s
    else
      let copy := seenWithin msCycles src kind n s
      let old := latchSeen src n s
      let s := noteSeen src kind n s
      if copy then s else act old (forward p kind c s)

/-! ### SYNC (R414) -/

/-- The 250 ns boundary at or after a device time, as a PERIPH cycle; negative where it lies before the clocks began. -/
def boundaryAt (t : Nat) (s : State) : Int :=
  let c : Int := (s.periph : Int) + (((t : Int) - s.time) + 9) / 10
  (c + 24) / 25 * 25

/-- A SYNC cell asks for an edge (R414). -/
def takeSync (p : Fin 2) (c : Cell) (s : State) : State :=
  if !syncFwd p s || !working s then s
  else
    let e0 := leNat (c.payload.take 8)
    let b := boundaryAt (e0 + 600 * (64 - c.hops)) s
    let late := decide (b ≤ s.periph) || getF F.clkStateTimeSrc s = 0
    let s := if late then raise 0x5005 0xD (2 + p) 0 (bump F.lnkSyncSyncLate s) else s
    let at_ := if late then edgeCycle s.periph else b.toNat
    if edgeTooSoon at_ s then requestEdge at_ s
    else lsyncPulse at_ (modNet (fun n => { n with syncE0 := (at_, (e0 : Int)) :: n.syncE0 }) (bump F.lnkSyncSyncRx (requestEdge at_ s)))

def execVgdSyncCell (p : Fin 2) (c : Cell) (s : State) : Host.Outcome State Fault Refusal :=
  .next (cellIn p cellSync c (fun _ => takeSync p c) s)

/-! ### LATCH (R283, R415) -/

/-- A LATCH from another module: acted on where its group is listed (R415). -/
def takeLatch (b : List Word) (s : State) : State :=
  if !live s || !(groupsOf s).contains (latchGroup b) then s
  else (List.finRange 2).foldl (fun s (d : Fin 2) => if latchNames b d && adUp d s then stageLatch d b s else s) s

def execVgdLatchCell (p : Fin 2) (c : Cell) (s : State) : Host.Outcome State Fault Refusal :=
  .next (cellIn p cellLatch c (fun old s => if old then s else takeLatch (toWords (c.payload.take 32)) s) s)

/-- A LATCH datagram carries the eight words, then SOURCE; its SEQ is the CSEQ of the cell (R415). -/
def execLatchDatagram (h : Hdr) (p : List Byte) (s : State) : Host.Outcome State Fault Refusal :=
  .next (request 0x71 (sized 36)
    (plain fun s =>
      let src := fieldAt p 32 4
      let n := h.seq.toNat
      if ownSource src s then (s, true)
      else
        let old := latchSeen src n s
        let s := noteSeen src latchDatagram n s
        (if old then s else takeLatch (toWords (p.take 32)) s, true)) h p s)

/-- ADDR of a datagram to a group, or to every module. -/
def groupHdrAddr (g : Nat) : Nat := if g = 0 then 0x3FFFF else 2 ^ 30 + g

/-- Send a datagram on a port whose link is up. -/
def sendDatagram (e : Fin 2) (ip : Word) (h : Hdr) (data : List Byte) (s : State) : State :=
  if ethUp e s && s.pins.ethTx then send (.datagram e none ip udpPort (sealHdr e ip udpPort h data s) data) s else s

/-- The hub sends a LATCH that names a group: as a cell on every enabled link, and as a datagram on every port (R415). -/
def sendLatch (b : List Word) (s : State) : State :=
  let g := latchGroup b
  let n := nextCseq cellLatch s
  let src := devnum s
  let s := originate (List.finRange 2) cellLatch 63 0 (toBytes b) s
  (List.finRange 2).foldl (fun s (e : Fin 2) =>
    sendDatagram e (groupAddr g) (sentHdr 0x71 (groupHdrAddr g) (BitVec.ofNat 32 n) 36 0 0) (toBytes b ++ leBytes 4 src) s) s

/-- LATCH: to each die named, and to the hub where it names a group; a part that no path leads to is lost (R250, R283). -/
def execLatch (u : UnitId) (n : Reg) (s : State) : Host.Outcome State Fault Refusal :=
  if isBlock n then
    .next (issue u .event false ((blockRegs n).map .s) false
      (fun s =>
        let b := getBlock u n s
        if !latchOk b s then takeExc u 7 false s
        else
          let names (d : Fin 2) : Bool := latchNames b d
          let lost := ((List.finRange 2).any fun (d : Fin 2) => names d && !reach (dieOf u) (6 + d) s) ||
            (latchGroup b ≠ 0 && !reach (dieOf u) 0 s)
          let s := (List.finRange 2).foldl (fun s (d : Fin 2) =>
            if names d && reach (dieOf u) (6 + d) s then sendMsg d (.latch u lost b) s else s) s
          let s := if latchGroup b ≠ 0 && reach (dieOf u) 0 s then sendLatch b s else s
          let s := if lost then eventLost u s else s
          advance u false s) s)
  else .refused (.illFormed "LATCH")

/-! ### TIME (R413) -/

/-- The offset from the partner (own time less the partner's) by the stamps of a TIME cell: `t1` this module's send time as
the partner heard it, `t2` its arrival there, `t3` the cell's departure, `t4` its arrival here. -/
def timeOffset (t1 t2 t3 t4 : Int) : Int := ((t1 - t2) + (t4 - t3)) / 2

/-- The delay of the link by the same stamps. -/
def linkDelay (t1 t2 t3 t4 : Int) : Int := ((t2 - t1) + (t4 - t3)) / 2

/-- Take what a TIME cell brings. -/
def takeTime (p : Fin 2) (c : Cell) (s : State) : State :=
  let t (i : Nat) : Nat := fieldAt c.payload (8 * i) 8
  let now : Int := s.time
  let s := modNet (fun n => { n with vgd := vmod n.vgd p fun v => { v with
    last := some ((t 2 : Int), now)
    stratum := some (fieldAt c.payload 24 1)
    delay := if t 0 = 0 then v.delay else some (linkDelay (t 0) (t 1) (t 2) now) } }) s
  let s := if s.clock.src = some (vgdSrc p) && bestVgd s = none then loseSource s else s
  if bestVgd s = some p && t 0 ≠ 0 then
    showStratum (takeOffset (vgdSrc p) (timeOffset (t 0) (t 1) (t 2) now) s)
  else showStratum s

def execVgdTimeCell (p : Fin 2) (c : Cell) (s : State) : Host.Outcome State Fault Refusal :=
  .next (cellIn p cellTime c (fun _ => takeTime p c) s)

/-- A TIME cell is sent on a link: the partner's last t3, its arrival here, and the time now; zeros before the first. -/
def execVgdTimeSend (p : Fin 2) (s : State) : Host.Outcome State Fault Refusal :=
  .next (
    if !clocked s || !vgdSends false p s then s
    else
      let (t1, t2) := s.net.vgd[p].last.getD (0, 0)
      originate [p] cellTime 1 0
        (leBytes 8 t1.toNat ++ leBytes 8 t2.toNat ++ leBytes 8 s.time ++ leBytes 1 (ownStratum s)) s)

/-! ### The receive queue (R417) -/

/-- Show the unread records. -/
def showRx (s : State) : State := setF F.lnkRxQueued s.net.rx.length s

/-- A record enters the receive queue, or is dropped while 64 are unread. -/
def rxPush (kind port type source : Nat) (data : List Byte) (s : State) : State :=
  if 64 ≤ s.net.rx.length then raiseLim 0x5006 0xD (if kind = 1 then 2 + port / 2 else port / 2) 0 (bump F.lnkRxRxDrop s)
  else
    let w : List Word := [BitVec.ofNat 32 (kind * 2 ^ 28 + port * 2 ^ 26 + type * 2 ^ 22 + source), BitVec.ofNat 32 s.time,
      BitVec.ofNat 32 (s.time / 2 ^ 32), BitVec.ofNat 32 data.length]
    showRx (modNet (fun n => { n with rx := n.rx ++ [w ++ fitWords 12 (toWords data)] }) s)

/-- A HANDOFF cell enters the queue. -/
def execVgdHandoffCell (p : Fin 2) (c : Cell) (s : State) : Host.Outcome State Fault Refusal :=
  .next (cellIn p cellHandoff c (fun _ => rxPush 1 (2 ^ p.val) cellHandoff c.source.toNat (c.payload.take 48)) s)

/-- An OWNER cell for every module or for a listed group enters the queue. -/
def execVgdOwnerCell (p : Fin 2) (c : Cell) (s : State) : Host.Outcome State Fault Refusal :=
  .next (cellIn p cellOwner c
    (fun _ s =>
      if c.group = 0 || (groupsOf s).contains c.group.toNat then
        rxPush 1 (2 ^ p.val) cellOwner c.source.toNat (c.payload.take 48) s
      else s) s)

/-- MSG: a message enters the queue; one to a group or to every module is another module's, one to this module alone the
host's.  The device number of the sender is in no field of the datagram: a free value. -/
def execCmdMsg (h : Hdr) (p : List Byte) (s : State) : Host.Outcome State Fault Refusal :=
  .next (request 0x50 (fun p => inR 4 p.length 48)
    (plain fun s =>
      let (x, s) := takeFree s
      (rxPush (if answered h then 3 else 2) (2 ^ h.eth.val) 0 (x % 2 ^ 18) p s, true)) h p s)

end Sys2Proof.Machine
end

