-- ==== Sys2Proof/Machine/Ethernet.lean ====
section
/-!
DEFINITION. The Ethernet ports (R68, R405, R406, R422), PTP (R407), and heartbeats and ALIVE (R418, R419).
-/

namespace Sys2Proof.Machine

/-! ### Links -/

/-- The time source, lock field and fault field of a port. -/
def ethSrc (e : Fin 2) : TimeSrc := if e = 0 then .eth0 else .eth1
def ethLock (e : Fin 2) : Fld := if e = 0 then F.clkStateEth0Lock else F.clkStateEth1Lock
def ethDownFld (e : Fin 2) : Fld := if e = 0 then F.lnkFaultEth0Down else F.lnkFaultEth1Down

/-- The membership reports of a port: for the all-devices address and each group in force (R406). -/
def joinGroups (e : Fin 2) (s : State) : State := ((0 :: groupsOf s).foldl fun s g => send (.igmp e (groupAddr g)) s) s

/-- A port's link comes up (R418, R422). -/
def execEthLinkUp (e : Fin 2) (s : State) : Host.Outcome State Fault Refusal :=
  .next (
    if !clocked s || ethUp e s || !s.pins.ethTx then s
    else joinGroups e (raise 0x5004 0xD e 0 (setF (ethLock e) 1 (setAt F.lnkPortEthUp e true s))))

/-- PTP on a port starts again from nothing, and its source is lost (R70, R407). -/
def ptpStop (e : Fin 2) (s : State) : State :=
  loseIf (ethSrc e) (modNet (fun n => { n with ptp := n.ptp.set e { PtpPort.reset with nextSync := n.ptp[e].nextSync, nextReq := n.ptp[e].nextReq, nextAnnounce := n.ptp[e].nextAnnounce } }) s)

/-- A port loses its link (R422). -/
def ethDown (e : Fin 2) (s : State) : State :=
  if !ethUp e s then s else ptpStop e (raise 0x5003 0xD e 0 (setF (ethDownFld e) 1 (setAt F.lnkPortEthUp e false s)))

def execEthLinkDown (e : Fin 2) (s : State) : Host.Outcome State Fault Refusal :=
  .next (if clocked s then ethDown e s else s)

/-- A SerDes PLL loses lock: ETH0, ETH1, VGD0, VGD1 (R68). -/
def execSerdesUnlock (p : Fin 4) (s : State) : Host.Outcome State Fault Refusal :=
  .next (
    if s.mode = .unpowered then s
    else if p.val < 2 then
      let e : Fin 2 := Fin.ofNat 2 p.val
      let s := setF (ethLock e) 0 s
      if clocked s then ethDown e s else s
    else
      let v : Fin 2 := Fin.ofNat 2 p.val
      let s := setF (vgdLock v) 0 s
      if clocked s then vgdDown v s else s)

/-! ### Frames, ARP and ICMP (R405, R406) -/

/-- Does the port carry frames? -/
def ethRuns (e : Fin 2) (s : State) : Bool := clocked s && ethUp e s && s.pins.ethTx

/-- A frame arrives: VLAN-tagged and long frames and those with a bad FCS are discarded and counted; pause frames and
fragments are discarded; any other is what the further commands bring. -/
def execEthFrameReceive (e : Fin 2) (f : EthFrame) (s : State) : Host.Outcome State Fault Refusal :=
  .next (
    if ethRuns e s && (f.vlan || decide (1518 < f.length) || !f.fcsOk) then
      bump (if e = 0 then F.lnkFrameDropEth0 else F.lnkFrameDropEth1) s
    else s)

/-- The MAC address of a port (R406). -/
def macOf (e : Fin 2) (s : State) : List Byte :=
  let u := (uidOf s).toNat
  0x02 :: (leBytes 5 (u % 2 ^ 40 / 2 * 2 + e.val)).reverse

/-- An ARP request for the port's address is answered to its sender, whose MAC address is `data`. -/
def execArpRequest (e : Fin 2) (dst src : Word) (data : List Byte) (s : State) : Host.Outcome State Fault Refusal :=
  .next (
    if ethRuns e s && dst = ethAddr e s then
      send (.arp e src (macOf e s ++ ipBytes (ethAddr e s) ++ data ++ ipBytes src)) s
    else s)

/-- An echo request is answered with its own data, to the addresses it came from. -/
def execIcmpEcho (e : Fin 2) (mac : BitVec 48) (dst src : Word) (data : List Byte) (s : State) : Host.Outcome State Fault Refusal :=
  .next (if ethRuns e s && dst = ethAddr e s then send (.echo e mac src data) s else s)

/-- Another station holds the link-local address: the port takes a new one, which RFC 3927 draws at random: a free value
(R406). -/
def execAddrConflict (e : Fin 2) (s : State) : Host.Outcome State Fault Refusal :=
  .next (
    if !ethRuns e s || !flagAt F.lnkPortLinkLocal e s then s
    else
      let (x, s) := takeFree s
      let s := s.setWord (F.lnkEth0Addr + 4 * e.val) (BitVec.ofNat 32 (0xA9FE0100 + x % 65024))
      raise 0x5008 0xD e 0 (setF F.lnkFaultAddrConflict 1 s))

/-! ### PTP (R407, R408) -/

/-- Change a port. -/
def modPtp (e : Fin 2) (f : PtpPort → PtpPort) (s : State) : State := modNet (fun n => { n with ptp := vmod n.ptp e f }) s

/-- How the ports carry a PTP message, an event message or a general one, as PTP_L2 selects (R407). -/
def ptpCarrier (event : Bool) (s : State) : PtpCarrier :=
  if bit (s.word F.lnkCfg0) 23 then .l2 else .udp (if event then 319 else 320)

/-- Is a message one of those that are time-stamped, an event message (IEEE 1588-2019)? -/
def PtpKind.event : PtpKind → Bool
  | .sync | .delayReq => true
  | .followUp | .delayResp => false

/-- The PTP domain in force (R421). -/
def ptpDomain (s : State) : Nat := bits (s.word F.lnkCfg0) 22 16

/-- Send a PTP message in the domain in force. -/
def sendPtp (e : Fin 2) (k : PtpKind) (seq : Nat) (stamp : Int) (s : State) : State :=
  send (.ptp e (ptpCarrier k.event s) (ptpDomain s) k seq stamp) s

/-- Is the message one that the port heeds: its transport, its domain, PTP enabled? -/
def ptpHears (e : Fin 2) (m : PtpMsg) (s : State) : Bool :=
  let w := s.word F.lnkCfg0
  ethRuns e s && bit w (25 + e.val) && m.l2 = bit w 23 && m.domain.toNat = ptpDomain s

/-- Is the port a master: not slave-only, and, but for a boundary clock, no port a slave? -/
def ptpMaster (e : Fin 2) (s : State) : Bool :=
  let w := s.word F.lnkCfg0
  bits w 15 8 ≠ 255 && !s.net.ptp[e].slave && (bit w 24 || !s.net.ptp[otherLink e].slave)

/-- The identity of the module's clock: the MAC address of ETH0 with 0xFFFE in its middle (PRESUMED, IEEE 1588-2019; assumption
112). -/
def clockIdentity (s : State) : BitVec 64 :=
  let m := macOf 0 s
  BitVec.ofNat 64 (beNat (m.take 3 ++ [0xFF, 0xFE] ++ m.drop 3))

/-- The module's own clock. -/
def ownClock (s : State) : PtpClock :=
  { prio1 := BitVec.ofNat 8 (bits (s.word F.lnkCfg0) 15 8), quality := Config.ptpQuality, identity := clockIdentity s }

/-- Is clock `a` the better master: by priority1, then quality, then identity? -/
def betterClock (a b : PtpClock) : Bool :=
  decide (a.prio1.toNat < b.prio1.toNat) || (a.prio1 = b.prio1 &&
    (decide (a.quality < b.quality) || (a.quality = b.quality && decide (a.identity.toNat < b.identity.toNat))))

/-- Does a message come from the master that the port follows? -/
def fromParent (e : Fin 2) (m : PtpMsg) (s : State) : Bool := s.net.ptp[e].parent.any fun c => c.identity = m.clock.identity

/-- The offset from the master by the last Sync and the path delay. -/
def ptpOffset (e : Fin 2) (s : State) : State :=
  match s.net.ptp[e].pair, s.net.ptp[e].delay with
  | some (t1, t2), some d => takeOffset (ethSrc e) (t2 - t1 - d) s
  | _, _ => s

/-- Both stamps of a Sync are known: a Delay_Req goes out with its own stamp. -/
def ptpPair (e : Fin 2) (t1 t2 : Int) (s : State) : State :=
  let n := s.net.ptp[e].nextReq
  let t3 : Int := s.time
  let s := modPtp e (fun q => { q with sync := none, pair := some (t1, t2), req := some (n, t3), nextReq := (n + 1) % 65536 }) s
  ptpOffset e (sendPtp e .delayReq n t3 s)

/-- A Sync from the master: of one step, or with its time in a Follow_Up. -/
def execPtpSync (e : Fin 2) (m : PtpMsg) (s : State) : Host.Outcome State Fault Refusal :=
  .next (
    if !ptpHears e m s || !fromParent e m s then s
    else if m.twoStep then modPtp e (fun q => { q with sync := some (m.seq.toNat, m.taken) }) s
    else ptpPair e m.origin m.taken s)

def execPtpFollowUp (e : Fin 2) (m : PtpMsg) (s : State) : Host.Outcome State Fault Refusal :=
  .next (
    match s.net.ptp[e].sync with
    | some (n, t2) => if ptpHears e m s && fromParent e m s && n = m.seq.toNat then ptpPair e m.origin t2 s else s
    | none => s)

/-- A master answers with the arrival. -/
def execPtpDelayReq (e : Fin 2) (m : PtpMsg) (s : State) : Host.Outcome State Fault Refusal :=
  .next (if ptpHears e m s && ptpMaster e s then sendPtp e .delayResp m.seq.toNat m.taken s else s)

/-- The path delay: half of both ways (t2 − t1 and t4 − t3). -/
def execPtpDelayResp (e : Fin 2) (m : PtpMsg) (s : State) : Host.Outcome State Fault Refusal :=
  .next (
    match s.net.ptp[e].req, s.net.ptp[e].pair with
    | some (n, t3), some (t1, t2) =>
      if ptpHears e m s && fromParent e m s && n = m.seq.toNat then
        ptpOffset e (modPtp e (fun q => { q with req := none, delay := some ((t2 - t1 + (m.origin - t3)) / 2) }) s)
      else s
    | _, _ => s)

/-- A port follows a master from here on: what it knows of another one goes. -/
def follow (e : Fin 2) (c : PtpClock) (s : State) : State :=
  if s.net.ptp[e].parent.any fun p => p.identity = c.identity then modPtp e (fun q => { q with parent := some c }) s
  else modPtp e (fun q => { q with parent := some c, sync := none, pair := none, req := none, delay := none }) s

/-- A clock is announced: one better than the module's own, or any where the module is slave-only, is followed while no better
one is; the master followed that is no better any more is left, and its source is lost. -/
def execPtpAnnounce (e : Fin 2) (m : PtpMsg) (s : State) : Host.Outcome State Fault Refusal :=
  .next (
    let c := m.clock
    let slaveOnly := (ownClock s).prio1 = 255
    if !ptpHears e m s || c.identity = clockIdentity s then s
    else if slaveOnly || betterClock c (ownClock s) then
      if fromParent e m s || s.net.ptp[e].parent.all fun p => betterClock c p then follow e c s else s
    else if fromParent e m s then ptpStop e s else s)

/-- Three announce intervals have passed: the source is lost (R70). -/
def execPtpAnnounceTimeout (e : Fin 2) (s : State) : Host.Outcome State Fault Refusal :=
  .next (if clocked s && s.net.ptp[e].slave then ptpStop e s else s)

/-- PERIPH cycles of a Sync interval, 2^LOG_SYNC s. -/
def syncCycles (s : State) : Nat := 781250 * 2 ^ ((bits (s.word F.lnkCfg0) 7 4 + 7) % 16)

/-- The clock that a master announces: of a boundary clock the one that its other port follows, else its own. -/
def announced (e : Fin 2) (s : State) : PtpClock := (s.net.ptp[otherLink e].parent).getD (ownClock s)

/-- A master announces its clock every 2 s, the interval of the default profile (PRESUMED, assumption 112). -/
def ptpAnnounce (e : Fin 2) (s : State) : State :=
  let q := s.net.ptp[e]
  if q.announceAt.any fun t => decide (s.periph < t + 2 * secondCycles) then s
  else
    send (.announce e (ptpCarrier false s) (ptpDomain s) q.nextAnnounce (announced e s))
      (modPtp e (fun q => { q with nextAnnounce := (q.nextAnnounce + 1) % 65536, announceAt := some s.periph }) s)

/-- A master sends a Sync and, of two steps, its Follow_Up, once every Sync interval, and an Announce when it is due. -/
def execPtpSyncSend (e : Fin 2) (s : State) : Host.Outcome State Fault Refusal :=
  .next (
    let q := s.net.ptp[e]
    if !ethRuns e s || !bit (s.word F.lnkCfg0) (25 + e.val) || !ptpMaster e s ||
        q.syncAt.any fun t => decide (s.periph < t + syncCycles s) then s
    else
      let n := q.nextSync
      let s := modPtp e (fun q => { q with nextSync := (n + 1) % 65536, syncAt := some s.periph }) (ptpAnnounce e s)
      sendPtp e .followUp n s.time (sendPtp e .sync n 0 s))

/-! ### Heartbeats and ALIVE -/

/-- The payload of a heartbeat (R418). -/
def heartbeatBytes (st : Nat) (s : State) : List Byte :=
  leBytes 8 (uidOf s).toNat ++ leBytes 1 st ++ leBytes 1 (getF F.rstCauseLast s) ++ leBytes 2 (getF F.lnkHbBoot s) ++
    leBytes 4 (getF F.lnkHbCountCount s) ++ leBytes 8 s.time ++ leBytes 1 (getF F.clkStateTimeSrc s) ++
    leBytes 1 (faultReason s) ++ [0, 0]

/-- A heartbeat on a port; SEQ, which the sender chooses, is a free value (Table 19.1). -/
def execHeartbeatSend (e : Fin 2) (s : State) : Host.Outcome State Fault Refusal :=
  .next (
    match hostState s with
    | none => s
    | some st =>
      if !ethRuns e s then s
      else
        let s := setF F.lnkHbCountCount ((getF F.lnkHbCountCount s + 1) % 2 ^ 32) s
        let (x, s) := takeFree s
        sendDatagram e (groupAddr (bits (s.word F.lnkCfg1) 31 16))
          (sentHdr 0x70 (devnum s) (BitVec.ofNat 32 x) 28 0 0) (heartbeatBytes st s) s)

/-- ALIVE toggles while the device runs, hub core 0 has retired an instruction within the last 1 ms and the deadline monitor has
passed its own check within it (R419); whether a check passes is a free value (assumption 81). -/
def execAliveToggle (s : State) : Host.Outcome State Fault Refusal :=
  .next (
    if working s && decide (s.periph ≤ s.ejt.monitorAt + 100000) &&
        s.units[(26 : UnitId)].ranAt.any fun c => decide (s.periph ≤ c + 100000) then
      { s with pins := { s.pins with alive := !s.pins.alive } }
    else s)

end Sys2Proof.Machine
end

