-- ==== Sys2Proof/Machine/Outputs.lean ====
section
/-!
DEFINITION. The output contacts whose level follows from the rest of the state (Table 2.4, R42): camera triggers and exposure
strobes (R207–R209), LSYNC, ALIVE, the DDR5 outputs and TDO, and what the boundary scan drives in their place (R433).  Every other
contact of Table 2.4 has a field of its own in `Pins` or in its unit's status.
-/

namespace Sys2Proof.Machine

/-- What a contact shows. -/
inductive Drive where
  | highZ | pulledDown | low | high
deriving DecidableEq, Repr

/-- A driven level. -/
def level (b : Bool) : Drive := if b then .high else .low

/-! ### The boundary-scan chain (R433) -/

/-- The contacts of the chain: of a camera port D0–D23, PCLK, LVAL, FVAL, DVAL, TRIG and EXPS (0–29), the control contacts,
and of a DDR5 channel all but its VDDQ, in the order of Table 2.3 (0–147). FAULT_N and TST0–TST3 are not 1.8 V contacts (Table
2.2). -/
inductive Contact where
  | cam (p : Fin 2) (k : Fin 30)
  | refclk | lsync | feedGap | alive | resetN | freezeN
  | ddr (c : Fin 4) (k : Fin 148)
deriving DecidableEq, Repr

/-- The chain, in the order of Table 2.3 with one cell to a contact (DESIGN CHOICE: the order and the cells stand in a BSDL file
outside the spec; assumption 35). -/
def scanChain (opt : Opt) : List Contact :=
  ((List.finRange 2).flatMap fun p => (List.finRange 30).map fun k => .cam p k) ++
    [.refclk, .lsync, .feedGap, .alive, .resetN, .freezeN] ++
    (((List.finRange 4).filter fun (c : Fin 4) => diePresent opt c).flatMap fun c => (List.finRange 148).map fun k => .ddr c k)

/-- Can a cell drive its contact?  REFCLK is observed only, and an input is not driven. -/
def drivable : Contact → Bool
  | .cam _ k => decide (28 ≤ k.val)
  | .lsync | .alive | .ddr _ _ => true
  | .refclk | .feedGap | .resetN | .freezeN => false

/-- The bit of the boundary-scan register at a contact. -/
def boundaryBit (c : Contact) (s : State) : Bool := nth false s.jtag.boundary ((scanChain s.opt).idxOf c)

/-- What EXTEST, CLAMP or HIGHZ puts on a contact of the chain in place of the device (R433). -/
def scanDrive (c : Contact) (s : State) : Option Drive :=
  if !drivable c || !(scanChain s.opt).contains c then none
  else match s.jtag.drive with
    | some .extest | some .clamp => some (level (boundaryBit c s))
    | some .highz => some .highZ
    | _ => none

/-! ### Contacts -/

/-- A contact of a camera port: high impedance without power; the 50 kΩ pull-down in reset, also of its stream die alone, and
while frozen; low unless the port issues triggers and `on` holds (R42, R209).  Table 2.4 has no column for the boot sequence: the
contact is driven low there (DESIGN CHOICE, assumption 134). -/
def camContact (p : Fin 2) (on : CamTrig → Bool) (s : State) : Drive :=
  if s.mode = .unpowered then .highZ
  else if !released s || s.freeze.since.isSome || !dieUp (camDie s.opt p) s then .pulledDown
  else level (camOn p s && pacing 0 s && s.cam.ports[p].trigs.any on)

/-- CAMn_TRIG: high for TRIG_LEN from the rise of each trigger (R207). -/
def camTrigOut (p : Fin 2) (s : State) : Drive :=
  (scanDrive (.cam p 28) s).getD (camContact p (fun t => decide (t.at_ ≤ s.time) && decide (s.time < t.at_ + t.high)) s)

/-- CAMn_EXPS: with EXP_OUT, high for the exposure of each trigger, or with the tie for its lit interval (R207, R208). -/
def camExpsOut (p : Fin 2) (s : State) : Drive :=
  (scanDrive (.cam p 29) s).getD
    (camContact p (fun t => t.exp.any fun e => decide (t.at_ + e.1 ≤ s.time) && decide (s.time < t.at_ + e.1 + e.2)) s)

/-- LSYNC: an output while the device runs with LSYNC_MODE = output, and in every other state an input (R117, Table 2.4). -/
def lsyncOut (s : State) : Drive :=
  (scanDrive .lsync s).getD (if working s && getF (F.fpdStateLsyncMode 0) s = 2 then level s.pins.lsync else .highZ)

/-- ALIVE: not driven without power (R419, Table 2.4). -/
def aliveOut (s : State) : Drive :=
  (scanDrive .alive s).getD (if s.mode = .unpowered then .highZ else level s.pins.alive)

/-- What the outputs of a DDR5 channel do (Table 2.4). -/
inductive DdrDrive where
  | off | resetLow | clockStopped | selfRefresh | active
deriving DecidableEq, Repr

/-- The DDR5 outputs of a channel: not driven without power; RST_N low in the resets that lose its contents; self-refresh in
other resets, also of its die alone, in STANDBY and PARK, and in a shutdown (R354); CK stopped while frozen (R42, R90). -/
def ddrOut (c : Fin 4) (s : State) : DdrDrive :=
  if s.mode = .unpowered then .off
  else if !s.pins.ddrRstN then .resetLow
  else if s.freeze.since.isSome then .clockStopped
  else if !released s || !dieUp c s || inShutdown s || s.mode = .standby || s.mode = .park then .selfRefresh
  else .active

/-- TDO: driven while a scan shifts, at its cycle `k` with bit `k` of the data register, and high impedance between scans
(Table 2.4, R430). -/
def tdoOut (shift : Option Nat) (s : State) : Drive :=
  match shift with
  | some k => if s.mode = .unpowered then .highZ else level (nth false s.jtag.dr k)
  | none => .highZ

end Sys2Proof.Machine
end

