-- ==== Sys2Proof/Machine/Jtag.lean ====
section
/-!
DEFINITION. The JTAG port (R430–R433, Tables 20.4 and 20.5).
-/

namespace Sys2Proof.Machine

def modJtag (f : JtagPart → JtagPart) (s : State) : State := { s with jtag := f s.jtag }

/-- Is the port powered? -/
def jtagOn (s : State) : Bool := s.mode ≠ .unpowered

/-- The instruction that a code selects; every code that Table 20.4 does not give acts as BYPASS (R430). -/
def jtagIrOf (c : Nat) : JtagIr :=
  match c with
  | 0x00 => .extest
  | 0x01 => .samplePreload
  | 0x02 => .idcode
  | 0x03 => .clamp
  | 0x04 => .highz
  | 0x40 => .zfreeze
  | 0x41 => .zresume
  | 0x42 => .zunit
  | 0x43 => .zcapture
  | 0x44 => .zaddr
  | 0x45 => .zdata
  | _ => .bypass

/-- BYPASS is selected: its register is one bit, and nothing drives the chain. -/
def toBypass (s : State) : State := modJtag (fun j => { j with ir := .bypass, dr := [false], drive := none }) s

/-- Load the instruction of code `c` where it is available, with its data register; elsewhere BYPASS is selected and nothing done
(R430). -/
def loadIr (ok : Bool) (c : Nat) (act : State → State) (s : State) : State :=
  if !jtagOn s then s
  else if ok then act (modJtag (fun j => { j with ir := jtagIrOf c, dr := [false], drive := none }) s)
  else toBypass s

/-! ### Boundary scan (R433) -/

/-- The boundary-scan instructions that drive contacts are available while frozen or with RESET_N low. -/
def scanAllowed (s : State) : Bool := s.freeze.since.isSome || !s.pins.resetN

/-- The level at a contact, where the state tells it: an input from outside and a DDR5 contact are not the state's. -/
def contactLevel (c : Contact) (s : State) : Option Bool :=
  let of (d : Drive) : Option Bool := if d = .highZ then none else some (d = .high)
  match c with
  | .cam p k => if k = 28 then of (camTrigOut p s) else if k = 29 then of (camExpsOut p s) else none
  | .lsync => of (lsyncOut s)
  | .alive => of (aliveOut s)
  | .feedGap => some s.pins.feedGap
  | .resetN => some s.pins.resetN
  | .freezeN => some s.pins.freezeN
  | .refclk | .ddr _ _ => none

/-- The boundary-scan register captures the levels at its contacts: those from outside are free values (R433). -/
def captureChain (s : State) : State :=
  let (x, s) := takeFree s
  let dr := (scanChain s.opt).zipIdx.map fun c => (contactLevel c.1 s).getD (x.testBit c.2)
  modJtag (fun j => { j with dr := dr }) s

/-- The bits shifted in behind the capture are taken up at Update-DR, one to a cell. -/
def shiftBoundary (v : List Bool) (s : State) : State :=
  let n := (scanChain s.opt).length
  modJtag (fun j => { j with boundary := (v ++ List.replicate n false).take n }) s

/-- EXTEST drives the contacts from the boundary-scan register, first as preloaded, then as the scan that follows leaves it:
`v` are the bits shifted in. -/
def execExtest (v : List Bool) (s : State) : Host.Outcome State Fault Refusal :=
  .next (loadIr (scanAllowed s) 0x00
    (fun s => shiftBoundary v (captureChain (modJtag (fun j => { j with drive := some .extest }) s))) s)

/-- SAMPLE/PRELOAD shows the contacts, and takes `v` up for a later EXTEST or CLAMP; it drives nothing. -/
def execSamplePreload (v : List Bool) (s : State) : Host.Outcome State Fault Refusal :=
  .next (loadIr true 0x01 (fun s => shiftBoundary v (captureChain s)) s)

def execIdcode (s : State) : Host.Outcome State Fault Refusal :=
  .next (loadIr true 0x02 (modJtag fun j => { j with dr := bitsOf 32 (idcodeOf s.opt) }) s)

def execClamp (s : State) : Host.Outcome State Fault Refusal :=
  .next (loadIr (scanAllowed s) 0x03 (modJtag fun j => { j with drive := some .clamp }) s)

def execHighz (s : State) : Host.Outcome State Fault Refusal :=
  .next (loadIr (scanAllowed s) 0x04 (modJtag fun j => { j with drive := some .highz }) s)

/-! ### Freeze, units and memories (R428, R431, R432, R434) -/

def execZfreeze (s : State) : Host.Outcome State Fault Refusal := .next (loadIr (live s) 0x40 (requestFreeze 3) s)

/-- ZRESUME with FREEZE_N high ends the freeze; while it is low it is refused (R434). -/
def execZresume (s : State) : Host.Outcome State Fault Refusal :=
  .next (
    match s.freeze.since with
    | none => loadIr false 0x41 id s
    | some (a, t) =>
      loadIr true 0x41 (fun s =>
        if s.pins.freezeN then endFreeze a t s
        else setF F.intFaultResumeRefused 1 { s with freeze := { s.freeze with resumeRefused := true } }) s)

def execZunit (v : BitVec 8) (s : State) : Host.Outcome State Fault Refusal :=
  .next (loadIr true 0x42 (modJtag fun j => { j with unit := v.toNat, dr := bitsOf 8 v.toNat }) s)

/-- The byte of a tag in a unit record (Table 20.5). -/
def tagByte : TagState → Nat
  | .free => 0
  | .busy => 1
  | .doneOk => 2
  | .doneErr c => 3 + 4 * (c % 16)

/-- The record of a unit in shift order (Table 20.5). -/
def unitRecord (u : UnitId) (s : State) : List Bool :=
  let e := s.units[u]
  let head := bitsOf 32 e.pc ++ bitsOf 32 (liveWord (F.isaUState u) s).toNat ++
    (List.finRange 32).flatMap fun (r : Reg) => bitsOf 32 (getS u r s).toNat
  if isHub u then head ++ (e.tags.toList.take 16).flatMap fun t => bitsOf 8 (tagByte t)
  else
    head ++ (e.p.toList.flatMap fun p => bitsOf 32 p.toNat) ++
      (e.v.toList.flatMap fun v => v.toList.flatMap fun w => bitsOf 32 w.toNat) ++
      e.tags.toList.flatMap fun t => bitsOf 8 (tagByte t)

/-- ZCAPTURE takes the record of the unit that ZUNIT names (R432); a number that names none captures nothing. -/
def execZcapture (s : State) : Host.Outcome State Fault Refusal :=
  .next (loadIr s.freeze.since.isSome 0x43 (fun s =>
    let n := s.jtag.unit
    modJtag (fun j => { j with
      dr := if n < 30 && unitPresent s.opt (Fin.ofNat 30 n) then unitRecord (Fin.ofNat 30 n) s else [] }) s) s)

def execZaddr (v : BitVec 40) (s : State) : Host.Outcome State Fault Refusal :=
  .next (loadIr true 0x44 (modJtag fun j => { j with addr := v.toNat, dr := bitsOf 40 v.toNat }) s)

/-- The word of a memory at a JTAG address, with PARITY_ERR; `none` where VALID reads 0 (R431). -/
def jtagRead (a : Nat) (s : State) : State × Option (Word × Bool) :=
  let sp := a / 2 ^ 34
  let b := a % 2 ^ 34 / 4 * 4
  if sp = 0x20 then
    if live s || s.freeze.since.isSome || s.mode = .boot then
      let bad := s.statusBad.contains b
      let (s, w) := readStatus jtagReader b s
      (s, if b < 2 ^ 24 then some (w, bad) else none)
    else (s, none)
  else if sp < 30 then
    let u : UnitId := Fin.ofNat 30 sp
    if s.freeze.since.isSome && unitPresent s.opt u && b < storeSize u then
      (s, some (readW s.mem (storeBase u + b), badAt (storeBase u + b) s))
    else (s, none)
  else (s, none)

/-- Capture-DR of ZDATA reads the word at ZADDR and advances the address by 4 (R431). -/
def execZdata (s : State) : Host.Outcome State Fault Refusal :=
  .next (loadIr true 0x45 (fun s =>
    let a := s.jtag.addr
    let (s, r) := jtagRead a s
    let dr := match r with
      | some (w, bad) => bitsOf 32 w.toNat ++ [true, bad]
      | none => List.replicate 34 false
    modJtag (fun j => { j with dr := dr, addr := a / 2 ^ 34 * 2 ^ 34 + (a % 2 ^ 34 + 4) % 2 ^ 34 }) s) s)

/-- BYPASS by its own code 0xFF or by a code that is no other instruction's; a code `c` of another row is that row's command and
selects nothing here (R430). -/
def execBypass (c : BitVec 8) (s : State) : Host.Outcome State Fault Refusal :=
  .next (if jtagOn s && jtagIrOf c.toNat = .bypass then toBypass s else s)

/-- TRST_N is low for `ns`: the test access port resets, and IDCODE is selected; between 50 and 100 ns it does or does not
(R430, R462).  What was preloaded, and the unit and address, stay (DESIGN CHOICE: the manual gives the reset no more than IDCODE;
assumption 35). -/
def execTrstNAssert (ns : Nat) (s : State) : Host.Outcome State Fault Refusal :=
  .next (
    let take (s : State) : State := modJtag (fun j => { j with ir := .idcode, dr := bitsOf 32 (idcodeOf s.opt), drive := none }) s
    if ns < 50 then s
    else if ns < 100 then
      let (x, s) := takeFree s
      if x % 2 = 1 then take s else s
    else take s)

end Sys2Proof.Machine
end

