-- ==== Sys2Proof/Machine/Message.lean ====
section
/-!
DEFINITION. Owner messages and link settings: LNK.MSG (R416, R417, Table 19.4).
-/

namespace Sys2Proof.Machine

/-- KIND of a transfer's address (R416). -/
def msgKind (a : Nat) : Nat := a / 2 ^ 28 % 16

/-- A transfer to LNK.MSG whose KIND is one of `kinds`. -/
def msgOut (u : UnitId) (t : Tag) (kinds : Nat → Bool) (act : Xfer → List Word → State → State × Nat) (s : State) : State :=
  match findXfer u t true (· = 0x7C) s with
  | some x => if kinds (msgKind x.addr) then recordOut u t (· = 0x7C) (fun _ _ _ => [0]) act s else s
  | none => s

/-- The ranges of the settings record (Table 19.4). -/
def linkRecordOk (ws : List Word) : Bool :=
  let w0 := nth 0 ws 0
  let log := bits w0 7 4
  let gs := ((ws.drop 2).flatMap fun w => [bits w 31 16, bits w 15 0]).filter (· ≠ 0)
  ws.length = 10 && bits w0 3 0 = 0 && (log ≤ 1 || 9 ≤ log) && bits (nth 0 ws 1) 15 0 = 0 && gs.dedup.length = gs.length

/-- A disabled link goes down; a module that takes no more time from a source loses it. -/
def settleLinks (s : State) : State :=
  let s := (List.finRange 2).foldl (fun s (p : Fin 2) =>
    let s := if vgdEnabled p s then s else vgdDown p s
    if bit (s.word F.lnkCfg0) 29 then loseIf (vgdSrc p) s else s) s
  let s := (List.finRange 2).foldl (fun s (e : Fin 2) =>
    let s := if bit (s.word F.lnkCfg0) (25 + e.val) then s else ptpStop e s
    if ethUp e s then joinGroups e s else s) s
  showStratum s

/-- KIND 0x0: the settings record takes effect at once, or is refused; a reserved KIND is a range error. -/
def execLnkMsgSettings (u : UnitId) (t : Tag) (s : State) : Host.Outcome State Fault Refusal :=
  .next (msgOut u t (fun k => k = 0 || decide (3 ≤ k))
    (fun x ws s =>
      if msgKind x.addr ≠ 0 then (s, 2)
      else if !linkRecordOk ws then refuseRecord F.lnkFaultSettingsRefused 0x5007 0 0 0x7C s
      else
        (settleLinks ((List.range 10).foldl (fun s i => s.setWord (F.lnkCfg0 + 4 * i) (nth 0 ws i)) s), 0)) s)

/-- The links or ports that PORT names. -/
def msgPorts (a : Nat) : List (Fin 2) := (List.finRange 2).filter fun (p : Fin 2) => (a / 2 ^ 26).testBit p

/-- KIND 0x1: 48 bytes as a HANDOFF or OWNER cell. -/
def execLnkMsgCellSend (u : UnitId) (t : Tag) (s : State) : Host.Outcome State Fault Refusal :=
  .next (msgOut u t (· = 1)
    (fun x ws s =>
      let type := x.addr / 2 ^ 22 % 16
      let hops := x.addr / 2 ^ 16 % 64
      if x.len ≠ 48 || !(type = cellHandoff || (type = cellOwner && hops ≠ 0)) || !(msgPorts x.addr).all fun p => vgdEnabled p s && vgdUp p s then
        (s, 2)
      else if type = cellHandoff then (originate (msgPorts x.addr) type 1 0 (toBytes ws) s, 0)
      else (originate (msgPorts x.addr) type hops (x.addr % 65536) (toBytes ws) s, 0)) s)

/-- KIND 0x2: 4–48 bytes as a MSG datagram; SEQ is the sender's to choose: a free value. -/
def execLnkMsgEthSend (u : UnitId) (t : Tag) (s : State) : Host.Outcome State Fault Refusal :=
  .next (msgOut u t (· = 2)
    (fun x ws s =>
      if !inR 4 x.len 48 || !(msgPorts x.addr).all fun e => ethUp e s then (s, 2)
      else
        let g := x.addr % 65536
        let (n, s) := takeFree s
        let h := sentHdr 0x50 (groupHdrAddr g) (BitVec.ofNat 32 n) x.len 0 0
        ((msgPorts x.addr).foldl (fun s e => sendDatagram e (groupAddr g) h (toBytes ws) s) s, 0)) s)

/-- STREAM.IN reads the queue in units of 64 bytes, with zero records after the last unread one (R417). -/
def execLnkMsgRead (u : UnitId) (t : Tag) (s : State) : Host.Outcome State Fault Refusal :=
  .next (dataIn u t (· = 0x7C) (fun _ _ => [0])
    (fun x s =>
      if msgKind x.addr ≠ 1 ∨ x.len % 64 ≠ 0 then (s, 2, [])
      else
        let n := x.len / 64
        let ws := (s.net.rx.take n).flatten
        (showRx (modNet (fun k => { k with rx := k.rx.drop n }) s), 0, fitWords (x.len / 4) ws)) s)

end Sys2Proof.Machine
end

