-- ==== Sys2Proof/Machine/Dispatch.lean ====
section
/-!
DEFINITION. The dispatch: one arm per command, each a direct call of that command's own meaning.
-/

namespace Sys2Proof.Machine

def exec (i : Instr) (s : State) : Host.Outcome State Fault Refusal :=
  match i with
  | .add u d a b => Sys2Proof.Machine.execAdd u d a b s
  | .sub u d a b => Sys2Proof.Machine.execSub u d a b s
  | .and u d a b => Sys2Proof.Machine.execAnd u d a b s
  | .or u d a b => Sys2Proof.Machine.execOr u d a b s
  | .xor u d a b => Sys2Proof.Machine.execXor u d a b s
  | .shl u d a b => Sys2Proof.Machine.execShl u d a b s
  | .shr u d a b => Sys2Proof.Machine.execShr u d a b s
  | .sra u d a b => Sys2Proof.Machine.execSra u d a b s
  | .mul u d a b => Sys2Proof.Machine.execMul u d a b s
  | .mulh u d a b => Sys2Proof.Machine.execMulh u d a b s
  | .min u d a b => Sys2Proof.Machine.execMin u d a b s
  | .max u d a b => Sys2Proof.Machine.execMax u d a b s
  | .slt u d a b => Sys2Proof.Machine.execSlt u d a b s
  | .sltu u d a b => Sys2Proof.Machine.execSltu u d a b s
  | .mov u d b => Sys2Proof.Machine.execMov u d b s
  | .addD u d a b => Sys2Proof.Machine.execAddD u d a b s
  | .subD u d a b => Sys2Proof.Machine.execSubD u d a b s
  | .movD u d b => Sys2Proof.Machine.execMovD u d b s
  | .vadd u d a b pg => Sys2Proof.Machine.execVadd u d a b pg s
  | .vsub u d a b pg => Sys2Proof.Machine.execVsub u d a b pg s
  | .vand u d a b pg => Sys2Proof.Machine.execVand u d a b pg s
  | .vor u d a b pg => Sys2Proof.Machine.execVor u d a b pg s
  | .vxor u d a b pg => Sys2Proof.Machine.execVxor u d a b pg s
  | .vshl u d a b pg => Sys2Proof.Machine.execVshl u d a b pg s
  | .vshr u d a b pg => Sys2Proof.Machine.execVshr u d a b pg s
  | .vsra u d a b pg => Sys2Proof.Machine.execVsra u d a b pg s
  | .vmin u d a b pg => Sys2Proof.Machine.execVmin u d a b pg s
  | .vmax u d a b pg => Sys2Proof.Machine.execVmax u d a b pg s
  | .vabs u d a pg => Sys2Proof.Machine.execVabs u d a pg s
  | .vmov u d b pg => Sys2Proof.Machine.execVmov u d b pg s
  | .vval u d a pg => Sys2Proof.Machine.execVval u d a pg s
  | .vext u d a b pg => Sys2Proof.Machine.execVext u d a b pg s
  | .vsum u d a pg => Sys2Proof.Machine.execVsum u d a pg s
  | .vcmp u c d a b pg => Sys2Proof.Machine.execVcmp u c d a b pg s
  | .vcmpw u c d a b pg => Sys2Proof.Machine.execVcmpw u c d a b pg s
  | .vflags u d a b => Sys2Proof.Machine.execVflags u d a b s
  | .pcount u d a => Sys2Proof.Machine.execPcount u d a s
  | .vmacH u d a b pg => Sys2Proof.Machine.execVmacH u d a b pg s
  | .vmacHs u d a b pg => Sys2Proof.Machine.execVmacHs u d a b pg s
  | .vmacW u d a b pg => Sys2Proof.Machine.execVmacW u d a b pg s
  | .vmulW u d a b pg => Sys2Proof.Machine.execVmulW u d a b pg s
  | .vmulhW u d a b pg => Sys2Proof.Machine.execVmulhW u d a b pg s
  | .vdotH u d a b pg => Sys2Proof.Machine.execVdotH u d a b pg s
  | .load u d m t => Sys2Proof.Machine.execLoad u d m t s
  | .loadD u d m t => Sys2Proof.Machine.execLoadD u d m t s
  | .loadH u d m t => Sys2Proof.Machine.execLoadH u d m t s
  | .loadHu u d m t => Sys2Proof.Machine.execLoadHu u d m t s
  | .loadB u d m t => Sys2Proof.Machine.execLoadB u d m t s
  | .loadBu u d m t => Sys2Proof.Machine.execLoadBu u d m t s
  | .store u d m t => Sys2Proof.Machine.execStore u d m t s
  | .storeD u d m t => Sys2Proof.Machine.execStoreD u d m t s
  | .storeH u d m t => Sys2Proof.Machine.execStoreH u d m t s
  | .storeB u d m t => Sys2Proof.Machine.execStoreB u d m t s
  | .vload u d m t => Sys2Proof.Machine.execVload u d m t s
  | .vstore u d m t => Sys2Proof.Machine.execVstore u d m t s
  | .loadComplete u t => Sys2Proof.Machine.execLoadComplete u t s
  | .streamIn u q => Sys2Proof.Machine.execStreamIn u q s
  | .streamOut u q => Sys2Proof.Machine.execStreamOut u q s
  | .transferComplete u t => Sys2Proof.Machine.execTransferComplete u t s
  | .tagTimeout u t => Sys2Proof.Machine.execTagTimeout u t s
  | .eject u n => Sys2Proof.Machine.execEject u n s
  | .latch u n => Sys2Proof.Machine.execLatch u n s
  | .lamp u a b => Sys2Proof.Machine.execLamp u a b s
  | .sadcStartSingle u b => Sys2Proof.Machine.execSadcStartSingle u b s
  | .sadcStartContinuous u b => Sys2Proof.Machine.execSadcStartContinuous u b s
  | .sadcStartStop u b => Sys2Proof.Machine.execSadcStartStop u b s
  | .calReqRun u b => Sys2Proof.Machine.execCalReqRun u b s
  | .calReqCancel u b => Sys2Proof.Machine.execCalReqCancel u b s
  | .calReqGap u b => Sys2Proof.Machine.execCalReqGap u b s
  | .sync u => Sys2Proof.Machine.execSync u s
  | .shutterClose u b => Sys2Proof.Machine.execShutterClose u b s
  | .shutterOpen u b => Sys2Proof.Machine.execShutterOpen u b s
  | .wait u w => Sys2Proof.Machine.execWait u w s
  | .fence u => Sys2Proof.Machine.execFence u s
  | .tagstat u d t => Sys2Proof.Machine.execTagstat u d t s
  | .beq u a b g => Sys2Proof.Machine.execBeq u a b g s
  | .bne u a b g => Sys2Proof.Machine.execBne u a b g s
  | .blt u a b g => Sys2Proof.Machine.execBlt u a b g s
  | .bge u a b g => Sys2Proof.Machine.execBge u a b g s
  | .bltu u a b g => Sys2Proof.Machine.execBltu u a b g s
  | .bgeu u a b g => Sys2Proof.Machine.execBgeu u a b g s
  | .jmp u g => Sys2Proof.Machine.execJmp u g s
  | .call u g => Sys2Proof.Machine.execCall u g s
  | .jmpr u a => Sys2Proof.Machine.execJmpr u a s
  | .ret u => Sys2Proof.Machine.execRet u s
  | .retx u => Sys2Proof.Machine.execRetx u s
  | .loop u a g => Sys2Proof.Machine.execLoop u a g s
  | .stat u d a k => Sys2Proof.Machine.execStat u d a k s
  | .evtClr u m a k => Sys2Proof.Machine.execEvtClr u m a k s
  | .sysResetFull u b => Sys2Proof.Machine.execSysResetFull u b s
  | .sysResetDie u b => Sys2Proof.Machine.execSysResetDie u b s
  | .sysResetCluster u b => Sys2Proof.Machine.execSysResetCluster u b s
  | .sysFreeze u => Sys2Proof.Machine.execSysFreeze u s
  | .sysStandby u => Sys2Proof.Machine.execSysStandby u s
  | .sysPark u => Sys2Proof.Machine.execSysPark u s
  | .sysRun u => Sys2Proof.Machine.execSysRun u s
  | .sysLifecycle u b => Sys2Proof.Machine.execSysLifecycle u b s
  | .sysLoad u b => Sys2Proof.Machine.execSysLoad u b s
  | .powerOn => Sys2Proof.Machine.execPowerOn s
  | .refclkPresent => Sys2Proof.Machine.execRefclkPresent s
  | .inrushComplete => Sys2Proof.Machine.execInrushComplete s
  | .inrushTimeout => Sys2Proof.Machine.execInrushTimeout s
  | .inrushRetry => Sys2Proof.Machine.execInrushRetry s
  | .inputOvercurrentTrip => Sys2Proof.Machine.execInputOvercurrentTrip s
  | .railSequenceStep => Sys2Proof.Machine.execRailSequenceStep s
  | .resetRelease cl eng bad => Sys2Proof.Machine.execResetRelease cl eng bad s
  | .vinLowEntry => Sys2Proof.Machine.execVinLowEntry s
  | .vinNormalEntry => Sys2Proof.Machine.execVinNormalEntry s
  | .vinHighEntry => Sys2Proof.Machine.execVinHighEntry s
  | .vinOverEntry => Sys2Proof.Machine.execVinOverEntry s
  | .vinOvTrip => Sys2Proof.Machine.execVinOvTrip s
  | .brownout => Sys2Proof.Machine.execBrownout s
  | .brownoutEnd => Sys2Proof.Machine.execBrownoutEnd s
  | .railFault r => Sys2Proof.Machine.execRailFault r s
  | .railRetryWaitEnd => Sys2Proof.Machine.execRailRetryWaitEnd s
  | .pwrVinConversion v => Sys2Proof.Machine.execPwrVinConversion v s
  | .clockLoss k => Sys2Proof.Machine.execClockLoss k s
  | .clockRestart => Sys2Proof.Machine.execClockRestart s
  | .serdesUnlock p => Sys2Proof.Machine.execSerdesUnlock p s
  | .timeSourceLost => Sys2Proof.Machine.execTimeSourceLost s
  | .timeOffsetMeasured src off => Sys2Proof.Machine.execTimeOffsetMeasured src off s
  | .timeStep => Sys2Proof.Machine.execTimeStep s
  | .slewComplete => Sys2Proof.Machine.execSlewComplete s
  | .resetNAssert ns => Sys2Proof.Machine.execResetNAssert ns s
  | .resetNRelease => Sys2Proof.Machine.execResetNRelease s
  | .hubWatchdog => Sys2Proof.Machine.execHubWatchdog s
  | .signatureVerified => Sys2Proof.Machine.execSignatureVerified s
  | .indexComplete => Sys2Proof.Machine.execIndexComplete s
  | .pixelModelLoaded => Sys2Proof.Machine.execPixelModelLoaded s
  | .firstInstruction => Sys2Proof.Machine.execFirstInstruction s
  | .ddrTrainingComplete size eyes => Sys2Proof.Machine.execDdrTrainingComplete size eyes s
  | .ddrWipeComplete => Sys2Proof.Machine.execDdrWipeComplete s
  | .dieRejoin d bad => Sys2Proof.Machine.execDieRejoin d bad s
  | .standbyParkEntry => Sys2Proof.Machine.execStandbyParkEntry s
  | .exitComplete => Sys2Proof.Machine.execExitComplete s
  | .lifecycleWipeComplete => Sys2Proof.Machine.execLifecycleWipeComplete s
  | .fpdCtlRecord u t => Sys2Proof.Machine.execFpdCtlRecord u t s
  | .lineSlotBoundary => Sys2Proof.Machine.execLineSlotBoundary s
  | .rowSlotEnd d row x ampErr => Sys2Proof.Machine.execRowSlotEnd d row x ampErr s
  | .substrateSample d temp => Sys2Proof.Machine.execSubstrateSample d temp s
  | .bandDwellComplete d => Sys2Proof.Machine.execBandDwellComplete d s
  | .biasSettled d => Sys2Proof.Machine.execBiasSettled d s
  | .lsyncRise ns => Sys2Proof.Machine.execLsyncRise ns s
  | .syncResetEdge => Sys2Proof.Machine.execSyncResetEdge s
  | .shutterTravelEnd d => Sys2Proof.Machine.execShutterTravelEnd d s
  | .shutterReopenEnd d => Sys2Proof.Machine.execShutterReopenEnd d s
  | .shutterFault d overcurrent => Sys2Proof.Machine.execShutterFault d overcurrent s
  | .algCtlRecord u t => Sys2Proof.Machine.execAlgCtlRecord u t s
  | .algRamLoad u t => Sys2Proof.Machine.execAlgRamLoad u t s
  | .algDetRead u t => Sys2Proof.Machine.execAlgDetRead u t s
  | .csnCtlRecord u t => Sys2Proof.Machine.execCsnCtlRecord u t s
  | .csnBlock d age x cmp => Sys2Proof.Machine.execCsnBlock d age x cmp s
  | .csnOutRead u t => Sys2Proof.Machine.execCsnOutRead u t s
  | .rowSlotCorrection d row bad refs => Sys2Proof.Machine.execRowSlotCorrection d row bad refs s
  | .modelParityReload d row col => Sys2Proof.Machine.execModelParityReload d row col s
  | .corModelRecord u t => Sys2Proof.Machine.execCorModelRecord u t s
  | .corCtlRecord u t => Sys2Proof.Machine.execCorCtlRecord u t s
  | .fusedLineEntry => Sys2Proof.Machine.execFusedLineEntry s
  | .fusedRead u t bad => Sys2Proof.Machine.execFusedRead u t bad s
  | .corBlindRead u t => Sys2Proof.Machine.execCorBlindRead u t s
  | .corRegMap u t => Sys2Proof.Machine.execCorRegMap u t s
  | .fpdRawRead u t => Sys2Proof.Machine.execFpdRawRead u t s
  | .calCtlRecord u t => Sys2Proof.Machine.execCalCtlRecord u t s
  | .calAutoRequest j => Sys2Proof.Machine.execCalAutoRequest j s
  | .calWaiting j => Sys2Proof.Machine.execCalWaiting j s
  | .declaredGapOpen => Sys2Proof.Machine.execDeclaredGapOpen s
  | .declaredGapClose => Sys2Proof.Machine.execDeclaredGapClose s
  | .feedGapOpen rise => Sys2Proof.Machine.execFeedGapOpen rise s
  | .feedGapClose ns => Sys2Proof.Machine.execFeedGapClose ns s
  | .shutRunStart d => Sys2Proof.Machine.execShutRunStart d s
  | .shutMeasureStart d => Sys2Proof.Machine.execShutMeasureStart d s
  | .shutMeasureEnd d => Sys2Proof.Machine.execShutMeasureEnd d s
  | .sceneRunEnd d => Sys2Proof.Machine.execSceneRunEnd d s
  | .sceneTimeout d => Sys2Proof.Machine.execSceneTimeout d s
  | .classARunStart j => Sys2Proof.Machine.execClassARunStart j s
  | .classARepeatEnd j codes amp => Sys2Proof.Machine.execClassARepeatEnd j codes amp s
  | .csnIdleTimeout d ch => Sys2Proof.Machine.execCsnIdleTimeout d ch s
  | .calSadcRetry => Sys2Proof.Machine.execCalSadcRetry s
  | .saveDue => Sys2Proof.Machine.execSaveDue s
  | .saveRetry => Sys2Proof.Machine.execSaveRetry s
  | .saveComplete ok => Sys2Proof.Machine.execSaveComplete ok s
  | .camCtlRecord u t => Sys2Proof.Machine.execCamCtlRecord u t s
  | .camPipeRecord u t => Sys2Proof.Machine.execCamPipeRecord u t s
  | .camDefectMap u t => Sys2Proof.Machine.execCamDefectMap u t s
  | .camTrigger p k => Sys2Proof.Machine.execCamTrigger p k s
  | .camLineOpen p => Sys2Proof.Machine.execCamLineOpen p s
  | .camLineClose p => Sys2Proof.Machine.execCamLineClose p s
  | .camFrameOpen p => Sys2Proof.Machine.execCamFrameOpen p s
  | .camFrameEnd p => Sys2Proof.Machine.execCamFrameEnd p s
  | .camLineTimeout p => Sys2Proof.Machine.execCamLineTimeout p s
  | .camLineAdmit p bad => Sys2Proof.Machine.execCamLineAdmit p bad s
  | .camLineOut p => Sys2Proof.Machine.execCamLineOut p s
  | .camWaitEnd p => Sys2Proof.Machine.execCamWaitEnd p s
  | .flitReceived l up f noise => Sys2Proof.Machine.execFlitReceived l up f noise s
  | .replayRequest l up q => Sys2Proof.Machine.execReplayRequest l up q s
  | .linkRemapComplete l => Sys2Proof.Machine.execLinkRemapComplete l s
  | .ddrAccess u t => Sys2Proof.Machine.execDdrAccess u t s
  | .ddrReadBurst c a fails => Sys2Proof.Machine.execDdrReadBurst c a fails s
  | .ddrAlert c fails => Sys2Proof.Machine.execDdrAlert c fails s
  | .ddrTempCheck c temp => Sys2Proof.Machine.execDdrTempCheck c temp s
  | .clusterTransfer u t => Sys2Proof.Machine.execClusterTransfer u t s
  | .lineNotice d => Sys2Proof.Machine.execLineNotice d s
  | .ejectArrival d => Sys2Proof.Machine.execEjectArrival d s
  | .lineBoundPass d b n => Sys2Proof.Machine.execLineBoundPass d b n s
  | .uncommittedLastStart d => Sys2Proof.Machine.execUncommittedLastStart d s
  | .shotEnergise v => Sys2Proof.Machine.execShotEnergise v s
  | .peakEnd v x => Sys2Proof.Machine.execPeakEnd v x s
  | .shotEnd v => Sys2Proof.Machine.execShotEnd v s
  | .quenchEnd v x => Sys2Proof.Machine.execQuenchEnd v x s
  | .dipDetected v => Sys2Proof.Machine.execDipDetected v s
  | .dipSearchEnd v => Sys2Proof.Machine.execDipSearchEnd v s
  | .coilModelUpdate d => Sys2Proof.Machine.execCoilModelUpdate d s
  | .valveOpenFault v x => Sys2Proof.Machine.execValveOpenFault v x s
  | .valveShortFault v x => Sys2Proof.Machine.execValveShortFault v x s
  | .highSideFault g => Sys2Proof.Machine.execHighSideFault g s
  | .ejtCtlDie u t => Sys2Proof.Machine.execEjtCtlDie u t s
  | .ejtCtlProfile u t => Sys2Proof.Machine.execEjtCtlProfile u t s
  | .ejtCtlValves u t => Sys2Proof.Machine.execEjtCtlValves u t s
  | .lumDieRecord u t => Sys2Proof.Machine.execLumDieRecord u t s
  | .lumStringRecord u t => Sys2Proof.Machine.execLumStringRecord u t s
  | .latchArrival d => Sys2Proof.Machine.execLatchArrival d s
  | .latchApply d => Sys2Proof.Machine.execLatchApply d s
  | .pwmPeriodStart d => Sys2Proof.Machine.execPwmPeriodStart d s
  | .matrixCycleStart d => Sys2Proof.Machine.execMatrixCycleStart d s
  | .lampTestWindow str k mv pct => Sys2Proof.Machine.execLampTestWindow str k mv pct s
  | .openStringFault str pct => Sys2Proof.Machine.execOpenStringFault str pct s
  | .inductorOvercurrent str ma => Sys2Proof.Machine.execInductorOvercurrent str ma s
  | .regulatorDecayEnd str => Sys2Proof.Machine.execRegulatorDecayEnd str s
  | .neighbourTest str v a b => Sys2Proof.Machine.execNeighbourTest str v a b s
  | .neighbourUntested str => Sys2Proof.Machine.execNeighbourUntested str s
  | .lampStretch str k => Sys2Proof.Machine.execLampStretch str k s
  | .lampUnverified str k => Sys2Proof.Machine.execLampUnverified str k s
  | .colourLoopUpdate str => Sys2Proof.Machine.execColourLoopUpdate str s
  | .thermistorConversion str => Sys2Proof.Machine.execThermistorConversion str s
  | .thermistorTimeout str => Sys2Proof.Machine.execThermistorTimeout str s
  | .lampHourCell str k => Sys2Proof.Machine.execLampHourCell str k s
  | .sadcCtlControl u t => Sys2Proof.Machine.execSadcCtlControl u t s
  | .sadcCtlSequence u t => Sys2Proof.Machine.execSadcCtlSequence u t s
  | .sadcCtlHurdle u t => Sys2Proof.Machine.execSadcCtlHurdle u t s
  | .sadcResRead u t => Sys2Proof.Machine.execSadcResRead u t s
  | .sadcEntryEnd x y => Sys2Proof.Machine.execSadcEntryEnd x y s
  | .sadcGapEnd => Sys2Proof.Machine.execSadcGapEnd s
  | .injectedRequest src inp sub key => Sys2Proof.Machine.execInjectedRequest src inp sub key s
  | .injectedConversionEnd x => Sys2Proof.Machine.execInjectedConversionEnd x s
  | .selfTrimStart => Sys2Proof.Machine.execSelfTrimStart s
  | .selfTrimEnd off gain => Sys2Proof.Machine.execSelfTrimEnd off gain s
  | .junctionSample d temps => Sys2Proof.Machine.execJunctionSample d temps s
  | .thmCrossCheck j => Sys2Proof.Machine.execThmCrossCheck j s
  | .levelExit d l => Sys2Proof.Machine.execLevelExit d l s
  | .shutdownEntry d => Sys2Proof.Machine.execShutdownEntry d s
  | .thmCtlRecord u t => Sys2Proof.Machine.execThmCtlRecord u t s
  | .ageingMeasure ppm => Sys2Proof.Machine.execAgeingMeasure ppm s
  | .marginTableWrite => Sys2Proof.Machine.execMarginTableWrite s
  | .nvsRead u t => Sys2Proof.Machine.execNvsRead u t s
  | .nvsWrite u t => Sys2Proof.Machine.execNvsWrite u t s
  | .nvsDelete u t => Sys2Proof.Machine.execNvsDelete u t s
  | .nvsUnlockRead u t => Sys2Proof.Machine.execNvsUnlockRead u t s
  | .nvsUnlockWrite u t => Sys2Proof.Machine.execNvsUnlockWrite u t s
  | .nvsLock u t => Sys2Proof.Machine.execNvsLock u t s
  | .nvsSetReadPassword u t => Sys2Proof.Machine.execNvsSetReadPassword u t s
  | .nvsSetWritePassword u t => Sys2Proof.Machine.execNvsSetWritePassword u t s
  | .unlockLockoutEnd p => Sys2Proof.Machine.execUnlockLockoutEnd p s
  | .nvsWriteStart => Sys2Proof.Machine.execNvsWriteStart s
  | .nvsCopyCommit => Sys2Proof.Machine.execNvsCopyCommit s
  | .nvsVerifyFail => Sys2Proof.Machine.execNvsVerifyFail s
  | .garbageCollect p bank => Sys2Proof.Machine.execGarbageCollect p bank s
  | .sectorEraseComplete sec => Sys2Proof.Machine.execSectorEraseComplete sec s
  | .imageVerify => Sys2Proof.Machine.execImageVerify s
  | .authBlockCheck => Sys2Proof.Machine.execAuthBlockCheck s
  | .attestReport => Sys2Proof.Machine.execAttestReport s
  | .ethFrameReceive p f => Sys2Proof.Machine.execEthFrameReceive p f s
  | .arpRequest p dst src data => Sys2Proof.Machine.execArpRequest p dst src data s
  | .icmpEcho p mac dst src data => Sys2Proof.Machine.execIcmpEcho p mac dst src data s
  | .addrConflict p => Sys2Proof.Machine.execAddrConflict p s
  | .ptpSync p m => Sys2Proof.Machine.execPtpSync p m s
  | .ptpFollowUp p m => Sys2Proof.Machine.execPtpFollowUp p m s
  | .ptpDelayReq p m => Sys2Proof.Machine.execPtpDelayReq p m s
  | .ptpDelayResp p m => Sys2Proof.Machine.execPtpDelayResp p m s
  | .ptpAnnounce p m => Sys2Proof.Machine.execPtpAnnounce p m s
  | .ptpAnnounceTimeout p => Sys2Proof.Machine.execPtpAnnounceTimeout p s
  | .ptpSyncSend p => Sys2Proof.Machine.execPtpSyncSend p s
  | .datagramDiscard h p => Sys2Proof.Machine.execDatagramDiscard h p s
  | .cmdRead h p => Sys2Proof.Machine.execCmdRead h p s
  | .cmdEvtClr h p => Sys2Proof.Machine.execCmdEvtClr h p s
  | .cmdEvents h p => Sys2Proof.Machine.execCmdEvents h p s
  | .cmdWake h p => Sys2Proof.Machine.execCmdWake h p s
  | .cmdResume h p => Sys2Proof.Machine.execCmdResume h p s
  | .cmdImage h p img => Sys2Proof.Machine.execCmdImage h p img s
  | .cmdLoad h p img => Sys2Proof.Machine.execCmdLoad h p img s
  | .cmdAttest h p => Sys2Proof.Machine.execCmdAttest h p s
  | .cmdAuth h p => Sys2Proof.Machine.execCmdAuth h p s
  | .cmdNvs h p => Sys2Proof.Machine.execCmdNvs h p s
  | .cmdMsg h p => Sys2Proof.Machine.execCmdMsg h p s
  | .cmdSetNet h p => Sys2Proof.Machine.execCmdSetNet h p s
  | .latchDatagram h p => Sys2Proof.Machine.execLatchDatagram h p s
  | .heartbeatSend p => Sys2Proof.Machine.execHeartbeatSend p s
  | .aliveToggle => Sys2Proof.Machine.execAliveToggle s
  | .vgdLinkTrained p => Sys2Proof.Machine.execVgdLinkTrained p s
  | .vgdLinkDown p => Sys2Proof.Machine.execVgdLinkDown p s
  | .vgdSyncCell p c => Sys2Proof.Machine.execVgdSyncCell p c s
  | .vgdLatchCell p c => Sys2Proof.Machine.execVgdLatchCell p c s
  | .vgdTimeCell p c => Sys2Proof.Machine.execVgdTimeCell p c s
  | .vgdTimeSend p => Sys2Proof.Machine.execVgdTimeSend p s
  | .vgdHandoffCell p c => Sys2Proof.Machine.execVgdHandoffCell p c s
  | .vgdOwnerCell p c => Sys2Proof.Machine.execVgdOwnerCell p c s
  | .lnkMsgSettings u t => Sys2Proof.Machine.execLnkMsgSettings u t s
  | .lnkMsgCellSend u t => Sys2Proof.Machine.execLnkMsgCellSend u t s
  | .lnkMsgEthSend u t => Sys2Proof.Machine.execLnkMsgEthSend u t s
  | .lnkMsgRead u t => Sys2Proof.Machine.execLnkMsgRead u t s
  | .integrityScan => Sys2Proof.Machine.execIntegrityScan s
  | .freezeNAssert ns => Sys2Proof.Machine.execFreezeNAssert ns s
  | .extest v => Sys2Proof.Machine.execExtest v s
  | .samplePreload v => Sys2Proof.Machine.execSamplePreload v s
  | .idcode => Sys2Proof.Machine.execIdcode s
  | .clamp => Sys2Proof.Machine.execClamp s
  | .highz => Sys2Proof.Machine.execHighz s
  | .zfreeze => Sys2Proof.Machine.execZfreeze s
  | .zresume => Sys2Proof.Machine.execZresume s
  | .zunit v => Sys2Proof.Machine.execZunit v s
  | .zcapture => Sys2Proof.Machine.execZcapture s
  | .zaddr v => Sys2Proof.Machine.execZaddr v s
  | .zdata => Sys2Proof.Machine.execZdata s
  | .bypass c => Sys2Proof.Machine.execBypass c s
  | .trstNAssert ns => Sys2Proof.Machine.execTrstNAssert ns s
  | .eventLogEntry j => Sys2Proof.Machine.execEventLogEntry j s
  | .powerLost => Sys2Proof.Machine.execPowerLost s
  | .ethLinkUp p => Sys2Proof.Machine.execEthLinkUp p s
  | .ethLinkDown p => Sys2Proof.Machine.execEthLinkDown p s
  | .pclkRisingEdge p x lval dval => Sys2Proof.Machine.execPclkRisingEdge p x lval dval s
  | .peakWaitLastStart v => Sys2Proof.Machine.execPeakWaitLastStart v s
  | .headroomLoss str mv => Sys2Proof.Machine.execHeadroomLoss str mv s

end Sys2Proof.Machine
end

