-- ==== Sys2Proof/Machine/Idle.lean ====
section
/-!
DEFINITION. One PERIPH cycle without a command: the block's clocks (R66, R69, R87, R117, R318, R411).
-/

namespace Sys2Proof.Machine

/-- A pulse on FREEZE_N ends. -/
def endFreezeN (s : State) : State :=
  if !s.pins.freezeN && decide (s.freeze.low ≤ s.tick) then { s with pins := { s.pins with freezeN := true } } else s

/-- The deadline monitor makes its check or not while the device runs (R419, assumption 81). -/
def monitorTick (s : State) : State :=
  if working s then
    { s with ejt := { s.ejt with monitorAt := if Config.deadlineCheck s.periph then s.periph else s.ejt.monitorAt } }
  else s

/-- What a PERIPH cycle brings to the units that keep time by it. -/
def unitTicks (s : State) : State :=
  let s := lampTick 1 (lampTick 0 (wipeTick (leaveTick (driveLsync s))))
  idleCell 1 (idleCell 0 (admitEnd 1 (admitEnd 0 (monitorTick s))))

/-- A cycle passes: the supervisor's clock runs always, the PERIPH clock while the clocks run, and device time through every
reset but not while frozen (R69, R87, R429). -/
def idle (s : State) : State :=
  let s := endFreezeN { s with tick := s.tick + 1 }
  let s := if s.timeOn && s.freeze.since.isNone then tickTime s else s
  if clocked s then unitTicks { litTick 1 (litTick 0 s) with periph := s.periph + 1 } else s

end Sys2Proof.Machine
end

