-- ==== Sys2Proof/Safety.lean ====
section
/-!
DEFINITION. The terms claims use: a safe run of the block, when an instruction of a unit issues, and what an operation leaves
as it was.
-/

namespace Sys2Proof

/-- A state is sound when its memory has the canonical form. -/
def sound (s : Machine.State) : Prop := Machine.Memory.wf s.mem = true

/-- A run of `k` steps from a state is safe when it ends in a next state that is sound. -/
def safeRun (k : Nat) (s : Machine.State) : Prop :=
  ∃ t : Machine.State, Host.Core.run core k s = .next t ∧ sound t

namespace Machine

/-- Nothing holds an instruction of the class back at the unit: the unit issues, no register it names waits for a LOAD, the unit
executes the class, the pc lies in the code placed, the fetch passes parity, and no FENCE holds it (R90, R244, R248, R253,
R269). -/
def issues (u : UnitId) (c : Cls) (wide : Bool) (rs : List RegRef) (s : State) : Prop :=
  (canIssue u s && !awaited u rs s && executes u c && !pastEnd u s && !fetchBad u wide s && !(fenced c && fenceHeld u s)) = true

/-- Every byte of memory reads as before. -/
def sameMem (s t : State) : Prop := ∀ a, readB t.mem a = readB s.mem a

/-- The unit has retired an instruction of one word, or of two, at this PERIPH cycle: its pc has passed it. -/
def passed (u : UnitId) (wide : Bool) (s t : State) : Prop :=
  t.units[u].pc = (s.units[u].pc + (if wide then 2 else 1)) % codeSize u ∧ t.units[u].ranAt = some s.periph

/-- Nothing but scalar registers, the pc and the time of the last instruction of the unit has changed. -/
def onlyScalar (u : UnitId) (s t : State) : Prop :=
  t = modU u (fun e => { e with s := t.units[u].s, pc := t.units[u].pc, ranAt := t.units[u].ranAt }) s ∧ sameMem s t

/-- Nothing but vector registers, the pc and the time of the last instruction of the unit has changed. -/
def onlyVector (u : UnitId) (s t : State) : Prop :=
  t = modU u (fun e => { e with v := t.units[u].v, pc := t.units[u].pc, ranAt := t.units[u].ranAt }) s ∧ sameMem s t

/-- Nothing but predicates, the pc and the time of the last instruction of the unit has changed. -/
def onlyPred (u : UnitId) (s t : State) : Prop :=
  t = modU u (fun e => { e with p := t.units[u].p, pc := t.units[u].pc, ranAt := t.units[u].ranAt }) s ∧ sameMem s t

/-- The command answers a next state in which scalar register `d` holds `x` (s0 goes on reading zero), every other scalar
register is as before, the pc has passed the instruction, and nothing else has changed. -/
def writesScalar (i : Instr) (u : UnitId) (d : Reg) (x : Word) (wide : Bool) (s : State) : Prop :=
  ∃ t, exec i s = .next t ∧ getS u d t = (if d = 0 then 0 else x) ∧ (∀ n, n ≠ d → getS u n t = getS u n s) ∧
    passed u wide s t ∧ onlyScalar u s t

/-- As `writesScalar`, for a pair sn, sn+1 written low word first; s0 of the pair s0, s1 discards its word. -/
def writesPair (i : Instr) (u : UnitId) (d : Reg) (x : BitVec 64) (wide : Bool) (s : State) : Prop :=
  ∃ t, exec i s = .next t ∧ getS u d t = (if d = 0 then 0 else lo32 x) ∧ getS u (regSucc d) t = hi32 x ∧
    (∀ n, n ≠ d → n ≠ regSucc d → getS u n t = getS u n s) ∧ passed u wide s t ∧ onlyScalar u s t

/-- The command answers a next state in which lane `k` of vector register `d` holds `f k` where the governing predicate allows
the lane and is unchanged elsewhere, every other vector register is as before, the pc has passed the instruction, and nothing
else has changed. -/
def writesLanes (i : Instr) (u : UnitId) (d : Reg) (pg : Option Pred) (f : Fin 32 → Word) (wide : Bool) (s : State) : Prop :=
  ∃ t, exec i s = .next t ∧
    (∀ k : Fin 32, (getV u d t)[k] = if allows u pg s k then f k else (getV u d s)[k]) ∧
    (∀ n, n ≠ d → getV u n t = getV u n s) ∧ passed u wide s t ∧ onlyVector u s t

/-- As `writesLanes`, for every bit of a predicate register. -/
def writesPred (i : Instr) (u : UnitId) (d : Pred) (f : Fin 32 → Bool) (wide : Bool) (s : State) : Prop :=
  ∃ t, exec i s = .next t ∧ (∀ k : Fin 32, (getP u d t).getLsbD k = f k) ∧ (∀ n, n ≠ d → getP u n t = getP u n s) ∧
    passed u wide s t ∧ onlyPred u s t

/-- The command answers the next state in which tag `n` is BUSY, the pool pointer is `p`, the access `k` at the instruction's
address is in flight last, and the pc has passed the instruction; every byte of memory is as before. -/
def startsAccess (i : Instr) (u : UnitId) (n : Tag) (p : Nat) (k : MemKind) (m : Addr) (s : State) : Prop :=
  ∃ t, exec i s = .next t ∧
    t = advance u (addrImm m) (modU u (fun e => { e with
      tags := e.tags.set n .busy
      ptr := p
      ops := e.ops ++ [⟨n, k, addrVal u m s⟩] }) s) ∧ sameMem s t

/-- Every word of the status space but those listed reads as before. -/
def wordsBut (as : List Nat) (s t : State) : Prop := ∀ a, a ∉ as → t.word a = s.word a

/-- Of every source word of an OUT transfer, whether it fails parity. -/
def sourceBad (x : Xfer) (s : State) : List Bool :=
  match x.lost with
  | some ws => ws.map (·.2)
  | none => (sourceAddrs x).map fun a => badAt a s

/-- Every source word of an OUT transfer passes parity. -/
def wholeSource (x : Xfer) (s : State) : Prop := ∀ b ∈ sourceBad x s, b = false

/-- A record a unit sent under a tag stands before an endpoint of `p`: the device is live, and every source word passes
parity. -/
def recordAt (u : UnitId) (t : Tag) (p : Nat → Bool) (x : Xfer) (s : State) : Prop :=
  live s = true ∧ findXfer u t true p s = some x ∧ wholeSource x s

/-- A read a unit made under a tag stands before an endpoint of `p`, the device being live and its memory canonical. -/
def readAt (u : UnitId) (t : Tag) (p : Nat → Bool) (x : Xfer) (s : State) : Prop :=
  live s = true ∧ findXfer u t false p s = some x ∧ Memory.wf s.mem = true

/-- The command answers a next state in which the transfer has ended with code 0, the units and every byte of memory are as
before, and `eff` holds. -/
def takesRecord (i : Instr) (u : UnitId) (t : Tag) (s : State) (eff : State → Prop) : Prop :=
  ∃ r, exec i s = .next r ∧ r.xfers = (setCode u t 0 s).xfers ∧ r.units = s.units ∧ sameMem s r ∧ eff r

/-- The command answers a next state in which the transfer has ended with code 1, the sticky field is set, and nothing else
but status words and the events has changed. -/
def refusesRecord (i : Instr) (u : UnitId) (t : Tag) (f : Fld) (s : State) : Prop :=
  ∃ r, exec i s = .next r ∧ r = { s with xfers := (setCode u t 1 s).xfers, status := r.status, ev := r.ev } ∧ getF f r = 1

/-- The command answers a next state in which the transfer has ended with code 1, the sticky field is set, the units and every
byte of memory are as before, and `eff` holds. -/
def refusesAs (i : Instr) (u : UnitId) (t : Tag) (f : Fld) (s : State) (eff : State → Prop) : Prop :=
  ∃ r, exec i s = .next r ∧ r.xfers = (setCode u t 1 s).xfers ∧ getF f r = 1 ∧ r.units = s.units ∧ sameMem s r ∧ eff r

/-- The command answers a next state in which the words have landed at the start of the transfer's place in the window, every
byte outside the transfer is as before, the transfer has ended with the code, the units are as before, and `eff` holds. -/
def landsWords (i : Instr) (u : UnitId) (t : Tag) (x : Xfer) (c : Nat) (ws : List Word) (s : State) (eff : State → Prop) : Prop :=
  ∃ r, exec i s = .next r ∧ readWords r.mem (storeBase u + x.base) ws.length = ws ∧
    (∀ b, b < storeBase u + x.base ∨ storeBase u + x.base + 4 * ws.length ≤ b → readB r.mem b = readB s.mem b) ∧
    r.xfers = (setCode u t c s).xfers ∧ r.units = s.units ∧ eff r

/-- A request with opcode `op` stands before the hub: it is heard, addressed to this module, whole, in a mode and a state that
its row of Table 19.2 accepts, no repeat of one answered, and none of its kind is under way. -/
def asks (op : Nat) (modes states : List Nat) (h : Hdr) (p : List Byte) (s : State) : Prop :=
  hears h p s = true ∧ dgramOk h = true ∧ addressed h s = true ∧ h.opcode.toNat = op ∧ keptReply h s = none ∧
    h.length.toNat = p.length ∧ p.length ≤ 1448 ∧ h.flags = 0 ∧ h.status = 0 ∧ hdrMode h ∈ modes ∧
    (∃ n ∈ states, hostState s = some n) ∧ s.sec.verify = none

/-- The reply to a request with STATUS and payload has left and is kept, where the request is one that is answered; ADDR and
UID of the reply are of the form of Table 19.1 and not stated otherwise. -/
def answers (h : Hdr) (st : Nat) (data : List Byte) (s t : State) : Prop :=
  if answered h = true then
    ∃ x, let r := { sentHdr h.opcode.toNat (freeAddr x).1 h.seq data.length st 1 with uid := BitVec.ofNat 64 (freeAddr x).2 }
      t.net.sent = replyTo h r data s :: s.net.sent ∧ t.net.replies = (⟨h.srcIp, h.srcPort, h.seq, r, data⟩ :: s.net.replies).take 16
  else t.net.sent = s.net.sent ∧ t.net.replies = s.net.replies

end Machine

end Sys2Proof
end

