-- ==== Sys2Proof/WellFormed.lean ====
section
/-!
DEFINITION. The commands whose operands the layouts of the chapters can hold: an instruction that the loader refuses (check 0x03,
R263, R270, R271, R277) is not one of them.  Every other operand is in range by its type.
-/

namespace Sys2Proof

open Machine in
/-- Is the command well formed? -/
def WellFormed (i : Instr) : Bool :=
  match i with
  | .add _ _ _ _ => true
  | .sub _ _ _ _ => true
  | .and _ _ _ _ => true
  | .or _ _ _ _ => true
  | .xor _ _ _ _ => true
  | .shl _ _ _ b => shiftOk b
  | .shr _ _ _ b => shiftOk b
  | .sra _ _ _ b => shiftOk b
  | .mul _ _ _ _ => true
  | .mulh _ _ _ _ => true
  | .min _ _ _ _ => true
  | .max _ _ _ _ => true
  | .slt _ _ _ _ => true
  | .sltu _ _ _ _ => true
  | .mov _ _ _ => true
  | .addD _ d a b => isPair d && isPair a && srcIsPair b
  | .subD _ d a b => isPair d && isPair a && srcIsPair b
  | .movD _ d b => isPair d && srcIsPair b
  | .vadd _ _ _ _ _ => true
  | .vsub _ _ _ _ _ => true
  | .vand _ _ _ _ _ => true
  | .vor _ _ _ _ _ => true
  | .vxor _ _ _ _ _ => true
  | .vshl _ _ _ b _ => vshiftOk b
  | .vshr _ _ _ b _ => vshiftOk b
  | .vsra _ _ _ b _ => vshiftOk b
  | .vmin _ _ _ _ _ => true
  | .vmax _ _ _ _ _ => true
  | .vabs _ _ _ _ => true
  | .vmov _ _ _ _ => true
  | .vval _ _ _ _ => true
  | .vext _ _ _ _ _ => true
  | .vsum _ _ _ _ => true
  | .vcmp _ _ _ _ _ _ => true
  | .vcmpw _ _ _ _ _ _ => true
  | .vflags _ _ _ _ => true
  | .pcount _ _ _ => true
  | .vmacH _ _ _ _ _ => true
  | .vmacHs _ _ _ _ _ => true
  | .vmacW _ _ _ _ _ => true
  | .vmulW _ _ _ _ _ => true
  | .vmulhW _ _ _ _ _ => true
  | .vdotH _ _ _ _ _ => true
  | .load u _ _ t => tagSelOk u t
  | .loadD u d _ t => tagSelOk u t && isPair d
  | .loadH u _ _ t => tagSelOk u t
  | .loadHu u _ _ t => tagSelOk u t
  | .loadB u _ _ t => tagSelOk u t
  | .loadBu u _ _ t => tagSelOk u t
  | .store u _ _ t => tagSelOk u t
  | .storeD u d _ t => tagSelOk u t && isPair d
  | .storeH u _ _ t => tagSelOk u t
  | .storeB u _ _ t => tagSelOk u t
  | .vload u _ _ t => tagSelOk u t
  | .vstore u _ _ t => tagSelOk u t
  | .loadComplete _ _ => true
  | .streamIn _ q => epDir q.ep.toNat false
  | .streamOut _ q => epDir q.ep.toNat true
  | .transferComplete _ _ => true
  | .tagTimeout _ _ => true
  | .eject _ n => isBlock n
  | .latch _ n => isBlock n
  | .lamp _ _ _ => true
  | .sadcStartSingle _ _ => true
  | .sadcStartContinuous _ _ => true
  | .sadcStartStop _ _ => true
  | .calReqRun _ _ => true
  | .calReqCancel _ _ => true
  | .calReqGap _ _ => true
  | .sync _ => true
  | .shutterClose _ _ => true
  | .shutterOpen _ _ => true
  | .wait u w => waitOk u w
  | .fence _ => true
  | .tagstat u _ t => tagOk u t
  | .beq _ _ _ g => targetOk g
  | .bne _ _ _ g => targetOk g
  | .blt _ _ _ g => targetOk g
  | .bge _ _ _ g => targetOk g
  | .bltu _ _ _ g => targetOk g
  | .bgeu _ _ _ g => targetOk g
  | .jmp _ g => targetOk g
  | .call _ g => targetOk g
  | .jmpr _ _ => true
  | .ret _ => true
  | .retx _ => true
  | .loop _ _ g => targetOk g
  | .stat _ _ _ _ => true
  | .evtClr _ _ _ _ => true
  | .sysResetFull _ _ => true
  | .sysResetDie _ _ => true
  | .sysResetCluster _ _ => true
  | .sysFreeze _ => true
  | .sysStandby _ => true
  | .sysPark _ => true
  | .sysRun _ => true
  | .sysLifecycle _ _ => true
  | .sysLoad _ _ => true
  | .powerOn => true
  | .refclkPresent => true
  | .inrushComplete => true
  | .inrushTimeout => true
  | .inrushRetry => true
  | .inputOvercurrentTrip => true
  | .railSequenceStep => true
  | .resetRelease _ _ _ => true
  | .vinLowEntry => true
  | .vinNormalEntry => true
  | .vinHighEntry => true
  | .vinOverEntry => true
  | .vinOvTrip => true
  | .brownout => true
  | .brownoutEnd => true
  | .railFault _ => true
  | .railRetryWaitEnd => true
  | .pwrVinConversion _ => true
  | .clockLoss _ => true
  | .clockRestart => true
  | .serdesUnlock _ => true
  | .timeSourceLost => true
  | .timeOffsetMeasured _ _ => true
  | .timeStep => true
  | .slewComplete => true
  | .resetNAssert _ => true
  | .resetNRelease => true
  | .hubWatchdog => true
  | .signatureVerified => true
  | .indexComplete => true
  | .pixelModelLoaded => true
  | .firstInstruction => true
  | .ddrTrainingComplete _ _ => true
  | .ddrWipeComplete => true
  | .dieRejoin _ _ => true
  | .standbyParkEntry => true
  | .exitComplete => true
  | .lifecycleWipeComplete => true
  | .fpdCtlRecord _ _ => true
  | .lineSlotBoundary => true
  | .rowSlotEnd _ _ _ _ => true
  | .substrateSample _ _ => true
  | .bandDwellComplete _ => true
  | .biasSettled _ => true
  | .lsyncRise _ => true
  | .syncResetEdge => true
  | .shutterTravelEnd _ => true
  | .shutterReopenEnd _ => true
  | .shutterFault _ _ => true
  | .algCtlRecord _ _ => true
  | .algRamLoad _ _ => true
  | .algDetRead _ _ => true
  | .csnCtlRecord _ _ => true
  | .csnBlock _ _ _ _ => true
  | .csnOutRead _ _ => true
  | .rowSlotCorrection _ _ _ _ => true
  | .modelParityReload _ _ _ => true
  | .corModelRecord _ _ => true
  | .corCtlRecord _ _ => true
  | .fusedLineEntry => true
  | .fusedRead _ _ _ => true
  | .corBlindRead _ _ => true
  | .corRegMap _ _ => true
  | .fpdRawRead _ _ => true
  | .calCtlRecord _ _ => true
  | .calAutoRequest _ => true
  | .calWaiting _ => true
  | .declaredGapOpen => true
  | .declaredGapClose => true
  | .feedGapOpen _ => true
  | .feedGapClose _ => true
  | .shutRunStart _ => true
  | .shutMeasureStart _ => true
  | .shutMeasureEnd _ => true
  | .sceneRunEnd _ => true
  | .sceneTimeout _ => true
  | .classARunStart _ => true
  | .classARepeatEnd _ _ _ => true
  | .csnIdleTimeout _ _ => true
  | .calSadcRetry => true
  | .saveDue => true
  | .saveRetry => true
  | .saveComplete _ => true
  | .camCtlRecord _ _ => true
  | .camPipeRecord _ _ => true
  | .camDefectMap _ _ => true
  | .camTrigger _ _ => true
  | .camLineOpen _ => true
  | .camLineClose _ => true
  | .camFrameOpen _ => true
  | .camFrameEnd _ => true
  | .camLineTimeout _ => true
  | .camLineAdmit _ _ => true
  | .camLineOut _ => true
  | .camWaitEnd _ => true
  | .flitReceived _ _ _ _ => true
  | .replayRequest _ _ _ => true
  | .linkRemapComplete _ => true
  | .ddrAccess _ _ => true
  | .ddrReadBurst _ _ _ => true
  | .ddrAlert _ _ => true
  | .ddrTempCheck _ _ => true
  | .clusterTransfer _ _ => true
  | .lineNotice _ => true
  | .ejectArrival _ => true
  | .lineBoundPass _ _ _ => true
  | .uncommittedLastStart _ => true
  | .shotEnergise _ => true
  | .peakEnd _ _ => true
  | .shotEnd _ => true
  | .quenchEnd _ _ => true
  | .dipDetected _ => true
  | .dipSearchEnd _ => true
  | .coilModelUpdate _ => true
  | .valveOpenFault _ _ => true
  | .valveShortFault _ _ => true
  | .highSideFault _ => true
  | .ejtCtlDie _ _ => true
  | .ejtCtlProfile _ _ => true
  | .ejtCtlValves _ _ => true
  | .lumDieRecord _ _ => true
  | .lumStringRecord _ _ => true
  | .latchArrival _ => true
  | .latchApply _ => true
  | .pwmPeriodStart _ => true
  | .matrixCycleStart _ => true
  | .lampTestWindow _ _ _ _ => true
  | .openStringFault _ _ => true
  | .inductorOvercurrent _ _ => true
  | .regulatorDecayEnd _ => true
  | .neighbourTest _ _ _ _ => true
  | .neighbourUntested _ => true
  | .lampStretch _ _ => true
  | .lampUnverified _ _ => true
  | .colourLoopUpdate _ => true
  | .thermistorConversion _ => true
  | .thermistorTimeout _ => true
  | .lampHourCell _ _ => true
  | .sadcCtlControl _ _ => true
  | .sadcCtlSequence _ _ => true
  | .sadcCtlHurdle _ _ => true
  | .sadcResRead _ _ => true
  | .sadcEntryEnd _ _ => true
  | .sadcGapEnd => true
  | .injectedRequest _ _ _ _ => true
  | .injectedConversionEnd _ => true
  | .selfTrimStart => true
  | .selfTrimEnd _ _ => true
  | .junctionSample _ _ => true
  | .thmCrossCheck _ => true
  | .levelExit _ _ => true
  | .shutdownEntry _ => true
  | .thmCtlRecord _ _ => true
  | .ageingMeasure _ => true
  | .marginTableWrite => true
  | .nvsRead _ _ => true
  | .nvsWrite _ _ => true
  | .nvsDelete _ _ => true
  | .nvsUnlockRead _ _ => true
  | .nvsUnlockWrite _ _ => true
  | .nvsLock _ _ => true
  | .nvsSetReadPassword _ _ => true
  | .nvsSetWritePassword _ _ => true
  | .unlockLockoutEnd _ => true
  | .nvsWriteStart => true
  | .nvsCopyCommit => true
  | .nvsVerifyFail => true
  | .garbageCollect _ _ => true
  | .sectorEraseComplete _ => true
  | .imageVerify => true
  | .authBlockCheck => true
  | .attestReport => true
  | .ethFrameReceive _ _ => true
  | .arpRequest _ _ _ _ => true
  | .icmpEcho _ _ _ _ _ => true
  | .addrConflict _ => true
  | .ptpSync _ _ => true
  | .ptpFollowUp _ _ => true
  | .ptpDelayReq _ _ => true
  | .ptpDelayResp _ _ => true
  | .ptpAnnounce _ _ => true
  | .ptpAnnounceTimeout _ => true
  | .ptpSyncSend _ => true
  | .datagramDiscard _ _ => true
  | .cmdRead _ _ => true
  | .cmdEvtClr _ _ => true
  | .cmdEvents _ _ => true
  | .cmdWake _ _ => true
  | .cmdResume _ _ => true
  | .cmdImage _ _ _ => true
  | .cmdLoad _ _ _ => true
  | .cmdAttest _ _ => true
  | .cmdAuth _ _ => true
  | .cmdNvs _ _ => true
  | .cmdMsg _ _ => true
  | .cmdSetNet _ _ => true
  | .latchDatagram _ _ => true
  | .heartbeatSend _ => true
  | .aliveToggle => true
  | .vgdLinkTrained _ => true
  | .vgdLinkDown _ => true
  | .vgdSyncCell _ _ => true
  | .vgdLatchCell _ _ => true
  | .vgdTimeCell _ _ => true
  | .vgdTimeSend _ => true
  | .vgdHandoffCell _ _ => true
  | .vgdOwnerCell _ _ => true
  | .lnkMsgSettings _ _ => true
  | .lnkMsgCellSend _ _ => true
  | .lnkMsgEthSend _ _ => true
  | .lnkMsgRead _ _ => true
  | .integrityScan => true
  | .freezeNAssert _ => true
  | .extest _ => true
  | .samplePreload _ => true
  | .idcode => true
  | .clamp => true
  | .highz => true
  | .zfreeze => true
  | .zresume => true
  | .zunit _ => true
  | .zcapture => true
  | .zaddr _ => true
  | .zdata => true
  | .bypass _ => true
  | .trstNAssert _ => true
  | .eventLogEntry _ => true
  | .powerLost => true
  | .ethLinkUp _ => true
  | .ethLinkDown _ => true
  | .pclkRisingEdge _ _ _ _ => true
  | .peakWaitLastStart _ => true
  | .headroomLoss _ _ => true

end Sys2Proof
end

