-- ==== Sys2Proof/Certificates/Slice0/Obligations.lean ====
section
/-!
DEFINITION. The statements for the provers.
-/

open Sys2Proof Sys2Proof.Machine

/-- Where nothing holds a SCALAR instruction back, ADD, SUB, AND, OR, XOR, MUL, MULH, MIN, MAX, SLT, SLTU and MOV, and SHL,
SHR, SRA whose constant amount is below 32, answer the next state in which sD holds the result of the table (s0 goes on
reading zero), every other scalar register is as before, the pc has passed the instruction, and nothing else of the state,
no byte of memory, has changed. With even registers, and where nothing holds them back, ADD.D, SUB.D and MOV.D answer the
next state in which the pair sD, sD+1 holds the 64-bit result, low word in sD (s0 discards its word), every other scalar
register is as before, the pc has passed the instruction, and nothing else has changed. (R222, R270, R271, R272.) -/
def Obligations.ScalarArithmeticResult : Prop :=
  (∀ (u : UnitId) (d a : Reg) (b : Src) (s : State),
    (issues u .scalar (srcImm b) (.s d :: .s a :: srcRegs b) s →
      let x := getS u a s
      let y := srcVal u b s
      let w := srcImm b
      writesScalar (.add u d a b) u d (x + y) w s ∧ writesScalar (.sub u d a b) u d (x - y) w s ∧
      writesScalar (.and u d a b) u d (x &&& y) w s ∧ writesScalar (.or u d a b) u d (x ||| y) w s ∧
      writesScalar (.xor u d a b) u d (x ^^^ y) w s ∧ writesScalar (.mul u d a b) u d (x * y) w s ∧
      writesScalar (.mulh u d a b) u d (BitVec.ofInt 32 (x.toInt * y.toInt / 2 ^ 32)) w s ∧
      writesScalar (.min u d a b) u d (if x.toInt < y.toInt then x else y) w s ∧
      writesScalar (.max u d a b) u d (if x.toInt < y.toInt then y else x) w s ∧
      writesScalar (.slt u d a b) u d (if x.toInt < y.toInt then 1 else 0) w s ∧
      writesScalar (.sltu u d a b) u d (if x.toNat < y.toNat then 1 else 0) w s ∧
      (shiftOk b = true →
        writesScalar (.shl u d a b) u d (x <<< (y.toNat % 32)) w s ∧
        writesScalar (.shr u d a b) u d (x >>> (y.toNat % 32)) w s ∧
        writesScalar (.sra u d a b) u d (x.sshiftRight (y.toNat % 32)) w s)) ∧
    (issues u .scalar (srcImm b) (.s d :: .s 0 :: srcRegs b) s →
      writesScalar (.mov u d b) u d (srcVal u b s) (srcImm b) s)) ∧
  ∀ (u : UnitId) (d a : Reg) (b : Src) (s : State), isPair d = true → srcIsPair b = true →
    (isPair a = true → issues u .scalar (srcImm b) (pairRegs d ++ pairRegs a ++ srcPairRegs b) s →
      writesPair (.addD u d a b) u d (getPair u a s + srcPair u b s) (srcImm b) s ∧
      writesPair (.subD u d a b) u d (getPair u a s - srcPair u b s) (srcImm b) s) ∧
    (issues u .scalar (srcImm b) (pairRegs d ++ pairRegs 0 ++ srcPairRegs b) s →
      writesPair (.movD u d b) u d (srcPair u b s) (srcImm b) s)

/-- Where nothing holds them back, the lane-wise VECTOR instructions (and the shifts with a constant amount below 32) answer
the next state in which each lane of vD that the governing predicate allows holds the result of the table for that lane,
every other lane and every other vector register is as before, the pc has passed the instruction, and nothing else has
changed. (R243, R271, R273.) -/
def Obligations.LaneArithmeticResult : Prop :=
  ∀ (u : UnitId) (d a : Reg) (b : VSrc) (pg : Option Pred) (s : State),
    (issues u .vector (vsrcImm b) (.v d :: .v a :: vsrcRegs b) s →
      let x (k : Fin 32) : Word := (getV u a s)[k]
      let y (k : Fin 32) : Word := vsrcLane u b s k
      let w := vsrcImm b
      writesLanes (.vadd u d a b pg) u d pg (fun k => x k + y k) w s ∧
      writesLanes (.vsub u d a b pg) u d pg (fun k => x k - y k) w s ∧
      writesLanes (.vand u d a b pg) u d pg (fun k => x k &&& y k) w s ∧
      writesLanes (.vor u d a b pg) u d pg (fun k => x k ||| y k) w s ∧
      writesLanes (.vxor u d a b pg) u d pg (fun k => x k ^^^ y k) w s ∧
      writesLanes (.vmin u d a b pg) u d pg (fun k => if (x k).toInt < (y k).toInt then x k else y k) w s ∧
      writesLanes (.vmax u d a b pg) u d pg (fun k => if (x k).toInt < (y k).toInt then y k else x k) w s ∧
      (vshiftOk b = true →
        writesLanes (.vshl u d a b pg) u d pg (fun k => x k <<< ((y k).toNat % 32)) w s ∧
        writesLanes (.vshr u d a b pg) u d pg (fun k => x k >>> ((y k).toNat % 32)) w s ∧
        writesLanes (.vsra u d a b pg) u d pg (fun k => (x k).sshiftRight ((y k).toNat % 32)) w s)) ∧
    (issues u .vector (vsrcImm b) (.v d :: .v d :: vsrcRegs b) s →
      writesLanes (.vmov u d b pg) u d pg (fun k => vsrcLane u b s k) (vsrcImm b) s) ∧
    (issues u .vector false [.v d, .v a] s →
      writesLanes (.vabs u d a pg) u d pg
        (fun k => let x := (getV u a s)[k]; BitVec.ofInt 32 (min (x.toInt.natAbs : Int) (2 ^ 31 - 1))) false s ∧
      writesLanes (.vval u d a pg) u d pg (fun k => (((getV u a s)[k]).setWidth 24).signExtend 32) false s)

/-- Where nothing holds them back, VEXT writes the lane that the low five bits of its second source name, VSUM the sum of the
allowed lanes modulo 2^32, PCOUNT the number of set bits of the predicate, VCMP and VCMPW every bit of their predicate
(the lane allowed and the signed comparison true: of the sign-extended 24-bit VALUE of A for VCMP, of the whole word for
VCMPW), and VFLAGS every bit (bits 27 to 25 clear in both words); the pc passes the instruction and nothing else changes.
Where nothing holds them back, VMAC_H adds the sum of the products of the signed halves modulo 2^32, VMAC_HS the same
saturating at the ends of the signed 32-bit range, VMAC_W the low word of the product, VMUL_W and VMULH_W give its low and
its high word, in the allowed lanes of vD alone; VDOT_H adds to sD the sum of the products of halves over the allowed
lanes; nothing else changes but the pc. That VEXT writes under every governing predicate is the model's choice (assumption
15). (R243, R273.) -/
def Obligations.LaneReductionAndMacResult : Prop :=
  (∀ (u : UnitId) (d a b : Reg) (p q : Pred) (c : Cond) (x : Src) (y : VSrc) (pg : Option Pred) (s : State),
    (issues u .vector (srcImm x) (.s d :: .v a :: srcRegs x) s →
      writesScalar (.vext u d a x pg) u d (getV u a s)[Fin.ofNat 32 (srcVal u x s).toNat] (srcImm x) s) ∧
    (issues u .vector false [.s d, .v a] s →
      writesScalar (.vsum u d a pg) u d
        (((List.finRange 32).filter fun k => allows u pg s k).map fun k => (getV u a s)[k]).sum false s) ∧
    (issues u .vector false [.s d] s →
      writesScalar (.pcount u d p) u d (BitVec.ofNat 32 ((List.finRange 32).filter fun k => (getP u p s).getLsbD k).length) false s) ∧
    (issues u .vector (vsrcImm y) (.v a :: vsrcRegs y) s →
      writesPred (.vcmp u c q a y pg) u q
        (fun k => allows u pg s k && condHolds c ((((getV u a s)[k]).setWidth 24).signExtend 32) (vsrcLane u y s k)) (vsrcImm y) s ∧
      writesPred (.vcmpw u c q a y pg) u q
        (fun k => allows u pg s k && condHolds c (getV u a s)[k] (vsrcLane u y s k)) (vsrcImm y) s) ∧
    (issues u .vector false [.v a, .v b] s →
      writesPred (.vflags u q a b) u q
        (fun k => bits (getV u a s)[k] 27 25 = 0 && bits (getV u b s)[k] 27 25 = 0) false s)) ∧
  ∀ (u : UnitId) (d a : Reg) (b : VSrc) (pg : Option Pred) (s : State),
    (issues u .mac (vsrcImm b) (.v d :: .v a :: vsrcRegs b) s →
      let z (k : Fin 32) : Word := (getV u d s)[k]
      let x (k : Fin 32) : Word := (getV u a s)[k]
      let y (k : Fin 32) : Word := vsrcLane u b s k
      let w := vsrcImm b
      writesLanes (.vmacH u d a b pg) u d pg (fun k => z k + BitVec.ofInt 32 (halfDot (x k) (y k))) w s ∧
      writesLanes (.vmacHs u d a b pg) u d pg
        (fun k => BitVec.ofInt 32 (max (-(2 ^ 31)) (min (2 ^ 31 - 1) ((z k).toInt + halfDot (x k) (y k))))) w s ∧
      writesLanes (.vmacW u d a b pg) u d pg (fun k => z k + x k * y k) w s ∧
      writesLanes (.vmulW u d a b pg) u d pg (fun k => x k * y k) w s ∧
      writesLanes (.vmulhW u d a b pg) u d pg (fun k => BitVec.ofInt 32 ((x k).toInt * (y k).toInt / 2 ^ 32)) w s) ∧
    (issues u .mac (vsrcImm b) (.s d :: .v a :: vsrcRegs b) s →
      writesScalar (.vdotH u d a b pg) u d
        (getS u d s + (((List.finRange 32).filter fun k => allows u pg s k).map fun k =>
          BitVec.ofInt 32 (halfDot (getV u a s)[k] (vsrcLane u b s k))).sum) (vsrcImm b) s)

/-- For each LOAD and STORE form: where its operands are ones the loader accepts, nothing holds it back, the tag it names (or
the pool gives) can be taken, and its address is aligned and inside the unit's memory, it answers the next state in which
that tag is BUSY, the pool pointer stands after it, the access (its kind, its data words for a store, its address) is in
flight last, the pc has passed the instruction, and nothing else has changed; no byte of memory has changed yet. (R246,
R270, R274, R275, R276.) -/
def Obligations.LoadStoreIssue : Prop :=
  ∀ (u : UnitId) (d : Reg) (m : Addr) (t : TagSel) (n : Tag) (p : Nat) (s : State),
    tagSelOk u t = true → pickTag u t s = .take n p →
    let a := addrVal u m s
    let pair := pairRegs d
    (issues u .ldst (addrImm m) [.s m.idx, .s d] s →
      (addrBad u a 4 4 = false →
        startsAccess (.load u d m t) u n p (.ld 4 false d) m s ∧ startsAccess (.store u d m t) u n p (.st 4 [getS u d s]) m s) ∧
      (addrBad u a 2 2 = false →
        startsAccess (.loadH u d m t) u n p (.ld 2 true d) m s ∧ startsAccess (.loadHu u d m t) u n p (.ld 2 false d) m s ∧
        startsAccess (.storeH u d m t) u n p (.st 2 [getS u d s]) m s) ∧
      (addrBad u a 1 1 = false →
        startsAccess (.loadB u d m t) u n p (.ld 1 true d) m s ∧ startsAccess (.loadBu u d m t) u n p (.ld 1 false d) m s ∧
        startsAccess (.storeB u d m t) u n p (.st 1 [getS u d s]) m s)) ∧
    (isPair d = true → issues u .ldst (addrImm m) (.s m.idx :: pair) s → addrBad u a 8 8 = false →
      startsAccess (.loadD u d m t) u n p (.ldD d) m s ∧
      startsAccess (.storeD u d m t) u n p (.st 8 [getS u d s, getS u (regSucc d) s]) m s) ∧
    (issues u .vldst (addrImm m) [.s m.idx, .v d] s → addrBad u a 128 4 = false →
      startsAccess (.vload u d m t) u n p (.ldV d) m s ∧
      startsAccess (.vstore u d m t) u n p (.st 128 (getV u d s).toList) m s)

/-- Where nothing holds a LOAD, STORE or STREAM back: naming a BUSY tag raises cause 3 (EXC_TAG_BUSY), a DONE_ERR tag cause 4
(EXC_TAG_UNREAD), and a FREE or DONE_OK tag is BUSY once the instruction has issued. The address of a LOAD or STORE is
(constant + A x SCALE) modulo 2^32, the constant 0 where there is none; one that is no multiple of its alignment, or an
access with a byte beyond the 524,288 bytes of a cluster store or the 262,144 of a hub data memory, raises cause 6
(EXC_ADDR) at the instruction, and any other is accessed there. (R246, R274.) -/
def Obligations.TagAndAddressExceptions : Prop :=
  ∀ (u : UnitId) (d : Reg) (m : Addr) (t : TagSel) (q : StreamOp) (s : State),
    let w := addrImm m
    let a := ((m.const.getD 0).toNat + (getS u m.idx s).toNat * scaleOf m.scale) % 2 ^ 32
    let mem := if isHub u then 262144 else 524288
    let tag (n : Tag) : TagState := s.units[u].tags[n]
    let mayName (n : Tag) : Prop := tag n = .free ∨ tag n = .doneOk
    let rule (i : Instr) (size align : Nat) : Prop :=
      (∀ n, t = .named n →
        (tag n = .busy → exec i s = .next (takeExc u 3 w s)) ∧ (∀ c, tag n = .doneErr c → exec i s = .next (takeExc u 4 w s)) ∧
        (mayName n → a % align = 0 → a + size ≤ mem →
          ∃ r k, exec i s = .next r ∧ r.units[u].tags[n] = .busy ∧ r.units[u].ops = s.units[u].ops ++ [⟨n, k, a⟩])) ∧
      (∀ n p, pickTag u t s = .take n p → a % align ≠ 0 ∨ mem < a + size → exec i s = .next (takeExc u 6 w s))
    (tagSelOk u t = true → issues u .ldst w [.s m.idx, .s d] s →
      rule (.load u d m t) 4 4 ∧ rule (.loadH u d m t) 2 2 ∧ rule (.loadHu u d m t) 2 2 ∧ rule (.loadB u d m t) 1 1 ∧
      rule (.loadBu u d m t) 1 1 ∧ rule (.store u d m t) 4 4 ∧ rule (.storeH u d m t) 2 2 ∧ rule (.storeB u d m t) 1 1) ∧
    (tagSelOk u t = true → isPair d = true → issues u .ldst w (.s m.idx :: pairRegs d) s →
      rule (.loadD u d m t) 8 8 ∧ rule (.storeD u d m t) 8 8) ∧
    (tagSelOk u t = true → issues u .vldst w [.s m.idx, .v d] s → rule (.vload u d m t) 128 4 ∧ rule (.vstore u d m t) 128 4) ∧
    ∀ out : Bool, issues u .stream true (streamRegs q) s → epDir q.ep.toNat out = true → epPresent q.ep.toNat s = true →
      let i : Instr := if out = true then .streamOut u q else .streamIn u q
      let len := streamLen u q.len s
      (tag q.tag = .busy → exec i s = .next (takeExc u 3 true s)) ∧
      (∀ c, tag q.tag = .doneErr c → exec i s = .next (takeExc u 4 true s)) ∧
      (mayName q.tag → len % 4 = 0 → 4 ≤ len → len ≤ 65536 → 4 * q.offset.toNat + len ≤ (windowOf u q.win s).2 →
        ∃ r, exec i s = .next r ∧ r.units[u].tags[q.tag] = .busy)

/-- Taking an exception of cause c at a unit that no FENCE holds records the cause in LAST_EXC and the pc in U_EXC_PC, counts
it, saturating, sets ISA.FAULT.EXCEPTION, leaves every register, predicate, tag and byte of memory as it was, and raises
ISA_EXCEPTION. A running unit with a handler goes on at the handler with STATE 0b10 and will resume after the instruction;
a unit in its handler, or without one, halts with STATE 0b11. (R252, R254, R287.) -/
def Obligations.ExceptionEntry : Prop :=
  ∀ (u : UnitId) (c : Nat) (wide : Bool) (s : State), fenceHeld u s = false → c < 256 → s.units[u].pc < 2 ^ 32 →
    let t := takeExc u c wide s
    getF (F.isaUStateLastExc u) t = c ∧ getF (F.isaUExcPcPc u) t = s.units[u].pc ∧
    getF (F.isaUCountExcCount u) t = min 65535 (getF (F.isaUCountExcCount u) s + 1) ∧
    getF F.isaFaultException t = 1 ∧
    t.units[u].s = s.units[u].s ∧ t.units[u].v = s.units[u].v ∧ t.units[u].p = s.units[u].p ∧
    t.units[u].tags = s.units[u].tags ∧ sameMem s t ∧
    (∃ rest, t.ev.queue = s.ev.queue ++ (⟨0x2101, 6, u, c + s.units[u].pc % 2 ^ 24 * 256, s.time⟩ :: rest)) ∧
    (∀ h, getF (F.isaUStateState u) s = 1 → s.units[u].handler = some h →
      getF (F.isaUStateState u) t = 2 ∧ t.units[u].pc = h % codeSize u ∧
      t.units[u].retPc = (s.units[u].pc + (if wide then 2 else 1)) % codeSize u) ∧
    (getF (F.isaUStateState u) s = 2 ∨ s.units[u].handler = none →
      getF (F.isaUStateState u) t = 3 ∧ t.units[u].pc = s.units[u].pc)

/-- When a LOAD in flight under a tag finishes, the device being live and every word it touches passing parity, the next state
has the loaded value in its destination (a word, halfword or byte extended as the form says, read low byte first; a pair;
or 32 lanes; s0 discards), the tag DONE_OK, every other scalar register as before, and every byte of memory as before.
When a STORE of n bytes in flight under a tag finishes, the device being live and the memory canonical, the next state
reads the low n bytes of its data, low byte first, at the n addresses from the unit's memory base plus the access's
address, every other byte of memory as before, the tag DONE_OK, and no scalar register has changed. (R8, R245, R271, R274,
R275.) -/
def Obligations.AccessCompletionResult : Prop :=
  (∀ (u : UnitId) (t : Tag) (o : MemOp) (s : State), live s = true →
    (s.units[u].ops.find? fun o => o.tag = t) = some o → s.units[u].tags[t] = .busy →
    let a := storeBase u + o.addr
    let clean (n : Nat) : Prop := ∀ w ∈ wordsOf a n, badAt w s = false
    (∀ n signed d, o.kind = .ld n signed d → clean n →
      ∃ s', exec (.loadComplete u t) s = .next s' ∧
        getS u d s' = (if d = 0 then 0 else extendBytes n signed (readPart s.mem a n)) ∧
        (∀ r, r ≠ d → getS u r s' = getS u r s) ∧ s'.units[u].tags[t] = .doneOk ∧ sameMem s s') ∧
    (∀ d, o.kind = .ldD d → clean 8 →
      ∃ s', exec (.loadComplete u t) s = .next s' ∧ getS u d s' = (if d = 0 then 0 else readW s.mem a) ∧
        getS u (regSucc d) s' = (if regSucc d = 0 then 0 else readW s.mem (a + 4)) ∧
        (∀ r, r ≠ d → r ≠ regSucc d → getS u r s' = getS u r s) ∧ s'.units[u].tags[t] = .doneOk ∧ sameMem s s') ∧
    (∀ d, o.kind = .ldV d → clean 128 →
      ∃ s', exec (.loadComplete u t) s = .next s' ∧ (∀ k : Fin 32, (getV u d s')[k] = readW s.mem (a + 4 * k)) ∧
        (∀ r, getS u r s' = getS u r s) ∧ s'.units[u].tags[t] = .doneOk ∧ sameMem s s')) ∧
  ∀ (u : UnitId) (t : Tag) (o : MemOp) (n : Nat) (ws : List Word) (s : State), live s = true → Memory.wf s.mem = true →
    (s.units[u].ops.find? fun o => o.tag = t) = some o → s.units[u].tags[t] = .busy → o.kind = .st n ws →
    (n < 4 ∧ ws.length = 1 ∨ n = 4 * ws.length) →
    ∃ s', exec (.loadComplete u t) s = .next s' ∧
      (∀ x, readB s'.mem x =
        if storeBase u + o.addr ≤ x ∧ x < storeBase u + o.addr + n then nth 0 (toBytes ws) (x - (storeBase u + o.addr))
        else readB s.mem x) ∧
      s'.units[u].tags[t] = .doneOk ∧ (∀ r, getS u r s' = getS u r s) ∧ Memory.wf s'.mem = true

/-- Where nothing holds a STREAM back, its endpoint is present and open to the direction, its tag can be taken, its length is
a multiple of 4 from 4 to 65,536 bytes and its window holds it, STREAM.IN and STREAM.OUT answer the next state in which
the tag is BUSY, the transfer (its endpoint, address, place in the window and length) is under way last, the pc has passed
its two words, and nothing else has changed. A FENCE passes and records the tags that are BUSY at its issue. (R224, R225,
R246, R248, R277, R278.) -/
def Obligations.StreamIssue : Prop :=
  (∀ (u : UnitId) (s : State), issues u .tag false [] s →
    exec (.fence u) s = .next (advance u false (modU u (fun e => { e with fence := busyTags e }) s))) ∧
  ∀ (u : UnitId) (q : StreamOp) (n : Tag) (p : Nat) (s : State),
    issues u .stream true (streamRegs q) s → pickTag u (.named q.tag) s = .take n p → epPresent q.ep.toNat s = true →
    let len := streamLen u q.len s
    len % 4 = 0 → 4 ≤ len → len ≤ 65536 → 4 * q.offset.toNat + len ≤ (windowOf u q.win s).2 →
    ∀ out : Bool, epDir q.ep.toNat out = true →
      let x : Xfer := { unit := u, tag := n, out := out, ep := q.ep.toNat, addr := (getS u q.a s).toNat,
                        base := (windowOf u q.win s).1 + 4 * q.offset.toNat, len := len, code := none }
      exec (if out then .streamOut u q else .streamIn u q) s =
        .next (advance u true { setTag u n .busy s with xfers := s.xfers ++ [x] })

/-- TRANSFER_COMPLETE takes the tag of a transfer whose endpoint has answered a code out of BUSY (DONE_OK for code 0, else
DONE_ERR with the code) and forgets the transfers of that tag that were answered; TAG_TIMEOUT ends a BUSY tag of a unit at
work with TIMEOUT (6) and forgets its access and every transfer of it that a cluster reset did not take its tag from; a
non-zero code counts once, saturating, in the unit's TAG_ERR; no byte of memory changes. When a transfer to or from the
store of a placed logical cluster reaches it and still has its tag, the device live, the memory canonical, traffic passing
between the two dies, the bytes inside the store and every source word of good parity, the next state holds at the
destination the words that stood at the source, every byte outside the destination as before, and the transfer ended with
code 0. (R234, R239, R245, R251, R255, R279, R472.) -/
def Obligations.TransfersMoveAndEnd : Prop :=
  (∀ (u : UnitId) (t : Tag) (s : State),
    (∀ x c, live s = true → (s.xfers.find? fun x => x.unit = u && x.tag = t && x.code.isSome) = some x → x.code = some c →
      ∃ s', exec (.transferComplete u t) s = .next s' ∧ s'.units[u].tags[t] = (if c = 0 then .doneOk else .doneErr c) ∧
        (∀ y ∈ s'.xfers, y.unit = u → y.tag = t → y.code = none) ∧
        getF (F.isaUCountTagErr u) s' = (if c = 0 then getF (F.isaUCountTagErr u) s else min 65535 (getF (F.isaUCountTagErr u) s + 1)) ∧
        sameMem s s') ∧
    (live s = true → sorting s = true → s.units[u].tags[t] = .busy →
      ∃ s', exec (.tagTimeout u t) s = .next s' ∧ s'.units[u].tags[t] = .doneErr 6 ∧
        (∀ y ∈ s'.xfers, y.unit = u → y.tag = t → y.lost ≠ none) ∧ (∀ o ∈ s'.units[u].ops, o.tag ≠ t) ∧
        getF (F.isaUCountTagErr u) s' = min 65535 (getF (F.isaUCountTagErr u) s + 1) ∧ sameMem s s')) ∧
  ∀ (u v : UnitId) (t : Tag) (x : Xfer) (s : State), live s = true → Memory.wf s.mem = true →
    firstXfer u t s = some x → x.lost = none →
    clusterAt x.ep s = some v → x.ep ≤ 0x19 → passes (dieOf u) (dieOf v) s = true → x.addr + x.len ≤ 524288 → x.len % 4 = 0 →
    let mine := storeBase u + x.base
    let theirs := storeBase v + x.addr
    let src := if x.out then mine else theirs
    let dst := if x.out then theirs else mine
    (∀ w ∈ wordsOf src x.len, badAt w s = false) →
    ∃ s', exec (.clusterTransfer u t) s = .next s' ∧ readWords s'.mem dst (x.len / 4) = readWords s.mem src (x.len / 4) ∧
      (∀ b, b < dst ∨ dst + x.len ≤ b → readB s'.mem b = readB s.mem b) ∧
      (∃ y ∈ s'.xfers, y.unit = u ∧ y.tag = t ∧ y.code = some 0) ∧ s'.units = s.units

/-- Where nothing holds them back, the offset of a short form fits, and a branch that is taken does not land on an immediate
word: BEQ, BNE, BLT, BGE, BLTU and BGEU go to their target when their comparison holds and past the instruction when not;
JMP, JMPR and RET go to their target, CALL too with the address after itself in s31; LOOP decrements its register (s0
never loops) and goes to its target while it is not zero; RETX in the handler resumes at the kept address with STATE 0b01
and elsewhere only passes. Nothing else changes. (R271, R286, R287.) -/
def Obligations.BranchResult : Prop :=
  ∀ (u : UnitId) (a : Reg) (b : BSrc) (g : Target) (s : State), targetOk g = true →
    let w := targetAbs g
    let go := setPc u (targetAddr u g s)
    let x := getS u a s
    let y := bsrcVal u b s
    let clear := landsOnImm u (targetAddr u g s) s = false
    (issues u .control w (.s a :: bsrcRegs b) s → clear →
      exec (.beq u a b g) s = .next (if x = y then go s else advance u w s) ∧
      exec (.bne u a b g) s = .next (if x ≠ y then go s else advance u w s) ∧
      exec (.blt u a b g) s = .next (if x.toInt < y.toInt then go s else advance u w s) ∧
      exec (.bge u a b g) s = .next (if y.toInt ≤ x.toInt then go s else advance u w s) ∧
      exec (.bltu u a b g) s = .next (if x.toNat < y.toNat then go s else advance u w s) ∧
      exec (.bgeu u a b g) s = .next (if y.toNat ≤ x.toNat then go s else advance u w s)) ∧
    (issues u .control w [] s → clear → exec (.jmp u g) s = .next (go s)) ∧
    (issues u .control w [.s 31] s → clear →
      exec (.call u g) s = .next (go (setS u 31 (BitVec.ofNat 32 ((s.units[u].pc + (if w then 2 else 1)) % codeSize u)) s))) ∧
    (issues u .control w [.s a] s → clear →
      exec (.loop u a g) s =
        .next (let s' := setS u a (x - 1) s; if a ≠ 0 ∧ x - 1 ≠ 0 then go s' else advance u w s')) ∧
    (issues u .control false [.s a] s → landsOnImm u (regTarget u x) s = false →
      exec (.jmpr u a) s = .next (setPc u (regTarget u x) s)) ∧
    (issues u .control false [.s 31] s → landsOnImm u (regTarget u (getS u 31 s)) s = false →
      exec (.ret u) s = .next (setPc u (regTarget u (getS u 31 s)) s)) ∧
    (issues u .control false [] s →
      exec (.retx u) s = .next (if getF (F.isaUStateState u) s = 2 then setPc u s.units[u].retPc (setF (F.isaUStateState u) 1 s)
        else advance u false s))

/-- Where nothing holds them back and the loader accepts their tags: WAIT passes while no named tag is BUSY and else stays,
and leaves the tags unchanged; TAGSTAT writes the tag's state (0x10 FREE, 0x20 BUSY, 0 DONE_OK, the code for DONE_ERR),
frees a finished tag, leaves a BUSY one, and passes; every byte of memory is as before. (R247, R285.) -/
def Obligations.TagInstructionResult : Prop :=
  ∀ (u : UnitId) (w : WaitSel) (d : Reg) (t : Tag) (s : State),
    (issues u .tag false [] s →
      (waitOk u w = true →
        exec (.wait u w) s = .next (if ∃ x ∈ busyTags s.units[u], waitNames w x = true then s else advance u false s))) ∧
    (issues u .tag false [.s d] s → tagOk u t = true →
      ∃ s', exec (.tagstat u d t) s = .next s' ∧
        getS u d s' = (if d = 0 then 0 else
          match s.units[u].tags[t] with | .free => 0x10 | .busy => 0x20 | .doneOk => 0 | .doneErr c => BitVec.ofNat 32 c) ∧
        s'.units[u].tags[t] = (if s.units[u].tags[t] = .busy then .busy else .free) ∧
        (∀ r, r ≠ d → getS u r s' = getS u r s) ∧ (∀ x, x ≠ t → s'.units[u].tags[x] = s.units[u].tags[x]) ∧
        passed u false s s' ∧ sameMem s s')

/-- Where nothing holds them back: STAT of a word with good parity that is no latched pair's word writes the word as it stands
into sD (s0 discards) and changes no status word; EVT.CLR makes zero every RS or RC field of the word that the mask
touches, leaves the other bits of the word and every other word as they were, and both pass the instruction and leave
every byte of memory as it was. A record that arrives at the hub in the order of code, kind and index that one PERIPH
cycle keeps leaves those on their way, stands first in the log and reads as four words in its slot, and EVT_SEQ counts it;
over an unread record EVT_LOST counts one, saturating, and the host's next number moves on by one. No other part of the
state changes. (R16, R260, R288, R443, R447, R450.) -/
def Obligations.StatusAndEventLog : Prop :=
  (∀ (u : UnitId) (d a : Reg) (k : Option Word) (s : State),
    let adr := statAddr u a k s
    (issues u .stat k.isSome [.s d, .s a] s → s.statusBad.contains adr = false → hiOf adr = none →
      (s.latches.find? fun l => l.1 = u.val && l.2.1 = adr) = none →
      writesScalar (.stat u d a k) u d (liveWord adr s) k.isSome s) ∧
    (issues u .stat k.isSome [.s d, .s a] s →
      ∃ t, exec (.evtClr u d a k) s = .next t ∧
        t.word adr = s.word adr &&& ~~~ (clearedBits (fieldsAt s.opt adr) (getS u d s)) ∧
        (∀ b, b ≠ adr → t.word b = s.word b) ∧ t.units = (advance u k.isSome s).units ∧ sameMem s t)) ∧
  ∀ (i : Nat) (r : EvRec) (s : State), clocked s = true → s.ev.queue[i]? = some r → inOrder r s = true →
    let n := getF F.intEvtSeqSeq s
    let full := unread s = 256
    ∃ t, exec (.eventLogEntry i) s = .next t ∧ t.ev.log = (r :: s.ev.log).take 256 ∧
      getF F.intEvtSeqSeq t = (n + 1) % 2 ^ 32 ∧ (full → t.ev.queue.take (s.ev.queue.length - 1) = s.ev.queue.eraseIdx i) ∧
      (¬ full → t.ev.queue = s.ev.queue.eraseIdx i) ∧
      (∀ w, w < 4 → liveWord (ringBase + 16 * (n % 256) + 4 * w) t = recWord r w ∧
        t.statusBad.contains (ringBase + 16 * (n % 256) + 4 * w) = false) ∧
      getF F.intEvtLostLost t = (if full then min (2 ^ 32 - 1) (getF F.intEvtLostLost s + 1) else getF F.intEvtLostLost s) ∧
      getF F.intEvtHostNext t = (if full then (getF F.intEvtHostNext s + 1) % 2 ^ 32 else getF F.intEvtHostNext s) ∧
      t = { s with ev := t.ev, status := t.status, statusBad := t.statusBad }

/-- Where nothing holds an EJECT of a register block back: with a band of the option and a valve of the option (or NONE) it
answers the next state in which each actuator die that the command goes to (the valve's, and with DONE every other die,
which takes the DONE alone) has the command last among its messages where a path leads there, and else counts it in
DROP_LINK; the pc has passed the instruction, and no register, no tag and no byte of memory has changed. With a field out
of range it raises cause 7. DROP_LINK counting at the sending side where no path leads to the die (assumption 96), and the
messages that travel in order (assumption 13), are the model's choice. (R250, R280, R281, R284, R307, Table 13.6.) -/
def Obligations.EjectIssue : Prop :=
  ∀ (u : UnitId) (n : Reg) (s : State), isBlock n = true → issues u .event false ((blockRegs n).map .s) s →
    let b := getBlock u n s
    (ejectOk b s = true →
      ∃ t, exec (.eject u n) s = .next t ∧
        (∀ d : Fin 2, t.msgs[d] = s.msgs[d] ++
          ((ejectDies b s).filter fun x => x.1 = d && reach (dieOf u) (6 + d.val) s).map fun x => Msg.eject u x.2 b) ∧
        (∀ d : Fin 2, getF (F.ejtDropLinkDropLink d) t = min (2 ^ 32 - 1) (getF (F.ejtDropLinkDropLink d) s +
          ((ejectDies b s).filter fun x => x.1 = d && !reach (dieOf u) (6 + d.val) s).length)) ∧
        passed u false s t ∧ (∀ r, getS u r t = getS u r s) ∧ t.units[u].tags = s.units[u].tags ∧ t.ejt = s.ejt ∧ sameMem s t) ∧
    (ejectOk b s = false → exec (.eject u n) s = .next (takeExc u 7 false s))

/-- When an EJECT is the first message of a running actuator die and no link of its path is being moved, it leaves the
messages, and the LAMPs and SHUTTERs then in front act. Without its complement it sets FAULT.COMPLEMENT, counts in
COMPLEMENT and changes no valve. Well formed, for an OPEN line before its bound: it leaves no shot where it is NONE or
brings the DONE alone; else its shot counts in DROP_SUPPLY with VIN Over, is refused (REFUSED.CMD, EJT_REFUSED of the
valve) where HOLD is outside 1 to 25,500, the profile is not loaded or the valve disabled, refused (REFUSED.WARM) on a
WARM line, dropped (DROP_QUEUE, EJT_DROPPED of the valve) with eight shots queued, and else stands last in its valve's
queue, uncommitted; no other channel changes. With DONE the line then is DECIDED: no shot of it stays uncommitted on the
die, and each whose last start lies ahead stands with its energise time and last start, where its valve runs or is free by
then. A malformed command, or one of a line of which no notice was held, is refused. For a line that is DECIDED or
DEFAULTED, or was once kept, it changes no valve and counts once in LATE_DECISION. For an OPEN line whose bound has come
the deadline monitor acts first and the command is late: an EJECT at exactly the bound is late by the model's choice
(assumption 121). Where its path has no working link left the EJECT is lost by the model's choice (assumption 18) and
counts in DROP_LINK (assumption 96, the model's choice, as is DROP_SUPPLY before step 5). (R51, R282, R298, R299, R300,
R307, Table 13.4.) -/
def Obligations.EjectAcceptance : Prop :=
  ∀ (d : Fin 2) (u : UnitId) (o : Bool) (b : List Word) (rest : List Msg) (s : State),
    let e := Msg.eject u o b
    s.msgs[d] = e :: rest → arrives d e s = true →
    let m := { s with msgs := s.msgs.set d rest }
    let ends (p : State → Prop) : Prop := ∃ t, exec (.ejectArrival d) s = .next (drainMsgs d t) ∧ p t
    let late : Fld := F.stcLateDecisionLateDecision
    let v := cValve b
    let n := cLine b
    let x : Shot := { band := (cBand b).val, line := n, start := cStart b, prof := cProf b, hold := cHold b, times := none }
    let ok := 1 ≤ cHold b ∧ cHold b ≤ 25500 ∧ profileLoaded d (cProf b) s = true ∧ valveEnabled v s = true
    let shot (k : Kept) (t : State) : Prop :=
      (o = true ∨ cNone b = true → t = m) ∧
      (o = false → cNone b = false → valveDie v = d →
        (vinOver s = true → t = bump (F.ejtDropSupplyDropSupply d) m) ∧
        (vinOver s = false → ¬ ok → t = raiseLim 0x3002 4 v 0 (bump (F.ejtRefusedCmd d) m)) ∧
        (vinOver s = false → ok → k.note.warm = true → t = bump (F.ejtRefusedWarm d) m) ∧
        (vinOver s = false → ok → k.note.warm = false →
          (8 ≤ s.ejt.chans[v].queue.length → t = raiseLim 0x3003 4 v 0 (bump (F.ejtDropQueueDropQueue d) m)) ∧
          (s.ejt.chans[v].queue.length < 8 → t = { m with status := t.status, ejt := t.ejt } ∧
            t.ejt.chans[v].queue = s.ejt.chans[v].queue ++ [x] ∧ t.ejt.dies = s.ejt.dies ∧
            ∀ w, w ≠ v → t.ejt.chans[w] = s.ejt.chans[w])))
    let open_ (y : Shot) : Prop := y.band = (cBand b).val ∧ y.line = n ∧ y.times = none
    let decided (k : Kept) (m t : State) : Prop :=
      lineKept d (cBand b) n t = some { k with st := .decided } ∧
      t = { m with ejt := t.ejt, status := t.status, ev := t.ev } ∧
      ∀ w, (valveDie w ≠ d → t.ejt.chans[w] = m.ejt.chans[w]) ∧
        (valveDie w = d → (∀ y ∈ t.ejt.chans[w].queue, ¬ open_ y) ∧
          ∀ y ∈ m.ejt.chans[w].queue, open_ y →
            let z := shotTimes w y m
            let off := 10000 * offMin d m
            (m.time : Int) ≤ z.2 → energised w m = true ∨ readyAt w z.1 off m ≤ z.2 →
            { y with times := some (z.1, z.2, off) } ∈ t.ejt.chans[w].queue)
    (lostOnWay d e s = true → ends fun t => t = bump (F.ejtDropLinkDropLink d) m) ∧
    (lostOnWay d e s = false → complementOk b = false → ends fun t => t = { m with status := t.status, ev := t.ev } ∧
      getF (F.ejtFaultComplement d) t = 1 ∧
      getF (F.ejtComplementComplement d) t = min (2 ^ 32 - 1) (getF (F.ejtComplementComplement d) s + 1)) ∧
    (lostOnWay d e s = false → complementOk b = true →
      (ejectMalformed b = true → ends fun t => t = refuseCmd d m) ∧
      (ejectMalformed b = false →
        (lineKept d (cBand b) n s = none →
          ends fun t => t = if lineOlder d (cBand b) n s then bump late m else refuseCmd d m) ∧
        ∀ k, lineKept d (cBand b) n s = some k →
          (k.st = .open_ → s.time < k.note.bound →
            ∃ r, shot k r ∧ ends fun t => if cDone b = true then decided k r t else t = r) ∧
          (k.st = .open_ → k.note.bound ≤ s.time → ends fun t => t = bump late (boundPass d (cBand b) k m)) ∧
          (k.st ≠ .open_ → ends fun t => t = bump late m)))

/-- The first line notice on its way to a running actuator die, while no link of its path is being moved, leaves those on
their way and is kept there as the newest of its band, of at most 32: as an OPEN line, with nothing else changed, where
the line is not blind; a blind line is DEFAULTED at once and counts nothing in STC.DEADLINE_DEFAULT. When the bound
instant of an OPEN line has come it is DEFAULTED; STC.DEADLINE_DEFAULT counts the line unless it is blind or already
counted, and no byte of memory changes. A line that is DEFAULTED has its uncommitted shots gone from the queues and
counted in DISCARDED. Where the image gives the band no default no other shot comes or goes. Under ALL, with VIN not Over,
HOLD 1 to 25,500, the profile loaded and the line not WARM, each enabled valve of the die in the band whose queue then is
below eight takes one shot that counts in DEFAULT_SHOTS: START is the view-line time plus the declared fall time, with the
declared profile and hold, and it stands committed, with its energise time and last start, where its last start lies ahead
and its valve runs or is free by then. Valves outside the band only lose the line's uncommitted shots. That the valves of
band b are 8b to 8b + 7 is the model's choice (assumption 23). (R257, R297, R299, R300, R168.) -/
def Obligations.LineNotices : Prop :=
  ∀ (d : Fin 2) (s : State), clocked s = true → adUp d s = true →
    let defaulted (b : Fin 16) (k : Kept) (m t : State) : Prop :=
      let n := k.note.n
      let left (w : Valve) : List Shot := m.ejt.chans[w].queue.filter fun y => !(y.band = b.val && y.line = n && y.times.isNone)
      let mine (w : Valve) : Bool := valveDie w = d && w.val / 8 = b.val
      lineKept d b n t = some { k with st := .defaulted } ∧ lineShots d b n t = [] ∧
      getF (F.ejtDefaultDiscarded d) t = min 65535 (getF (F.ejtDefaultDiscarded d) m + (lineShots d b n m).length) ∧
      (∀ w, valveDie w = d → mine w = false → t.ejt.chans[w].queue = left w) ∧
      (∀ w, valveDie w ≠ d → t.ejt.chans[w] = m.ejt.chans[w]) ∧
      (bandDefault b m = .none →
        getF (F.ejtDefaultDefaultShots d) t = getF (F.ejtDefaultDefaultShots d) m ∧ ∀ w, mine w = true → t.ejt.chans[w].queue = left w) ∧
      ∀ fall prof hold, bandDefault b m = .all fall prof hold → vinOver m = false → 1 ≤ hold → hold ≤ 25500 →
        profileLoaded d prof m = true → k.note.warm = false →
        let takes (w : Valve) : Bool := mine w && valveEnabled w m && decide ((left w).length < 8)
        getF (F.ejtDefaultDefaultShots d) t =
          min 65535 (getF (F.ejtDefaultDefaultShots d) m + ((List.finRange 128).filter takes).length) ∧
        ∀ w, takes w = true →
          let x : Shot := { band := b.val, line := n, start := k.note.view + fall, prof := prof, hold := hold, times := none }
          let z := shotTimes w x m
          let off := 10000 * offMin d m
          (m.time : Int) ≤ z.2 → energised w m = true ∨ readyAt w z.1 off m ≤ z.2 →
          { x with times := some (z.1, z.2, off) } ∈ t.ejt.chans[w].queue
    (∀ x rest, s.ejt.dies[d].coming = x :: rest → x.band < 16 →
      arrivesFrom (if dieUp (asmDie s.opt) s then asmDie s.opt else 0) d s = true →
      ∃ m : State, m = { s with ejt := m.ejt } ∧ m.ejt.chans = s.ejt.chans ∧ m.ejt.counted = s.ejt.counted ∧
        m.ejt.dies[d].coming = rest ∧
        (∀ c : Fin 16, m.ejt.dies[d].bands[c].kept =
          (if c.val = x.band then (⟨x, .open_⟩ :: s.ejt.dies[d].bands[c].kept).take 32 else s.ejt.dies[d].bands[c].kept)) ∧
        (∀ e, e ≠ d → m.ejt.dies[e] = s.ejt.dies[e]) ∧
        (x.blind = false → exec (.lineNotice d) s = .next m) ∧
        (x.blind = true → ∃ t, exec (.lineNotice d) s = .next t ∧ defaulted (Fin.ofNat 16 x.band) ⟨x, .open_⟩ m t ∧
          getF F.stcDeadlineDefaultDeadlineDefault t = getF F.stcDeadlineDefaultDeadlineDefault s ∧
          t.units = s.units ∧ sameMem s t)) ∧
    (∀ (b : Fin 16) (n : BitVec 24) (k : Kept), lineKept d b n.toNat s = some k → k.st = .open_ → k.note.bound ≤ s.time →
      ∃ t, exec (.lineBoundPass d b n) s = .next t ∧ defaulted b k s t ∧
        getF F.stcDeadlineDefaultDeadlineDefault t =
          (if k.note.blind ∨ (b.val, n.toNat, k.note.bound) ∈ s.ejt.counted then getF F.stcDeadlineDefaultDeadlineDefault s
           else min (2 ^ 32 - 1) (getF F.stcDeadlineDefaultDeadlineDefault s + 1)) ∧
        t.units = s.units ∧ sameMem s t)

/-- When the committed shot that waits at a valve of a running die outside the safe state, VIN not Over, has its last start
ahead, a peak place and the first turn, and the valve stays enabled by the clamp check of a quench still under way, it
leaves the queue and runs in peak from now, to the earlier of HOLD and MAX_ON, with the words of its profile variant, and
CYCLES counts. A shot whose last start has passed while it waits for a peak place counts in DROP_PEAK and shortens its
queue. At the last start of uncommitted shots none whose last start has passed stays in a queue of the die. Other channels
stay as before. (R295, R300, R304.) -/
def Obligations.ShotEnergiseResult : Prop :=
  ∀ (v : Valve) (d : Fin 2) (s : State), clocked s = true →
    (∀ x e l off, adUp (valveDie v) s = true → waitingShot v s = some (x, e, l, off) →
      (inSafe s = false → (s.time : Int) ≤ l → peakPlace v s = true → firstWaiting v e s = true → vinOver s = false →
        valveEnabled v (clampCheck v s) = true →
        ∃ t r, exec (.shotEnergise v) s = .next t ∧ t.ejt.chans[v].run = some r ∧
          r.w = profileWords (valveDie v) (variantOf v x.prof s) s ∧ r.at_ = s.time ∧
          r.stop = s.time + 1000 * min x.hold (100 * bits (nth 0 r.w 1) 14 7) ∧ r.inPeak = true ∧ r.search = true ∧
          t.ejt.chans[v].queue = eraseShot x s.ejt.chans[v].queue ∧
          getF (F.ejtVStateLastProfile (valveDie v) (valveChan v)) t = variantOf v x.prof s ∧
          getF (F.ejtVCyclesCycles (valveDie v) (valveChan v)) t =
            min (2 ^ 32 - 1) (getF (F.ejtVCyclesCycles (valveDie v) (valveChan v)) s + 1) ∧
          (∀ w, w ≠ v → t.ejt.chans[w] = s.ejt.chans[w]) ∧ t.units = s.units ∧ sameMem s t) ∧
      (l < (s.time : Int) →
        ∃ t, exec (.peakWaitLastStart v) s = .next t ∧
          getF (F.ejtDropPeakDropPeak (valveDie v)) t = min (2 ^ 32 - 1) (getF (F.ejtDropPeakDropPeak (valveDie v)) s + 1) ∧
          t.ejt.chans[v].queue.length < s.ejt.chans[v].queue.length ∧ (∀ w, w ≠ v → t.ejt.chans[w] = s.ejt.chans[w]) ∧
          t = { s with ejt := t.ejt, status := t.status, ev := t.ev })) ∧
    (adUp d s = true →
      ∃ t, exec (.uncommittedLastStart d) s = .next t ∧
        (∀ w ∈ valvesOf d, ∀ x ∈ t.ejt.chans[w].queue, x.times = none → (s.time : Int) ≤ (shotTimes w x s).2) ∧
        (∀ w, valveDie w ≠ d → t.ejt.chans[w] = s.ejt.chans[w]) ∧ t = { s with ejt := t.ejt, status := t.status, ev := t.ev })

/-- For a valve whose shot runs, the clocks running: the end of its peak, by PEAK_TIME or under PEAK_MODE = 1 by a comparator
reading that reaches PEAK, switches the channel off, begins its hold now and ends its dip search. A dip in the envelopes
of the samples shows LAST_RESULT 1, resets the row of NO_MOTION, and moves the learned lag by its LEARN share, rounded
once, or begins it at the lag found where none is stored (the model's choice, assumption 62); a search whose window has
ended, or whose peak has chopped, ends in that way where it has found a dip, and else counts in NO_MOTION and shows
LAST_RESULT 2. When its HOLD or MAX_ON has come the shot ends: nothing runs, the end is kept, MAXON counts where MAX_ON
set it, and VHSg stays on for its quench only where QUENCH is 1 and no other member is energised. A quench whose current
has fallen below 20 mA ends with VHSg released. Other channels stay as before. (R295, R296, R301, R302.) -/
def Obligations.ShotPhases : Prop :=
  ∀ (v : Valve) (s : State), clocked s = true →
    let d := valveDie v
    let k := valveChan v
    let others (t : State) : Prop := ∀ w, w ≠ v → t.ejt.chans[w] = s.ejt.chans[w]
    (∀ x : Int, s.ejt.chans[v].quench = true → x < 2560 →
      ∃ t, exec (.quenchEnd v x) s = .next t ∧ t.ejt.chans[v] = { s.ejt.chans[v] with quench := false } ∧ others t ∧
        t = { s with ejt := t.ejt, status := t.status }) ∧
    ∀ r, s.ejt.chans[v].run = some r →
      (∀ c : Option Int, r.inPeak = true →
        (match c with
          | some x => bit (nth 0 r.w 0) 14 = true ∧ (1000 * bits (nth 0 r.w 0) 23 15 : Int) ≤ x
          | none => r.at_ + 1000 * bits (nth 0 r.w 0) 13 3 ≤ s.time) →
        ∃ t, exec (.peakEnd v c) s = .next t ∧
          t.ejt.chans[v].run = some { r with inPeak := false, search := false, on := false, holdAt := s.time } ∧ others t ∧
          t = { s with ejt := t.ejt, status := t.status, ev := t.ev }) ∧
      (r.search = true →
        (dipOf v s = none → (r.chopped = true ∨ r.at_ + 1000 * bits (nth 0 r.w 2) 19 8 ≤ s.time) →
          ∃ t, exec (.dipSearchEnd v) s = .next t ∧ t.ejt.chans[v].run = some { r with search := false } ∧
          t.ejt.chans[v].noMotion = s.ejt.chans[v].noMotion + 1 ∧ getF (F.ejtVStateLastResult d k) t = 2 ∧
          getF (F.ejtVCountNoMotion d k) t = min 65535 (getF (F.ejtVCountNoMotion d k) s + 1) ∧ others t) ∧
        ∀ lag, dipOf v s = some lag →
          ((r.chopped = true ∨ r.at_ + 1000 * bits (nth 0 r.w 2) 19 8 ≤ s.time) →
            exec (.dipSearchEnd v) s = exec (.dipDetected v) s) ∧
          ∃ t, exec (.dipDetected v) s = .next t ∧ t.ejt.chans[v].run = some { r with search := false } ∧
            t.ejt.chans[v].noMotion = 0 ∧ getF (F.ejtVStateLastResult d k) t = 1 ∧ others t ∧
            t.ejt.chans[v].lag = some (match s.ejt.chans[v].lag with
              | some m => m + rneDiv ((lag : Int) - 250 * m) (250 * 2 ^ learnExp d s)
              | none => rneDiv lag 250)) ∧
      (r.stop ≤ s.time →
        ∃ t, exec (.shotEnd v) s = .next t ∧ t.ejt.chans[v].run = none ∧ t.ejt.chans[v].stopped = some s.time ∧
          t.ejt.chans[v].quench =
            (bit (nth 0 r.w 1) 15 && !(groupValves (groupOfValve v)).any fun w => w ≠ v && energised w s) ∧
          getF (F.ejtVCountMaxon d k) t =
            (if r.byMax then min 65535 (getF (F.ejtVCountMaxon d k) s + 1) else getF (F.ejtVCountMaxon d k) s) ∧
          others t ∧ t.units = s.units ∧ sameMem s t)

/-- The clocks running: a valve whose current is still below 50 mA 200 µs after it was energised, an energised valve whose
current is 2.4 A or more, and every valve of a group whose high side fails while it is on, ends its shot, empties its
queue, is disabled (ENABLED 0) and shows its fault (1, 2 or 4); valves outside stay as before. At each update of a running
die, each of its valves takes the R25 accepted and, where that is not zero, moves its temperature estimate, which before
the first update is the die's, by the drive's formula; and valves of the other die stay as before. The estimate before the
first update, and the mean over the samples that are kept, are the model's choice (assumption 24). (R303, R306.) -/
def Obligations.ValveFaultsAndCoils : Prop :=
  ∀ (v : Valve) (g : Fin 16) (d : Fin 2) (s : State), clocked s = true →
    let off (w : Valve) (c : Nat) (t : State) : Prop :=
      t.ejt.chans[w].run = none ∧ t.ejt.chans[w].queue = [] ∧ getF (F.ejtVStateEnabled (valveDie w) (valveChan w)) t = 0 ∧
        getF (F.ejtVStateFault (valveDie w) (valveChan w)) t = c
    (energised v s = true →
      (∀ x : Int, s.ejt.chans[v].run.all (fun r => decide (r.at_ + 200000 ≤ s.time)) = true → x < 6400 →
        ∃ t, exec (.valveOpenFault v x) s = .next t ∧ off v 1 t ∧ (∀ w, w ≠ v → t.ejt.chans[w] = s.ejt.chans[w]) ∧
        t = { s with ejt := t.ejt, status := t.status, ev := t.ev }) ∧
      (∀ x : Int, 307200 ≤ x → ∃ t, exec (.valveShortFault v x) s = .next t ∧ off v 2 t ∧ (∀ w, w ≠ v → t.ejt.chans[w] = s.ejt.chans[w]) ∧
        t = { s with ejt := t.ejt, status := t.status, ev := t.ev })) ∧
    (highSideOn g s = true →
      ∃ t, exec (.highSideFault g) s = .next t ∧ (∀ w ∈ groupValves g, off w 4 t) ∧
        (∀ w, groupOfValve w ≠ g.val → t.ejt.chans[w] = s.ejt.chans[w]) ∧
        t = { s with ejt := t.ejt, status := t.status, ev := t.ev }) ∧
    (adUp d s = true →
      ∃ t, exec (.coilModelUpdate d) s = .next t ∧
        (∀ w ∈ valvesOf d, t.ejt.chans[w].r25 = s.ejt.chans[w].r25Next) ∧
        (∀ w ∈ valvesOf d, s.ejt.chans[w].r25Next ≠ 0 →
          let th := thetaOf w s
          let w1 := s.word (F.ejtDieCfg1 d)
          let res : Rat := (s.ejt.chans[w].r25Next : Rat) / 100 * (1 + (th - 25) * 393 / 100000)
          let sq := meanRat ((csnChanOf w s).samples.map fun x => ampere x.1 * ampere x.1)
          t.ejt.chans[w].theta =
            some (th + ((tAd d s + sq * res * (bits w1 15 8 : Nat)) - th) / (1000 * (bits w1 7 0 : Nat)))) ∧
        (∀ w, valveDie w ≠ d → t.ejt.chans[w] = s.ejt.chans[w]) ∧ t = { s with ejt := t.ejt, status := t.status })

/-- A record that reaches its die: a valid die record stands in DIE_CFG0 and DIE_CFG1, a valid profile in its three words with
LOADED 1, and valid valve entries set AIR, R25, COMM and ENABLED of each channel they name, and each ends with code 0; an
invalid one of the same TYPE sets FAULT.SETTINGS_REFUSED and ends with code 1, and takes no effect beyond that and its
event. (R279, R293, R294.) -/
def Obligations.EjectorSettings : Prop :=
  ∀ (u : UnitId) (t : Tag) (x : Xfer) (s : State), recordAt u t ejtEp x s → passes (dieOf u) (6 + (ejtEpDie x.ep).val) s = true →
    let d := ejtEpDie x.ep
    let ws := sourceWords x s
    let h := nth 0 ws 0
    let fault := F.ejtFaultSettingsRefused d
    (bits h 31 28 = 0 →
      (dieRecordOk ws = true → takesRecord (.ejtCtlDie u t) u t s fun r =>
        r.word (F.ejtDieCfg0 d) = h ∧ r.word (F.ejtDieCfg1 d) = nth 0 ws 1 ∧
          wordsBut [F.ejtDieCfg0 d, F.ejtDieCfg1 d] s r ∧ r.ejt = s.ejt) ∧
      (dieRecordOk ws = false → refusesRecord (.ejtCtlDie u t) u t fault s)) ∧
    (bits h 31 28 = 1 →
      let p := bits h 27 24
      (profileOk ws = true → takesRecord (.ejtCtlProfile u t) u t s fun r =>
        profileWords d p r = ws ∧ profileLoaded d p r = true ∧ r.ejt = s.ejt ∧
          wordsBut [F.ejtProfileW0 d p, F.ejtProfileW1 d p, F.ejtProfileW2 d p, F.ejtProfileState d p] s r) ∧
      (profileOk ws = false → refusesRecord (.ejtCtlProfile u t) u t fault s)) ∧
    (bits h 31 28 = 2 →
      (valveEntriesOk ws = true → takesRecord (.ejtCtlValves u t) u t s fun r =>
        (∀ i, i < bits h 21 15 →
          let a := nth 0 ws (1 + 2 * i)
          let b := nth 0 ws (2 + 2 * i)
          let k := bits h 27 22 + i
          let c := r.ejt.chans[(Fin.ofNat 128 (64 * d.val + k) : Valve)]
          c.air = bits a 29 16 ∧ c.r25Next = bits a 15 0 ∧ getF (F.ejtVStateEnabled d k) r = b2n (bit a 31) ∧
            getF (F.ejtVDipComm d k) r = bits b 31 16) ∧
        ∀ v : Valve, (∀ i, i < bits h 21 15 → v.val ≠ 64 * d.val + bits h 27 22 + i) → r.ejt.chans[v] = s.ejt.chans[v]) ∧
      (valveEntriesOk ws = false → refusesRecord (.ejtCtlValves u t) u t fault s))

/-- A LAMP with operands in range, nothing holding it back and its die reachable, stands last among the messages to its die,
of which the LAMPs and SHUTTERs in front act; where none waits and no link of the path is being moved it stages its value
for the item at once (the model's choice, assumption 105) and leaves every other staged value. A LATCH that arrives whole
at a running die, at most 60 s ahead, waits there (STAGED 1), counts LATE when its time is past and SUPERSEDED when
another waited; one whose path is gone is lost by the model's choice (assumption 18) and counts in EVENT_LOST, once for
the LATCH where the same one goes to the other die also. When its application point comes the staged die record and the
staged currents and duties of each string of the die come into force, those not staged stay, LAST_ID and LATCH_TIME show
it, nothing waits, and in PWM mode a new period starts. The decay of a stopped string ends. No byte of memory changes.
(R283, R284, R312, R320, R321.) -/
def Obligations.LampAndLatch : Prop :=
  ∀ (u : UnitId) (a : Reg) (b : Src) (d : Fin 2) (n : Strng) (s : State),
    (let w := getS u a s
     let e := strDie (lampString w)
     let key := 16 * (strIdx (lampString w)).val + bits w 3 0
     issues u .event (srcImm b) (.s a :: srcRegs b) s → lampOk w (srcVal u b s) s = true → reach (dieOf u) (6 + e.val) s = true →
      exec (.lamp u a b) s =
        .next (advance u (srcImm b) (drainMsgs e (sendMsg e (.lamp u key (srcVal u b s).toNat) s))) ∧
      (s.msgs[e] = [] → held (dieOf u) (6 + e.val) s = false →
        ∃ t, exec (.lamp u a b) s = .next t ∧ passed u (srcImm b) s t ∧ (∀ r, getS u r t = getS u r s) ∧
          (∀ k, assoc t.lum[e].stage k = if k = key then some (srcVal u b s).toNat else assoc s.lum[e].stage k) ∧
          t = { s with units := t.units, lum := t.lum })) ∧
    (clocked s = true → adUp d s = true →
      (∀ v told m rest, s.msgs[d] = .latch v told m :: rest → arrives d (.latch v told m) s = true →
        lostOnWay d (.latch v told m) s = true →
        ∃ t, exec (.latchArrival d) s = .next (drainMsgs d t) ∧
          getF F.isaEventLostLost t =
            (if told then getF F.isaEventLostLost s else min (2 ^ 32 - 1) (getF F.isaEventLostLost s + 1)) ∧
          t.msgs[d] = rest ∧ (∀ e, e ≠ d → t.msgs[e] = if told then s.msgs[e] else tellTwin v m s.msgs[e]) ∧
          t = { s with msgs := t.msgs, status := t.status, ev := t.ev }) ∧
      (∀ v told m rest, s.msgs[d] = .latch v told m :: rest → arrives d (.latch v told m) s = true →
        lostOnWay d (.latch v told m) s = false → complementOk m = true → latchTime m ≤ s.time + 60000000000 →
        ∃ t, exec (.latchArrival d) s = .next (drainMsgs d t) ∧ t.msgs = s.msgs.set d rest ∧
          t.lum[d].latch = some ⟨latchTime m, latchId m⟩ ∧ t.lum[d].stage = s.lum[d].stage ∧ getF (F.lumDieStateStaged d) t = 1 ∧
          getF (F.lumLatchCountLate d) t =
            min 65535 (getF (F.lumLatchCountLate d) s + b2n (decide (latchTime m < s.time))) ∧
          getF (F.lumLatchCountSuperseded d) t =
            min 65535 (getF (F.lumLatchCountSuperseded d) s + b2n s.lum[d].latch.isSome) ∧
          t = { s with msgs := t.msgs, lum := t.lum, status := t.status, ev := t.ev }) ∧
      (∀ l, s.lum[d].latch = some l → latchPoint d l.time s = true →
        ∃ t, exec (.latchApply d) s = .next t ∧ t.lum[d].latch = none ∧ t.lum[d].stage = s.lum[d].stage ∧
          getF (F.lumDieStateStaged d) t = 0 ∧ getF (F.lumDieStateLastId d) t = l.id % 65536 ∧
          getF (F.lumLatchTimeLoTime d) t = s.time % 2 ^ 32 ∧ getF (F.lumLatchTimeHiTime d) t = s.time / 2 ^ 32 % 2 ^ 32 ∧
          (∀ x, s.lum[d].record = some x → t.word (F.lumDieCfg0 d) = x.1 ∧ t.word (F.lumDieCfg1 d) = x.2) ∧
          (inMatrix d t = false → t.lum[d].period = some s.periph) ∧
          (∀ m ∈ strsOf d,
            let j := strIdx m
            let put (i : Nat) (f : Fld) : Prop := getF f t =
              match assoc s.lum[d].stage (16 * j.val + i) with
              | some x => x % 65536
              | none => getF f s
            (∀ k : Fin 10, put k (dutyFld m k)) ∧ put 10 (F.lumSSetDuty d j) ∧ put 11 (F.lumSSetISet d j)) ∧
          t = { s with lum := t.lum, status := t.status })) ∧
    (clocked s = true → strRunning n s = false → (s.lum[strDie n].strs[strIdx n]).decaying = true →
      ∃ t, exec (.regulatorDecayEnd n) s = .next t ∧ (t.lum[strDie n].strs[strIdx n]).decaying = false ∧
        t = { s with lum := t.lum })

/-- A valid die record that reaches its die is staged there; a valid string record stands in the four CFG words of its string,
and with ENABLE clears FAULT and HEADROOM and, where the string could not run, waits for a period, without it clears
ENABLED and RUNNING; an invalid one is refused. When a PWM period is due, or OFFSET after a line-slot start without a
matrix cycle yet, one starts: each string of a running die shows its effective current, and RUNNING is 1 exactly where the
string is enabled (or waited to be), has no fault but that of its thermistor, a current, lit cycles (a place in the mask
of line 0), and lamps may light; no byte of memory changes. (R313, R314, R315, R317, R318.) -/
def Obligations.LampSettingsAndPeriods : Prop :=
  (∀ (u : UnitId) (t : Tag) (x : Xfer) (s : State), recordAt u t lumEp x s → passes (dieOf u) (6 + (lumEpDie x.ep).val) s = true →
    let d := lumEpDie x.ep
    let ws := sourceWords x s
    let a := nth 0 ws 0
    let fault := F.lumFaultSettingsRefused d
    (bits a 31 28 ≠ 1 →
      (lumDieOk ws = true → takesRecord (.lumDieRecord u t) u t s fun r =>
        r.lum[d].record = some (a, nth 0 ws 1) ∧ r.lum[d].stage = s.lum[d].stage ∧ r.status = s.status) ∧
      (lumDieOk ws = false → refusesRecord (.lumDieRecord u t) u t fault s)) ∧
    (bits a 31 28 = 1 →
      let n : Strng := Fin.ofNat 8 (4 * d.val + bits a 27 26)
      let j := strIdx n
      (lumStringOk ws = true → takesRecord (.lumStringRecord u t) u t s fun r =>
        [strCfg n 0 r, strCfg n 1 r, strCfg n 2 r, strCfg n 3 r] = ws ∧ (r.lum[strDie n].strs[j]).waits = (bit a 25 && ((s.lum[strDie n].strs[j]).waits ||
            !(flag (F.lumSStateEnabled (strDie n) j) s && (strFault n s = 0 || strFault n s = 4)))) ∧
          (bit a 25 = true → strFault n r = 0 ∧ getF (F.lumSStateHeadroom (strDie n) j) r = 0) ∧
          (bit a 25 = false → getF (F.lumSStateEnabled (strDie n) j) r = 0 ∧ strRunning n r = false)) ∧
      (lumStringOk ws = false → refusesRecord (.lumStringRecord u t) u t fault s))) ∧
  ∀ (d : Fin 2) (s : State), clocked s = true → adUp d s = true →
    let starts (on : Strng → Bool) (t : State) : Prop := ∀ n ∈ strsOf d,
      getF (F.lumSStateIEff d (strIdx n)) t = effective n s ∧
      (strRunning n t = true ↔ on n = true ∧ lampsMay s = true ∧
        (getF (F.lumSStateEnabled d (strIdx n)) s = 1 ∨ (s.lum[d].strs[strIdx n]).waits = true) ∧
        (strFault n s = 0 ∨ strFault n s = 4) ∧ effective n s ≠ 0)
    (inMatrix d s = false → periodDue d s = true →
      ∃ t, exec (.pwmPeriodStart d) s = .next t ∧ starts (fun n => stringCycles n s ≠ 0) t ∧
        t.lum[d].period = some s.periph ∧ t = { s with lum := t.lum, status := t.status }) ∧
    (inMatrix d s = true → s.lum[d].cycle = none → 10 * bits (s.word (F.lumDieCfg0 d)) 19 4 = slotPhase s →
      ∃ t, exec (.matrixCycleStart d) s = .next t ∧ starts (fun n => (lineMask d 0 s).testBit (strIdx n)) t ∧
        t.lum[d].cycle = some s.periph ∧
        t = { s with lum := t.lum, status := t.status })

/-- For a string of a running die: a second after the last update the mean of what its camera reference or its light sensor
gave in that second, where either gave anything, moves TRIM by a quarter of its relative error, limited to 0.8 to 1.2, and
LOOP_LIMIT shows the limit; a mean of 0, for which no quotient is stated, leaves TRIM inside the limits (whatever the free
value). A thermistor conversion in -40 to +150 °C shows the temperature and sets DERATE by it unless the thermistor has
failed; one outside, or 1 s without one, sets DERATE to 0.5 and the string's fault to 4 where it had none. A lamp that has
been lit for an hour beyond the cells that stand adds one to its counter, the hour leaves its lit time, and HOURS shows
the largest of the string. (R116, R323, R324, R330.) -/
def Obligations.LampLoops : Prop :=
  ∀ (n : Strng) (s : State), clocked s = true → adUp (strDie n) s = true →
    let d := strDie n
    let j := strIdx n
    let src := bits (strCfg n 2 s) 31 30
    let limit (q : Rat) : Rat := max (4 / 5) (min (6 / 5) q)
    let moved (m : Rat) (t : State) : Prop :=
      let r : Rat := (getF (F.lumSTrimTrim d j) s : Rat) / 32768
      let q := r + r * ((bits (strCfg n 3 s) 31 16 : Rat) / m - 1) / 4
      getF (F.lumSTrimTrim d j) t = (rndRat (limit q * 32768)).toNat ∧
        getF (F.lumSStateLoopLimit d j) t = b2n (decide (q ≤ 4 / 5) || decide (6 / 5 ≤ q))
    let e := s.lum[d].strs[j]
    (src ≠ 0 → e.loopAt + secondCycles ≤ s.periph →
      ∃ t, exec (.colourLoopUpdate n) s = .next t ∧
        t.lum[d].strs[j] = { e with sens := [], refSum := 0, refNum := 0, loopAt := s.periph } ∧
        (match loopMean n s with
          | some m => (m ≠ 0 → moved m t) ∧
              (m = 0 → 26214 ≤ getF (F.lumSTrimTrim d j) t ∧ getF (F.lumSTrimTrim d j) t ≤ 39322)
          | none => t.status = s.status) ∧
        t = { s with lum := t.lum, status := t.status, ev := t.ev, free := t.free }) ∧
    (bits (strCfg n 0 s) 23 18 ≠ 63 →
      (∀ code, e.therm = some code →
        ∃ t, exec (.thermistorConversion n) s = .next t ∧ (t.lum[d].strs[j]).therm = none ∧
          match thermTemp code (bits (strCfg n 1 s) 15 3) with
          | some c =>
            getF (F.lumSTempTemp d j) t = enc 16 (clampI (-32768) 32767 (rndRat (c * 100))) ∧
            (-40 ≤ c → c ≤ 150 → getF (F.lumSTrimDerate d j) t =
              if strFault n s = 4 then getF (F.lumSTrimDerate d j) s else (rndRat (derateOf n c s * 32768)).toNat) ∧
            (c < -40 ∨ 150 < c → getF (F.lumSTrimDerate d j) t = 16384)
          | none => getF (F.lumSTrimDerate d j) t = 16384) ∧
      (e.thermOk + secondCycles ≤ s.periph → ∃ t, exec (.thermistorTimeout n) s = .next t ∧ getF (F.lumSTrimDerate d j) t = 16384 ∧
        strFault n t = (if strFault n s = 0 then 4 else strFault n s) ∧
        t = { s with status := t.status, ev := t.ev })) ∧
    (∀ k : Fin 10, nvsWorks s = true → hourCycles ≤ nth 0 e.lit k.val → (∀ c, resolve 0 (0x480 + 10 * n.val + k.val) s.nvs = .found c → c.type = 1) →
      ∃ t, exec (.lampHourCell n k) s = .next t ∧
        getF (F.lumSHoursHours d j) t = (((List.range 10).map fun i => lampHours n i t).foldl max 0) % 2 ^ 32 ∧
        lampHours n k t = lampHours n k s + 1 ∧
        t.lum[d].strs[j] = { e with lit := e.lit.set k.val (nth 0 e.lit k.val - hourCycles) } ∧
        t = { s with nvs := t.nvs, status := t.status, lum := t.lum })

/-- The clocks running: a lamp tested in its open window shows open (1, its bypass held) above 8.0 V, shorted (2) below 1.0 V
with half the current, and good (0) where it was unverified, and its test is noted; out of its window a fitted lamp of a
running string shows open above 8.0 V with less than 10 % of the current. Of a running string: less than 10 % of the
current 20 us after its start with no lamp open, or the eighth cycle cut at 2.4 A within 1 ms, gives its fault (1 or 2),
stops it, lets its current decay and sets FAULT.STRING; below the eighth a reading of 2.4 A or more cuts the cycle, and
below 2.4 A the switch opens at I_eff + 10 % and closes at I_eff - 10 %, at least 20 mA away. HEADROOM shows whether less
than 2.0 V are left while a lamp is lit. A lamp lit too briefly is lengthened and counted where there is room, once per
second. On a running die the next node of the neighbour test is behind it: a node above 1.0 V not joined on the board
faults both strings with 3, nodes more than 0.1 V apart open the lamp, the tenth node clears NEIGHBOUR_UNTESTED, and 60 s
without a full test set it; a lamp that cannot be tested shows 3 after 10 s. Memory stays as before. HEADROOM reading 0
again once 2.0 V are back is the model's choice (assumption 98). (R312, R325, R326, R327.) -/
def Obligations.LampFaultsAndTests : Prop :=
  ∀ (n : Strng) (k : Fin 10) (s : State), clocked s = true →
    let d := strDie n
    let j := strIdx n
    let e := s.lum[d].strs[j]
    let x := s.lum[d].tests[j]
    let ends (i : Instr) (eff : State → Prop) : Prop :=
      ∃ t, exec i s = .next t ∧ t = { s with lum := t.lum, status := t.status, ev := t.ev } ∧ eff t
    let stopped (m : Strng) (c : Nat) (t : State) : Prop :=
      strFault m t = c ∧ strRunning m t = false ∧ getF (F.lumFaultString (strDie m)) t = 1
    let cuts := e.cuts.filter fun c => decide (s.periph < c + 100000)
    let i := getF (F.lumSStateIEff d j) s
    (∀ mv pct, testWindow n k s = true →
      (8000 < mv → ends (.lampTestWindow n k mv pct) fun t =>
        getF (lampFld n k) t = 1 ∧ k.val ∈ (t.lum[d].strs[j]).held) ∧
      (mv < 1000 → 50 ≤ pct → ends (.lampTestWindow n k mv pct) fun t => getF (lampFld n k) t = 2 ∧ t.lum[d].strs = s.lum[d].strs) ∧
      (1000 ≤ mv → mv ≤ 8000 → ends (.lampTestWindow n k mv pct) fun t =>
        t.lum[d].strs = s.lum[d].strs ∧ t.ev = s.ev ∧ assoc (t.lum[d].tests[j]).tested k = some s.periph ∧
          getF (lampFld n k) t = if getF (lampFld n k) s = 3 then 0 else getF (lampFld n k) s)) ∧
    (strRunning n s = true →
      (∀ mv pct, testWindow n k s = false → lampUsed n k s = true → 8000 < mv → pct < 10 →
        ends (.lampTestWindow n k mv pct) fun t => getF (lampFld n k) t = 1) ∧
      (∀ pct, e.startAt + 2000 ≤ s.periph → pct < 10 → (∀ i, i < 10 → getF (lampFld n i) s ≠ 1) →
        ends (.openStringFault n pct) fun t => stopped n 1 t ∧ (t.lum[d].strs[j]).decaying = true) ∧
      (∀ ma, 2400 ≤ ma → e.sw = true →
        (7 ≤ cuts.length → ends (.inductorOvercurrent n ma) fun t => stopped n 2 t ∧ (t.lum[d].strs[j]).decaying = true ∧
          getF (F.lumSCountIndOc d j) t = min 65535 (getF (F.lumSCountIndOc d j) s + 1)) ∧
        (cuts.length < 7 → ends (.inductorOvercurrent n ma) fun t => t.status = s.status ∧
          t.lum[d].strs[j] = { e with sw := false, cuts := s.periph :: cuts })) ∧
      (∀ ma, ma < 2400 → cuts.length < 8 → ends (.inductorOvercurrent n ma) fun t => t.status = s.status ∧
        (t.lum[d].strs[j]).sw =
          if 10 * i + max i 200 ≤ 10 * ma then false else if 10 * ma + max i 200 ≤ 10 * i then true else e.sw) ∧
      (∀ mv, (∃ i, i < 10 ∧ lampLit n i s = true) → ends (.headroomLoss n mv) fun t =>
        getF (F.lumSStateHeadroom d j) t = b2n (decide (mv < 2000)) ∧ t.lum = s.lum) ∧
      (litShort n k s = true → stretchRoom n s = true → bypassHeld n k s = false →
        (∀ c, assoc x.stretchAt k = some c → c + secondCycles ≤ s.periph) → (∃ p, litPhase n s = some p ∧ p ≤ litCycles n k s) →
        ends (.lampStretch n k) fun t =>
          getF (F.lumSCountStretch d j) t = min 65535 (getF (F.lumSCountStretch d j) s + 1) ∧ t.ev = s.ev ∧
            (t.lum[d].tests[j]).stretched = k.val :: x.stretched ∧ t.lum[d].strs = s.lum[d].strs)) ∧
    (adUp d s = true →
      (nodeDue n s = true → ∀ v a b, ends (.neighbourTest n v a b) fun t =>
        (t.lum[d].tests[j]).node = (x.node + 1) % 10 ∧ (t.lum[d].tests[j]).tried = true ∧
        (x.node = 9 → getF (F.lumSStateNeighbourUntested d j) t = 0 ∧ (t.lum[d].tests[j]).fullAt = some s.periph) ∧
        (∀ y ∈ v, 1000 < y.2.2 → (y.1 = j → joined n x.node y.2.1 s = false) →
          stopped n 3 t ∧ stopped (Fin.ofNat 8 (4 * d.val + y.1.val)) 3 t) ∧
        (100 < ((a : Int) - b).natAbs → getF (lampFld n (x.node % 10)) t = 1) ∧
        ((∀ y ∈ v, y.2.2 ≤ 1000) → ((a : Int) - b).natAbs ≤ 100 → strFault n t = strFault n s ∧ t.ev = s.ev)) ∧
      (x.fullAt.getD x.since + 6000000000 ≤ s.periph →
        ends (.neighbourUntested n) fun t => getF (F.lumSStateNeighbourUntested d j) t = 1 ∧ t.lum = s.lum) ∧
      (litShort n k s = true → stretchRoom n s = false →
        (getF (lampFld n k) s = 0 ∨ getF (lampFld n k) s = 3 ∧ k.val ∈ x.fresh) →
        (assoc x.tested k).getD x.since + 1000000000 ≤ s.periph →
        ends (.lampUnverified n k) fun t => getF (lampFld n k) t = 3 ∧ t.lum[d].strs = s.lum[d].strs))

/-- Where nothing holds it back and die 0 is reachable, SADC.START with MODE 0 or 1 of a stopped converter starts pass 0 at
entry 0 with START 1 and CONTINUOUS as asked (at once unless a self-trim holds it), and a request accepted on the same
edge is dropped; MODE 2 stops a sequence at once between entries, also while one is due behind an injected conversion,
and, in an entry, when it ends; the pc passes it and no byte of memory changes. A valid control or sequence record stands
in CFG or in the SEQ words it names, a valid hurdle record waits for its entry, each with code 0; an invalid one sets
FAULT.SETTINGS_REFUSED and ends with code 1. (R284, R335, R336.) -/
def Obligations.SadcStartAndSettings : Prop :=
  (∀ (u : UnitId) (b : Src) (s : State), issues u .event (srcImm b) (srcRegs b) s → passes (dieOf u) 0 s = true →
    let mode := (srcVal u b s).toNat
    let calm : Prop := ∀ q, s.sadc.inj = some q → s.sadc.injAt ≠ s.periph
    let ends (i : Instr) (eff : State → Prop) : Prop :=
      ∃ t, exec i s = .next t ∧ passed u (srcImm b) s t ∧ t = { s with units := t.units, sadc := t.sadc, status := t.status } ∧ eff t
    let yields (i : Instr) : Prop := ∀ q, s.sadc.inj = some q → s.sadc.injAt = s.periph → q.src ≠ .cal →
      ∃ t, exec i s = .next t ∧ passed u (srcImm b) s t ∧ flag F.sadcStateStart t = true ∧ t.sadc.inj = none ∧
        getF (injDrops q.src) t = min 65535 (getF (injDrops q.src) s + 1)
    let started (m : Nat) (t : State) : Prop :=
      flag F.sadcStateStart t = true ∧ getF F.sadcStateContinuous t = m ∧ getF F.sadcStatePass t = 0 ∧
        getF F.sadcStateEntry t = 0 ∧ t.sadc.entry = decide (s.sadc.trim = .off) ∧ t.sadc.gap = false
    (flag F.sadcStateStart s = false →
      (mode = 0 → (calm → ends (.sadcStartSingle u b) (started 0)) ∧ yields (.sadcStartSingle u b)) ∧
      (mode = 1 → (calm → ends (.sadcStartContinuous u b) (started 1)) ∧ yields (.sadcStartContinuous u b))) ∧
    (flag F.sadcStateStart s = true → mode = 2 →
      ends (.sadcStartStop u b) fun t =>
        if s.sadc.entry = true ∧ s.sadc.inj = none then t.sadc = { s.sadc with stopping := true } ∧ t.status = s.status
        else flag F.sadcStateStart t = false ∧ getF F.sadcStateEntry t = 0 ∧ t.sadc.gap = false)) ∧
  ∀ (u : UnitId) (t : Tag) (x : Xfer) (s : State), recordAt u t (· = 0x70) x s → passes (dieOf u) 0 s = true →
    let ws := sourceWords x s
    let h := nth 0 ws 0
    let k := bits h 31 28
    let fault := F.sadcFaultSettingsRefused
    (sadcRecordOk ws s = true →
      (k = 0 → takesRecord (.sadcCtlControl u t) u t s fun r =>
        r.word F.sadcCfg = h ∧ wordsBut [F.sadcCfg] s r ∧ r.sadc = s.sadc) ∧
      (k = 1 → takesRecord (.sadcCtlSequence u t) u t s fun r =>
        (∀ i, i < bits h 22 17 → r.word (F.sadcSeq (bits h 27 23 + i)) = nth 0 ws (1 + i)) ∧
          (∀ i, i < 32 → ¬ (bits h 27 23 ≤ i ∧ i < bits h 27 23 + bits h 22 17) → r.word (F.sadcSeq i) = s.word (F.sadcSeq i)) ∧
          r.sadc = s.sadc) ∧
      (k = 2 → takesRecord (.sadcCtlHurdle u t) u t s fun r =>
        r.sadc = { s.sadc with next := s.sadc.next.set (Fin.ofNat 8 (bits h 27 25)) (some (h, nth 0 ws 1)) } ∧
          r.status = s.status)) ∧
    (sadcRecordOk ws s = false →
      (k = 0 ∨ 2 < k → refusesRecord (.sadcCtlControl u t) u t fault s) ∧
      (k = 1 → refusesRecord (.sadcCtlSequence u t) u t fault s) ∧ (k = 2 → refusesRecord (.sadcCtlHurdle u t) u t fault s))

/-- When a sequence conversion ends, LAST of its entry and the newest result of the buffer hold the marked word with OVR,
RECOV, ENTRY, PASS and the code of its input in volts, rounded and limited, with the device time of its sampling 700 ns
before, less what a slew or step has shifted it since; a full buffer of 64 first loses its oldest. Each enabled hurdle on
the entry without a record that waits examines a result without RECOV: meeting its condition (the limited code in the
window, or outside it where so set) adds one to its run count, which not meeting it sets to zero with ACTIVE; where the
count reaches RUN, ACTIVE and TRIPPED set, and SADC_HURDLE is raised where ACTIVE was 0 and none came in the second
before. Any other hurdle without such a record stays as it is. The end of a gap on an edge on which no request was
accepted starts entry 0 of the next pass, modulo 256. A read of SADC.RES at address 0, of a length in whole results, takes
the oldest results out of the buffer into the window, zeros following them. (R71, R72, R333, R336, R338, R339, R340.) -/
def Obligations.SadcResults : Prop :=
  (∀ (a b : Rat) (s : State), clocked s = true → s.sadc.entry = true → s.sadc.inj = none →
    ∃ t, exec (.sadcEntryEnd a b) s = .next t ∧
      let i := getF F.sadcStateEntry s
      let w := t.word (F.sadcLast i)
      let v : Rat := entryVolts (s.word (F.sadcSeq i)) a b * 32768 / (5 / 2)
      bit w 31 = true ∧ bit w 30 = (decide (v < -65537 / 2) || decide (65535 / 2 ≤ v)) ∧ bit w 29 = sadcRecov s ∧
        bits w 28 24 = i ∧ bits w 23 16 = getF F.sadcStatePass s ∧ dec 16 (bits w 15 0) = max (-32768) (min 32767 (rndRat v)) ∧
        t.sadc.ring = (if 64 ≤ s.sadc.ring.length then s.sadc.ring.drop 1 else s.sadc.ring) ++
          [(w, BitVec.ofInt 32 ((s.time : Int) - 700 -
            ((s.clock.shifts.filter fun y => decide (10 * s.periph ≤ 10 * y.1 + 700)).map (·.2)).sum))] ∧
        (∀ h : Fin 8, s.sadc.next[h] = none →
          let c := s.word (F.sadcHCfg0 h)
          let e := s.word (F.sadcHCfg1 h)
          let code := dec 16 (bits w 15 0)
          let on : Bool := bit c 24 && bits c 22 18 = i && !sadcRecov s
          let meets : Bool := decide (dec 16 (bits e 15 0) ≤ code ∧ code ≤ dec 16 (bits e 31 16)) = bit c 23
          let hit : Bool := on && meets && s.sadc.runs[h] + 1 = bits c 17 14
          t.sadc.runs[h] = (if !on then s.sadc.runs[h] else if meets then s.sadc.runs[h] + 1 else 0) ∧
          flagAt F.sadcHurdleActive h t = (if on && !meets then false else hit || flagAt F.sadcHurdleActive h s) ∧
          flagAt F.sadcHurdleTripped h t = (hit || flagAt F.sadcHurdleTripped h s) ∧
          (hit = true → flagAt F.sadcHurdleActive h s = false → withheld 0x3202 11 (256 + h.val) s = false →
            ⟨0x3202, 11, 256 + h.val, 0, s.time⟩ ∈ t.ev.queue)) ∧
        t = { s with sadc := t.sadc, status := t.status, ev := t.ev }) ∧
  (∀ s : State, clocked s = true → flag F.sadcStateStart s = true → s.sadc.gap = true → s.sadc.trim = .off →
    (∀ q, s.sadc.inj = some q → s.sadc.injAt ≠ s.periph) →
    ∃ t, exec .sadcGapEnd s = .next t ∧ getF F.sadcStatePass t = (getF F.sadcStatePass s + 1) % 256 ∧
      getF F.sadcStateEntry t = 0 ∧ t.sadc = { s.sadc with entry := true, gap := false, stopping := false } ∧
      t = { s with sadc := t.sadc, status := t.status }) ∧
  ∀ (u : UnitId) (t : Tag) (x : Xfer) (s : State), readAt u t (· = 0x71) x s → passes (dieOf u) 0 s = true → x.addr = 0 →
    x.len % 8 = 0 →
    landsWords (.sadcResRead u t) u t x 0 (fitWords (x.len / 4) (s.sadc.ring.flatMap fun r => [r.1, r.2])) s fun r =>
      r.sadc = { s.sadc with ring := s.sadc.ring.drop (x.len / 8) }

/-- A request (of a calibration run that waits for its reference, the run's own only; of a string, one that is due for its
thermistor or light sensor) to an idle converter is accepted and shows INJ_BUSY; one that comes while it works is dropped,
unless the conversion accepted on the same edge is of a lower rank, which then is dropped in its place, and counts in its
source's counter; a dropped CAL request is made again while its run lasts. An injected conversion that ends leaves its
source the limited code with OVR and RECOV as its newest result and, but for a reference after which the run may ask for
the next, frees the converter; one of VIN for the supervisor shows VIN in 0.01 V. The self-trim starts once no entry and
no injected conversion is under way, and ends with its offset and gain kept and CALIBRATING 0, the mean of two repeats of
a run that agree standing in TRIM after the second, a started sequence then making the pass that was due: pass 0 where it
had made none, else the next. The request that a calibration run makes for itself (assumption 25), the mean of two trims
with ties to even (assumption 26) and the instants at which a string asks for its light sensor (assumption 144) are the
model's choice. (R197, R337, R341, R343.) -/
def Obligations.SadcInjected : Prop :=
  ∀ s : State, clocked s = true →
    let idleNow : Prop := s.sadc.entry = false ∧ s.sadc.inj = none ∧ s.sadc.trim = .off
    (∀ src inp sub key, (src = .cal → refWaits key s = false) →
      (src = .lum → let n : Strng := Fin.ofNat 8 key
        adUp (strDie n) s = true ∧ (thermDue n inp.val s = true ∨ sensDue n inp.val s = true)) →
      let r : Inj := ⟨src, (inp : Fin 64), (sub : Fin 4), key⟩
      (idleNow → ∃ t, exec (.injectedRequest src inp sub key) s = .next t ∧ t.sadc.inj = some r ∧
        getF F.sadcStateInjBusy t = 1 ∧ (src ≠ .lum → t.lum = s.lum) ∧
        t = { s with sadc := t.sadc, status := t.status, lum := t.lum }) ∧
      (∀ q, s.sadc.inj = some q → s.sadc.injAt = s.periph → injRank src < injRank q.src →
        ∃ t, exec (.injectedRequest src inp sub key) s = .next t ∧ t.sadc.inj = some r ∧
          getF (injDrops q.src) t = min 65535 (getF (injDrops q.src) s + 1)) ∧
      (¬ idleNow → (∀ q, s.sadc.inj = some q → s.sadc.injAt = s.periph → injRank q.src ≤ injRank src) →
        ∃ t, exec (.injectedRequest src inp sub key) s = .next t ∧
        (src ≠ .cal → t.sadc = { s.sadc with drops := t.sadc.drops }) ∧
        getF (injDrops src) t = min 65535 (getF (injDrops src) s + 1))) ∧
    (∀ r rest, s.sadc.retry = r :: rest → r.src = .cal → calRunning r.key s = true → idleNow →
      ∃ t, exec .calSadcRetry s = .next t ∧ t.sadc.inj = some r ∧ t.sadc.retry = rest.filter (· ≠ r) ∧ getF F.sadcStateInjBusy t = 1) ∧
    (∀ r x, s.sadc.inj = some r →
      let v : Rat := sadcVolts r.inp r.sub x * 32768 / (5 / 2)
      let c := max (-32768) (min 32767 (rndRat v))
      ∃ t, exec (.injectedConversionEnd x) s = .next t ∧
        (r.src ≠ .cal → t.sadc.inj = none ∧ getF F.sadcStateInjBusy t = 0) ∧
        t.sadc.results.head? = some ⟨r, c, decide (v < -65537 / 2) || decide (65535 / 2 ≤ v), sadcRecov s⟩ ∧
        (r.src = .pwr → r.inp = 56 →
          getF F.pwrStateVin t = (max 0 (min 65535 (rndRat ((c : Rat) * 100 / 32768 * 100)))).toNat) ∧ t.units = s.units ∧ sameMem s t) ∧
    (s.sadc.trim = .waiting → s.sadc.entry = false → s.sadc.inj = none →
      exec .selfTrimStart s = .next { s with sadc := { s.sadc with trim := .running, trimmed := none } }) ∧
    (∀ off gain, s.sadc.trim = .running →
      ∃ t, exec (.selfTrimEnd off gain) s = .next t ∧ t.sadc.trim = .off ∧ t.sadc.trimmed = some (off.toInt, gain.toInt) ∧
        getF F.sadcStateCalibrating t = 0 ∧
        (flag F.sadcStateStart s = true → t.sadc.entry = true ∧
          getF F.sadcStatePass t = if s.sadc.gap then (getF F.sadcStatePass s + 1) % 256 else 0) ∧
        (∀ q a b, runOf 10 s = some q → q.phase = .repeating 1 → nth [] q.meas 0 = [some (a, b)] →
          (-128 < off.toInt ∧ off.toInt < 127 ∧ -128 < gain.toInt ∧ gain.toInt < 127) →
          agree 3 (a, b) (off.toInt, gain.toInt) = true →
          getF F.sadcTrimOffset t = enc 8 (rneDiv (a + off.toInt) 2) ∧ getF F.sadcTrimGain t = enc 8 (rneDiv (b + gain.toInt) 2)) ∧
        t = { s with sadc := t.sadc, cal := t.cal, status := t.status })

/-- While the store works: a waiting write begins a copy, with the next sequence number of its key, in a sector of the bank of
that number; a copy that verifies stands as the newest copy, its write leaves the queue, and WRITES counts; one that fails
stays uncommitted with some of the words it programs (of a counter's base record, not its cells), counts in UNCOMMITTED,
and after the fourth failure its write is dropped with FAULT.WRITE_FAIL, and with it the rest of a SAVE. Collecting a
sector that can be copied out changes what no data key reads, and no counter whose copies differ in sequence number and
for which no new base record waits, and marks the sector for erasing; an erase frees the sector, counts, loses its copies,
reports the 90,000th and retires it at 100,000. (R371, R372, R373, R377, R384.) -/
def Obligations.RecordProgramming : Prop :=
  ∀ s : State, nvsWorks s = true →
    (∀ w q i n, s.nvs.queue = w :: q → s.nvs.prog = none → (liveKeys s.nvs).length < 8192 →
      let seq := nextSeq w.part w.key s.nvs
      let words := copyWords w.data.length w.counter.isSome
      takeRoom w.part (seq % 2) words s.nvs = some (i, n) →
      ∃ t, exec .nvsWriteStart s = .next t ∧ t.nvs = { n with prog := some ⟨seq, i, words, s.nvs.failed, (sectorAt i n).used - words⟩ } ∧ t = { s with nvs := t.nvs, status := t.status }) ∧
    (∀ w q g, s.nvs.queue = w :: q → s.nvs.prog = some g →
      (∃ t, exec .nvsCopyCommit s = .next t ∧ t.nvs.copies = copyOf w g true :: s.nvs.copies ∧ t.nvs.prog = none ∧ t.nvs.failed = 0 ∧
        t.nvs.queue ++ t.nvs.later = q ++ s.nvs.later ∧ (w.data.length ≤ 4096 → (copyOf w g true).valid = true) ∧
        getF F.nvsWritesWrites t = min (2 ^ 32 - 1) (getF F.nvsWritesWrites s + 1) ∧ t = { s with nvs := t.nvs, status := t.status }) ∧
      (0 < progWords w g → ∃ t k, exec .nvsVerifyFail s = .next t ∧ 1 ≤ k ∧ k ≤ progWords w g ∧
        t.nvs.copies = { copyOf w g false with words := k } :: s.nvs.copies ∧
        getF F.nvsUncommittedUncommitted t = min (2 ^ 32 - 1) (getF F.nvsUncommittedUncommitted s + 1) ∧
        (g.fails ≠ 3 → t.nvs.failed = g.fails + 1 ∨ getF F.nvsFaultFull t = 1) ∧
        (g.fails = 3 → getF F.nvsFaultWriteFail t = 1 ∧ t.nvs.prog = none ∧
          (w.save = false → t.nvs.queue ++ t.nvs.later = q ++ s.nvs.later) ∧
          (w.save = true → ∀ y ∈ t.nvs.queue ++ t.nvs.later, y.save = false)) ∧
        t = { s with nvs := t.nvs, status := t.status, ev := t.ev, free := t.free })) ∧
    (∀ (p : Fin 4) (b : Fin 2) i n, (freeSectors p b s.nvs).length < 2 → collectChoice p b s.nvs = some i →
      relocate p b i s.nvs = some n → (∀ c ∈ s.nvs.copies, c.sector = i → c.part = p) →
      ∃ t, exec (.garbageCollect p b) s = .next t ∧ (sectorAt i t.nvs).st = .erase ∧
        (∀ p' k, (∀ c ∈ s.nvs.copies, c.of p' k = true → c.type = 0) → record p' k t = record p' k s) ∧
        (∀ p' k, queuedBase p' k s.nvs = none → (∀ c ∈ s.nvs.copies, c.of p' k = true → c.type = 1 ∧ c.skip = false ∧
            ∀ d ∈ s.nvs.copies, d.of p' k = true → d.seq = c.seq → d = c) →
          (s.nvs.copies.filter fun c => c.of p' k).Nodup → record p' k t = record p' k s) ∧
        t = { s with nvs := t.nvs, status := t.status }) ∧
    (∀ sec : Fin 512, (sectorAt sec s.nvs).st = .erase →
      let e := (sectorAt sec s.nvs).erases + 1
      ∃ t, exec (.sectorEraseComplete sec) s = .next t ∧ sectorAt sec t.nvs = Sector.erased e ∧
        t.nvs.copies = s.nvs.copies.filter (fun c => c.sector ≠ sec.val) ∧ (90000 ≤ e → sec.val ∈ t.nvs.worn) ∧
        t = { s with nvs := t.nvs, status := t.status, ev := t.ev })

/-- A write or a deletion of an owner's key in a partition unlocked for writing, of 4 to 4,096 bytes (a deletion of four
zeros), with room in the queue of 16, is queued with code 0. An unlock with the password in force opens that access of the
partition and resets its failures; another password counts a failure, sets FAULT.UNLOCK_FAIL and ends with code 1. A lock
closes both accesses. A new password is in force at once as 16 bytes of salt from the generator and the SHA-384 of salt
and password, and its record is queued. A read gives the header and the record's bytes, or LOCKED, CONFLICT or absence.
(R380, R381, R382, R383, R400.) -/
def Obligations.RecordAccess : Prop :=
  (∀ (u : UnitId) (t : Tag) (x : Xfer) (s : State), recordAt u t (· = 0x78) x s → passes (dieOf u) 0 s = true →
    nvsAddrOk x.addr = true →
    let p := nvsPartOf x.addr
    let op := nvsOpOf x.addr
    let k := nvsKeyOf x.addr
    let bs := toBytes (sourceWords x s)
    let pw := trimZeros bs
    let may (r : State) (i : Nat) : Bool := (unlockBits p r).2.testBit i
    let queued (w : NvsWrite) (r : State) : Prop := r.nvs.queue ++ r.nvs.later = s.nvs.queue ++ s.nvs.later ++ [w]
    (may s (4 + p) = true → deviceKey p k = false → s.nvs.queue.length < 16 →
      (op = 0 → 4 ≤ bs.length → bs.length ≤ 4096 → takesRecord (.nvsWrite u t) u t s (queued ⟨p, k, bs, 0, none, false⟩)) ∧
      (op = 6 → bs = [0, 0, 0, 0] → takesRecord (.nvsDelete u t) u t s (queued ⟨p, k, [], 0, none, false⟩))) ∧
    (pw ≠ [] → pw.length ≤ 32 → 4 ≤ bs.length → bs.length ≤ 4096 → p < 4 →
      (∀ acc, acc < 2 → op = acc + 1 → s.nvs.lockout[Fin.ofNat 4 p] = false →
        let i : Instr := if acc = 0 then .nvsUnlockRead u t else .nvsUnlockWrite u t
        (unlockMatches p acc pw s = true → takesRecord i u t s fun r =>
          may r (4 * acc + p) = true ∧ r.nvs = { s.nvs with fails := s.nvs.fails.set (Fin.ofNat 4 p) 0 }) ∧
        (unlockMatches p acc pw s = false → refusesAs i u t F.nvsFaultUnlockFail s fun r =>
          r.nvs.fails[Fin.ofNat 4 p] = (s.nvs.fails[Fin.ofNat 4 p] + 1) % 8 ∧
            r.nvs.lockout[Fin.ofNat 4 p] = decide (s.nvs.fails[Fin.ofNat 4 p] = 7))) ∧
      (op = 3 → takesRecord (.nvsLock u t) u t s fun r => may r p = false ∧ may r (4 + p) = false ∧ r.nvs = s.nvs) ∧
      (∀ acc, acc < 2 → op = acc + 4 → may s (4 + p) = true → s.nvs.queue.length < 16 →
        let i : Instr := if acc = 0 then .nvsSetReadPassword u t else .nvsSetWritePassword u t
        let salt := (randomBytes 16 s).1
        let h := salt ++ sha384 (salt ++ pw)
        takesRecord i u t s fun r => assoc r.nvs.pws (2 * p + acc) = some h ∧
          queued ⟨0, 0x510 + 2 * p + acc, h, 0, none, false⟩ r ∧ r.sec.drbg = (randomBytes 16 s).2.sec.drbg))) ∧
  (∀ (u : UnitId) (t : Tag) (x : Xfer) (s : State), readAt u t (· = 0x78) x s → passes (dieOf u) 0 s = true → 16 ≤ x.len →
    nvsOpOf x.addr = 0 → nvsAddrOk x.addr = true →
    let p := nvsPartOf x.addr
    let k := nvsKeyOf x.addr
    let gives (ws : List Word) : Prop := landsWords (.nvsRead u t) u t x 0 (fitWords (x.len / 4) ws) s fun _ => True
    ((unlockBits p s).2.testBit p = false → gives (nvsHeader 3 0 0)) ∧
    ((unlockBits p s).2.testBit p = true → ¬ (p = 0 ∧ 0x510 ≤ k ∧ k ≤ 0x517) →
      (resolve p k s.nvs = .absent → gives (nvsHeader 1 0 0)) ∧
      (∀ q, resolve p k s.nvs = .conflict q → gives (nvsHeader 2 0 q)) ∧
      (∀ c, resolve p k s.nvs = .found c → 16 + (copyBytes c).length ≤ x.len →
        gives (nvsHeader 0 (copyBytes c).length c.seq ++ toWords (copyBytes c))))) ∧
  ∀ (p : Fin 4) (s : State), clocked s = true →
    exec (.unlockLockoutEnd p) s = .next { s with nvs := { s.nvs with lockout := s.nvs.lockout.set p false } }

/-- A valid record to FPD0.CTL or FPD1.CTL becomes the settings kept for its die with code 0, and the bias of a stopped pacer
follows it; an invalid one is refused. A row slot that ends forms its 2,064 words: row, code limited to 18 bits and OVR of
each column given; each link sends what it carries of them, row 49 marked with the repeat of a CONV run that takes it as a
ramp; the next row slot is expected, and OVR_COUNT counts. A raw read takes the words offered, once there are enough. A
substrate sample shows the fifth smallest of the last eight and OUT_OF_BAND; a dwell that completes puts the band of the
filtered value in use, at the next boundary where the pacer runs. The settling window ends. (R99, R101, R105, R106, R108,
R112, R187.) -/
def Obligations.FocalDieResults : Prop :=
  (∀ (u : UnitId) (t : Tag) (x : Xfer) (s : State), recordAt u t (fun ep => ep = 0x30 || ep = 0x31) x s →
    let d : Fin 2 := Fin.ofNat 2 (x.ep - 0x30)
    let ws := sourceWords x s
    passes (dieOf u) (if dieUp (4 + (x.ep - 0x30)) s then 4 + (x.ep - 0x30) else 0) s = true →
    (fpdRecordOk d ws = true → takesRecord (.fpdCtlRecord u t) u t s fun r =>
      r.focal[d].kept0 = nth 0 ws 0 ∧ r.focal[d].kept1 = nth 0 ws 1 ∧ r.focal[d].row = s.focal[d].row ∧
        (d = 0 → fdUp 0 s = true → getF (F.fpdStateLsyncMode 0) r = bits (nth 0 ws 0) 22 21) ∧
        (fdUp d s = true → pacing d s = false →
          getF (F.fpdStateBiasOn d) r = b2n (restBias s && recRun r.focal[d] && recBias r.focal[d])) ∧ ∀ e, e ≠ d → r.focal[e] = s.focal[e]) ∧
    (fpdRecordOk d ws = false → refusesRecord (.fpdCtlRecord u t) u t (F.fpdFaultSettingsRefused d) s)) ∧
  (∀ (d : Fin 2) (row : Fin 50) (x : List ColIn) (amp : Bool) (s : State), working s = true → fdUp d s = true →
    pacing d s = true → s.focal[d].row = row.val → x.length = 2064 →
    ∃ t ws, exec (.rowSlotEnd d row x amp) s = .next t ∧ ws.length = 2064 ∧
      t.focal[d].sent = s.focal[d].sent ++ [(row.val, linkWords d false ws s, linkWords d true ws s, if row.val = 49 then rampRow d s else none)] ∧
      (∀ c, c < 2064 →
        let w := nth 0 ws c
        let v := (nth ⟨0, 0⟩ x c).level
        bits w 31 26 = row.val ∧ dec 18 (bits w 17 0) = max (-131072) (min 131071 v) ∧ bit w 18 = overFull v ∧
          (allRecov d amp s = true → bit w 19 = true)) ∧
      t.focal[d].row = row.val + 1 ∧
      getF (F.fpdOvrCountOvrCount d) t = min (2 ^ 32 - 1) (getF (F.fpdOvrCountOvrCount d) s + x.countP fun c => overFull c.level) ∧
      t = { s with focal := t.focal, status := t.status, ev := t.ev }) ∧
  (∀ (u : UnitId) (t : Tag) (x : Xfer) (s : State), readAt u t (fun ep => ep = 0x32 || ep = 0x33) x s →
    let d : Fin 2 := Fin.ofNat 2 (x.ep - 0x32)
    (∀ e ∈ (if s.opt = .zt4 then [1] else [1 + d.val, 2 + d.val]), passes (dieOf u) e s = true) →
    x.len / 4 ≤ s.focal[d].raw.length →
    landsWords (.fpdRawRead u t) u t x 0 (s.focal[d].raw.take (x.len / 4)) s fun r =>
      r.focal[d] = { s.focal[d] with raw := s.focal[d].raw.drop (x.len / 4) }) ∧
  ∀ (d : Fin 2) (s : State), clocked s = true → fdUp d s = true →
    (∀ temp, s.focal[d].hist ≠ [] →
      ∃ t, exec (.substrateSample d temp) s = .next t ∧ t.focal[d].hist = (temp :: s.focal[d].hist).take 8 ∧
        getF (F.fpdSubstrateTemp d) t = enc 16 (filtered t.focal[d]) ∧
        getF (F.fpdStateOutOfBand d) t = b2n (outOfBand d (filtered t.focal[d]) s) ∧
        getF (F.fpdStateBand d) t = getF (F.fpdStateBand d) s) ∧
    (s.focal[d].dwelling = true → flag (F.fpdStateBandLock d) s = false →
      ∃ t, exec (.bandDwellComplete d) s = .next t ∧ t.focal[d].dwelling = false ∧
        let b := bandOf (filtered s.focal[d])
        if pacing d s = true then t.focal[d].pend = some b ∧ t.status = s.status else getF (F.fpdStateBand d) t = b) ∧
    (∃ t, exec (.biasSettled d) s = .next t ∧ getF (F.fpdStateSettling d) t = 0 ∧ t = { s with status := t.status } ∧
      wordsBut [(F.fpdStateSettling d).addr] s t)

/-- While the sorting path works, a SYNC that nothing holds back, or in LSYNC_MODE input a rising edge at least 100 ns long,
requests the edge at the first 250 ns boundary at least 500 ns ahead; the LSYNC edge also records its device time. The
edges pending are then this one and those that lie before it or at least 10 µs after it, and the sequence number of SYNC
cells advances; with LSYNC_MODE output a SYNC adds its pulse to those that stand, high from now on where it begins now,
and only the pulses of edges that are dropped go. A request less than 10 µs after an edge before it is ignored: the edges
in view stay and FAULT.SYNC_IGNORED sets. SYNC passes, and no byte of memory changes. That the sequence number advances
with no link up (assumption 80), how the edges that are pending give way and what an ignored request marks (assumption
45), and that SYNC acts in the step that issues it (assumption 13), are the model's choice. An offset measured against the
source in use, or against a first one, shows that source and replaces what remains. Up to 1 ms it is slewed and device
time stays; beyond 1 ms device time moves by it at once where every valve queue is empty and no LATCH is staged, with
CLK_TIME_STEPPED, and else CLK.FAULT.STEP_DEFERRED sets, the slew goes on, and the step is made once that holds. A slew
that has corrected its offset ends. The loss of the source in use shows holdover with its event and leaves the correction
under way. Nothing but device time, its correction, status words and events changes. (R70, R71, R72, R117, R118, R250,
R408, R414.) -/
def Obligations.SynchronisingAndTime : Prop :=
  (∀ s : State, working s = true →
     let c := (s.periph + 74) / 25 * 25
     let taken (t : State) : Prop :=
       (∀ e, e ∈ pendingEdges t ↔ e = c ∨ e ∈ pendingEdges s ∧ ¬ (c < e ∧ e < c + 1000)) ∧ t.grid.line = s.grid.line ∧
         t.grid.lastEdge = s.grid.lastEdge ∧ nextCseq 1 t = (nextCseq 1 s + 1) % 2 ^ 32
     (∀ u, issues u .event false [] s → passes (dieOf u) 0 s = true →
       (edgeTooSoon c s = false →
         ∃ t, exec (.sync u) s = .next t ∧ taken t ∧ passed u false s t ∧ sameMem s t ∧
           (getF (F.fpdStateLsyncMode 0) s = 2 → (c - 50, c + 50) ∈ t.grid.pulses ∧ (c = s.periph + 50 → t.pins.lsync = true) ∧
             ∀ y ∈ s.grid.pulses, s.periph < y.2 → (∀ e ∈ pendingEdges s, c < e → e < c + 1000 → y.2 ≠ e + 50) → y ∈ t.grid.pulses)) ∧
       (edgeTooSoon c s = true →
         ∃ t, exec (.sync u) s = .next t ∧ t.grid = s.grid ∧ getF (F.fpdFaultSyncIgnored 0) t = 1 ∧ passed u false s t ∧ sameMem s t)) ∧
     (∀ ns, 100 ≤ ns → getF (F.fpdStateLsyncMode 0) s = 1 →
       (edgeTooSoon c s = false →
         ∃ t, exec (.lsyncRise ns) s = .next t ∧ taken t ∧
           getF (F.fpdSyncTimeLoTimeLo 0) t = s.time % 2 ^ 32 ∧ getF (F.fpdSyncTimeHiTimeHi 0) t = s.time / 2 ^ 32 % 2 ^ 32 ∧
           t = { s with grid := t.grid, net := t.net, status := t.status, ev := t.ev }) ∧
       (edgeTooSoon c s = true →
         ∃ t, exec (.lsyncRise ns) s = .next t ∧ getF (F.fpdFaultSyncIgnored 0) t = 1 ∧
           t = { s with status := t.status, ev := t.ev }))) ∧
  ∀ s : State, live s = true →
    let ends (i : Instr) (eff : State → Prop) : Prop := ∃ t, exec i s = .next t ∧ eff t ∧
      t = { s with time := t.time, clock := t.clock, status := t.status, ev := t.ev, free := t.free }
    let stepped (off : Int) (t : State) : Prop := t.time = enc 64 ((s.time : Int) - off) ∧ t.clock.remaining = 0 ∧
      t.clock.slewing = false ∧ t.clock.deferred = false ∧ t.ev.queue = s.ev.queue ++ [⟨0x0112, 0, 0, 0, t.time⟩]
    (∀ (x : TimeSrc) (off : Int), srcAllowed x s = true → (s.clock.src = none ∨ s.clock.src = some x) →
      ends (.timeOffsetMeasured x off) fun t =>
        t.clock.src = some x ∧ getF F.clkStateTimeSrc t = srcCode x ∧ getF F.lnkPortTimePort t = srcPort x ∧
        (off.natAbs ≤ 1000000 ∨ mayStep s = false → t.time = s.time ∧ t.clock.remaining = -off ∧
          t.clock.slewing = decide (off ≠ 0) ∧ getF F.clkStateSlewing t = b2n (decide (off ≠ 0)) ∧
          t.clock.deferred = decide (1000000 < off.natAbs) ∧ t.ev = s.ev ∧
          (1000000 < off.natAbs → getF F.clkFaultStepDeferred t = 1)) ∧
        (1000000 < off.natAbs → mayStep s = true → stepped off t)) ∧
    (s.clock.deferred = true → mayStep s = true → ends .timeStep (stepped (-s.clock.remaining))) ∧
    (s.clock.slewing = true → s.clock.remaining = 0 → ends .slewComplete fun t =>
      t.clock = { s.clock with slewing := false, deferred := false } ∧ t.time = s.time ∧ getF F.clkStateSlewing t = 0 ∧ t.ev = s.ev) ∧
    (∀ y, s.clock.src = some y → ends .timeSourceLost fun t =>
      t.clock = { s.clock with src := none } ∧ t.time = s.time ∧ getF F.clkStateTimeSrc t = 3 ∧ getF F.lnkPortTimePort t = 0 ∧
        getF F.lnkPortStratum t = (if bit (s.word F.lnkCfg0) 29 = true then 0 else 15) ∧ t.ev.queue = s.ev.queue ++ [⟨0x0113, 0, 0, 0, s.time⟩])

/-- Where nothing holds a SHUTTER back and its operand is in range it passes: with its die reachable it stands last among the
messages to it, of which the LAMPs and SHUTTERs in front act, and without a path it counts in EVENT_LOST. Where no message
waits there and no link of the path is being moved it acts at once: with no shutter run, PARK or safe state to refuse it,
closing an open shutter shows CLOSING, opening a closed one OPENING, the movement counts and takes its times from the
settings kept; a refusal sets FAULT.SHUTTER_REFUSED. TRAVEL ends CLOSING in CLOSED, REOPEN ends OPENING in OPEN, and a
fault of the bridge while closing shows FAULT with its cause. That a CLOSE acts in STANDBY (assumption 135) and that a
command in front acts at once (assumption 13) are the model's choice. (R113, R114, R115, R250, R284.) -/
def Obligations.ShutterMovements : Prop :=
  (∀ (u : UnitId) (b : Src) (s : State), issues u .event (srcImm b) (srcRegs b) s →
    let w := srcVal u b s
    let d := shutterDie w
    bits w 31 2 = 0 → diePresent s.opt (4 + d.val) = true →
    let both (p : Instr → Prop) : Prop := p (.shutterClose u b) ∧ p (.shutterOpen u b)
    (reach (dieOf u) (6 + d.val) s = false → both fun i =>
      ∃ t, exec i s = .next t ∧ passed u (srcImm b) s t ∧ t = { s with units := t.units, status := t.status, ev := t.ev } ∧
        getF F.isaEventLostLost t = min (2 ^ 32 - 1) (getF F.isaEventLostLost s + 1)) ∧
    (reach (dieOf u) (6 + d.val) s = true →
      (both fun i => exec i s = .next (advance u (srcImm b) (drainMsgs d (sendMsg d (.shutter u (!bit w 1)) s)))) ∧
      (s.msgs[d] = [] → held (dieOf u) (6 + d.val) s = false →
        let moves (i : Instr) (st : Nat) : Prop := ∃ t, exec i s = .next t ∧ getF (F.fpdStateShutter d) t = st ∧
          getF (F.fpdCountShutterMoves d) t = min 65535 (getF (F.fpdCountShutterMoves d) s + 1) ∧
          getF (F.fpdShutterCfgTravel d) t = bits s.focal[d].kept1 31 24 ∧
          getF (F.fpdShutterCfgReopen d) t = bits s.focal[d].kept1 23 16 ∧
          passed u (srcImm b) s t ∧ t = { s with units := t.units, status := t.status }
        (shutRunning d s = false → s.mode ≠ .park → inSafe s = false →
          (bit w 1 = false → getF (F.fpdStateShutter d) s = 0 → moves (.shutterClose u b) 1) ∧
          (bit w 1 = true → getF (F.fpdStateShutter d) s = 2 → moves (.shutterOpen u b) 3)) ∧
        (shutRunning d s = true ∨ s.mode = .park ∨ inSafe s = true → both fun i =>
          ∃ t, exec i s = .next t ∧ getF (F.fpdFaultShutterRefused d) t = 1 ∧ passed u (srcImm b) s t ∧ t.msgs = s.msgs ∧
            sameMem s t)))) ∧
  ∀ (d : Fin 2) (s : State), clocked s = true →
    let shows (i : Instr) (st : Nat) (eff : State → Prop) : Prop :=
      ∃ t, exec i s = .next t ∧ getF (F.fpdStateShutter d) t = st ∧ t.units = s.units ∧ sameMem s t ∧ eff t
    (getF (F.fpdStateShutter d) s = 1 → shows (.shutterTravelEnd d) 2 fun t => t.cal = s.cal) ∧
    (getF (F.fpdStateShutter d) s = 3 → shows (.shutterReopenEnd d) 0 fun t =>
      t.cal = { s.cal with taint := s.cal.taint.set d (if s.cal.taint[d] = .off then .off else .ending) }) ∧
    (getF (F.fpdStateShutter d) s = 1 → diePresent s.opt (4 + d.val) = true →
      (shows (.shutterFault d true) 4 fun t => getF (F.fpdFaultShutterOvercurrent d) t = 1) ∧
      (shows (.shutterFault d false) 4 fun t => getF (F.fpdFaultShutterOpenLoad d) t = 1))

/-- A valid record to CAL.CTL stands in the four CFG words with code 0, an invalid one is refused. Where nothing holds a
CAL.REQ back and die 0 is reachable, a run request in range leaves its item pending or running, or counts MERGED where it
was pending; a cancel leaves it not pending; a gap request declares its gap; one out of range counts REFUSED with
FAULT.REQ_REFUSED; the pc passes. An automatic request, its item's minutes after the last, leaves its item pending; one
pending for 60 min is reported once. That the first automatic request of an item may come at any moment (assumption 119),
and that CAL.REQ acts in the step that issues it (assumption 13), are the model's choice. (R178, R180, R181, R182, R184.) -/
def Obligations.CalibrationRequests : Prop :=
  (∀ (u : UnitId) (t : Tag) (x : Xfer) (s : State), recordAt u t (· = 0x48) x s → passes (dieOf u) 0 s = true →
    let ws := sourceWords x s
    (calRecordOk ws = true → takesRecord (.calCtlRecord u t) u t s fun r => calCfgWords r = ws) ∧
    (calRecordOk ws = false → refusesRecord (.calCtlRecord u t) u t F.calFaultSettingsRefused s)) ∧
  (∀ (u : UnitId) (b : Src) (s : State), issues u .event (srcImm b) (srcRegs b) s → passes (dieOf u) 0 s = true →
    let w := srcVal u b s
    let item := bits w 31 28
    (11 < item ∨ itemPresent s.opt item = true) →
    let ends (i : Instr) (eff : State → Prop) : Prop := ∃ t, exec i s = .next t ∧ passed u (srcImm b) s t ∧ sameMem s t ∧ eff t
    (calReqOk w s = true →
      (bits w 27 26 = 0 → ends (.calReqRun u b) fun t =>
        (calPending item t = true ∨ calRunning item t = true) ∧
          (calPending item s = true → t.cal = s.cal ∧ getF F.calReqCountMerged t = min 65535 (getF F.calReqCountMerged s + 1))) ∧
      (bits w 27 26 = 1 → ends (.calReqCancel u b) fun t => calPending item t = false ∧ t.cal.runs = s.cal.runs) ∧
      (bits w 27 26 = 2 → ends (.calReqGap u b) fun t =>
        t.cal = { s.cal with gap := some ⟨s.time + bits w 15 0 * 10000, bits w 25 16, false⟩ } ∧ getF F.calStateDeclared t = 1)) ∧
    (calReqOk w s = false →
      let refuses (i : Instr) : Prop := ends i fun t => getF F.calFaultReqRefused t = 1 ∧ t.cal = s.cal ∧
        getF F.calReqCountRefused t = min 65535 (getF F.calReqCountRefused s + 1)
      refuses (.calReqRun u b) ∧ refuses (.calReqCancel u b) ∧ refuses (.calReqGap u b))) ∧
  ∀ (i : Fin 12) (s : State), live s = true →
    (bit (s.word F.calCfg0) 30 = true → itemPresent s.opt i = true →
      (i.val < 2 ∧ bits (s.word F.calCfg0) 29 22 ≠ 0 ∨ 4 ≤ i.val ∧ i.val ≤ 10 ∧ bits (s.word F.calCfg0) 21 14 ≠ 0) →
      (∀ a, assoc s.cal.autoAt i = some a →
        a + 6000000000 * bits (s.word F.calCfg0) (if i.val < 2 then 29 else 21) (if i.val < 2 then 22 else 14) ≤ s.periph) →
      ∃ t, exec (.calAutoRequest i) s = .next t ∧ calPending i t = true ∧ assoc t.cal.autoAt i = some s.periph ∧
        t.units = s.units ∧ sameMem s t) ∧
    (∀ a, assoc s.cal.since i = some a → (i.val < 2 ∨ i.val = 10) → a + 3600000000000 ≤ s.time → i.val ∉ s.cal.told →
      exec (.calWaiting i) s =
        .next (raise 0x1305 0xA i 0 { s with cal := { s.cal with told := i.val :: s.cal.told } }))

/-- A declared gap opens at its start and is gone after its length; a FEED_GAP gap opens outside PARK once the contact has
been high for 1.0 ms and closes when it falls for 20 ns or longer, which ends shutter runs, while a fall below 10 ns
changes nothing and one between them is taken or not; CAL.STATE shows the gaps, and the level from its rise on. A SAVE
that is due, or is retried 10 min after a FAIL, runs: what waits for the store stays, and behind it stand its writes, the
commit record of the next generation last. Where none waits behind it, it passes once no write of it is left, and only
what was accepted after its start stays unsaved; it fails with its writes gone from those that wait. (R183, R184, R198,
R200, R377, R462.) -/
def Obligations.CalibrationGapsAndSaves : Prop :=
  ∀ s : State, live s = true →
    let ends (i : Instr) (eff : State → Prop) : Prop := ∃ t, exec i s = .next t ∧ t.units = s.units ∧ sameMem s t ∧ eff t
    (∀ g, s.cal.gap = some g →
      (g.open_ = false → g.start ≤ s.time → ends .declaredGapOpen fun t =>
        t.cal = { s.cal with gap := some { g with open_ := true } } ∧ getF F.calStateGapOpen t = 1) ∧
      (g.open_ = true → g.start + g.len * 1000000 ≤ s.time → ends .declaredGapClose fun t =>
        t.cal = { s.cal with gap := none } ∧ getF F.calStateGapOpen t = b2n s.cal.feedOpen ∧ getF F.calStateDeclared t = 0)) ∧
    (s.pins.feedGap = false → ends (.feedGapOpen true) fun t =>
      t.cal = s.cal ∧ t.pins = { s.pins with feedGap := true, feedAt := s.periph } ∧ bit (liveWord F.calState t) 0 = true) ∧
    (s.mode ≠ .park → s.pins.feedGap = true → s.pins.feedAt + 100000 ≤ s.periph → ends (.feedGapOpen false) fun t =>
      t.cal = { s.cal with feedOpen := true } ∧ t.pins = s.pins ∧ getF F.calStateGapOpen t = 1) ∧
    (∀ ns, s.cal.feedOpen = true →
      let taken (t : State) : Prop := t.cal.feedOpen = false ∧ t.pins = { s.pins with feedGap := false } ∧
        bit (liveWord F.calState t) 0 = false ∧ calRunning 0 t = false ∧ calRunning 1 t = false
      (20 ≤ ns → ends (.feedGapClose ns) taken) ∧ (ns < 10 → exec (.feedGapClose ns) s = .next s) ∧
      (10 ≤ ns → ns < 20 → ends (.feedGapClose ns) fun t => taken t ∨ t = { s with free := t.free })) ∧
    (let g := lastGen s.nvs + 1
     let saves (t : State) : Prop := calRunning 11 t = true ∧ t.nvs.save = some g ∧ (∃ ws, t.nvs.queue ++ t.nvs.later = s.nvs.queue ++ s.nvs.later ++ ws) ∧
       (t.nvs.queue ++ t.nvs.later).getLast? = some ⟨2, commitKey, wordBytes (BitVec.ofNat 32 g), 0, none, true⟩
     calRunning 11 s = false →
      (∀ x, s.cal.unsaved.getLast? = some x → x.2 + bits (s.word F.calCfg0) 13 6 * 3600000000000 ≤ s.time → ends .saveDue saves) ∧
      (getF (F.calItemResultResult 11) s = 0x3C → 600000 ≤ (s.time / 1000000 + 2 ^ 32 - getF (F.calItemTimeDoneMs 11) s) % 2 ^ 32 →
        ends .saveRetry saves)) ∧
    (calRunning 11 s = true → calPending 11 s = false →
      let left := s.cal.unsaved.take (s.cal.unsaved.length - s.cal.saving)
      ((∀ w ∈ s.nvs.queue ++ s.nvs.later, w.save = false) → s.nvs.save.isSome = true → ends (.saveComplete true) fun t =>
        calRunning 11 t = false ∧ getF (F.calItemResultResult 11) t = 0xA5 ∧ t.cal.unsaved = left ∧
          t.cal.generation = lastGen s.nvs ∧ t.nvs.save = none ∧ getF F.calStateSaveDue t = b2n (!left.isEmpty)) ∧
      (ends (.saveComplete false) fun t =>
        calRunning 11 t = false ∧ getF (F.calItemResultResult 11) t = 0x3C ∧ t.nvs.save = none ∧
          t.nvs.queue ++ t.nvs.later = (s.nvs.queue ++ s.nvs.later).filter fun w => !w.save))

/-- A shutter run that may start closes an open shutter and waits armed; its measurement starts at the start of a line slot
with its thermistor reading and ends with the shutter opening. A scene run that is full ends, and one past its time ends
in FAIL. A class A run that may start waits for its first reference. A reference beyond 1 % ends it in FAIL; within, the
first and the third start a repeat, the second calls for the third, and the fourth ends the run. A repeat that is complete
keeps its trims and calls for the reference behind it. A run that ends is no longer RUNNING, counts in RUN, and shows 0xA5
or 0x3C. A CSN channel without idle time for 10 s of a repeat takes no part. No byte of memory changes. The four
references with the decision after the fourth, and the 10 s counted from the start of the repeat, are the model's choice
(assumption 56), as is that SADC waits for a shutter run the gap can still take (assumption 142). (R185, R188, R190, R193,
R195, R197, R199.) -/
def Obligations.CalibrationRunsResult : Prop :=
  ∀ s : State, live s = true →
    let ends (i : Instr) (eff : State → Prop) : Prop := ∃ t, exec i s = .next t ∧ t.units = s.units ∧ sameMem s t ∧ eff t
    let isOver (i : Nat) (t : State) : Prop := calRunning i t = false ∧
      getF (F.calItemResultRun i) t = (getF (F.calItemResultRun i) s + 1) % 65536 ∧
      (getF (F.calItemResultResult i) t = 0xA5 ∨ getF (F.calItemResultResult i) t = 0x3C)
    (∀ d : Fin 2, working s = true →
      (fdUp d s = true → calPending d s = true → calRunning d s = false → gapOpen s = true →
        gapLeaves ((bits s.focal[d].kept1 31 24 + bits s.focal[d].kept1 23 16) * 100000 + 10000000 + slotLen s * 250) s = true →
        (∀ l ∈ dieEngines d s, flag (F.algEngStatePresent l) s = false) → getF (F.fpdStateShutter d) s = 0 →
        ends (.shutRunStart d) fun t => calRunning d t = true ∧ calPending d t = false ∧ getF (F.fpdStateShutter d) t = 1 ∧
          t.cal.taint[d] = .armed ∧ (runOf d t).map (·.phase) = some .closing) ∧
      (∀ r, runOf d s = some r → r.phase = .closing → getF (F.fpdStateShutter d) s ≠ 1 → s.grid.slotAt = s.periph →
        ends (.shutMeasureStart d) fun t => runOf d t = some { r with
          phase := .measuring, refs := (shutTherm d s).toList, n := 0, total := 40000 / slotLen s
          spoiled := decide (getF (F.fpdStateShutter d) s ≠ 2), sums := List.replicate 3 (List.replicate 98304 0) }) ∧
      (∀ r, runOf d s = some r → r.phase = .measuring → r.n = r.total → calRunning d s = true →
        getF (F.fpdStateShutter d) s = 2 →
        ends (.shutMeasureEnd d) fun t => isOver d t ∧ getF (F.fpdStateShutter d) t = 3) ∧
      (∀ r, runOf (2 + d.val) s = some r → calRunning (2 + d.val) s = true → calPending (2 + d.val) s = false →
        bit (s.word F.calCfg0) 31 = false →
        (sceneFull d r s = true → ends (.sceneRunEnd d) (isOver (2 + d.val))) ∧
        (r.start + bits (nth 0 r.cfg 3) 31 16 * 1000000000 ≤ s.time →
          ends (.sceneTimeout d) fun t => isOver (2 + d.val) t ∧ getF (F.calItemResultResult (2 + d.val)) t = 0x3C))) ∧
    (∀ i : Fin 12, 4 ≤ i.val → i.val ≤ 10 →
      (classAMay i s = true → ends (.classARunStart i) fun t => calRunning i t = true ∧ calPending i t = false ∧
        (runOf i t).map (·.phase) = some (.ref 0)) ∧
      (∀ r k codes amp, runOf i s = some r → r.phase = .repeating k → working s = true → repeatDone r s = true → r.tries < 9 →
        ends (.classARepeatEnd i codes amp) fun t =>
          (runOf i t).map (fun r => (r.phase, r.meas)) = some (.ref (2 * k + 1), r.meas ++ [repeatTrims r codes amp s]))) ∧
    (∀ (d : Fin 2) ch r k, runOf (8 + d.val) s = some r → r.phase = .repeating k → r.since + 10000000000 ≤ s.time →
      (nth (0, 0) r.chans ch.val).1 ≠ 256 →
      ends (.csnIdleTimeout d ch) fun t => runOf (8 + d.val) t = some { r with dead := ch.val :: r.dead }) ∧
    (∀ (x : Inj) (v : Rat) (i : Fin 12) r j, s.sadc.inj = some x → x.src = .cal → x.key = i.val → 4 ≤ i.val → i.val ≤ 10 →
      runOf i s = some r → r.phase = .ref j → calRunning i s = true →
      let code := (sadcCode (sadcVolts x.inp x.sub v)).1
      (refOk i code = false → ends (.injectedConversionEnd v) fun t => isOver i t ∧ getF (F.calItemResultResult i) t = 0x3C) ∧
      (refOk i code = true → j = 0 ∨ j = 2 → ends (.injectedConversionEnd v) fun t =>
        (runOf i t).map (fun r => (r.phase, r.refs)) = some (.repeating (j / 2), r.refs ++ [code])) ∧
      (refOk i code = true → j = 1 → ends (.injectedConversionEnd v) fun t =>
        (runOf i t).map (fun r => (r.phase, r.refs)) = some (.ref 2, r.refs ++ [code])) ∧
      (refOk i code = true → j = 3 → ends (.injectedConversionEnd v) (isOver i)))

/-- A record every targeted engine accepts makes its settings wait at each of them, and a response that differs from the
eventual one waits for a synchronising reset with MODE 0, and with MODE 1 starts a handover, or is held behind one (a
handover accepted and without its first line yet holds it too: the model's choice, assumption 118); engines not targeted
stay. A RAM part that is valid and unused is loaded in each. A refused record sets SWAP_REFUSED or RAM_REFUSED. ALG.DET
and CSN.OUT give their oldest records whole. CSENSE settings wait with the instant they were accepted, and a block whose
samples begin at or after it takes them; a block of 64 samples enters its queue of 16 with its header, its time that of
its first sample by the clock as it ran then (the age a block may have, and its header's instant, are the model's choice,
assumption 20), each channel's history beginning with what the decimator and the scaling make of its modulator bits, from
zero state at the first block that starts at or after a reset edge. (R122, R123, R131, R137, R140, R143, R144.) -/
def Obligations.AlongAndCsenseRecords : Prop :=
  (∀ (u : UnitId) (t : Tag) (x : Xfer) (s : State), recordAt u t (· = 0x38) x s →
    let ws := sourceWords x s
    let a := nth 0 ws 0
    let ls := algTargets (bits a 31 24) s
    (∀ d ∈ algDies (bits a 31 24) s, passes (dieOf u) d s = true) →
    ((algRecordOk s.opt ws = true ∧ ∀ l ∈ ls, algEngineOk a l s = true) → takesRecord (.algCtlRecord u t) u t s fun r =>
      ∀ l : Fin 64,
        let e := s.engines[l]
        let e' := r.engines[l]
        if l.val ∈ ls then
          e'.nextCfg = some (nth 0 ws 1) ∧ e'.nextDet = some (nth 0 ws 2, nth 0 ws 3) ∧
          (swapOf a ≠ eventual e →
            (bit a 23 = false → e'.pend = some ⟨swapOf a, fadeLen a⟩) ∧
            (bit a 23 = true → e.fade = none → e'.fade = some ⟨swapOf a, fadeLen a, 0⟩) ∧
            (bit a 23 = true → e.fade ≠ none → e'.fade = e.fade ∧ e'.held = some ⟨swapOf a, fadeLen a⟩))
        else e' = e) ∧
    ((algRecordOk s.opt ws = false ∨ ∃ l ∈ ls, algEngineOk a l s = false) →
      refusesRecord (.algCtlRecord u t) u t F.algFaultSwapRefused s)) ∧
  (∀ (u : UnitId) (t : Tag) (x : Xfer) (s : State), recordAt u t (· = 0x39) x s →
    let ws := sourceWords x s
    let h := nth 0 ws 0
    let ls := algTargets (bits h 31 24) s
    (∀ d ∈ algDies (bits h 31 24) s, passes (dieOf u) d s = true) →
    let free (l : Nat) : Bool := engPlaced l s && !ramInUse (bit h 23) s.engines[(Fin.ofNat 64 l : Fin 64)]
    ((ramLoadOk ws = true ∧ ∀ l ∈ ls, free l = true) → takesRecord (.algRamLoad u t) u t s fun r =>
      ∀ l : Fin 64, r.engines[l] =
        if l.val ∈ ls then
          (if bit h 23 then { s.engines[l] with ram4 := some (2 ^ bits h 22 21, (halves (ws.drop 1)).take (bits h 20 17)) }
           else { s.engines[l] with ram3 := some (halves (ws.drop 1)) })
        else s.engines[l]) ∧
    ((ramLoadOk ws = false ∨ ∃ l ∈ ls, free l = false) → refusesRecord (.algRamLoad u t) u t F.algFaultRamRefused s)) ∧
  (∀ (u : UnitId) (t : Tag) (x : Xfer) (s : State), readAt u t (· = 0x3A) x s → passes (dieOf u) 0 s = true → x.addr = 0 →
    x.len % 16 = 0 →
    landsWords (.algDetRead u t) u t x 0 (fitWords (x.len / 4) (s.fused.det.take (x.len / 16)).flatten) s fun r =>
      r.fused = { s.fused with det := s.fused.det.drop (x.len / 16) }) ∧
  (∀ (u : UnitId) (t : Tag) (x : Xfer) (s : State), recordAt u t (fun ep => ep = 0x3C || ep = 0x3D) x s →
    passes (dieOf u) (6 + (x.ep - 0x3C)) s = true →
    let d : Fin 2 := Fin.ofNat 2 (x.ep - 0x3C)
    let ws := sourceWords x s
    (csnRecordOk ws = true → takesRecord (.csnCtlRecord u t) u t s fun r =>
      r.csn[d] = { s.csn[d] with nextCfg := s.csn[d].nextCfg ++ [(nth 0 ws 0, s.periph)] } ∧ r.status = s.status) ∧
    (csnRecordOk ws = false → refusesRecord (.csnCtlRecord u t) u t (F.csnFaultSettingsRefused d) s)) ∧
  (∀ (d : Fin 2) (age : Nat) (x : List (BitVec 64)) cmp (s : State), clocked s = true → adUp d s = true →
    let a := min age 5968
    let before (c : Nat) : Bool := decide (10 * c + a ≤ 10 * s.periph)
    let zero : Bool := s.csn[d].zeroAt.any before
    let moved := ((s.clock.shifts.filter fun y => decide (10 * s.periph ≤ 10 * y.1 + a)).map (·.2)).sum
    ∃ t b, exec (.csnBlock d age x cmp) s = .next t ∧ b.length = 36 ∧
      nth 0 b 0 = BitVec.ofInt 32 ((s.time : Int) - a - moved) ∧
      t.csn[d].nextCfg = (s.csn[d].nextCfg.filter fun y => !before y.2) ∧
      (∀ w, ((s.csn[d].nextCfg.filter fun y => before y.2).getLast?.map (·.1)) = some w → t.word (F.csnCfg d) = w) ∧
      nth 0 b 3 = BitVec.ofNat 32 (if zero then 0 else s.csn[d].block) ∧
      t.csn[d].out = (if s.csn[d].out.length < 16 then s.csn[d].out else s.csn[d].out.drop 1) ++ [b] ∧
      (∀ k : Fin 64, let old := if zero then [] else s.csn[d].chans[k].bits
        (t.csn[d].chans[k]).hist.head? = some (csnScale (decimate ((blockBits (nth 0 x k) ++ old).take 190))).1) ∧
      (∀ e, e ≠ d → t.csn[e] = s.csn[e]) ∧ t.csn[d].zeroAt = (if zero then none else s.csn[d].zeroAt) ∧
      t = { s with csn := t.csn, cal := t.cal, ejt := t.ejt, sadc := t.sadc, thm := t.thm, status := t.status, ev := t.ev, free := t.free }) ∧
  ∀ (u : UnitId) (t : Tag) (x : Xfer) (s : State), readAt u t (fun ep => ep = 0x3E || ep = 0x3F) x s →
    passes (dieOf u) (6 + (x.ep - 0x3E)) s = true → x.addr = 0 → x.len % 144 = 0 →
    let d : Fin 2 := Fin.ofNat 2 (x.ep - 0x3E)
    landsWords (.csnOutRead u t) u t x 0 (fitWords (x.len / 4) (s.csn[d].out.take (x.len / 144)).flatten) s fun r =>
      r.csn[d] = { s.csn[d] with out := s.csn[d].out.drop (x.len / 144) }

/-- A valid COR.MODEL record waits last for its boundary, a valid COR.CTL record waits with GRID.PENDING 1, a valid COR.REG
map waits for its port; an invalid one is refused. The oldest row slot on its way is corrected: its row joins the line
slot's rows with 2,048 results, and where 4 references are valid, an active pixel a link delivers that is not BAD (or any
of a blind row) carries the value of the correction formula, and TAINT where its word fails parity; a blind row's column
of a die in die reset is 0 with TAINT; a row is a ramp row if it was converted in a ramp repeat. COR.BLIND gives the blind
row held. An entry that failed parity is reloaded from its master copy, or the default where the die runs without a model,
with its drift kept (the model's choice, assumption 89). (R81, R152, R154, R155, R157, R159, R160, R174.) -/
def Obligations.PixelCorrectionResults : Prop :=
  (∀ (u : UnitId) (t : Tag) (x : Xfer) (s : State),
    let ws := sourceWords x s
    let h := nth 0 ws 0
    (recordAt u t (· = 0x40) x s → (∀ d ∈ modelDies s.opt h, passes (dieOf u) d s = true) →
      (modelRecordOk s.opt ws = true → takesRecord (.corModelRecord u t) u t s fun r =>
        r.corr = { s.corr with waiting := s.corr.waiting ++ [modelRec s.opt ws] }) ∧
      (modelRecordOk s.opt ws = false → refusesRecord (.corModelRecord u t) u t F.corFaultModelRefused s)) ∧
    (recordAt u t (· = 0x42) x s → passes (dieOf u) 0 s = true →
      (corRecordOk s.opt ws = true → takesRecord (.corCtlRecord u t) u t s fun r =>
        r.corr = { s.corr with grid := some h, vcfg := some (nth 0 ws 1, nth 0 ws 2) } ∧ getF F.corGridPending r = 1) ∧
      (corRecordOk s.opt ws = false → refusesRecord (.corCtlRecord u t) u t F.corFaultSettingsRefused s)) ∧
    (let p : Fin 2 := Fin.ofNat 2 (b2n (bit h 31))
     recordAt u t (· = 0x43) x s → passes (dieOf u) (camDie s.opt p) s = true →
      (regMapOk ws s = true → takesRecord (.corRegMap u t) u t s fun r =>
        r.fused = { s.fused with regNext := s.fused.regNext.set p (some (ws.drop 1)) }) ∧
      (regMapOk ws s = false → refusesRecord (.corRegMap u t) u t F.corFaultRegRefused s))) ∧
  (∀ (d : Fin 2) (row : Fin 50) (a b : List Word) ramp rest bad refs (s : State), working s = true →
    s.focal[d].sent = (row.val, a, b, ramp) :: rest →
    let nq := nqOf (getF (F.fpdStateBand d) s)
    let key (c : Nat) : Nat := siteKey d row c
    let sd (c : Nat) : Nat := streamDieOf s.opt d c
    let cm (c : Nat) : Option Int := commonMode (sd c) d row nq (refsOf s.opt (sd c) d a b) s
    ∃ t out, exec (.rowSlotCorrection d row bad refs) s = .next t ∧ t.focal[d].sent = rest ∧
      t.corr.dies[d].rows = s.corr.dies[d].rows ++ [⟨row.val, out, ramp.isSome⟩] ∧ out.length = 2048 ∧
      (∀ c v w, c < 2048 → dieUp (sd c) s = true → colWord d a b c = some w → cm c = some v →
        (48 ≤ row.val ∨ ((entryAt (key c) s).badPix = false ∧ ∀ k ∈ s.corr.badEntries, k.1 ≠ key c)) →
        dec 24 (bits (nth 0 out c) 23 0) =
          (correctPixel (entryAt (key c) s) (driftAt (key c) s) nq v (dtqOf s.corr.dies[d].sub) (wordCode w)).1 ∧
        ((bad.any fun k => k.val = c) = true → bit (nth 0 out c) 25 = true)) ∧
      (∀ c, c < 2048 → dieUp (sd c) s = false → 48 ≤ row.val → nth 0 out c = 0x2000000) ∧
      t.corr.model = s.corr.model ∧
      t = { s with focal := t.focal, corr := t.corr, cal := t.cal, status := t.status, ev := t.ev }) ∧
  (∀ (u : UnitId) (t : Tag) (x : Xfer) (s : State), readAt u t (· = 0x41) x s →
    passes (dieOf u) (streamDieOf s.opt (x.addr / 2) 0) s = true → x.addr < 4 → (s.opt = .zt4 → x.addr < 2) →
    let d : Fin 2 := Fin.ofNat 2 (x.addr / 2)
    (∀ e ∈ corrDies s.opt d, dieUp e s = true) →
    landsWords (.corBlindRead u t) u t x 0 (fitWords (x.len / 4) (blindHeld d (x.addr % 2) s)) s fun r => r.corr = s.corr) ∧
  ∀ (d : Fin 2) (row : Fin 50) (col : Fin 2048) (s : State), live s = true → diePresent s.opt (4 + d.val) = true →
    (∃ k ∈ s.corr.badEntries, k.1 = siteKey d row col) →
    ∃ t, exec (.modelParityReload d row col) s = .next t ∧ (∀ k ∈ t.corr.badEntries, k.1 ≠ siteKey d row col) ∧
      entryAt (siteKey d row col) t =
        (if s.corr.dies[d].noModel then Entry.dflt else (masterEntry d row col s).getD Entry.dflt) ∧
      (∀ k, k ≠ siteKey d row col → entryAt k t = entryAt k s) ∧ t.corr.drift = s.corr.drift ∧
      t = { s with corr := t.corr, status := t.status }

/-- When every running pacer has ended its row slots, the boundary begins the next line slot: its number goes on modulo 2^24,
its time is the newest stamp, the accepted length is in force and no row stands corrected. The internal reset edge begins
line 0, with only the later edges in view, fused lines from 0, none waiting, and no trigger at a port; grid settings and
swaps that waited for it are in force, every band is in DEFAULT with no row kept; the FUSED ring stays over it (the
model's choice, assumption 103) and a fused line that waited for its cameras enters it then (the model's choice,
assumption 133). The end of a camera wait, WAIT having passed, fixes the camera lines its port gives; a fused line every
port has completed leaves for the ring with its words and shows in COR.FUSED.LINE; of 8 lines held the oldest, which no
transfer reads, goes, counted in OVERRUN if unread. A read of FUSED whose line's notices have arrived gives the bytes of
the line, with TAINT in each pixel word that fails parity, and marks the line read, or counts STALE with code 5. (R98,
R100, R118, R137, R160, R164, R166, R172, R219, R240.) -/
def Obligations.LineSlotsAndFusedLines : Prop :=
  (∀ s : State, working s = true →
    (atBoundary s = true → s.grid.lastEdge.isSome = true →
      ∃ t, exec .lineSlotBoundary s = .next t ∧ t.grid.line = (s.grid.line + 1) % 2 ^ 24 ∧
        t.grid.stamps = (s.time :: s.grid.stamps).take 256 ∧ getF (F.fpdStateLineSlot 0) t = bits s.focal[(0 : Fin 2)].kept0 11 0 ∧
        (∀ d : Fin 2, t.corr.dies[d].rows = []) ∧ t.units = s.units ∧ sameMem s t) ∧
    (∀ c, s.grid.edge = some c →
      ∃ t, exec .syncResetEdge s = .next t ∧ t.grid.line = 0 ∧ pendingEdges t = s.grid.later ∧ t.grid.lastEdge = some c ∧
        t.grid.stamps = [s.time] ∧ t.fused.next = 0 ∧ t.fused.waiting = [] ∧
        (s.fused.waiting = [] → t.fused.ring = s.fused.ring) ∧
        (∀ ws w, s.fused.waiting = ws ++ [w] → ∃ y, t.fused.ring.getLast? = some y ∧ y.num = w.num) ∧
        (∀ a, s.corr.grid = some a → t.corr.grid = none ∧ t.word F.corGrid = putBits a 1 0 0) ∧
        (∀ b ∈ bandsOf s.opt, getF (F.velBandState b) t = 2 ∧ t.bands[b].slot = 0 ∧ t.bands[b].xs = []) ∧
        (∀ l : Fin 64, l.val < engCount s.opt → t.engines[l].pend = none ∧ t.engines[l].fade = none ∧
          ∀ p, s.engines[l].pend = some p → t.engines[l].path = p.dest) ∧
        (∀ p : Fin 2, t.cam.ports[p].trigs = [] ∧ t.cam.ports[p].trigNum = 0 ∧ t.cam.ports[p].hist = []) ∧
        getF (F.fpdSyncSyncTaken 0) t = min 65535 (getF (F.fpdSyncSyncTaken 0) s + 1) ∧ t.units = s.units ∧ sameMem s t) ∧
    (∀ w rest, s.fused.waiting = w :: rest →
      (∀ p : Fin 2, camReady p w (takeMaps s) = false → w.since + 100 * bits (camCfg p 1 s) 27 20 ≤ s.periph →
        ∃ t, exec (.camWaitEnd p) s = .next t ∧
          t.fused = { s.fused with waiting := { w with late := (p, camSpots p w (takeMaps s)) :: w.late } :: rest } ∧
          t = { s with fused := t.fused, cam := t.cam, lum := t.lum, status := t.status, ev := t.ev, free := t.free }) ∧
      (let s' := takeMaps s
       dieUp (asmDie s.opt) s = true → camReady 0 w s' = true → camReady 1 w s' = true → s.fused.ring.length < 8 →
        ∃ t, exec .fusedLineEntry s = .next t ∧ t.fused.waiting = rest ∧
          t.fused.ring = s.fused.ring ++ [⟨w.num, fusedWords w s', false⟩] ∧ getF F.corFusedLine t = w.num % 2 ^ 32 ∧
          t.units = s.units ∧ sameMem s t) ∧
      (let s' := takeMaps s
       ∀ y ys, dieUp (asmDie s.opt) s = true → camReady 0 w s' = true → camReady 1 w s' = true → s.fused.ring = y :: ys →
        ys.length = 7 → lineRead y s = false →
        ∃ t, exec .fusedLineEntry s = .next t ∧ t.fused.ring = ys ++ [⟨w.num, fusedWords w s', false⟩] ∧
          getF F.stcFusedOverrun t = min 65535 (getF F.stcFusedOverrun s + if y.read then 0 else 1)))) ∧
  ∀ (u : UnitId) (t : Tag) (x : Xfer) (s : State), readAt u t (· = 0x28) x s → passes (dieOf u) (asmDie s.opt) s = true →
    let line := fusedAt x s
    let off := x.addr % 131072
    (∀ l bad, line = some l → off + x.len ≤ 4 * l.words.length → noticesOut u t s = false →
      (∀ i ∈ bad, 4 + 4 * bandCount s.opt ≤ i ∧ i < l.words.length ∧ off ≤ 4 * i ∧ 4 * i < off + x.len) →
      landsWords (.fusedRead u t bad) u t x 0 (sliceWords (ringWords bad l.words) off x.len) s fun r =>
        (r.fused.ring = s.fused.ring.map fun y => if y = l then { y with read := true } else y) ∧
        getF F.stcParityTaintParity r = min 65535 (getF F.stcParityTaintParity s + bad.dedup.length)) ∧
    (line = none → ∀ bad,
      ∃ r, exec (.fusedRead u t bad) s = .next r ∧ r.xfers = (setCode u t 5 s).xfers ∧ sameMem s r ∧ r.fused = s.fused ∧
        getF F.stcFusedStale r = min 65535 (getF F.stcFusedStale s + 1))

/-- At a boundary whose rows are all corrected: a pacer that goes on takes the band, the band lock and DIAG that were set,
begins row 0 with the new time as its stamp; one whose record has RUN 0 stops; one whose record has RUN 1 starts beside a
running one, and its bands begin in DEFAULT with no row kept. The model records that waited are in force, and the
estimator settings. Each engine takes DEPTH, SH1 and SH2 of its record. For a band that is seen and goes on, each engine
forms its S1 row and its lap, and a handover goes on by one line for each product line made, to its response; the band
latches its next lap, keeps its rows, and, JOINED being 0, follows the table of estimator states; each new position lies
one step behind the one before it; each product line that all four parts stand for completes, with its view-line time, the
velocity of its position and the bound 1.3 ms after the newest stamp. A blind band's position advances by 1 from 0 in its
first slot, and where it passes a multiple of the default step the band completes a blind line. A fused line formed has
the next number and the newest stamp. (R100, R105, R123, R126, R127, R130, R137, R153, R163, R164, R165, R168.) -/
def Obligations.LineSlotTakesUp : Prop :=
  ∀ s : State, working s = true → atBoundary s = true → s.grid.lastEdge.isSome = true → (∀ p, s.mode ≠ .entering p) →
    (∀ d : Fin 2, s.focal[d].sent = []) →
    let stays (d : Fin 2) : Prop := pacing d s = true ∧ fdUp d s = true ∧ recRun s.focal[d] = true
    let newest := nth 0 s.grid.stamps 0
    ∃ t, exec .lineSlotBoundary s = .next t ∧
      (∀ d : Fin 2, let e := s.focal[d]
        (stays d → pacing d t = true ∧ t.focal[d].row = 0 ∧ t.focal[d].stamp = s.time ∧ t.focal[d].pend = none ∧
          getF (F.fpdStateBand d) t = wantedBand d s % 32 ∧ getF (F.fpdStateBandLock d) t = b2n (recLock e) ∧
          getF (F.fpdStateDiag d) t = b2n (recDiag e)) ∧
        (pacing d s = true → fdUp d s = true → recRun e = false → pacing d t = false) ∧
        (pacing d s = false → pacing (1 - d) s = true → fdUp d s = true → recRun e = true → pacing d t = true ∧
          ∀ b ∈ bandsOf s.opt, bandFd b = d → getF (F.velBandState b) t = 2 ∧ t.bands[b].slot = 0 ∧ t.bands[b].xs = [])) ∧
      t.corr.waiting = [] ∧ t.corr.vcfg = none ∧
      (∀ b c, s.corr.vcfg = some (b, c) → t.word F.corVcfg = b ∧ t.word F.corVarMin = c) ∧
      (∀ r, s.corr.waiting = [r] → r.cal = none → r.part = 0 → (∀ i, calRunning i s = false) → (∀ d : Fin 2, s.cal.convNext[d] = none) →
        t.corr.model = (recordCols r s.opt).foldl (fun m i =>
          assocSet (siteKey r.die r.row (r.first + i)) (decodeEntry ((toBytes r.data).drop (10 * i))) m) s.corr.model) ∧
      (∀ l : Fin 64, l.val < engCount s.opt → t.engines[l].nextCfg = none ∧
        bits (t.word (F.algEngCfg l)) 31 15 = bits (s.engines[l].nextCfg.getD (s.word (F.algEngCfg l))) 31 15) ∧
      (∀ b ∈ bandsOf s.opt, getF (F.velBandState b) t = 2 → getF (F.velBandVelocity b) t = getF F.corVcfgVDef t) ∧
      (∀ b ∈ bandsOf s.opt, stays (bandFd b) → bandBlind b s = false → s.bands[b].blind = none → s.bands[b].owed = false →
        let e := s.bands[b]
        let r := t.bands[b]
        let v := getF (F.velBandVelocity b) s
        let step := (clampI 81920 1048576
          (rndRat ((65536 * 40000 * gridPitch s : Nat) / ((v * slotLen s : Nat) : Rat)))).toNat
        r.slot = e.slot + 1 ∧ r.laps.head? = some (latchLap (getF (F.velBandVelocity b) t) t).1 ∧
        r.xs = (((List.range 48).map fun k =>
          match s.corr.dies[bandFd b].rows.find? fun x => x.row = k with
          | some x => (x.out.drop (bandCol b)).take 256
          | none => List.replicate 256 0x2000000, slotLen s) :: e.xs).take 5 ∧
        (∀ l ∈ bandEngines b,
          let g := s.engines[l]
          let g' := t.engines[l]
          g'.x1 = engineInput l s ∧ g'.ys = ((s1Slot l s).1 :: g.ys).take 65 ∧
          g'.zs.head? = some ((lapLine e.slot (((lapOf e e.slot).map (·.q)).getD 0) (getF (F.algEngCfgSh2 l) s) g.changes g'.ys).map (·.1)) ∧
          (g.fade = none → g'.path = g.path ∧ g'.fade = none) ∧
          (∀ f, g.fade = some f → (g'.next < g.next + (f.len - f.i) → g'.path = g.path ∧ g'.fade = some { f with i := f.i + (g'.next - g.next) }) ∧
            (f.i < f.len → g'.next = g.next + (f.len - f.i) → g'.path = f.dest ∧ g'.held = none ∧
              g'.fade = g.held.map fun h => { dest := h.dest, len := h.fade, i := 0 }))) ∧
        (getF (F.velBandJoined b) s = 0 → getF F.corVcfgLag s < e.xs.length →
          let x := estimate b (modBand b (fun y => { y with xs := r.xs }) s)
          let good : Prop := x.valid = true ∧ getF F.corVcfgConfMin s ≤ x.conf
          let st := getF (F.velBandState b) s
          let h := getF (F.velBandShiftHoldLines b) s
          let now (st' : Nat) (v' : Int) : Prop := getF (F.velBandState b) t = st' ∧ (getF (F.velBandVelocity b) t : Int) = v'
          let dflt : Prop := now 2 (getF F.corVcfgVDef t)
          getF (F.velBandConf b) t = x.conf ∧
          (good → st = 2 → now 0 x.v) ∧
          (good → st ≠ 2 → now 0 (clampI 0 65535 (v + rneShift (getF F.corVcfgSmooth s) (x.v - v)))) ∧
          (¬ good → st = 0 → now 1 v ∧ getF (F.velBandShiftHoldLines b) t = 1) ∧
          (¬ good → st = 1 → h < 64 → now 1 v ∧ getF (F.velBandShiftHoldLines b) t = h + 1) ∧
          (¬ good → st = 1 → 64 ≤ h → dflt) ∧ (¬ good → st = 2 → dflt)) ∧
        (∀ pl ∈ r.lines, (∀ q ∈ e.lines, q.n ≠ pl.n) →
          pl.vel = v ∧ ∃ q ∈ r.lines, q.n + 1 = pl.n ∧ pl.pos = q.pos + step ∧ q.step = some step) ∧
        e.next ≤ r.next ∧
        (r.next < e.next + 8 → ¬ ((∃ pl ∈ r.lines, pl.n = r.next) ∧ ∀ l ∈ bandEngines b, ∃ p ∈ t.engines[l].parts, p.n = r.next)) ∧
        (∀ x, (x ∈ r.done ∨ ∃ w ∈ t.fused.waiting, w ∉ s.fused.waiting ∧ nth none w.bands b = some x) → x ∉ e.done →
          e.next ≤ x.n ∧ x.n < r.next ∧ x.blind = false ∧ x.bound = newest + 1300000 ∧
            ∃ pl ∈ r.lines, pl.n = x.n ∧ x.vel = pl.vel ∧ x.view = viewTime e pl.pos s)) ∧
      (∀ b ∈ bandsOf s.opt, bandBlind b s = true →
        let e := s.bands[b]
        let r := t.bands[b]
        (e.blind = none → r.blind = some 0 ∧ r.next = e.next) ∧
        (∀ x, e.blind = some x → r.blind = some (x + 1) ∧
          (((x + 1 : Nat) : Rat) / blindStep s).floor = ((x : Rat) / blindStep s).floor → r.next = e.next) ∧
        (∀ x, e.blind = some x → ((x : Rat) / blindStep s).floor < (((x + 1 : Nat) : Rat) / blindStep s).floor →
          r.next = e.next + 1 ∧ r.last = (e.next, blindView s) ∧
          (dieUp (asmDie s.opt) s = true → e.done = [] → ∃ y, (y ∈ r.done ∨ ∃ w ∈ t.fused.waiting, nth none w.bands b = some y) ∧ y.n = e.next ∧
            y.blind = true ∧ y.warm = false ∧ y.vel = getF F.corVcfgVDef s ∧ y.view = blindView s ∧ y.pix = List.replicate 256 dropPixel))) ∧
      (dieUp (asmDie s.opt) s = true → (∃ b ∈ bandsOf s.opt, s.bands[b].done ≠ []) →
        ∃ w, t.fused.waiting = s.fused.waiting ++ [w] ∧ w.num = s.fused.next ∧ w.line = s.grid.line ∧ w.stamp = newest ∧
          w.bands.length = bandCount s.opt ∧ t.fused.next = (s.fused.next + 1) % 2 ^ 32)

/-- A valid settings record waits for its times; a valid pipeline record or defect map is in force at once between lines and
else waits; an invalid one is refused. A trigger of the line slot that has not come yet and rises within it is recorded
with its index, its time, its line time, how long it stays high and its exposure window. A clock with LVAL and DVAL gives
an open line its pixels up to LINE_LEN, and past it counts LONG once. A closed line is admitted once the pipeline is free,
which it occupies for 2.5 ns a pixel, and the one admitted before it has its place by index then; the next line, once its
lookahead has closed, leaves the pipeline with four channels and its padded marks. That a record or map waits while a line
or a frame is open, and that the index counts the triggers issued, are the model's choice (assumption 29). (R203, R205,
R206, R207, R213, R215, R217, R218.) -/
def Obligations.CameraRecordsAndPixels : Prop :=
  (∀ (u : UnitId) (t : Tag) (x : Xfer) (s : State),
    let ws := sourceWords x s
    let here (a b : Nat) (p : Fin 2) : Prop := recordAt u t (fun ep => ep = a || ep = b) x s ∧ p = Fin.ofNat 2 (x.ep - a) ∧
      passes (dieOf u) (camDie s.opt p) s = true
    ∀ p : Fin 2,
    let c := s.cam.ports[p]
    let between : Prop := c.line = none ∧ c.frame = none
    (here 0x50 0x51 p →
      (camRecordOk p ws s = true → takesRecord (.camCtlRecord u t) u t s fun r =>
        r.cam.ports[p] = { c with nextSync := some ws, nextSlot := some ws, nextCh := some (nth 0 ws 0) }) ∧
      (camRecordOk p ws s = false → refusesRecord (.camCtlRecord u t) u t (F.camFaultSettingsRefused p) s)) ∧
    (here 0x52 0x53 p →
      (camPipeOk ws = true → takesRecord (.camPipeRecord u t) u t s fun r =>
        (between → r.cam.ports[p].pipe = ws) ∧ (¬ between → r.cam.ports[p] = { c with pipeNext := some ws })) ∧
      (camPipeOk ws = false → refusesRecord (.camPipeRecord u t) u t (F.camFaultPipeRefused p) s)) ∧
    (here 0x54 0x55 p →
      let m := (ws.drop 1).map fun w => (bits w 15 14, bits w 13 0)
      (camDefectOk p ws s = true → takesRecord (.camDefectMap u t) u t s fun r =>
        (between → r.cam.ports[p].defects = m) ∧ (¬ between → r.cam.ports[p] = { c with defectsNext := some m })) ∧
      (camDefectOk p ws s = false → refusesRecord (.camDefectMap u t) u t (F.camFaultDefectRefused p) s))) ∧
  ∀ (p : Fin 2) (s : State), camOn p s = true →
    let c := s.cam.ports[p]
    let ends (i : Instr) (eff : State → Prop) : Prop :=
      ∃ t, exec i s = .next t ∧ t = { s with cam := t.cam, status := t.status, ev := t.ev, free := t.free } ∧ eff t
    (∀ k : Fin 4, pacing 0 s = true → k.val < camTriggers p s →
      let rise := (trigTimes p k s).1
      let at_ := s.focal[(0 : Fin 2)].stamp + rise
      let delay := (trigTimes p k s).2.1
      let len := (trigTimes p k s).2.2
      k.val ∉ c.fired → rise < getF (F.fpdStateLineSlot 0) s * 250 →
      ends (.camTrigger p k) fun t => t.cam.ports[p].trigNum = c.trigNum + 1 ∧
        ∃ x, t.cam.ports[p].trigs = x :: c.trigs ∧ x.num = c.trigNum ∧ x.at_ = at_ ∧ x.lt = (at_ + delay + len / 2 : Nat) ∧
          x.high = bits (camCfg p 2 s) 15 8 * 100 ∧ x.exp = (if bit (camCfg p 0 s) 22 then some (delay, len) else none)) ∧
    (∀ l x, c.line = some l → l.trig.isSome = true →
      let n := camLineLen p s
      (l.pix.length < n → ends (.pclkRisingEdge p x true true) fun t =>
        t.cam.ports[p].line = some { l with
          lval := true
          pix := ((clockPixels (bits (camCfg p 0 s) 29 28) x).take (n - l.pix.length)).reverse ++ l.pix }) ∧
      (n ≤ l.pix.length → l.long = false → ends (.pclkRisingEdge p x true true) fun t =>
        t.cam.ports[p].line = some { l with long := true, lval := true } ∧
          getF (F.camShortLongLong p) t = min 65535 (getF (F.camShortLongLong p) s + 1))) ∧
    (∀ l rest bad, c.closed = l :: rest → dieUp 1 s = true → (s.cam.last = some p → s.cam.ports[1 - p].closed = []) →
      s.cam.busy ≤ 20 * s.periph →
      let size := (l.rows.map (·.length)).sum
      (∀ i ∈ bad, i < size) →
      ends (.camLineAdmit p bad) fun t => t.cam.ports[p].closed = rest ∧
        t.cam.ports[p].adm = some { l with rows := spoilRows bad l.rows } ∧
        t.cam.ports[p].hist = (match c.adm with
          | some k => camInsert k c.hist
          | none => c.hist) ∧ t.cam.last = some p ∧
        t.cam.busy = 20 * s.periph + 5 * size) ∧
    (∀ l, (c.hist.find? fun k => k.num = c.nextOut) = some l →
      (∀ i, i ≤ lookahead c.pipe (camArea p s) → ∃ k ∈ c.hist, k.num = c.nextOut + i) →
      ∃ t, exec (.camLineOut p) s = .next t ∧ t = { s with cam := t.cam, lum := t.lum, free := t.free } ∧
        t.cam.ports[p].nextOut = l.num + 1 ∧
        ∃ o, t.cam.ports[p].outs = c.outs ++ [o] ∧ o.num = l.num ∧ o.lt = l.lt ∧ o.empty = l.empty ∧
          o.pads.length = camLineLen p s ∧ o.chans.length = 4 ∧ ∀ ch ∈ o.chans, ch.length = camLineLen p s)

/-- At a port in LINE mode without frames: a line that opens with a free trigger and a free buffer takes that trigger, counts
in LINES and holds no pixel yet; one without a free trigger counts UNEXPECTED and holds none; a trigger that times out
without a line gets a fully padded one and counts in LATE. A line that closes stands closed, padded to LINE_LEN, its
trigger done. With frames, a frame opens empty; a line inside one takes the next index of it, with its trigger, up to
FRAME_LINES, and one past them counts LONG_FRAME; a frame that ends gives each free trigger of a missing line a padded
line, counted in SHORT_FRAME, and with none missing only closes. In AREA mode a frame opens with the free trigger; a row
inside the window is kept for it and any other row discarded; a row that closes joins the window padded to LINE_LEN, and
the last one of the window closes it as the trigger's line; where the frame ends first, an open row keeps its pixels and
the rows that are missing are padded, each counted in SHORT_FRAME. (R204, R210, R211.) -/
def Obligations.CameraFraming : Prop :=
  ∀ (p : Fin 2) (s : State), camOn p s = true →
    let c := s.cam.ports[p]
    let full := camFrameLines p s
    let h := tileH c.pipe
    let blank := List.replicate (camLineLen p s) (camPad p 0 s, true)
    let ends (i : Instr) (eff : State → Prop) : Prop :=
      ∃ t, exec i s = .next t ∧ t = { s with cam := t.cam, status := t.status, ev := t.ev } ∧ eff t
    let counts (g : Fld) (n : Nat) (t : State) : Prop := getF g t = min 65535 (getF g s + n)
    let paired (t : State) : Prop := getF (F.camLinesLines p) t = (getF (F.camLinesLines p) s + 1) % 2 ^ 32 ∧ freeTrigger p t = none
    let opens (tr : Option Nat) (row : Nat) (t : State) : Prop := t.cam.ports[p].line = some ⟨tr, [], row, false, true⟩
    let rowOf (l : CamOpen) (row : List (Int × Bool)) : Prop := row.length = camLineLen p s ∧
      row.take l.pix.length = ((l.pix.reverse.map fun v => (v, false)).take (camLineLen p s))
    (camArea p s = false →
      (full = 0 → c.line = none → c.frame = none →
        (∀ n, freeTrigger p s = some n → camClosed p s < 2 → ends (.camLineOpen p) fun t => opens (some n) 0 t ∧ paired t) ∧
        (freeTrigger p s = none → ends (.camLineOpen p) fun t => opens none 0 t ∧ counts (F.camStartUnexpected p) 1 t) ∧
        (∀ x, oldestOpen p s = some x → (c.trigs.find? fun y => y.num = x.num) = some x →
          x.at_ + bits (camCfg p 1 s) 19 10 * 1000 ≤ s.time → camClosed p s < 2 →
          ends (.camLineTimeout p) fun t =>
            (∃ l ∈ t.cam.ports[p].closed, l.num = x.num ∧ l.lt = x.lt ∧ l.empty = true ∧ l.rows = [blank]) ∧
            counts (F.camLateSynth p) 1 t)) ∧
      (∀ l n x, c.line = some l → l.trig = some n → (c.trigs.find? fun y => y.num = n) = some x → 0 < camLineLen p s →
        ends (.camLineClose p) fun t => t.cam.ports[p].line = none ∧
          ∃ k ∈ t.cam.ports[p].closed, k.num = n ∧ k.lt = x.lt ∧ k.empty = l.pix.isEmpty ∧ ∃ row, k.rows = [row] ∧ rowOf l row) ∧
      (full ≠ 0 → c.line = none → ends (.camFrameOpen p) fun t => t.cam.ports[p].frame = some ⟨none, 0, []⟩) ∧
      (∀ f, c.frame = some f → full ≠ 0 → c.line = none →
        (f.count < full → ∀ n, freeTrigger p s = some n → camClosed p s < 2 → ends (.camLineOpen p) fun t =>
          opens (some n) f.count t ∧ paired t ∧ t.cam.ports[p].frame = some { f with count := f.count + 1 }) ∧
        (f.count < full → freeTrigger p s = none → ends (.camLineOpen p) fun t =>
          opens none f.count t ∧ counts (F.camStartUnexpected p) 1 t ∧ t.cam.ports[p].frame = some f) ∧
        (full ≤ f.count → ends (.camLineOpen p) fun t =>
          opens none f.count t ∧ counts (F.camFrameLongFrame p) 1 t ∧ t.cam.ports[p].frame = some f)) ∧
      (∀ f, c.frame = some f →
        let ns := (((c.trigs.filter fun x => !x.lined).map (·.num)).reverse).take (full - f.count)
        ends (.camFrameEnd p) fun t => t.cam.ports[p].frame = none ∧ counts (F.camFrameShortFrame p) ns.length t ∧
          (∀ x ∈ t.cam.ports[p].trigs, x.num ∈ ns → x.done = true) ∧
          (ns = [] → t.cam.ports[p].closed = c.closed ∧ t.ev = s.ev))) ∧
    (camArea p s = true →
      (full ≠ 0 → c.line = none → ∀ n, freeTrigger p s = some n → camClosed p s < 2 →
        ends (.camFrameOpen p) fun t => t.cam.ports[p].frame = some ⟨some n, 0, []⟩ ∧ paired t) ∧
      (∀ f, c.frame = some f → c.line = none →
        (f.count < full → ends (.camLineOpen p) fun t => opens (if inWindow p f.count s then f.trig else none) f.count t ∧
          t.cam.ports[p].frame = some { f with count := f.count + 1 }) ∧
        (full ≤ f.count → ends (.camLineOpen p) fun t => opens none f.count t ∧ counts (F.camFrameLongFrame p) 1 t)) ∧
      (∀ n k rs, c.frame = some ⟨some n, k, rs⟩ → ∀ x, (c.trigs.find? fun y => y.num = n) = some x →
        let closes (rows : List (List (Int × Bool))) (t : State) : Prop :=
          ∃ y ∈ t.cam.ports[p].closed, y.num = n ∧ y.lt = x.lt ∧ y.rows = rows
        (∀ l, c.line = some l → l.trig = some n → ends (.camLineClose p) fun t => t.cam.ports[p].line = none ∧ ∃ row, rowOf l row ∧
          (rs.length + 1 < h → t.cam.ports[p].frame = some ⟨some n, k, rs ++ [row]⟩) ∧
          (h ≤ rs.length + 1 → closes (rs ++ [row]) t ∧ t.cam.ports[p].frame = some ⟨none, k, []⟩)) ∧
        (c.line = none → rs.length < h → ends (.camFrameEnd p) fun t => t.cam.ports[p].frame = none ∧
          closes (rs ++ List.replicate (h - rs.length) blank) t ∧ counts (F.camFrameShortFrame p) (h - rs.length) t) ∧
        (∀ l, c.line = some l → l.trig = some n → rs.length < h → ends (.camFrameEnd p) fun t => t.cam.ports[p].frame = none ∧
          ∃ row, rowOf l row ∧ closes (rs ++ row :: List.replicate (h - (rs.length + 1)) blank) t ∧
            counts (F.camFrameShortFrame p) (h - (rs.length + 1)) t)))

/-- On a link that is up: a data flit that its sender may send next is kept by it, 64 unacknowledged at most; whole and in
sequence it is delivered and moves the sequence on; one that fails its parity starts the discarding that a replay ends,
and on the fourth reception makes the link fatal; while discarding nothing is delivered. An idle flit acknowledges: the
buffer of the other direction keeps what follows the flit named. A replay request for the expected flit counts once in
REPLAYS, sends the sender back to it and ends the discarding. A fatal link is down and shown with STC.FAULT.LINK_FATAL;
its traffic moves where it has second paths, and is then shown REMAPPED with its buffers resent, and what waited for the
path arrives. Every other link, every unit and memory stay. (R230, R231, R232, R233.) -/
def Obligations.LinkTraffic : Prop :=
  ∀ (l : Fin 16) (s : State), clocked s = true →
    let only (t : State) : Prop := (∀ k, k ≠ l → t.links[k] = s.links[k]) ∧
      t = { s with links := t.links, status := t.status, ev := t.ev }
    let fatal (t : State) : Prop := linkUp l t = false ∧ flagAt F.stcLinkFatalFatal l t = true ∧ getF F.stcFaultLinkFatal t = 1 ∧
      (t.links[l]).moving = !(secondPaths s.opt l).isEmpty
    (linkUp l s = true → ∀ (up : Bool) (f : Flit) (noise : List (BitVec 33)),
      let g := sentFlit f noise
      flitOk g = true →
      let d := linkDir up s.links[l]
      let sent := keepSent d g
      let becomes (e : LinkDir) : Prop := ∃ t, exec (.flitReceived l up f noise) s = .next t ∧ linkDir up t.links[l] = e ∧
        linkDir (!up) t.links[l] = linkDir (!up) s.links[l] ∧ t.status = s.status ∧ t.ev = s.ev ∧ only t
      (f.type = 1 → f.ack.getLsbD 7 = false →
        (maySend d g = false → exec (.flitReceived l up f noise) s = .next s) ∧
        (maySend d g = true →
          (d.discarding = true → becomes sent) ∧
          (d.discarding = false → f.seq = d.expect →
            (flitOk f = true → becomes { sent with expect := f.seq + 1, attempts := 0, inbox := (f :: d.inbox).take 64 }) ∧
            (flitOk f = false → d.attempts < 3 → becomes { sent with discarding := true }) ∧
            (flitOk f = false → 3 ≤ d.attempts →
              ∃ t, exec (.flitReceived l up f noise) s = .next t ∧ fatal t ∧ only t)))) ∧
      (f.type = 0 → flitOk f = true → f.ack.getLsbD 7 = true →
        let q : Fin 128 := Fin.ofNat 128 (f.ack.toNat % 128)
        let b := (linkDir (!up) s.links[l]).buf
        ∃ t, exec (.flitReceived l up f noise) s = .next t ∧
          (∀ a e r, b = a ++ e :: r → e.seq = q → (∀ x ∈ a, x.seq ≠ q) → (linkDir (!up) t.links[l]).buf = r) ∧
          ((∀ x ∈ b, x.seq ≠ q) → (linkDir (!up) t.links[l]).buf = b) ∧
          linkDir up t.links[l] = d ∧ t.status = s.status ∧ t.ev = s.ev ∧ only t) ∧
      (d.discarding = true → ∃ t, exec (.replayRequest l up d.expect) s = .next t ∧
        linkDir up t.links[l] = { d with sendAt := d.expect, attempts := d.attempts + 1, discarding := false } ∧
        getF (F.stcLinkReplayReplays l) t = min (2 ^ 32 - 1) (getF (F.stcLinkReplayReplays l) s + 1) ∧ t.ev = s.ev ∧ only t)) ∧
    ((s.links[l]).moving = true → linkUp l s = false → (secondPath l s).isSome = true →
      let k := s.links[l]
      ∃ t, exec (.linkRemapComplete l) s = .next t ∧ t.links[l] = { up := resend k.up, down := resend k.down, moving := false } ∧
        flagAt F.stcLinkRemapped l t = true ∧ (∀ k, k ≠ l → t.links[k] = s.links[k]) ∧
        t = { s with links := t.links, msgs := t.msgs, lum := t.lum, cal := t.cal, status := t.status, ev := t.ev })

/-- A transfer that a reachable channel takes, in units of 8 bytes and inside it: a write whose source passes parity stores
its words there and ends with code 0; a read whose bursts pass lands them in its window with code 0; no other byte
changes. A channel absent or fatal answers 4, one outside its size or not a multiple of 8 answers 2, one not trained, or a
place the wipe has not passed, answers 4 and counts in DDR_REFUSED. A read burst that fails counts its re-reads, 3 at
most, and from the fourth failure stands as failed for the transfer under way that reads it; a fourth ALERT_N in a row
makes the channel fatal; the SPD sensor sets REFRESH_2X from 85 °C and clears it below 82 °C. The order of the wipe, and
so the place it has passed, is the model's choice (assumption 41). (R85, R234, R235, R236, R237, R238.) -/
def Obligations.DdrChannels : Prop :=
  ∀ (c : Fin 4) (s : State),
    (∀ (u : UnitId) (t : Tag) (x : Xfer), live s = true → Memory.wf s.mem = true →
      firstXfer u t s = some x →
      x.ep = 0x20 + c.val → passes (dieOf u) c s = true →
      let size := ddrSize c s
      let here := ddrBase c + 8 * x.addr
      let store := storeBase u + x.base
      let code (n : Nat) (r : State) : Prop := r.xfers = (setCode u t n s).xfers ∧ r.units = s.units
      let counts : Prop := ∃ r, exec (.ddrAccess u t) s = .next r ∧ code 4 r ∧ sameMem s r ∧
        getF F.rstDdrRefusedDdrRefused r = min (2 ^ 32 - 1) (getF F.rstDdrRefusedDdrRefused s + 1)
      (flagAt F.stcDdrFatal c s = true → exec (.ddrAccess u t) s = .next (setCode u t 4 s)) ∧
      (flagAt F.stcDdrFatal c s = false → (s.ddr[c]).trained = false → counts) ∧
      (flagAt F.stcDdrFatal c s = false → (s.ddr[c]).trained = true →
        (size = 0 → exec (.ddrAccess u t) s = .next (setCode u t 4 s)) ∧
        (size ≠ 0 → x.len % 8 ≠ 0 ∨ size < 8 * x.addr + x.len → exec (.ddrAccess u t) s = .next (setCode u t 2 s)) ∧
        (size ≠ 0 → x.len % 8 = 0 → 8 * x.addr + x.len ≤ size →
          ((s.ddr[c]).wiped = false → (s.ddr[c]).passed < 8 * x.addr + x.len → counts) ∧
          ((s.ddr[c]).wiped = true ∨ 8 * x.addr + x.len ≤ (s.ddr[c]).passed →
            (x.out = true → wholeSource x s →
              ∃ r, exec (.ddrAccess u t) s = .next r ∧ code 0 r ∧
                readWords r.mem here (sourceWords x s).length = sourceWords x s ∧
                (∀ b, b < here ∨ here + 4 * (sourceWords x s).length ≤ b → readB r.mem b = readB s.mem b)) ∧
            (x.out = false → (∀ y ∈ (s.ddr[c]).failing, y.1 ≠ u ∨ y.2.1 ≠ t) → s.memBad = [] →
              ∃ r, exec (.ddrAccess u t) s = .next r ∧ code 0 r ∧
                readWords r.mem store (x.len / 4) = readWords s.mem here (x.len / 4) ∧
                (∀ b, b < store ∨ store + 4 * (x.len / 4) ≤ b → readB r.mem b = readB s.mem b)))))) ∧
    (∀ (a : BitVec 30) (n : Nat) (x : Xfer), live s = true →
      (s.xfers.find? fun x => !x.out && x.code.isNone && x.ep = 0x20 + c.val && (burstsOf (8 * x.addr) x.len).contains a.toNat &&
        (ddrRefusal c x s).isNone && !(s.ddr[c]).failing.contains (x.unit, x.tag, a.toNat)) = some x →
      ∃ t, exec (.ddrReadBurst c a n) s = .next t ∧
        getF F.stcDdrCountReread t = min 65535 (getF F.stcDdrCountReread s + min n 3) ∧
        (t.ddr[c]).failing = (if n < 4 then (s.ddr[c]).failing else (x.unit, x.tag, a.toNat) :: (s.ddr[c]).failing) ∧
        t = { s with ddr := t.ddr, status := t.status, ev := t.ev }) ∧
    (clocked s = true → ddrSize c s ≠ 0 → dieUp c s = true →
      (∀ n, flagAt F.stcDdrFatal c s = false →
        ∃ t, exec (.ddrAlert c n) s = .next t ∧
          getF F.stcCaRetryCaRetry t = min (2 ^ 32 - 1) (getF F.stcCaRetryCaRetry s + min n 3) ∧
          flagAt F.stcDdrFatal c t = decide (4 ≤ n) ∧ (4 ≤ n → getF F.stcFaultDdrChannelFatal t = 1) ∧
          t = { s with status := t.status, ev := t.ev }) ∧
      (∀ v : Int,
        ∃ t, exec (.ddrTempCheck c v) s = .next t ∧
          flagAt F.stcDdrRefresh2x c t =
            (if 85 ≤ v then true else if v < 82 then false else flagAt F.stcDdrRefresh2x c s) ∧
          t.ddr = s.ddr.set c { s.ddr[c] with hot := decide (95 ≤ v) } ∧
          t = { s with ddr := t.ddr, status := t.status, ev := t.ev }))

/-- A whole record of set points in range waits for the next reading with code 0; any other is refused and leaves the set
points waiting as they were. A reading of a running die takes the waiting record, moves the history of each sensor and
shows its median, and counts each level of the die that its reading reaches up to 4, where a level holds, and the fourth
reading in a row at or above SHUT enters shutdown. A cross-check with the sensor's injected conversion, which is used
once, counts when it is more than 5 °C off, and the thousandth in a row faults the sensor; one inside starts the count
again. A level, or the step in force, whose exit value has been undercut for 16 readings is left, and so is shutdown.
Units and memory stay. That a die that runs no clusters has no steps 2 and 3 is the model's choice (assumption 91). (R347,
R348, R349, R350, R351, R353, R357.) -/
def Obligations.TemperatureReadings : Prop :=
  (∀ (u : UnitId) (t : Tag) (x : Xfer) (s : State), recordAt u t (· = 0x74) x s → passes (dieOf u) 0 s = true →
    (∀ a, sourceWords x s = [a, ~~~ a] → thmRangeOk a = true → takesRecord (.thmCtlRecord u t) u t s fun r =>
      r.thm = { s.thm with next := some a } ∧ r.status = s.status ∧ r.ev = s.ev) ∧
    ((∀ a, sourceWords x s = [a, ~~~ a] → thmRangeOk a = false) →
      refusesRecord (.thmCtlRecord u t) u t F.thmFaultSettingsRefused s)) ∧
  ∀ (d : Fin 8) (s : State), clocked s = true → diePresent s.opt d = true →
    let e := s.thm.dies[d]
    let only (t : State) : Prop := t = { s with thm := t.thm, status := t.status, ev := t.ev }
    (∀ temps : List Int, dieUp d s = true → e.shut = false → 3 ≤ nth 0 e.at_ 4 →
      ∃ t, exec (.junctionSample d temps) s = .next t ∧ ∀ x, dieReading d t = some x → setPoint 4 t ≤ x →
        (t.thm.dies[d]).shut = true ∧ inShutdown t = true ∧ (inShutdown s = false → getF F.intStateSafe t = 1) ∧
        getF F.thmShutdownCountShutdowns t = min (2 ^ 32 - 1) (getF F.thmShutdownCountShutdowns s + 1)) ∧
    (∀ temps : List Int, dieUp d s = true → e.shut = true ∨ nth 0 e.at_ 4 < 3 →
      ∃ t, exec (.junctionSample d temps) s = .next t ∧ only t ∧ t.thm.next = none ∧
        (∀ w, s.thm.next = some w → t.word F.thmLimits = w ∧ t.word F.thmLimitsN = ~~~ w ∧ t.thm.dflt = false) ∧
        (∀ k, k < (sensorsOf d).2 → nth [] (t.thm.dies[d]).hist k = pushSample (nth [] e.hist k) (nth 0 temps k) ∧
          getF (F.thmSensorTemp ((sensorsOf d).1 + k)) t = enc 16 (medianOf8 (pushSample (nth [] e.hist k) (nth 0 temps k)))) ∧
        (∀ x, dieReading d t = some x → getF (F.thmDieTemp d) t = enc 16 x ∧
          ∀ k, k < 5 → nth 0 (t.thm.dies[d]).at_ k =
            if throttles d = false ∧ (k = 2 ∨ k = 3) then 0
            else if k < 4 ∧ 4 ≤ nth 0 e.at_ k then 4
            else if setPoint k t ≤ x then min 4 (nth 0 e.at_ k + 1) else 0)) ∧
    (inLevel 0 d s = true → 16 ≤ nth 0 e.below 0 →
      ∃ t, exec (.levelExit d .warning) s = .next t ∧ only t ∧ t.ev = s.ev ∧ inLevel 0 d t = false ∧
        ∀ k, k ≠ 0 → inLevel k d t = inLevel k d s) ∧
    (∀ l k, (l, k) ∈ [(Level.step1, 1), (Level.step2, 2), (Level.step3, 3)] → inLevel k d s = true → exitStep d s = k →
      16 ≤ nth 0 e.below 1 →
      ∃ t, exec (.levelExit d l) s = .next t ∧ only t ∧ t.ev = s.ev ∧ inLevel k d t = false ∧
        ∀ j, j ≠ k → inLevel j d t = inLevel j d s) ∧
    (e.shut = true → 16 ≤ nth 0 e.below 2 →
      ∃ t, exec (.levelExit d .shutdown) s = .next t ∧ only t ∧ t.ev = s.ev ∧ (t.thm.dies[d]).shut = false ∧
        ∀ k, inLevel k d t = inLevel k d s) ∧
    ∀ (i : Fin 24) (x : InjResult), (sensorDie i).1 = d.val → s.sadc.results.find? (isCross i) = some x → live s = true → dieUp d s = true → e.hist ≠ [] →
      sensorFaulted i s = false →
      let k := if (sensorDie i).2 = true then 1 else i.val - (sensorsOf d).1
      let n := if (500 : Rat) < |(sensorTemp i s : Rat) - tempOfCode x.code| then nth 0 e.cross k + 1 else 0
      ∃ t, exec (.thmCrossCheck i) s = .next t ∧ t = { s with thm := t.thm, status := t.status, ev := t.ev, sadc := t.sadc } ∧
        t.sadc = { s.sadc with results := s.sadc.results.filter fun y => !isCross i y } ∧ (t.thm.dies[d]).cross = e.cross.set k n ∧
        (n ≠ 1000 → t.status = s.status ∧ t.ev = s.ev) ∧
        (n = 1000 → sensorFaulted i t = true ∧ getF F.thmFaultSensor t = 1)

/-- A comparator whose die is not in shutdown counts and latches its die and the device; the first of them also leaves no
valve energised, every valve queue empty, every string stopped, no focal die pacing or biased, no run but SAVE running, no
copy being programmed, the clusters' supply shed and ALIVE high. The hourly measurement shows each die's slowdown; once
the worst exceeds what the set point allows, no die is in shutdown and the step is below 12, VCORE rises by one step and
the margin table is queued. Each day the table is queued and SAVE requested. Units and memory stay. That the comparator's
verdict enters the shutdown as the fourth reading does is the model's choice (assumptions 123 and 91). (R354, R359, R360,
R361, R374, R427.) -/
def Obligations.ShutdownAndAgeing : Prop :=
  ∀ s : State,
    let same (t : State) : Prop := t.units = s.units ∧ sameMem s t
    (∀ d : Fin 8, clocked s = true → diePresent s.opt d = true → (s.thm.dies[d]).shut = false →
      ∃ t, exec (.shutdownEntry d) s = .next t ∧ same t ∧ (t.thm.dies[d]).shut = true ∧ inShutdown t = true ∧
        getF F.thmShutdownCountShutdowns t = min (2 ^ 32 - 1) (getF F.thmShutdownCountShutdowns s + 1) ∧
        (inShutdown s = true → t = { s with thm := t.thm, status := t.status, ev := t.ev }) ∧
        (inShutdown s = false →
          (∀ v : Valve, energised v t = false ∧ (t.ejt.chans[v]).queue = []) ∧ (∀ n : Strng, strRunning n t = false) ∧
          (∀ f : Fin 2, fdUp f s = true → pacing f t = false ∧ getF (F.fpdStateBiasOn f) t = 0) ∧
          (∀ i, i < 11 → calRunning i t = false) ∧ t.nvs.prog = none ∧ t.nvs.queue = s.nvs.queue ∧
          getF F.intStateSafe t = 1 ∧ getF F.pwrStateVcShed t = 1 ∧ getF F.nvsStateHeld t = 1 ∧ t.pins.alive = true)) ∧
    (ageingRuns s = true →
      (∀ ppm : List Nat,
        let step := getF F.pwrVcoreSetStep s
        let worst := (((List.range 4).filter fun d => diePresent s.opt d).map fun d => getF (F.thmDieAgeAge d)
          ((ringDies s.opt).zipIdx.foldl (fun r x => setF (F.thmDieAgeAge x.1) (min 65535 (nth 0 ppm x.2)) r) s)).foldl max 0
        ∃ t, exec (.ageingMeasure ppm) s = .next t ∧ same t ∧
          (∀ x ∈ (ringDies s.opt).zipIdx, getF (F.thmDieAgeAge x.1) t = min 65535 (nth 0 ppm x.2)) ∧
          (step < 12 → 4000 + 3000 * step < worst → (∀ d : Fin 8, (s.thm.dies[d]).shut = false) →
            getF F.pwrVcoreSetStep t = step + 1 ∧ t.nvs.queue ++ t.nvs.later = s.nvs.queue ++ s.nvs.later ++
              [⟨0, 0x500, marginBytes (setF F.pwrVcoreSetStep (step + 1) t), 0, none, false⟩]) ∧
          (worst ≤ 4000 + 3000 * step → getF F.pwrVcoreSetStep t = step ∧ t.nvs = s.nvs))) ∧
    (live s = true → ∃ t ws, exec .marginTableWrite s = .next t ∧ same t ∧
      t.nvs.queue ++ t.nvs.later = s.nvs.queue ++ s.nvs.later ++ ⟨0, 0x500, marginBytes s, 0, none, false⟩ :: ws ∧
      (calPending 11 t = true ∨ calRunning 11 t = true))

/-- Where nothing holds a SYS.RESET back and its operand is in range: a full reset leaves every unit at reset, the SRAM zero,
DDR5, record copies, image slots and device time as they were, and no die up; a die reset takes that die alone down, with
the units and stores of a stream die, the valves and lamps of an actuator die, and keeps the hub's record of a focal die;
a cluster reset wipes that cluster alone, whose transfers go on without a tag. Each sets its cause. SYS.LOAD resets the
cluster of a logical cluster and places its code again, or shows the check that refused it. A die rejoins with its event
and its links trained, but for those that fail. That the transfers of a reset cluster go on without a tag (assumption 34),
and what a die reset leaves of a focal die's settings and of the links (assumption 84), are the model's choice. (R75, R76,
R83, R86, R88, R89, R265, R289.) -/
def Obligations.ResetsAndReload : Prop :=
  (∀ (u : UnitId) (b : Src) (s : State), issues u .sys (srcImm b) (srcRegs b) s →
    let w := srcVal u b s
    let k := bits w 15 8
    let wiped (v : UnitId) (r : State) : Prop := r.units[v] = ExUnit.reset ∧ getF (F.isaUStateState v) r = 0 ∧
      ∀ a, storeBase v ≤ a → a < storeBase v + storeSize v → readB r.mem a = 0
    let stays (v : UnitId) (r : State) : Prop := r.units[v] = (advance u (srcImm b) s).units[v] ∧
      ∀ a, storeBase v ≤ a → a < storeBase v + storeSize v → readB r.mem a = readB s.mem a
    let ddrStays (r : State) : Prop := ∀ a, 2 ^ 40 ≤ a → readB r.mem a = readB s.mem a
    resetBad w s = false →
    ∀ i ∈ [Instr.sysResetFull u b, Instr.sysResetDie u b, Instr.sysResetCluster u b],
      (bits w 1 0 = 0 ∨ (bits w 1 0 = 1 ∧ k = 0) →
        ∃ r, exec i s = .next r ∧ r.mode = .inReset ∧ getF F.rstCauseSysFull r = 1 ∧ getF F.rstDieDieUp r = 0 ∧
          getF F.lnkHbBoot r = (getF F.lnkHbBoot s + 1) % 65536 ∧ (∀ v, wiped v r) ∧ ddrStays r ∧
          (∃ c, r.nvs.copies = c ++ s.nvs.copies) ∧ r.nvs.queue = [] ∧ r.boot.slotA = s.boot.slotA ∧ r.boot.slotB = s.boot.slotB ∧
          r.time = s.time ∧ r.sec.otp = s.sec.otp ∧ r.pending = s.pending) ∧
      (bits w 1 0 = 1 → k ≠ 0 →
        ∃ r, exec i s = .next r ∧ r.mode = s.mode ∧ getF F.rstCauseSysDie r = 1 ∧
          (∀ d, d < 8 → dieUp d r = (dieUp d s && decide (d ≠ k))) ∧ ddrStays r ∧
          (∀ v : UnitId, dieOf v = k → wiped v r) ∧ (∀ v : UnitId, dieOf v ≠ k → stays v r) ∧
          (∀ v : Valve, r.ejt.chans[v] = if 6 ≤ k ∧ (valveDie v).val = k - 6 then Chan.reset else s.ejt.chans[v]) ∧
          (∀ d : Fin 2, k = 6 + d.val → r.lum[d] = LumDie.reset s.periph ∧ ∀ n ∈ strsOf d, strRunning n r = false) ∧
          (∀ d : Fin 2, (r.focal[d]).kept0 = (s.focal[d]).kept0 ∧ (r.focal[d]).kept1 = (s.focal[d]).kept1)) ∧
      (bits w 1 0 = 2 → ∀ v : UnitId, v.val = k →
        ∃ r, exec i s = .next r ∧ r.mode = s.mode ∧ getF F.rstCauseSysCluster r = 1 ∧ wiped v r ∧
          (∀ x : UnitId, x ≠ v → stays x r) ∧ ddrStays r ∧
          r.xfers.filter (fun x => x.unit ≠ v) = s.xfers.filter (fun x => x.unit ≠ v) ∧
          (∀ x ∈ r.xfers, x.unit = v → x.lost.isSome = true ∧ x.code = none) ∧
          r.ejt = s.ejt ∧ r.nvs = s.nvs)) ∧
  (∀ (u : UnitId) (b : Src) (img : Image) (c : ClusterCode) (s : State), issues u .sys (srcImm b) (srcRegs b) s →
    s.boot.running = some img → img.clusters[(srcVal u b s).toNat]? = some c →
    let k := (srcVal u b s).toNat
    let s0 := advance u (srcImm b) s
    let s1 := match assoc s.boot.place k with
      | some p => clusterReset p s0
      | none => s0
    let check := loaderCheck false img ((clustersOf img).filter fun x => [k].contains x.1)
      (s1.boot.place.filter fun x => !([k].contains x.1)) s1
    ∃ t, exec (.sysLoad u b) s = .next t ∧
      (check.1 = 0 → t.boot.place = check.2 ∧ getF F.secLoadsLoads t = min (2 ^ 32 - 1) (getF F.secLoadsLoads s1 + 1) ∧
        ∀ p, (k, p) ∈ check.2 → t.units[clusterUnit p] = startUnit c.code c.handler c.windows ∧
          ∀ v, v ≠ clusterUnit p → t.units[v] = s1.units[v]) ∧
      (check.1 ≠ 0 → getF F.isaLoadRefuse t = check.1 % 256 ∧ getF F.isaFaultLoadRefused t = 1 ∧ t.units = s1.units ∧
        t.mem = s1.mem ∧ t.boot = s1.boot)) ∧
  ∀ (d : Fin 8) (bad : List (Fin 16)) (s : State), live s = true → d ≠ 0 → diePresent s.opt d = true → dieUp d s = false →
    ∃ t, exec (.dieRejoin d bad) s = .next t ∧ (∀ k, k < 8 → dieUp k t = (dieUp k s || decide (k = d.val))) ∧ t.units = s.units ∧
      sameMem s t ∧ ⟨0x0207, 1, d, bits (s.word F.rstCause) 8 0, s.time⟩ ∈ t.ev.queue ∧
      ∀ l : Fin 16,
        let here := (linkEnds s.opt l).any fun e => e.1 = d.val || e.2 = d.val
        (here = true → l ∉ bad → t.links[l] = Link.reset ∧ flagAt F.stcLinkUp l t = true) ∧
        (here = true → l ∈ bad → flagAt F.stcLinkUp l t = false) ∧ (here = false → t.links[l] = s.links[l])

/-- Where nothing holds them back, outside a shutdown: a running device begins to enter STANDBY or PARK; in the other state it
goes over, with no LATCH staged and LSYNC not driven, PARK with every lamp off and the focal dies' bias off; SYS.RUN
begins the exit; a request once the clusters have restarted enters again. The entry completes once the pacers have stopped
and every tag has completed: no valve energised, queues and LATCHes empty, VC_SHED shown, ALIVE high. The exit completes
with VC_SHED clear, the device running, and a synchronising reset at the next MOD edge. No byte of memory changes. (R44,
R90, R91, R289, R329.) -/
def Obligations.StandbyAndPark : Prop :=
  (∀ (u : UnitId) (s : State), issues u .sys false [] s → inShutdown s = false →
    let s0 := advance u false s
    let low (m : Mode) (t : State) : Prop := t.mode = m ∧ t.units = s0.units ∧ sameMem s t ∧ t.pins.alive = true ∧ t.pins.lsync = false ∧
      ∀ d : Fin 2, (t.lum[d]).latch = none
    let dark (t : State) : Prop := (∀ n : Strng, strRunning n t = false) ∧
      ∀ d : Fin 2, fdUp d s = true → getF (F.fpdStateBiasOn d) t = 0
    ((s.mode = .running ∨ ∃ p, s.mode = .entering p) →
      exec (.sysStandby u) s = .next { s0 with mode := .entering false } ∧
      exec (.sysPark u) s = .next { s0 with mode := .entering true }) ∧
    (s.mode = .park → ∃ t, exec (.sysStandby u) s = .next t ∧ low .standby t) ∧
    (s.mode = .standby → ∃ t, exec (.sysPark u) s = .next t ∧ low .park t ∧ dark t) ∧
    (∀ p, s.mode = .exiting p → s.power.leaveStage = 2 →
      exec (.sysStandby u) s = .next { s0 with mode := .entering false } ∧
      exec (.sysPark u) s = .next { s0 with mode := .entering true }) ∧
    (∀ p, s.mode = .exiting p → s.power.leaveStage ≠ 2 →
      (∃ t, exec (.sysStandby u) s = .next t ∧ low .standby t) ∧ ∃ t, exec (.sysPark u) s = .next t ∧ low .park t ∧ dark t) ∧
    (∀ p, s.mode = (if p then .park else .standby) → exec (.sysRun u) s = .next { s0 with
      mode := .exiting p, power := { s.power with leaveAt := s.periph, leaveStage := 0 }
      pins := { s.pins with vgdTx := true } })) ∧
  ∀ s : State, s.freeze.since = none → inShutdown s = false →
    (∀ park, s.mode = .entering park → (∀ u : UnitId, busyTags (s.units[u]) = []) →
      pacing 0 s = false → pacing 1 s = false →
      ∃ t, exec .standbyParkEntry s = .next t ∧ t.mode = (if park = true then .park else .standby) ∧ t.units = s.units ∧ sameMem s t ∧
        (∀ v : Valve, energised v t = false ∧ (t.ejt.chans[v]).queue = []) ∧ (∀ d : Fin 2, (t.lum[d]).latch = none) ∧
        (∀ i, i < 11 → calRunning i t = false) ∧ getF F.pwrStateVcShed t = 1 ∧ t.pins.alive = true ∧
        (park = true → (∀ n : Strng, strRunning n t = false) ∧ ∀ d : Fin 2, fdUp d s = true → getF (F.fpdStateBiasOn d) t = 0)) ∧
    (∀ p, s.mode = .exiting p →
      ∃ t, exec .exitComplete s = .next t ∧ t.mode = .running ∧ (s.power.leaveStage = 0 → getF F.pwrStateVcShed t = 0) ∧
        pendingEdges t = [(s.periph + 24) / 25 * 25] ∧ t.units = s.units ∧ sameMem s t)

/-- Below 20 V memory, units and device time are gone; record copies, image slots and life-cycle cells stay. Power-up begins
at its first row with no die up. Inrush in time starts the 12 V converter; late, it sets FAULT.INRUSH_TIMEOUT, takes
INR_GATE off and waits for its retry, which begins the sequence again. Each row that comes within its limits shows it and
starts the next; REFCLK starts VCORE and the clock monitor. VIN in a new zone shows it, with an event at Low, High and
Over while the clocks run; Over ends every running shot, counted. A conversion shows VIN. Nothing else changes in a row or
a zone. That an attempt begins from every inrush wait and after an input trip, also while the wait of 10 s stands, is the
model's choice (assumption 38). (R51, R53, R54, R60, R62, R63, R67.) -/
def Obligations.PowerUpAndZones : Prop :=
  ∀ s : State,
    (s.mode ≠ .unpowered → ∃ t, exec .powerLost s = .next t ∧
      t.mode = .unpowered ∧ t.mem = [] ∧ t.units = Vector.replicate 30 ExUnit.reset ∧ t.time = 0 ∧ t.timeOn = false ∧
        (∃ c, t.nvs.copies = c ++ s.nvs.copies) ∧ t.boot.slotA = s.boot.slotA ∧ t.boot.slotB = s.boot.slotB ∧
        t.sec.otp = s.sec.otp ∧ t.pending = s.pending) ∧
    (s.mode = .unpowered → ∃ t, exec .powerOn s = .next t ∧
      t.mode = .powerUp .inrush ∧ t.boot.cause = .powerOn ∧ getF F.pwrStateVinZone t = 1 ∧ getF F.rstDieDieUp t = 0 ∧
        t.pins = { s.pins with inrGate := true } ∧ t.power = { s.power with attemptStart := s.tick } ∧
        t.freeze.requested = (if s.pins.freezeN = true then none else some 1) ∧ t.units = s.units ∧ t.mem = s.mem ∧ t.nvs = s.nvs) ∧
    (s.mode = .powerUp .inrush → ∃ t, exec .inrushComplete s = .next t ∧ t.mode = .powerUp .v12 ∧
      t.pins = { s.pins with icv := true } ∧ getF F.pwrStateInrushDone t = 1 ∧
      t = { s with mode := t.mode, pins := t.pins, status := t.status }) ∧
    (s.mode = .powerUp .inrush → ∃ t, exec .inrushTimeout s = .next t ∧ t.mode = .inrushWait ∧
      t.pins = { s.pins with inrGate := false } ∧ getF F.pwrFaultInrushTimeout t = 1 ∧
      t = { s with mode := t.mode, pins := t.pins, power := t.power, status := t.status }) ∧
    (s.mode = .inrushWait ∨ (s.mode = .brownout .inputTrip ∧ getF F.pwrStateVinZone s ≠ 0) →
      exec .inrushRetry s = .next { s with
        mode := .powerUp .inrush, pins := { s.pins with inrGate := true }, power := { s.power with attemptStart := s.tick } }) ∧
    (s.mode = .railWait →
      exec .railRetryWaitEnd s = .next { s with
        mode := .powerUp .inrush, pins := { s.pins with inrGate := true }, power := { s.power with attemptStart := s.tick } }) ∧
    (∀ m n f, (m = .v12 ∧ n = .v18 ∧ f = F.pwrStateV12Good) ∨ (m = .v18 ∧ n = .refclk ∧ f = F.pwrStateV18Good) ∨
        (m = .vcore ∧ n = .vddq ∧ f = F.pwrStateVcoreGood) ∨ (m = .vddq ∧ n = .adec ∧ f = F.pwrStateVddqGood) ∨
        (m = .adec ∧ n = .pll ∧ f = F.pwrStateFda0Good) →
      s.mode = .powerUp m →
      ∃ t, exec .railSequenceStep s = .next t ∧ t.mode = .powerUp n ∧ getF f t = 1 ∧
        t.pins = { s.pins with vqEn := s.pins.vqEn || decide (m = .vcore), adec := s.pins.adec || decide (m = .vddq) } ∧
        t = { s with mode := t.mode, pins := t.pins, status := t.status }) ∧
    (s.mode = .powerUp .refclk → ∃ t, exec .refclkPresent s = .next t ∧ t.mode = .powerUp .vcore ∧
      t.pins = { s.pins with vcEn := true } ∧ t.power = { s.power with monitor := true } ∧ getF F.clkStateRefclkOk t = 1 ∧
      t = { s with mode := t.mode, pins := t.pins, power := t.power, status := t.status }) ∧
    (s.mode ≠ .unpowered → s.freeze.since = none → ∀ v, ∃ t, exec (.pwrVinConversion v) s = .next t ∧
      getF F.pwrStateVin t = v.toNat ∧ t = { s with status := t.status }) ∧
    (s.mode ≠ .unpowered → s.mode ≠ .brownout .under →
      (getF F.pwrStateVinZone s ≠ 1 → ∃ t, exec .vinLowEntry s = .next t ∧ getF F.pwrStateVinZone t = 1 ∧
        t.ev.queue = s.ev.queue ++ (if clocked s = true then [⟨0x0101, 0, 0, 0, s.time⟩] else []) ∧
        t = { s with status := t.status, ev := t.ev }) ∧
      (getF F.pwrStateVinZone s ≠ 2 → ∃ t, exec .vinNormalEntry s = .next t ∧ getF F.pwrStateVinZone t = 2 ∧
        t = { s with status := t.status }) ∧
      (getF F.pwrStateVinZone s ≠ 3 → ∃ t, exec .vinHighEntry s = .next t ∧ getF F.pwrStateVinZone t = 3 ∧
        t.ev.queue = s.ev.queue ++ (if clocked s = true then [⟨0x0102, 0, 0, 0, s.time⟩] else []) ∧
        t = { s with status := t.status, ev := t.ev }) ∧
      (getF F.pwrStateVinZone s ≠ 4 → ∃ t, exec .vinOverEntry s = .next t ∧ getF F.pwrStateVinZone t = 4 ∧
        t.units = s.units ∧ sameMem s t ∧ (∀ v : Valve, energised v t = false) ∧
        ∀ d : Fin 2, getF (F.ejtDropSupplyDropSupply d) t =
          min (2 ^ 32 - 1) (getF (F.ejtDropSupplyDropSupply d) s + ((valvesOf d).filter fun v => energised v s).length)))

/-- A brown-out, an overvoltage trip, an overcurrent trip after inrush, or a rail fault shows and counts itself and takes the
device down with its rails off, memory and units gone; a brown-out ends in a new power-up attempt, or in the wait of 10 s
that stands before it once three attempts within 10 s have failed. Once its monitor watches, a clock loss shows itself and
holds the sequence or the device until REFCLK is good. RESET_N low for 600 ns or more resets a running device and counts
(below 400 ns nothing happens); its rise ends that reset and, where the device is not frozen, the drive of the scan chain.
The watchdog resets the device and counts. The release of reset starts the dies of the option and the boot, unless RESET_N
is low; a link that fails to train is down. The row of failed attempts and its waits (assumptions 38 and 39), a release of
reset that finds RESET_N low going to the pin's reset (assumption 83), and a clock loss that holds the power-up sequence
(assumption 93), are the model's choice. (R52, R53, R61, R62, R67, R75, R78, R93, R233, R462.) -/
def Obligations.BrownoutsClocksAndPins : Prop :=
  ∀ s : State,
    let up1 (f : Fld) (n : Nat) (t : State) : Prop := getF f t = min n (getF f s + 1)
    let down (m : Mode) (t : State) : Prop := t.mode = m ∧ t.units = Vector.replicate 30 ExUnit.reset ∧
      (∀ a, a < 2 ^ 40 → readB t.mem a = 0) ∧ getF F.rstDieDieUp t = 0 ∧ t.time = s.time ∧ t.pending = s.pending
    let out (m : Mode) (t : State) : Prop := down m t ∧ t.mem = [] ∧ up1 F.pwrCountBrownoutCount 65535 t ∧
      getF F.pwrFaultBrownout t = 1 ∧ t.pins.icv = false ∧ t.pins.vcEn = false ∧ t.pins.vqEn = false ∧ t.pins.adec = false
    (s.mode ≠ .unpowered → s.mode ≠ .brownout .under → s.mode ≠ .brownout .inputTrip →
      ∃ t, exec .brownout s = .next t ∧ out (.brownout .under) t ∧ getF F.pwrStateVinZone t = 0 ∧ t.pins.inrGate = true) ∧
    (powered s = true → flag F.pwrStateInrushDone s = true →
      ∃ t, exec .inputOvercurrentTrip s = .next t ∧ out (.brownout .inputTrip) t ∧
        getF F.pwrFaultInputTrip t = 1 ∧ up1 F.pwrCountInputTripCount 65535 t ∧ t.pins.inrGate = false) ∧
    (s.mode ≠ .unpowered → s.mode ≠ .brownout .overTrip → getF F.pwrStateVinZone s = 4 →
      ∃ t, exec .vinOvTrip s = .next t ∧ out (.brownout .overTrip) t ∧ getF F.pwrFaultVinOvTrip t = 1 ∧ t.pins.inrGate = false) ∧
    (∀ r, powered s = true → s.mode ≠ .railWait → s.mode ≠ .inrushWait → (r = .fda1 → s.opt = .zt8) →
      let early := (∃ k, s.mode = .powerUp k) ∨ ∃ k, s.mode = .clockHeld (some k)
      ∃ t m, exec (.railFault r) s = .next t ∧ out m t ∧ getF (railFld r) t = 1 ∧
        (¬ early → t.power.attempts = [] ∧ m = if s.power.waiting then .railWait else .brownout .rail) ∧
        (early → t.power.attempts = (s.power.attemptStart :: s.power.attempts).take 3 ∧
          (s.power.waiting = true → m = .railWait) ∧
          (s.power.waiting = false → s.power.attempts.length < 2 → m = .brownout .rail) ∧
          (s.power.waiting = false → ∀ a c rest, s.power.attempts = a :: c :: rest →
            m = if s.power.attemptStart ≤ c + tenSeconds then .railWait else .brownout .rail))) ∧
    (∀ c, s.mode = .brownout c → ∃ t, exec .brownoutEnd s = .next t ∧
      t.mode = (if s.power.waiting then .railWait else .powerUp .inrush) ∧
      t.pins = { s.pins with inrGate := s.pins.inrGate || !s.power.waiting } ∧
      getF F.pwrStateVinZone t =
        (if c = .overTrip then 2 else if getF F.pwrStateVinZone s = 0 then 1 else getF F.pwrStateVinZone s)) ∧
    (∀ c, let f := match c with | .refclk => F.clkFaultRefclkLoss | .rootPll => F.clkFaultRootUnlock | .diePll => F.clkFaultDieUnlock
      (s.power.monitor = false → exec (.clockLoss c) s = .next s) ∧
      (∀ k, s.power.monitor = true → s.mode = .powerUp k → ∃ t, exec (.clockLoss c) s = .next t ∧
        t.mode = .clockHeld (some k) ∧ getF f t = 1 ∧ getF F.rstCauseClockLoss t = 1 ∧ t.units = s.units ∧ t.mem = s.mem) ∧
      (s.power.monitor = true → released s = true → ∃ t, exec (.clockLoss c) s = .next t ∧
        down (.clockHeld none) t ∧ getF f t = 1 ∧ getF F.rstCauseClockLoss t = 1)) ∧
    (∀ k, s.mode = .clockHeld (some k) → ∃ t, exec .clockRestart s = .next t ∧ t.mode = .powerUp k ∧
      getF F.clkStateRefclkOk t = 1 ∧ t = { s with mode := t.mode, status := t.status }) ∧
    (s.mode = .clockHeld none → ∃ t, exec .clockRestart s = .next t ∧
      t.mode = (if s.pins.resetN = true then .inReset else .resetPin) ∧ getF F.clkStateRefclkOk t = 1 ∧
      t = { s with mode := t.mode, status := t.status }) ∧
    (∀ n, 600 ≤ n → released s = true → ∃ t, exec (.resetNAssert n) s = .next t ∧ down .resetPin t ∧ t.pins.resetN = false ∧
      up1 F.rstCountResetPinCount 65535 t ∧ getF F.rstCauseResetPin t = 1) ∧
    (∀ n, n < 400 → exec (.resetNAssert n) s = .next s) ∧
    (let drive := if s.freeze.since.isSome then s.jtag.drive else none
     (s.mode = .resetPin → exec .resetNRelease s = .next { s with
       mode := .inReset, pins := { s.pins with resetN := true }, jtag := { s.jtag with drive := drive } }) ∧
     (s.mode ≠ .resetPin → exec .resetNRelease s = .next { s with
       pins := { s.pins with resetN := true }, jtag := { s.jtag with drive := drive } })) ∧
    (live s = true → ∃ t, exec .hubWatchdog s = .next t ∧ down .inReset t ∧ up1 F.rstCountWatchdogCount 65535 t ∧
      getF F.rstCauseWatchdog t = 1) ∧
    (∀ cl eng bad, s.mode = .powerUp .pll ∨ s.mode = .inReset → s.pins.resetN = true →
      ∃ t, exec (.resetRelease cl eng bad) s = .next t ∧ t.mode = .boot ∧ t.timeOn = true ∧
        t.time = (if s.timeOn = true then s.time else 0) ∧ t.pins = { s.pins with ddrRstN := true, ethTx := true, vgdTx := true } ∧
        (∀ d, d < 8 → dieUp d t = diePresent s.opt d) ∧
        (∀ p : Fin 26, flagAt F.stcClusterOk p t = (unitPresent s.opt (clusterUnit p) && cl.getLsbD p)) ∧
        (∀ l ∈ bad, (linkEnds s.opt l).isSome = true → linkUp l t = false) ∧
        t.units = s.units ∧ t.mem = s.mem ∧ t.nvs = s.nvs) ∧
    (∀ cl eng bad, s.mode = .powerUp .pll ∨ s.mode = .inReset → s.pins.resetN = false →
      ∃ t, exec (.resetRelease cl eng bad) s = .next t ∧ t.mode = .resetPin ∧ t.units = s.units ∧ t.mem = s.mem)

/-- Frozen nowhere: an image whose signature and signer pass and which the loader accepts is placed on the hub and its
clusters, its digest kept, and the boot goes on; one that fails marks its slot and leaves the units as they were. The
index, then the models, become ready; a focal die without a model is marked. The first instruction, all being ready, makes
the device run, starts the program measurement, shows the time since the release of reset, raises the event of its reset
and drives ALIVE, or freezes at once where that was requested. Training shows the size and trains every channel; the DDR5
wipe leaves zeros there and nothing else changed; the life-cycle wipe leaves no record outside VENDOR, where only its
completion mark is new. The bytes that the digest and the signature cover, an operand of the image, are the model's choice
(assumption 5). (R79, R80, R81, R84, R93, R96, R235, R263, R379, R391, R399.) -/
def Obligations.BootSteps : Prop :=
  ∀ s : State,
    let ends (i : Instr) (eff : State → Prop) : Prop := ∃ t, exec i s = .next t ∧ eff t
    (booting s = true →
      (∀ img, bootImage s = some img → getF F.rstBootStage s = 2 →
        let s1 := checkSlots s
        let slot := getF F.rstBootSlot s
        let check := loaderCheck true img (clustersOf img) [] s1
        (imageHolds img s1 = true → check.1 = 0 → ends .signatureVerified fun t =>
          t.boot.running = some img ∧ t.boot.place = check.2 ∧ t.sec.imageHash = sha384 img.raw ∧
          getF F.isaLoadVersion t = img.version.toNat ∧
          getF F.rstBootStage t = (if flag F.rstBootIndexReady s then 4 else 3) ∧
          ∀ c : Fin 4, t.units[26 + c.val] = startUnit (nth [] img.hub c) (nth none img.hubHandler c) []) ∧
        (imageHolds img s1 = false ∨ check.1 ≠ 0 → ends .signatureVerified fun t =>
          t.units = s.units ∧ t.mem = s.mem ∧ t.boot.running = s.boot.running ∧ t.boot.failed = slot :: s.boot.failed ∧
          getF (if slot = 0 then F.rstBootSlotAFail else F.rstBootSlotBFail) t = 1)) ∧
      (flag F.rstBootIndexReady s = false → flag F.lcsInfoWipePending s = false → ends .indexComplete fun t =>
        getF F.rstBootIndexReady t = 1 ∧ t.units = s.units ∧ t.mem = s.mem ∧ t.mode = .boot ∧
        getF F.rstBootStage t = (if getF F.rstBootStage s = 3 then 4 else getF F.rstBootStage s)) ∧
      (flag F.rstBootIndexReady s = true → flag F.rstBootModelReady s = false → ends .pixelModelLoaded fun t =>
        getF F.rstBootModelReady t = 1 ∧ t.units = s.units ∧ t.mem = s.mem ∧ t.mode = .boot ∧
        ∀ d : Fin 2, diePresent s.opt (4 + d) = true → (t.corr.dies[d]).noModel = !(hasModel d s)) ∧
      (s.boot.running.isSome = true → flag F.rstBootIndexReady s = true → flag F.rstBootModelReady s = true →
        getF F.rstBootStage s ≠ 0xE → getF F.rstBootStage s ≠ 0xF → ends .firstInstruction fun t =>
          t.mode = .running ∧ getF F.rstBootStage t = 5 ∧ getF F.rstBootBootTime t = min 65535 ((s.time - s.boot.releasedAt) / 1000) ∧ t.pins.alive = (s.freeze.requested.isNone || s.pins.alive) ∧
          t.sec.program = s.sec.imageHash ∧ getF F.secLoadsLoads t = 0 ∧ t.units = s.units ∧ t.mem = s.mem ∧ t.freeze.since.isSome = s.freeze.requested.isSome ∧
          ∃ l, t.ev.queue = s.ev.queue ++ ⟨resetEvent s.boot.cause, 0, 0, bits (s.word F.rstCause) 8 0, s.time⟩ :: l) ∧
      (flag F.lcsInfoWipePending s = true → otpBad s = false → ends .lifecycleWipeComplete fun t =>
        getF F.lcsInfoWipePending t = 0 ∧ (∀ c ∈ t.nvs.copies, (c ∈ s.nvs.copies ∧ c.part ≠ 1 ∧ c.part ≠ 2 ∧ c.part ≠ 3) ∨ (c.part = 0 ∧ c.key = 0x501)) ∧
        (∀ c ∈ s.nvs.copies, c.part = 0 → c.sector ∈ bankSectors 0 0 ++ bankSectors 0 1 → ¬ (0x512 ≤ c.key ∧ c.key ≤ 0x517) → c ∈ t.nvs.copies) ∧ t.units = s.units ∧
        t.mem = s.mem ∧ (getF F.lcsStateState s = 4 ∨ getF F.lcsStateState s = 8 → t.sec.keys = Vector.replicate 4 []))) ∧
    (clocked s = true → (∃ c : Fin 4, (s.ddr[c]).trained = false) → ∀ size eyes, ends (.ddrTrainingComplete size eyes) fun t =>
      getF F.stcDdrSizeSize t = (if s.opt = .zt8 then size.toNat else size.toNat % 16) ∧
      (∀ c : Fin 4, (t.ddr[c]).trained = true ∧ (t.ddr[c]).wiped = ((s.ddr[c]).wiped || decide (ddrSize c t = 0)) ∧
        (ddrSize c t ≠ 0 → getF (F.thmDdrMarginReadEye c) t = (nth 0 eyes c).toNat / 256 ∧
          getF (F.thmDdrMarginWriteEye c) t = (nth 0 eyes c).toNat % 256)) ∧
      t = { s with ddr := t.ddr, thm := t.thm, status := t.status, ev := t.ev }) ∧
    (clocked s = true → (∀ c : Fin 4, (s.ddr[c]).trained = true) → (∃ c : Fin 4, (s.ddr[c]).wiped = false) →
      ends .ddrWipeComplete fun t =>
        (∀ a, readB t.mem a = if a < 2 ^ 40 then readB s.mem a else 0) ∧ (∀ c : Fin 4, (t.ddr[c]).wiped = true) ∧
        (∀ a ∈ t.memBad, a < 2 ^ 40) ∧ getF F.rstDdrWipeProgress t = 255 ∧
        t = { s with ddr := t.ddr, mem := t.mem, memBad := t.memBad, status := t.status })

/-- FREEZE_N low for 170 ns or more, SYS.FREEZE and ZFREEZE freeze a device that runs: no valve energised, every string
stopped, the focal dies' bias off, the links down, FROZEN shown with its source and the times kept; below 130 ns FREEZE_N
does nothing, and before the first instruction the request waits. ZRESUME with FREEZE_N high ends the freeze: the length
is shown and counted, the valve queues are empty, no run but SAVE running, INT_FREEZE and INT_RESUMED raised with the time
of the stop; with it low it is refused. The scan restores protected values and failing words. Units, memory and the rest
of the part stay. That the UP bits of the ports are cleared and the bias is off through a freeze is the model's choice
(assumption 22). (R424, R425, R427, R428, R429, R434, R435.) -/
def Obligations.FreezeAndResume : Prop :=
  ∀ s : State,
    let ends (i : Instr) (eff : State → Prop) : Prop := ∃ t, exec i s = .next t ∧ t.mem = s.mem ∧ t.mode = s.mode ∧ eff t
    let frozen (src : Nat) (t : State) : Prop := t.freeze.since = some (s.tick, s.time) ∧ t.freeze.requested = none ∧
      (∀ v : Valve, energised v t = false ∧ (t.ejt.chans[v]).queue = (s.ejt.chans[v]).queue) ∧
      (∀ n : Strng, strRunning n t = false) ∧ (∀ d : Fin 2, diePresent s.opt (4 + d) = true → getF (F.fpdStateBiasOn d) t = 0) ∧
      getF F.intStateFrozen t = 1 ∧ getF F.intStateSafe t = 1 ∧ getF F.intStateSource t = src ∧ getF F.lnkPortVgdUp t = 0 ∧
      getF F.lnkPortEthUp t = 0 ∧ t.pins.ethTx = false ∧ t.pins.vgdTx = false ∧ t.pins.lsync = false ∧ t.pins.alive = s.pins.alive ∧ t.time = s.time
    (live s = true →
      (∀ ns, 170 ≤ ns → ends (.freezeNAssert ns) fun t => frozen 1 t ∧ t.units = s.units ∧ t.pins.freezeN = false) ∧
      (∀ u, issues u .sys false [] s → ends (.sysFreeze u) fun t => frozen 2 t ∧ t.units = (advance u false s).units) ∧
      (ends .zfreeze fun t => frozen 3 t ∧ t.units = s.units ∧ t.jtag = { s.jtag with ir := .zfreeze, dr := [false], drive := none }) ∧
      (ends .integrityScan fun t => t.units = s.units ∧ t.time = s.time ∧ t.statusBad = [] ∧
        (otpBad s = false → getF F.lcsStateState s + getF F.lcsStateStateN s ≠ 255 → F.lcsState ∉ s.statusBad →
          getF F.lcsStateState t = s.sec.otp.1.toNat ∧ getF F.lcsStateStateN t = s.sec.otp.2.toNat))) ∧
    (∀ ns, ns < 130 → exec (.freezeNAssert ns) s = .next s) ∧
    (∀ ns, 170 ≤ ns → live s = false → s.mode ≠ .unpowered → s.freeze.since = none → ends (.freezeNAssert ns) fun t =>
      t.freeze.requested = some (s.freeze.requested.getD 1) ∧ t.freeze.since = none ∧ t.units = s.units ∧ t.status = s.status) ∧
    ∀ a t0, s.mode ≠ .unpowered → s.freeze.since = some (a, t0) →
      let us := min (2 ^ 32 - 1) ((s.tick - a) / 100)
      (s.pins.freezeN = true → ends .zresume fun t =>
        t.freeze.since = none ∧ t.units = s.units ∧ t.time = s.time ∧ (∀ v : Valve, (t.ejt.chans[v]).queue = []) ∧
        (∀ i, i < 11 → calRunning i t = false) ∧ getF F.intStateFrozen t = 0 ∧ getF F.intFreezeTimeUs t = us ∧
        getF F.intFreezeCountFreezes t = min (2 ^ 32 - 1) (getF F.intFreezeCountFreezes s + 1) ∧ t.freeze.taintSlots = 64 ∧
        (s.freeze.shuts = [] → t.pins = { s.pins with
          ethTx := true, vgdTx := decide (s.mode ≠ .park), alive := s.pins.alive || inShutdown s }) ∧
        ∃ l m, t.ev.queue = s.ev.queue ++ l ++ ⟨0x6001, 0, 0, us, t0⟩ :: ⟨0x6002, 0, 0, us, t0⟩ :: m) ∧
      (s.pins.freezeN = false → ends .zresume fun t =>
        t.freeze = { s.freeze with resumeRefused := true } ∧ getF F.intFaultResumeRefused t = 1 ∧
        t = { s with freeze := t.freeze, jtag := t.jtag, status := t.status })

/-- With power, an available JTAG instruction selects its register and drops what an earlier one drove: IDCODE shows the
identification of the option, ZUNIT and ZADDR keep and show their value, ZCAPTURE shows the record of the unit named while
frozen, ZDATA shows the word at ZADDR with VALID and advances the address by 4, SAMPLE/PRELOAD and EXTEST give the chain's
contacts, as far as their levels are the device's own, and take up one bit for each, the drivers of contacts act while
frozen or with RESET_N low; where an instruction is not available BYPASS is selected. TRST_N low for 100 ns or more
selects IDCODE and below 50 ns does nothing. A code of no other instruction acts as BYPASS. Nothing but the port (and,
through ZDATA, a status word that fails its parity, and a latch) changes. The order and contacts of the chain, and what
TRST_N leaves, are the model's choice (assumption 35). (R430, R431, R432, R433, R462.) -/
def Obligations.JtagPort : Prop :=
  ∀ s : State, s.mode ≠ .unpowered →
    let j := s.jtag
    (s.opt = .zt8 → idcodeOf s.opt = 0x15A3876B) ∧ (s.opt = .zt4 → idcodeOf s.opt = 0x15A3476B) ∧
    let selects (i : Instr) (k : JtagPart) : Prop := exec i s = .next { s with jtag := k }
    let drives (i : Instr) (k : JtagPart) : Prop :=
      (s.freeze.since.isSome = true ∨ s.pins.resetN = false → selects i k) ∧
      (s.freeze.since = none → s.pins.resetN = true → selects i { j with ir := .bypass, dr := [false], drive := none })
    let n := (scanChain s.opt).length
    let scans (i : Instr) (ir : JtagIr) (dr : Option JtagIr) (v : List Bool) (eff : State → Prop) : Prop :=
      ∃ t, exec i s = .next t ∧ t = { s with jtag := t.jtag, free := t.free } ∧ t.jtag.dr.length = n ∧
        t.jtag = { j with ir := ir, drive := dr, dr := t.jtag.dr, boundary := (v ++ List.replicate n false).take n } ∧ eff t
    (∀ v, (s.freeze.since.isSome = true ∨ s.pins.resetN = false → scans (.extest v) .extest (some .extest) v fun _ => True) ∧
      (s.freeze.since = none → s.pins.resetN = true → selects (.extest v) { j with ir := .bypass, dr := [false], drive := none })) ∧
    (∀ v, scans (.samplePreload v) .samplePreload none v fun t => ∀ i c b, (scanChain s.opt)[i]? = some c → contactLevel c s = some b →
      j.drive = none → nth false t.jtag.dr i = b) ∧
    drives .clamp { j with ir := .clamp, dr := [false], drive := some .clamp } ∧
    drives .highz { j with ir := .highz, dr := [false], drive := some .highz } ∧
    (∀ c : BitVec 8, c.toNat ∉ [0, 1, 2, 3, 4, 0x40, 0x41, 0x42, 0x43, 0x44, 0x45] →
      selects (.bypass c) { j with ir := .bypass, dr := [false], drive := none }) ∧
    selects .idcode { j with
      ir := .idcode, drive := none, dr := bitsOf 32 (idcodeOf s.opt) } ∧
    (∀ v, selects (.zunit v) { j with ir := .zunit, drive := none, unit := v.toNat, dr := bitsOf 8 v.toNat }) ∧
    (∀ v, selects (.zaddr v) { j with ir := .zaddr, drive := none, addr := v.toNat, dr := bitsOf 40 v.toNat }) ∧
    (∀ u : UnitId, s.freeze.since.isSome = true → j.unit = u.val → unitPresent s.opt u = true →
      selects .zcapture { j with ir := .zcapture, drive := none, dr := unitRecord u s }) ∧
    (s.freeze.since = none → selects .zcapture { j with ir := .bypass, dr := [false], drive := none } ∧
      selects .zresume { j with ir := .bypass, dr := [false], drive := none }) ∧
    (live s = false → selects .zfreeze { j with ir := .bypass, dr := [false], drive := none }) ∧
    (let a := j.addr
     let b := a % 2 ^ 34 / 4 * 4
     let next := a / 2 ^ 34 * 2 ^ 34 + (a % 2 ^ 34 + 4) % 2 ^ 34
     (∀ u : UnitId, a / 2 ^ 34 = u.val → s.freeze.since.isSome = true → unitPresent s.opt u = true → b < storeSize u →
       selects .zdata { j with ir := .zdata, drive := none, addr := next
                               dr := bitsOf 32 (readW s.mem (storeBase u + b)).toNat ++ [true, badAt (storeBase u + b) s] }) ∧
     (a / 2 ^ 34 = 0x20 → live s = true ∨ s.freeze.since.isSome = true → b < 2 ^ 24 → s.statusBad.contains b = false →
       hiOf b = none → (s.latches.find? fun l => l.1 = jtagReader && l.2.1 = b) = none →
       selects .zdata { j with ir := .zdata, drive := none, addr := next
                               dr := bitsOf 32 (liveWord b s).toNat ++ [true, false] })) ∧
    (∀ n, 100 ≤ n → selects (.trstNAssert n) { j with ir := .idcode, dr := bitsOf 32 (idcodeOf s.opt), drive := none }) ∧
    (∀ n, n < 50 → exec (.trstNAssert n) s = .next s)

/-- A datagram that is none of the protocol only counts. A repeated request is answered again with the reply kept, and
counted. A request whose row accepts it is carried out and answered with STATUS 0: READ gives the words as they stand,
EVT_CLR clears as EVT.CLR does, EVENTS gives the oldest unread records and counts them read, WAKE begins the exit from
STANDBY or PARK, RESUME ends a shutdown that may end (else STATUS 2), NVS reads an unlocked record, or queues an owner's
write, SET_NET sets the number, and of each port the mode and an address that is not zero, once its reply has left from
the old one. No unit and no byte of memory changes. Which requests a kept reply answers (assumption 67), the layout of NVS
(assumption 69) and the limits of SET_NET (assumption 71) are the model's choice. (R91, R355, R380, R381, R403, R406,
R409, R410, R443, R450.) -/
def Obligations.Requests : Prop :=
  ∀ (h : Hdr) (p : List Byte) (img : Image) (s : State),
    let ends (i : Instr) (eff : State → Prop) : Prop := ∃ t, exec i s = .next t ∧ t.units = s.units ∧ t.mem = s.mem ∧ eff t
    let all : List Nat := [0, 1, 2, 3, 4, 5]
    let quiet : Prop := s.statusBad = [] ∧ s.latches = []
    (hears h p s = true → dgramOk h = false → ends (.datagramDiscard h p) fun t =>
      getF F.lnkCmdRefused t = min 65535 (getF F.lnkCmdRefused s + 1) ∧ t = { s with status := t.status }) ∧
    (∀ r, hears h p s = true → dgramOk h = true → addressed h s = true → answered h = true → keptReply h s = some r →
      ∀ x ∈ [(1, Instr.cmdRead h p), (2, .cmdEvtClr h p), (3, .cmdEvents h p), (0x10, .cmdWake h p), (0x11, .cmdResume h p),
        (0x20, .cmdImage h p img), (0x21, .cmdLoad h p img), (0x30, .cmdAttest h p), (0x31, .cmdAuth h p), (0x40, .cmdNvs h p),
        (0x60, .cmdSetNet h p)], h.opcode.toNat = x.1 → ends x.2 fun t =>
          t.net = { s.net with sent := replyTo h r.hdr r.data s :: s.net.sent } ∧
          getF F.lnkCmdDuplicate t = min 65535 (getF F.lnkCmdDuplicate s + 1) ∧ t = { s with net := t.net, status := t.status }) ∧
    (asks 1 [0, 2] all h p s → p.length = 6 →
      let a := fieldAt p 0 4
      let n := fieldAt p 4 2
      1 ≤ n → n ≤ 256 → quiet → (∀ i, i < n → hiOf ((a + 4 * i) % 2 ^ 32 / 4 * 4) = none) → ends (.cmdRead h p) fun t =>
        answers h 0 (toBytes ((List.range n).map fun i => liveWord ((a + 4 * i) % 2 ^ 32 / 4 * 4) s)) s t ∧ t.status = s.status) ∧
    (asks 2 [0, 1, 2] [2, 3, 4, 5] h p s → p.length = 8 →
      let a := fieldAt p 4 4 / 4 * 4
      ends (.cmdEvtClr h p) fun t => answers h 0 [] s t ∧
        (∀ b, t.word b = if b = a then s.word a &&& ~~~ (clearedBits (fieldsAt s.opt a) (BitVec.ofNat 32 (fieldAt p 0 4))) else s.word b)) ∧
    (asks 3 [0, 2] all h p s → p.length = 2 → 1 ≤ fieldAt p 0 2 → fieldAt p 0 2 ≤ 64 → quiet →
      let n := getF F.intEvtHostNext s
      let k := min (fieldAt p 0 2) (unread s)
      ends (.cmdEvents h p) fun t => getF F.intEvtHostNext t = (n + k) % 2 ^ 32 ∧ t.ev = s.ev ∧
        answers h 0 (leBytes 4 n ++ leBytes 2 k ++ [0, 0] ++ toBytes ((List.range k).flatMap fun i =>
          (List.range 4).map fun w => liveWord (ringBase + 16 * ((n + i) % 256) + 4 * w) s)) s t) ∧
    (asks 0x10 [0, 1, 2] [3, 4] h p s → p = [] → inShutdown s = false →
      (s.mode = .standby → ends (.cmdWake h p) fun t => t.mode = .exiting false ∧ answers h 0 [] s t ∧ t.status = s.status) ∧
      (s.mode = .park → ends (.cmdWake h p) fun t => t.mode = .exiting true ∧ answers h 0 [] s t)) ∧
    (asks 0x11 [0, 1, 2] [5] h p s → p = [] → live s = true →
      (flag F.thmStateResumeReady s = true → ends (.cmdResume h p) fun t =>
        inShutdown t = false ∧ getF F.nvsStateHeld t = 0 ∧ answers h 0 [] s t ∧ (s.mode = .running → t.mode = .exiting true) ∧
        ∃ l, t.ev.queue = s.ev.queue ++ ⟨0x3304, 0, 0, 0, s.time⟩ :: l) ∧
      (flag F.thmStateResumeReady s = false → ends (.cmdResume h p) fun t =>
        inShutdown t = true ∧ getF F.thmFaultResumeRefused t = 1 ∧ answers h 2 [] s t ∧ t.mode = s.mode)) ∧
    (asks 0x40 [0, 2] [2, 3, 4, 5] h p s →
      let a := fieldAt p 0 4
      let q := nvsPartOf a
      let k := nvsKeyOf a
      nvsAddrOk a = true → nvsOpOf a = 0 →
      (p.length = 4 → (unlockBits q s).2.testBit q = true → ¬ (q = 0 ∧ 0x510 ≤ k ∧ k ≤ 0x517) →
        ∀ c, resolve q k s.nvs = .found c → 16 + (copyBytes c).length ≤ 1448 → (copyBytes c).length < 2 ^ 16 → ends (.cmdNvs h p) fun t =>
          answers h 0 (toBytes (nvsHeader 0 (copyBytes c).length c.seq) ++ copyBytes c) s t ∧ t.nvs = s.nvs) ∧
      (8 ≤ p.length → p.length % 4 = 0 → (unlockBits q s).2.testBit (4 + q) = true → deviceKey q k = false →
        s.nvs.queue.length < 16 → ends (.cmdNvs h p) fun t =>
          t.nvs.queue ++ t.nvs.later = s.nvs.queue ++ s.nvs.later ++ [⟨q, k, p.drop 4, 0, none, false⟩] ∧ answers h 0 [] s t)) ∧
    (asks 0x60 [2] all h p s → p.length = 28 → fieldAt p 12 4 ≤ 3 → fieldAt p 24 4 ≤ 3 →
      let n := fieldAt p 0 4
      (n ≤ 0x3FFFE → ends (.cmdSetNet h p) fun t => answers h 0 [] s t ∧ getF F.lnkNetNumValid t = 1 ∧ getF F.lnkNetDevnum t = n ∧
        getF F.lnkPortEth0Mode t = fieldAt p 12 4 ∧ getF F.lnkPortEth1Mode t = fieldAt p 24 4 ∧
        ∀ e : Fin 2,
          let ip := BitVec.ofNat 32 (fieldAt p (4 + 12 * e.val) 4)
          (ip = 0 → ethAddr e t = ethAddr e s ∧ t.net.masks[e] = s.net.masks[e]) ∧
          (ip ≠ 0 → ethAddr e t = ip ∧ t.net.masks[e] = BitVec.ofNat 32 (fieldAt p (8 + 12 * e.val) 4) ∧
            flagAt F.lnkPortLinkLocal e t = false)) ∧
      (0x3FFFE < n → ends (.cmdSetNet h p) fun t => answers h 2 [] s t ∧
        getF F.lnkCmdRefused t = min 65535 (getF F.lnkCmdRefused s + 1)))

/-- A chunk that continues what has come is kept and answered, and the last starts the check; an image that passes is placed
from host slot 2, code whose signature fails is refused. SYS.LIFECYCLE and AUTH put a block behind those waiting; an AUTH
that finds another under way may be answered BUSY instead (a free value, assumption 70). The oldest block is checked: one
that every check of R394 passes advances the counter and makes an EMPTY slot ACTIVE, an ACTIVE slot REVOKED, or begins the
life-cycle change with a full reset; any other changes neither slots nor counter, counts and is reported. ATTEST is taken
while no report is being signed, else counted and answered BUSY; the report goes out with its ECDSA signature over
SHA-384. A life-cycle block from the host is refused, counted and reported. Apart from what is placed or reset no unit and
no memory changes. The loader's code as the reply to a refused image (assumption 72), and the digest over the bytes before
the last 96 (assumptions 5 and 72), are the model's choice. (R80, R92, R93, R263, R265, R390, R393, R394, R395, R397,
R398, R399.) -/
def Obligations.SecurityEngine : Prop :=
  ∀ s : State,
    let ends (i : Instr) (eff : State → Prop) : Prop := ∃ t, exec i s = .next t ∧ eff t
    let same (t : State) : Prop := t.units = s.units ∧ t.mem = s.mem ∧ t.mode = s.mode
    (∀ (h : Hdr) (p : List Byte) (img : Image) (b : Bool),
      let i : Instr := if b = true then .cmdLoad h p img else .cmdImage h p img
      let op := if b = true then 0x21 else 0x20
      let off := fieldAt p 0 4
      let got := if s.boot.chunkOp = op ∧ off ≠ 0 then s.boot.chunks else []
      asks op [0, 2] (if b = true then [2, 3] else [0]) h p s → 8 ≤ p.length →
      (off ≠ 0 → off ≠ got.length → fieldAt p 4 4 ≤ 1 → ends i fun t => same t ∧ t.boot.chunks = [] ∧ answers h 1 [] s t) ∧
      (off = got.length →
        (fieldAt p 4 4 = 0 → ends i fun t => same t ∧ t.boot.chunks = got ++ p.drop 8 ∧ t.boot.chunkOp = op ∧ answers h 0 [] s t) ∧
        (fieldAt p 4 4 = 1 → ends i fun t => same t ∧ t.boot.chunks = [] ∧ t.net = s.net ∧
          t.sec = { s.sec with verify := some (b, h, { img with
            raw := (got ++ p.drop 8).take ((got ++ p.drop 8).length - 96)
            sig := (got ++ p.drop 8).drop ((got ++ p.drop 8).length - 96) }) }))) ∧
    (clocked s = true → ∀ h img b, s.sec.verify = some (b, h, img) →
      let s1 := checkSlots { s with sec := { s.sec with verify := none } }
      let check := loaderCheck true img (clustersOf img) [] s1
      let placed := placeAgain none img (affected img s1) s1
      (imageHolds img s1 = false → ends .imageVerify fun t =>
        same t ∧ t.boot = s.boot ∧ t.sec.verify = none ∧ getF F.secFaultVerifyFail t = 1 ∧ answers h 2 [] s t) ∧
      (b = false → imageHolds img s1 = true →
        (check.1 = 0 → ends .imageVerify fun t => t.boot.running = some img ∧ t.boot.place = check.2 ∧ t.sec.verify = none ∧
          t.sec.imageHash = sha384 img.raw ∧ getF F.rstBootSlot t = 2 ∧ answers h 0 [] s t) ∧
        (check.1 ≠ 0 → ends .imageVerify fun t => same t ∧ t.boot = s.boot ∧ t.sec.verify = none ∧
          answers h 2 (codeBytes check.1) s t)) ∧
      (b = true → imageHolds img s1 = true → ends .imageVerify fun t => t.units = placed.1.units ∧ t.mem = placed.1.mem ∧
        t.boot = placed.1.boot ∧ t.mode = s.mode ∧ t.sec.verify = none ∧
        (placed.2 = 0 → answers h 0 [] s t) ∧ (placed.2 ≠ 0 → answers h 2 (codeBytes placed.2) s t))) ∧
    (∀ (u : UnitId) (b : Src), issues u .sys (srcImm b) (srcRegs b) s →
      let a := (srcVal u b s).toNat
      let n := authLen (readB s.mem (storeBase u + a + 5)).toNat
      (a % 4 = 0 → a + 212 ≤ storeSize u → a + n ≤ storeSize u → ends (.sysLifecycle u b) fun t =>
        t.units = (advance u (srcImm b) s).units ∧ t.mem = s.mem ∧ getF F.secStateAuthBusy t = 1 ∧
        t.sec = { s.sec with auths := s.sec.auths ++ [⟨readBytes s.mem (storeBase u + a) n, none⟩] }) ∧
      (a % 4 ≠ 0 ∨ storeSize u < a + 212 ∨ storeSize u < a + n → exec (.sysLifecycle u b) s = .next (takeExc u 7 (srcImm b) s))) ∧
    (∀ (h : Hdr) (p : List Byte), asks 0x31 [0, 2] [2, 3, 4] h p s → p.length = authLen (authSigner p) →
      (let queues (t : State) : Prop := same t ∧ t.net = s.net ∧ getF F.secStateAuthBusy t = 1 ∧
         t.sec = { s.sec with auths := s.sec.auths ++ [⟨p, some h⟩] }
       authType p ≠ 1 → ends (.cmdAuth h p) fun t => queues t ∨ authUnderWay s = true ∧ same t ∧ t.sec = s.sec ∧ answers h 3 [] s t) ∧
      (authType p = 1 → ends (.cmdAuth h p) fun t => same t ∧ t.sec = s.sec ∧ answers h 2 [] s t ∧ getF F.secFaultAuthRefused t = 1 ∧
        getF F.secCountAuthRefused t = min 65535 (getF F.secCountAuthRefused s + 1) ∧
        t.ev.queue = s.ev.queue ++ [⟨0x0222, 0, 0, 0, s.time⟩])) ∧
    (clocked s = true → ∀ r rest, s.sec.auths = r :: rest →
      let s0 := checkSlots (setF F.secStateAuthBusy (b2n (!rest.isEmpty)) { s with sec := { s.sec with auths := rest } })
      let s1 := if authCompl r.data = true then s0 else complementFail 7 s0
      let i := authTarget r.data
      let done (st : Nat) (t : State) : Prop := t.sec.auths = rest ∧ ∀ h, r.reply = some h → answers h st [] s t
      (authOk r s1 = true →
        (authType r.data = 2 → ends .authBlockCheck fun t => same t ∧ done 0 t ∧ slotState i s = 0 ∧ slotState i t = 1 ∧
          getF F.secKeysCount t = getF F.secKeysCount s + 1 ∧ (∀ k, k < 4 → k ≠ i → slotState k t = slotState k s)) ∧
        (authType r.data = 3 → ends .authBlockCheck fun t => same t ∧ done 0 t ∧ slotState i s = 1 ∧ slotState i t = 2 ∧
          getF F.secKeysCount t = getF F.secKeysCount s + 1 ∧ (∀ k, k < 4 → k ≠ i → slotState k t = slotState k s) ∧
          ∃ k, k < 4 ∧ slotState k t = 1) ∧
        (authType r.data = 1 → ends .authBlockCheck fun t => t.mode = .inReset ∧
          t.sec.otp = (BitVec.ofNat 8 i, ~~~ (BitVec.ofNat 8 i)) ∧ getF F.lcsStateState t = i ∧ getF F.lcsInfoWipePending t = 1 ∧
          getF F.rstCauseLcsChange t = 1 ∧ t.units = Vector.replicate 30 ExUnit.reset)) ∧
      (authOk r s1 = false → ends .authBlockCheck fun t => same t ∧ done 2 t ∧
        t.word F.secKeys = s.word F.secKeys ∧ t.word F.lcsState = s.word F.lcsState ∧ getF F.secFaultAuthRefused t = 1 ∧
        getF F.secCountAuthRefused t = min 65535 (getF F.secCountAuthRefused s + 1))) ∧
    (∀ (h : Hdr) (p : List Byte), asks 0x30 [0, 2] [0, 1, 2, 3, 4, 5] h p s → p.length = 32 →
      (s.sec.attest = none → ends (.cmdAttest h p) fun t => same t ∧ t.net = s.net ∧ getF F.secStateAttestBusy t = 1 ∧
        t.sec = { s.sec with attest := some (h, p) }) ∧
      (s.sec.attest ≠ none → ends (.cmdAttest h p) fun t => same t ∧ t.sec = s.sec ∧ answers h 3 [] s t ∧
        getF F.secCountAttestRefused t = min 65535 (getF F.secCountAttestRefused s + 1))) ∧
    ∀ h nonce, clocked s = true → s.sec.attest = some (h, nonce) → ends .attestReport fun t =>
      let b := reportBytes nonce s
      same t ∧ t.sec = { s.sec with attest := none, drbg := (randomBytes 48 s).2.sec.drbg } ∧ getF F.secStateAttestBusy t = 0 ∧
        answers h 0 (b ++ fitBytes 96 (ecSign s.sec.identity (1 + beNat (randomBytes 48 s).1 % (ecN - 1)) (sha384 b))) s t

/-- A link that may train comes up and shows it; one that fails goes down with its fault and event. On a link that is up a
cell with a bad CRC only counts, the module's own is dropped, a copy within 1 ms only renews its mark; any other is
marked, forwarded with one hop less and its CRC where its type and HOPS let it, and acted on: SYNC requests its edge (a
late one the next), LATCH (as a datagram too) waits at the running dies it names where its group is listed, unless a LATCH
of its number came within 1 s, TIME gives the delay of its link and the first offset, HANDOFF and OWNER (and MSG) enter
the receive queue, or count in RX_DROP while 64 wait. No byte of memory changes. A late SYNC that takes the next edge and
counts (assumption 80), a first stamp of 0 that makes a TIME cell no measurement (assumption 77) and the PORT of a record
(assumption 65) are the model's choice. (R68, R403, R410, R411, R412, R413, R414, R415, R417.) -/
def Obligations.VangadCells : Prop :=
  ∀ (p : Fin 2) (s : State), clocked s = true →
    let ends (i : Instr) (eff : State → Prop) : Prop := ∃ t, exec i s = .next t ∧ t.units = s.units ∧ t.mem = s.mem ∧ eff t
    let q := otherLink p
    let cell (k : Nat) (c : Cell) : Instr := match k with
      | 1 => .vgdSyncCell p c | 2 => .vgdLatchCell p c | 3 => .vgdHandoffCell p c | 4 => .vgdTimeCell p c | _ => .vgdOwnerCell p c
    let copy (n k : Nat) (c : Cell) : Bool := seenWithin n c.source.toNat k c.cseq.toNat s
    let marked (k : Nat) (c : Cell) (t : State) : Prop := ⟨c.source.toNat, k, c.cseq.toNat, s.periph⟩ ∈ t.net.seen
    let out (k : Nat) (c : Cell) : List Sent :=
      if 1 < c.hops ∧ (k = 1 ∨ k = 2 ∨ k = 5) ∧ vgdSends true q s = true then
        List.replicate (if k = 5 then 1 else 2) (.cell q k { c with hops := c.hops - 1, crc := cellCrc k { c with hops := c.hops - 1 } }) else []
    let came (k : Nat) (c : Cell) : Prop := c.crc = cellCrc k c ∧ ownSource c.source.toNat s = false ∧ copy secondCycles k c = false
    let brings (k : Nat) (c : Cell) (eff : State → Prop) : Prop := ends (cell k c) fun t =>
      marked k c t ∧ t.net.sent = out k c ++ s.net.sent ∧ eff t
    let queued (kind port type source : Nat) (data : List Byte) (t : State) : Prop :=
      (s.net.rx.length < 64 → t.net.rx = s.net.rx ++ [[BitVec.ofNat 32 (kind * 2 ^ 28 + port * 2 ^ 26 + type * 2 ^ 22 + source),
        BitVec.ofNat 32 s.time, BitVec.ofNat 32 (s.time / 2 ^ 32), BitVec.ofNat 32 data.length] ++ fitWords 12 (toWords data)] ∧
        getF F.lnkRxQueued t = s.net.rx.length + 1) ∧
      (64 ≤ s.net.rx.length → t.net.rx = s.net.rx ∧ getF F.lnkRxRxDrop t = min 65535 (getF F.lnkRxRxDrop s + 1))
    let latched (b : List Word) (t : State) : Prop := live s = true → (groupsOf s).contains (latchGroup b) = true → complementOk b = true →
      latchTime b ≤ s.time + 60000000000 → ∀ d : Fin 2, (t.lum[d]).latch =
        if latchNames b d = true ∧ adUp d s = true then some ⟨latchTime b, latchId b⟩ else (s.lum[d]).latch
    (vgdEnabled p s = true → vgdUp p s = false → s.pins.vgdTx = true → ends (.vgdLinkTrained p) fun t =>
      vgdUp p t = true ∧ getF (vgdLock p) t = 1 ∧ vgdUp q t = vgdUp q s ∧
      t.ev.queue = s.ev.queue ++ [⟨0x5002, 0xD, 2 + p.val, 0, s.time⟩] ∧ t = { s with status := t.status, ev := t.ev }) ∧
    (vgdUp p s = true → ends (.vgdLinkDown p) fun t => vgdUp p t = false ∧ vgdUp q t = vgdUp q s ∧ t.net.vgd[p] = VgdPort.reset ∧
      getF (if p = 0 then F.lnkFaultVgd0Down else F.lnkFaultVgd1Down) t = 1 ∧ t.clock.src ≠ some (vgdSrc p) ∧
      (∃ l, t.ev.queue = s.ev.queue ++ ⟨0x5001, 0xD, 2 + p.val, 0, s.time⟩ :: l)) ∧
    (vgdEnabled p s = true → vgdUp p s = true → ∀ c : Cell,
      (∀ k ∈ [1, 2, 3, 4, 5],
        (c.crc ≠ cellCrc k c → ends (cell k c) fun t => t = { s with status := t.status } ∧
          let f := if p = 0 then F.lnkCellCrcVgd0 else F.lnkCellCrcVgd1
          getF f t = min 65535 (getF f s + 1)) ∧
        (c.crc = cellCrc k c → ownSource c.source.toNat s = true → exec (cell k c) s = .next s) ∧
        (c.crc = cellCrc k c → ownSource c.source.toNat s = false → copy msCycles k c = true → ends (cell k c) fun t =>
          marked k c t ∧ t = { s with net := { s.net with seen := t.net.seen } })) ∧
      (came 1 c →
        (syncFwd p s = false → brings 1 c fun t => t.grid = s.grid ∧ t.status = s.status) ∧
        (syncFwd p s = true → working s = true → getF F.clkStateTimeSrc s ≠ 0 →
          let b := boundaryAt (leNat (c.payload.take 8) + 600 * (64 - c.hops)) s
          let at_ := if b ≤ s.periph then edgeCycle s.periph else b.toNat
          edgeTooSoon at_ s = false → brings 1 c fun t =>
            (∀ e, e ∈ pendingEdges t ↔ e = at_ ∨ (e ∈ pendingEdges s ∧ ¬ (at_ < e ∧ e < at_ + 1000))) ∧
            getF F.lnkSyncSyncRx t = min 65535 (getF F.lnkSyncSyncRx s + 1) ∧
            getF F.lnkSyncSyncLate t = if b ≤ s.periph then min 65535 (getF F.lnkSyncSyncLate s + 1) else getF F.lnkSyncSyncLate s)) ∧
      (came 2 c →
        (latchSeen c.source.toNat c.cseq.toNat s = false → brings 2 c (latched (toWords (c.payload.take 32)))) ∧
        (latchSeen c.source.toNat c.cseq.toNat s = true → brings 2 c fun t => t.lum = s.lum ∧ t.status = s.status)) ∧
      (came 3 c → brings 3 c (queued 1 (2 ^ p.val) 3 c.source.toNat (c.payload.take 48))) ∧
      (came 4 c → brings 4 c fun t =>
        (t.net.vgd[p]).last = some ((fieldAt c.payload 16 8 : Int), (s.time : Int)) ∧
        (t.net.vgd[p]).stratum = some (fieldAt c.payload 24 1) ∧
        (t.net.vgd[p]).delay = (if fieldAt c.payload 0 8 = 0 then (s.net.vgd[p]).delay else
          some (linkDelay (fieldAt c.payload 0 8) (fieldAt c.payload 8 8) (fieldAt c.payload 16 8) s.time)) ∧
        (live s = true → bit (s.word F.lnkCfg0) 29 = false → vgdUp q s = false → s.clock.src = none → fieldAt c.payload 24 1 < 15 →
          fieldAt c.payload 0 8 ≠ 0 →
          let off := timeOffset (fieldAt c.payload 0 8) (fieldAt c.payload 8 8) (fieldAt c.payload 16 8) s.time
          t.clock.src = some (vgdSrc p) ∧ (off.natAbs ≤ 1000000 → t.clock.remaining = -off ∧ t.time = s.time))) ∧
      (came 5 c →
        (c.group = 0 ∨ (groupsOf s).contains c.group.toNat = true →
          brings 5 c (queued 1 (2 ^ p.val) 5 c.source.toNat (c.payload.take 48))) ∧
        (c.group ≠ 0 → (groupsOf s).contains c.group.toNat = false → brings 5 c fun t => t.net.rx = s.net.rx))) ∧
    ∀ (h : Hdr) (d : List Byte),
      (asks 0x71 [1] [0, 1, 2, 3, 4, 5] h d s → d.length = 36 → ownSource (fieldAt d 32 4) s = false →
        latchSeen (fieldAt d 32 4) h.seq.toNat s = false → ends (.latchDatagram h d) fun t =>
          latched (toWords (d.take 32)) t ∧ t.net.sent = s.net.sent) ∧
      (asks 0x50 [0, 1, 2] [2, 3, 4] h d s → 4 ≤ d.length → d.length ≤ 48 → ends (.cmdMsg h d) fun t =>
        answers h 0 [] s t ∧ ∃ x, x < 2 ^ 18 ∧ queued (if answered h = true then 3 else 2) (2 ^ h.eth.val) 0 x d t)

/-- Where nothing holds a LATCH back and it names a die present or a group, it completes: it sets out to each die named that
is reachable, and to its group as a cell and datagrams, the CSEQ of its type advancing; else it raises cause 7. A TIME
cell carries the partner's last departure, its arrival here and the time now. LNK.MSG puts a valid settings record in
force and refuses another, sends 48 bytes as a HANDOFF or OWNER cell on the links named that are up, or 4 to 48 bytes as a
datagram, and gives the records of its queue oldest first. A reserved KIND ends with code 2. The layout of TIME
(assumption 77), the datagram of a LATCH (assumption 74) and a CSEQ that advances whether or not a link sends (assumption
80) are the model's choice. (R283, R404, R411, R412, R413, R415, R416, R417.) -/
def Obligations.VangadAndMessageSends : Prop :=
  (∀ (u : UnitId) (n : Reg) (s : State), isBlock n = true → issues u .event false ((blockRegs n).map .s) s →
    latchOk (getBlock u n s) s = true → ∃ t, exec (.latch u n) s = .next t ∧
      let b := getBlock u n s
      let lost : Bool := ((List.finRange 2).any fun d => latchNames b d && !reach (dieOf u) (6 + d.val) s) ||
        (latchGroup b ≠ 0 && !reach (dieOf u) 0 s)
      passed u false s t ∧ sameMem s t ∧
      (∀ d : Fin 2, t.msgs[d] = if latchNames b d = true ∧ reach (dieOf u) (6 + d) s = true then s.msgs[d] ++ [.latch u lost b] else s.msgs[d]) ∧
      (latchGroup b = 0 → t.net = s.net) ∧
      (latchGroup b ≠ 0 → reach (dieOf u) 0 s = true → t.net.cseq[2] = (s.net.cseq[2] + 1) % 2 ^ 32 ∧
        (∀ p : Fin 2, vgdSends false p s = true → ∃ c : Cell, Sent.cell p 2 c ∈ t.net.sent ∧ c.payload.take 32 = (toBytes b).take 32 ∧
          c.hops = 63 ∧ c.cseq = BitVec.ofNat 32 s.net.cseq[2]) ∧
        ∀ e : Fin 2, ethUp e s = true → s.pins.ethTx = true →
          Sent.datagram e none (groupAddr (latchGroup b)) udpPort
            (sealHdr e (groupAddr (latchGroup b)) udpPort
              (sentHdr 0x71 (groupHdrAddr (latchGroup b)) (BitVec.ofNat 32 s.net.cseq[2]) 36 0 0) (toBytes b ++ leBytes 4 (devnum s)) s)
            (toBytes b ++ leBytes 4 (devnum s)) ∈ t.net.sent)) ∧
  (∀ (u : UnitId) (n : Reg) (s : State), isBlock n = true → issues u .event false ((blockRegs n).map .s) s →
    latchOk (getBlock u n s) s = false → exec (.latch u n) s = .next (takeExc u 7 false s)) ∧
  (∀ (p : Fin 2) (s : State), clocked s = true → vgdSends false p s = true → ∃ t, exec (.vgdTimeSend p) s = .next t ∧
    let last := s.net.vgd[p].last.getD (0, 0)
    (∃ c, t.net.sent = .cell p 4 c :: s.net.sent ∧ c.hops = 1 ∧
      c.payload.take 25 = leBytes 8 last.1.toNat ++ leBytes 8 last.2.toNat ++ leBytes 8 s.time ++ leBytes 1 (ownStratum s)) ∧
    t.net.cseq = s.net.cseq.set 4 ((s.net.cseq[4] + 1) % 2 ^ 32) ∧ t = { s with net := t.net }) ∧
  (∀ (u : UnitId) (t : Tag) (x : Xfer) (s : State), recordAt u t (· = 0x7C) x s → passes (dieOf u) 0 s = true →
    msgKind x.addr = 0 → linkRecordOk (sourceWords x s) = true → ∃ r, exec (.lnkMsgSettings u t) s = .next r ∧
      r.xfers = (setCode u t 0 s).xfers ∧ r.units = s.units ∧ sameMem s r ∧
      (∀ i, i < 10 → r.word (F.lnkCfg0 + 4 * i) = nth 0 (sourceWords x s) i) ∧
      ∀ p : Fin 2, vgdEnabled p r = false → vgdUp p r = false) ∧
  (∀ (u : UnitId) (t : Tag) (x : Xfer) (s : State), recordAt u t (· = 0x7C) x s → passes (dieOf u) 0 s = true →
    (msgKind x.addr = 0 → linkRecordOk (sourceWords x s) = false → refusesRecord (.lnkMsgSettings u t) u t F.lnkFaultSettingsRefused s) ∧
    (3 ≤ msgKind x.addr → exec (.lnkMsgSettings u t) s = .next (setCode u t 2 s))) ∧
  (∀ (u : UnitId) (t : Tag) (x : Xfer) (s : State), recordAt u t (· = 0x7C) x s → passes (dieOf u) 0 s = true →
    let type := x.addr / 2 ^ 22 % 16
    let hops := x.addr / 2 ^ 16 % 64
    msgKind x.addr = 1 → x.len = 48 → type = 3 ∨ (type = 5 ∧ hops ≠ 0) → (∀ p ∈ msgPorts x.addr, vgdSends false p s = true) →
    ∃ r, exec (.lnkMsgCellSend u t) s = .next r ∧ r.xfers = (setCode u t 0 s).xfers ∧ r.units = s.units ∧ sameMem s r ∧
      (∀ p ∈ msgPorts x.addr, ∃ c : Cell, Sent.cell p type c ∈ r.net.sent ∧ c.payload = toBytes (sourceWords x s) ∧
        c.hops = (if type = 3 then 1 else hops) ∧ c.group = BitVec.ofNat 16 (if type = 3 then 0 else x.addr % 65536)) ∧
      r.status = s.status ∧ r.ev = s.ev) ∧
  (∀ (u : UnitId) (t : Tag) (x : Xfer) (s : State), recordAt u t (· = 0x7C) x s → passes (dieOf u) 0 s = true →
    msgKind x.addr = 2 → 4 ≤ x.len → x.len ≤ 48 → (∀ e ∈ msgPorts x.addr, ethUp e s = true) → s.pins.ethTx = true →
    ∃ r, exec (.lnkMsgEthSend u t) s = .next r ∧ r.xfers = (setCode u t 0 s).xfers ∧ r.units = s.units ∧ sameMem s r ∧
      (∀ e ∈ msgPorts x.addr, ∃ n, Sent.datagram e none (groupAddr (x.addr % 65536)) udpPort
        (sealHdr e (groupAddr (x.addr % 65536)) udpPort (sentHdr 0x50 (groupHdrAddr (x.addr % 65536)) n x.len 0 0) (toBytes (sourceWords x s)) s)
        (toBytes (sourceWords x s)) ∈ r.net.sent) ∧
      r.status = s.status ∧ r.ev = s.ev) ∧
  ∀ (u : UnitId) (t : Tag) (x : Xfer) (s : State), readAt u t (· = 0x7C) x s → passes (dieOf u) 0 s = true →
    msgKind x.addr = 1 → x.len % 64 = 0 →
    let n := x.len / 64
    let ws := fitWords (x.len / 4) (s.net.rx.take n).flatten
    ∃ r, exec (.lnkMsgRead u t) s = .next r ∧ readWords r.mem (storeBase u + x.base) ws.length = ws ∧
      (∀ b, b < storeBase u + x.base ∨ storeBase u + x.base + 4 * ws.length ≤ b → readB r.mem b = readB s.mem b) ∧
      r.xfers = (setCode u t 0 s).xfers ∧ r.units = s.units ∧ r.net = { s.net with rx := s.net.rx.drop n }

/-- A port's link comes up with its event and its membership reports, and goes down with its fault and event; a PLL that loses
lock takes its link down. A frame that is tagged, long or bad is counted; ARP and echo requests for the port's address are
answered; a conflict draws a new link-local address (a free value in 169.254.1.0 to 169.254.254.255). A port that heeds a
PTP message follows a Sync of one step at once or of two with its Follow_Up, answers a Delay_Req as master, takes the path
delay, and follows the best clock announced, by priority1, quality and identity, that is better than its own; a master's
Sync and Follow_Up leave with one number once in a Sync interval, and its Announce where it is due; what leaves carries
the domain, over UDP to 319 or 320 or in 802.3 frames. A heartbeat leaves and is counted; ALIVE toggles while hub core 0
has retired an instruction, and the deadline monitor has checked, within 1 ms. Units and memory stay. What PTP leaves to
its standard (assumptions 76 and 112, presumed), the range of a new link-local address (assumption 71) and when the
monitor's check counts for ALIVE (assumption 81) are the model's choice. (R68, R405, R406, R407, R418, R419, R422.) -/
def Obligations.EthernetPorts : Prop :=
  ∀ (e : Fin 2) (s : State), clocked s = true →
    let ends (i : Instr) (eff : State → Prop) : Prop := ∃ t, exec i s = .next t ∧ t.units = s.units ∧ t.mem = s.mem ∧ eff t
    let o := otherLink e
    let l2 := bit (s.word F.lnkCfg0) 23
    let event : PtpCarrier := if l2 then .l2 else .udp 319
    let general : PtpCarrier := if l2 then .l2 else .udp 320
    let sends (l : List Sent) (t : State) : Prop := t.net.sent = l ++ s.net.sent
    let down (t : State) : Prop := ethUp e t = false ∧ ethUp o t = ethUp o s ∧ getF (ethDownFld e) t = 1 ∧
      t.clock.src ≠ some (ethSrc e) ∧ (t.net.ptp[e]).slave = false ∧
      ∃ l, t.ev.queue = s.ev.queue ++ ⟨0x5003, 0xD, e.val, 0, s.time⟩ :: l
    (ethUp e s = false → s.pins.ethTx = true → ends (.ethLinkUp e) fun t =>
      ethUp e t = true ∧ ethUp o t = ethUp o s ∧ getF (ethLock e) t = 1 ∧
      sends ((0 :: groupsOf s).reverse.map fun g => .igmp e (groupAddr g)) t ∧
      t.ev.queue = s.ev.queue ++ [⟨0x5004, 0xD, e.val, 0, s.time⟩] ∧ t = { s with net := t.net, status := t.status, ev := t.ev }) ∧
    (ethUp e s = true → ends (.ethLinkDown e) down ∧ ends (.serdesUnlock (Fin.ofNat 4 e.val)) fun t => down t ∧ getF (ethLock e) t = 0) ∧
    (vgdUp e s = true → ends (.serdesUnlock (Fin.ofNat 4 (2 + e.val))) fun t => vgdUp e t = false ∧ getF (vgdLock e) t = 0) ∧
    (ethUp e s = true → s.pins.ethTx = true →
      (∀ f : EthFrame, f.vlan = true ∨ 1518 < f.length ∨ f.fcsOk = false → ends (.ethFrameReceive e f) fun t =>
        let c := if e = 0 then F.lnkFrameDropEth0 else F.lnkFrameDropEth1
        getF c t = min 65535 (getF c s + 1) ∧ t = { s with status := t.status }) ∧
      (∀ src data, exec (.arpRequest e (ethAddr e s) src data) s =
          .next (send (.arp e src (macOf e s ++ ipBytes (ethAddr e s) ++ data ++ ipBytes src)) s) ∧
        ∀ mac, exec (.icmpEcho e mac (ethAddr e s) src data) s = .next (send (.echo e mac src data) s)) ∧
      (∀ mac dst src data, dst ≠ ethAddr e s →
        exec (.arpRequest e dst src data) s = .next s ∧ exec (.icmpEcho e mac dst src data) s = .next s) ∧
      (flagAt F.lnkPortLinkLocal e s = true → ends (.addrConflict e) fun t =>
        0xA9FE0100 ≤ (ethAddr e t).toNat ∧ (ethAddr e t).toNat ≤ 0xA9FEFEFF ∧ ethAddr o t = ethAddr o s ∧
        getF F.lnkFaultAddrConflict t = 1 ∧ t.ev.queue = s.ev.queue ++ [⟨0x5008, 0xD, e.val, 0, s.time⟩] ∧
        t = { s with free := t.free, status := t.status, ev := t.ev }) ∧
      (∀ st, hostState s = some st → ends (.heartbeatSend e) fun t =>
        getF F.lnkHbCountCount t = (getF F.lnkHbCountCount s + 1) % 2 ^ 32 ∧
        (∃ x r, sends [.datagram e none (groupAddr (bits (s.word F.lnkCfg1) 31 16)) udpPort
          (sealHdr e (groupAddr (bits (s.word F.lnkCfg1) 31 16)) udpPort (sentHdr 0x70 (devnum s) x 28 0 0)
            (leBytes 8 (uidOf s).toNat ++ leBytes 1 st ++ r) s) (leBytes 8 (uidOf s).toNat ++ leBytes 1 st ++ r)] t ∧ r.length = 19) ∧
        t = { s with net := t.net, free := t.free, status := t.status }) ∧
      (bit (s.word F.lnkCfg0) (25 + e.val) = true → ptpMaster e s = true →
        let q := s.net.ptp[e]
        let due : Bool := q.announceAt.all fun a => decide (a + 2 * secondCycles ≤ s.periph)
        (∀ a, q.syncAt = some a → a + syncCycles s ≤ s.periph) →
        ends (.ptpSyncSend e) fun t =>
          sends ([.ptp e general (ptpDomain s) .followUp q.nextSync s.time, .ptp e event (ptpDomain s) .sync q.nextSync 0] ++
            if due then [.announce e general (ptpDomain s) q.nextAnnounce (announced e s)] else []) t ∧
          t.net.ptp = s.net.ptp.set e { q with
            nextSync := (q.nextSync + 1) % 65536, syncAt := some s.periph
            nextAnnounce := if due then (q.nextAnnounce + 1) % 65536 else q.nextAnnounce
            announceAt := if due then some s.periph else q.announceAt } ∧
          t = { s with net := t.net })) ∧
    (∀ m : PtpMsg, ptpHears e m s = true →
      let q := s.net.ptp[e]
      let followed (t1 t2 : Int) (t : State) : Prop := sends [.ptp e event (ptpDomain s) .delayReq q.nextReq s.time] t ∧ (t.net.ptp[e]).sync = none ∧
        (t.net.ptp[e]).pair = some (t1, t2) ∧ (t.net.ptp[e]).req = some (q.nextReq, (s.time : Int)) ∧
        (q.delay = none → t.clock = s.clock ∧ t.time = s.time)
      (fromParent e m s = true →
        (m.twoStep = true → exec (.ptpSync e m) s =
          .next { s with net := { s.net with ptp := s.net.ptp.set e { q with sync := some (m.seq.toNat, m.taken) } } }) ∧
        (m.twoStep = false → ends (.ptpSync e m) (followed m.origin m.taken)) ∧
        (∀ t2, q.sync = some (m.seq.toNat, t2) → ends (.ptpFollowUp e m) (followed m.origin t2)) ∧
        (∀ t1 t2 t3, q.req = some (m.seq.toNat, t3) → q.pair = some (t1, t2) → ends (.ptpDelayResp e m) fun t =>
          let d := (t2 - t1 + (m.origin - t3)) / 2
          (t.net.ptp[e]).delay = some d ∧ (t.net.ptp[e]).req = none ∧ t.net.sent = s.net.sent ∧
          (live s = true → srcAllowed (ethSrc e) s = true → s.clock.src = none →
            t.clock.src = some (ethSrc e) ∧ ((t2 - t1 - d).natAbs ≤ 1000000 → t.clock.remaining = -(t2 - t1 - d))))) ∧
      (ptpMaster e s = true → exec (.ptpDelayReq e m) s = .next (send (.ptp e general (ptpDomain s) .delayResp m.seq.toNat m.taken) s)) ∧
      (let c := m.clock
       let better : Bool := (ownClock s).prio1 = 255 || betterClock c (ownClock s)
       let best : Bool := fromParent e m s || q.parent.all fun x => betterClock c x
       (c.identity = clockIdentity s → exec (.ptpAnnounce e m) s = .next s) ∧
       (c.identity ≠ clockIdentity s →
        (better = true → best = true → ends (.ptpAnnounce e m) fun t => (t.net.ptp[e]).parent = some c ∧
          (fromParent e m s = true → t.net.ptp[e] = { q with parent := some c }) ∧
          (fromParent e m s = false → (t.net.ptp[e]).sync = none ∧ (t.net.ptp[e]).pair = none ∧ (t.net.ptp[e]).delay = none) ∧
          t.net.ptp[o] = s.net.ptp[o] ∧ t = { s with net := t.net }) ∧
        (better = true → best = false → exec (.ptpAnnounce e m) s = .next s) ∧
        (better = false → fromParent e m s = false → exec (.ptpAnnounce e m) s = .next s) ∧
        (better = false → fromParent e m s = true → ends (.ptpAnnounce e m) fun t => (t.net.ptp[e]).slave = false ∧
          t.clock.src ≠ some (ethSrc e) ∧ t.net.sent = s.net.sent ∧ t.time = s.time)))) ∧
    ((s.net.ptp[e]).slave = true → ends (.ptpAnnounceTimeout e) fun t => (t.net.ptp[e]).slave = false ∧
      t.clock.src ≠ some (ethSrc e) ∧ t.net.sent = s.net.sent ∧ t.time = s.time) ∧
    (∀ c, working s = true → (s.units[26]).ranAt = some c → s.periph ≤ c + 100000 → s.periph ≤ s.ejt.monitorAt + 100000 →
      exec .aliveToggle s = .next { s with pins := { s.pins with alive := !s.pins.alive } })

/-- A step of a state with a command at the front of its queue is that command's effect on the state with the rest of the
queue. On an empty queue (model's choice, log entry 36) the supervisor's clock counts one cycle, the PERIPH clock counts
one where the clocks run, device time stands while frozen and else moves by 9, 10 or 11 ns, 10 where it is neither slewed
nor rate corrected; no transfer or command waiting changes, no unit, no byte of memory below DDR5, which the wipe zeroes,
and nothing but clocks and contacts where the clocks are stopped. (R69, R87, R429.) -/
def Obligations.StepRunsTheFrontCommand : Prop :=
  (∀ (c : Instr) (rest : List Instr) (s : State), step { s with pending := c :: rest } = exec c { s with pending := rest }) ∧
  ∀ s : State, s.pending = [] → ∃ t, step s = .next t ∧ t.tick = s.tick + 1 ∧ t.periph = s.periph + b2n (clocked s) ∧
    (s.freeze.since.isSome = true ∨ s.timeOn = false → t.time = s.time) ∧
    (s.freeze.since = none → s.timeOn = true → ∃ d, d ≤ 2 ∧ t.time = (s.time + 9 + d) % 2 ^ 64) ∧
    (s.freeze.since = none → s.timeOn = true → s.clock.slewing = false → s.clock.rate = 0 → s.clock.drift.natAbs < 100000 →
      t.time = (s.time + 10) % 2 ^ 64) ∧
    t.units = s.units ∧ t.xfers = s.xfers ∧ t.pending = s.pending ∧ (∀ a, a < ddrBase 0 → readB t.mem a = readB s.mem a) ∧
    (clocked s = false → t = { s with tick := t.tick, time := t.time, clock := t.clock, pins := t.pins })

/-- In the reset state (a ZT8 at its first instruction after power-on: the model's choice, log entries 1 and 2) the
identification word names the family and step, RST.CAUSE shows power-on and RST.BOOT.STAGE 5, every die is up, every tag
is FREE, every byte of memory reads zero and the memory is canonical, no valve is energised or has a shot queued, no
string lights, the set points are 110, 118 and 125 °C with their complement, and no command waits. (R18, R75, R83, R84,
R96, R245, R357.) -/
def Obligations.StateAfterReset : Prop :=
  let s := State.reset
  getF F.idPartFamily s = 0x5A54 ∧ getF F.idPartStep s = 0xB1 ∧ getF F.rstCausePowerOn s = 1 ∧ getF F.rstBootStage s = 5 ∧
  s.opt = .zt8 ∧ s.mode = .running ∧ (∀ d, d < 8 → dieUp d s = true) ∧ (∀ (u : UnitId) (t : Tag), s.units[u].tags[t] = .free) ∧
  (∀ a, readB s.mem a = 0) ∧ sound s ∧ (∀ v : Valve, energised v s = false ∧ (s.ejt.chans[v]).queue = []) ∧
  (∀ n : Strng, strRunning n s = false) ∧ setPoints s = (110, 118, 125) ∧ s.word F.thmLimitsN = ~~~ s.word F.thmLimits ∧ s.pending = []

/-- In every state whose memory lists its bytes at strictly rising addresses with no zero among them (an unlisted byte reads
zero: log entry 4), whatever command stands at the front of the queue, a step that answers a next state leaves a memory of
the same form: equal memories stay equal data. (R8, R83, R84, R222, R225.) -/
def Obligations.MemoryStaysCanonical : Prop :=
  ∀ s t : State, sound s → step s = .next t → sound t

/-- In every state, a command whose operands the loader's check 0x03 accepts, and whose endpoint, for a STREAM, is present,
answers a next state: none ends in a fault or a refusal. A command whose operands the check refuses, or a STREAM to an
endpoint that is absent, is refused as ill formed (log entry 33), and by nothing else. (R6, R263, R270, R271, R277.) -/
def Obligations.WellFormedCommandsRun : Prop :=
  ∀ (i : Instr) (s : State),
    let absent : Prop := ∃ (u : UnitId) (q : StreamOp), (i = .streamIn u q ∨ i = .streamOut u q) ∧ epPresent q.ep.toNat s = false
    (WellFormed i = true → ¬ absent → ∃ t, exec i s = .next t) ∧
    (WellFormed i = false ∨ absent → ∃ m, exec i s = .refused (.illFormed m))
end

