-- ==== Sys2Proof/Laws/Dispatch.lean ====
section
/-!
SUPPORT. What each command means, by its constructor.
-/

namespace Sys2Proof.Machine

variable (st : State)

theorem exec_add (u : UnitId) (d a : Reg) (b : Src) : exec (.add u d a b) st = execAdd u d a b st := rfl
theorem exec_sub (u : UnitId) (d a : Reg) (b : Src) : exec (.sub u d a b) st = execSub u d a b st := rfl
theorem exec_and (u : UnitId) (d a : Reg) (b : Src) : exec (.and u d a b) st = execAnd u d a b st := rfl
theorem exec_or (u : UnitId) (d a : Reg) (b : Src) : exec (.or u d a b) st = execOr u d a b st := rfl
theorem exec_xor (u : UnitId) (d a : Reg) (b : Src) : exec (.xor u d a b) st = execXor u d a b st := rfl
theorem exec_shl (u : UnitId) (d a : Reg) (b : Src) : exec (.shl u d a b) st = execShl u d a b st := rfl
theorem exec_shr (u : UnitId) (d a : Reg) (b : Src) : exec (.shr u d a b) st = execShr u d a b st := rfl
theorem exec_sra (u : UnitId) (d a : Reg) (b : Src) : exec (.sra u d a b) st = execSra u d a b st := rfl
theorem exec_mul (u : UnitId) (d a : Reg) (b : Src) : exec (.mul u d a b) st = execMul u d a b st := rfl
theorem exec_mulh (u : UnitId) (d a : Reg) (b : Src) : exec (.mulh u d a b) st = execMulh u d a b st := rfl
theorem exec_min (u : UnitId) (d a : Reg) (b : Src) : exec (.min u d a b) st = execMin u d a b st := rfl
theorem exec_max (u : UnitId) (d a : Reg) (b : Src) : exec (.max u d a b) st = execMax u d a b st := rfl
theorem exec_slt (u : UnitId) (d a : Reg) (b : Src) : exec (.slt u d a b) st = execSlt u d a b st := rfl
theorem exec_sltu (u : UnitId) (d a : Reg) (b : Src) : exec (.sltu u d a b) st = execSltu u d a b st := rfl
theorem exec_mov (u : UnitId) (d : Reg) (b : Src) : exec (.mov u d b) st = execMov u d b st := rfl
theorem exec_addD (u : UnitId) (d a : Reg) (b : Src) : exec (.addD u d a b) st = execAddD u d a b st := rfl
theorem exec_subD (u : UnitId) (d a : Reg) (b : Src) : exec (.subD u d a b) st = execSubD u d a b st := rfl
theorem exec_movD (u : UnitId) (d : Reg) (b : Src) : exec (.movD u d b) st = execMovD u d b st := rfl
theorem exec_vadd (u : UnitId) (d a : Reg) (b : VSrc) (pg : Option Pred) : exec (.vadd u d a b pg) st = execVadd u d a b pg st := rfl
theorem exec_vsub (u : UnitId) (d a : Reg) (b : VSrc) (pg : Option Pred) : exec (.vsub u d a b pg) st = execVsub u d a b pg st := rfl
theorem exec_vand (u : UnitId) (d a : Reg) (b : VSrc) (pg : Option Pred) : exec (.vand u d a b pg) st = execVand u d a b pg st := rfl
theorem exec_vor (u : UnitId) (d a : Reg) (b : VSrc) (pg : Option Pred) : exec (.vor u d a b pg) st = execVor u d a b pg st := rfl
theorem exec_vxor (u : UnitId) (d a : Reg) (b : VSrc) (pg : Option Pred) : exec (.vxor u d a b pg) st = execVxor u d a b pg st := rfl
theorem exec_vshl (u : UnitId) (d a : Reg) (b : VSrc) (pg : Option Pred) : exec (.vshl u d a b pg) st = execVshl u d a b pg st := rfl
theorem exec_vshr (u : UnitId) (d a : Reg) (b : VSrc) (pg : Option Pred) : exec (.vshr u d a b pg) st = execVshr u d a b pg st := rfl
theorem exec_vsra (u : UnitId) (d a : Reg) (b : VSrc) (pg : Option Pred) : exec (.vsra u d a b pg) st = execVsra u d a b pg st := rfl
theorem exec_vmin (u : UnitId) (d a : Reg) (b : VSrc) (pg : Option Pred) : exec (.vmin u d a b pg) st = execVmin u d a b pg st := rfl
theorem exec_vmax (u : UnitId) (d a : Reg) (b : VSrc) (pg : Option Pred) : exec (.vmax u d a b pg) st = execVmax u d a b pg st := rfl
theorem exec_vabs (u : UnitId) (d a : Reg) (pg : Option Pred) : exec (.vabs u d a pg) st = execVabs u d a pg st := rfl
theorem exec_vmov (u : UnitId) (d : Reg) (b : VSrc) (pg : Option Pred) : exec (.vmov u d b pg) st = execVmov u d b pg st := rfl
theorem exec_vval (u : UnitId) (d a : Reg) (pg : Option Pred) : exec (.vval u d a pg) st = execVval u d a pg st := rfl
theorem exec_vext (u : UnitId) (d a : Reg) (b : Src) (pg : Option Pred) : exec (.vext u d a b pg) st = execVext u d a b pg st := rfl
theorem exec_vsum (u : UnitId) (d a : Reg) (pg : Option Pred) : exec (.vsum u d a pg) st = execVsum u d a pg st := rfl
theorem exec_vcmp (u : UnitId) (c : Cond) (d : Pred) (a : Reg) (b : VSrc) (pg : Option Pred) : exec (.vcmp u c d a b pg) st = execVcmp u c d a b pg st := rfl
theorem exec_vcmpw (u : UnitId) (c : Cond) (d : Pred) (a : Reg) (b : VSrc) (pg : Option Pred) : exec (.vcmpw u c d a b pg) st = execVcmpw u c d a b pg st := rfl
theorem exec_vflags (u : UnitId) (d : Pred) (a b : Reg) : exec (.vflags u d a b) st = execVflags u d a b st := rfl
theorem exec_pcount (u : UnitId) (d : Reg) (a : Pred) : exec (.pcount u d a) st = execPcount u d a st := rfl
theorem exec_vmacH (u : UnitId) (d a : Reg) (b : VSrc) (pg : Option Pred) : exec (.vmacH u d a b pg) st = execVmacH u d a b pg st := rfl
theorem exec_vmacHs (u : UnitId) (d a : Reg) (b : VSrc) (pg : Option Pred) : exec (.vmacHs u d a b pg) st = execVmacHs u d a b pg st := rfl
theorem exec_vmacW (u : UnitId) (d a : Reg) (b : VSrc) (pg : Option Pred) : exec (.vmacW u d a b pg) st = execVmacW u d a b pg st := rfl
theorem exec_vmulW (u : UnitId) (d a : Reg) (b : VSrc) (pg : Option Pred) : exec (.vmulW u d a b pg) st = execVmulW u d a b pg st := rfl
theorem exec_vmulhW (u : UnitId) (d a : Reg) (b : VSrc) (pg : Option Pred) : exec (.vmulhW u d a b pg) st = execVmulhW u d a b pg st := rfl
theorem exec_vdotH (u : UnitId) (d a : Reg) (b : VSrc) (pg : Option Pred) : exec (.vdotH u d a b pg) st = execVdotH u d a b pg st := rfl
theorem exec_load (u : UnitId) (d : Reg) (m : Addr) (t : TagSel) : exec (.load u d m t) st = execLoad u d m t st := rfl
theorem exec_loadD (u : UnitId) (d : Reg) (m : Addr) (t : TagSel) : exec (.loadD u d m t) st = execLoadD u d m t st := rfl
theorem exec_loadH (u : UnitId) (d : Reg) (m : Addr) (t : TagSel) : exec (.loadH u d m t) st = execLoadH u d m t st := rfl
theorem exec_loadHu (u : UnitId) (d : Reg) (m : Addr) (t : TagSel) : exec (.loadHu u d m t) st = execLoadHu u d m t st := rfl
theorem exec_loadB (u : UnitId) (d : Reg) (m : Addr) (t : TagSel) : exec (.loadB u d m t) st = execLoadB u d m t st := rfl
theorem exec_loadBu (u : UnitId) (d : Reg) (m : Addr) (t : TagSel) : exec (.loadBu u d m t) st = execLoadBu u d m t st := rfl
theorem exec_store (u : UnitId) (d : Reg) (m : Addr) (t : TagSel) : exec (.store u d m t) st = execStore u d m t st := rfl
theorem exec_storeD (u : UnitId) (d : Reg) (m : Addr) (t : TagSel) : exec (.storeD u d m t) st = execStoreD u d m t st := rfl
theorem exec_storeH (u : UnitId) (d : Reg) (m : Addr) (t : TagSel) : exec (.storeH u d m t) st = execStoreH u d m t st := rfl
theorem exec_storeB (u : UnitId) (d : Reg) (m : Addr) (t : TagSel) : exec (.storeB u d m t) st = execStoreB u d m t st := rfl
theorem exec_vload (u : UnitId) (d : Reg) (m : Addr) (t : TagSel) : exec (.vload u d m t) st = execVload u d m t st := rfl
theorem exec_vstore (u : UnitId) (d : Reg) (m : Addr) (t : TagSel) : exec (.vstore u d m t) st = execVstore u d m t st := rfl
theorem exec_loadComplete (u : UnitId) (t : Tag) : exec (.loadComplete u t) st = execLoadComplete u t st := rfl
theorem exec_streamIn (u : UnitId) (q : StreamOp) : exec (.streamIn u q) st = execStreamIn u q st := rfl
theorem exec_streamOut (u : UnitId) (q : StreamOp) : exec (.streamOut u q) st = execStreamOut u q st := rfl
theorem exec_transferComplete (u : UnitId) (t : Tag) : exec (.transferComplete u t) st = execTransferComplete u t st := rfl
theorem exec_tagTimeout (u : UnitId) (t : Tag) : exec (.tagTimeout u t) st = execTagTimeout u t st := rfl
theorem exec_eject (u : UnitId) (n : Reg) : exec (.eject u n) st = execEject u n st := rfl
theorem exec_latch (u : UnitId) (n : Reg) : exec (.latch u n) st = execLatch u n st := rfl
theorem exec_lamp (u : UnitId) (a : Reg) (b : Src) : exec (.lamp u a b) st = execLamp u a b st := rfl
theorem exec_sadcStartSingle (u : UnitId) (b : Src) : exec (.sadcStartSingle u b) st = execSadcStartSingle u b st := rfl
theorem exec_sadcStartContinuous (u : UnitId) (b : Src) : exec (.sadcStartContinuous u b) st = execSadcStartContinuous u b st := rfl
theorem exec_sadcStartStop (u : UnitId) (b : Src) : exec (.sadcStartStop u b) st = execSadcStartStop u b st := rfl
theorem exec_calReqRun (u : UnitId) (b : Src) : exec (.calReqRun u b) st = execCalReqRun u b st := rfl
theorem exec_calReqCancel (u : UnitId) (b : Src) : exec (.calReqCancel u b) st = execCalReqCancel u b st := rfl
theorem exec_calReqGap (u : UnitId) (b : Src) : exec (.calReqGap u b) st = execCalReqGap u b st := rfl
theorem exec_sync (u : UnitId) : exec (.sync u) st = execSync u st := rfl
theorem exec_shutterClose (u : UnitId) (b : Src) : exec (.shutterClose u b) st = execShutterClose u b st := rfl
theorem exec_shutterOpen (u : UnitId) (b : Src) : exec (.shutterOpen u b) st = execShutterOpen u b st := rfl
theorem exec_wait (u : UnitId) (w : WaitSel) : exec (.wait u w) st = execWait u w st := rfl
theorem exec_fence (u : UnitId) : exec (.fence u) st = execFence u st := rfl
theorem exec_tagstat (u : UnitId) (d : Reg) (t : Tag) : exec (.tagstat u d t) st = execTagstat u d t st := rfl
theorem exec_beq (u : UnitId) (a : Reg) (b : BSrc) (g : Target) : exec (.beq u a b g) st = execBeq u a b g st := rfl
theorem exec_bne (u : UnitId) (a : Reg) (b : BSrc) (g : Target) : exec (.bne u a b g) st = execBne u a b g st := rfl
theorem exec_blt (u : UnitId) (a : Reg) (b : BSrc) (g : Target) : exec (.blt u a b g) st = execBlt u a b g st := rfl
theorem exec_bge (u : UnitId) (a : Reg) (b : BSrc) (g : Target) : exec (.bge u a b g) st = execBge u a b g st := rfl
theorem exec_bltu (u : UnitId) (a : Reg) (b : BSrc) (g : Target) : exec (.bltu u a b g) st = execBltu u a b g st := rfl
theorem exec_bgeu (u : UnitId) (a : Reg) (b : BSrc) (g : Target) : exec (.bgeu u a b g) st = execBgeu u a b g st := rfl
theorem exec_jmp (u : UnitId) (g : Target) : exec (.jmp u g) st = execJmp u g st := rfl
theorem exec_call (u : UnitId) (g : Target) : exec (.call u g) st = execCall u g st := rfl
theorem exec_jmpr (u : UnitId) (a : Reg) : exec (.jmpr u a) st = execJmpr u a st := rfl
theorem exec_ret (u : UnitId) : exec (.ret u) st = execRet u st := rfl
theorem exec_retx (u : UnitId) : exec (.retx u) st = execRetx u st := rfl
theorem exec_loop (u : UnitId) (a : Reg) (g : Target) : exec (.loop u a g) st = execLoop u a g st := rfl
theorem exec_stat (u : UnitId) (d a : Reg) (k : Option Word) : exec (.stat u d a k) st = execStat u d a k st := rfl
theorem exec_evtClr (u : UnitId) (m a : Reg) (k : Option Word) : exec (.evtClr u m a k) st = execEvtClr u m a k st := rfl
theorem exec_sysResetFull (u : UnitId) (b : Src) : exec (.sysResetFull u b) st = execSysResetFull u b st := rfl
theorem exec_sysResetDie (u : UnitId) (b : Src) : exec (.sysResetDie u b) st = execSysResetDie u b st := rfl
theorem exec_sysResetCluster (u : UnitId) (b : Src) : exec (.sysResetCluster u b) st = execSysResetCluster u b st := rfl
theorem exec_sysFreeze (u : UnitId) : exec (.sysFreeze u) st = execSysFreeze u st := rfl
theorem exec_sysStandby (u : UnitId) : exec (.sysStandby u) st = execSysStandby u st := rfl
theorem exec_sysPark (u : UnitId) : exec (.sysPark u) st = execSysPark u st := rfl
theorem exec_sysRun (u : UnitId) : exec (.sysRun u) st = execSysRun u st := rfl
theorem exec_sysLifecycle (u : UnitId) (b : Src) : exec (.sysLifecycle u b) st = execSysLifecycle u b st := rfl
theorem exec_sysLoad (u : UnitId) (b : Src) : exec (.sysLoad u b) st = execSysLoad u b st := rfl
theorem exec_powerOn : exec (.powerOn) st = execPowerOn st := rfl
theorem exec_refclkPresent : exec (.refclkPresent) st = execRefclkPresent st := rfl
theorem exec_inrushComplete : exec (.inrushComplete) st = execInrushComplete st := rfl
theorem exec_inrushTimeout : exec (.inrushTimeout) st = execInrushTimeout st := rfl
theorem exec_inrushRetry : exec (.inrushRetry) st = execInrushRetry st := rfl
theorem exec_inputOvercurrentTrip : exec (.inputOvercurrentTrip) st = execInputOvercurrentTrip st := rfl
theorem exec_railSequenceStep : exec (.railSequenceStep) st = execRailSequenceStep st := rfl
theorem exec_resetRelease (cl : BitVec 26) (eng : BitVec 80) (bad : List (Fin 16)) : exec (.resetRelease cl eng bad) st = execResetRelease cl eng bad st := rfl
theorem exec_vinLowEntry : exec (.vinLowEntry) st = execVinLowEntry st := rfl
theorem exec_vinNormalEntry : exec (.vinNormalEntry) st = execVinNormalEntry st := rfl
theorem exec_vinHighEntry : exec (.vinHighEntry) st = execVinHighEntry st := rfl
theorem exec_vinOverEntry : exec (.vinOverEntry) st = execVinOverEntry st := rfl
theorem exec_vinOvTrip : exec (.vinOvTrip) st = execVinOvTrip st := rfl
theorem exec_brownout : exec (.brownout) st = execBrownout st := rfl
theorem exec_brownoutEnd : exec (.brownoutEnd) st = execBrownoutEnd st := rfl
theorem exec_railFault (r : Rail) : exec (.railFault r) st = execRailFault r st := rfl
theorem exec_railRetryWaitEnd : exec (.railRetryWaitEnd) st = execRailRetryWaitEnd st := rfl
theorem exec_pwrVinConversion (v : BitVec 16) : exec (.pwrVinConversion v) st = execPwrVinConversion v st := rfl
theorem exec_clockLoss (k : ClockLoss) : exec (.clockLoss k) st = execClockLoss k st := rfl
theorem exec_clockRestart : exec (.clockRestart) st = execClockRestart st := rfl
theorem exec_serdesUnlock (p : Fin 4) : exec (.serdesUnlock p) st = execSerdesUnlock p st := rfl
theorem exec_timeSourceLost : exec (.timeSourceLost) st = execTimeSourceLost st := rfl
theorem exec_timeOffsetMeasured (src : TimeSrc) (off : Int) : exec (.timeOffsetMeasured src off) st = execTimeOffsetMeasured src off st := rfl
theorem exec_timeStep : exec (.timeStep) st = execTimeStep st := rfl
theorem exec_slewComplete : exec (.slewComplete) st = execSlewComplete st := rfl
theorem exec_resetNAssert (ns : Nat) : exec (.resetNAssert ns) st = execResetNAssert ns st := rfl
theorem exec_resetNRelease : exec (.resetNRelease) st = execResetNRelease st := rfl
theorem exec_hubWatchdog : exec (.hubWatchdog) st = execHubWatchdog st := rfl
theorem exec_signatureVerified : exec (.signatureVerified) st = execSignatureVerified st := rfl
theorem exec_indexComplete : exec (.indexComplete) st = execIndexComplete st := rfl
theorem exec_pixelModelLoaded : exec (.pixelModelLoaded) st = execPixelModelLoaded st := rfl
theorem exec_firstInstruction : exec (.firstInstruction) st = execFirstInstruction st := rfl
theorem exec_ddrTrainingComplete (size : BitVec 8) (eyes : List (BitVec 16)) : exec (.ddrTrainingComplete size eyes) st = execDdrTrainingComplete size eyes st := rfl
theorem exec_ddrWipeComplete : exec (.ddrWipeComplete) st = execDdrWipeComplete st := rfl
theorem exec_dieRejoin (d : Fin 8) (bad : List (Fin 16)) : exec (.dieRejoin d bad) st = execDieRejoin d bad st := rfl
theorem exec_standbyParkEntry : exec (.standbyParkEntry) st = execStandbyParkEntry st := rfl
theorem exec_exitComplete : exec (.exitComplete) st = execExitComplete st := rfl
theorem exec_lifecycleWipeComplete : exec (.lifecycleWipeComplete) st = execLifecycleWipeComplete st := rfl
theorem exec_fpdCtlRecord (u : UnitId) (t : Tag) : exec (.fpdCtlRecord u t) st = execFpdCtlRecord u t st := rfl
theorem exec_lineSlotBoundary : exec (.lineSlotBoundary) st = execLineSlotBoundary st := rfl
theorem exec_rowSlotEnd (d : Fin 2) (row : Fin 50) (x : List ColIn) (ampErr : Bool) : exec (.rowSlotEnd d row x ampErr) st = execRowSlotEnd d row x ampErr st := rfl
theorem exec_substrateSample (d : Fin 2) (temp : Int) : exec (.substrateSample d temp) st = execSubstrateSample d temp st := rfl
theorem exec_bandDwellComplete (d : Fin 2) : exec (.bandDwellComplete d) st = execBandDwellComplete d st := rfl
theorem exec_biasSettled (d : Fin 2) : exec (.biasSettled d) st = execBiasSettled d st := rfl
theorem exec_lsyncRise (ns : Nat) : exec (.lsyncRise ns) st = execLsyncRise ns st := rfl
theorem exec_syncResetEdge : exec (.syncResetEdge) st = execSyncResetEdge st := rfl
theorem exec_shutterTravelEnd (d : Fin 2) : exec (.shutterTravelEnd d) st = execShutterTravelEnd d st := rfl
theorem exec_shutterReopenEnd (d : Fin 2) : exec (.shutterReopenEnd d) st = execShutterReopenEnd d st := rfl
theorem exec_shutterFault (d : Fin 2) (overcurrent : Bool) : exec (.shutterFault d overcurrent) st = execShutterFault d overcurrent st := rfl
theorem exec_algCtlRecord (u : UnitId) (t : Tag) : exec (.algCtlRecord u t) st = execAlgCtlRecord u t st := rfl
theorem exec_algRamLoad (u : UnitId) (t : Tag) : exec (.algRamLoad u t) st = execAlgRamLoad u t st := rfl
theorem exec_algDetRead (u : UnitId) (t : Tag) : exec (.algDetRead u t) st = execAlgDetRead u t st := rfl
theorem exec_csnCtlRecord (u : UnitId) (t : Tag) : exec (.csnCtlRecord u t) st = execCsnCtlRecord u t st := rfl
theorem exec_csnBlock (d : Fin 2) (age : Nat) (x : List (BitVec 64)) (cmp : List (Fin 64 × Int)) : exec (.csnBlock d age x cmp) st = execCsnBlock d age x cmp st := rfl
theorem exec_csnOutRead (u : UnitId) (t : Tag) : exec (.csnOutRead u t) st = execCsnOutRead u t st := rfl
theorem exec_rowSlotCorrection (d : Fin 2) (row : Fin 50) (bad : List (Fin 2048)) (refs : List (Fin 4 × Fin 16)) : exec (.rowSlotCorrection d row bad refs) st = execRowSlotCorrection d row bad refs st := rfl
theorem exec_modelParityReload (d : Fin 2) (row : Fin 50) (col : Fin 2048) : exec (.modelParityReload d row col) st = execModelParityReload d row col st := rfl
theorem exec_corModelRecord (u : UnitId) (t : Tag) : exec (.corModelRecord u t) st = execCorModelRecord u t st := rfl
theorem exec_corCtlRecord (u : UnitId) (t : Tag) : exec (.corCtlRecord u t) st = execCorCtlRecord u t st := rfl
theorem exec_fusedLineEntry : exec (.fusedLineEntry) st = execFusedLineEntry st := rfl
theorem exec_fusedRead (u : UnitId) (t : Tag) (bad : List Nat) : exec (.fusedRead u t bad) st = execFusedRead u t bad st := rfl
theorem exec_corBlindRead (u : UnitId) (t : Tag) : exec (.corBlindRead u t) st = execCorBlindRead u t st := rfl
theorem exec_corRegMap (u : UnitId) (t : Tag) : exec (.corRegMap u t) st = execCorRegMap u t st := rfl
theorem exec_fpdRawRead (u : UnitId) (t : Tag) : exec (.fpdRawRead u t) st = execFpdRawRead u t st := rfl
theorem exec_calCtlRecord (u : UnitId) (t : Tag) : exec (.calCtlRecord u t) st = execCalCtlRecord u t st := rfl
theorem exec_calAutoRequest (i : Fin 12) : exec (.calAutoRequest i) st = execCalAutoRequest i st := rfl
theorem exec_calWaiting (i : Fin 12) : exec (.calWaiting i) st = execCalWaiting i st := rfl
theorem exec_declaredGapOpen : exec (.declaredGapOpen) st = execDeclaredGapOpen st := rfl
theorem exec_declaredGapClose : exec (.declaredGapClose) st = execDeclaredGapClose st := rfl
theorem exec_feedGapOpen (rise : Bool) : exec (.feedGapOpen rise) st = execFeedGapOpen rise st := rfl
theorem exec_feedGapClose (ns : Nat) : exec (.feedGapClose ns) st = execFeedGapClose ns st := rfl
theorem exec_shutRunStart (d : Fin 2) : exec (.shutRunStart d) st = execShutRunStart d st := rfl
theorem exec_shutMeasureStart (d : Fin 2) : exec (.shutMeasureStart d) st = execShutMeasureStart d st := rfl
theorem exec_shutMeasureEnd (d : Fin 2) : exec (.shutMeasureEnd d) st = execShutMeasureEnd d st := rfl
theorem exec_sceneRunEnd (d : Fin 2) : exec (.sceneRunEnd d) st = execSceneRunEnd d st := rfl
theorem exec_sceneTimeout (d : Fin 2) : exec (.sceneTimeout d) st = execSceneTimeout d st := rfl
theorem exec_classARunStart (i : Fin 12) : exec (.classARunStart i) st = execClassARunStart i st := rfl
theorem exec_classARepeatEnd (i : Fin 12) (codes : List (List Int)) (amp : Int) : exec (.classARepeatEnd i codes amp) st = execClassARepeatEnd i codes amp st := rfl
theorem exec_csnIdleTimeout (d : Fin 2) (ch : Fin 64) : exec (.csnIdleTimeout d ch) st = execCsnIdleTimeout d ch st := rfl
theorem exec_calSadcRetry : exec (.calSadcRetry) st = execCalSadcRetry st := rfl
theorem exec_saveDue : exec (.saveDue) st = execSaveDue st := rfl
theorem exec_saveRetry : exec (.saveRetry) st = execSaveRetry st := rfl
theorem exec_saveComplete (ok : Bool) : exec (.saveComplete ok) st = execSaveComplete ok st := rfl
theorem exec_camCtlRecord (u : UnitId) (t : Tag) : exec (.camCtlRecord u t) st = execCamCtlRecord u t st := rfl
theorem exec_camPipeRecord (u : UnitId) (t : Tag) : exec (.camPipeRecord u t) st = execCamPipeRecord u t st := rfl
theorem exec_camDefectMap (u : UnitId) (t : Tag) : exec (.camDefectMap u t) st = execCamDefectMap u t st := rfl
theorem exec_camTrigger (p : Fin 2) (k : Fin 4) : exec (.camTrigger p k) st = execCamTrigger p k st := rfl
theorem exec_camLineOpen (p : Fin 2) : exec (.camLineOpen p) st = execCamLineOpen p st := rfl
theorem exec_camLineClose (p : Fin 2) : exec (.camLineClose p) st = execCamLineClose p st := rfl
theorem exec_camFrameOpen (p : Fin 2) : exec (.camFrameOpen p) st = execCamFrameOpen p st := rfl
theorem exec_camFrameEnd (p : Fin 2) : exec (.camFrameEnd p) st = execCamFrameEnd p st := rfl
theorem exec_camLineTimeout (p : Fin 2) : exec (.camLineTimeout p) st = execCamLineTimeout p st := rfl
theorem exec_camLineAdmit (p : Fin 2) (bad : List Nat) : exec (.camLineAdmit p bad) st = execCamLineAdmit p bad st := rfl
theorem exec_camLineOut (p : Fin 2) : exec (.camLineOut p) st = execCamLineOut p st := rfl
theorem exec_camWaitEnd (p : Fin 2) : exec (.camWaitEnd p) st = execCamWaitEnd p st := rfl
theorem exec_flitReceived (l : Fin 16) (up : Bool) (f : Flit) (noise : List (BitVec 33)) : exec (.flitReceived l up f noise) st = execFlitReceived l up f noise st := rfl
theorem exec_replayRequest (l : Fin 16) (up : Bool) (q : Fin 128) : exec (.replayRequest l up q) st = execReplayRequest l up q st := rfl
theorem exec_linkRemapComplete (l : Fin 16) : exec (.linkRemapComplete l) st = execLinkRemapComplete l st := rfl
theorem exec_ddrAccess (u : UnitId) (t : Tag) : exec (.ddrAccess u t) st = execDdrAccess u t st := rfl
theorem exec_ddrReadBurst (c : Fin 4) (a : BitVec 30) (fails : Nat) : exec (.ddrReadBurst c a fails) st = execDdrReadBurst c a fails st := rfl
theorem exec_ddrAlert (c : Fin 4) (fails : Nat) : exec (.ddrAlert c fails) st = execDdrAlert c fails st := rfl
theorem exec_ddrTempCheck (c : Fin 4) (temp : Int) : exec (.ddrTempCheck c temp) st = execDdrTempCheck c temp st := rfl
theorem exec_clusterTransfer (u : UnitId) (t : Tag) : exec (.clusterTransfer u t) st = execClusterTransfer u t st := rfl
theorem exec_lineNotice (d : Fin 2) : exec (.lineNotice d) st = execLineNotice d st := rfl
theorem exec_ejectArrival (d : Fin 2) : exec (.ejectArrival d) st = execEjectArrival d st := rfl
theorem exec_lineBoundPass (d : Fin 2) (b : Fin 16) (n : BitVec 24) : exec (.lineBoundPass d b n) st = execLineBoundPass d b n st := rfl
theorem exec_uncommittedLastStart (d : Fin 2) : exec (.uncommittedLastStart d) st = execUncommittedLastStart d st := rfl
theorem exec_shotEnergise (v : Valve) : exec (.shotEnergise v) st = execShotEnergise v st := rfl
theorem exec_peakEnd (v : Valve) (x : Option Int) : exec (.peakEnd v x) st = execPeakEnd v x st := rfl
theorem exec_shotEnd (v : Valve) : exec (.shotEnd v) st = execShotEnd v st := rfl
theorem exec_quenchEnd (v : Valve) (x : Int) : exec (.quenchEnd v x) st = execQuenchEnd v x st := rfl
theorem exec_dipDetected (v : Valve) : exec (.dipDetected v) st = execDipDetected v st := rfl
theorem exec_dipSearchEnd (v : Valve) : exec (.dipSearchEnd v) st = execDipSearchEnd v st := rfl
theorem exec_coilModelUpdate (d : Fin 2) : exec (.coilModelUpdate d) st = execCoilModelUpdate d st := rfl
theorem exec_valveOpenFault (v : Valve) (x : Int) : exec (.valveOpenFault v x) st = execValveOpenFault v x st := rfl
theorem exec_valveShortFault (v : Valve) (x : Int) : exec (.valveShortFault v x) st = execValveShortFault v x st := rfl
theorem exec_highSideFault (g : Fin 16) : exec (.highSideFault g) st = execHighSideFault g st := rfl
theorem exec_ejtCtlDie (u : UnitId) (t : Tag) : exec (.ejtCtlDie u t) st = execEjtCtlDie u t st := rfl
theorem exec_ejtCtlProfile (u : UnitId) (t : Tag) : exec (.ejtCtlProfile u t) st = execEjtCtlProfile u t st := rfl
theorem exec_ejtCtlValves (u : UnitId) (t : Tag) : exec (.ejtCtlValves u t) st = execEjtCtlValves u t st := rfl
theorem exec_lumDieRecord (u : UnitId) (t : Tag) : exec (.lumDieRecord u t) st = execLumDieRecord u t st := rfl
theorem exec_lumStringRecord (u : UnitId) (t : Tag) : exec (.lumStringRecord u t) st = execLumStringRecord u t st := rfl
theorem exec_latchArrival (d : Fin 2) : exec (.latchArrival d) st = execLatchArrival d st := rfl
theorem exec_latchApply (d : Fin 2) : exec (.latchApply d) st = execLatchApply d st := rfl
theorem exec_pwmPeriodStart (d : Fin 2) : exec (.pwmPeriodStart d) st = execPwmPeriodStart d st := rfl
theorem exec_matrixCycleStart (d : Fin 2) : exec (.matrixCycleStart d) st = execMatrixCycleStart d st := rfl
theorem exec_lampTestWindow (s : Strng) (k : Fin 10) (mv pct : Nat) : exec (.lampTestWindow s k mv pct) st = execLampTestWindow s k mv pct st := rfl
theorem exec_openStringFault (s : Strng) (pct : Nat) : exec (.openStringFault s pct) st = execOpenStringFault s pct st := rfl
theorem exec_inductorOvercurrent (s : Strng) (ma : Nat) : exec (.inductorOvercurrent s ma) st = execInductorOvercurrent s ma st := rfl
theorem exec_regulatorDecayEnd (s : Strng) : exec (.regulatorDecayEnd s) st = execRegulatorDecayEnd s st := rfl
theorem exec_neighbourTest (s : Strng) (v : List (Fin 4 × Fin 11 × Nat)) (a b : Nat) : exec (.neighbourTest s v a b) st = execNeighbourTest s v a b st := rfl
theorem exec_neighbourUntested (s : Strng) : exec (.neighbourUntested s) st = execNeighbourUntested s st := rfl
theorem exec_lampStretch (s : Strng) (k : Fin 10) : exec (.lampStretch s k) st = execLampStretch s k st := rfl
theorem exec_lampUnverified (s : Strng) (k : Fin 10) : exec (.lampUnverified s k) st = execLampUnverified s k st := rfl
theorem exec_colourLoopUpdate (s : Strng) : exec (.colourLoopUpdate s) st = execColourLoopUpdate s st := rfl
theorem exec_thermistorConversion (s : Strng) : exec (.thermistorConversion s) st = execThermistorConversion s st := rfl
theorem exec_thermistorTimeout (s : Strng) : exec (.thermistorTimeout s) st = execThermistorTimeout s st := rfl
theorem exec_lampHourCell (s : Strng) (k : Fin 10) : exec (.lampHourCell s k) st = execLampHourCell s k st := rfl
theorem exec_sadcCtlControl (u : UnitId) (t : Tag) : exec (.sadcCtlControl u t) st = execSadcCtlControl u t st := rfl
theorem exec_sadcCtlSequence (u : UnitId) (t : Tag) : exec (.sadcCtlSequence u t) st = execSadcCtlSequence u t st := rfl
theorem exec_sadcCtlHurdle (u : UnitId) (t : Tag) : exec (.sadcCtlHurdle u t) st = execSadcCtlHurdle u t st := rfl
theorem exec_sadcResRead (u : UnitId) (t : Tag) : exec (.sadcResRead u t) st = execSadcResRead u t st := rfl
theorem exec_sadcEntryEnd (x y : Rat) : exec (.sadcEntryEnd x y) st = execSadcEntryEnd x y st := rfl
theorem exec_sadcGapEnd : exec (.sadcGapEnd) st = execSadcGapEnd st := rfl
theorem exec_injectedRequest (src : InjSrc) (inp : Fin 64) (sub : Fin 4) (key : Nat) : exec (.injectedRequest src inp sub key) st = execInjectedRequest src inp sub key st := rfl
theorem exec_injectedConversionEnd (x : Rat) : exec (.injectedConversionEnd x) st = execInjectedConversionEnd x st := rfl
theorem exec_selfTrimStart : exec (.selfTrimStart) st = execSelfTrimStart st := rfl
theorem exec_selfTrimEnd (off gain : BitVec 8) : exec (.selfTrimEnd off gain) st = execSelfTrimEnd off gain st := rfl
theorem exec_junctionSample (d : Fin 8) (temps : List Int) : exec (.junctionSample d temps) st = execJunctionSample d temps st := rfl
theorem exec_thmCrossCheck (i : Fin 24) : exec (.thmCrossCheck i) st = execThmCrossCheck i st := rfl
theorem exec_levelExit (d : Fin 8) (l : Level) : exec (.levelExit d l) st = execLevelExit d l st := rfl
theorem exec_shutdownEntry (d : Fin 8) : exec (.shutdownEntry d) st = execShutdownEntry d st := rfl
theorem exec_thmCtlRecord (u : UnitId) (t : Tag) : exec (.thmCtlRecord u t) st = execThmCtlRecord u t st := rfl
theorem exec_ageingMeasure (ppm : List Nat) : exec (.ageingMeasure ppm) st = execAgeingMeasure ppm st := rfl
theorem exec_marginTableWrite : exec (.marginTableWrite) st = execMarginTableWrite st := rfl
theorem exec_nvsRead (u : UnitId) (t : Tag) : exec (.nvsRead u t) st = execNvsRead u t st := rfl
theorem exec_nvsWrite (u : UnitId) (t : Tag) : exec (.nvsWrite u t) st = execNvsWrite u t st := rfl
theorem exec_nvsDelete (u : UnitId) (t : Tag) : exec (.nvsDelete u t) st = execNvsDelete u t st := rfl
theorem exec_nvsUnlockRead (u : UnitId) (t : Tag) : exec (.nvsUnlockRead u t) st = execNvsUnlockRead u t st := rfl
theorem exec_nvsUnlockWrite (u : UnitId) (t : Tag) : exec (.nvsUnlockWrite u t) st = execNvsUnlockWrite u t st := rfl
theorem exec_nvsLock (u : UnitId) (t : Tag) : exec (.nvsLock u t) st = execNvsLock u t st := rfl
theorem exec_nvsSetReadPassword (u : UnitId) (t : Tag) : exec (.nvsSetReadPassword u t) st = execNvsSetReadPassword u t st := rfl
theorem exec_nvsSetWritePassword (u : UnitId) (t : Tag) : exec (.nvsSetWritePassword u t) st = execNvsSetWritePassword u t st := rfl
theorem exec_unlockLockoutEnd (p : Fin 4) : exec (.unlockLockoutEnd p) st = execUnlockLockoutEnd p st := rfl
theorem exec_nvsWriteStart : exec (.nvsWriteStart) st = execNvsWriteStart st := rfl
theorem exec_nvsCopyCommit : exec (.nvsCopyCommit) st = execNvsCopyCommit st := rfl
theorem exec_nvsVerifyFail : exec (.nvsVerifyFail) st = execNvsVerifyFail st := rfl
theorem exec_garbageCollect (p : Fin 4) (bank : Fin 2) : exec (.garbageCollect p bank) st = execGarbageCollect p bank st := rfl
theorem exec_sectorEraseComplete (sec : Fin 512) : exec (.sectorEraseComplete sec) st = execSectorEraseComplete sec st := rfl
theorem exec_imageVerify : exec (.imageVerify) st = execImageVerify st := rfl
theorem exec_authBlockCheck : exec (.authBlockCheck) st = execAuthBlockCheck st := rfl
theorem exec_attestReport : exec (.attestReport) st = execAttestReport st := rfl
theorem exec_ethFrameReceive (p : Fin 2) (f : EthFrame) : exec (.ethFrameReceive p f) st = execEthFrameReceive p f st := rfl
theorem exec_arpRequest (p : Fin 2) (dst src : Word) (data : List Byte) : exec (.arpRequest p dst src data) st = execArpRequest p dst src data st := rfl
theorem exec_icmpEcho (p : Fin 2) (mac : BitVec 48) (dst src : Word) (data : List Byte) : exec (.icmpEcho p mac dst src data) st = execIcmpEcho p mac dst src data st := rfl
theorem exec_addrConflict (p : Fin 2) : exec (.addrConflict p) st = execAddrConflict p st := rfl
theorem exec_ptpSync (p : Fin 2) (m : PtpMsg) : exec (.ptpSync p m) st = execPtpSync p m st := rfl
theorem exec_ptpFollowUp (p : Fin 2) (m : PtpMsg) : exec (.ptpFollowUp p m) st = execPtpFollowUp p m st := rfl
theorem exec_ptpDelayReq (p : Fin 2) (m : PtpMsg) : exec (.ptpDelayReq p m) st = execPtpDelayReq p m st := rfl
theorem exec_ptpDelayResp (p : Fin 2) (m : PtpMsg) : exec (.ptpDelayResp p m) st = execPtpDelayResp p m st := rfl
theorem exec_ptpAnnounce (p : Fin 2) (m : PtpMsg) : exec (.ptpAnnounce p m) st = execPtpAnnounce p m st := rfl
theorem exec_ptpAnnounceTimeout (p : Fin 2) : exec (.ptpAnnounceTimeout p) st = execPtpAnnounceTimeout p st := rfl
theorem exec_ptpSyncSend (p : Fin 2) : exec (.ptpSyncSend p) st = execPtpSyncSend p st := rfl
theorem exec_datagramDiscard (h : Hdr) (p : List Byte) : exec (.datagramDiscard h p) st = execDatagramDiscard h p st := rfl
theorem exec_cmdRead (h : Hdr) (p : List Byte) : exec (.cmdRead h p) st = execCmdRead h p st := rfl
theorem exec_cmdEvtClr (h : Hdr) (p : List Byte) : exec (.cmdEvtClr h p) st = execCmdEvtClr h p st := rfl
theorem exec_cmdEvents (h : Hdr) (p : List Byte) : exec (.cmdEvents h p) st = execCmdEvents h p st := rfl
theorem exec_cmdWake (h : Hdr) (p : List Byte) : exec (.cmdWake h p) st = execCmdWake h p st := rfl
theorem exec_cmdResume (h : Hdr) (p : List Byte) : exec (.cmdResume h p) st = execCmdResume h p st := rfl
theorem exec_cmdImage (h : Hdr) (p : List Byte) (img : Image) : exec (.cmdImage h p img) st = execCmdImage h p img st := rfl
theorem exec_cmdLoad (h : Hdr) (p : List Byte) (img : Image) : exec (.cmdLoad h p img) st = execCmdLoad h p img st := rfl
theorem exec_cmdAttest (h : Hdr) (p : List Byte) : exec (.cmdAttest h p) st = execCmdAttest h p st := rfl
theorem exec_cmdAuth (h : Hdr) (p : List Byte) : exec (.cmdAuth h p) st = execCmdAuth h p st := rfl
theorem exec_cmdNvs (h : Hdr) (p : List Byte) : exec (.cmdNvs h p) st = execCmdNvs h p st := rfl
theorem exec_cmdMsg (h : Hdr) (p : List Byte) : exec (.cmdMsg h p) st = execCmdMsg h p st := rfl
theorem exec_cmdSetNet (h : Hdr) (p : List Byte) : exec (.cmdSetNet h p) st = execCmdSetNet h p st := rfl
theorem exec_latchDatagram (h : Hdr) (p : List Byte) : exec (.latchDatagram h p) st = execLatchDatagram h p st := rfl
theorem exec_heartbeatSend (p : Fin 2) : exec (.heartbeatSend p) st = execHeartbeatSend p st := rfl
theorem exec_aliveToggle : exec (.aliveToggle) st = execAliveToggle st := rfl
theorem exec_vgdLinkTrained (p : Fin 2) : exec (.vgdLinkTrained p) st = execVgdLinkTrained p st := rfl
theorem exec_vgdLinkDown (p : Fin 2) : exec (.vgdLinkDown p) st = execVgdLinkDown p st := rfl
theorem exec_vgdSyncCell (p : Fin 2) (c : Cell) : exec (.vgdSyncCell p c) st = execVgdSyncCell p c st := rfl
theorem exec_vgdLatchCell (p : Fin 2) (c : Cell) : exec (.vgdLatchCell p c) st = execVgdLatchCell p c st := rfl
theorem exec_vgdTimeCell (p : Fin 2) (c : Cell) : exec (.vgdTimeCell p c) st = execVgdTimeCell p c st := rfl
theorem exec_vgdTimeSend (p : Fin 2) : exec (.vgdTimeSend p) st = execVgdTimeSend p st := rfl
theorem exec_vgdHandoffCell (p : Fin 2) (c : Cell) : exec (.vgdHandoffCell p c) st = execVgdHandoffCell p c st := rfl
theorem exec_vgdOwnerCell (p : Fin 2) (c : Cell) : exec (.vgdOwnerCell p c) st = execVgdOwnerCell p c st := rfl
theorem exec_lnkMsgSettings (u : UnitId) (t : Tag) : exec (.lnkMsgSettings u t) st = execLnkMsgSettings u t st := rfl
theorem exec_lnkMsgCellSend (u : UnitId) (t : Tag) : exec (.lnkMsgCellSend u t) st = execLnkMsgCellSend u t st := rfl
theorem exec_lnkMsgEthSend (u : UnitId) (t : Tag) : exec (.lnkMsgEthSend u t) st = execLnkMsgEthSend u t st := rfl
theorem exec_lnkMsgRead (u : UnitId) (t : Tag) : exec (.lnkMsgRead u t) st = execLnkMsgRead u t st := rfl
theorem exec_integrityScan : exec (.integrityScan) st = execIntegrityScan st := rfl
theorem exec_freezeNAssert (ns : Nat) : exec (.freezeNAssert ns) st = execFreezeNAssert ns st := rfl
theorem exec_extest (v : List Bool) : exec (.extest v) st = execExtest v st := rfl
theorem exec_samplePreload (v : List Bool) : exec (.samplePreload v) st = execSamplePreload v st := rfl
theorem exec_idcode : exec (.idcode) st = execIdcode st := rfl
theorem exec_clamp : exec (.clamp) st = execClamp st := rfl
theorem exec_highz : exec (.highz) st = execHighz st := rfl
theorem exec_zfreeze : exec (.zfreeze) st = execZfreeze st := rfl
theorem exec_zresume : exec (.zresume) st = execZresume st := rfl
theorem exec_zunit (v : BitVec 8) : exec (.zunit v) st = execZunit v st := rfl
theorem exec_zcapture : exec (.zcapture) st = execZcapture st := rfl
theorem exec_zaddr (v : BitVec 40) : exec (.zaddr v) st = execZaddr v st := rfl
theorem exec_zdata : exec (.zdata) st = execZdata st := rfl
theorem exec_bypass (c : BitVec 8) : exec (.bypass c) st = execBypass c st := rfl
theorem exec_trstNAssert (ns : Nat) : exec (.trstNAssert ns) st = execTrstNAssert ns st := rfl
theorem exec_eventLogEntry (i : Nat) : exec (.eventLogEntry i) st = execEventLogEntry i st := rfl
theorem exec_powerLost : exec (.powerLost) st = execPowerLost st := rfl
theorem exec_ethLinkUp (p : Fin 2) : exec (.ethLinkUp p) st = execEthLinkUp p st := rfl
theorem exec_ethLinkDown (p : Fin 2) : exec (.ethLinkDown p) st = execEthLinkDown p st := rfl
theorem exec_pclkRisingEdge (p : Fin 2) (x : BitVec 24) (lval dval : Bool) : exec (.pclkRisingEdge p x lval dval) st = execPclkRisingEdge p x lval dval st := rfl
theorem exec_peakWaitLastStart (v : Valve) : exec (.peakWaitLastStart v) st = execPeakWaitLastStart v st := rfl
theorem exec_headroomLoss (s : Strng) (mv : Nat) : exec (.headroomLoss s mv) st = execHeadroomLoss s mv st := rfl

end Sys2Proof.Machine
end

