-- ==== Sys2Proof/Laws/State.lean ====
section
/-!
SUPPORT. What each named update of the state leaves as it was: one lemma per field per update.
-/

namespace Sys2Proof.Machine

variable (s : State)

@[simp] theorem setWord_opt (a : Nat) (w : Word) : (s.setWord a w).opt = s.opt := rfl
@[simp] theorem setWord_mode (a : Nat) (w : Word) : (s.setWord a w).mode = s.mode := rfl
@[simp] theorem setWord_time (a : Nat) (w : Word) : (s.setWord a w).time = s.time := rfl
@[simp] theorem setWord_timeOn (a : Nat) (w : Word) : (s.setWord a w).timeOn = s.timeOn := rfl
@[simp] theorem setWord_tick (a : Nat) (w : Word) : (s.setWord a w).tick = s.tick := rfl
@[simp] theorem setWord_periph (a : Nat) (w : Word) : (s.setWord a w).periph = s.periph := rfl
@[simp] theorem setWord_free (a : Nat) (w : Word) : (s.setWord a w).free = s.free := rfl
@[simp] theorem setWord_pins (a : Nat) (w : Word) : (s.setWord a w).pins = s.pins := rfl
@[simp] theorem setWord_power (a : Nat) (w : Word) : (s.setWord a w).power = s.power := rfl
@[simp] theorem setWord_clock (a : Nat) (w : Word) : (s.setWord a w).clock = s.clock := rfl
@[simp] theorem setWord_boot (a : Nat) (w : Word) : (s.setWord a w).boot = s.boot := rfl
@[simp] theorem setWord_freeze (a : Nat) (w : Word) : (s.setWord a w).freeze = s.freeze := rfl
@[simp] theorem setWord_jtag (a : Nat) (w : Word) : (s.setWord a w).jtag = s.jtag := rfl
@[simp] theorem setWord_statusBad (a : Nat) (w : Word) : (s.setWord a w).statusBad = s.statusBad := rfl
@[simp] theorem setWord_latches (a : Nat) (w : Word) : (s.setWord a w).latches = s.latches := rfl
@[simp] theorem setWord_ev (a : Nat) (w : Word) : (s.setWord a w).ev = s.ev := rfl
@[simp] theorem setWord_units (a : Nat) (w : Word) : (s.setWord a w).units = s.units := rfl
@[simp] theorem setWord_mem (a : Nat) (w : Word) : (s.setWord a w).mem = s.mem := rfl
@[simp] theorem setWord_memBad (a : Nat) (w : Word) : (s.setWord a w).memBad = s.memBad := rfl
@[simp] theorem setWord_backing (a : Nat) (w : Word) : (s.setWord a w).backing = s.backing := rfl
@[simp] theorem setWord_xfers (a : Nat) (w : Word) : (s.setWord a w).xfers = s.xfers := rfl
@[simp] theorem setWord_msgs (a : Nat) (w : Word) : (s.setWord a w).msgs = s.msgs := rfl
@[simp] theorem setWord_links (a : Nat) (w : Word) : (s.setWord a w).links = s.links := rfl
@[simp] theorem setWord_ddr (a : Nat) (w : Word) : (s.setWord a w).ddr = s.ddr := rfl
@[simp] theorem setWord_focal (a : Nat) (w : Word) : (s.setWord a w).focal = s.focal := rfl
@[simp] theorem setWord_grid (a : Nat) (w : Word) : (s.setWord a w).grid = s.grid := rfl
@[simp] theorem setWord_corr (a : Nat) (w : Word) : (s.setWord a w).corr = s.corr := rfl
@[simp] theorem setWord_engines (a : Nat) (w : Word) : (s.setWord a w).engines = s.engines := rfl
@[simp] theorem setWord_bands (a : Nat) (w : Word) : (s.setWord a w).bands = s.bands := rfl
@[simp] theorem setWord_fused (a : Nat) (w : Word) : (s.setWord a w).fused = s.fused := rfl
@[simp] theorem setWord_csn (a : Nat) (w : Word) : (s.setWord a w).csn = s.csn := rfl
@[simp] theorem setWord_cal (a : Nat) (w : Word) : (s.setWord a w).cal = s.cal := rfl
@[simp] theorem setWord_ejt (a : Nat) (w : Word) : (s.setWord a w).ejt = s.ejt := rfl
@[simp] theorem setWord_nvs (a : Nat) (w : Word) : (s.setWord a w).nvs = s.nvs := rfl
@[simp] theorem setWord_lum (a : Nat) (w : Word) : (s.setWord a w).lum = s.lum := rfl
@[simp] theorem setWord_cam (a : Nat) (w : Word) : (s.setWord a w).cam = s.cam := rfl
@[simp] theorem setWord_sadc (a : Nat) (w : Word) : (s.setWord a w).sadc = s.sadc := rfl
@[simp] theorem setWord_thm (a : Nat) (w : Word) : (s.setWord a w).thm = s.thm := rfl
@[simp] theorem setWord_net (a : Nat) (w : Word) : (s.setWord a w).net = s.net := rfl
@[simp] theorem setWord_sec (a : Nat) (w : Word) : (s.setWord a w).sec = s.sec := rfl
@[simp] theorem setWord_pending (a : Nat) (w : Word) : (s.setWord a w).pending = s.pending := rfl

@[simp] theorem setF_opt (f : Fld) (v : Nat) : (setF f v s).opt = s.opt := rfl
@[simp] theorem setF_mode (f : Fld) (v : Nat) : (setF f v s).mode = s.mode := rfl
@[simp] theorem setF_time (f : Fld) (v : Nat) : (setF f v s).time = s.time := rfl
@[simp] theorem setF_timeOn (f : Fld) (v : Nat) : (setF f v s).timeOn = s.timeOn := rfl
@[simp] theorem setF_tick (f : Fld) (v : Nat) : (setF f v s).tick = s.tick := rfl
@[simp] theorem setF_periph (f : Fld) (v : Nat) : (setF f v s).periph = s.periph := rfl
@[simp] theorem setF_free (f : Fld) (v : Nat) : (setF f v s).free = s.free := rfl
@[simp] theorem setF_pins (f : Fld) (v : Nat) : (setF f v s).pins = s.pins := rfl
@[simp] theorem setF_power (f : Fld) (v : Nat) : (setF f v s).power = s.power := rfl
@[simp] theorem setF_clock (f : Fld) (v : Nat) : (setF f v s).clock = s.clock := rfl
@[simp] theorem setF_boot (f : Fld) (v : Nat) : (setF f v s).boot = s.boot := rfl
@[simp] theorem setF_freeze (f : Fld) (v : Nat) : (setF f v s).freeze = s.freeze := rfl
@[simp] theorem setF_jtag (f : Fld) (v : Nat) : (setF f v s).jtag = s.jtag := rfl
@[simp] theorem setF_statusBad (f : Fld) (v : Nat) : (setF f v s).statusBad = s.statusBad := rfl
@[simp] theorem setF_latches (f : Fld) (v : Nat) : (setF f v s).latches = s.latches := rfl
@[simp] theorem setF_ev (f : Fld) (v : Nat) : (setF f v s).ev = s.ev := rfl
@[simp] theorem setF_units (f : Fld) (v : Nat) : (setF f v s).units = s.units := rfl
@[simp] theorem setF_mem (f : Fld) (v : Nat) : (setF f v s).mem = s.mem := rfl
@[simp] theorem setF_memBad (f : Fld) (v : Nat) : (setF f v s).memBad = s.memBad := rfl
@[simp] theorem setF_backing (f : Fld) (v : Nat) : (setF f v s).backing = s.backing := rfl
@[simp] theorem setF_xfers (f : Fld) (v : Nat) : (setF f v s).xfers = s.xfers := rfl
@[simp] theorem setF_msgs (f : Fld) (v : Nat) : (setF f v s).msgs = s.msgs := rfl
@[simp] theorem setF_links (f : Fld) (v : Nat) : (setF f v s).links = s.links := rfl
@[simp] theorem setF_ddr (f : Fld) (v : Nat) : (setF f v s).ddr = s.ddr := rfl
@[simp] theorem setF_focal (f : Fld) (v : Nat) : (setF f v s).focal = s.focal := rfl
@[simp] theorem setF_grid (f : Fld) (v : Nat) : (setF f v s).grid = s.grid := rfl
@[simp] theorem setF_corr (f : Fld) (v : Nat) : (setF f v s).corr = s.corr := rfl
@[simp] theorem setF_engines (f : Fld) (v : Nat) : (setF f v s).engines = s.engines := rfl
@[simp] theorem setF_bands (f : Fld) (v : Nat) : (setF f v s).bands = s.bands := rfl
@[simp] theorem setF_fused (f : Fld) (v : Nat) : (setF f v s).fused = s.fused := rfl
@[simp] theorem setF_csn (f : Fld) (v : Nat) : (setF f v s).csn = s.csn := rfl
@[simp] theorem setF_cal (f : Fld) (v : Nat) : (setF f v s).cal = s.cal := rfl
@[simp] theorem setF_ejt (f : Fld) (v : Nat) : (setF f v s).ejt = s.ejt := rfl
@[simp] theorem setF_nvs (f : Fld) (v : Nat) : (setF f v s).nvs = s.nvs := rfl
@[simp] theorem setF_lum (f : Fld) (v : Nat) : (setF f v s).lum = s.lum := rfl
@[simp] theorem setF_cam (f : Fld) (v : Nat) : (setF f v s).cam = s.cam := rfl
@[simp] theorem setF_sadc (f : Fld) (v : Nat) : (setF f v s).sadc = s.sadc := rfl
@[simp] theorem setF_thm (f : Fld) (v : Nat) : (setF f v s).thm = s.thm := rfl
@[simp] theorem setF_net (f : Fld) (v : Nat) : (setF f v s).net = s.net := rfl
@[simp] theorem setF_sec (f : Fld) (v : Nat) : (setF f v s).sec = s.sec := rfl
@[simp] theorem setF_pending (f : Fld) (v : Nat) : (setF f v s).pending = s.pending := rfl

@[simp] theorem bumpBy_opt (f : Fld) (n : Nat) : (bumpBy f n s).opt = s.opt := rfl
@[simp] theorem bumpBy_mode (f : Fld) (n : Nat) : (bumpBy f n s).mode = s.mode := rfl
@[simp] theorem bumpBy_time (f : Fld) (n : Nat) : (bumpBy f n s).time = s.time := rfl
@[simp] theorem bumpBy_timeOn (f : Fld) (n : Nat) : (bumpBy f n s).timeOn = s.timeOn := rfl
@[simp] theorem bumpBy_tick (f : Fld) (n : Nat) : (bumpBy f n s).tick = s.tick := rfl
@[simp] theorem bumpBy_periph (f : Fld) (n : Nat) : (bumpBy f n s).periph = s.periph := rfl
@[simp] theorem bumpBy_free (f : Fld) (n : Nat) : (bumpBy f n s).free = s.free := rfl
@[simp] theorem bumpBy_pins (f : Fld) (n : Nat) : (bumpBy f n s).pins = s.pins := rfl
@[simp] theorem bumpBy_power (f : Fld) (n : Nat) : (bumpBy f n s).power = s.power := rfl
@[simp] theorem bumpBy_clock (f : Fld) (n : Nat) : (bumpBy f n s).clock = s.clock := rfl
@[simp] theorem bumpBy_boot (f : Fld) (n : Nat) : (bumpBy f n s).boot = s.boot := rfl
@[simp] theorem bumpBy_freeze (f : Fld) (n : Nat) : (bumpBy f n s).freeze = s.freeze := rfl
@[simp] theorem bumpBy_jtag (f : Fld) (n : Nat) : (bumpBy f n s).jtag = s.jtag := rfl
@[simp] theorem bumpBy_statusBad (f : Fld) (n : Nat) : (bumpBy f n s).statusBad = s.statusBad := rfl
@[simp] theorem bumpBy_latches (f : Fld) (n : Nat) : (bumpBy f n s).latches = s.latches := rfl
@[simp] theorem bumpBy_ev (f : Fld) (n : Nat) : (bumpBy f n s).ev = s.ev := rfl
@[simp] theorem bumpBy_units (f : Fld) (n : Nat) : (bumpBy f n s).units = s.units := rfl
@[simp] theorem bumpBy_mem (f : Fld) (n : Nat) : (bumpBy f n s).mem = s.mem := rfl
@[simp] theorem bumpBy_memBad (f : Fld) (n : Nat) : (bumpBy f n s).memBad = s.memBad := rfl
@[simp] theorem bumpBy_backing (f : Fld) (n : Nat) : (bumpBy f n s).backing = s.backing := rfl
@[simp] theorem bumpBy_xfers (f : Fld) (n : Nat) : (bumpBy f n s).xfers = s.xfers := rfl
@[simp] theorem bumpBy_msgs (f : Fld) (n : Nat) : (bumpBy f n s).msgs = s.msgs := rfl
@[simp] theorem bumpBy_links (f : Fld) (n : Nat) : (bumpBy f n s).links = s.links := rfl
@[simp] theorem bumpBy_ddr (f : Fld) (n : Nat) : (bumpBy f n s).ddr = s.ddr := rfl
@[simp] theorem bumpBy_focal (f : Fld) (n : Nat) : (bumpBy f n s).focal = s.focal := rfl
@[simp] theorem bumpBy_grid (f : Fld) (n : Nat) : (bumpBy f n s).grid = s.grid := rfl
@[simp] theorem bumpBy_corr (f : Fld) (n : Nat) : (bumpBy f n s).corr = s.corr := rfl
@[simp] theorem bumpBy_engines (f : Fld) (n : Nat) : (bumpBy f n s).engines = s.engines := rfl
@[simp] theorem bumpBy_bands (f : Fld) (n : Nat) : (bumpBy f n s).bands = s.bands := rfl
@[simp] theorem bumpBy_fused (f : Fld) (n : Nat) : (bumpBy f n s).fused = s.fused := rfl
@[simp] theorem bumpBy_csn (f : Fld) (n : Nat) : (bumpBy f n s).csn = s.csn := rfl
@[simp] theorem bumpBy_cal (f : Fld) (n : Nat) : (bumpBy f n s).cal = s.cal := rfl
@[simp] theorem bumpBy_ejt (f : Fld) (n : Nat) : (bumpBy f n s).ejt = s.ejt := rfl
@[simp] theorem bumpBy_nvs (f : Fld) (n : Nat) : (bumpBy f n s).nvs = s.nvs := rfl
@[simp] theorem bumpBy_lum (f : Fld) (n : Nat) : (bumpBy f n s).lum = s.lum := rfl
@[simp] theorem bumpBy_cam (f : Fld) (n : Nat) : (bumpBy f n s).cam = s.cam := rfl
@[simp] theorem bumpBy_sadc (f : Fld) (n : Nat) : (bumpBy f n s).sadc = s.sadc := rfl
@[simp] theorem bumpBy_thm (f : Fld) (n : Nat) : (bumpBy f n s).thm = s.thm := rfl
@[simp] theorem bumpBy_net (f : Fld) (n : Nat) : (bumpBy f n s).net = s.net := rfl
@[simp] theorem bumpBy_sec (f : Fld) (n : Nat) : (bumpBy f n s).sec = s.sec := rfl
@[simp] theorem bumpBy_pending (f : Fld) (n : Nat) : (bumpBy f n s).pending = s.pending := rfl

@[simp] theorem bump_opt (f : Fld) : (bump f s).opt = s.opt := rfl
@[simp] theorem bump_mode (f : Fld) : (bump f s).mode = s.mode := rfl
@[simp] theorem bump_time (f : Fld) : (bump f s).time = s.time := rfl
@[simp] theorem bump_timeOn (f : Fld) : (bump f s).timeOn = s.timeOn := rfl
@[simp] theorem bump_tick (f : Fld) : (bump f s).tick = s.tick := rfl
@[simp] theorem bump_periph (f : Fld) : (bump f s).periph = s.periph := rfl
@[simp] theorem bump_free (f : Fld) : (bump f s).free = s.free := rfl
@[simp] theorem bump_pins (f : Fld) : (bump f s).pins = s.pins := rfl
@[simp] theorem bump_power (f : Fld) : (bump f s).power = s.power := rfl
@[simp] theorem bump_clock (f : Fld) : (bump f s).clock = s.clock := rfl
@[simp] theorem bump_boot (f : Fld) : (bump f s).boot = s.boot := rfl
@[simp] theorem bump_freeze (f : Fld) : (bump f s).freeze = s.freeze := rfl
@[simp] theorem bump_jtag (f : Fld) : (bump f s).jtag = s.jtag := rfl
@[simp] theorem bump_statusBad (f : Fld) : (bump f s).statusBad = s.statusBad := rfl
@[simp] theorem bump_latches (f : Fld) : (bump f s).latches = s.latches := rfl
@[simp] theorem bump_ev (f : Fld) : (bump f s).ev = s.ev := rfl
@[simp] theorem bump_units (f : Fld) : (bump f s).units = s.units := rfl
@[simp] theorem bump_mem (f : Fld) : (bump f s).mem = s.mem := rfl
@[simp] theorem bump_memBad (f : Fld) : (bump f s).memBad = s.memBad := rfl
@[simp] theorem bump_backing (f : Fld) : (bump f s).backing = s.backing := rfl
@[simp] theorem bump_xfers (f : Fld) : (bump f s).xfers = s.xfers := rfl
@[simp] theorem bump_msgs (f : Fld) : (bump f s).msgs = s.msgs := rfl
@[simp] theorem bump_links (f : Fld) : (bump f s).links = s.links := rfl
@[simp] theorem bump_ddr (f : Fld) : (bump f s).ddr = s.ddr := rfl
@[simp] theorem bump_focal (f : Fld) : (bump f s).focal = s.focal := rfl
@[simp] theorem bump_grid (f : Fld) : (bump f s).grid = s.grid := rfl
@[simp] theorem bump_corr (f : Fld) : (bump f s).corr = s.corr := rfl
@[simp] theorem bump_engines (f : Fld) : (bump f s).engines = s.engines := rfl
@[simp] theorem bump_bands (f : Fld) : (bump f s).bands = s.bands := rfl
@[simp] theorem bump_fused (f : Fld) : (bump f s).fused = s.fused := rfl
@[simp] theorem bump_csn (f : Fld) : (bump f s).csn = s.csn := rfl
@[simp] theorem bump_cal (f : Fld) : (bump f s).cal = s.cal := rfl
@[simp] theorem bump_ejt (f : Fld) : (bump f s).ejt = s.ejt := rfl
@[simp] theorem bump_nvs (f : Fld) : (bump f s).nvs = s.nvs := rfl
@[simp] theorem bump_lum (f : Fld) : (bump f s).lum = s.lum := rfl
@[simp] theorem bump_cam (f : Fld) : (bump f s).cam = s.cam := rfl
@[simp] theorem bump_sadc (f : Fld) : (bump f s).sadc = s.sadc := rfl
@[simp] theorem bump_thm (f : Fld) : (bump f s).thm = s.thm := rfl
@[simp] theorem bump_net (f : Fld) : (bump f s).net = s.net := rfl
@[simp] theorem bump_sec (f : Fld) : (bump f s).sec = s.sec := rfl
@[simp] theorem bump_pending (f : Fld) : (bump f s).pending = s.pending := rfl

@[simp] theorem setAt_opt (f : Fld) (i : Nat) (b : Bool) : (setAt f i b s).opt = s.opt := rfl
@[simp] theorem setAt_mode (f : Fld) (i : Nat) (b : Bool) : (setAt f i b s).mode = s.mode := rfl
@[simp] theorem setAt_time (f : Fld) (i : Nat) (b : Bool) : (setAt f i b s).time = s.time := rfl
@[simp] theorem setAt_timeOn (f : Fld) (i : Nat) (b : Bool) : (setAt f i b s).timeOn = s.timeOn := rfl
@[simp] theorem setAt_tick (f : Fld) (i : Nat) (b : Bool) : (setAt f i b s).tick = s.tick := rfl
@[simp] theorem setAt_periph (f : Fld) (i : Nat) (b : Bool) : (setAt f i b s).periph = s.periph := rfl
@[simp] theorem setAt_free (f : Fld) (i : Nat) (b : Bool) : (setAt f i b s).free = s.free := rfl
@[simp] theorem setAt_pins (f : Fld) (i : Nat) (b : Bool) : (setAt f i b s).pins = s.pins := rfl
@[simp] theorem setAt_power (f : Fld) (i : Nat) (b : Bool) : (setAt f i b s).power = s.power := rfl
@[simp] theorem setAt_clock (f : Fld) (i : Nat) (b : Bool) : (setAt f i b s).clock = s.clock := rfl
@[simp] theorem setAt_boot (f : Fld) (i : Nat) (b : Bool) : (setAt f i b s).boot = s.boot := rfl
@[simp] theorem setAt_freeze (f : Fld) (i : Nat) (b : Bool) : (setAt f i b s).freeze = s.freeze := rfl
@[simp] theorem setAt_jtag (f : Fld) (i : Nat) (b : Bool) : (setAt f i b s).jtag = s.jtag := rfl
@[simp] theorem setAt_statusBad (f : Fld) (i : Nat) (b : Bool) : (setAt f i b s).statusBad = s.statusBad := rfl
@[simp] theorem setAt_latches (f : Fld) (i : Nat) (b : Bool) : (setAt f i b s).latches = s.latches := rfl
@[simp] theorem setAt_ev (f : Fld) (i : Nat) (b : Bool) : (setAt f i b s).ev = s.ev := rfl
@[simp] theorem setAt_units (f : Fld) (i : Nat) (b : Bool) : (setAt f i b s).units = s.units := rfl
@[simp] theorem setAt_mem (f : Fld) (i : Nat) (b : Bool) : (setAt f i b s).mem = s.mem := rfl
@[simp] theorem setAt_memBad (f : Fld) (i : Nat) (b : Bool) : (setAt f i b s).memBad = s.memBad := rfl
@[simp] theorem setAt_backing (f : Fld) (i : Nat) (b : Bool) : (setAt f i b s).backing = s.backing := rfl
@[simp] theorem setAt_xfers (f : Fld) (i : Nat) (b : Bool) : (setAt f i b s).xfers = s.xfers := rfl
@[simp] theorem setAt_msgs (f : Fld) (i : Nat) (b : Bool) : (setAt f i b s).msgs = s.msgs := rfl
@[simp] theorem setAt_links (f : Fld) (i : Nat) (b : Bool) : (setAt f i b s).links = s.links := rfl
@[simp] theorem setAt_ddr (f : Fld) (i : Nat) (b : Bool) : (setAt f i b s).ddr = s.ddr := rfl
@[simp] theorem setAt_focal (f : Fld) (i : Nat) (b : Bool) : (setAt f i b s).focal = s.focal := rfl
@[simp] theorem setAt_grid (f : Fld) (i : Nat) (b : Bool) : (setAt f i b s).grid = s.grid := rfl
@[simp] theorem setAt_corr (f : Fld) (i : Nat) (b : Bool) : (setAt f i b s).corr = s.corr := rfl
@[simp] theorem setAt_engines (f : Fld) (i : Nat) (b : Bool) : (setAt f i b s).engines = s.engines := rfl
@[simp] theorem setAt_bands (f : Fld) (i : Nat) (b : Bool) : (setAt f i b s).bands = s.bands := rfl
@[simp] theorem setAt_fused (f : Fld) (i : Nat) (b : Bool) : (setAt f i b s).fused = s.fused := rfl
@[simp] theorem setAt_csn (f : Fld) (i : Nat) (b : Bool) : (setAt f i b s).csn = s.csn := rfl
@[simp] theorem setAt_cal (f : Fld) (i : Nat) (b : Bool) : (setAt f i b s).cal = s.cal := rfl
@[simp] theorem setAt_ejt (f : Fld) (i : Nat) (b : Bool) : (setAt f i b s).ejt = s.ejt := rfl
@[simp] theorem setAt_nvs (f : Fld) (i : Nat) (b : Bool) : (setAt f i b s).nvs = s.nvs := rfl
@[simp] theorem setAt_lum (f : Fld) (i : Nat) (b : Bool) : (setAt f i b s).lum = s.lum := rfl
@[simp] theorem setAt_cam (f : Fld) (i : Nat) (b : Bool) : (setAt f i b s).cam = s.cam := rfl
@[simp] theorem setAt_sadc (f : Fld) (i : Nat) (b : Bool) : (setAt f i b s).sadc = s.sadc := rfl
@[simp] theorem setAt_thm (f : Fld) (i : Nat) (b : Bool) : (setAt f i b s).thm = s.thm := rfl
@[simp] theorem setAt_net (f : Fld) (i : Nat) (b : Bool) : (setAt f i b s).net = s.net := rfl
@[simp] theorem setAt_sec (f : Fld) (i : Nat) (b : Bool) : (setAt f i b s).sec = s.sec := rfl
@[simp] theorem setAt_pending (f : Fld) (i : Nat) (b : Bool) : (setAt f i b s).pending = s.pending := rfl

@[simp] theorem complementFail_opt (k : Nat) : (complementFail k s).opt = s.opt := rfl
@[simp] theorem complementFail_mode (k : Nat) : (complementFail k s).mode = s.mode := rfl
@[simp] theorem complementFail_time (k : Nat) : (complementFail k s).time = s.time := rfl
@[simp] theorem complementFail_timeOn (k : Nat) : (complementFail k s).timeOn = s.timeOn := rfl
@[simp] theorem complementFail_tick (k : Nat) : (complementFail k s).tick = s.tick := rfl
@[simp] theorem complementFail_periph (k : Nat) : (complementFail k s).periph = s.periph := rfl
@[simp] theorem complementFail_free (k : Nat) : (complementFail k s).free = s.free := rfl
@[simp] theorem complementFail_pins (k : Nat) : (complementFail k s).pins = s.pins := rfl
@[simp] theorem complementFail_power (k : Nat) : (complementFail k s).power = s.power := rfl
@[simp] theorem complementFail_clock (k : Nat) : (complementFail k s).clock = s.clock := rfl
@[simp] theorem complementFail_boot (k : Nat) : (complementFail k s).boot = s.boot := rfl
@[simp] theorem complementFail_freeze (k : Nat) : (complementFail k s).freeze = s.freeze := rfl
@[simp] theorem complementFail_jtag (k : Nat) : (complementFail k s).jtag = s.jtag := rfl
@[simp] theorem complementFail_statusBad (k : Nat) : (complementFail k s).statusBad = s.statusBad := rfl
@[simp] theorem complementFail_latches (k : Nat) : (complementFail k s).latches = s.latches := rfl
@[simp] theorem complementFail_ev (k : Nat) : (complementFail k s).ev = s.ev := rfl
@[simp] theorem complementFail_units (k : Nat) : (complementFail k s).units = s.units := rfl
@[simp] theorem complementFail_mem (k : Nat) : (complementFail k s).mem = s.mem := rfl
@[simp] theorem complementFail_memBad (k : Nat) : (complementFail k s).memBad = s.memBad := rfl
@[simp] theorem complementFail_backing (k : Nat) : (complementFail k s).backing = s.backing := rfl
@[simp] theorem complementFail_xfers (k : Nat) : (complementFail k s).xfers = s.xfers := rfl
@[simp] theorem complementFail_msgs (k : Nat) : (complementFail k s).msgs = s.msgs := rfl
@[simp] theorem complementFail_links (k : Nat) : (complementFail k s).links = s.links := rfl
@[simp] theorem complementFail_ddr (k : Nat) : (complementFail k s).ddr = s.ddr := rfl
@[simp] theorem complementFail_focal (k : Nat) : (complementFail k s).focal = s.focal := rfl
@[simp] theorem complementFail_grid (k : Nat) : (complementFail k s).grid = s.grid := rfl
@[simp] theorem complementFail_corr (k : Nat) : (complementFail k s).corr = s.corr := rfl
@[simp] theorem complementFail_engines (k : Nat) : (complementFail k s).engines = s.engines := rfl
@[simp] theorem complementFail_bands (k : Nat) : (complementFail k s).bands = s.bands := rfl
@[simp] theorem complementFail_fused (k : Nat) : (complementFail k s).fused = s.fused := rfl
@[simp] theorem complementFail_csn (k : Nat) : (complementFail k s).csn = s.csn := rfl
@[simp] theorem complementFail_cal (k : Nat) : (complementFail k s).cal = s.cal := rfl
@[simp] theorem complementFail_ejt (k : Nat) : (complementFail k s).ejt = s.ejt := rfl
@[simp] theorem complementFail_nvs (k : Nat) : (complementFail k s).nvs = s.nvs := rfl
@[simp] theorem complementFail_lum (k : Nat) : (complementFail k s).lum = s.lum := rfl
@[simp] theorem complementFail_cam (k : Nat) : (complementFail k s).cam = s.cam := rfl
@[simp] theorem complementFail_sadc (k : Nat) : (complementFail k s).sadc = s.sadc := rfl
@[simp] theorem complementFail_thm (k : Nat) : (complementFail k s).thm = s.thm := rfl
@[simp] theorem complementFail_net (k : Nat) : (complementFail k s).net = s.net := rfl
@[simp] theorem complementFail_sec (k : Nat) : (complementFail k s).sec = s.sec := rfl
@[simp] theorem complementFail_pending (k : Nat) : (complementFail k s).pending = s.pending := rfl

@[simp] theorem raise_opt (c k i d : Nat) : (raise c k i d s).opt = s.opt := rfl
@[simp] theorem raise_mode (c k i d : Nat) : (raise c k i d s).mode = s.mode := rfl
@[simp] theorem raise_time (c k i d : Nat) : (raise c k i d s).time = s.time := rfl
@[simp] theorem raise_timeOn (c k i d : Nat) : (raise c k i d s).timeOn = s.timeOn := rfl
@[simp] theorem raise_tick (c k i d : Nat) : (raise c k i d s).tick = s.tick := rfl
@[simp] theorem raise_periph (c k i d : Nat) : (raise c k i d s).periph = s.periph := rfl
@[simp] theorem raise_free (c k i d : Nat) : (raise c k i d s).free = s.free := rfl
@[simp] theorem raise_pins (c k i d : Nat) : (raise c k i d s).pins = s.pins := rfl
@[simp] theorem raise_power (c k i d : Nat) : (raise c k i d s).power = s.power := rfl
@[simp] theorem raise_clock (c k i d : Nat) : (raise c k i d s).clock = s.clock := rfl
@[simp] theorem raise_boot (c k i d : Nat) : (raise c k i d s).boot = s.boot := rfl
@[simp] theorem raise_freeze (c k i d : Nat) : (raise c k i d s).freeze = s.freeze := rfl
@[simp] theorem raise_jtag (c k i d : Nat) : (raise c k i d s).jtag = s.jtag := rfl
@[simp] theorem raise_status (c k i d : Nat) : (raise c k i d s).status = s.status := rfl
@[simp] theorem raise_statusBad (c k i d : Nat) : (raise c k i d s).statusBad = s.statusBad := rfl
@[simp] theorem raise_latches (c k i d : Nat) : (raise c k i d s).latches = s.latches := rfl
@[simp] theorem raise_units (c k i d : Nat) : (raise c k i d s).units = s.units := rfl
@[simp] theorem raise_mem (c k i d : Nat) : (raise c k i d s).mem = s.mem := rfl
@[simp] theorem raise_memBad (c k i d : Nat) : (raise c k i d s).memBad = s.memBad := rfl
@[simp] theorem raise_backing (c k i d : Nat) : (raise c k i d s).backing = s.backing := rfl
@[simp] theorem raise_xfers (c k i d : Nat) : (raise c k i d s).xfers = s.xfers := rfl
@[simp] theorem raise_msgs (c k i d : Nat) : (raise c k i d s).msgs = s.msgs := rfl
@[simp] theorem raise_links (c k i d : Nat) : (raise c k i d s).links = s.links := rfl
@[simp] theorem raise_ddr (c k i d : Nat) : (raise c k i d s).ddr = s.ddr := rfl
@[simp] theorem raise_focal (c k i d : Nat) : (raise c k i d s).focal = s.focal := rfl
@[simp] theorem raise_grid (c k i d : Nat) : (raise c k i d s).grid = s.grid := rfl
@[simp] theorem raise_corr (c k i d : Nat) : (raise c k i d s).corr = s.corr := rfl
@[simp] theorem raise_engines (c k i d : Nat) : (raise c k i d s).engines = s.engines := rfl
@[simp] theorem raise_bands (c k i d : Nat) : (raise c k i d s).bands = s.bands := rfl
@[simp] theorem raise_fused (c k i d : Nat) : (raise c k i d s).fused = s.fused := rfl
@[simp] theorem raise_csn (c k i d : Nat) : (raise c k i d s).csn = s.csn := rfl
@[simp] theorem raise_cal (c k i d : Nat) : (raise c k i d s).cal = s.cal := rfl
@[simp] theorem raise_ejt (c k i d : Nat) : (raise c k i d s).ejt = s.ejt := rfl
@[simp] theorem raise_nvs (c k i d : Nat) : (raise c k i d s).nvs = s.nvs := rfl
@[simp] theorem raise_lum (c k i d : Nat) : (raise c k i d s).lum = s.lum := rfl
@[simp] theorem raise_cam (c k i d : Nat) : (raise c k i d s).cam = s.cam := rfl
@[simp] theorem raise_sadc (c k i d : Nat) : (raise c k i d s).sadc = s.sadc := rfl
@[simp] theorem raise_thm (c k i d : Nat) : (raise c k i d s).thm = s.thm := rfl
@[simp] theorem raise_net (c k i d : Nat) : (raise c k i d s).net = s.net := rfl
@[simp] theorem raise_sec (c k i d : Nat) : (raise c k i d s).sec = s.sec := rfl
@[simp] theorem raise_pending (c k i d : Nat) : (raise c k i d s).pending = s.pending := rfl

@[simp] theorem storeWords_opt (a : Nat) (ws : List Word) : (storeWords a ws s).opt = s.opt := rfl
@[simp] theorem storeWords_mode (a : Nat) (ws : List Word) : (storeWords a ws s).mode = s.mode := rfl
@[simp] theorem storeWords_time (a : Nat) (ws : List Word) : (storeWords a ws s).time = s.time := rfl
@[simp] theorem storeWords_timeOn (a : Nat) (ws : List Word) : (storeWords a ws s).timeOn = s.timeOn := rfl
@[simp] theorem storeWords_tick (a : Nat) (ws : List Word) : (storeWords a ws s).tick = s.tick := rfl
@[simp] theorem storeWords_periph (a : Nat) (ws : List Word) : (storeWords a ws s).periph = s.periph := rfl
@[simp] theorem storeWords_free (a : Nat) (ws : List Word) : (storeWords a ws s).free = s.free := rfl
@[simp] theorem storeWords_pins (a : Nat) (ws : List Word) : (storeWords a ws s).pins = s.pins := rfl
@[simp] theorem storeWords_power (a : Nat) (ws : List Word) : (storeWords a ws s).power = s.power := rfl
@[simp] theorem storeWords_clock (a : Nat) (ws : List Word) : (storeWords a ws s).clock = s.clock := rfl
@[simp] theorem storeWords_boot (a : Nat) (ws : List Word) : (storeWords a ws s).boot = s.boot := rfl
@[simp] theorem storeWords_freeze (a : Nat) (ws : List Word) : (storeWords a ws s).freeze = s.freeze := rfl
@[simp] theorem storeWords_jtag (a : Nat) (ws : List Word) : (storeWords a ws s).jtag = s.jtag := rfl
@[simp] theorem storeWords_status (a : Nat) (ws : List Word) : (storeWords a ws s).status = s.status := rfl
@[simp] theorem storeWords_statusBad (a : Nat) (ws : List Word) : (storeWords a ws s).statusBad = s.statusBad := rfl
@[simp] theorem storeWords_latches (a : Nat) (ws : List Word) : (storeWords a ws s).latches = s.latches := rfl
@[simp] theorem storeWords_ev (a : Nat) (ws : List Word) : (storeWords a ws s).ev = s.ev := rfl
@[simp] theorem storeWords_units (a : Nat) (ws : List Word) : (storeWords a ws s).units = s.units := rfl
@[simp] theorem storeWords_xfers (a : Nat) (ws : List Word) : (storeWords a ws s).xfers = s.xfers := rfl
@[simp] theorem storeWords_msgs (a : Nat) (ws : List Word) : (storeWords a ws s).msgs = s.msgs := rfl
@[simp] theorem storeWords_links (a : Nat) (ws : List Word) : (storeWords a ws s).links = s.links := rfl
@[simp] theorem storeWords_ddr (a : Nat) (ws : List Word) : (storeWords a ws s).ddr = s.ddr := rfl
@[simp] theorem storeWords_focal (a : Nat) (ws : List Word) : (storeWords a ws s).focal = s.focal := rfl
@[simp] theorem storeWords_grid (a : Nat) (ws : List Word) : (storeWords a ws s).grid = s.grid := rfl
@[simp] theorem storeWords_corr (a : Nat) (ws : List Word) : (storeWords a ws s).corr = s.corr := rfl
@[simp] theorem storeWords_engines (a : Nat) (ws : List Word) : (storeWords a ws s).engines = s.engines := rfl
@[simp] theorem storeWords_bands (a : Nat) (ws : List Word) : (storeWords a ws s).bands = s.bands := rfl
@[simp] theorem storeWords_fused (a : Nat) (ws : List Word) : (storeWords a ws s).fused = s.fused := rfl
@[simp] theorem storeWords_csn (a : Nat) (ws : List Word) : (storeWords a ws s).csn = s.csn := rfl
@[simp] theorem storeWords_cal (a : Nat) (ws : List Word) : (storeWords a ws s).cal = s.cal := rfl
@[simp] theorem storeWords_ejt (a : Nat) (ws : List Word) : (storeWords a ws s).ejt = s.ejt := rfl
@[simp] theorem storeWords_nvs (a : Nat) (ws : List Word) : (storeWords a ws s).nvs = s.nvs := rfl
@[simp] theorem storeWords_lum (a : Nat) (ws : List Word) : (storeWords a ws s).lum = s.lum := rfl
@[simp] theorem storeWords_cam (a : Nat) (ws : List Word) : (storeWords a ws s).cam = s.cam := rfl
@[simp] theorem storeWords_sadc (a : Nat) (ws : List Word) : (storeWords a ws s).sadc = s.sadc := rfl
@[simp] theorem storeWords_thm (a : Nat) (ws : List Word) : (storeWords a ws s).thm = s.thm := rfl
@[simp] theorem storeWords_net (a : Nat) (ws : List Word) : (storeWords a ws s).net = s.net := rfl
@[simp] theorem storeWords_sec (a : Nat) (ws : List Word) : (storeWords a ws s).sec = s.sec := rfl
@[simp] theorem storeWords_pending (a : Nat) (ws : List Word) : (storeWords a ws s).pending = s.pending := rfl

@[simp] theorem markBad_opt (l : List Nat) : (markBad l s).opt = s.opt := rfl
@[simp] theorem markBad_mode (l : List Nat) : (markBad l s).mode = s.mode := rfl
@[simp] theorem markBad_time (l : List Nat) : (markBad l s).time = s.time := rfl
@[simp] theorem markBad_timeOn (l : List Nat) : (markBad l s).timeOn = s.timeOn := rfl
@[simp] theorem markBad_tick (l : List Nat) : (markBad l s).tick = s.tick := rfl
@[simp] theorem markBad_periph (l : List Nat) : (markBad l s).periph = s.periph := rfl
@[simp] theorem markBad_free (l : List Nat) : (markBad l s).free = s.free := rfl
@[simp] theorem markBad_pins (l : List Nat) : (markBad l s).pins = s.pins := rfl
@[simp] theorem markBad_power (l : List Nat) : (markBad l s).power = s.power := rfl
@[simp] theorem markBad_clock (l : List Nat) : (markBad l s).clock = s.clock := rfl
@[simp] theorem markBad_boot (l : List Nat) : (markBad l s).boot = s.boot := rfl
@[simp] theorem markBad_freeze (l : List Nat) : (markBad l s).freeze = s.freeze := rfl
@[simp] theorem markBad_jtag (l : List Nat) : (markBad l s).jtag = s.jtag := rfl
@[simp] theorem markBad_status (l : List Nat) : (markBad l s).status = s.status := rfl
@[simp] theorem markBad_statusBad (l : List Nat) : (markBad l s).statusBad = s.statusBad := rfl
@[simp] theorem markBad_latches (l : List Nat) : (markBad l s).latches = s.latches := rfl
@[simp] theorem markBad_ev (l : List Nat) : (markBad l s).ev = s.ev := rfl
@[simp] theorem markBad_units (l : List Nat) : (markBad l s).units = s.units := rfl
@[simp] theorem markBad_mem (l : List Nat) : (markBad l s).mem = s.mem := rfl
@[simp] theorem markBad_backing (l : List Nat) : (markBad l s).backing = s.backing := rfl
@[simp] theorem markBad_xfers (l : List Nat) : (markBad l s).xfers = s.xfers := rfl
@[simp] theorem markBad_msgs (l : List Nat) : (markBad l s).msgs = s.msgs := rfl
@[simp] theorem markBad_links (l : List Nat) : (markBad l s).links = s.links := rfl
@[simp] theorem markBad_ddr (l : List Nat) : (markBad l s).ddr = s.ddr := rfl
@[simp] theorem markBad_focal (l : List Nat) : (markBad l s).focal = s.focal := rfl
@[simp] theorem markBad_grid (l : List Nat) : (markBad l s).grid = s.grid := rfl
@[simp] theorem markBad_corr (l : List Nat) : (markBad l s).corr = s.corr := rfl
@[simp] theorem markBad_engines (l : List Nat) : (markBad l s).engines = s.engines := rfl
@[simp] theorem markBad_bands (l : List Nat) : (markBad l s).bands = s.bands := rfl
@[simp] theorem markBad_fused (l : List Nat) : (markBad l s).fused = s.fused := rfl
@[simp] theorem markBad_csn (l : List Nat) : (markBad l s).csn = s.csn := rfl
@[simp] theorem markBad_cal (l : List Nat) : (markBad l s).cal = s.cal := rfl
@[simp] theorem markBad_ejt (l : List Nat) : (markBad l s).ejt = s.ejt := rfl
@[simp] theorem markBad_nvs (l : List Nat) : (markBad l s).nvs = s.nvs := rfl
@[simp] theorem markBad_lum (l : List Nat) : (markBad l s).lum = s.lum := rfl
@[simp] theorem markBad_cam (l : List Nat) : (markBad l s).cam = s.cam := rfl
@[simp] theorem markBad_sadc (l : List Nat) : (markBad l s).sadc = s.sadc := rfl
@[simp] theorem markBad_thm (l : List Nat) : (markBad l s).thm = s.thm := rfl
@[simp] theorem markBad_net (l : List Nat) : (markBad l s).net = s.net := rfl
@[simp] theorem markBad_sec (l : List Nat) : (markBad l s).sec = s.sec := rfl
@[simp] theorem markBad_pending (l : List Nat) : (markBad l s).pending = s.pending := rfl

@[simp] theorem modU_opt (u : UnitId) (f : ExUnit → ExUnit) : (modU u f s).opt = s.opt := rfl
@[simp] theorem modU_mode (u : UnitId) (f : ExUnit → ExUnit) : (modU u f s).mode = s.mode := rfl
@[simp] theorem modU_time (u : UnitId) (f : ExUnit → ExUnit) : (modU u f s).time = s.time := rfl
@[simp] theorem modU_timeOn (u : UnitId) (f : ExUnit → ExUnit) : (modU u f s).timeOn = s.timeOn := rfl
@[simp] theorem modU_tick (u : UnitId) (f : ExUnit → ExUnit) : (modU u f s).tick = s.tick := rfl
@[simp] theorem modU_periph (u : UnitId) (f : ExUnit → ExUnit) : (modU u f s).periph = s.periph := rfl
@[simp] theorem modU_free (u : UnitId) (f : ExUnit → ExUnit) : (modU u f s).free = s.free := rfl
@[simp] theorem modU_pins (u : UnitId) (f : ExUnit → ExUnit) : (modU u f s).pins = s.pins := rfl
@[simp] theorem modU_power (u : UnitId) (f : ExUnit → ExUnit) : (modU u f s).power = s.power := rfl
@[simp] theorem modU_clock (u : UnitId) (f : ExUnit → ExUnit) : (modU u f s).clock = s.clock := rfl
@[simp] theorem modU_boot (u : UnitId) (f : ExUnit → ExUnit) : (modU u f s).boot = s.boot := rfl
@[simp] theorem modU_freeze (u : UnitId) (f : ExUnit → ExUnit) : (modU u f s).freeze = s.freeze := rfl
@[simp] theorem modU_jtag (u : UnitId) (f : ExUnit → ExUnit) : (modU u f s).jtag = s.jtag := rfl
@[simp] theorem modU_status (u : UnitId) (f : ExUnit → ExUnit) : (modU u f s).status = s.status := rfl
@[simp] theorem modU_statusBad (u : UnitId) (f : ExUnit → ExUnit) : (modU u f s).statusBad = s.statusBad := rfl
@[simp] theorem modU_latches (u : UnitId) (f : ExUnit → ExUnit) : (modU u f s).latches = s.latches := rfl
@[simp] theorem modU_ev (u : UnitId) (f : ExUnit → ExUnit) : (modU u f s).ev = s.ev := rfl
@[simp] theorem modU_mem (u : UnitId) (f : ExUnit → ExUnit) : (modU u f s).mem = s.mem := rfl
@[simp] theorem modU_memBad (u : UnitId) (f : ExUnit → ExUnit) : (modU u f s).memBad = s.memBad := rfl
@[simp] theorem modU_backing (u : UnitId) (f : ExUnit → ExUnit) : (modU u f s).backing = s.backing := rfl
@[simp] theorem modU_xfers (u : UnitId) (f : ExUnit → ExUnit) : (modU u f s).xfers = s.xfers := rfl
@[simp] theorem modU_msgs (u : UnitId) (f : ExUnit → ExUnit) : (modU u f s).msgs = s.msgs := rfl
@[simp] theorem modU_links (u : UnitId) (f : ExUnit → ExUnit) : (modU u f s).links = s.links := rfl
@[simp] theorem modU_ddr (u : UnitId) (f : ExUnit → ExUnit) : (modU u f s).ddr = s.ddr := rfl
@[simp] theorem modU_focal (u : UnitId) (f : ExUnit → ExUnit) : (modU u f s).focal = s.focal := rfl
@[simp] theorem modU_grid (u : UnitId) (f : ExUnit → ExUnit) : (modU u f s).grid = s.grid := rfl
@[simp] theorem modU_corr (u : UnitId) (f : ExUnit → ExUnit) : (modU u f s).corr = s.corr := rfl
@[simp] theorem modU_engines (u : UnitId) (f : ExUnit → ExUnit) : (modU u f s).engines = s.engines := rfl
@[simp] theorem modU_bands (u : UnitId) (f : ExUnit → ExUnit) : (modU u f s).bands = s.bands := rfl
@[simp] theorem modU_fused (u : UnitId) (f : ExUnit → ExUnit) : (modU u f s).fused = s.fused := rfl
@[simp] theorem modU_csn (u : UnitId) (f : ExUnit → ExUnit) : (modU u f s).csn = s.csn := rfl
@[simp] theorem modU_cal (u : UnitId) (f : ExUnit → ExUnit) : (modU u f s).cal = s.cal := rfl
@[simp] theorem modU_ejt (u : UnitId) (f : ExUnit → ExUnit) : (modU u f s).ejt = s.ejt := rfl
@[simp] theorem modU_nvs (u : UnitId) (f : ExUnit → ExUnit) : (modU u f s).nvs = s.nvs := rfl
@[simp] theorem modU_lum (u : UnitId) (f : ExUnit → ExUnit) : (modU u f s).lum = s.lum := rfl
@[simp] theorem modU_cam (u : UnitId) (f : ExUnit → ExUnit) : (modU u f s).cam = s.cam := rfl
@[simp] theorem modU_sadc (u : UnitId) (f : ExUnit → ExUnit) : (modU u f s).sadc = s.sadc := rfl
@[simp] theorem modU_thm (u : UnitId) (f : ExUnit → ExUnit) : (modU u f s).thm = s.thm := rfl
@[simp] theorem modU_net (u : UnitId) (f : ExUnit → ExUnit) : (modU u f s).net = s.net := rfl
@[simp] theorem modU_sec (u : UnitId) (f : ExUnit → ExUnit) : (modU u f s).sec = s.sec := rfl
@[simp] theorem modU_pending (u : UnitId) (f : ExUnit → ExUnit) : (modU u f s).pending = s.pending := rfl

@[simp] theorem setPc_opt (u : UnitId) (a : Nat) : (setPc u a s).opt = s.opt := rfl
@[simp] theorem setPc_mode (u : UnitId) (a : Nat) : (setPc u a s).mode = s.mode := rfl
@[simp] theorem setPc_time (u : UnitId) (a : Nat) : (setPc u a s).time = s.time := rfl
@[simp] theorem setPc_timeOn (u : UnitId) (a : Nat) : (setPc u a s).timeOn = s.timeOn := rfl
@[simp] theorem setPc_tick (u : UnitId) (a : Nat) : (setPc u a s).tick = s.tick := rfl
@[simp] theorem setPc_periph (u : UnitId) (a : Nat) : (setPc u a s).periph = s.periph := rfl
@[simp] theorem setPc_free (u : UnitId) (a : Nat) : (setPc u a s).free = s.free := rfl
@[simp] theorem setPc_pins (u : UnitId) (a : Nat) : (setPc u a s).pins = s.pins := rfl
@[simp] theorem setPc_power (u : UnitId) (a : Nat) : (setPc u a s).power = s.power := rfl
@[simp] theorem setPc_clock (u : UnitId) (a : Nat) : (setPc u a s).clock = s.clock := rfl
@[simp] theorem setPc_boot (u : UnitId) (a : Nat) : (setPc u a s).boot = s.boot := rfl
@[simp] theorem setPc_freeze (u : UnitId) (a : Nat) : (setPc u a s).freeze = s.freeze := rfl
@[simp] theorem setPc_jtag (u : UnitId) (a : Nat) : (setPc u a s).jtag = s.jtag := rfl
@[simp] theorem setPc_status (u : UnitId) (a : Nat) : (setPc u a s).status = s.status := rfl
@[simp] theorem setPc_statusBad (u : UnitId) (a : Nat) : (setPc u a s).statusBad = s.statusBad := rfl
@[simp] theorem setPc_latches (u : UnitId) (a : Nat) : (setPc u a s).latches = s.latches := rfl
@[simp] theorem setPc_ev (u : UnitId) (a : Nat) : (setPc u a s).ev = s.ev := rfl
@[simp] theorem setPc_mem (u : UnitId) (a : Nat) : (setPc u a s).mem = s.mem := rfl
@[simp] theorem setPc_memBad (u : UnitId) (a : Nat) : (setPc u a s).memBad = s.memBad := rfl
@[simp] theorem setPc_backing (u : UnitId) (a : Nat) : (setPc u a s).backing = s.backing := rfl
@[simp] theorem setPc_xfers (u : UnitId) (a : Nat) : (setPc u a s).xfers = s.xfers := rfl
@[simp] theorem setPc_msgs (u : UnitId) (a : Nat) : (setPc u a s).msgs = s.msgs := rfl
@[simp] theorem setPc_links (u : UnitId) (a : Nat) : (setPc u a s).links = s.links := rfl
@[simp] theorem setPc_ddr (u : UnitId) (a : Nat) : (setPc u a s).ddr = s.ddr := rfl
@[simp] theorem setPc_focal (u : UnitId) (a : Nat) : (setPc u a s).focal = s.focal := rfl
@[simp] theorem setPc_grid (u : UnitId) (a : Nat) : (setPc u a s).grid = s.grid := rfl
@[simp] theorem setPc_corr (u : UnitId) (a : Nat) : (setPc u a s).corr = s.corr := rfl
@[simp] theorem setPc_engines (u : UnitId) (a : Nat) : (setPc u a s).engines = s.engines := rfl
@[simp] theorem setPc_bands (u : UnitId) (a : Nat) : (setPc u a s).bands = s.bands := rfl
@[simp] theorem setPc_fused (u : UnitId) (a : Nat) : (setPc u a s).fused = s.fused := rfl
@[simp] theorem setPc_csn (u : UnitId) (a : Nat) : (setPc u a s).csn = s.csn := rfl
@[simp] theorem setPc_cal (u : UnitId) (a : Nat) : (setPc u a s).cal = s.cal := rfl
@[simp] theorem setPc_ejt (u : UnitId) (a : Nat) : (setPc u a s).ejt = s.ejt := rfl
@[simp] theorem setPc_nvs (u : UnitId) (a : Nat) : (setPc u a s).nvs = s.nvs := rfl
@[simp] theorem setPc_lum (u : UnitId) (a : Nat) : (setPc u a s).lum = s.lum := rfl
@[simp] theorem setPc_cam (u : UnitId) (a : Nat) : (setPc u a s).cam = s.cam := rfl
@[simp] theorem setPc_sadc (u : UnitId) (a : Nat) : (setPc u a s).sadc = s.sadc := rfl
@[simp] theorem setPc_thm (u : UnitId) (a : Nat) : (setPc u a s).thm = s.thm := rfl
@[simp] theorem setPc_net (u : UnitId) (a : Nat) : (setPc u a s).net = s.net := rfl
@[simp] theorem setPc_sec (u : UnitId) (a : Nat) : (setPc u a s).sec = s.sec := rfl
@[simp] theorem setPc_pending (u : UnitId) (a : Nat) : (setPc u a s).pending = s.pending := rfl

@[simp] theorem advance_opt (u : UnitId) (w : Bool) : (advance u w s).opt = s.opt := rfl
@[simp] theorem advance_mode (u : UnitId) (w : Bool) : (advance u w s).mode = s.mode := rfl
@[simp] theorem advance_time (u : UnitId) (w : Bool) : (advance u w s).time = s.time := rfl
@[simp] theorem advance_timeOn (u : UnitId) (w : Bool) : (advance u w s).timeOn = s.timeOn := rfl
@[simp] theorem advance_tick (u : UnitId) (w : Bool) : (advance u w s).tick = s.tick := rfl
@[simp] theorem advance_periph (u : UnitId) (w : Bool) : (advance u w s).periph = s.periph := rfl
@[simp] theorem advance_free (u : UnitId) (w : Bool) : (advance u w s).free = s.free := rfl
@[simp] theorem advance_pins (u : UnitId) (w : Bool) : (advance u w s).pins = s.pins := rfl
@[simp] theorem advance_power (u : UnitId) (w : Bool) : (advance u w s).power = s.power := rfl
@[simp] theorem advance_clock (u : UnitId) (w : Bool) : (advance u w s).clock = s.clock := rfl
@[simp] theorem advance_boot (u : UnitId) (w : Bool) : (advance u w s).boot = s.boot := rfl
@[simp] theorem advance_freeze (u : UnitId) (w : Bool) : (advance u w s).freeze = s.freeze := rfl
@[simp] theorem advance_jtag (u : UnitId) (w : Bool) : (advance u w s).jtag = s.jtag := rfl
@[simp] theorem advance_status (u : UnitId) (w : Bool) : (advance u w s).status = s.status := rfl
@[simp] theorem advance_statusBad (u : UnitId) (w : Bool) : (advance u w s).statusBad = s.statusBad := rfl
@[simp] theorem advance_latches (u : UnitId) (w : Bool) : (advance u w s).latches = s.latches := rfl
@[simp] theorem advance_ev (u : UnitId) (w : Bool) : (advance u w s).ev = s.ev := rfl
@[simp] theorem advance_mem (u : UnitId) (w : Bool) : (advance u w s).mem = s.mem := rfl
@[simp] theorem advance_memBad (u : UnitId) (w : Bool) : (advance u w s).memBad = s.memBad := rfl
@[simp] theorem advance_backing (u : UnitId) (w : Bool) : (advance u w s).backing = s.backing := rfl
@[simp] theorem advance_xfers (u : UnitId) (w : Bool) : (advance u w s).xfers = s.xfers := rfl
@[simp] theorem advance_msgs (u : UnitId) (w : Bool) : (advance u w s).msgs = s.msgs := rfl
@[simp] theorem advance_links (u : UnitId) (w : Bool) : (advance u w s).links = s.links := rfl
@[simp] theorem advance_ddr (u : UnitId) (w : Bool) : (advance u w s).ddr = s.ddr := rfl
@[simp] theorem advance_focal (u : UnitId) (w : Bool) : (advance u w s).focal = s.focal := rfl
@[simp] theorem advance_grid (u : UnitId) (w : Bool) : (advance u w s).grid = s.grid := rfl
@[simp] theorem advance_corr (u : UnitId) (w : Bool) : (advance u w s).corr = s.corr := rfl
@[simp] theorem advance_engines (u : UnitId) (w : Bool) : (advance u w s).engines = s.engines := rfl
@[simp] theorem advance_bands (u : UnitId) (w : Bool) : (advance u w s).bands = s.bands := rfl
@[simp] theorem advance_fused (u : UnitId) (w : Bool) : (advance u w s).fused = s.fused := rfl
@[simp] theorem advance_csn (u : UnitId) (w : Bool) : (advance u w s).csn = s.csn := rfl
@[simp] theorem advance_cal (u : UnitId) (w : Bool) : (advance u w s).cal = s.cal := rfl
@[simp] theorem advance_ejt (u : UnitId) (w : Bool) : (advance u w s).ejt = s.ejt := rfl
@[simp] theorem advance_nvs (u : UnitId) (w : Bool) : (advance u w s).nvs = s.nvs := rfl
@[simp] theorem advance_lum (u : UnitId) (w : Bool) : (advance u w s).lum = s.lum := rfl
@[simp] theorem advance_cam (u : UnitId) (w : Bool) : (advance u w s).cam = s.cam := rfl
@[simp] theorem advance_sadc (u : UnitId) (w : Bool) : (advance u w s).sadc = s.sadc := rfl
@[simp] theorem advance_thm (u : UnitId) (w : Bool) : (advance u w s).thm = s.thm := rfl
@[simp] theorem advance_net (u : UnitId) (w : Bool) : (advance u w s).net = s.net := rfl
@[simp] theorem advance_sec (u : UnitId) (w : Bool) : (advance u w s).sec = s.sec := rfl
@[simp] theorem advance_pending (u : UnitId) (w : Bool) : (advance u w s).pending = s.pending := rfl

@[simp] theorem setTag_opt (u : UnitId) (t : Tag) (x : TagState) : (setTag u t x s).opt = s.opt := rfl
@[simp] theorem setTag_mode (u : UnitId) (t : Tag) (x : TagState) : (setTag u t x s).mode = s.mode := rfl
@[simp] theorem setTag_time (u : UnitId) (t : Tag) (x : TagState) : (setTag u t x s).time = s.time := rfl
@[simp] theorem setTag_timeOn (u : UnitId) (t : Tag) (x : TagState) : (setTag u t x s).timeOn = s.timeOn := rfl
@[simp] theorem setTag_tick (u : UnitId) (t : Tag) (x : TagState) : (setTag u t x s).tick = s.tick := rfl
@[simp] theorem setTag_periph (u : UnitId) (t : Tag) (x : TagState) : (setTag u t x s).periph = s.periph := rfl
@[simp] theorem setTag_free (u : UnitId) (t : Tag) (x : TagState) : (setTag u t x s).free = s.free := rfl
@[simp] theorem setTag_pins (u : UnitId) (t : Tag) (x : TagState) : (setTag u t x s).pins = s.pins := rfl
@[simp] theorem setTag_power (u : UnitId) (t : Tag) (x : TagState) : (setTag u t x s).power = s.power := rfl
@[simp] theorem setTag_clock (u : UnitId) (t : Tag) (x : TagState) : (setTag u t x s).clock = s.clock := rfl
@[simp] theorem setTag_boot (u : UnitId) (t : Tag) (x : TagState) : (setTag u t x s).boot = s.boot := rfl
@[simp] theorem setTag_freeze (u : UnitId) (t : Tag) (x : TagState) : (setTag u t x s).freeze = s.freeze := rfl
@[simp] theorem setTag_jtag (u : UnitId) (t : Tag) (x : TagState) : (setTag u t x s).jtag = s.jtag := rfl
@[simp] theorem setTag_status (u : UnitId) (t : Tag) (x : TagState) : (setTag u t x s).status = s.status := rfl
@[simp] theorem setTag_statusBad (u : UnitId) (t : Tag) (x : TagState) : (setTag u t x s).statusBad = s.statusBad := rfl
@[simp] theorem setTag_latches (u : UnitId) (t : Tag) (x : TagState) : (setTag u t x s).latches = s.latches := rfl
@[simp] theorem setTag_ev (u : UnitId) (t : Tag) (x : TagState) : (setTag u t x s).ev = s.ev := rfl
@[simp] theorem setTag_mem (u : UnitId) (t : Tag) (x : TagState) : (setTag u t x s).mem = s.mem := rfl
@[simp] theorem setTag_memBad (u : UnitId) (t : Tag) (x : TagState) : (setTag u t x s).memBad = s.memBad := rfl
@[simp] theorem setTag_backing (u : UnitId) (t : Tag) (x : TagState) : (setTag u t x s).backing = s.backing := rfl
@[simp] theorem setTag_xfers (u : UnitId) (t : Tag) (x : TagState) : (setTag u t x s).xfers = s.xfers := rfl
@[simp] theorem setTag_msgs (u : UnitId) (t : Tag) (x : TagState) : (setTag u t x s).msgs = s.msgs := rfl
@[simp] theorem setTag_links (u : UnitId) (t : Tag) (x : TagState) : (setTag u t x s).links = s.links := rfl
@[simp] theorem setTag_ddr (u : UnitId) (t : Tag) (x : TagState) : (setTag u t x s).ddr = s.ddr := rfl
@[simp] theorem setTag_focal (u : UnitId) (t : Tag) (x : TagState) : (setTag u t x s).focal = s.focal := rfl
@[simp] theorem setTag_grid (u : UnitId) (t : Tag) (x : TagState) : (setTag u t x s).grid = s.grid := rfl
@[simp] theorem setTag_corr (u : UnitId) (t : Tag) (x : TagState) : (setTag u t x s).corr = s.corr := rfl
@[simp] theorem setTag_engines (u : UnitId) (t : Tag) (x : TagState) : (setTag u t x s).engines = s.engines := rfl
@[simp] theorem setTag_bands (u : UnitId) (t : Tag) (x : TagState) : (setTag u t x s).bands = s.bands := rfl
@[simp] theorem setTag_fused (u : UnitId) (t : Tag) (x : TagState) : (setTag u t x s).fused = s.fused := rfl
@[simp] theorem setTag_csn (u : UnitId) (t : Tag) (x : TagState) : (setTag u t x s).csn = s.csn := rfl
@[simp] theorem setTag_cal (u : UnitId) (t : Tag) (x : TagState) : (setTag u t x s).cal = s.cal := rfl
@[simp] theorem setTag_ejt (u : UnitId) (t : Tag) (x : TagState) : (setTag u t x s).ejt = s.ejt := rfl
@[simp] theorem setTag_nvs (u : UnitId) (t : Tag) (x : TagState) : (setTag u t x s).nvs = s.nvs := rfl
@[simp] theorem setTag_lum (u : UnitId) (t : Tag) (x : TagState) : (setTag u t x s).lum = s.lum := rfl
@[simp] theorem setTag_cam (u : UnitId) (t : Tag) (x : TagState) : (setTag u t x s).cam = s.cam := rfl
@[simp] theorem setTag_sadc (u : UnitId) (t : Tag) (x : TagState) : (setTag u t x s).sadc = s.sadc := rfl
@[simp] theorem setTag_thm (u : UnitId) (t : Tag) (x : TagState) : (setTag u t x s).thm = s.thm := rfl
@[simp] theorem setTag_net (u : UnitId) (t : Tag) (x : TagState) : (setTag u t x s).net = s.net := rfl
@[simp] theorem setTag_sec (u : UnitId) (t : Tag) (x : TagState) : (setTag u t x s).sec = s.sec := rfl
@[simp] theorem setTag_pending (u : UnitId) (t : Tag) (x : TagState) : (setTag u t x s).pending = s.pending := rfl

@[simp] theorem setV_opt (u : UnitId) (n : Reg) (x : Vector Word 32) : (setV u n x s).opt = s.opt := rfl
@[simp] theorem setV_mode (u : UnitId) (n : Reg) (x : Vector Word 32) : (setV u n x s).mode = s.mode := rfl
@[simp] theorem setV_time (u : UnitId) (n : Reg) (x : Vector Word 32) : (setV u n x s).time = s.time := rfl
@[simp] theorem setV_timeOn (u : UnitId) (n : Reg) (x : Vector Word 32) : (setV u n x s).timeOn = s.timeOn := rfl
@[simp] theorem setV_tick (u : UnitId) (n : Reg) (x : Vector Word 32) : (setV u n x s).tick = s.tick := rfl
@[simp] theorem setV_periph (u : UnitId) (n : Reg) (x : Vector Word 32) : (setV u n x s).periph = s.periph := rfl
@[simp] theorem setV_free (u : UnitId) (n : Reg) (x : Vector Word 32) : (setV u n x s).free = s.free := rfl
@[simp] theorem setV_pins (u : UnitId) (n : Reg) (x : Vector Word 32) : (setV u n x s).pins = s.pins := rfl
@[simp] theorem setV_power (u : UnitId) (n : Reg) (x : Vector Word 32) : (setV u n x s).power = s.power := rfl
@[simp] theorem setV_clock (u : UnitId) (n : Reg) (x : Vector Word 32) : (setV u n x s).clock = s.clock := rfl
@[simp] theorem setV_boot (u : UnitId) (n : Reg) (x : Vector Word 32) : (setV u n x s).boot = s.boot := rfl
@[simp] theorem setV_freeze (u : UnitId) (n : Reg) (x : Vector Word 32) : (setV u n x s).freeze = s.freeze := rfl
@[simp] theorem setV_jtag (u : UnitId) (n : Reg) (x : Vector Word 32) : (setV u n x s).jtag = s.jtag := rfl
@[simp] theorem setV_status (u : UnitId) (n : Reg) (x : Vector Word 32) : (setV u n x s).status = s.status := rfl
@[simp] theorem setV_statusBad (u : UnitId) (n : Reg) (x : Vector Word 32) : (setV u n x s).statusBad = s.statusBad := rfl
@[simp] theorem setV_latches (u : UnitId) (n : Reg) (x : Vector Word 32) : (setV u n x s).latches = s.latches := rfl
@[simp] theorem setV_ev (u : UnitId) (n : Reg) (x : Vector Word 32) : (setV u n x s).ev = s.ev := rfl
@[simp] theorem setV_mem (u : UnitId) (n : Reg) (x : Vector Word 32) : (setV u n x s).mem = s.mem := rfl
@[simp] theorem setV_memBad (u : UnitId) (n : Reg) (x : Vector Word 32) : (setV u n x s).memBad = s.memBad := rfl
@[simp] theorem setV_backing (u : UnitId) (n : Reg) (x : Vector Word 32) : (setV u n x s).backing = s.backing := rfl
@[simp] theorem setV_xfers (u : UnitId) (n : Reg) (x : Vector Word 32) : (setV u n x s).xfers = s.xfers := rfl
@[simp] theorem setV_msgs (u : UnitId) (n : Reg) (x : Vector Word 32) : (setV u n x s).msgs = s.msgs := rfl
@[simp] theorem setV_links (u : UnitId) (n : Reg) (x : Vector Word 32) : (setV u n x s).links = s.links := rfl
@[simp] theorem setV_ddr (u : UnitId) (n : Reg) (x : Vector Word 32) : (setV u n x s).ddr = s.ddr := rfl
@[simp] theorem setV_focal (u : UnitId) (n : Reg) (x : Vector Word 32) : (setV u n x s).focal = s.focal := rfl
@[simp] theorem setV_grid (u : UnitId) (n : Reg) (x : Vector Word 32) : (setV u n x s).grid = s.grid := rfl
@[simp] theorem setV_corr (u : UnitId) (n : Reg) (x : Vector Word 32) : (setV u n x s).corr = s.corr := rfl
@[simp] theorem setV_engines (u : UnitId) (n : Reg) (x : Vector Word 32) : (setV u n x s).engines = s.engines := rfl
@[simp] theorem setV_bands (u : UnitId) (n : Reg) (x : Vector Word 32) : (setV u n x s).bands = s.bands := rfl
@[simp] theorem setV_fused (u : UnitId) (n : Reg) (x : Vector Word 32) : (setV u n x s).fused = s.fused := rfl
@[simp] theorem setV_csn (u : UnitId) (n : Reg) (x : Vector Word 32) : (setV u n x s).csn = s.csn := rfl
@[simp] theorem setV_cal (u : UnitId) (n : Reg) (x : Vector Word 32) : (setV u n x s).cal = s.cal := rfl
@[simp] theorem setV_ejt (u : UnitId) (n : Reg) (x : Vector Word 32) : (setV u n x s).ejt = s.ejt := rfl
@[simp] theorem setV_nvs (u : UnitId) (n : Reg) (x : Vector Word 32) : (setV u n x s).nvs = s.nvs := rfl
@[simp] theorem setV_lum (u : UnitId) (n : Reg) (x : Vector Word 32) : (setV u n x s).lum = s.lum := rfl
@[simp] theorem setV_cam (u : UnitId) (n : Reg) (x : Vector Word 32) : (setV u n x s).cam = s.cam := rfl
@[simp] theorem setV_sadc (u : UnitId) (n : Reg) (x : Vector Word 32) : (setV u n x s).sadc = s.sadc := rfl
@[simp] theorem setV_thm (u : UnitId) (n : Reg) (x : Vector Word 32) : (setV u n x s).thm = s.thm := rfl
@[simp] theorem setV_net (u : UnitId) (n : Reg) (x : Vector Word 32) : (setV u n x s).net = s.net := rfl
@[simp] theorem setV_sec (u : UnitId) (n : Reg) (x : Vector Word 32) : (setV u n x s).sec = s.sec := rfl
@[simp] theorem setV_pending (u : UnitId) (n : Reg) (x : Vector Word 32) : (setV u n x s).pending = s.pending := rfl

@[simp] theorem setP_opt (u : UnitId) (n : Pred) (x : BitVec 32) : (setP u n x s).opt = s.opt := rfl
@[simp] theorem setP_mode (u : UnitId) (n : Pred) (x : BitVec 32) : (setP u n x s).mode = s.mode := rfl
@[simp] theorem setP_time (u : UnitId) (n : Pred) (x : BitVec 32) : (setP u n x s).time = s.time := rfl
@[simp] theorem setP_timeOn (u : UnitId) (n : Pred) (x : BitVec 32) : (setP u n x s).timeOn = s.timeOn := rfl
@[simp] theorem setP_tick (u : UnitId) (n : Pred) (x : BitVec 32) : (setP u n x s).tick = s.tick := rfl
@[simp] theorem setP_periph (u : UnitId) (n : Pred) (x : BitVec 32) : (setP u n x s).periph = s.periph := rfl
@[simp] theorem setP_free (u : UnitId) (n : Pred) (x : BitVec 32) : (setP u n x s).free = s.free := rfl
@[simp] theorem setP_pins (u : UnitId) (n : Pred) (x : BitVec 32) : (setP u n x s).pins = s.pins := rfl
@[simp] theorem setP_power (u : UnitId) (n : Pred) (x : BitVec 32) : (setP u n x s).power = s.power := rfl
@[simp] theorem setP_clock (u : UnitId) (n : Pred) (x : BitVec 32) : (setP u n x s).clock = s.clock := rfl
@[simp] theorem setP_boot (u : UnitId) (n : Pred) (x : BitVec 32) : (setP u n x s).boot = s.boot := rfl
@[simp] theorem setP_freeze (u : UnitId) (n : Pred) (x : BitVec 32) : (setP u n x s).freeze = s.freeze := rfl
@[simp] theorem setP_jtag (u : UnitId) (n : Pred) (x : BitVec 32) : (setP u n x s).jtag = s.jtag := rfl
@[simp] theorem setP_status (u : UnitId) (n : Pred) (x : BitVec 32) : (setP u n x s).status = s.status := rfl
@[simp] theorem setP_statusBad (u : UnitId) (n : Pred) (x : BitVec 32) : (setP u n x s).statusBad = s.statusBad := rfl
@[simp] theorem setP_latches (u : UnitId) (n : Pred) (x : BitVec 32) : (setP u n x s).latches = s.latches := rfl
@[simp] theorem setP_ev (u : UnitId) (n : Pred) (x : BitVec 32) : (setP u n x s).ev = s.ev := rfl
@[simp] theorem setP_mem (u : UnitId) (n : Pred) (x : BitVec 32) : (setP u n x s).mem = s.mem := rfl
@[simp] theorem setP_memBad (u : UnitId) (n : Pred) (x : BitVec 32) : (setP u n x s).memBad = s.memBad := rfl
@[simp] theorem setP_backing (u : UnitId) (n : Pred) (x : BitVec 32) : (setP u n x s).backing = s.backing := rfl
@[simp] theorem setP_xfers (u : UnitId) (n : Pred) (x : BitVec 32) : (setP u n x s).xfers = s.xfers := rfl
@[simp] theorem setP_msgs (u : UnitId) (n : Pred) (x : BitVec 32) : (setP u n x s).msgs = s.msgs := rfl
@[simp] theorem setP_links (u : UnitId) (n : Pred) (x : BitVec 32) : (setP u n x s).links = s.links := rfl
@[simp] theorem setP_ddr (u : UnitId) (n : Pred) (x : BitVec 32) : (setP u n x s).ddr = s.ddr := rfl
@[simp] theorem setP_focal (u : UnitId) (n : Pred) (x : BitVec 32) : (setP u n x s).focal = s.focal := rfl
@[simp] theorem setP_grid (u : UnitId) (n : Pred) (x : BitVec 32) : (setP u n x s).grid = s.grid := rfl
@[simp] theorem setP_corr (u : UnitId) (n : Pred) (x : BitVec 32) : (setP u n x s).corr = s.corr := rfl
@[simp] theorem setP_engines (u : UnitId) (n : Pred) (x : BitVec 32) : (setP u n x s).engines = s.engines := rfl
@[simp] theorem setP_bands (u : UnitId) (n : Pred) (x : BitVec 32) : (setP u n x s).bands = s.bands := rfl
@[simp] theorem setP_fused (u : UnitId) (n : Pred) (x : BitVec 32) : (setP u n x s).fused = s.fused := rfl
@[simp] theorem setP_csn (u : UnitId) (n : Pred) (x : BitVec 32) : (setP u n x s).csn = s.csn := rfl
@[simp] theorem setP_cal (u : UnitId) (n : Pred) (x : BitVec 32) : (setP u n x s).cal = s.cal := rfl
@[simp] theorem setP_ejt (u : UnitId) (n : Pred) (x : BitVec 32) : (setP u n x s).ejt = s.ejt := rfl
@[simp] theorem setP_nvs (u : UnitId) (n : Pred) (x : BitVec 32) : (setP u n x s).nvs = s.nvs := rfl
@[simp] theorem setP_lum (u : UnitId) (n : Pred) (x : BitVec 32) : (setP u n x s).lum = s.lum := rfl
@[simp] theorem setP_cam (u : UnitId) (n : Pred) (x : BitVec 32) : (setP u n x s).cam = s.cam := rfl
@[simp] theorem setP_sadc (u : UnitId) (n : Pred) (x : BitVec 32) : (setP u n x s).sadc = s.sadc := rfl
@[simp] theorem setP_thm (u : UnitId) (n : Pred) (x : BitVec 32) : (setP u n x s).thm = s.thm := rfl
@[simp] theorem setP_net (u : UnitId) (n : Pred) (x : BitVec 32) : (setP u n x s).net = s.net := rfl
@[simp] theorem setP_sec (u : UnitId) (n : Pred) (x : BitVec 32) : (setP u n x s).sec = s.sec := rfl
@[simp] theorem setP_pending (u : UnitId) (n : Pred) (x : BitVec 32) : (setP u n x s).pending = s.pending := rfl

@[simp] theorem setCode_opt (u : UnitId) (t : Tag) (c : Nat) : (setCode u t c s).opt = s.opt := rfl
@[simp] theorem setCode_mode (u : UnitId) (t : Tag) (c : Nat) : (setCode u t c s).mode = s.mode := rfl
@[simp] theorem setCode_time (u : UnitId) (t : Tag) (c : Nat) : (setCode u t c s).time = s.time := rfl
@[simp] theorem setCode_timeOn (u : UnitId) (t : Tag) (c : Nat) : (setCode u t c s).timeOn = s.timeOn := rfl
@[simp] theorem setCode_tick (u : UnitId) (t : Tag) (c : Nat) : (setCode u t c s).tick = s.tick := rfl
@[simp] theorem setCode_periph (u : UnitId) (t : Tag) (c : Nat) : (setCode u t c s).periph = s.periph := rfl
@[simp] theorem setCode_free (u : UnitId) (t : Tag) (c : Nat) : (setCode u t c s).free = s.free := rfl
@[simp] theorem setCode_pins (u : UnitId) (t : Tag) (c : Nat) : (setCode u t c s).pins = s.pins := rfl
@[simp] theorem setCode_power (u : UnitId) (t : Tag) (c : Nat) : (setCode u t c s).power = s.power := rfl
@[simp] theorem setCode_clock (u : UnitId) (t : Tag) (c : Nat) : (setCode u t c s).clock = s.clock := rfl
@[simp] theorem setCode_boot (u : UnitId) (t : Tag) (c : Nat) : (setCode u t c s).boot = s.boot := rfl
@[simp] theorem setCode_freeze (u : UnitId) (t : Tag) (c : Nat) : (setCode u t c s).freeze = s.freeze := rfl
@[simp] theorem setCode_jtag (u : UnitId) (t : Tag) (c : Nat) : (setCode u t c s).jtag = s.jtag := rfl
@[simp] theorem setCode_status (u : UnitId) (t : Tag) (c : Nat) : (setCode u t c s).status = s.status := rfl
@[simp] theorem setCode_statusBad (u : UnitId) (t : Tag) (c : Nat) : (setCode u t c s).statusBad = s.statusBad := rfl
@[simp] theorem setCode_latches (u : UnitId) (t : Tag) (c : Nat) : (setCode u t c s).latches = s.latches := rfl
@[simp] theorem setCode_ev (u : UnitId) (t : Tag) (c : Nat) : (setCode u t c s).ev = s.ev := rfl
@[simp] theorem setCode_units (u : UnitId) (t : Tag) (c : Nat) : (setCode u t c s).units = s.units := rfl
@[simp] theorem setCode_mem (u : UnitId) (t : Tag) (c : Nat) : (setCode u t c s).mem = s.mem := rfl
@[simp] theorem setCode_memBad (u : UnitId) (t : Tag) (c : Nat) : (setCode u t c s).memBad = s.memBad := rfl
@[simp] theorem setCode_backing (u : UnitId) (t : Tag) (c : Nat) : (setCode u t c s).backing = s.backing := rfl
@[simp] theorem setCode_msgs (u : UnitId) (t : Tag) (c : Nat) : (setCode u t c s).msgs = s.msgs := rfl
@[simp] theorem setCode_links (u : UnitId) (t : Tag) (c : Nat) : (setCode u t c s).links = s.links := rfl
@[simp] theorem setCode_ddr (u : UnitId) (t : Tag) (c : Nat) : (setCode u t c s).ddr = s.ddr := rfl
@[simp] theorem setCode_focal (u : UnitId) (t : Tag) (c : Nat) : (setCode u t c s).focal = s.focal := rfl
@[simp] theorem setCode_grid (u : UnitId) (t : Tag) (c : Nat) : (setCode u t c s).grid = s.grid := rfl
@[simp] theorem setCode_corr (u : UnitId) (t : Tag) (c : Nat) : (setCode u t c s).corr = s.corr := rfl
@[simp] theorem setCode_engines (u : UnitId) (t : Tag) (c : Nat) : (setCode u t c s).engines = s.engines := rfl
@[simp] theorem setCode_bands (u : UnitId) (t : Tag) (c : Nat) : (setCode u t c s).bands = s.bands := rfl
@[simp] theorem setCode_fused (u : UnitId) (t : Tag) (c : Nat) : (setCode u t c s).fused = s.fused := rfl
@[simp] theorem setCode_csn (u : UnitId) (t : Tag) (c : Nat) : (setCode u t c s).csn = s.csn := rfl
@[simp] theorem setCode_cal (u : UnitId) (t : Tag) (c : Nat) : (setCode u t c s).cal = s.cal := rfl
@[simp] theorem setCode_ejt (u : UnitId) (t : Tag) (c : Nat) : (setCode u t c s).ejt = s.ejt := rfl
@[simp] theorem setCode_nvs (u : UnitId) (t : Tag) (c : Nat) : (setCode u t c s).nvs = s.nvs := rfl
@[simp] theorem setCode_lum (u : UnitId) (t : Tag) (c : Nat) : (setCode u t c s).lum = s.lum := rfl
@[simp] theorem setCode_cam (u : UnitId) (t : Tag) (c : Nat) : (setCode u t c s).cam = s.cam := rfl
@[simp] theorem setCode_sadc (u : UnitId) (t : Tag) (c : Nat) : (setCode u t c s).sadc = s.sadc := rfl
@[simp] theorem setCode_thm (u : UnitId) (t : Tag) (c : Nat) : (setCode u t c s).thm = s.thm := rfl
@[simp] theorem setCode_net (u : UnitId) (t : Tag) (c : Nat) : (setCode u t c s).net = s.net := rfl
@[simp] theorem setCode_sec (u : UnitId) (t : Tag) (c : Nat) : (setCode u t c s).sec = s.sec := rfl
@[simp] theorem setCode_pending (u : UnitId) (t : Tag) (c : Nat) : (setCode u t c s).pending = s.pending := rfl

@[simp] theorem modFd_opt (d : Fin 2) (f : FocalDie → FocalDie) : (modFd d f s).opt = s.opt := rfl
@[simp] theorem modFd_mode (d : Fin 2) (f : FocalDie → FocalDie) : (modFd d f s).mode = s.mode := rfl
@[simp] theorem modFd_time (d : Fin 2) (f : FocalDie → FocalDie) : (modFd d f s).time = s.time := rfl
@[simp] theorem modFd_timeOn (d : Fin 2) (f : FocalDie → FocalDie) : (modFd d f s).timeOn = s.timeOn := rfl
@[simp] theorem modFd_tick (d : Fin 2) (f : FocalDie → FocalDie) : (modFd d f s).tick = s.tick := rfl
@[simp] theorem modFd_periph (d : Fin 2) (f : FocalDie → FocalDie) : (modFd d f s).periph = s.periph := rfl
@[simp] theorem modFd_free (d : Fin 2) (f : FocalDie → FocalDie) : (modFd d f s).free = s.free := rfl
@[simp] theorem modFd_pins (d : Fin 2) (f : FocalDie → FocalDie) : (modFd d f s).pins = s.pins := rfl
@[simp] theorem modFd_power (d : Fin 2) (f : FocalDie → FocalDie) : (modFd d f s).power = s.power := rfl
@[simp] theorem modFd_clock (d : Fin 2) (f : FocalDie → FocalDie) : (modFd d f s).clock = s.clock := rfl
@[simp] theorem modFd_boot (d : Fin 2) (f : FocalDie → FocalDie) : (modFd d f s).boot = s.boot := rfl
@[simp] theorem modFd_freeze (d : Fin 2) (f : FocalDie → FocalDie) : (modFd d f s).freeze = s.freeze := rfl
@[simp] theorem modFd_jtag (d : Fin 2) (f : FocalDie → FocalDie) : (modFd d f s).jtag = s.jtag := rfl
@[simp] theorem modFd_status (d : Fin 2) (f : FocalDie → FocalDie) : (modFd d f s).status = s.status := rfl
@[simp] theorem modFd_statusBad (d : Fin 2) (f : FocalDie → FocalDie) : (modFd d f s).statusBad = s.statusBad := rfl
@[simp] theorem modFd_latches (d : Fin 2) (f : FocalDie → FocalDie) : (modFd d f s).latches = s.latches := rfl
@[simp] theorem modFd_ev (d : Fin 2) (f : FocalDie → FocalDie) : (modFd d f s).ev = s.ev := rfl
@[simp] theorem modFd_units (d : Fin 2) (f : FocalDie → FocalDie) : (modFd d f s).units = s.units := rfl
@[simp] theorem modFd_mem (d : Fin 2) (f : FocalDie → FocalDie) : (modFd d f s).mem = s.mem := rfl
@[simp] theorem modFd_memBad (d : Fin 2) (f : FocalDie → FocalDie) : (modFd d f s).memBad = s.memBad := rfl
@[simp] theorem modFd_backing (d : Fin 2) (f : FocalDie → FocalDie) : (modFd d f s).backing = s.backing := rfl
@[simp] theorem modFd_xfers (d : Fin 2) (f : FocalDie → FocalDie) : (modFd d f s).xfers = s.xfers := rfl
@[simp] theorem modFd_msgs (d : Fin 2) (f : FocalDie → FocalDie) : (modFd d f s).msgs = s.msgs := rfl
@[simp] theorem modFd_links (d : Fin 2) (f : FocalDie → FocalDie) : (modFd d f s).links = s.links := rfl
@[simp] theorem modFd_ddr (d : Fin 2) (f : FocalDie → FocalDie) : (modFd d f s).ddr = s.ddr := rfl
@[simp] theorem modFd_grid (d : Fin 2) (f : FocalDie → FocalDie) : (modFd d f s).grid = s.grid := rfl
@[simp] theorem modFd_corr (d : Fin 2) (f : FocalDie → FocalDie) : (modFd d f s).corr = s.corr := rfl
@[simp] theorem modFd_engines (d : Fin 2) (f : FocalDie → FocalDie) : (modFd d f s).engines = s.engines := rfl
@[simp] theorem modFd_bands (d : Fin 2) (f : FocalDie → FocalDie) : (modFd d f s).bands = s.bands := rfl
@[simp] theorem modFd_fused (d : Fin 2) (f : FocalDie → FocalDie) : (modFd d f s).fused = s.fused := rfl
@[simp] theorem modFd_csn (d : Fin 2) (f : FocalDie → FocalDie) : (modFd d f s).csn = s.csn := rfl
@[simp] theorem modFd_cal (d : Fin 2) (f : FocalDie → FocalDie) : (modFd d f s).cal = s.cal := rfl
@[simp] theorem modFd_ejt (d : Fin 2) (f : FocalDie → FocalDie) : (modFd d f s).ejt = s.ejt := rfl
@[simp] theorem modFd_nvs (d : Fin 2) (f : FocalDie → FocalDie) : (modFd d f s).nvs = s.nvs := rfl
@[simp] theorem modFd_lum (d : Fin 2) (f : FocalDie → FocalDie) : (modFd d f s).lum = s.lum := rfl
@[simp] theorem modFd_cam (d : Fin 2) (f : FocalDie → FocalDie) : (modFd d f s).cam = s.cam := rfl
@[simp] theorem modFd_sadc (d : Fin 2) (f : FocalDie → FocalDie) : (modFd d f s).sadc = s.sadc := rfl
@[simp] theorem modFd_thm (d : Fin 2) (f : FocalDie → FocalDie) : (modFd d f s).thm = s.thm := rfl
@[simp] theorem modFd_net (d : Fin 2) (f : FocalDie → FocalDie) : (modFd d f s).net = s.net := rfl
@[simp] theorem modFd_sec (d : Fin 2) (f : FocalDie → FocalDie) : (modFd d f s).sec = s.sec := rfl
@[simp] theorem modFd_pending (d : Fin 2) (f : FocalDie → FocalDie) : (modFd d f s).pending = s.pending := rfl

@[simp] theorem modEng_opt (l : Fin 64) (f : Engine → Engine) : (modEng l f s).opt = s.opt := rfl
@[simp] theorem modEng_mode (l : Fin 64) (f : Engine → Engine) : (modEng l f s).mode = s.mode := rfl
@[simp] theorem modEng_time (l : Fin 64) (f : Engine → Engine) : (modEng l f s).time = s.time := rfl
@[simp] theorem modEng_timeOn (l : Fin 64) (f : Engine → Engine) : (modEng l f s).timeOn = s.timeOn := rfl
@[simp] theorem modEng_tick (l : Fin 64) (f : Engine → Engine) : (modEng l f s).tick = s.tick := rfl
@[simp] theorem modEng_periph (l : Fin 64) (f : Engine → Engine) : (modEng l f s).periph = s.periph := rfl
@[simp] theorem modEng_free (l : Fin 64) (f : Engine → Engine) : (modEng l f s).free = s.free := rfl
@[simp] theorem modEng_pins (l : Fin 64) (f : Engine → Engine) : (modEng l f s).pins = s.pins := rfl
@[simp] theorem modEng_power (l : Fin 64) (f : Engine → Engine) : (modEng l f s).power = s.power := rfl
@[simp] theorem modEng_clock (l : Fin 64) (f : Engine → Engine) : (modEng l f s).clock = s.clock := rfl
@[simp] theorem modEng_boot (l : Fin 64) (f : Engine → Engine) : (modEng l f s).boot = s.boot := rfl
@[simp] theorem modEng_freeze (l : Fin 64) (f : Engine → Engine) : (modEng l f s).freeze = s.freeze := rfl
@[simp] theorem modEng_jtag (l : Fin 64) (f : Engine → Engine) : (modEng l f s).jtag = s.jtag := rfl
@[simp] theorem modEng_status (l : Fin 64) (f : Engine → Engine) : (modEng l f s).status = s.status := rfl
@[simp] theorem modEng_statusBad (l : Fin 64) (f : Engine → Engine) : (modEng l f s).statusBad = s.statusBad := rfl
@[simp] theorem modEng_latches (l : Fin 64) (f : Engine → Engine) : (modEng l f s).latches = s.latches := rfl
@[simp] theorem modEng_ev (l : Fin 64) (f : Engine → Engine) : (modEng l f s).ev = s.ev := rfl
@[simp] theorem modEng_units (l : Fin 64) (f : Engine → Engine) : (modEng l f s).units = s.units := rfl
@[simp] theorem modEng_mem (l : Fin 64) (f : Engine → Engine) : (modEng l f s).mem = s.mem := rfl
@[simp] theorem modEng_memBad (l : Fin 64) (f : Engine → Engine) : (modEng l f s).memBad = s.memBad := rfl
@[simp] theorem modEng_backing (l : Fin 64) (f : Engine → Engine) : (modEng l f s).backing = s.backing := rfl
@[simp] theorem modEng_xfers (l : Fin 64) (f : Engine → Engine) : (modEng l f s).xfers = s.xfers := rfl
@[simp] theorem modEng_msgs (l : Fin 64) (f : Engine → Engine) : (modEng l f s).msgs = s.msgs := rfl
@[simp] theorem modEng_links (l : Fin 64) (f : Engine → Engine) : (modEng l f s).links = s.links := rfl
@[simp] theorem modEng_ddr (l : Fin 64) (f : Engine → Engine) : (modEng l f s).ddr = s.ddr := rfl
@[simp] theorem modEng_focal (l : Fin 64) (f : Engine → Engine) : (modEng l f s).focal = s.focal := rfl
@[simp] theorem modEng_grid (l : Fin 64) (f : Engine → Engine) : (modEng l f s).grid = s.grid := rfl
@[simp] theorem modEng_corr (l : Fin 64) (f : Engine → Engine) : (modEng l f s).corr = s.corr := rfl
@[simp] theorem modEng_bands (l : Fin 64) (f : Engine → Engine) : (modEng l f s).bands = s.bands := rfl
@[simp] theorem modEng_fused (l : Fin 64) (f : Engine → Engine) : (modEng l f s).fused = s.fused := rfl
@[simp] theorem modEng_csn (l : Fin 64) (f : Engine → Engine) : (modEng l f s).csn = s.csn := rfl
@[simp] theorem modEng_cal (l : Fin 64) (f : Engine → Engine) : (modEng l f s).cal = s.cal := rfl
@[simp] theorem modEng_ejt (l : Fin 64) (f : Engine → Engine) : (modEng l f s).ejt = s.ejt := rfl
@[simp] theorem modEng_nvs (l : Fin 64) (f : Engine → Engine) : (modEng l f s).nvs = s.nvs := rfl
@[simp] theorem modEng_lum (l : Fin 64) (f : Engine → Engine) : (modEng l f s).lum = s.lum := rfl
@[simp] theorem modEng_cam (l : Fin 64) (f : Engine → Engine) : (modEng l f s).cam = s.cam := rfl
@[simp] theorem modEng_sadc (l : Fin 64) (f : Engine → Engine) : (modEng l f s).sadc = s.sadc := rfl
@[simp] theorem modEng_thm (l : Fin 64) (f : Engine → Engine) : (modEng l f s).thm = s.thm := rfl
@[simp] theorem modEng_net (l : Fin 64) (f : Engine → Engine) : (modEng l f s).net = s.net := rfl
@[simp] theorem modEng_sec (l : Fin 64) (f : Engine → Engine) : (modEng l f s).sec = s.sec := rfl
@[simp] theorem modEng_pending (l : Fin 64) (f : Engine → Engine) : (modEng l f s).pending = s.pending := rfl

@[simp] theorem modBand_opt (b : Fin 16) (f : Band → Band) : (modBand b f s).opt = s.opt := rfl
@[simp] theorem modBand_mode (b : Fin 16) (f : Band → Band) : (modBand b f s).mode = s.mode := rfl
@[simp] theorem modBand_time (b : Fin 16) (f : Band → Band) : (modBand b f s).time = s.time := rfl
@[simp] theorem modBand_timeOn (b : Fin 16) (f : Band → Band) : (modBand b f s).timeOn = s.timeOn := rfl
@[simp] theorem modBand_tick (b : Fin 16) (f : Band → Band) : (modBand b f s).tick = s.tick := rfl
@[simp] theorem modBand_periph (b : Fin 16) (f : Band → Band) : (modBand b f s).periph = s.periph := rfl
@[simp] theorem modBand_free (b : Fin 16) (f : Band → Band) : (modBand b f s).free = s.free := rfl
@[simp] theorem modBand_pins (b : Fin 16) (f : Band → Band) : (modBand b f s).pins = s.pins := rfl
@[simp] theorem modBand_power (b : Fin 16) (f : Band → Band) : (modBand b f s).power = s.power := rfl
@[simp] theorem modBand_clock (b : Fin 16) (f : Band → Band) : (modBand b f s).clock = s.clock := rfl
@[simp] theorem modBand_boot (b : Fin 16) (f : Band → Band) : (modBand b f s).boot = s.boot := rfl
@[simp] theorem modBand_freeze (b : Fin 16) (f : Band → Band) : (modBand b f s).freeze = s.freeze := rfl
@[simp] theorem modBand_jtag (b : Fin 16) (f : Band → Band) : (modBand b f s).jtag = s.jtag := rfl
@[simp] theorem modBand_status (b : Fin 16) (f : Band → Band) : (modBand b f s).status = s.status := rfl
@[simp] theorem modBand_statusBad (b : Fin 16) (f : Band → Band) : (modBand b f s).statusBad = s.statusBad := rfl
@[simp] theorem modBand_latches (b : Fin 16) (f : Band → Band) : (modBand b f s).latches = s.latches := rfl
@[simp] theorem modBand_ev (b : Fin 16) (f : Band → Band) : (modBand b f s).ev = s.ev := rfl
@[simp] theorem modBand_units (b : Fin 16) (f : Band → Band) : (modBand b f s).units = s.units := rfl
@[simp] theorem modBand_mem (b : Fin 16) (f : Band → Band) : (modBand b f s).mem = s.mem := rfl
@[simp] theorem modBand_memBad (b : Fin 16) (f : Band → Band) : (modBand b f s).memBad = s.memBad := rfl
@[simp] theorem modBand_backing (b : Fin 16) (f : Band → Band) : (modBand b f s).backing = s.backing := rfl
@[simp] theorem modBand_xfers (b : Fin 16) (f : Band → Band) : (modBand b f s).xfers = s.xfers := rfl
@[simp] theorem modBand_msgs (b : Fin 16) (f : Band → Band) : (modBand b f s).msgs = s.msgs := rfl
@[simp] theorem modBand_links (b : Fin 16) (f : Band → Band) : (modBand b f s).links = s.links := rfl
@[simp] theorem modBand_ddr (b : Fin 16) (f : Band → Band) : (modBand b f s).ddr = s.ddr := rfl
@[simp] theorem modBand_focal (b : Fin 16) (f : Band → Band) : (modBand b f s).focal = s.focal := rfl
@[simp] theorem modBand_grid (b : Fin 16) (f : Band → Band) : (modBand b f s).grid = s.grid := rfl
@[simp] theorem modBand_corr (b : Fin 16) (f : Band → Band) : (modBand b f s).corr = s.corr := rfl
@[simp] theorem modBand_engines (b : Fin 16) (f : Band → Band) : (modBand b f s).engines = s.engines := rfl
@[simp] theorem modBand_fused (b : Fin 16) (f : Band → Band) : (modBand b f s).fused = s.fused := rfl
@[simp] theorem modBand_csn (b : Fin 16) (f : Band → Band) : (modBand b f s).csn = s.csn := rfl
@[simp] theorem modBand_cal (b : Fin 16) (f : Band → Band) : (modBand b f s).cal = s.cal := rfl
@[simp] theorem modBand_ejt (b : Fin 16) (f : Band → Band) : (modBand b f s).ejt = s.ejt := rfl
@[simp] theorem modBand_nvs (b : Fin 16) (f : Band → Band) : (modBand b f s).nvs = s.nvs := rfl
@[simp] theorem modBand_lum (b : Fin 16) (f : Band → Band) : (modBand b f s).lum = s.lum := rfl
@[simp] theorem modBand_cam (b : Fin 16) (f : Band → Band) : (modBand b f s).cam = s.cam := rfl
@[simp] theorem modBand_sadc (b : Fin 16) (f : Band → Band) : (modBand b f s).sadc = s.sadc := rfl
@[simp] theorem modBand_thm (b : Fin 16) (f : Band → Band) : (modBand b f s).thm = s.thm := rfl
@[simp] theorem modBand_net (b : Fin 16) (f : Band → Band) : (modBand b f s).net = s.net := rfl
@[simp] theorem modBand_sec (b : Fin 16) (f : Band → Band) : (modBand b f s).sec = s.sec := rfl
@[simp] theorem modBand_pending (b : Fin 16) (f : Band → Band) : (modBand b f s).pending = s.pending := rfl

@[simp] theorem modCsn_opt (d : Fin 2) (f : CsnEngine → CsnEngine) : (modCsn d f s).opt = s.opt := rfl
@[simp] theorem modCsn_mode (d : Fin 2) (f : CsnEngine → CsnEngine) : (modCsn d f s).mode = s.mode := rfl
@[simp] theorem modCsn_time (d : Fin 2) (f : CsnEngine → CsnEngine) : (modCsn d f s).time = s.time := rfl
@[simp] theorem modCsn_timeOn (d : Fin 2) (f : CsnEngine → CsnEngine) : (modCsn d f s).timeOn = s.timeOn := rfl
@[simp] theorem modCsn_tick (d : Fin 2) (f : CsnEngine → CsnEngine) : (modCsn d f s).tick = s.tick := rfl
@[simp] theorem modCsn_periph (d : Fin 2) (f : CsnEngine → CsnEngine) : (modCsn d f s).periph = s.periph := rfl
@[simp] theorem modCsn_free (d : Fin 2) (f : CsnEngine → CsnEngine) : (modCsn d f s).free = s.free := rfl
@[simp] theorem modCsn_pins (d : Fin 2) (f : CsnEngine → CsnEngine) : (modCsn d f s).pins = s.pins := rfl
@[simp] theorem modCsn_power (d : Fin 2) (f : CsnEngine → CsnEngine) : (modCsn d f s).power = s.power := rfl
@[simp] theorem modCsn_clock (d : Fin 2) (f : CsnEngine → CsnEngine) : (modCsn d f s).clock = s.clock := rfl
@[simp] theorem modCsn_boot (d : Fin 2) (f : CsnEngine → CsnEngine) : (modCsn d f s).boot = s.boot := rfl
@[simp] theorem modCsn_freeze (d : Fin 2) (f : CsnEngine → CsnEngine) : (modCsn d f s).freeze = s.freeze := rfl
@[simp] theorem modCsn_jtag (d : Fin 2) (f : CsnEngine → CsnEngine) : (modCsn d f s).jtag = s.jtag := rfl
@[simp] theorem modCsn_status (d : Fin 2) (f : CsnEngine → CsnEngine) : (modCsn d f s).status = s.status := rfl
@[simp] theorem modCsn_statusBad (d : Fin 2) (f : CsnEngine → CsnEngine) : (modCsn d f s).statusBad = s.statusBad := rfl
@[simp] theorem modCsn_latches (d : Fin 2) (f : CsnEngine → CsnEngine) : (modCsn d f s).latches = s.latches := rfl
@[simp] theorem modCsn_ev (d : Fin 2) (f : CsnEngine → CsnEngine) : (modCsn d f s).ev = s.ev := rfl
@[simp] theorem modCsn_units (d : Fin 2) (f : CsnEngine → CsnEngine) : (modCsn d f s).units = s.units := rfl
@[simp] theorem modCsn_mem (d : Fin 2) (f : CsnEngine → CsnEngine) : (modCsn d f s).mem = s.mem := rfl
@[simp] theorem modCsn_memBad (d : Fin 2) (f : CsnEngine → CsnEngine) : (modCsn d f s).memBad = s.memBad := rfl
@[simp] theorem modCsn_backing (d : Fin 2) (f : CsnEngine → CsnEngine) : (modCsn d f s).backing = s.backing := rfl
@[simp] theorem modCsn_xfers (d : Fin 2) (f : CsnEngine → CsnEngine) : (modCsn d f s).xfers = s.xfers := rfl
@[simp] theorem modCsn_msgs (d : Fin 2) (f : CsnEngine → CsnEngine) : (modCsn d f s).msgs = s.msgs := rfl
@[simp] theorem modCsn_links (d : Fin 2) (f : CsnEngine → CsnEngine) : (modCsn d f s).links = s.links := rfl
@[simp] theorem modCsn_ddr (d : Fin 2) (f : CsnEngine → CsnEngine) : (modCsn d f s).ddr = s.ddr := rfl
@[simp] theorem modCsn_focal (d : Fin 2) (f : CsnEngine → CsnEngine) : (modCsn d f s).focal = s.focal := rfl
@[simp] theorem modCsn_grid (d : Fin 2) (f : CsnEngine → CsnEngine) : (modCsn d f s).grid = s.grid := rfl
@[simp] theorem modCsn_corr (d : Fin 2) (f : CsnEngine → CsnEngine) : (modCsn d f s).corr = s.corr := rfl
@[simp] theorem modCsn_engines (d : Fin 2) (f : CsnEngine → CsnEngine) : (modCsn d f s).engines = s.engines := rfl
@[simp] theorem modCsn_bands (d : Fin 2) (f : CsnEngine → CsnEngine) : (modCsn d f s).bands = s.bands := rfl
@[simp] theorem modCsn_fused (d : Fin 2) (f : CsnEngine → CsnEngine) : (modCsn d f s).fused = s.fused := rfl
@[simp] theorem modCsn_cal (d : Fin 2) (f : CsnEngine → CsnEngine) : (modCsn d f s).cal = s.cal := rfl
@[simp] theorem modCsn_ejt (d : Fin 2) (f : CsnEngine → CsnEngine) : (modCsn d f s).ejt = s.ejt := rfl
@[simp] theorem modCsn_nvs (d : Fin 2) (f : CsnEngine → CsnEngine) : (modCsn d f s).nvs = s.nvs := rfl
@[simp] theorem modCsn_lum (d : Fin 2) (f : CsnEngine → CsnEngine) : (modCsn d f s).lum = s.lum := rfl
@[simp] theorem modCsn_cam (d : Fin 2) (f : CsnEngine → CsnEngine) : (modCsn d f s).cam = s.cam := rfl
@[simp] theorem modCsn_sadc (d : Fin 2) (f : CsnEngine → CsnEngine) : (modCsn d f s).sadc = s.sadc := rfl
@[simp] theorem modCsn_thm (d : Fin 2) (f : CsnEngine → CsnEngine) : (modCsn d f s).thm = s.thm := rfl
@[simp] theorem modCsn_net (d : Fin 2) (f : CsnEngine → CsnEngine) : (modCsn d f s).net = s.net := rfl
@[simp] theorem modCsn_sec (d : Fin 2) (f : CsnEngine → CsnEngine) : (modCsn d f s).sec = s.sec := rfl
@[simp] theorem modCsn_pending (d : Fin 2) (f : CsnEngine → CsnEngine) : (modCsn d f s).pending = s.pending := rfl

@[simp] theorem modCorr_opt (d : Fin 2) (f : CorrDie → CorrDie) : (modCorr d f s).opt = s.opt := rfl
@[simp] theorem modCorr_mode (d : Fin 2) (f : CorrDie → CorrDie) : (modCorr d f s).mode = s.mode := rfl
@[simp] theorem modCorr_time (d : Fin 2) (f : CorrDie → CorrDie) : (modCorr d f s).time = s.time := rfl
@[simp] theorem modCorr_timeOn (d : Fin 2) (f : CorrDie → CorrDie) : (modCorr d f s).timeOn = s.timeOn := rfl
@[simp] theorem modCorr_tick (d : Fin 2) (f : CorrDie → CorrDie) : (modCorr d f s).tick = s.tick := rfl
@[simp] theorem modCorr_periph (d : Fin 2) (f : CorrDie → CorrDie) : (modCorr d f s).periph = s.periph := rfl
@[simp] theorem modCorr_free (d : Fin 2) (f : CorrDie → CorrDie) : (modCorr d f s).free = s.free := rfl
@[simp] theorem modCorr_pins (d : Fin 2) (f : CorrDie → CorrDie) : (modCorr d f s).pins = s.pins := rfl
@[simp] theorem modCorr_power (d : Fin 2) (f : CorrDie → CorrDie) : (modCorr d f s).power = s.power := rfl
@[simp] theorem modCorr_clock (d : Fin 2) (f : CorrDie → CorrDie) : (modCorr d f s).clock = s.clock := rfl
@[simp] theorem modCorr_boot (d : Fin 2) (f : CorrDie → CorrDie) : (modCorr d f s).boot = s.boot := rfl
@[simp] theorem modCorr_freeze (d : Fin 2) (f : CorrDie → CorrDie) : (modCorr d f s).freeze = s.freeze := rfl
@[simp] theorem modCorr_jtag (d : Fin 2) (f : CorrDie → CorrDie) : (modCorr d f s).jtag = s.jtag := rfl
@[simp] theorem modCorr_status (d : Fin 2) (f : CorrDie → CorrDie) : (modCorr d f s).status = s.status := rfl
@[simp] theorem modCorr_statusBad (d : Fin 2) (f : CorrDie → CorrDie) : (modCorr d f s).statusBad = s.statusBad := rfl
@[simp] theorem modCorr_latches (d : Fin 2) (f : CorrDie → CorrDie) : (modCorr d f s).latches = s.latches := rfl
@[simp] theorem modCorr_ev (d : Fin 2) (f : CorrDie → CorrDie) : (modCorr d f s).ev = s.ev := rfl
@[simp] theorem modCorr_units (d : Fin 2) (f : CorrDie → CorrDie) : (modCorr d f s).units = s.units := rfl
@[simp] theorem modCorr_mem (d : Fin 2) (f : CorrDie → CorrDie) : (modCorr d f s).mem = s.mem := rfl
@[simp] theorem modCorr_memBad (d : Fin 2) (f : CorrDie → CorrDie) : (modCorr d f s).memBad = s.memBad := rfl
@[simp] theorem modCorr_backing (d : Fin 2) (f : CorrDie → CorrDie) : (modCorr d f s).backing = s.backing := rfl
@[simp] theorem modCorr_xfers (d : Fin 2) (f : CorrDie → CorrDie) : (modCorr d f s).xfers = s.xfers := rfl
@[simp] theorem modCorr_msgs (d : Fin 2) (f : CorrDie → CorrDie) : (modCorr d f s).msgs = s.msgs := rfl
@[simp] theorem modCorr_links (d : Fin 2) (f : CorrDie → CorrDie) : (modCorr d f s).links = s.links := rfl
@[simp] theorem modCorr_ddr (d : Fin 2) (f : CorrDie → CorrDie) : (modCorr d f s).ddr = s.ddr := rfl
@[simp] theorem modCorr_focal (d : Fin 2) (f : CorrDie → CorrDie) : (modCorr d f s).focal = s.focal := rfl
@[simp] theorem modCorr_grid (d : Fin 2) (f : CorrDie → CorrDie) : (modCorr d f s).grid = s.grid := rfl
@[simp] theorem modCorr_engines (d : Fin 2) (f : CorrDie → CorrDie) : (modCorr d f s).engines = s.engines := rfl
@[simp] theorem modCorr_bands (d : Fin 2) (f : CorrDie → CorrDie) : (modCorr d f s).bands = s.bands := rfl
@[simp] theorem modCorr_fused (d : Fin 2) (f : CorrDie → CorrDie) : (modCorr d f s).fused = s.fused := rfl
@[simp] theorem modCorr_csn (d : Fin 2) (f : CorrDie → CorrDie) : (modCorr d f s).csn = s.csn := rfl
@[simp] theorem modCorr_cal (d : Fin 2) (f : CorrDie → CorrDie) : (modCorr d f s).cal = s.cal := rfl
@[simp] theorem modCorr_ejt (d : Fin 2) (f : CorrDie → CorrDie) : (modCorr d f s).ejt = s.ejt := rfl
@[simp] theorem modCorr_nvs (d : Fin 2) (f : CorrDie → CorrDie) : (modCorr d f s).nvs = s.nvs := rfl
@[simp] theorem modCorr_lum (d : Fin 2) (f : CorrDie → CorrDie) : (modCorr d f s).lum = s.lum := rfl
@[simp] theorem modCorr_cam (d : Fin 2) (f : CorrDie → CorrDie) : (modCorr d f s).cam = s.cam := rfl
@[simp] theorem modCorr_sadc (d : Fin 2) (f : CorrDie → CorrDie) : (modCorr d f s).sadc = s.sadc := rfl
@[simp] theorem modCorr_thm (d : Fin 2) (f : CorrDie → CorrDie) : (modCorr d f s).thm = s.thm := rfl
@[simp] theorem modCorr_net (d : Fin 2) (f : CorrDie → CorrDie) : (modCorr d f s).net = s.net := rfl
@[simp] theorem modCorr_sec (d : Fin 2) (f : CorrDie → CorrDie) : (modCorr d f s).sec = s.sec := rfl
@[simp] theorem modCorr_pending (d : Fin 2) (f : CorrDie → CorrDie) : (modCorr d f s).pending = s.pending := rfl

@[simp] theorem modCal_opt (f : CalPart → CalPart) : (modCal f s).opt = s.opt := rfl
@[simp] theorem modCal_mode (f : CalPart → CalPart) : (modCal f s).mode = s.mode := rfl
@[simp] theorem modCal_time (f : CalPart → CalPart) : (modCal f s).time = s.time := rfl
@[simp] theorem modCal_timeOn (f : CalPart → CalPart) : (modCal f s).timeOn = s.timeOn := rfl
@[simp] theorem modCal_tick (f : CalPart → CalPart) : (modCal f s).tick = s.tick := rfl
@[simp] theorem modCal_periph (f : CalPart → CalPart) : (modCal f s).periph = s.periph := rfl
@[simp] theorem modCal_free (f : CalPart → CalPart) : (modCal f s).free = s.free := rfl
@[simp] theorem modCal_pins (f : CalPart → CalPart) : (modCal f s).pins = s.pins := rfl
@[simp] theorem modCal_power (f : CalPart → CalPart) : (modCal f s).power = s.power := rfl
@[simp] theorem modCal_clock (f : CalPart → CalPart) : (modCal f s).clock = s.clock := rfl
@[simp] theorem modCal_boot (f : CalPart → CalPart) : (modCal f s).boot = s.boot := rfl
@[simp] theorem modCal_freeze (f : CalPart → CalPart) : (modCal f s).freeze = s.freeze := rfl
@[simp] theorem modCal_jtag (f : CalPart → CalPart) : (modCal f s).jtag = s.jtag := rfl
@[simp] theorem modCal_status (f : CalPart → CalPart) : (modCal f s).status = s.status := rfl
@[simp] theorem modCal_statusBad (f : CalPart → CalPart) : (modCal f s).statusBad = s.statusBad := rfl
@[simp] theorem modCal_latches (f : CalPart → CalPart) : (modCal f s).latches = s.latches := rfl
@[simp] theorem modCal_ev (f : CalPart → CalPart) : (modCal f s).ev = s.ev := rfl
@[simp] theorem modCal_units (f : CalPart → CalPart) : (modCal f s).units = s.units := rfl
@[simp] theorem modCal_mem (f : CalPart → CalPart) : (modCal f s).mem = s.mem := rfl
@[simp] theorem modCal_memBad (f : CalPart → CalPart) : (modCal f s).memBad = s.memBad := rfl
@[simp] theorem modCal_backing (f : CalPart → CalPart) : (modCal f s).backing = s.backing := rfl
@[simp] theorem modCal_xfers (f : CalPart → CalPart) : (modCal f s).xfers = s.xfers := rfl
@[simp] theorem modCal_msgs (f : CalPart → CalPart) : (modCal f s).msgs = s.msgs := rfl
@[simp] theorem modCal_links (f : CalPart → CalPart) : (modCal f s).links = s.links := rfl
@[simp] theorem modCal_ddr (f : CalPart → CalPart) : (modCal f s).ddr = s.ddr := rfl
@[simp] theorem modCal_focal (f : CalPart → CalPart) : (modCal f s).focal = s.focal := rfl
@[simp] theorem modCal_grid (f : CalPart → CalPart) : (modCal f s).grid = s.grid := rfl
@[simp] theorem modCal_corr (f : CalPart → CalPart) : (modCal f s).corr = s.corr := rfl
@[simp] theorem modCal_engines (f : CalPart → CalPart) : (modCal f s).engines = s.engines := rfl
@[simp] theorem modCal_bands (f : CalPart → CalPart) : (modCal f s).bands = s.bands := rfl
@[simp] theorem modCal_fused (f : CalPart → CalPart) : (modCal f s).fused = s.fused := rfl
@[simp] theorem modCal_csn (f : CalPart → CalPart) : (modCal f s).csn = s.csn := rfl
@[simp] theorem modCal_ejt (f : CalPart → CalPart) : (modCal f s).ejt = s.ejt := rfl
@[simp] theorem modCal_nvs (f : CalPart → CalPart) : (modCal f s).nvs = s.nvs := rfl
@[simp] theorem modCal_lum (f : CalPart → CalPart) : (modCal f s).lum = s.lum := rfl
@[simp] theorem modCal_cam (f : CalPart → CalPart) : (modCal f s).cam = s.cam := rfl
@[simp] theorem modCal_sadc (f : CalPart → CalPart) : (modCal f s).sadc = s.sadc := rfl
@[simp] theorem modCal_thm (f : CalPart → CalPart) : (modCal f s).thm = s.thm := rfl
@[simp] theorem modCal_net (f : CalPart → CalPart) : (modCal f s).net = s.net := rfl
@[simp] theorem modCal_sec (f : CalPart → CalPart) : (modCal f s).sec = s.sec := rfl
@[simp] theorem modCal_pending (f : CalPart → CalPart) : (modCal f s).pending = s.pending := rfl

@[simp] theorem modChan_opt (v : Valve) (f : Chan → Chan) : (modChan v f s).opt = s.opt := rfl
@[simp] theorem modChan_mode (v : Valve) (f : Chan → Chan) : (modChan v f s).mode = s.mode := rfl
@[simp] theorem modChan_time (v : Valve) (f : Chan → Chan) : (modChan v f s).time = s.time := rfl
@[simp] theorem modChan_timeOn (v : Valve) (f : Chan → Chan) : (modChan v f s).timeOn = s.timeOn := rfl
@[simp] theorem modChan_tick (v : Valve) (f : Chan → Chan) : (modChan v f s).tick = s.tick := rfl
@[simp] theorem modChan_periph (v : Valve) (f : Chan → Chan) : (modChan v f s).periph = s.periph := rfl
@[simp] theorem modChan_free (v : Valve) (f : Chan → Chan) : (modChan v f s).free = s.free := rfl
@[simp] theorem modChan_pins (v : Valve) (f : Chan → Chan) : (modChan v f s).pins = s.pins := rfl
@[simp] theorem modChan_power (v : Valve) (f : Chan → Chan) : (modChan v f s).power = s.power := rfl
@[simp] theorem modChan_clock (v : Valve) (f : Chan → Chan) : (modChan v f s).clock = s.clock := rfl
@[simp] theorem modChan_boot (v : Valve) (f : Chan → Chan) : (modChan v f s).boot = s.boot := rfl
@[simp] theorem modChan_freeze (v : Valve) (f : Chan → Chan) : (modChan v f s).freeze = s.freeze := rfl
@[simp] theorem modChan_jtag (v : Valve) (f : Chan → Chan) : (modChan v f s).jtag = s.jtag := rfl
@[simp] theorem modChan_status (v : Valve) (f : Chan → Chan) : (modChan v f s).status = s.status := rfl
@[simp] theorem modChan_statusBad (v : Valve) (f : Chan → Chan) : (modChan v f s).statusBad = s.statusBad := rfl
@[simp] theorem modChan_latches (v : Valve) (f : Chan → Chan) : (modChan v f s).latches = s.latches := rfl
@[simp] theorem modChan_ev (v : Valve) (f : Chan → Chan) : (modChan v f s).ev = s.ev := rfl
@[simp] theorem modChan_units (v : Valve) (f : Chan → Chan) : (modChan v f s).units = s.units := rfl
@[simp] theorem modChan_mem (v : Valve) (f : Chan → Chan) : (modChan v f s).mem = s.mem := rfl
@[simp] theorem modChan_memBad (v : Valve) (f : Chan → Chan) : (modChan v f s).memBad = s.memBad := rfl
@[simp] theorem modChan_backing (v : Valve) (f : Chan → Chan) : (modChan v f s).backing = s.backing := rfl
@[simp] theorem modChan_xfers (v : Valve) (f : Chan → Chan) : (modChan v f s).xfers = s.xfers := rfl
@[simp] theorem modChan_msgs (v : Valve) (f : Chan → Chan) : (modChan v f s).msgs = s.msgs := rfl
@[simp] theorem modChan_links (v : Valve) (f : Chan → Chan) : (modChan v f s).links = s.links := rfl
@[simp] theorem modChan_ddr (v : Valve) (f : Chan → Chan) : (modChan v f s).ddr = s.ddr := rfl
@[simp] theorem modChan_focal (v : Valve) (f : Chan → Chan) : (modChan v f s).focal = s.focal := rfl
@[simp] theorem modChan_grid (v : Valve) (f : Chan → Chan) : (modChan v f s).grid = s.grid := rfl
@[simp] theorem modChan_corr (v : Valve) (f : Chan → Chan) : (modChan v f s).corr = s.corr := rfl
@[simp] theorem modChan_engines (v : Valve) (f : Chan → Chan) : (modChan v f s).engines = s.engines := rfl
@[simp] theorem modChan_bands (v : Valve) (f : Chan → Chan) : (modChan v f s).bands = s.bands := rfl
@[simp] theorem modChan_fused (v : Valve) (f : Chan → Chan) : (modChan v f s).fused = s.fused := rfl
@[simp] theorem modChan_csn (v : Valve) (f : Chan → Chan) : (modChan v f s).csn = s.csn := rfl
@[simp] theorem modChan_cal (v : Valve) (f : Chan → Chan) : (modChan v f s).cal = s.cal := rfl
@[simp] theorem modChan_nvs (v : Valve) (f : Chan → Chan) : (modChan v f s).nvs = s.nvs := rfl
@[simp] theorem modChan_lum (v : Valve) (f : Chan → Chan) : (modChan v f s).lum = s.lum := rfl
@[simp] theorem modChan_cam (v : Valve) (f : Chan → Chan) : (modChan v f s).cam = s.cam := rfl
@[simp] theorem modChan_sadc (v : Valve) (f : Chan → Chan) : (modChan v f s).sadc = s.sadc := rfl
@[simp] theorem modChan_thm (v : Valve) (f : Chan → Chan) : (modChan v f s).thm = s.thm := rfl
@[simp] theorem modChan_net (v : Valve) (f : Chan → Chan) : (modChan v f s).net = s.net := rfl
@[simp] theorem modChan_sec (v : Valve) (f : Chan → Chan) : (modChan v f s).sec = s.sec := rfl
@[simp] theorem modChan_pending (v : Valve) (f : Chan → Chan) : (modChan v f s).pending = s.pending := rfl

@[simp] theorem modEjt_opt (d : Fin 2) (f : EjtDie → EjtDie) : (modEjt d f s).opt = s.opt := rfl
@[simp] theorem modEjt_mode (d : Fin 2) (f : EjtDie → EjtDie) : (modEjt d f s).mode = s.mode := rfl
@[simp] theorem modEjt_time (d : Fin 2) (f : EjtDie → EjtDie) : (modEjt d f s).time = s.time := rfl
@[simp] theorem modEjt_timeOn (d : Fin 2) (f : EjtDie → EjtDie) : (modEjt d f s).timeOn = s.timeOn := rfl
@[simp] theorem modEjt_tick (d : Fin 2) (f : EjtDie → EjtDie) : (modEjt d f s).tick = s.tick := rfl
@[simp] theorem modEjt_periph (d : Fin 2) (f : EjtDie → EjtDie) : (modEjt d f s).periph = s.periph := rfl
@[simp] theorem modEjt_free (d : Fin 2) (f : EjtDie → EjtDie) : (modEjt d f s).free = s.free := rfl
@[simp] theorem modEjt_pins (d : Fin 2) (f : EjtDie → EjtDie) : (modEjt d f s).pins = s.pins := rfl
@[simp] theorem modEjt_power (d : Fin 2) (f : EjtDie → EjtDie) : (modEjt d f s).power = s.power := rfl
@[simp] theorem modEjt_clock (d : Fin 2) (f : EjtDie → EjtDie) : (modEjt d f s).clock = s.clock := rfl
@[simp] theorem modEjt_boot (d : Fin 2) (f : EjtDie → EjtDie) : (modEjt d f s).boot = s.boot := rfl
@[simp] theorem modEjt_freeze (d : Fin 2) (f : EjtDie → EjtDie) : (modEjt d f s).freeze = s.freeze := rfl
@[simp] theorem modEjt_jtag (d : Fin 2) (f : EjtDie → EjtDie) : (modEjt d f s).jtag = s.jtag := rfl
@[simp] theorem modEjt_status (d : Fin 2) (f : EjtDie → EjtDie) : (modEjt d f s).status = s.status := rfl
@[simp] theorem modEjt_statusBad (d : Fin 2) (f : EjtDie → EjtDie) : (modEjt d f s).statusBad = s.statusBad := rfl
@[simp] theorem modEjt_latches (d : Fin 2) (f : EjtDie → EjtDie) : (modEjt d f s).latches = s.latches := rfl
@[simp] theorem modEjt_ev (d : Fin 2) (f : EjtDie → EjtDie) : (modEjt d f s).ev = s.ev := rfl
@[simp] theorem modEjt_units (d : Fin 2) (f : EjtDie → EjtDie) : (modEjt d f s).units = s.units := rfl
@[simp] theorem modEjt_mem (d : Fin 2) (f : EjtDie → EjtDie) : (modEjt d f s).mem = s.mem := rfl
@[simp] theorem modEjt_memBad (d : Fin 2) (f : EjtDie → EjtDie) : (modEjt d f s).memBad = s.memBad := rfl
@[simp] theorem modEjt_backing (d : Fin 2) (f : EjtDie → EjtDie) : (modEjt d f s).backing = s.backing := rfl
@[simp] theorem modEjt_xfers (d : Fin 2) (f : EjtDie → EjtDie) : (modEjt d f s).xfers = s.xfers := rfl
@[simp] theorem modEjt_msgs (d : Fin 2) (f : EjtDie → EjtDie) : (modEjt d f s).msgs = s.msgs := rfl
@[simp] theorem modEjt_links (d : Fin 2) (f : EjtDie → EjtDie) : (modEjt d f s).links = s.links := rfl
@[simp] theorem modEjt_ddr (d : Fin 2) (f : EjtDie → EjtDie) : (modEjt d f s).ddr = s.ddr := rfl
@[simp] theorem modEjt_focal (d : Fin 2) (f : EjtDie → EjtDie) : (modEjt d f s).focal = s.focal := rfl
@[simp] theorem modEjt_grid (d : Fin 2) (f : EjtDie → EjtDie) : (modEjt d f s).grid = s.grid := rfl
@[simp] theorem modEjt_corr (d : Fin 2) (f : EjtDie → EjtDie) : (modEjt d f s).corr = s.corr := rfl
@[simp] theorem modEjt_engines (d : Fin 2) (f : EjtDie → EjtDie) : (modEjt d f s).engines = s.engines := rfl
@[simp] theorem modEjt_bands (d : Fin 2) (f : EjtDie → EjtDie) : (modEjt d f s).bands = s.bands := rfl
@[simp] theorem modEjt_fused (d : Fin 2) (f : EjtDie → EjtDie) : (modEjt d f s).fused = s.fused := rfl
@[simp] theorem modEjt_csn (d : Fin 2) (f : EjtDie → EjtDie) : (modEjt d f s).csn = s.csn := rfl
@[simp] theorem modEjt_cal (d : Fin 2) (f : EjtDie → EjtDie) : (modEjt d f s).cal = s.cal := rfl
@[simp] theorem modEjt_nvs (d : Fin 2) (f : EjtDie → EjtDie) : (modEjt d f s).nvs = s.nvs := rfl
@[simp] theorem modEjt_lum (d : Fin 2) (f : EjtDie → EjtDie) : (modEjt d f s).lum = s.lum := rfl
@[simp] theorem modEjt_cam (d : Fin 2) (f : EjtDie → EjtDie) : (modEjt d f s).cam = s.cam := rfl
@[simp] theorem modEjt_sadc (d : Fin 2) (f : EjtDie → EjtDie) : (modEjt d f s).sadc = s.sadc := rfl
@[simp] theorem modEjt_thm (d : Fin 2) (f : EjtDie → EjtDie) : (modEjt d f s).thm = s.thm := rfl
@[simp] theorem modEjt_net (d : Fin 2) (f : EjtDie → EjtDie) : (modEjt d f s).net = s.net := rfl
@[simp] theorem modEjt_sec (d : Fin 2) (f : EjtDie → EjtDie) : (modEjt d f s).sec = s.sec := rfl
@[simp] theorem modEjt_pending (d : Fin 2) (f : EjtDie → EjtDie) : (modEjt d f s).pending = s.pending := rfl

@[simp] theorem modNvs_opt (f : NvsPart → NvsPart) : (modNvs f s).opt = s.opt := rfl
@[simp] theorem modNvs_mode (f : NvsPart → NvsPart) : (modNvs f s).mode = s.mode := rfl
@[simp] theorem modNvs_time (f : NvsPart → NvsPart) : (modNvs f s).time = s.time := rfl
@[simp] theorem modNvs_timeOn (f : NvsPart → NvsPart) : (modNvs f s).timeOn = s.timeOn := rfl
@[simp] theorem modNvs_tick (f : NvsPart → NvsPart) : (modNvs f s).tick = s.tick := rfl
@[simp] theorem modNvs_periph (f : NvsPart → NvsPart) : (modNvs f s).periph = s.periph := rfl
@[simp] theorem modNvs_free (f : NvsPart → NvsPart) : (modNvs f s).free = s.free := rfl
@[simp] theorem modNvs_pins (f : NvsPart → NvsPart) : (modNvs f s).pins = s.pins := rfl
@[simp] theorem modNvs_power (f : NvsPart → NvsPart) : (modNvs f s).power = s.power := rfl
@[simp] theorem modNvs_clock (f : NvsPart → NvsPart) : (modNvs f s).clock = s.clock := rfl
@[simp] theorem modNvs_boot (f : NvsPart → NvsPart) : (modNvs f s).boot = s.boot := rfl
@[simp] theorem modNvs_freeze (f : NvsPart → NvsPart) : (modNvs f s).freeze = s.freeze := rfl
@[simp] theorem modNvs_jtag (f : NvsPart → NvsPart) : (modNvs f s).jtag = s.jtag := rfl
@[simp] theorem modNvs_status (f : NvsPart → NvsPart) : (modNvs f s).status = s.status := rfl
@[simp] theorem modNvs_statusBad (f : NvsPart → NvsPart) : (modNvs f s).statusBad = s.statusBad := rfl
@[simp] theorem modNvs_latches (f : NvsPart → NvsPart) : (modNvs f s).latches = s.latches := rfl
@[simp] theorem modNvs_ev (f : NvsPart → NvsPart) : (modNvs f s).ev = s.ev := rfl
@[simp] theorem modNvs_units (f : NvsPart → NvsPart) : (modNvs f s).units = s.units := rfl
@[simp] theorem modNvs_mem (f : NvsPart → NvsPart) : (modNvs f s).mem = s.mem := rfl
@[simp] theorem modNvs_memBad (f : NvsPart → NvsPart) : (modNvs f s).memBad = s.memBad := rfl
@[simp] theorem modNvs_backing (f : NvsPart → NvsPart) : (modNvs f s).backing = s.backing := rfl
@[simp] theorem modNvs_xfers (f : NvsPart → NvsPart) : (modNvs f s).xfers = s.xfers := rfl
@[simp] theorem modNvs_msgs (f : NvsPart → NvsPart) : (modNvs f s).msgs = s.msgs := rfl
@[simp] theorem modNvs_links (f : NvsPart → NvsPart) : (modNvs f s).links = s.links := rfl
@[simp] theorem modNvs_ddr (f : NvsPart → NvsPart) : (modNvs f s).ddr = s.ddr := rfl
@[simp] theorem modNvs_focal (f : NvsPart → NvsPart) : (modNvs f s).focal = s.focal := rfl
@[simp] theorem modNvs_grid (f : NvsPart → NvsPart) : (modNvs f s).grid = s.grid := rfl
@[simp] theorem modNvs_corr (f : NvsPart → NvsPart) : (modNvs f s).corr = s.corr := rfl
@[simp] theorem modNvs_engines (f : NvsPart → NvsPart) : (modNvs f s).engines = s.engines := rfl
@[simp] theorem modNvs_bands (f : NvsPart → NvsPart) : (modNvs f s).bands = s.bands := rfl
@[simp] theorem modNvs_fused (f : NvsPart → NvsPart) : (modNvs f s).fused = s.fused := rfl
@[simp] theorem modNvs_csn (f : NvsPart → NvsPart) : (modNvs f s).csn = s.csn := rfl
@[simp] theorem modNvs_cal (f : NvsPart → NvsPart) : (modNvs f s).cal = s.cal := rfl
@[simp] theorem modNvs_ejt (f : NvsPart → NvsPart) : (modNvs f s).ejt = s.ejt := rfl
@[simp] theorem modNvs_lum (f : NvsPart → NvsPart) : (modNvs f s).lum = s.lum := rfl
@[simp] theorem modNvs_cam (f : NvsPart → NvsPart) : (modNvs f s).cam = s.cam := rfl
@[simp] theorem modNvs_sadc (f : NvsPart → NvsPart) : (modNvs f s).sadc = s.sadc := rfl
@[simp] theorem modNvs_thm (f : NvsPart → NvsPart) : (modNvs f s).thm = s.thm := rfl
@[simp] theorem modNvs_net (f : NvsPart → NvsPart) : (modNvs f s).net = s.net := rfl
@[simp] theorem modNvs_sec (f : NvsPart → NvsPart) : (modNvs f s).sec = s.sec := rfl
@[simp] theorem modNvs_pending (f : NvsPart → NvsPart) : (modNvs f s).pending = s.pending := rfl

@[simp] theorem modLum_opt (d : Fin 2) (f : LumDie → LumDie) : (modLum d f s).opt = s.opt := rfl
@[simp] theorem modLum_mode (d : Fin 2) (f : LumDie → LumDie) : (modLum d f s).mode = s.mode := rfl
@[simp] theorem modLum_time (d : Fin 2) (f : LumDie → LumDie) : (modLum d f s).time = s.time := rfl
@[simp] theorem modLum_timeOn (d : Fin 2) (f : LumDie → LumDie) : (modLum d f s).timeOn = s.timeOn := rfl
@[simp] theorem modLum_tick (d : Fin 2) (f : LumDie → LumDie) : (modLum d f s).tick = s.tick := rfl
@[simp] theorem modLum_periph (d : Fin 2) (f : LumDie → LumDie) : (modLum d f s).periph = s.periph := rfl
@[simp] theorem modLum_free (d : Fin 2) (f : LumDie → LumDie) : (modLum d f s).free = s.free := rfl
@[simp] theorem modLum_pins (d : Fin 2) (f : LumDie → LumDie) : (modLum d f s).pins = s.pins := rfl
@[simp] theorem modLum_power (d : Fin 2) (f : LumDie → LumDie) : (modLum d f s).power = s.power := rfl
@[simp] theorem modLum_clock (d : Fin 2) (f : LumDie → LumDie) : (modLum d f s).clock = s.clock := rfl
@[simp] theorem modLum_boot (d : Fin 2) (f : LumDie → LumDie) : (modLum d f s).boot = s.boot := rfl
@[simp] theorem modLum_freeze (d : Fin 2) (f : LumDie → LumDie) : (modLum d f s).freeze = s.freeze := rfl
@[simp] theorem modLum_jtag (d : Fin 2) (f : LumDie → LumDie) : (modLum d f s).jtag = s.jtag := rfl
@[simp] theorem modLum_status (d : Fin 2) (f : LumDie → LumDie) : (modLum d f s).status = s.status := rfl
@[simp] theorem modLum_statusBad (d : Fin 2) (f : LumDie → LumDie) : (modLum d f s).statusBad = s.statusBad := rfl
@[simp] theorem modLum_latches (d : Fin 2) (f : LumDie → LumDie) : (modLum d f s).latches = s.latches := rfl
@[simp] theorem modLum_ev (d : Fin 2) (f : LumDie → LumDie) : (modLum d f s).ev = s.ev := rfl
@[simp] theorem modLum_units (d : Fin 2) (f : LumDie → LumDie) : (modLum d f s).units = s.units := rfl
@[simp] theorem modLum_mem (d : Fin 2) (f : LumDie → LumDie) : (modLum d f s).mem = s.mem := rfl
@[simp] theorem modLum_memBad (d : Fin 2) (f : LumDie → LumDie) : (modLum d f s).memBad = s.memBad := rfl
@[simp] theorem modLum_backing (d : Fin 2) (f : LumDie → LumDie) : (modLum d f s).backing = s.backing := rfl
@[simp] theorem modLum_xfers (d : Fin 2) (f : LumDie → LumDie) : (modLum d f s).xfers = s.xfers := rfl
@[simp] theorem modLum_msgs (d : Fin 2) (f : LumDie → LumDie) : (modLum d f s).msgs = s.msgs := rfl
@[simp] theorem modLum_links (d : Fin 2) (f : LumDie → LumDie) : (modLum d f s).links = s.links := rfl
@[simp] theorem modLum_ddr (d : Fin 2) (f : LumDie → LumDie) : (modLum d f s).ddr = s.ddr := rfl
@[simp] theorem modLum_focal (d : Fin 2) (f : LumDie → LumDie) : (modLum d f s).focal = s.focal := rfl
@[simp] theorem modLum_grid (d : Fin 2) (f : LumDie → LumDie) : (modLum d f s).grid = s.grid := rfl
@[simp] theorem modLum_corr (d : Fin 2) (f : LumDie → LumDie) : (modLum d f s).corr = s.corr := rfl
@[simp] theorem modLum_engines (d : Fin 2) (f : LumDie → LumDie) : (modLum d f s).engines = s.engines := rfl
@[simp] theorem modLum_bands (d : Fin 2) (f : LumDie → LumDie) : (modLum d f s).bands = s.bands := rfl
@[simp] theorem modLum_fused (d : Fin 2) (f : LumDie → LumDie) : (modLum d f s).fused = s.fused := rfl
@[simp] theorem modLum_csn (d : Fin 2) (f : LumDie → LumDie) : (modLum d f s).csn = s.csn := rfl
@[simp] theorem modLum_cal (d : Fin 2) (f : LumDie → LumDie) : (modLum d f s).cal = s.cal := rfl
@[simp] theorem modLum_ejt (d : Fin 2) (f : LumDie → LumDie) : (modLum d f s).ejt = s.ejt := rfl
@[simp] theorem modLum_nvs (d : Fin 2) (f : LumDie → LumDie) : (modLum d f s).nvs = s.nvs := rfl
@[simp] theorem modLum_cam (d : Fin 2) (f : LumDie → LumDie) : (modLum d f s).cam = s.cam := rfl
@[simp] theorem modLum_sadc (d : Fin 2) (f : LumDie → LumDie) : (modLum d f s).sadc = s.sadc := rfl
@[simp] theorem modLum_thm (d : Fin 2) (f : LumDie → LumDie) : (modLum d f s).thm = s.thm := rfl
@[simp] theorem modLum_net (d : Fin 2) (f : LumDie → LumDie) : (modLum d f s).net = s.net := rfl
@[simp] theorem modLum_sec (d : Fin 2) (f : LumDie → LumDie) : (modLum d f s).sec = s.sec := rfl
@[simp] theorem modLum_pending (d : Fin 2) (f : LumDie → LumDie) : (modLum d f s).pending = s.pending := rfl

@[simp] theorem modCam_opt (p : Fin 2) (f : CamPort → CamPort) : (modCam p f s).opt = s.opt := rfl
@[simp] theorem modCam_mode (p : Fin 2) (f : CamPort → CamPort) : (modCam p f s).mode = s.mode := rfl
@[simp] theorem modCam_time (p : Fin 2) (f : CamPort → CamPort) : (modCam p f s).time = s.time := rfl
@[simp] theorem modCam_timeOn (p : Fin 2) (f : CamPort → CamPort) : (modCam p f s).timeOn = s.timeOn := rfl
@[simp] theorem modCam_tick (p : Fin 2) (f : CamPort → CamPort) : (modCam p f s).tick = s.tick := rfl
@[simp] theorem modCam_periph (p : Fin 2) (f : CamPort → CamPort) : (modCam p f s).periph = s.periph := rfl
@[simp] theorem modCam_free (p : Fin 2) (f : CamPort → CamPort) : (modCam p f s).free = s.free := rfl
@[simp] theorem modCam_pins (p : Fin 2) (f : CamPort → CamPort) : (modCam p f s).pins = s.pins := rfl
@[simp] theorem modCam_power (p : Fin 2) (f : CamPort → CamPort) : (modCam p f s).power = s.power := rfl
@[simp] theorem modCam_clock (p : Fin 2) (f : CamPort → CamPort) : (modCam p f s).clock = s.clock := rfl
@[simp] theorem modCam_boot (p : Fin 2) (f : CamPort → CamPort) : (modCam p f s).boot = s.boot := rfl
@[simp] theorem modCam_freeze (p : Fin 2) (f : CamPort → CamPort) : (modCam p f s).freeze = s.freeze := rfl
@[simp] theorem modCam_jtag (p : Fin 2) (f : CamPort → CamPort) : (modCam p f s).jtag = s.jtag := rfl
@[simp] theorem modCam_status (p : Fin 2) (f : CamPort → CamPort) : (modCam p f s).status = s.status := rfl
@[simp] theorem modCam_statusBad (p : Fin 2) (f : CamPort → CamPort) : (modCam p f s).statusBad = s.statusBad := rfl
@[simp] theorem modCam_latches (p : Fin 2) (f : CamPort → CamPort) : (modCam p f s).latches = s.latches := rfl
@[simp] theorem modCam_ev (p : Fin 2) (f : CamPort → CamPort) : (modCam p f s).ev = s.ev := rfl
@[simp] theorem modCam_units (p : Fin 2) (f : CamPort → CamPort) : (modCam p f s).units = s.units := rfl
@[simp] theorem modCam_mem (p : Fin 2) (f : CamPort → CamPort) : (modCam p f s).mem = s.mem := rfl
@[simp] theorem modCam_memBad (p : Fin 2) (f : CamPort → CamPort) : (modCam p f s).memBad = s.memBad := rfl
@[simp] theorem modCam_backing (p : Fin 2) (f : CamPort → CamPort) : (modCam p f s).backing = s.backing := rfl
@[simp] theorem modCam_xfers (p : Fin 2) (f : CamPort → CamPort) : (modCam p f s).xfers = s.xfers := rfl
@[simp] theorem modCam_msgs (p : Fin 2) (f : CamPort → CamPort) : (modCam p f s).msgs = s.msgs := rfl
@[simp] theorem modCam_links (p : Fin 2) (f : CamPort → CamPort) : (modCam p f s).links = s.links := rfl
@[simp] theorem modCam_ddr (p : Fin 2) (f : CamPort → CamPort) : (modCam p f s).ddr = s.ddr := rfl
@[simp] theorem modCam_focal (p : Fin 2) (f : CamPort → CamPort) : (modCam p f s).focal = s.focal := rfl
@[simp] theorem modCam_grid (p : Fin 2) (f : CamPort → CamPort) : (modCam p f s).grid = s.grid := rfl
@[simp] theorem modCam_corr (p : Fin 2) (f : CamPort → CamPort) : (modCam p f s).corr = s.corr := rfl
@[simp] theorem modCam_engines (p : Fin 2) (f : CamPort → CamPort) : (modCam p f s).engines = s.engines := rfl
@[simp] theorem modCam_bands (p : Fin 2) (f : CamPort → CamPort) : (modCam p f s).bands = s.bands := rfl
@[simp] theorem modCam_fused (p : Fin 2) (f : CamPort → CamPort) : (modCam p f s).fused = s.fused := rfl
@[simp] theorem modCam_csn (p : Fin 2) (f : CamPort → CamPort) : (modCam p f s).csn = s.csn := rfl
@[simp] theorem modCam_cal (p : Fin 2) (f : CamPort → CamPort) : (modCam p f s).cal = s.cal := rfl
@[simp] theorem modCam_ejt (p : Fin 2) (f : CamPort → CamPort) : (modCam p f s).ejt = s.ejt := rfl
@[simp] theorem modCam_nvs (p : Fin 2) (f : CamPort → CamPort) : (modCam p f s).nvs = s.nvs := rfl
@[simp] theorem modCam_lum (p : Fin 2) (f : CamPort → CamPort) : (modCam p f s).lum = s.lum := rfl
@[simp] theorem modCam_sadc (p : Fin 2) (f : CamPort → CamPort) : (modCam p f s).sadc = s.sadc := rfl
@[simp] theorem modCam_thm (p : Fin 2) (f : CamPort → CamPort) : (modCam p f s).thm = s.thm := rfl
@[simp] theorem modCam_net (p : Fin 2) (f : CamPort → CamPort) : (modCam p f s).net = s.net := rfl
@[simp] theorem modCam_sec (p : Fin 2) (f : CamPort → CamPort) : (modCam p f s).sec = s.sec := rfl
@[simp] theorem modCam_pending (p : Fin 2) (f : CamPort → CamPort) : (modCam p f s).pending = s.pending := rfl

@[simp] theorem modSadc_opt (f : SadcPart → SadcPart) : (modSadc f s).opt = s.opt := rfl
@[simp] theorem modSadc_mode (f : SadcPart → SadcPart) : (modSadc f s).mode = s.mode := rfl
@[simp] theorem modSadc_time (f : SadcPart → SadcPart) : (modSadc f s).time = s.time := rfl
@[simp] theorem modSadc_timeOn (f : SadcPart → SadcPart) : (modSadc f s).timeOn = s.timeOn := rfl
@[simp] theorem modSadc_tick (f : SadcPart → SadcPart) : (modSadc f s).tick = s.tick := rfl
@[simp] theorem modSadc_periph (f : SadcPart → SadcPart) : (modSadc f s).periph = s.periph := rfl
@[simp] theorem modSadc_free (f : SadcPart → SadcPart) : (modSadc f s).free = s.free := rfl
@[simp] theorem modSadc_pins (f : SadcPart → SadcPart) : (modSadc f s).pins = s.pins := rfl
@[simp] theorem modSadc_power (f : SadcPart → SadcPart) : (modSadc f s).power = s.power := rfl
@[simp] theorem modSadc_clock (f : SadcPart → SadcPart) : (modSadc f s).clock = s.clock := rfl
@[simp] theorem modSadc_boot (f : SadcPart → SadcPart) : (modSadc f s).boot = s.boot := rfl
@[simp] theorem modSadc_freeze (f : SadcPart → SadcPart) : (modSadc f s).freeze = s.freeze := rfl
@[simp] theorem modSadc_jtag (f : SadcPart → SadcPart) : (modSadc f s).jtag = s.jtag := rfl
@[simp] theorem modSadc_status (f : SadcPart → SadcPart) : (modSadc f s).status = s.status := rfl
@[simp] theorem modSadc_statusBad (f : SadcPart → SadcPart) : (modSadc f s).statusBad = s.statusBad := rfl
@[simp] theorem modSadc_latches (f : SadcPart → SadcPart) : (modSadc f s).latches = s.latches := rfl
@[simp] theorem modSadc_ev (f : SadcPart → SadcPart) : (modSadc f s).ev = s.ev := rfl
@[simp] theorem modSadc_units (f : SadcPart → SadcPart) : (modSadc f s).units = s.units := rfl
@[simp] theorem modSadc_mem (f : SadcPart → SadcPart) : (modSadc f s).mem = s.mem := rfl
@[simp] theorem modSadc_memBad (f : SadcPart → SadcPart) : (modSadc f s).memBad = s.memBad := rfl
@[simp] theorem modSadc_backing (f : SadcPart → SadcPart) : (modSadc f s).backing = s.backing := rfl
@[simp] theorem modSadc_xfers (f : SadcPart → SadcPart) : (modSadc f s).xfers = s.xfers := rfl
@[simp] theorem modSadc_msgs (f : SadcPart → SadcPart) : (modSadc f s).msgs = s.msgs := rfl
@[simp] theorem modSadc_links (f : SadcPart → SadcPart) : (modSadc f s).links = s.links := rfl
@[simp] theorem modSadc_ddr (f : SadcPart → SadcPart) : (modSadc f s).ddr = s.ddr := rfl
@[simp] theorem modSadc_focal (f : SadcPart → SadcPart) : (modSadc f s).focal = s.focal := rfl
@[simp] theorem modSadc_grid (f : SadcPart → SadcPart) : (modSadc f s).grid = s.grid := rfl
@[simp] theorem modSadc_corr (f : SadcPart → SadcPart) : (modSadc f s).corr = s.corr := rfl
@[simp] theorem modSadc_engines (f : SadcPart → SadcPart) : (modSadc f s).engines = s.engines := rfl
@[simp] theorem modSadc_bands (f : SadcPart → SadcPart) : (modSadc f s).bands = s.bands := rfl
@[simp] theorem modSadc_fused (f : SadcPart → SadcPart) : (modSadc f s).fused = s.fused := rfl
@[simp] theorem modSadc_csn (f : SadcPart → SadcPart) : (modSadc f s).csn = s.csn := rfl
@[simp] theorem modSadc_cal (f : SadcPart → SadcPart) : (modSadc f s).cal = s.cal := rfl
@[simp] theorem modSadc_ejt (f : SadcPart → SadcPart) : (modSadc f s).ejt = s.ejt := rfl
@[simp] theorem modSadc_nvs (f : SadcPart → SadcPart) : (modSadc f s).nvs = s.nvs := rfl
@[simp] theorem modSadc_lum (f : SadcPart → SadcPart) : (modSadc f s).lum = s.lum := rfl
@[simp] theorem modSadc_cam (f : SadcPart → SadcPart) : (modSadc f s).cam = s.cam := rfl
@[simp] theorem modSadc_thm (f : SadcPart → SadcPart) : (modSadc f s).thm = s.thm := rfl
@[simp] theorem modSadc_net (f : SadcPart → SadcPart) : (modSadc f s).net = s.net := rfl
@[simp] theorem modSadc_sec (f : SadcPart → SadcPart) : (modSadc f s).sec = s.sec := rfl
@[simp] theorem modSadc_pending (f : SadcPart → SadcPart) : (modSadc f s).pending = s.pending := rfl

@[simp] theorem modThm_opt (d : Fin 8) (f : ThmDie → ThmDie) : (modThm d f s).opt = s.opt := rfl
@[simp] theorem modThm_mode (d : Fin 8) (f : ThmDie → ThmDie) : (modThm d f s).mode = s.mode := rfl
@[simp] theorem modThm_time (d : Fin 8) (f : ThmDie → ThmDie) : (modThm d f s).time = s.time := rfl
@[simp] theorem modThm_timeOn (d : Fin 8) (f : ThmDie → ThmDie) : (modThm d f s).timeOn = s.timeOn := rfl
@[simp] theorem modThm_tick (d : Fin 8) (f : ThmDie → ThmDie) : (modThm d f s).tick = s.tick := rfl
@[simp] theorem modThm_periph (d : Fin 8) (f : ThmDie → ThmDie) : (modThm d f s).periph = s.periph := rfl
@[simp] theorem modThm_free (d : Fin 8) (f : ThmDie → ThmDie) : (modThm d f s).free = s.free := rfl
@[simp] theorem modThm_pins (d : Fin 8) (f : ThmDie → ThmDie) : (modThm d f s).pins = s.pins := rfl
@[simp] theorem modThm_power (d : Fin 8) (f : ThmDie → ThmDie) : (modThm d f s).power = s.power := rfl
@[simp] theorem modThm_clock (d : Fin 8) (f : ThmDie → ThmDie) : (modThm d f s).clock = s.clock := rfl
@[simp] theorem modThm_boot (d : Fin 8) (f : ThmDie → ThmDie) : (modThm d f s).boot = s.boot := rfl
@[simp] theorem modThm_freeze (d : Fin 8) (f : ThmDie → ThmDie) : (modThm d f s).freeze = s.freeze := rfl
@[simp] theorem modThm_jtag (d : Fin 8) (f : ThmDie → ThmDie) : (modThm d f s).jtag = s.jtag := rfl
@[simp] theorem modThm_status (d : Fin 8) (f : ThmDie → ThmDie) : (modThm d f s).status = s.status := rfl
@[simp] theorem modThm_statusBad (d : Fin 8) (f : ThmDie → ThmDie) : (modThm d f s).statusBad = s.statusBad := rfl
@[simp] theorem modThm_latches (d : Fin 8) (f : ThmDie → ThmDie) : (modThm d f s).latches = s.latches := rfl
@[simp] theorem modThm_ev (d : Fin 8) (f : ThmDie → ThmDie) : (modThm d f s).ev = s.ev := rfl
@[simp] theorem modThm_units (d : Fin 8) (f : ThmDie → ThmDie) : (modThm d f s).units = s.units := rfl
@[simp] theorem modThm_mem (d : Fin 8) (f : ThmDie → ThmDie) : (modThm d f s).mem = s.mem := rfl
@[simp] theorem modThm_memBad (d : Fin 8) (f : ThmDie → ThmDie) : (modThm d f s).memBad = s.memBad := rfl
@[simp] theorem modThm_backing (d : Fin 8) (f : ThmDie → ThmDie) : (modThm d f s).backing = s.backing := rfl
@[simp] theorem modThm_xfers (d : Fin 8) (f : ThmDie → ThmDie) : (modThm d f s).xfers = s.xfers := rfl
@[simp] theorem modThm_msgs (d : Fin 8) (f : ThmDie → ThmDie) : (modThm d f s).msgs = s.msgs := rfl
@[simp] theorem modThm_links (d : Fin 8) (f : ThmDie → ThmDie) : (modThm d f s).links = s.links := rfl
@[simp] theorem modThm_ddr (d : Fin 8) (f : ThmDie → ThmDie) : (modThm d f s).ddr = s.ddr := rfl
@[simp] theorem modThm_focal (d : Fin 8) (f : ThmDie → ThmDie) : (modThm d f s).focal = s.focal := rfl
@[simp] theorem modThm_grid (d : Fin 8) (f : ThmDie → ThmDie) : (modThm d f s).grid = s.grid := rfl
@[simp] theorem modThm_corr (d : Fin 8) (f : ThmDie → ThmDie) : (modThm d f s).corr = s.corr := rfl
@[simp] theorem modThm_engines (d : Fin 8) (f : ThmDie → ThmDie) : (modThm d f s).engines = s.engines := rfl
@[simp] theorem modThm_bands (d : Fin 8) (f : ThmDie → ThmDie) : (modThm d f s).bands = s.bands := rfl
@[simp] theorem modThm_fused (d : Fin 8) (f : ThmDie → ThmDie) : (modThm d f s).fused = s.fused := rfl
@[simp] theorem modThm_csn (d : Fin 8) (f : ThmDie → ThmDie) : (modThm d f s).csn = s.csn := rfl
@[simp] theorem modThm_cal (d : Fin 8) (f : ThmDie → ThmDie) : (modThm d f s).cal = s.cal := rfl
@[simp] theorem modThm_ejt (d : Fin 8) (f : ThmDie → ThmDie) : (modThm d f s).ejt = s.ejt := rfl
@[simp] theorem modThm_nvs (d : Fin 8) (f : ThmDie → ThmDie) : (modThm d f s).nvs = s.nvs := rfl
@[simp] theorem modThm_lum (d : Fin 8) (f : ThmDie → ThmDie) : (modThm d f s).lum = s.lum := rfl
@[simp] theorem modThm_cam (d : Fin 8) (f : ThmDie → ThmDie) : (modThm d f s).cam = s.cam := rfl
@[simp] theorem modThm_sadc (d : Fin 8) (f : ThmDie → ThmDie) : (modThm d f s).sadc = s.sadc := rfl
@[simp] theorem modThm_net (d : Fin 8) (f : ThmDie → ThmDie) : (modThm d f s).net = s.net := rfl
@[simp] theorem modThm_sec (d : Fin 8) (f : ThmDie → ThmDie) : (modThm d f s).sec = s.sec := rfl
@[simp] theorem modThm_pending (d : Fin 8) (f : ThmDie → ThmDie) : (modThm d f s).pending = s.pending := rfl

@[simp] theorem modNet_opt (f : NetPart → NetPart) : (modNet f s).opt = s.opt := rfl
@[simp] theorem modNet_mode (f : NetPart → NetPart) : (modNet f s).mode = s.mode := rfl
@[simp] theorem modNet_time (f : NetPart → NetPart) : (modNet f s).time = s.time := rfl
@[simp] theorem modNet_timeOn (f : NetPart → NetPart) : (modNet f s).timeOn = s.timeOn := rfl
@[simp] theorem modNet_tick (f : NetPart → NetPart) : (modNet f s).tick = s.tick := rfl
@[simp] theorem modNet_periph (f : NetPart → NetPart) : (modNet f s).periph = s.periph := rfl
@[simp] theorem modNet_free (f : NetPart → NetPart) : (modNet f s).free = s.free := rfl
@[simp] theorem modNet_pins (f : NetPart → NetPart) : (modNet f s).pins = s.pins := rfl
@[simp] theorem modNet_power (f : NetPart → NetPart) : (modNet f s).power = s.power := rfl
@[simp] theorem modNet_clock (f : NetPart → NetPart) : (modNet f s).clock = s.clock := rfl
@[simp] theorem modNet_boot (f : NetPart → NetPart) : (modNet f s).boot = s.boot := rfl
@[simp] theorem modNet_freeze (f : NetPart → NetPart) : (modNet f s).freeze = s.freeze := rfl
@[simp] theorem modNet_jtag (f : NetPart → NetPart) : (modNet f s).jtag = s.jtag := rfl
@[simp] theorem modNet_status (f : NetPart → NetPart) : (modNet f s).status = s.status := rfl
@[simp] theorem modNet_statusBad (f : NetPart → NetPart) : (modNet f s).statusBad = s.statusBad := rfl
@[simp] theorem modNet_latches (f : NetPart → NetPart) : (modNet f s).latches = s.latches := rfl
@[simp] theorem modNet_ev (f : NetPart → NetPart) : (modNet f s).ev = s.ev := rfl
@[simp] theorem modNet_units (f : NetPart → NetPart) : (modNet f s).units = s.units := rfl
@[simp] theorem modNet_mem (f : NetPart → NetPart) : (modNet f s).mem = s.mem := rfl
@[simp] theorem modNet_memBad (f : NetPart → NetPart) : (modNet f s).memBad = s.memBad := rfl
@[simp] theorem modNet_backing (f : NetPart → NetPart) : (modNet f s).backing = s.backing := rfl
@[simp] theorem modNet_xfers (f : NetPart → NetPart) : (modNet f s).xfers = s.xfers := rfl
@[simp] theorem modNet_msgs (f : NetPart → NetPart) : (modNet f s).msgs = s.msgs := rfl
@[simp] theorem modNet_links (f : NetPart → NetPart) : (modNet f s).links = s.links := rfl
@[simp] theorem modNet_ddr (f : NetPart → NetPart) : (modNet f s).ddr = s.ddr := rfl
@[simp] theorem modNet_focal (f : NetPart → NetPart) : (modNet f s).focal = s.focal := rfl
@[simp] theorem modNet_grid (f : NetPart → NetPart) : (modNet f s).grid = s.grid := rfl
@[simp] theorem modNet_corr (f : NetPart → NetPart) : (modNet f s).corr = s.corr := rfl
@[simp] theorem modNet_engines (f : NetPart → NetPart) : (modNet f s).engines = s.engines := rfl
@[simp] theorem modNet_bands (f : NetPart → NetPart) : (modNet f s).bands = s.bands := rfl
@[simp] theorem modNet_fused (f : NetPart → NetPart) : (modNet f s).fused = s.fused := rfl
@[simp] theorem modNet_csn (f : NetPart → NetPart) : (modNet f s).csn = s.csn := rfl
@[simp] theorem modNet_cal (f : NetPart → NetPart) : (modNet f s).cal = s.cal := rfl
@[simp] theorem modNet_ejt (f : NetPart → NetPart) : (modNet f s).ejt = s.ejt := rfl
@[simp] theorem modNet_nvs (f : NetPart → NetPart) : (modNet f s).nvs = s.nvs := rfl
@[simp] theorem modNet_lum (f : NetPart → NetPart) : (modNet f s).lum = s.lum := rfl
@[simp] theorem modNet_cam (f : NetPart → NetPart) : (modNet f s).cam = s.cam := rfl
@[simp] theorem modNet_sadc (f : NetPart → NetPart) : (modNet f s).sadc = s.sadc := rfl
@[simp] theorem modNet_thm (f : NetPart → NetPart) : (modNet f s).thm = s.thm := rfl
@[simp] theorem modNet_sec (f : NetPart → NetPart) : (modNet f s).sec = s.sec := rfl
@[simp] theorem modNet_pending (f : NetPart → NetPart) : (modNet f s).pending = s.pending := rfl

@[simp] theorem send_opt (x : Sent) : (send x s).opt = s.opt := rfl
@[simp] theorem send_mode (x : Sent) : (send x s).mode = s.mode := rfl
@[simp] theorem send_time (x : Sent) : (send x s).time = s.time := rfl
@[simp] theorem send_timeOn (x : Sent) : (send x s).timeOn = s.timeOn := rfl
@[simp] theorem send_tick (x : Sent) : (send x s).tick = s.tick := rfl
@[simp] theorem send_periph (x : Sent) : (send x s).periph = s.periph := rfl
@[simp] theorem send_free (x : Sent) : (send x s).free = s.free := rfl
@[simp] theorem send_pins (x : Sent) : (send x s).pins = s.pins := rfl
@[simp] theorem send_power (x : Sent) : (send x s).power = s.power := rfl
@[simp] theorem send_clock (x : Sent) : (send x s).clock = s.clock := rfl
@[simp] theorem send_boot (x : Sent) : (send x s).boot = s.boot := rfl
@[simp] theorem send_freeze (x : Sent) : (send x s).freeze = s.freeze := rfl
@[simp] theorem send_jtag (x : Sent) : (send x s).jtag = s.jtag := rfl
@[simp] theorem send_status (x : Sent) : (send x s).status = s.status := rfl
@[simp] theorem send_statusBad (x : Sent) : (send x s).statusBad = s.statusBad := rfl
@[simp] theorem send_latches (x : Sent) : (send x s).latches = s.latches := rfl
@[simp] theorem send_ev (x : Sent) : (send x s).ev = s.ev := rfl
@[simp] theorem send_units (x : Sent) : (send x s).units = s.units := rfl
@[simp] theorem send_mem (x : Sent) : (send x s).mem = s.mem := rfl
@[simp] theorem send_memBad (x : Sent) : (send x s).memBad = s.memBad := rfl
@[simp] theorem send_backing (x : Sent) : (send x s).backing = s.backing := rfl
@[simp] theorem send_xfers (x : Sent) : (send x s).xfers = s.xfers := rfl
@[simp] theorem send_msgs (x : Sent) : (send x s).msgs = s.msgs := rfl
@[simp] theorem send_links (x : Sent) : (send x s).links = s.links := rfl
@[simp] theorem send_ddr (x : Sent) : (send x s).ddr = s.ddr := rfl
@[simp] theorem send_focal (x : Sent) : (send x s).focal = s.focal := rfl
@[simp] theorem send_grid (x : Sent) : (send x s).grid = s.grid := rfl
@[simp] theorem send_corr (x : Sent) : (send x s).corr = s.corr := rfl
@[simp] theorem send_engines (x : Sent) : (send x s).engines = s.engines := rfl
@[simp] theorem send_bands (x : Sent) : (send x s).bands = s.bands := rfl
@[simp] theorem send_fused (x : Sent) : (send x s).fused = s.fused := rfl
@[simp] theorem send_csn (x : Sent) : (send x s).csn = s.csn := rfl
@[simp] theorem send_cal (x : Sent) : (send x s).cal = s.cal := rfl
@[simp] theorem send_ejt (x : Sent) : (send x s).ejt = s.ejt := rfl
@[simp] theorem send_nvs (x : Sent) : (send x s).nvs = s.nvs := rfl
@[simp] theorem send_lum (x : Sent) : (send x s).lum = s.lum := rfl
@[simp] theorem send_cam (x : Sent) : (send x s).cam = s.cam := rfl
@[simp] theorem send_sadc (x : Sent) : (send x s).sadc = s.sadc := rfl
@[simp] theorem send_thm (x : Sent) : (send x s).thm = s.thm := rfl
@[simp] theorem send_sec (x : Sent) : (send x s).sec = s.sec := rfl
@[simp] theorem send_pending (x : Sent) : (send x s).pending = s.pending := rfl

@[simp] theorem modSec_opt (f : SecPart → SecPart) : (modSec f s).opt = s.opt := rfl
@[simp] theorem modSec_mode (f : SecPart → SecPart) : (modSec f s).mode = s.mode := rfl
@[simp] theorem modSec_time (f : SecPart → SecPart) : (modSec f s).time = s.time := rfl
@[simp] theorem modSec_timeOn (f : SecPart → SecPart) : (modSec f s).timeOn = s.timeOn := rfl
@[simp] theorem modSec_tick (f : SecPart → SecPart) : (modSec f s).tick = s.tick := rfl
@[simp] theorem modSec_periph (f : SecPart → SecPart) : (modSec f s).periph = s.periph := rfl
@[simp] theorem modSec_free (f : SecPart → SecPart) : (modSec f s).free = s.free := rfl
@[simp] theorem modSec_pins (f : SecPart → SecPart) : (modSec f s).pins = s.pins := rfl
@[simp] theorem modSec_power (f : SecPart → SecPart) : (modSec f s).power = s.power := rfl
@[simp] theorem modSec_clock (f : SecPart → SecPart) : (modSec f s).clock = s.clock := rfl
@[simp] theorem modSec_boot (f : SecPart → SecPart) : (modSec f s).boot = s.boot := rfl
@[simp] theorem modSec_freeze (f : SecPart → SecPart) : (modSec f s).freeze = s.freeze := rfl
@[simp] theorem modSec_jtag (f : SecPart → SecPart) : (modSec f s).jtag = s.jtag := rfl
@[simp] theorem modSec_status (f : SecPart → SecPart) : (modSec f s).status = s.status := rfl
@[simp] theorem modSec_statusBad (f : SecPart → SecPart) : (modSec f s).statusBad = s.statusBad := rfl
@[simp] theorem modSec_latches (f : SecPart → SecPart) : (modSec f s).latches = s.latches := rfl
@[simp] theorem modSec_ev (f : SecPart → SecPart) : (modSec f s).ev = s.ev := rfl
@[simp] theorem modSec_units (f : SecPart → SecPart) : (modSec f s).units = s.units := rfl
@[simp] theorem modSec_mem (f : SecPart → SecPart) : (modSec f s).mem = s.mem := rfl
@[simp] theorem modSec_memBad (f : SecPart → SecPart) : (modSec f s).memBad = s.memBad := rfl
@[simp] theorem modSec_backing (f : SecPart → SecPart) : (modSec f s).backing = s.backing := rfl
@[simp] theorem modSec_xfers (f : SecPart → SecPart) : (modSec f s).xfers = s.xfers := rfl
@[simp] theorem modSec_msgs (f : SecPart → SecPart) : (modSec f s).msgs = s.msgs := rfl
@[simp] theorem modSec_links (f : SecPart → SecPart) : (modSec f s).links = s.links := rfl
@[simp] theorem modSec_ddr (f : SecPart → SecPart) : (modSec f s).ddr = s.ddr := rfl
@[simp] theorem modSec_focal (f : SecPart → SecPart) : (modSec f s).focal = s.focal := rfl
@[simp] theorem modSec_grid (f : SecPart → SecPart) : (modSec f s).grid = s.grid := rfl
@[simp] theorem modSec_corr (f : SecPart → SecPart) : (modSec f s).corr = s.corr := rfl
@[simp] theorem modSec_engines (f : SecPart → SecPart) : (modSec f s).engines = s.engines := rfl
@[simp] theorem modSec_bands (f : SecPart → SecPart) : (modSec f s).bands = s.bands := rfl
@[simp] theorem modSec_fused (f : SecPart → SecPart) : (modSec f s).fused = s.fused := rfl
@[simp] theorem modSec_csn (f : SecPart → SecPart) : (modSec f s).csn = s.csn := rfl
@[simp] theorem modSec_cal (f : SecPart → SecPart) : (modSec f s).cal = s.cal := rfl
@[simp] theorem modSec_ejt (f : SecPart → SecPart) : (modSec f s).ejt = s.ejt := rfl
@[simp] theorem modSec_nvs (f : SecPart → SecPart) : (modSec f s).nvs = s.nvs := rfl
@[simp] theorem modSec_lum (f : SecPart → SecPart) : (modSec f s).lum = s.lum := rfl
@[simp] theorem modSec_cam (f : SecPart → SecPart) : (modSec f s).cam = s.cam := rfl
@[simp] theorem modSec_sadc (f : SecPart → SecPart) : (modSec f s).sadc = s.sadc := rfl
@[simp] theorem modSec_thm (f : SecPart → SecPart) : (modSec f s).thm = s.thm := rfl
@[simp] theorem modSec_net (f : SecPart → SecPart) : (modSec f s).net = s.net := rfl
@[simp] theorem modSec_pending (f : SecPart → SecPart) : (modSec f s).pending = s.pending := rfl

@[simp] theorem modLink_opt (l : Fin 16) (f : Link → Link) : (modLink l f s).opt = s.opt := rfl
@[simp] theorem modLink_mode (l : Fin 16) (f : Link → Link) : (modLink l f s).mode = s.mode := rfl
@[simp] theorem modLink_time (l : Fin 16) (f : Link → Link) : (modLink l f s).time = s.time := rfl
@[simp] theorem modLink_timeOn (l : Fin 16) (f : Link → Link) : (modLink l f s).timeOn = s.timeOn := rfl
@[simp] theorem modLink_tick (l : Fin 16) (f : Link → Link) : (modLink l f s).tick = s.tick := rfl
@[simp] theorem modLink_periph (l : Fin 16) (f : Link → Link) : (modLink l f s).periph = s.periph := rfl
@[simp] theorem modLink_free (l : Fin 16) (f : Link → Link) : (modLink l f s).free = s.free := rfl
@[simp] theorem modLink_pins (l : Fin 16) (f : Link → Link) : (modLink l f s).pins = s.pins := rfl
@[simp] theorem modLink_power (l : Fin 16) (f : Link → Link) : (modLink l f s).power = s.power := rfl
@[simp] theorem modLink_clock (l : Fin 16) (f : Link → Link) : (modLink l f s).clock = s.clock := rfl
@[simp] theorem modLink_boot (l : Fin 16) (f : Link → Link) : (modLink l f s).boot = s.boot := rfl
@[simp] theorem modLink_freeze (l : Fin 16) (f : Link → Link) : (modLink l f s).freeze = s.freeze := rfl
@[simp] theorem modLink_jtag (l : Fin 16) (f : Link → Link) : (modLink l f s).jtag = s.jtag := rfl
@[simp] theorem modLink_status (l : Fin 16) (f : Link → Link) : (modLink l f s).status = s.status := rfl
@[simp] theorem modLink_statusBad (l : Fin 16) (f : Link → Link) : (modLink l f s).statusBad = s.statusBad := rfl
@[simp] theorem modLink_latches (l : Fin 16) (f : Link → Link) : (modLink l f s).latches = s.latches := rfl
@[simp] theorem modLink_ev (l : Fin 16) (f : Link → Link) : (modLink l f s).ev = s.ev := rfl
@[simp] theorem modLink_units (l : Fin 16) (f : Link → Link) : (modLink l f s).units = s.units := rfl
@[simp] theorem modLink_mem (l : Fin 16) (f : Link → Link) : (modLink l f s).mem = s.mem := rfl
@[simp] theorem modLink_memBad (l : Fin 16) (f : Link → Link) : (modLink l f s).memBad = s.memBad := rfl
@[simp] theorem modLink_backing (l : Fin 16) (f : Link → Link) : (modLink l f s).backing = s.backing := rfl
@[simp] theorem modLink_xfers (l : Fin 16) (f : Link → Link) : (modLink l f s).xfers = s.xfers := rfl
@[simp] theorem modLink_msgs (l : Fin 16) (f : Link → Link) : (modLink l f s).msgs = s.msgs := rfl
@[simp] theorem modLink_ddr (l : Fin 16) (f : Link → Link) : (modLink l f s).ddr = s.ddr := rfl
@[simp] theorem modLink_focal (l : Fin 16) (f : Link → Link) : (modLink l f s).focal = s.focal := rfl
@[simp] theorem modLink_grid (l : Fin 16) (f : Link → Link) : (modLink l f s).grid = s.grid := rfl
@[simp] theorem modLink_corr (l : Fin 16) (f : Link → Link) : (modLink l f s).corr = s.corr := rfl
@[simp] theorem modLink_engines (l : Fin 16) (f : Link → Link) : (modLink l f s).engines = s.engines := rfl
@[simp] theorem modLink_bands (l : Fin 16) (f : Link → Link) : (modLink l f s).bands = s.bands := rfl
@[simp] theorem modLink_fused (l : Fin 16) (f : Link → Link) : (modLink l f s).fused = s.fused := rfl
@[simp] theorem modLink_csn (l : Fin 16) (f : Link → Link) : (modLink l f s).csn = s.csn := rfl
@[simp] theorem modLink_cal (l : Fin 16) (f : Link → Link) : (modLink l f s).cal = s.cal := rfl
@[simp] theorem modLink_ejt (l : Fin 16) (f : Link → Link) : (modLink l f s).ejt = s.ejt := rfl
@[simp] theorem modLink_nvs (l : Fin 16) (f : Link → Link) : (modLink l f s).nvs = s.nvs := rfl
@[simp] theorem modLink_lum (l : Fin 16) (f : Link → Link) : (modLink l f s).lum = s.lum := rfl
@[simp] theorem modLink_cam (l : Fin 16) (f : Link → Link) : (modLink l f s).cam = s.cam := rfl
@[simp] theorem modLink_sadc (l : Fin 16) (f : Link → Link) : (modLink l f s).sadc = s.sadc := rfl
@[simp] theorem modLink_thm (l : Fin 16) (f : Link → Link) : (modLink l f s).thm = s.thm := rfl
@[simp] theorem modLink_net (l : Fin 16) (f : Link → Link) : (modLink l f s).net = s.net := rfl
@[simp] theorem modLink_sec (l : Fin 16) (f : Link → Link) : (modLink l f s).sec = s.sec := rfl
@[simp] theorem modLink_pending (l : Fin 16) (f : Link → Link) : (modLink l f s).pending = s.pending := rfl

@[simp] theorem modDdr_opt (c : Fin 4) (f : DdrChan → DdrChan) : (modDdr c f s).opt = s.opt := rfl
@[simp] theorem modDdr_mode (c : Fin 4) (f : DdrChan → DdrChan) : (modDdr c f s).mode = s.mode := rfl
@[simp] theorem modDdr_time (c : Fin 4) (f : DdrChan → DdrChan) : (modDdr c f s).time = s.time := rfl
@[simp] theorem modDdr_timeOn (c : Fin 4) (f : DdrChan → DdrChan) : (modDdr c f s).timeOn = s.timeOn := rfl
@[simp] theorem modDdr_tick (c : Fin 4) (f : DdrChan → DdrChan) : (modDdr c f s).tick = s.tick := rfl
@[simp] theorem modDdr_periph (c : Fin 4) (f : DdrChan → DdrChan) : (modDdr c f s).periph = s.periph := rfl
@[simp] theorem modDdr_free (c : Fin 4) (f : DdrChan → DdrChan) : (modDdr c f s).free = s.free := rfl
@[simp] theorem modDdr_pins (c : Fin 4) (f : DdrChan → DdrChan) : (modDdr c f s).pins = s.pins := rfl
@[simp] theorem modDdr_power (c : Fin 4) (f : DdrChan → DdrChan) : (modDdr c f s).power = s.power := rfl
@[simp] theorem modDdr_clock (c : Fin 4) (f : DdrChan → DdrChan) : (modDdr c f s).clock = s.clock := rfl
@[simp] theorem modDdr_boot (c : Fin 4) (f : DdrChan → DdrChan) : (modDdr c f s).boot = s.boot := rfl
@[simp] theorem modDdr_freeze (c : Fin 4) (f : DdrChan → DdrChan) : (modDdr c f s).freeze = s.freeze := rfl
@[simp] theorem modDdr_jtag (c : Fin 4) (f : DdrChan → DdrChan) : (modDdr c f s).jtag = s.jtag := rfl
@[simp] theorem modDdr_status (c : Fin 4) (f : DdrChan → DdrChan) : (modDdr c f s).status = s.status := rfl
@[simp] theorem modDdr_statusBad (c : Fin 4) (f : DdrChan → DdrChan) : (modDdr c f s).statusBad = s.statusBad := rfl
@[simp] theorem modDdr_latches (c : Fin 4) (f : DdrChan → DdrChan) : (modDdr c f s).latches = s.latches := rfl
@[simp] theorem modDdr_ev (c : Fin 4) (f : DdrChan → DdrChan) : (modDdr c f s).ev = s.ev := rfl
@[simp] theorem modDdr_units (c : Fin 4) (f : DdrChan → DdrChan) : (modDdr c f s).units = s.units := rfl
@[simp] theorem modDdr_mem (c : Fin 4) (f : DdrChan → DdrChan) : (modDdr c f s).mem = s.mem := rfl
@[simp] theorem modDdr_memBad (c : Fin 4) (f : DdrChan → DdrChan) : (modDdr c f s).memBad = s.memBad := rfl
@[simp] theorem modDdr_backing (c : Fin 4) (f : DdrChan → DdrChan) : (modDdr c f s).backing = s.backing := rfl
@[simp] theorem modDdr_xfers (c : Fin 4) (f : DdrChan → DdrChan) : (modDdr c f s).xfers = s.xfers := rfl
@[simp] theorem modDdr_msgs (c : Fin 4) (f : DdrChan → DdrChan) : (modDdr c f s).msgs = s.msgs := rfl
@[simp] theorem modDdr_links (c : Fin 4) (f : DdrChan → DdrChan) : (modDdr c f s).links = s.links := rfl
@[simp] theorem modDdr_focal (c : Fin 4) (f : DdrChan → DdrChan) : (modDdr c f s).focal = s.focal := rfl
@[simp] theorem modDdr_grid (c : Fin 4) (f : DdrChan → DdrChan) : (modDdr c f s).grid = s.grid := rfl
@[simp] theorem modDdr_corr (c : Fin 4) (f : DdrChan → DdrChan) : (modDdr c f s).corr = s.corr := rfl
@[simp] theorem modDdr_engines (c : Fin 4) (f : DdrChan → DdrChan) : (modDdr c f s).engines = s.engines := rfl
@[simp] theorem modDdr_bands (c : Fin 4) (f : DdrChan → DdrChan) : (modDdr c f s).bands = s.bands := rfl
@[simp] theorem modDdr_fused (c : Fin 4) (f : DdrChan → DdrChan) : (modDdr c f s).fused = s.fused := rfl
@[simp] theorem modDdr_csn (c : Fin 4) (f : DdrChan → DdrChan) : (modDdr c f s).csn = s.csn := rfl
@[simp] theorem modDdr_cal (c : Fin 4) (f : DdrChan → DdrChan) : (modDdr c f s).cal = s.cal := rfl
@[simp] theorem modDdr_ejt (c : Fin 4) (f : DdrChan → DdrChan) : (modDdr c f s).ejt = s.ejt := rfl
@[simp] theorem modDdr_nvs (c : Fin 4) (f : DdrChan → DdrChan) : (modDdr c f s).nvs = s.nvs := rfl
@[simp] theorem modDdr_lum (c : Fin 4) (f : DdrChan → DdrChan) : (modDdr c f s).lum = s.lum := rfl
@[simp] theorem modDdr_cam (c : Fin 4) (f : DdrChan → DdrChan) : (modDdr c f s).cam = s.cam := rfl
@[simp] theorem modDdr_sadc (c : Fin 4) (f : DdrChan → DdrChan) : (modDdr c f s).sadc = s.sadc := rfl
@[simp] theorem modDdr_thm (c : Fin 4) (f : DdrChan → DdrChan) : (modDdr c f s).thm = s.thm := rfl
@[simp] theorem modDdr_net (c : Fin 4) (f : DdrChan → DdrChan) : (modDdr c f s).net = s.net := rfl
@[simp] theorem modDdr_sec (c : Fin 4) (f : DdrChan → DdrChan) : (modDdr c f s).sec = s.sec := rfl
@[simp] theorem modDdr_pending (c : Fin 4) (f : DdrChan → DdrChan) : (modDdr c f s).pending = s.pending := rfl

@[simp] theorem modJtag_opt (f : JtagPart → JtagPart) : (modJtag f s).opt = s.opt := rfl
@[simp] theorem modJtag_mode (f : JtagPart → JtagPart) : (modJtag f s).mode = s.mode := rfl
@[simp] theorem modJtag_time (f : JtagPart → JtagPart) : (modJtag f s).time = s.time := rfl
@[simp] theorem modJtag_timeOn (f : JtagPart → JtagPart) : (modJtag f s).timeOn = s.timeOn := rfl
@[simp] theorem modJtag_tick (f : JtagPart → JtagPart) : (modJtag f s).tick = s.tick := rfl
@[simp] theorem modJtag_periph (f : JtagPart → JtagPart) : (modJtag f s).periph = s.periph := rfl
@[simp] theorem modJtag_free (f : JtagPart → JtagPart) : (modJtag f s).free = s.free := rfl
@[simp] theorem modJtag_pins (f : JtagPart → JtagPart) : (modJtag f s).pins = s.pins := rfl
@[simp] theorem modJtag_power (f : JtagPart → JtagPart) : (modJtag f s).power = s.power := rfl
@[simp] theorem modJtag_clock (f : JtagPart → JtagPart) : (modJtag f s).clock = s.clock := rfl
@[simp] theorem modJtag_boot (f : JtagPart → JtagPart) : (modJtag f s).boot = s.boot := rfl
@[simp] theorem modJtag_freeze (f : JtagPart → JtagPart) : (modJtag f s).freeze = s.freeze := rfl
@[simp] theorem modJtag_status (f : JtagPart → JtagPart) : (modJtag f s).status = s.status := rfl
@[simp] theorem modJtag_statusBad (f : JtagPart → JtagPart) : (modJtag f s).statusBad = s.statusBad := rfl
@[simp] theorem modJtag_latches (f : JtagPart → JtagPart) : (modJtag f s).latches = s.latches := rfl
@[simp] theorem modJtag_ev (f : JtagPart → JtagPart) : (modJtag f s).ev = s.ev := rfl
@[simp] theorem modJtag_units (f : JtagPart → JtagPart) : (modJtag f s).units = s.units := rfl
@[simp] theorem modJtag_mem (f : JtagPart → JtagPart) : (modJtag f s).mem = s.mem := rfl
@[simp] theorem modJtag_memBad (f : JtagPart → JtagPart) : (modJtag f s).memBad = s.memBad := rfl
@[simp] theorem modJtag_backing (f : JtagPart → JtagPart) : (modJtag f s).backing = s.backing := rfl
@[simp] theorem modJtag_xfers (f : JtagPart → JtagPart) : (modJtag f s).xfers = s.xfers := rfl
@[simp] theorem modJtag_msgs (f : JtagPart → JtagPart) : (modJtag f s).msgs = s.msgs := rfl
@[simp] theorem modJtag_links (f : JtagPart → JtagPart) : (modJtag f s).links = s.links := rfl
@[simp] theorem modJtag_ddr (f : JtagPart → JtagPart) : (modJtag f s).ddr = s.ddr := rfl
@[simp] theorem modJtag_focal (f : JtagPart → JtagPart) : (modJtag f s).focal = s.focal := rfl
@[simp] theorem modJtag_grid (f : JtagPart → JtagPart) : (modJtag f s).grid = s.grid := rfl
@[simp] theorem modJtag_corr (f : JtagPart → JtagPart) : (modJtag f s).corr = s.corr := rfl
@[simp] theorem modJtag_engines (f : JtagPart → JtagPart) : (modJtag f s).engines = s.engines := rfl
@[simp] theorem modJtag_bands (f : JtagPart → JtagPart) : (modJtag f s).bands = s.bands := rfl
@[simp] theorem modJtag_fused (f : JtagPart → JtagPart) : (modJtag f s).fused = s.fused := rfl
@[simp] theorem modJtag_csn (f : JtagPart → JtagPart) : (modJtag f s).csn = s.csn := rfl
@[simp] theorem modJtag_cal (f : JtagPart → JtagPart) : (modJtag f s).cal = s.cal := rfl
@[simp] theorem modJtag_ejt (f : JtagPart → JtagPart) : (modJtag f s).ejt = s.ejt := rfl
@[simp] theorem modJtag_nvs (f : JtagPart → JtagPart) : (modJtag f s).nvs = s.nvs := rfl
@[simp] theorem modJtag_lum (f : JtagPart → JtagPart) : (modJtag f s).lum = s.lum := rfl
@[simp] theorem modJtag_cam (f : JtagPart → JtagPart) : (modJtag f s).cam = s.cam := rfl
@[simp] theorem modJtag_sadc (f : JtagPart → JtagPart) : (modJtag f s).sadc = s.sadc := rfl
@[simp] theorem modJtag_thm (f : JtagPart → JtagPart) : (modJtag f s).thm = s.thm := rfl
@[simp] theorem modJtag_net (f : JtagPart → JtagPart) : (modJtag f s).net = s.net := rfl
@[simp] theorem modJtag_sec (f : JtagPart → JtagPart) : (modJtag f s).sec = s.sec := rfl
@[simp] theorem modJtag_pending (f : JtagPart → JtagPart) : (modJtag f s).pending = s.pending := rfl

@[simp] theorem modPower_opt (f : PowerPart → PowerPart) : (modPower f s).opt = s.opt := rfl
@[simp] theorem modPower_mode (f : PowerPart → PowerPart) : (modPower f s).mode = s.mode := rfl
@[simp] theorem modPower_time (f : PowerPart → PowerPart) : (modPower f s).time = s.time := rfl
@[simp] theorem modPower_timeOn (f : PowerPart → PowerPart) : (modPower f s).timeOn = s.timeOn := rfl
@[simp] theorem modPower_tick (f : PowerPart → PowerPart) : (modPower f s).tick = s.tick := rfl
@[simp] theorem modPower_periph (f : PowerPart → PowerPart) : (modPower f s).periph = s.periph := rfl
@[simp] theorem modPower_free (f : PowerPart → PowerPart) : (modPower f s).free = s.free := rfl
@[simp] theorem modPower_pins (f : PowerPart → PowerPart) : (modPower f s).pins = s.pins := rfl
@[simp] theorem modPower_clock (f : PowerPart → PowerPart) : (modPower f s).clock = s.clock := rfl
@[simp] theorem modPower_boot (f : PowerPart → PowerPart) : (modPower f s).boot = s.boot := rfl
@[simp] theorem modPower_freeze (f : PowerPart → PowerPart) : (modPower f s).freeze = s.freeze := rfl
@[simp] theorem modPower_jtag (f : PowerPart → PowerPart) : (modPower f s).jtag = s.jtag := rfl
@[simp] theorem modPower_status (f : PowerPart → PowerPart) : (modPower f s).status = s.status := rfl
@[simp] theorem modPower_statusBad (f : PowerPart → PowerPart) : (modPower f s).statusBad = s.statusBad := rfl
@[simp] theorem modPower_latches (f : PowerPart → PowerPart) : (modPower f s).latches = s.latches := rfl
@[simp] theorem modPower_ev (f : PowerPart → PowerPart) : (modPower f s).ev = s.ev := rfl
@[simp] theorem modPower_units (f : PowerPart → PowerPart) : (modPower f s).units = s.units := rfl
@[simp] theorem modPower_mem (f : PowerPart → PowerPart) : (modPower f s).mem = s.mem := rfl
@[simp] theorem modPower_memBad (f : PowerPart → PowerPart) : (modPower f s).memBad = s.memBad := rfl
@[simp] theorem modPower_backing (f : PowerPart → PowerPart) : (modPower f s).backing = s.backing := rfl
@[simp] theorem modPower_xfers (f : PowerPart → PowerPart) : (modPower f s).xfers = s.xfers := rfl
@[simp] theorem modPower_msgs (f : PowerPart → PowerPart) : (modPower f s).msgs = s.msgs := rfl
@[simp] theorem modPower_links (f : PowerPart → PowerPart) : (modPower f s).links = s.links := rfl
@[simp] theorem modPower_ddr (f : PowerPart → PowerPart) : (modPower f s).ddr = s.ddr := rfl
@[simp] theorem modPower_focal (f : PowerPart → PowerPart) : (modPower f s).focal = s.focal := rfl
@[simp] theorem modPower_grid (f : PowerPart → PowerPart) : (modPower f s).grid = s.grid := rfl
@[simp] theorem modPower_corr (f : PowerPart → PowerPart) : (modPower f s).corr = s.corr := rfl
@[simp] theorem modPower_engines (f : PowerPart → PowerPart) : (modPower f s).engines = s.engines := rfl
@[simp] theorem modPower_bands (f : PowerPart → PowerPart) : (modPower f s).bands = s.bands := rfl
@[simp] theorem modPower_fused (f : PowerPart → PowerPart) : (modPower f s).fused = s.fused := rfl
@[simp] theorem modPower_csn (f : PowerPart → PowerPart) : (modPower f s).csn = s.csn := rfl
@[simp] theorem modPower_cal (f : PowerPart → PowerPart) : (modPower f s).cal = s.cal := rfl
@[simp] theorem modPower_ejt (f : PowerPart → PowerPart) : (modPower f s).ejt = s.ejt := rfl
@[simp] theorem modPower_nvs (f : PowerPart → PowerPart) : (modPower f s).nvs = s.nvs := rfl
@[simp] theorem modPower_lum (f : PowerPart → PowerPart) : (modPower f s).lum = s.lum := rfl
@[simp] theorem modPower_cam (f : PowerPart → PowerPart) : (modPower f s).cam = s.cam := rfl
@[simp] theorem modPower_sadc (f : PowerPart → PowerPart) : (modPower f s).sadc = s.sadc := rfl
@[simp] theorem modPower_thm (f : PowerPart → PowerPart) : (modPower f s).thm = s.thm := rfl
@[simp] theorem modPower_net (f : PowerPart → PowerPart) : (modPower f s).net = s.net := rfl
@[simp] theorem modPower_sec (f : PowerPart → PowerPart) : (modPower f s).sec = s.sec := rfl
@[simp] theorem modPower_pending (f : PowerPart → PowerPart) : (modPower f s).pending = s.pending := rfl

@[simp] theorem modPins_opt (f : Pins → Pins) : (modPins f s).opt = s.opt := rfl
@[simp] theorem modPins_mode (f : Pins → Pins) : (modPins f s).mode = s.mode := rfl
@[simp] theorem modPins_time (f : Pins → Pins) : (modPins f s).time = s.time := rfl
@[simp] theorem modPins_timeOn (f : Pins → Pins) : (modPins f s).timeOn = s.timeOn := rfl
@[simp] theorem modPins_tick (f : Pins → Pins) : (modPins f s).tick = s.tick := rfl
@[simp] theorem modPins_periph (f : Pins → Pins) : (modPins f s).periph = s.periph := rfl
@[simp] theorem modPins_free (f : Pins → Pins) : (modPins f s).free = s.free := rfl
@[simp] theorem modPins_power (f : Pins → Pins) : (modPins f s).power = s.power := rfl
@[simp] theorem modPins_clock (f : Pins → Pins) : (modPins f s).clock = s.clock := rfl
@[simp] theorem modPins_boot (f : Pins → Pins) : (modPins f s).boot = s.boot := rfl
@[simp] theorem modPins_freeze (f : Pins → Pins) : (modPins f s).freeze = s.freeze := rfl
@[simp] theorem modPins_jtag (f : Pins → Pins) : (modPins f s).jtag = s.jtag := rfl
@[simp] theorem modPins_status (f : Pins → Pins) : (modPins f s).status = s.status := rfl
@[simp] theorem modPins_statusBad (f : Pins → Pins) : (modPins f s).statusBad = s.statusBad := rfl
@[simp] theorem modPins_latches (f : Pins → Pins) : (modPins f s).latches = s.latches := rfl
@[simp] theorem modPins_ev (f : Pins → Pins) : (modPins f s).ev = s.ev := rfl
@[simp] theorem modPins_units (f : Pins → Pins) : (modPins f s).units = s.units := rfl
@[simp] theorem modPins_mem (f : Pins → Pins) : (modPins f s).mem = s.mem := rfl
@[simp] theorem modPins_memBad (f : Pins → Pins) : (modPins f s).memBad = s.memBad := rfl
@[simp] theorem modPins_backing (f : Pins → Pins) : (modPins f s).backing = s.backing := rfl
@[simp] theorem modPins_xfers (f : Pins → Pins) : (modPins f s).xfers = s.xfers := rfl
@[simp] theorem modPins_msgs (f : Pins → Pins) : (modPins f s).msgs = s.msgs := rfl
@[simp] theorem modPins_links (f : Pins → Pins) : (modPins f s).links = s.links := rfl
@[simp] theorem modPins_ddr (f : Pins → Pins) : (modPins f s).ddr = s.ddr := rfl
@[simp] theorem modPins_focal (f : Pins → Pins) : (modPins f s).focal = s.focal := rfl
@[simp] theorem modPins_grid (f : Pins → Pins) : (modPins f s).grid = s.grid := rfl
@[simp] theorem modPins_corr (f : Pins → Pins) : (modPins f s).corr = s.corr := rfl
@[simp] theorem modPins_engines (f : Pins → Pins) : (modPins f s).engines = s.engines := rfl
@[simp] theorem modPins_bands (f : Pins → Pins) : (modPins f s).bands = s.bands := rfl
@[simp] theorem modPins_fused (f : Pins → Pins) : (modPins f s).fused = s.fused := rfl
@[simp] theorem modPins_csn (f : Pins → Pins) : (modPins f s).csn = s.csn := rfl
@[simp] theorem modPins_cal (f : Pins → Pins) : (modPins f s).cal = s.cal := rfl
@[simp] theorem modPins_ejt (f : Pins → Pins) : (modPins f s).ejt = s.ejt := rfl
@[simp] theorem modPins_nvs (f : Pins → Pins) : (modPins f s).nvs = s.nvs := rfl
@[simp] theorem modPins_lum (f : Pins → Pins) : (modPins f s).lum = s.lum := rfl
@[simp] theorem modPins_cam (f : Pins → Pins) : (modPins f s).cam = s.cam := rfl
@[simp] theorem modPins_sadc (f : Pins → Pins) : (modPins f s).sadc = s.sadc := rfl
@[simp] theorem modPins_thm (f : Pins → Pins) : (modPins f s).thm = s.thm := rfl
@[simp] theorem modPins_net (f : Pins → Pins) : (modPins f s).net = s.net := rfl
@[simp] theorem modPins_sec (f : Pins → Pins) : (modPins f s).sec = s.sec := rfl
@[simp] theorem modPins_pending (f : Pins → Pins) : (modPins f s).pending = s.pending := rfl

@[simp] theorem modClock_opt (f : TimePart → TimePart) : (modClock f s).opt = s.opt := rfl
@[simp] theorem modClock_mode (f : TimePart → TimePart) : (modClock f s).mode = s.mode := rfl
@[simp] theorem modClock_time (f : TimePart → TimePart) : (modClock f s).time = s.time := rfl
@[simp] theorem modClock_timeOn (f : TimePart → TimePart) : (modClock f s).timeOn = s.timeOn := rfl
@[simp] theorem modClock_tick (f : TimePart → TimePart) : (modClock f s).tick = s.tick := rfl
@[simp] theorem modClock_periph (f : TimePart → TimePart) : (modClock f s).periph = s.periph := rfl
@[simp] theorem modClock_free (f : TimePart → TimePart) : (modClock f s).free = s.free := rfl
@[simp] theorem modClock_pins (f : TimePart → TimePart) : (modClock f s).pins = s.pins := rfl
@[simp] theorem modClock_power (f : TimePart → TimePart) : (modClock f s).power = s.power := rfl
@[simp] theorem modClock_boot (f : TimePart → TimePart) : (modClock f s).boot = s.boot := rfl
@[simp] theorem modClock_freeze (f : TimePart → TimePart) : (modClock f s).freeze = s.freeze := rfl
@[simp] theorem modClock_jtag (f : TimePart → TimePart) : (modClock f s).jtag = s.jtag := rfl
@[simp] theorem modClock_statusBad (f : TimePart → TimePart) : (modClock f s).statusBad = s.statusBad := rfl
@[simp] theorem modClock_latches (f : TimePart → TimePart) : (modClock f s).latches = s.latches := rfl
@[simp] theorem modClock_ev (f : TimePart → TimePart) : (modClock f s).ev = s.ev := rfl
@[simp] theorem modClock_units (f : TimePart → TimePart) : (modClock f s).units = s.units := rfl
@[simp] theorem modClock_mem (f : TimePart → TimePart) : (modClock f s).mem = s.mem := rfl
@[simp] theorem modClock_memBad (f : TimePart → TimePart) : (modClock f s).memBad = s.memBad := rfl
@[simp] theorem modClock_backing (f : TimePart → TimePart) : (modClock f s).backing = s.backing := rfl
@[simp] theorem modClock_xfers (f : TimePart → TimePart) : (modClock f s).xfers = s.xfers := rfl
@[simp] theorem modClock_msgs (f : TimePart → TimePart) : (modClock f s).msgs = s.msgs := rfl
@[simp] theorem modClock_links (f : TimePart → TimePart) : (modClock f s).links = s.links := rfl
@[simp] theorem modClock_ddr (f : TimePart → TimePart) : (modClock f s).ddr = s.ddr := rfl
@[simp] theorem modClock_focal (f : TimePart → TimePart) : (modClock f s).focal = s.focal := rfl
@[simp] theorem modClock_grid (f : TimePart → TimePart) : (modClock f s).grid = s.grid := rfl
@[simp] theorem modClock_corr (f : TimePart → TimePart) : (modClock f s).corr = s.corr := rfl
@[simp] theorem modClock_engines (f : TimePart → TimePart) : (modClock f s).engines = s.engines := rfl
@[simp] theorem modClock_bands (f : TimePart → TimePart) : (modClock f s).bands = s.bands := rfl
@[simp] theorem modClock_fused (f : TimePart → TimePart) : (modClock f s).fused = s.fused := rfl
@[simp] theorem modClock_csn (f : TimePart → TimePart) : (modClock f s).csn = s.csn := rfl
@[simp] theorem modClock_cal (f : TimePart → TimePart) : (modClock f s).cal = s.cal := rfl
@[simp] theorem modClock_ejt (f : TimePart → TimePart) : (modClock f s).ejt = s.ejt := rfl
@[simp] theorem modClock_nvs (f : TimePart → TimePart) : (modClock f s).nvs = s.nvs := rfl
@[simp] theorem modClock_lum (f : TimePart → TimePart) : (modClock f s).lum = s.lum := rfl
@[simp] theorem modClock_cam (f : TimePart → TimePart) : (modClock f s).cam = s.cam := rfl
@[simp] theorem modClock_sadc (f : TimePart → TimePart) : (modClock f s).sadc = s.sadc := rfl
@[simp] theorem modClock_thm (f : TimePart → TimePart) : (modClock f s).thm = s.thm := rfl
@[simp] theorem modClock_net (f : TimePart → TimePart) : (modClock f s).net = s.net := rfl
@[simp] theorem modClock_sec (f : TimePart → TimePart) : (modClock f s).sec = s.sec := rfl
@[simp] theorem modClock_pending (f : TimePart → TimePart) : (modClock f s).pending = s.pending := rfl

end Sys2Proof.Machine
end

