-- ==== Sys2Proof/Laws/Fields.lean ====
section
/-!
SUPPORT. Fields of the status space: what a written field, another field of its word, and another word read after it.
-/

namespace Sys2Proof.Machine

variable (s : State)

theorem lookupW_insertW (a b : Nat) (w : Word) (l : List (Nat × Word)) :
    lookupW (insertW a w l) b = if b = a then some w else lookupW l b := by
  induction l with
  | nil => simp [insertW, lookupW]
  | cons h t ih =>
    obtain ⟨c, x⟩ := h
    unfold insertW
    split
    · simp [lookupW]
    · split
      · subst a; simp only [lookupW]; split <;> simp_all
      · simp only [lookupW, ih]; split <;> split <;> simp_all

/-- A word reads as written, and every other word as before. -/
theorem word_setWord (a b : Nat) (w : Word) : (s.setWord a w).word b = if b = a then w else s.word b := by
  unfold State.word State.setWord
  simp only [lookupW_insertW]
  split <;> simp_all

@[simp] theorem word_setWord_same (a : Nat) (w : Word) : (s.setWord a w).word a = w := by simp [word_setWord]

theorem word_setWord_ne {a b : Nat} (h : b ≠ a) (w : Word) : (s.setWord a w).word b = s.word b := by simp [word_setWord, h]

/-- Is a field one of a word? -/
def Fld.ok (f : Fld) : Prop := f.lo ≤ f.hi ∧ f.hi < 32

theorem testBit_bits (w : Word) (hi lo i : Nat) : (bits w hi lo).testBit i = (decide (i < hi + 1 - lo) && w.getLsbD (lo + i)) := by
  unfold bits BitVec.getLsbD
  rw [Nat.testBit_mod_two_pow, Nat.testBit_div_two_pow, Nat.add_comm i lo]

theorem getLsbD_bitMask (hi lo i : Nat) : (bitMask hi lo).getLsbD i = (decide (i < 32) && decide (lo ≤ i) && decide (i ≤ hi)) := by
  unfold bitMask
  rw [BitVec.getLsbD_shiftLeft, BitVec.getLsbD_ofNat, Nat.testBit_two_pow_sub_one]
  rw [Bool.eq_iff_iff]
  simp only [Bool.and_eq_true, Bool.not_eq_true', decide_eq_true_eq, decide_eq_false_iff_not]
  omega

theorem getLsbD_putBits (w : Word) (hi lo v i : Nat) : (putBits w hi lo v).getLsbD i =
    (decide (i < 32) && if lo ≤ i ∧ i ≤ hi then v.testBit (i - lo) else w.getLsbD i) := by
  unfold putBits
  simp only [BitVec.getLsbD_or, BitVec.getLsbD_and, BitVec.getLsbD_not, getLsbD_bitMask, BitVec.getLsbD_shiftLeft,
    BitVec.getLsbD_ofNat, Nat.testBit_mod_two_pow]
  by_cases h1 : i < 32
  · by_cases h : lo ≤ i ∧ i ≤ hi
    · have h2 : ¬ i < lo := by omega
      have h3 : i - lo < 32 := by omega
      have h4 : i - lo < hi + 1 - lo := by omega
      simp [h1, h, h2, h3, h4]
    · have h2 : (decide (lo ≤ i) && decide (i ≤ hi)) = false := by simpa using h
      have h3 : (!decide (i < lo) && (decide (i - lo < 32) && (decide (i - lo < hi + 1 - lo) && v.testBit (i - lo)))) = false := by
        rw [Bool.eq_false_iff]
        simp only [ne_eq, Bool.and_eq_true, Bool.not_eq_true', decide_eq_true_eq, decide_eq_false_iff_not]
        omega
      rw [if_neg h, Bool.and_assoc, Bool.and_assoc, h2]
      simp only [h1, decide_true, Bool.true_and, Bool.not_false, Bool.and_true]
      rw [h3]; simp
  · simp [h1, BitVec.getLsbD_of_ge w i (by omega)]

/-- The field written holds the value, in its width. -/
theorem bits_putBits (w : Word) (hi lo v : Nat) (h : hi < 32) : bits (putBits w hi lo v) hi lo = v % 2 ^ (hi + 1 - lo) := by
  apply Nat.eq_of_testBit_eq
  intro i
  rw [testBit_bits, getLsbD_putBits, Nat.testBit_mod_two_pow]
  by_cases h1 : i < hi + 1 - lo
  · have h2 : lo + i < 32 := by omega
    have h3 : lo ≤ lo + i ∧ lo + i ≤ hi := by omega
    simp [h1, h2, h3]
  · simp [h1]

/-- A field beside it stays. -/
theorem bits_putBits_ne (w : Word) (hi lo v hi' lo' : Nat) (h : hi' < lo ∨ hi < lo') :
    bits (putBits w hi lo v) hi' lo' = bits w hi' lo' := by
  apply Nat.eq_of_testBit_eq
  intro i
  rw [testBit_bits, testBit_bits, getLsbD_putBits]
  by_cases h1 : i < hi' + 1 - lo'
  · have h3 : ¬ (lo ≤ lo' + i ∧ lo' + i ≤ hi) := by omega
    by_cases h2 : lo' + i < 32
    · simp [h1, h2, h3]
    · have : w.getLsbD (lo' + i) = false := BitVec.getLsbD_of_ge w _ (by omega)
      simp [h2, h3, this]
  · simp [h1]

/-- A field reads what was written to it. -/
theorem getF_setF_same (f : Fld) (v : Nat) (h : f.hi < 32) : getF f (setF f v s) = v % 2 ^ (f.hi + 1 - f.lo) := by
  unfold getF setF
  rw [word_setWord_same, bits_putBits _ _ _ _ h]

/-- A field of another word stays. -/
theorem getF_setF_addr {f g : Fld} (v : Nat) (h : g.addr ≠ f.addr) : getF g (setF f v s) = getF g s := by
  unfold getF setF
  rw [word_setWord_ne s h]

/-- A field beside the one written stays. -/
theorem getF_setF_bits {f g : Fld} (v : Nat) (h : g.hi < f.lo ∨ f.hi < g.lo) : getF g (setF f v s) = getF g s := by
  unfold getF setF
  by_cases ha : g.addr = f.addr
  · rw [ha, word_setWord_same, bits_putBits_ne _ _ _ _ _ _ h]
  · rw [word_setWord_ne s ha]

theorem setF_word_ne {f : Fld} {a : Nat} (v : Nat) (h : a ≠ f.addr) : (setF f v s).word a = s.word a := by
  unfold setF; exact word_setWord_ne s h _

end Sys2Proof.Machine
end

