-- ==== Sys2Proof/Laws/Memory.lean ====
section
/-!
SUPPORT. Memory: reading after writing, and that every operation keeps the canonical form.
-/

namespace Sys2Proof.Machine

/-- Every listed address lies above `a`. -/
def Memory.above (a : Nat) (m : List Host.Cell) : Prop := ∀ c ∈ m, a < c.1

theorem wf_cons (a : Nat) (x : Byte) (m : List Host.Cell) :
    Memory.wf ((a, x) :: m) = true ↔ x ≠ 0 ∧ Memory.above a m ∧ Memory.wf m = true := by
  induction m generalizing a x with
  | nil => simp [Memory.wf, Memory.above]
  | cons c t ih =>
    obtain ⟨b, y⟩ := c
    simp only [Memory.wf, Bool.and_eq_true, decide_eq_true_eq, Memory.above, List.mem_cons, forall_eq_or_imp]
    constructor
    · rintro ⟨⟨hx, hab⟩, hw⟩
      have h := (ih b y).mp hw
      exact ⟨by simpa using hx, ⟨hab, fun c hc => Nat.lt_trans hab (h.2.1 c hc)⟩, hw⟩
    · rintro ⟨hx, ⟨hab, -⟩, hw⟩
      exact ⟨⟨by simpa using hx, hab⟩, hw⟩

theorem readB_above {a : Nat} {m : List Host.Cell} (h : ∀ c ∈ m, a < c.1) : readB m a = 0 := by
  induction m with
  | nil => rfl
  | cons c t ih =>
    obtain ⟨b, x⟩ := c
    have hb : a < b := h (b, x) (List.mem_cons_self ..)
    rw [readB, if_neg (by omega)]
    exact ih fun c hc => h c (List.mem_cons_of_mem _ hc)

theorem mem_writeB {a : Nat} {v : Byte} {m : List Host.Cell} {c : Host.Cell} (h : c ∈ writeB a v m) : c.1 = a ∨ c ∈ m := by
  induction m with
  | nil => simp only [writeB] at h; split at h <;> simp_all
  | cons d t ih =>
    obtain ⟨b, x⟩ := d
    simp only [writeB] at h
    split at h
    · split at h
      · exact .inr h
      · rcases List.mem_cons.mp h with rfl | h
        · exact .inl rfl
        · exact .inr h
    · split at h
      · split at h
        · exact .inr (List.mem_cons_of_mem _ h)
        · rcases List.mem_cons.mp h with rfl | h
          · exact .inl rfl
          · exact .inr (List.mem_cons_of_mem _ h)
      · rcases List.mem_cons.mp h with rfl | h
        · exact .inr (List.mem_cons_self ..)
        · exact (ih h).imp_right (List.mem_cons_of_mem _)

/-- Writing a byte keeps the canonical form. -/
theorem wf_writeB (a : Nat) (v : Byte) {m : List Host.Cell} (h : Memory.wf m = true) : Memory.wf (writeB a v m) = true := by
  induction m with
  | nil => simp only [writeB]; split <;> simp_all [Memory.wf]
  | cons d t ih =>
    obtain ⟨b, x⟩ := d
    have hc := (wf_cons b x t).mp h
    simp only [writeB]
    split
    · split
      · exact h
      · next hab hv =>
        refine (wf_cons ..).mpr ⟨hv, fun c hc' => ?_, h⟩
        rcases List.mem_cons.mp hc' with rfl | hm
        · exact hab
        · exact Nat.lt_trans hab (hc.2.1 c hm)
    · split
      · next hab =>
        subst hab
        split
        · exact hc.2.2
        · next hv => exact (wf_cons ..).mpr ⟨hv, hc.2.1, hc.2.2⟩
      · refine (wf_cons ..).mpr ⟨hc.1, fun c hm => ?_, ih hc.2.2⟩
        rcases mem_writeB hm with e | hm
        · omega
        · exact hc.2.1 c hm

/-- Reading after writing a byte. -/
theorem readB_writeB (a b : Nat) (v : Byte) {m : List Host.Cell} (h : Memory.wf m = true) :
    readB (writeB a v m) b = if b = a then v else readB m b := by
  induction m with
  | nil => simp only [writeB]; split <;> simp_all [readB]
  | cons d t ih =>
    obtain ⟨e, x⟩ := d
    have hc := (wf_cons e x t).mp h
    have hz : a ≤ e → b = a → b ≠ e → readB t b = 0 := fun h1 h2 h3 => readB_above fun c hm => by
      have := hc.2.1 c hm; omega
    simp only [writeB]
    split
    · next hab =>
      split
      · next hv =>
        split
        · next hba => subst hba; rw [readB, if_neg (by omega), hz (by omega) rfl (by omega), hv]
        · rfl
      · simp only [readB]
    · split
      · next hab =>
        subst hab
        split
        · next hv =>
          split
          · next hba => subst hba; rw [hv]; exact readB_above hc.2.1
          · next hba => rw [readB, if_neg hba]
        · simp only [readB]; split <;> simp_all
      · next hn1 hn2 =>
        simp only [readB, ih hc.2.2]
        split
        · next hbe => rw [if_neg (by omega)]
        · rfl

theorem wf_writeBytes (a : Nat) (bs : List Byte) {m : List Host.Cell} (h : Memory.wf m = true) :
    Memory.wf (writeBytes a bs m) = true := by
  induction bs generalizing a m with
  | nil => exact h
  | cons b t ih => exact ih _ (wf_writeB a b h)

/-- Reading after writing bytes. -/
theorem readB_writeBytes (a b : Nat) (bs : List Byte) {m : List Host.Cell} (h : Memory.wf m = true) :
    readB (writeBytes a bs m) b = if a ≤ b ∧ b < a + bs.length then nth 0 bs (b - a) else readB m b := by
  induction bs generalizing a m with
  | nil => rw [writeBytes, if_neg (by simp)]
  | cons v t ih =>
    rw [writeBytes, ih _ (wf_writeB a v h), readB_writeB _ _ _ h]
    simp only [List.length_cons]
    by_cases hb : b = a
    · subst hb
      rw [if_neg (by omega), if_pos rfl, if_pos (by omega), Nat.sub_self, nth]
    · rw [if_neg hb]
      by_cases hr : a + 1 ≤ b ∧ b < a + 1 + t.length
      · rw [if_pos hr, if_pos (by omega), show b - a = (b - (a + 1)) + 1 by omega, nth]
      · rw [if_neg hr, if_neg (by omega)]

/-- Writing words keeps the canonical form. -/
theorem wf_writeWords (a : Nat) (ws : List Word) {m : List Host.Cell} (h : Memory.wf m = true) :
    Memory.wf (writeWords a ws m) = true := by
  induction ws generalizing a m with
  | nil => exact h
  | cons w t ih => exact ih _ (wf_writeBytes a _ h)

/-- Forgetting bytes keeps the canonical form. -/
theorem wf_filter (p : Host.Cell → Bool) {m : List Host.Cell} (h : Memory.wf m = true) : Memory.wf (m.filter p) = true := by
  induction m with
  | nil => rfl
  | cons d t ih =>
    obtain ⟨a, x⟩ := d
    have hc := (wf_cons a x t).mp h
    rw [List.filter_cons]
    split
    · exact (wf_cons ..).mpr ⟨hc.1, fun c hm => hc.2.1 c (List.mem_of_mem_filter hm), ih hc.2.2⟩
    · exact ih hc.2.2

theorem wordBytes_length (w : Word) : (wordBytes w).length = 4 := rfl

/-- Writing words leaves every byte outside them. -/
theorem readB_writeWords_out (a b : Nat) (ws : List Word) {m : List Host.Cell} (h : Memory.wf m = true)
    (hb : b < a ∨ a + 4 * ws.length ≤ b) : readB (writeWords a ws m) b = readB m b := by
  induction ws generalizing a m with
  | nil => rfl
  | cons w t ih =>
    simp only [List.length_cons] at hb
    rw [writeWords, ih _ (wf_writeBytes a _ h) (by omega), readB_writeBytes _ _ _ h, if_neg (by rw [wordBytes_length]; omega)]

theorem word_of_bytes (w : Word) :
    (w >>> 24).setWidth 8 ++ (w >>> 16).setWidth 8 ++ (w >>> 8).setWidth 8 ++ w.setWidth 8 = w := by
  ext i hi
  simp only [BitVec.getElem_append, BitVec.getElem_setWidth, BitVec.getLsbD_ushiftRight]
  grind

theorem readW_writeBytes (a : Nat) (w : Word) {m : List Host.Cell} (h : Memory.wf m = true) :
    readW (writeBytes a (wordBytes w) m) a = w := by
  have at_ (i : Nat) (hi : i < 4) : readB (writeBytes a (wordBytes w) m) (a + i) = nth 0 (wordBytes w) i := by
    rw [readB_writeBytes _ _ _ h, if_pos ⟨by omega, by rw [wordBytes_length]; omega⟩, Nat.add_sub_cancel_left]
  have h0 := at_ 0 (by omega)
  rw [Nat.add_zero] at h0
  rw [readW, h0, at_ 1 (by omega), at_ 2 (by omega), at_ 3 (by omega)]
  exact word_of_bytes w

/-- A word reads the same where its four bytes do. -/
theorem readW_congr {m n : List Host.Cell} {a : Nat} (h : ∀ b, a ≤ b → b < a + 4 → readB m b = readB n b) :
    readW m a = readW n a := by
  simp only [readW, h a (by omega) (by omega), h (a + 1) (by omega) (by omega), h (a + 2) (by omega) (by omega),
    h (a + 3) (by omega) (by omega)]

/-- Words read back as they were written. -/
theorem readWords_writeWords (a : Nat) (ws : List Word) {m : List Host.Cell} (h : Memory.wf m = true) :
    readWords (writeWords a ws m) a ws.length = ws := by
  induction ws generalizing a m with
  | nil => rfl
  | cons w t ih =>
    have hw := wf_writeBytes a (wordBytes w) h
    simp only [List.length_cons, readWords, writeWords, ih _ hw, List.cons.injEq, and_true]
    exact (readW_congr fun b h1 h2 => readB_writeWords_out _ _ _ hw (by omega)).trans (readW_writeBytes a w h)

end Sys2Proof.Machine
end

