-- ==== Sys2Proof/Laws/Units.lean ====
section
/-!
SUPPORT. Execution units: what issuing an instruction, writing a register and moving the pc do.
-/

namespace Sys2Proof.Machine

variable (s : State)

theorem vmod_same {α : Type} {n : Nat} (v : Vector α n) (i : Fin n) (f : α → α) : (vmod v i f)[i] = f v[i] := by
  simp [vmod]

theorem vmod_ne {α : Type} {n : Nat} (v : Vector α n) {i j : Fin n} (f : α → α) (h : j ≠ i) : (vmod v i f)[j] = v[j] := by
  unfold vmod
  have : i.val ≠ j.val := fun e => h (Fin.ext e.symm)
  exact Vector.getElem_set_ne _ _ this

@[simp] theorem modU_unit (u : UnitId) (f : ExUnit → ExUnit) : (modU u f s).units[(u : Nat)] = f s.units[(u : Nat)] :=
  vmod_same _ _ _

theorem modU_unit_ne {u w : UnitId} (f : ExUnit → ExUnit) (h : w ≠ u) : (modU u f s).units[w] = s.units[w] := vmod_ne _ _ h

/-- Two changes of a unit are one. -/
theorem modU_modU (u : UnitId) (f g : ExUnit → ExUnit) : modU u f (modU u g s) = modU u (fun e => f (g e)) s := by
  simp [modU, vmod]

/-- A change of a unit is told by what it makes of the unit as it stands. -/
theorem modU_congr {u : UnitId} {f g : ExUnit → ExUnit} (h : f s.units[u] = g s.units[u]) : modU u f s = modU u g s := by
  simp only [modU, vmod]
  rw [h]

/-- A change that changes nothing. -/
theorem modU_self (u : UnitId) (f : ExUnit → ExUnit) (h : f s.units[u] = s.units[u]) : modU u f s = s := by
  have : vmod s.units u f = s.units := by
    unfold vmod
    rw [h]
    exact Vector.set_getElem_self _
  simp [modU, this]

/-- An instruction that nothing holds back acts. -/
theorem issue_acts {u : UnitId} {c : Cls} {wide : Bool} {rs : List RegRef} {act : State → State} {s : State}
    (h : issues u c wide rs s) : issue u c wide rs false act s = act s := by
  unfold issues at h
  simp only [Bool.and_eq_true, Bool.not_eq_true', Bool.and_eq_false_iff] at h
  obtain ⟨⟨⟨⟨⟨h1, h2⟩, h3⟩, h4⟩, h5⟩, h6⟩ := h
  unfold issue
  rcases h6 with h6 | h6 <;> simp [h1, h2, h3, h4, h5, h6]

/-- s0 reads zero. -/
@[simp] theorem getS_zero (u : UnitId) : getS u 0 s = 0 := by simp [getS]

theorem setS_modU (u : UnitId) (d : Reg) (x : Word) :
    setS u d x s = modU u (fun e => if d = 0 then e else { e with s := e.s.set d x }) s := by
  unfold setS
  split
  · exact (modU_self _ _ _ rfl).symm
  · rfl

/-- A scalar register reads as written; s0 discards. -/
theorem getS_setS_same (u : UnitId) (d : Reg) (w : Word) : getS u d (setS u d w s) = if d = 0 then 0 else w := by
  unfold getS setS
  split
  · rfl
  · simp [modU, vmod]

theorem getS_setS_ne {u : UnitId} {d n : Reg} (w : Word) (h : n ≠ d) : getS u n (setS u d w s) = getS u n s := by
  unfold getS setS
  split
  · rfl
  · split
    · rfl
    · simp only [Fin.getElem_fin, modU_unit]
      exact Vector.getElem_set_ne _ _ (fun e => h (Fin.ext e.symm))

@[simp] theorem getS_advance (u : UnitId) (n : Reg) (w : Bool) : getS u n (advance u w s) = getS u n s := by
  simp [getS, advance, setPc]

@[simp] theorem getV_advance (u : UnitId) (n : Reg) (w : Bool) : getV u n (advance u w s) = getV u n s := by
  simp [getV, advance, setPc]

@[simp] theorem getP_advance (u : UnitId) (n : Pred) (w : Bool) : getP u n (advance u w s) = getP u n s := by
  simp [getP, advance, setPc]

theorem advance_pc (u : UnitId) (w : Bool) :
    (advance u w s).units[(u : Nat)].pc = (s.units[(u : Nat)].pc + (if w then 2 else 1)) % codeSize u := by
  simp [advance, setPc]

@[simp] theorem advance_ranAt (u : UnitId) (w : Bool) : (advance u w s).units[(u : Nat)].ranAt = some s.periph := by
  simp [advance, setPc]

@[simp] theorem setS_periph (u : UnitId) (d : Reg) (x : Word) : (setS u d x s).periph = s.periph := by
  unfold setS; split <;> rfl

@[simp] theorem setS_pc (u : UnitId) (d : Reg) (x : Word) : (setS u d x s).units[(u : Nat)].pc = s.units[(u : Nat)].pc := by
  unfold setS; split <;> simp

/-- Writing a scalar register changes only the unit's scalar registers. -/
theorem setS_frame (u : UnitId) (d : Reg) (x : Word) :
    setS u d x s = modU u (fun e => { e with s := (setS u d x s).units[u].s }) s := by
  unfold setS
  split
  · exact (modU_self _ _ _ rfl).symm
  · simp [modU, vmod]

theorem setV_frame (u : UnitId) (d : Reg) (x : Vector Word 32) :
    setV u d x s = modU u (fun e => { e with v := (setV u d x s).units[u].v }) s := by
  simp [setV, modU, vmod]

theorem advance_frame (u : UnitId) (w : Bool) :
    advance u w s = modU u (fun e => { e with pc := (advance u w s).units[u].pc, ranAt := some s.periph }) s := by
  simp [advance, setPc, modU, vmod]

end Sys2Proof.Machine
end

