-- ==== Sys2Proof/Laws/Stride.lean ====
section
/-!
SUPPORT. What each shared operation of the SCALAR, VECTOR and MAC instructions does where nothing holds it back.
-/

namespace Sys2Proof.Machine

variable {i : Instr} {u : UnitId} {s : State}

/-- A scalar register is written and the pc moves on. -/
theorem writesScalar_of {d : Reg} {x : Word} {wide : Bool} (hi : exec i s = .next (advance u wide (setS u d x s))) :
    writesScalar i u d x wide s := by
  refine ⟨_, hi, ?_, ?_, ?_, ?_, ?_⟩
  · simp [getS_setS_same]
  · intro n hn; simp [getS_setS_ne, hn]
  · simp [passed, advance_pc]
  · rw [advance_frame, setS_frame]
    simp [modU_modU]
  · intro a; simp [setS]; split <;> rfl

theorem scalarOp_does {d a : Reg} {b : Src} {f : Word → Word → Word}
    (h : issues u .scalar (srcImm b) (.s d :: .s a :: srcRegs b) s) (hi : exec i s = .next (scalarOp u d a b f s)) :
    writesScalar i u d (f (getS u a s) (srcVal u b s)) (srcImm b) s := by
  apply writesScalar_of
  rw [hi]; unfold scalarOp; rw [issue_acts h]

theorem regSucc_ne {d : Reg} : regSucc d ≠ d := by
  unfold regSucc; revert d; decide

theorem regSucc_pair {d : Reg} (h : isPair d = true) : regSucc d ≠ 0 := by
  unfold regSucc isPair at *; revert d; decide

theorem pairOp_does {d a : Reg} {b : Src} {f : BitVec 64 → BitVec 64 → BitVec 64} (hd : isPair d = true)
    (h : issues u .scalar (srcImm b) (pairRegs d ++ pairRegs a ++ srcPairRegs b) s)
    (hi : exec i s = .next (pairOp u d a b f s)) :
    writesPair i u d (f (getPair u a s) (srcPair u b s)) (srcImm b) s := by
  refine ⟨_, hi, ?_⟩
  unfold pairOp
  rw [issue_acts h]
  refine ⟨?_, ?_, ?_, ?_, ?_, ?_⟩
  · simp only [setPair, getS_advance]
    rw [getS_setS_ne _ _ regSucc_ne.symm, getS_setS_same]
  · simp [setPair, getS_setS_same, regSucc_pair hd]
  · intro n h1 h2
    simp only [setPair, getS_advance]
    rw [getS_setS_ne _ _ h2, getS_setS_ne _ _ h1]
  · simp [passed, advance_pc, setPair]
  · simp only [advance, setPc, setPair, setS_modU, modU_modU]
    apply modU_congr
    simp only [Fin.getElem_fin, modU_unit]
    simp only [if_neg (regSucc_pair hd)]
    by_cases h0 : d = 0
    · simp only [if_pos h0]
    · simp only [if_neg h0]
  · intro x; simp [setPair, setS]; split <;> split <;> rfl

/-- A vector register is written and the pc moves on. -/
theorem writesLanes_of {d : Reg} {pg : Option Pred} {f : Fin 32 → Word} {x : Vector Word 32} {wide : Bool}
    (hi : exec i s = .next (advance u wide (setV u d x s)))
    (hx : ∀ k : Fin 32, x[k] = if allows u pg s k then f k else (getV u d s)[k]) : writesLanes i u d pg f wide s := by
  refine ⟨_, hi, ?_, ?_, ?_, ?_, ?_⟩
  · intro k
    rw [← hx k]
    simp [getV, setV, advance, setPc]
  · intro n hn
    have : (n : Nat) ≠ d := fun e => hn (Fin.ext e)
    simp [getV, setV, advance, setPc, Vector.getElem_set_ne _ _ this.symm]
  · simp [passed, advance_pc, setV]
  · rw [advance_frame, setV_frame]
    simp [modU_modU]
  · intro a; rfl

theorem lanes_get (f : Fin 32 → Word) (k : Fin 32) : (lanes f)[k] = f k := by simp [lanes]

theorem laneOp_does {c : Cls} {d a : Reg} {b : VSrc} {pg : Option Pred} {f : Word → Word → Word → Word}
    (h : issues u c (vsrcImm b) (.v d :: .v a :: vsrcRegs b) s) (hi : exec i s = .next (laneOp u c d a b pg f s)) :
    writesLanes i u d pg (fun k => f (getV u d s)[k] (getV u a s)[k] (vsrcLane u b s k)) (vsrcImm b) s := by
  refine writesLanes_of (by rw [hi]; unfold laneOp; rw [issue_acts h]) ?_
  intro k
  rw [lanes_get]

theorem laneOp1_does {d a : Reg} {pg : Option Pred} {f : Word → Word} (h : issues u .vector false [.v d, .v a] s)
    (hi : exec i s = .next (laneOp1 u d a pg f s)) : writesLanes i u d pg (fun k => f (getV u a s)[k]) false s := by
  refine writesLanes_of (by rw [hi]; unfold laneOp1; rw [issue_acts h]) ?_
  intro k
  rw [lanes_get]

/-- A fold that sets a bit for each index of a list. -/
theorem foldBits_get (f : Fin 32 → Bool) (l : List (Fin 32)) (a : BitVec 32) (k : Fin 32) :
    (l.foldl (fun a k => if f k then a ||| BitVec.twoPow 32 k else a) a).getLsbD k = (a.getLsbD k || (decide (k ∈ l) && f k)) := by
  induction l generalizing a with
  | nil => simp
  | cons x t ih =>
    rw [List.foldl_cons, ih]
    by_cases hx : f x
    · simp only [hx, if_true, BitVec.getLsbD_or, BitVec.getLsbD_twoPow]
      by_cases hk : k = x
      · subst hk; simp [hx]
      · have : (x : Nat) ≠ k := fun e => hk (Fin.ext e.symm)
        simp [hk, this]
    · by_cases hk : k = x
      · subst hk; simp [hx]
      · simp [hx, hk]

/-- The bits of a predicate are those of its lanes. -/
theorem laneBits_get (f : Fin 32 → Bool) (k : Fin 32) : (laneBits f).getLsbD k = f k := by
  unfold laneBits
  rw [foldBits_get]; simp

/-- A predicate register is written and the pc moves on. -/
theorem writesPred_of {d : Pred} {f : Fin 32 → Bool} {wide : Bool} (hi : exec i s = .next (advance u wide (setP u d (laneBits f) s))) :
    writesPred i u d f wide s := by
  refine ⟨_, hi, ?_, ?_, ?_, ?_, ?_⟩
  · intro k
    rw [← laneBits_get f k]
    simp [getP, setP, advance, setPc]
  · intro n hn
    have : (n : Nat) ≠ d := fun e => hn (Fin.ext e)
    simp [getP, setP, advance, setPc, Vector.getElem_set_ne _ _ this.symm]
  · simp [passed, advance_pc, setP]
  · simp only [advance, setPc, setP, modU_modU]
    apply modU_congr
    simp only [Fin.getElem_fin, modU_unit]
  · intro a; rfl

end Sys2Proof.Machine
end

