-- ==== Sys2Proof/Tests/Slice0.lean ====
section
/-!
SUPPORT. The model's own tests: ill-formed operands that the check refuses, worked examples of the spec, and for each
statement with hypotheses a small state and operands that meet the hypotheses of its clauses together.
-/

namespace Sys2Proof.Tests

open Sys2Proof.Machine

/-- The state a command answers. -/
def nextOf (o : Host.Outcome State Fault Refusal) : State :=
  match o with
  | .next t => t
  | _ => State.reset

/-- The copy that a key resolves to. -/
def foundIn (x : Resolved) : Option Copy :=
  match x with
  | .found c => some c
  | _ => none

/-! ### Helpers: small states from reset -/

def r : State := State.reset
/-- a unit running with registers, vectors, predicates, tags -/
def unit (u : UnitId) (pc : Nat) (st : Nat) (hd : Option Nat) (s : State) : State :=
  setF (F.isaUStateState u) st (modU u (fun e => { e with
    pc := pc, handler := hd,
    s := ((e.s.set 1 7).set 2 (-3)).set 3 0x80000000 |>.set 4 131072 |>.set 31 0x10003,
    v := (e.v.set 1 (Vector.ofFn fun k : Fin 32 => BitVec.ofNat 32 (k.val * 0x12345671 + 5))).set 2 (Vector.ofFn fun k : Fin 32 => BitVec.ofNat 32 (0xFFFFFFF0 + 3 * k.val)),
    p := (e.p.set 1 0x0F0F00FF).set 2 0xFFFFFFFF,
    tags := ((e.tags.set 1 .busy).set 2 (.doneErr 6)).set 3 .doneOk }) s)
def a : State := unit 0 5 1 none r
def h : State := unit 26 32767 2 (some 100) r
def g : State := unit 0 16383 1 (some 9) r
def fen : State := modU 26 (fun e => { e with fence := [1] }) h
def mem1 : List Host.Cell := (List.range 200).map (fun i => (i*3+4, BitVec.ofNat 8 (i%250+1)))
/-- memory contents at unit 0's base, ops in flight -/
def ops (l : List MemOp) (s : State) : State := modU 0 (fun e => { e with ops := l, windows := [(0, 0, 65536), (1, 1024, 4096)] }) { s with mem := mem1 }
def ld : State := ops [⟨1, .ld 4 false 5, 8⟩] a
def ldh : State := ops [⟨1, .ld 2 true 0, 10⟩] a
def ldb : State := ops [⟨1, .ld 1 true 3, 11⟩] a
def ldd : State := ops [⟨1, .ldD 0, 16⟩] a
def ldv : State := ops [⟨1, .ldV 3, 4⟩] a
def stw : State := ops [⟨1, .st 4 [0xDEADBE00], 8⟩] a
def sth : State := ops [⟨1, .st 2 [0xDEADBE00], 10⟩] a
def stb : State := ops [⟨1, .st 1 [0xDEADBE00], 11⟩] a
def std : State := ops [⟨1, .st 8 [0xDEADBE00, 5], 16⟩] a
def stv : State := ops [⟨1, .st 128 (List.replicate 32 7), 4⟩] a
def xf (e : Nat) (out : Bool) (addr base len : Nat) (c : Option Nat) : Xfer := { unit := 0, tag := 1, out, ep := e, addr, base, len, code := c }
def xs (l : List Xfer) (s : State) : State := { ops [] s with xfers := l, boot := { s.boot with place := [(3, 3), (0, 0)] } }
def xo : State := xs [xf 3 true 64 8 16 none] a
def xi : State := xs [xf 3 false 64 8 16 none] { a with mem := mem1 }
def xs0 : State := xs [xf 0 false 8 12 16 none] a
def done0 : State := xs [xf 3 false 64 8 16 (some 0)] a
def done4 : State := xs [xf 3 false 64 8 16 (some 4)] a
-- EJECT block in s8..s15 of unit 0
def blk (c : List Word) : List Word := c ++ c.map (fun w => ~~~ w)
def ej (done none_ : Bool) (prof valve band hold line : Nat) (st : Nat) : List Word :=
  blk [BitVec.ofNat 32 st, 0, BitVec.ofNat 32 ((if done then 2^31 else 0) + (if none_ then 2^30 else 0) + prof*2^26 + valve*2^19 + band*2^15 + hold), BitVec.ofNat 32 line]
def putBlk (l : List Word) (s : State) : State := modU 0 (fun e => { e with s := Vector.ofFn fun k : Fin 32 => if k.val < 8 then 0 else nth 0 l (k.val-8) }) s
def ej1 : State := putBlk (ej true false 3 70 2 400 9 7000000) a
def ej2 : State := putBlk (ej false true 0 0 15 0 9 0) a
def ej3 : State := setAt F.rstDieDieUp 7 false (putBlk (ej true false 3 70 2 400 9 7000000) a)
def note (b n : Nat) (st : LineState) (blind := false) (bound := 6500000) : Kept := ⟨{ fused := some n, band := b, n := n, warm := false, blind := blind, view := 6400000, bound := bound }, st⟩
def shot (l : Nat) (t : Option (Int × Int × Nat)) : Shot := { band := 2, line := l, start := 7000000, prof := 3, hold := 400, times := t }
def run0 : Run := { w := [0x00004640, 0x00001400#32 + 0x8000, 0x0A03E800], at_ := 6400000, stop := 6500000, byMax := true, inPeak := true, on := true, chopped := false, search := true, holdAt := 0 }
def valves (st : LineState) : State :=
  let s := modNotes 1 2 (fun _ => { kept := [note 2 9 st, note 2 8 .open_], ever := [(0, 12)] }) r
  let s := setF (F.ejtVStateEnabled 1 6) 1 (setF (F.ejtProfileStateLoaded 1 3) 1 s)
  State.setWord (F.ejtDieCfg0 1) (BitVec.ofNat 32 (500*2^18 + 64*3)) s
def msg1 (b : List Word) (o := false) (s : State) : State := { s with msgs := s.msgs.set 1 [.eject 0 o b, .latch 0 false []] }
def ea0 : State := msg1 (ej false false 3 70 2 400 9 7000000) false (valves .open_)
def ea1 : State := msg1 (ej true false 3 70 2 400 9 7000000) true (valves .decided)
def ea2 : State := msg1 (ej true false 3 70 2 400 9 7000000) false (valves .defaulted)
def ea3 : State := msg1 [1,2,3,4] false (valves .defaulted)
def coming : State := modEjt 1 (fun e => { e with coming := [(note 2 11 .open_).note, (note 3 1 .open_).note] }) (valves .open_)
def full : State := modNotes 1 2 (fun _ => { kept := (List.range 32).map (fun i => note 2 (100 - i) .open_), ever := [(0, 12)] }) coming
def queued (l : List Shot) (s : State) : State := modChan 70 (fun c => { c with queue := l }) s
def bound : State := queued [shot 9 none, shot 9 (some (6600000, 6700000, 1000000)), shot 8 none] (valves .open_)
def wait1 : State := queued [shot 9 none, shot 9 (some (6500000, 6700000, 1000000)), shot 8 none] (valves .open_)
def wait2 : State := queued [shot 9 none, shot 9 (some (6400000, 6499999, 1000000)), shot 8 (some (6450000, 6600000, 1000000))] (valves .open_)
def lateq : State := queued [{ shot 9 none with start := 5000000 }, shot 8 none] (valves .open_)
def runs : State := modChan 70 (fun c => { c with run := some run0, lag := some 1600, r25 := 2500 }) (valves .open_)
def runs2 : State := modChan 70 (fun c => { c with run := some { run0 with inPeak := false, search := false, byMax := false, w := [0,0x8000,0]}, lag := none, quench := true, overRow := 2, queue := [shot 9 none] }) (valves .open_)
def runs3 : State := modChan 71 (fun c => { c with quench := true, run := some run0 }) runs
def rec_ (ep : Nat) (ws : List Word) (s : State) (u : UnitId := 0) (addr := 0) : State :=
  { s with mem := writeWords (storeBase u + 64) ws s.mem, xfers := [{ unit := u, tag := 1, out := true, ep, addr, base := 64, len := 4 * ws.length, code := none }] }
def xrec (ep len : Nat) (u : UnitId := 0) (addr := 0) : Xfer := { unit := u, tag := 1, out := true, ep, addr, base := 64, len := 4*len, code := none }
def rd (ep len addr : Nat) (s : State) (u : UnitId := 0) : State :=
  { s with xfers := [{ unit := u, tag := 1, out := false, ep, addr, base := 64, len := len, code := none }] }
def xrd (ep len addr : Nat) (u : UnitId := 0) : Xfer := { unit := u, tag := 1, out := false, ep, addr, base := 64, len := len, code := none }
def w32 (n : Nat) : Word := BitVec.ofNat 32 n
-- EJT
def dieRec : List Word := [w32 (100*2^18 + 10*2^10 + 3*2^6), w32 (0xF6*2^24 + 100*2^16 + 10*2^8 + 20)]
def profRec : List Word := [w32 (2^28 + 5*2^24 + 256*2^15 + 20*2^3), w32 (50*2^23 + 10*2^16 + 255*2^7), w32 (20*2^20 + 4095*2^8 + 0x35)]
def valRec : List Word := [w32 (2*2^28 + 3*2^22 + 2*2^15), w32 (2^31 + 10000*2^16 + 2500), w32 (100*2^16), w32 (3*2^16 + 0), 0]
-- LUM
def lumDie : List Word := [w32 (2^27 + 2^25 + 8*2^21 + 9999*2^4), w32 (50*2^26 + 900*2^16 + 0x0021)]
def lumStr (en : Bool) : List Word := [w32 (2^28 + 2*2^26 + (if en then 2^25 else 0) + 31*2^18 + 63*2^12 + 0x3FF*4), w32 (150*2^24 + 5*2^16 + 3500*8), w32 (2*2^30), w32 (1000*2^16)]
def lamp1 : State := modU 0 (fun e => { e with s := (e.s.set 5 0x6B#32).set 6 1500 }) a
def lch (t : Nat) : List Word := blk [w32 (t % 2^32), w32 (t / 2^32), w32 (2^31 + 2^29 + 2^28), 0x1234]
def latch0 : State := { r with msgs := r.msgs.set 0 [.latch 0 false (lch 7000000), .latch 0 false []] }
def latch1 : State := modLum 0 (fun e => { e with latch := some ⟨5, 6⟩ }) { r with msgs := r.msgs.set 0 [.latch 0 false (lch 60006500000), .latch 0 false []] }
def latch2 : State := modLum 0 (fun e => { e with latch := some ⟨5, 6⟩ }) { r with msgs := r.msgs.set 0 [.latch 0 false (lch 6000000), .latch 0 false []] }
def strOn (n : Strng) (s : State) : State :=
  let d := strDie n; let j := strIdx n
  let s := s.setWord (F.lumSCfg0 d j) (nth 0 (lumStr true) 0) |>.setWord (F.lumSCfg1 d j) (nth 0 (lumStr true) 1) |>.setWord (F.lumSCfg2 d j) (nth 0 (lumStr true) 2) |>.setWord (F.lumSCfg3 d j) (nth 0 (lumStr true) 3)
  setF (F.lumSStateEnabled d j) 1 (setF (F.lumSStateRunning d j) 1 (setF (F.lumSSetISet d j) 700 (setF (F.lumSSetDuty d j) 0x8000 (setF (dutyFld n 3) 0xFFFF s))))
def applyS : State := modLum 0 (fun e => { e with latch := some ⟨6500000, 0x12345⟩, stage := [(0, 5), (10, 70000), (27, 1200), (12*4, 3)], record := some (nth 0 lumDie 0, nth 0 lumDie 1) }) (strOn 2 r)
def decay : State := modStr 2 (fun e => { e with decaying := true, waits := true, therm := some 20000, sens := [900, 1000] }) r
def per : State := modStr 1 (fun e => { e with waits := true }) (setF (F.lumSSetISet 0 1) 3 (setF (F.lumSSetDuty 0 1) 0xFFFF (strOn 2 r)))
def matr : State := (setF (F.lumDieStateMatrix 0) 1 (setF (F.lumDieStateLines 0) 1 per)).setWord (F.lumDieCfg1 0) (nth 0 lumDie 1)
def loopS : State := setF (F.lumSTrimTrim 0 2) 33000 (modStr 2 (fun e => { e with therm := some 20000, sens := [900, 1000] }) (strOn 2 r))
def loop1 : State := (modStr 2 (fun e => { e with therm := some 300 }) loopS).setWord (F.lumSCfg2 0 2) (w32 (2^30))
def loopF : State := setF (F.lumSStateFault 0 2) 4 (setF (F.lumSTrimTrim 0 2) 39000 (modStr 2 (fun e => { e with therm := some 0, sens := [0] }) (strOn 2 r)))
def lit : State := setF (lampFld 2 3) 3 (strOn 2 r)
def short : State := setF (dutyFld 2 3) 10 (setF (F.lumSSetDuty 0 2) 10 (strOn 2 r))
-- SADC
def sadcSeqRec : List Word := [w32 (1*2^28 + 30*2^23 + 2*2^17), w32 (56*2^26), w32 (63*2^26 + 2^23)]
def sadcHur : List Word := [w32 (2*2^28 + 5*2^25 + 2^24 + 3*2^18 + 1*2^14), w32 (100*2^16 + 5)]
def sOn (ent gap : Bool) (s : State) : State := setF F.sadcStateStart 1 (setF F.sadcStatePass 255 (setF F.sadcStateEntry 3 (modSadc (fun e => { e with entry := ent, gap := gap }) s)))
def modeReg (m : Nat) : State := modU 0 (fun e => { e with s := e.s.set 5 (w32 m) }) a
def sFull : State := (modSadc (fun e => { e with ring := List.replicate 64 (7, 8), ovrEnd := some 6499000, next := e.next.set 2 (some (nth 0 sadcHur 0, nth 0 sadcHur 1)) }) (sOn true false r)).setWord F.sadcCfg (w32 (4*2^22))
def sMid : State := (sOn true false r).setWord F.sadcCfg (w32 (32*2^22 + 5*2^10))
def inj (src : InjSrc) (i : Nat) (k : Nat) : Inj := ⟨src, Fin.ofNat 64 i, 0, k⟩
def sInj (r' : Inj) : State := modSadc (fun e => { e with inj := some r' }) r
def retr : State := { modSadc (fun e => { e with retry := [inj .cal 5 4] }) r with cal := { r.cal with runs := [] } }
-- NVS
def cp (k seq sec : Nat) (v : Bool) (d : List Byte) : Copy :=
  let c : Copy := { part := 2, key := k, keyN := 65535 - k, type := 0, data := d, seq, gen := 0, crc := 0, commit := v, cells := 0, sector := sec, words := 4, skip := false }
  { c with crc := crc32 c.head }
def wr (save : Bool := false) : NvsWrite := ⟨2, 0x1005, [1,2,3,4], 0, none, save⟩
def nvs1 : State := modNvs (fun n => { n with queue := [wr, wr true], copies := [cp 0x1005 3 321 true [9,9,9,9]] }) r
def nvs2 (f : Nat) : State := modNvs (fun n => { n with prog := some ⟨4, 320, 4, f, 0⟩ }) nvs1
def nvsC : State := modNvs (fun n => { n with
  sectors := (List.range 159).map (fun i => (320 + i, { Sector.erased i with state := 0xFF00, used := 20 }))
  opens := [(4, 322)],
  copies := [cp 0x1005 2 320 false [9,9,9,9], cp 0x1007 0 320 true [8,8,8,8], cp 0x1007 1 321 true [7,7,7,7], cp 0x1006 5 322 true []] }) r
def nvsE : State := modNvs (fun n => { n with sectors := [(5, { Sector.erased 99999 with state := 0, used := 20 }), (6, { Sector.erased 3 with state := 0, used := 20 })], copies := [cp 0x1005 2 5 false [9,9,9,9], cp 0x1005 2 6 true [9,9,9,9]] }) r
def unl (n : Nat) (s : State) : State := setF F.nvsAccessUnlockN (255 - n) (s.setWord F.nvsAccess (putBits (s.word F.nvsAccess) 7 0 n))
def nvsAd (p op k : Nat) : Nat := p * 2^30 + op * 2^27 + k
def calRec : List Word := [w32 (2^30 + 5*2^22 + 5*2^14 + 2*2^6), w32 (1023*2^22 + 5*2^14 + 3*2^4), w32 (40*2^20 + 50*2^8 + 8*2^4), w32 (60*2^16)]
def calCfg (s : State) : State := { s with mem := s.mem } |> (fun s => s.setWord F.calCfg0 (nth 0 calRec 0)) |> (fun s => s.setWord (F.calCfg0+4) (nth 0 calRec 1)) |> (fun s => s.setWord (F.calCfg0+8) (nth 0 calRec 2)) |> (fun s => s.setWord (F.calCfg0+12) (nth 0 calRec 3))
def c0 : State := calCfg a
def pend (i : Nat) (s : State) : State := modCal (fun c => { c with since := (i, 0) :: c.since }) (setAt F.calStatePending i true s)
def running (i : Nat) (ph : CalPhase) (s : State) : State := let s := startRun { newRun i ph s with start := 0 } s; s
def gap (o : Bool) (st len : Nat) (s : State) : State := modCal (fun c => { c with gap := some ⟨st, len, o⟩ }) s
def late (s : State) : State := { s with time := 3600000000000 * 60 }
-- ALONG
def algRec (t m s3 s4 : Nat) : List Word := [w32 (t*2^24 + m*2^23 + 2^21 + s3*2^18 + s4*2^15 + 3*2^11), w32 (200*2^23), w32 (4*2^27), w32 (10*2^16+5)]
def ram4 (t : Nat) : List Word := [w32 (t*2^24 + 2^23 + 2^21 + 2*2^17), w32 (8192*2^16 + 8192)]
def ram3 (t : Nat) : List Word := w32 (t*2^24) :: (List.range 256).map fun i => if i % 4 = 0 then w32 16384 else 0
-- camera
def camRec : List Word := [w32 (2^31 + 1*2^25 + 1*2^18 + 6), w32 (10*2^20 + 20*2^10), w32 (5*2^16 + 2*2^8 + 2), w32 (7*2^16 + 3), w32 0]
def camS (s : State) : State := (List.range 5).foldl (fun s i => s.setWord (F.camCfg0 0 + 4 * i) (nth 0 camRec i)) s
def camF (s : State) : State := s.setWord (F.camCfg0 0 + 4) (w32 (10*2^20 + 20*2^10 + 2))
def k0 : State := setF (F.fpdStateRun 0) 1 (camS a)
def trg (n : Nat) (lined done : Bool) : CamTrig := ⟨n, 6400000 + n * 1000, 6401000, 0, 50, none, lined, done, false⟩
def ln (n : Nat) : CamLn := ⟨n, 6401000, 0, [(List.range 6).map fun i => ((i * 100 : Nat), false)], false, false⟩
def withP (f : CamPort → CamPort) (s : State) : State := modCam 0 f s
def cc (pl : Option (Fin 8)) : ClusterCode := { place := pl, code := [w32 (2^26), w32 (2^26 + 2^15)], handler := some 1, windows := [(0, 4096, 8192)], consts := [(8, [1, 2])], bounds := [] }
/-! Two owner keys on brainpoolP384r1 and signatures by the first, made with OpenSSL: of an image, and of three authorisation blocks. -/
def own0 : List Byte := beBytes 96 0x8879c0f7e9606390e60e79d56e7ca74789dc218aef712e052f601023c73e4fde5e1488cbe97a0af38eab7040baecbda8832d91d0323c376ff3c627f3df72844b7bed3bae936e8767b444600d2902ef736dbf19ae65341bee1225fcdf3c58bd6f
def own1 : List Byte := beBytes 96 0x5402651d9eb8195903de1197793946a284cd855f1d1ae919cd349fcf13a05614ca124c0060605880fe8ddca37ee632d113d06f10d3ad3e6f49023222f87ed427c6198c9b5369aad460a086fc3412c5123d71dbb2c2d028d4f486f9925db2acfd
def imgSig : List Byte := beBytes 96 0x5463f98ad136631920d14e60c162844f58fe41606ea85fd3330d916e667147978207f70aac1f575a1a6577f5e2534a0d06ce8d18117b7d8f78fde899422afed159fda042b3208e3498515023b9236660f58878f998a5e35cfc2caba99bcfcd9d
def sigAdd : List Byte := beBytes 96 0x3867d73e8fc9a1ee977f85877a51a99ddb5229ba515f3d95967bc32a33ba53b6171f882362a59b26e0e79a3ffec6722b1e770a138de85a73dfde2ab1beffa2581706071cd5a50d838b074f0d5335e8fa4c7f27059ab33500c33eb64ee73ea63f
def sigRev : List Byte := beBytes 96 0x58205dc1d3aa7f6e622b7d1d5d086ba8b77b0c5aba1dbc3460a8034e851aeba79ff89c1e37aceb36211e03b5fa9ec77e2a994011a3eee3512394238d2340b88ba63620da6a9990242b675b7b8eab125edbbc771e843b0c723160acbb65df5773
def sigLcs : List Byte := beBytes 96 0x61bc05f18d403f0d82c15dc5f3b0c78707362eaed37c2757b4825bd719457c7e82b76fe066e59267d2304f3fdef262fc6fa1c701971f250173f4d6be6ba931630765057d757070451a2e11858a782ba62eb30c71d441fbc8e74e2808b22e0754
def img : Image := { magic := imageMagic, version := 7, optZt4 := true, optZt8 := true, stepReq := 0xB1, signer := 0, hub := [[w32 (2^26)], [w32 (2^26)]], hubHandler := [some 0], hubConsts := [[(0, [5])]], clusters := [cc none, cc (some 2)], budget := some 1000, classifiers := some 1, lmin := some 100, defaults := (List.replicate 16 (some .none)), chain := [], raw := (List.range 64).map (BitVec.ofNat 8), sig := imgSig }
def imgForged : Image := { img with sig := List.replicate 96 7 }
def imgBad : Image := { img with budget := some 1000000 }
def act (s : State) : State := setF F.lcsStateState 2 (setF F.lcsStateStateN 253 (setF F.secKeysSlots 1 (setF F.secKeysSlotsN 254 { s with sec := { s.sec with otp := (2, 253), keys := s.sec.keys.set 0 own0 } })))
def hd (op mode : Nat) (a : Nat) (len : Nat) : Hdr := { magic := 0x5A43, version := 1, opcode := BitVec.ofNat 8 op, addr := w32 (mode * 2^30 + a), uid := 0, seq := 77, length := BitVec.ofNat 16 len, status := 0, flags := 0, srcIp := 0x0A000001, dstIp := 0xA9FE0100, srcPort := 5000, sum := 0, eth := 0, mac := 7 }
def ethup (s : State) : State := setAt F.lnkPortEthUp 0 true (setAt F.lnkPortEthUp 1 true s)
def vgdup (s : State) : State := setAt F.lnkPortVgdUp 0 true (setAt F.lnkPortVgdUp 1 true s)

/-! ### Operands that the loader's checks refuse (R263, R270, R271, R277) -/

theorem test_wf_oddPair : WellFormed (.addD 0 5 4 (.reg 8)) = false ∧ WellFormed (.loadD 0 5 ⟨none, 3, 0⟩ .auto) = false := by decide
theorem test_wf_shiftConstant : WellFormed (.shl 0 1 2 (.imm 32)) = false ∧ WellFormed (.shl 0 1 2 (.imm 31)) = true := by decide
theorem test_wf_hubTag :
    WellFormed (.load 26 1 ⟨none, 3, 0⟩ (.named 16)) = false ∧ WellFormed (.load 0 1 ⟨none, 3, 0⟩ (.named 16)) = true := by decide
theorem test_wf_targetOffset : WellFormed (.jmp 0 (.off 512)) = false ∧ WellFormed (.jmp 0 (.off (-512))) = true := by decide
theorem test_wf_blockRegister :
    WellFormed (.eject 0 6) = false ∧ WellFormed (.latch 0 28) = false ∧ WellFormed (.eject 0 24) = true := by decide
theorem test_wf_endpointDirection :
    WellFormed (.streamOut 0 ⟨0, 0, 0x28, 5, 0, .const 8259⟩) = false ∧
      WellFormed (.streamIn 0 ⟨0, 0, 0x28, 5, 0, .const 8259⟩) = true := by decide
theorem test_wf_waitRange : WellFormed (.wait 0 (.range 4 3)) = false ∧ WellFormed (.wait 0 (.range 3 4)) = true := by decide

/-! ### Worked examples -/

/-- Example 12.1: the words of STREAM.IN w0, 0, FUSED, s5, 33040, t0. -/
theorem test_example_12_1 :
    strideInstr 0 0x14000A0B (some 0x00002043) 0 = some (.streamIn 0 ⟨0, 0, 0x28, 5, 0, .const 8259⟩) := by decide

/-- Example 12.2: the words of EJECT s16 and EJECT s24. -/
theorem test_example_12_2 :
    strideInstr 0 0x18004000 none 0 = some (.eject 0 16) ∧ strideInstr 0 0x18006000 none 0 = some (.eject 0 24) := by decide

/-- The same words as decodeTableWord reads them: one word where X = 0, with the immediate word behind it where X = 1. -/
theorem test_decodeTableWord :
    decodeTableWord 32 0x18004000 = some (.eject 0 16) ∧
      decodeTableWord 64 0x0000204314000A0B = some (.streamIn 0 ⟨0, 0, 0x28, 5, 0, .const 8259⟩) ∧
      decodeTableWord 64 0x18004000 = none ∧ decodeTableWord 32 0x14000A0B = none := by decide

/-- The shot of Example 12.2. -/
def exampleShot : List Word :=
  [0xF1DCDAE0, 0x0000001B, 0x092A0BB8, 0x00002000, 0x0E23251F, 0xFFFFFFE4, 0xF6D5F447, 0xFFFFDFFF]

theorem test_example_12_2_shot :
    complementOk exampleShot = true ∧ ejectMalformed exampleShot = false ∧ cStart exampleShot = 120021900000 ∧
      cProf exampleShot = 2 ∧ (cValve exampleShot).val = 37 ∧ cBand exampleShot = 4 ∧ cHold exampleShot = 3000 ∧
      cLine exampleShot = 8192 ∧ cDone exampleShot = false ∧ cNone exampleShot = false := by decide +kernel

/-- Its closing command: DONE, NONE, band 4. -/
theorem test_example_12_2_closing :
    let b : List Word := [0, 0, 0xC0020000, 0x2000, 0xFFFFFFFF, 0xFFFFFFFF, 0x3FFDFFFF, 0xFFFFDFFF]
    complementOk b = true ∧ ejectMalformed b = false ∧ cDone b = true ∧ cNone b = true ∧ cBand b = 4 ∧ cLine b = 8192 := by
  decide +kernel

/-- Example 13.1: AIR 500 and a learned lag of 43,200 make an advance of 3,200 µs; with START_WIN = 40 the shot of Example 12.2
energises 18.700 ms after V = 120 s and starts at the latest 40 µs later. -/
theorem test_example_13_1 :
    let s := modChan 37 (fun c => { c with lag := some 43200, air := 500 })
      (State.setWord (F.ejtDieCfg0 0) (BitVec.ofNat 32 (40 * 2 ^ 18)) r)
    shotTimes 37 ⟨4, 8192, 120021900000, 2, 3000, none⟩ s = (120018700000, 120018740000) := by decide +kernel

/-- Example 6.1: T_L = 100 µs, p_row = 0.3 mm and v = 4.0 m/s make q = 0.73, in 16 fraction bits. -/
theorem test_example_6_1 :
    let s := setF (F.fpdStateLineSlot 0) 400 (setF F.corGridPRow 300 r)
    (latchLap 40000 s).1.q = 47841 ∧ (latchLap 40000 s).2 = false := by decide +kernel

/-- The lengths of an authorisation block, without and with a vendor key chain (R393). -/
theorem test_authLen : authLen 0 = 212 ∧ authLen 0xF = 500 := by decide

/-! ### Known vectors of the standards that R234, R391, R399 and R400 name -/

/-- The check value of CRC-32: the text 123456789. -/
theorem test_crc32 : crc32 [0x31, 0x32, 0x33, 0x34, 0x35, 0x36, 0x37, 0x38, 0x39] = 0xCBF43926 := by decide +kernel

/-- SHA-384 of the text abc (FIPS 180-4). -/
theorem test_sha384 : beNat (sha384 [0x61, 0x62, 0x63]) =
    0xcb00753f45a35e8bb5a03d699ac65007272c32ab0eded1631a8b605a43ff5bed8086072ba1e7cc2358baeca134c825a7 := by
  decide +kernel

/-- AES-256 of the example of FIPS 197, appendix C.3. -/
theorem test_aes256 :
    beNat (aes256 (beBytes 32 0x000102030405060708090a0b0c0d0e0f101112131415161718191a1b1c1d1e1f)
      (beBytes 16 0x00112233445566778899aabbccddeeff)) = 0x8ea2b7ca516745bfeafc49904b496089 := by
  decide +kernel

/-- The base point of brainpoolP384r1 lies on the curve. -/
theorem test_curve : ecOn ecG = true := by decide +kernel

/-- A signature of another implementation over bytes 0 to 63, by the first owner key. -/
theorem test_ecVerify :
    ecVerify own0 (sha384 ((List.range 64).map fun i => BitVec.ofNat 8 i)) imgSig = true := by
  decide +kernel

/-! ### States and operands that meet the hypotheses of the statements -/

set_option synthInstance.maxSize 2000
set_option Elab.async false

namespace T2



theorem test_hyp_ScalarArithmeticResult :
    (issues 0 Cls.scalar (srcImm (Src.reg 2)) (RegRef.s 0 :: RegRef.s 2 :: srcRegs (Src.reg 2)) a ∧
      1 ≠ 0 ∧
      (shiftOk (Src.reg 2) = true ∧ 1 ≠ 0)) ∧
    (issues 0 Cls.scalar (srcImm (Src.reg 2)) (RegRef.s 0 :: RegRef.s 0 :: srcRegs (Src.reg 2)) a ∧ 1 ≠ 0) ∧
    (isPair 0 = true ∧ srcIsPair (Src.reg 2) = true ∧
      (isPair 2 = true ∧ issues 0 Cls.scalar (srcImm (Src.reg 2)) (pairRegs 0 ++ pairRegs 2 ++ srcPairRegs (Src.reg 2)) a ∧
        1 ≠ 0 ∧
        (31 ≠ 0 ∧ 31 ≠ regSucc 0)) ∧
      (issues 0 Cls.scalar (srcImm (Src.reg 2)) (pairRegs 0 ++ pairRegs 0 ++ srcPairRegs (Src.reg 2)) a ∧
        1 ≠ 0 ∧
        (31 ≠ 0 ∧ 31 ≠ regSucc 0))) := by unfold issues; decide +kernel

theorem test_hyp_LaneArithmeticResult :
    (issues 0 Cls.vector (vsrcImm (VSrc.vec 1)) (RegRef.v 1 :: RegRef.v 2 :: vsrcRegs (VSrc.vec 1)) a ∧
      0 ≠ 1 ∧
      (vshiftOk (VSrc.vec 1) = true ∧ 0 ≠ 1)) ∧
    (issues 0 Cls.vector (vsrcImm (VSrc.vec 1)) (RegRef.v 1 :: RegRef.v 1 :: vsrcRegs (VSrc.vec 1)) a ∧ 0 ≠ 1) ∧
    (issues 0 Cls.vector false [RegRef.v 1, RegRef.v 2] a ∧ 0 ≠ 1) := by unfold issues; decide +kernel

theorem test_hyp_LaneReductionAndMacResult :
    (issues 0 Cls.vector (srcImm (Src.reg 2)) (RegRef.s 1 :: RegRef.v 2 :: srcRegs (Src.reg 2)) a ∧ 0 ≠ 1) ∧
    (issues 0 Cls.vector false [RegRef.s 1, RegRef.v 2] a ∧ 0 ≠ 1) ∧
    (issues 0 Cls.vector false [RegRef.s 1] a ∧ 0 ≠ 1) ∧
    (issues 0 Cls.vector (vsrcImm (VSrc.vec 1)) (RegRef.v 2 :: vsrcRegs (VSrc.vec 1)) a ∧ 0 ≠ 2) ∧
    (issues 0 Cls.vector false [RegRef.v 2, RegRef.v 1] a ∧ 0 ≠ 2) ∧
    (issues 0 Cls.mac (vsrcImm (VSrc.vec 1)) (RegRef.v 1 :: RegRef.v 2 :: vsrcRegs (VSrc.vec 1)) a ∧ 0 ≠ 1) ∧
    (issues 0 Cls.mac (vsrcImm (VSrc.vec 1)) (RegRef.s 1 :: RegRef.v 2 :: vsrcRegs (VSrc.vec 1)) a ∧ 0 ≠ 1) := by unfold issues; decide +kernel

end T2

namespace T3a

def st0 : Addr := (⟨none, 4, 0⟩:Addr)

theorem test_hyp_LoadStoreIssue :
    tagSelOk 0 TagSel.auto = true ∧ pickTag 0 TagSel.auto a = Pick.take 240 1 ∧
      (issues 0 Cls.ldst (addrImm st0) [RegRef.s st0.idx, RegRef.s 2] a ∧
        addrBad 0 (addrVal 0 st0 a) 4 4 = false ∧
        addrBad 0 (addrVal 0 st0 a) 2 2 = false ∧
        addrBad 0 (addrVal 0 st0 a) 1 1 = false) ∧
      (isPair 2 = true ∧ issues 0 Cls.ldst (addrImm st0) (RegRef.s st0.idx :: pairRegs 2) a ∧ addrBad 0 (addrVal 0 st0 a) 8 8 = false) ∧
      (issues 0 Cls.vldst (addrImm st0) [RegRef.s st0.idx, RegRef.v 2] a ∧ addrBad 0 (addrVal 0 st0 a) 128 4 = false) := by unfold issues; decide +kernel

theorem test_hyp_TagInstructionResult :
    (issues 0 Cls.tag false [] a ∧ waitOk 0 (WaitSel.one 1) = true) ∧
    (issues 0 Cls.tag false [RegRef.s 0] a ∧ tagOk 0 0 = true ∧ 1 ≠ 0) := by unfold issues; decide +kernel

end T3a

namespace T3b

def q1 (t : Tag) (w : Fin 16) (o : BitVec 17) (l : StreamLen) (e : BitVec 7 := 3) : StreamOp := ⟨w, t, e, 1, o, l⟩
def st0 : Addr := (⟨none, 4, 0⟩:Addr)
def st1 : Addr := ⟨some 5, 0, 0⟩
def st4 : Addr := ⟨some 262144, 0, 0⟩

theorem test_hyp_TagAndAddressExceptions :
    tagSelOk 0 TagSel.auto = true ∧
      (issues 0 Cls.ldst (addrImm st0) [RegRef.s st0.idx, RegRef.s 2] a ∧ pickTag 0 TagSel.auto a = Pick.take 240 1) ∧
      (isPair 2 = true ∧
        (issues 0 Cls.ldst (addrImm st0) (RegRef.s st0.idx :: pairRegs 2) a ∧ pickTag 0 TagSel.auto a = Pick.take 240 1) ∧
        (issues 0 Cls.ldst (addrImm st1) (RegRef.s st1.idx :: pairRegs 2) a ∧ pickTag 0 TagSel.auto a = Pick.take 240 1 ∧ ((BitVec.toNat (st1.const.getD 0) + BitVec.toNat (getS 0 st1.idx a) * scaleOf st1.scale) % 2 ^ 32 % 8 ≠ 0 ∨ (if isHub 0 = true then 262144 else 524288) < (BitVec.toNat (st1.const.getD 0) + BitVec.toNat (getS 0 st1.idx a) * scaleOf st1.scale) % 2 ^ 32 + 8))) ∧
      (issues 0 Cls.vldst (addrImm st0) [RegRef.s st0.idx, RegRef.v 2] a ∧ pickTag 0 TagSel.auto a = Pick.take 240 1) ∧
      (issues 0 Cls.ldst (addrImm st1) [RegRef.s st1.idx, RegRef.s 2] a ∧ pickTag 0 TagSel.auto a = Pick.take 240 1 ∧
        ((BitVec.toNat (st1.const.getD 0) + BitVec.toNat (getS 0 st1.idx a) * scaleOf st1.scale) % 2 ^ 32 % 4 ≠ 0 ∨ (if isHub 0 = true then 262144 else 524288) < (BitVec.toNat (st1.const.getD 0) + BitVec.toNat (getS 0 st1.idx a) * scaleOf st1.scale) % 2 ^ 32 + 4) ∧
        ((BitVec.toNat (st1.const.getD 0) + BitVec.toNat (getS 0 st1.idx a) * scaleOf st1.scale) % 2 ^ 32 % 2 ≠ 0 ∨ (if isHub 0 = true then 262144 else 524288) < (BitVec.toNat (st1.const.getD 0) + BitVec.toNat (getS 0 st1.idx a) * scaleOf st1.scale) % 2 ^ 32 + 2)) := by unfold issues; decide +kernel

theorem test_hyp_TagAndAddressExceptions_2 :
    tagSelOk 0 TagSel.auto = true ∧ issues 0 Cls.vldst (addrImm st1) [RegRef.s st1.idx, RegRef.v 2] a ∧ pickTag 0 TagSel.auto a = Pick.take 240 1 ∧ ((BitVec.toNat (st1.const.getD 0) + BitVec.toNat (getS 0 st1.idx a) * scaleOf st1.scale) % 2 ^ 32 % 4 ≠ 0 ∨ (if isHub 0 = true then 262144 else 524288) < (BitVec.toNat (st1.const.getD 0) + BitVec.toNat (getS 0 st1.idx a) * scaleOf st1.scale) % 2 ^ 32 + 128) := by unfold issues; decide +kernel

theorem test_hyp_TagAndAddressExceptions_3 :
    tagSelOk 0 (TagSel.named 3) = true ∧
      (issues 0 Cls.ldst (addrImm st0) [RegRef.s st0.idx, RegRef.s 2] a ∧ TagSel.named 3 = TagSel.named 3 ∧ (a.units[0].tags[3] = TagState.free ∨ a.units[0].tags[3] = TagState.doneOk) ∧
        ((BitVec.toNat (st0.const.getD 0) + BitVec.toNat (getS 0 st0.idx a) * scaleOf st0.scale) % 2 ^ 32 % 4 = 0 ∧ (BitVec.toNat (st0.const.getD 0) + BitVec.toNat (getS 0 st0.idx a) * scaleOf st0.scale) % 2 ^ 32 + 4 ≤ if isHub 0 = true then 262144 else 524288) ∧
        ((BitVec.toNat (st0.const.getD 0) + BitVec.toNat (getS 0 st0.idx a) * scaleOf st0.scale) % 2 ^ 32 % 2 = 0 ∧ (BitVec.toNat (st0.const.getD 0) + BitVec.toNat (getS 0 st0.idx a) * scaleOf st0.scale) % 2 ^ 32 + 2 ≤ if isHub 0 = true then 262144 else 524288) ∧
        ((BitVec.toNat (st0.const.getD 0) + BitVec.toNat (getS 0 st0.idx a) * scaleOf st0.scale) % 2 ^ 32 % 1 = 0 ∧ (BitVec.toNat (st0.const.getD 0) + BitVec.toNat (getS 0 st0.idx a) * scaleOf st0.scale) % 2 ^ 32 + 1 ≤ if isHub 0 = true then 262144 else 524288)) ∧
      (isPair 2 = true ∧ issues 0 Cls.ldst (addrImm st0) (RegRef.s st0.idx :: pairRegs 2) a ∧ TagSel.named 3 = TagSel.named 3 ∧ (a.units[0].tags[3] = TagState.free ∨ a.units[0].tags[3] = TagState.doneOk) ∧ (BitVec.toNat (st0.const.getD 0) + BitVec.toNat (getS 0 st0.idx a) * scaleOf st0.scale) % 2 ^ 32 % 8 = 0 ∧ (BitVec.toNat (st0.const.getD 0) + BitVec.toNat (getS 0 st0.idx a) * scaleOf st0.scale) % 2 ^ 32 + 8 ≤ if isHub 0 = true then 262144 else 524288) := by unfold issues; decide +kernel

theorem test_hyp_TagAndAddressExceptions_4 :
    tagSelOk 0 (TagSel.named 3) = true ∧ issues 0 Cls.vldst (addrImm st0) [RegRef.s st0.idx, RegRef.v 2] a ∧ TagSel.named 3 = TagSel.named 3 ∧ (a.units[0].tags[3] = TagState.free ∨ a.units[0].tags[3] = TagState.doneOk) ∧ (BitVec.toNat (st0.const.getD 0) + BitVec.toNat (getS 0 st0.idx a) * scaleOf st0.scale) % 2 ^ 32 % 4 = 0 ∧ (BitVec.toNat (st0.const.getD 0) + BitVec.toNat (getS 0 st0.idx a) * scaleOf st0.scale) % 2 ^ 32 + 128 ≤ if isHub 0 = true then 262144 else 524288 := by unfold issues; decide +kernel

theorem test_hyp_TagAndAddressExceptions_5 :
    (issues 0 Cls.stream true (streamRegs (q1 1 0 0 (StreamLen.const 3))) a ∧ epDir (q1 1 0 0 (StreamLen.const 3)).ep.toNat true = true) ∧
    (tagSelOk 0 (TagSel.named 2) = true ∧
      (issues 0 Cls.ldst (addrImm st0) [RegRef.s st0.idx, RegRef.s 2] a ∧ TagSel.named 2 = TagSel.named 2 ∧ a.units[0].tags[2] = TagState.doneErr 6) ∧
      (isPair 2 = true ∧ issues 0 Cls.ldst (addrImm st0) (RegRef.s st0.idx :: pairRegs 2) a ∧ TagSel.named 2 = TagSel.named 2 ∧ a.units[0].tags[2] = TagState.doneErr 6) ∧
      (issues 0 Cls.vldst (addrImm st0) [RegRef.s st0.idx, RegRef.v 2] a ∧ TagSel.named 2 = TagSel.named 2 ∧ a.units[0].tags[2] = TagState.doneErr 6)) ∧
    (tagSelOk 0 (TagSel.named 1) = true ∧
      (issues 0 Cls.ldst (addrImm st0) [RegRef.s st0.idx, RegRef.s 2] a ∧ TagSel.named 1 = TagSel.named 1 ∧ a.units[0].tags[1] = TagState.busy) ∧
      (isPair 2 = true ∧ issues 0 Cls.ldst (addrImm st0) (RegRef.s st0.idx :: pairRegs 2) a ∧ TagSel.named 1 = TagSel.named 1 ∧ a.units[0].tags[1] = TagState.busy) ∧
      (issues 0 Cls.vldst (addrImm st0) [RegRef.s st0.idx, RegRef.v 2] a ∧ TagSel.named 1 = TagSel.named 1 ∧ a.units[0].tags[1] = TagState.busy)) := by unfold issues; decide +kernel

theorem test_hyp_TagAndAddressExceptions_6 :
    tagSelOk 26 TagSel.auto = true ∧ issues 26 Cls.ldst (addrImm st4) [RegRef.s st4.idx, RegRef.s 0] h ∧ pickTag 26 TagSel.auto h = Pick.take 12 1 ∧ ((BitVec.toNat (st4.const.getD 0) + BitVec.toNat (getS 26 st4.idx h) * scaleOf st4.scale) % 2 ^ 32 % 1 ≠ 0 ∨ (if isHub 26 = true then 262144 else 524288) < (BitVec.toNat (st4.const.getD 0) + BitVec.toNat (getS 26 st4.idx h) * scaleOf st4.scale) % 2 ^ 32 + 1) := by unfold issues; decide +kernel

theorem test_hyp_TagAndAddressExceptions_7 :
    (issues 0 Cls.stream true (streamRegs (q1 1 0 0 (StreamLen.const 3))) xo ∧ epDir (q1 1 0 0 (StreamLen.const 3)).ep.toNat true = true ∧ epPresent (q1 1 0 0 (StreamLen.const 3)).ep.toNat xo = true ∧ xo.units[0].tags[(q1 1 0 0 (StreamLen.const 3)).tag] = TagState.busy) ∧
    (issues 0 Cls.stream true (streamRegs (q1 2 0 0 (StreamLen.const 3))) xo ∧ epDir (q1 2 0 0 (StreamLen.const 3)).ep.toNat true = true ∧ epPresent (q1 2 0 0 (StreamLen.const 3)).ep.toNat xo = true ∧ xo.units[0].tags[(q1 2 0 0 (StreamLen.const 3)).tag] = TagState.doneErr 6) ∧
    (issues 0 Cls.stream true (streamRegs (q1 3 1 0 (StreamLen.const 3))) xo ∧ epDir (q1 3 1 0 (StreamLen.const 3)).ep.toNat true = true ∧ epPresent (q1 3 1 0 (StreamLen.const 3)).ep.toNat xo = true ∧ (xo.units[0].tags[(q1 3 1 0 (StreamLen.const 3)).tag] = TagState.free ∨ xo.units[0].tags[(q1 3 1 0 (StreamLen.const 3)).tag] = TagState.doneOk) ∧ streamLen 0 (q1 3 1 0 (StreamLen.const 3)).len xo % 4 = 0 ∧ 4 ≤ streamLen 0 (q1 3 1 0 (StreamLen.const 3)).len xo ∧ streamLen 0 (q1 3 1 0 (StreamLen.const 3)).len xo ≤ 65536 ∧ 4 * (q1 3 1 0 (StreamLen.const 3)).offset.toNat + streamLen 0 (q1 3 1 0 (StreamLen.const 3)).len xo ≤ (windowOf 0 (q1 3 1 0 (StreamLen.const 3)).win xo).2) := by unfold issues; decide +kernel

end T3b

namespace T3c

def q1 (t : Tag) (w : Fin 16) (o : BitVec 17) (l : StreamLen) (e : BitVec 7 := 3) : StreamOp := ⟨w, t, e, 1, o, l⟩

theorem test_hyp_ExceptionEntry :
    (fenceHeld 0 a = false ∧ 3 < 256 ∧ a.units[0].pc < 2 ^ 32 ∧
      getF (F.isaUStateState 0) a = 1 ∧
      (getF (F.isaUStateState 0) a = 2 ∨ a.units[0].handler = none)) ∧
    (fenceHeld 0 g = false ∧ 3 < 256 ∧ g.units[0].pc < 2 ^ 32 ∧ getF (F.isaUStateState 0) g = 1 ∧ g.units[0].handler = some 9) := by decide +kernel

theorem test_hyp_StreamIssue :
    issues 0 Cls.tag false [] xo ∧
    issues 0 Cls.stream true (streamRegs (q1 1 0 0 (StreamLen.const 3))) xo ∧
    (issues 0 Cls.stream true (streamRegs (q1 3 1 0 (StreamLen.const 3))) xo ∧ pickTag 0 (TagSel.named (q1 3 1 0 (StreamLen.const 3)).tag) xo = Pick.take 3 0 ∧ epPresent (q1 3 1 0 (StreamLen.const 3)).ep.toNat xo = true ∧ streamLen 0 (q1 3 1 0 (StreamLen.const 3)).len xo % 4 = 0 ∧ 4 ≤ streamLen 0 (q1 3 1 0 (StreamLen.const 3)).len xo ∧ streamLen 0 (q1 3 1 0 (StreamLen.const 3)).len xo ≤ 65536 ∧ 4 * (q1 3 1 0 (StreamLen.const 3)).offset.toNat + streamLen 0 (q1 3 1 0 (StreamLen.const 3)).len xo ≤ (windowOf 0 (q1 3 1 0 (StreamLen.const 3)).win xo).2 ∧ epDir (q1 3 1 0 (StreamLen.const 3)).ep.toNat true = true) := by unfold issues; decide +kernel

theorem test_hyp_TransfersMoveAndEnd :
    (live xo = true ∧
      (sorting xo = true ∧ xo.units[0].tags[1] = TagState.busy) ∧
      (Memory.wf xo.mem = true ∧ firstXfer 0 1 xo = some (xf 3 true 64 8 16 none) ∧ (xf 3 true 64 8 16 none).lost = none)) ∧
    (live done0 = true ∧ (List.find? (fun x => decide (x.unit = 0) && decide (x.tag = 1) && x.code.isSome) done0.xfers = some (xf 3 false 64 8 16 (some 0))) ∧ (xf 3 false 64 8 16 (some 0)).code = some 0) ∧
    (live xs0 = true ∧ Memory.wf xs0.mem = true ∧ firstXfer 0 1 xs0 = some (xf 0 false 8 12 16 none) ∧ (xf 0 false 8 12 16 none).lost = none ∧ clusterAt (xf 0 false 8 12 16 none).ep xs0 = some 0 ∧ (xf 0 false 8 12 16 none).ep ≤ 25 ∧ passes (dieOf 0) (dieOf 0) xs0 = true ∧ (xf 0 false 8 12 16 none).addr + (xf 0 false 8 12 16 none).len ≤ 524288 ∧ (xf 0 false 8 12 16 none).len % 4 = 0 ∧ (∀ w ∈ wordsOf (if (xf 0 false 8 12 16 none).out = true then storeBase 0 + (xf 0 false 8 12 16 none).base else storeBase 0 + (xf 0 false 8 12 16 none).addr) (xf 0 false 8 12 16 none).len, badAt w xs0 = false) ∧ ((7 < if (xf 0 false 8 12 16 none).out = true then storeBase 0 + (xf 0 false 8 12 16 none).addr else storeBase 0 + (xf 0 false 8 12 16 none).base) ∨ (if (xf 0 false 8 12 16 none).out = true then storeBase 0 + (xf 0 false 8 12 16 none).addr else storeBase 0 + (xf 0 false 8 12 16 none).base) + (xf 0 false 8 12 16 none).len ≤ 7)) := by decide +kernel

end T3c

namespace T3d

def st0 : MemOp := (⟨1, .ld 4 false 5, 8⟩ : MemOp)
def st3 : MemOp := ⟨1, .ldD 0, 16⟩
def st4 : MemOp := ⟨1, .ldV 3, 4⟩
def st5 : MemOp := (⟨1, .st 4 [0xDEADBE00], 8⟩ : MemOp)

theorem test_hyp_AccessCompletionResult :
    (live ld = true ∧ (List.find? (fun o => decide (o.tag = 1)) ld.units[0].ops = some st0) ∧ ld.units[0].tags[1] = TagState.busy ∧ st0.kind = MemKind.ld 4 false 5 ∧ (∀ w ∈ wordsOf (storeBase 0 + st0.addr) 4, badAt w ld = false) ∧ 0 ≠ 5) ∧
    (live ldd = true ∧ (List.find? (fun o => decide (o.tag = 1)) ldd.units[0].ops = some st3) ∧ ldd.units[0].tags[1] = TagState.busy ∧ st3.kind = MemKind.ldD 0 ∧ (∀ w ∈ wordsOf (storeBase 0 + st3.addr) 8, badAt w ldd = false) ∧ 3 ≠ 0 ∧ 3 ≠ regSucc 0) ∧
    (live ldv = true ∧ (List.find? (fun o => decide (o.tag = 1)) ldv.units[0].ops = some st4) ∧ ldv.units[0].tags[1] = TagState.busy ∧ st4.kind = MemKind.ldV 3 ∧ (∀ w ∈ wordsOf (storeBase 0 + st4.addr) 128, badAt w ldv = false)) := by decide +kernel

theorem test_hyp_AccessCompletionResult_2 :
    live stw = true ∧ Memory.wf stw.mem = true ∧ (List.find? (fun o => decide (o.tag = 1)) stw.units[0].ops = some st5) ∧ stw.units[0].tags[1] = TagState.busy ∧ st5.kind = MemKind.st 4 [3735928320#32] ∧ (4 < 4 ∧ [3735928320#32].length = 1 ∨ 4 = 4 * [3735928320#32].length) := by decide +kernel

theorem test_hyp_BranchResult :
    targetOk (Target.off (-6)) = true ∧
      (issues 0 Cls.control (targetAbs (Target.off (-6))) (RegRef.s 2 :: bsrcRegs (BSrc.const 7)) a ∧ landsOnImm 0 (targetAddr 0 (Target.off (-6)) a) a = false) ∧
      (issues 0 Cls.control (targetAbs (Target.off (-6))) [] a ∧ landsOnImm 0 (targetAddr 0 (Target.off (-6)) a) a = false) ∧
      (issues 0 Cls.control (targetAbs (Target.off (-6))) [RegRef.s 31] a ∧ landsOnImm 0 (targetAddr 0 (Target.off (-6)) a) a = false) ∧
      (issues 0 Cls.control (targetAbs (Target.off (-6))) [RegRef.s 2] a ∧ landsOnImm 0 (targetAddr 0 (Target.off (-6)) a) a = false) ∧
      (issues 0 Cls.control false [RegRef.s 2] a ∧ landsOnImm 0 (regTarget 0 (getS 0 2 a)) a = false) ∧
      (issues 0 Cls.control false [RegRef.s 31] a ∧ landsOnImm 0 (regTarget 0 (getS 0 31 a)) a = false) ∧
      issues 0 Cls.control false [] a := by unfold issues; decide +kernel

end T3d

namespace T4a



theorem test_hyp_EjectIssue :
    isBlock 8 = true ∧ issues 0 Cls.event false (List.map RegRef.s (blockRegs 8)) ej1 ∧ ejectOk (getBlock 0 8 ej1) ej1 = true := by unfold issues; decide +kernel

theorem test_hyp_LineNotices :
    clocked coming = true ∧ adUp 1 coming = true ∧
      (coming.ejt.dies[1].coming = [(note 2 11 LineState.open_).note, (note 3 1 LineState.open_).note] ∧ (note 2 11 LineState.open_).note.band < 16 ∧ arrivesFrom (if dieUp (asmDie coming.opt) coming = true then asmDie coming.opt else 0) 1 coming = true ∧
        0 ≠ 1 ∧
        (note 2 11 LineState.open_).note.blind = false) ∧
      (lineKept 1 2 (9#24).toNat coming = some (note 2 9 LineState.open_) ∧ (note 2 9 LineState.open_).st = LineState.open_ ∧ (note 2 9 LineState.open_).note.bound ≤ coming.time ∧ bandDefault (2) coming = Dflt.none) := by decide +kernel

end T4a

namespace T4b



theorem test_hyp_ShotEnergiseResult :
    clocked wait1 = true ∧ adUp 1 wait1 = true ∧
      69 ∈ valvesOf 1 ∧
      valveDie 0 ≠ 1 := by decide +kernel

theorem test_hyp_ShotPhases :
    clocked runs = true ∧ runs.ejt.chans[70].run = some run0 ∧
      (run0.search = true ∧ dipOf 70 runs = none) ∧
      (run0.stop ≤ runs.time ∧ 69 ≠ 70) := by decide +kernel

end T4b

namespace T4c



theorem test_hyp_ValveFaultsAndCoils :
    clocked runs = true ∧
      energised 70 runs = true ∧
      (highSideOn (8) runs = true ∧
        64 ∈ groupValves 8 ∧
        groupOfValve 63 ≠ 8) ∧
      (adUp 1 runs = true ∧
        64 ∈ valvesOf 1 ∧
        valveDie 63 ≠ 1) := by decide +kernel

end T4c

namespace T4d

def ev1 : State := setF F.intEvtSeqSeq 300 (setF F.intEvtHostNext 44 { a with status := a.status, ev := { a.ev with queue := [⟨0x2101,6,0,5,6⟩, ⟨0x2102,6,0,5,7⟩], log := List.replicate 256 ⟨1,2,3,4,5⟩ } })
def ev2 : State := { a with ev := { a.ev with queue := [⟨0x2101,6,0,5,2^40⟩, ⟨0x2102,6,0,5,7⟩] } }
def st0 : EvRec := (⟨0x2101,6,0,5,6⟩:EvRec)
def st4 : EvRec := ⟨0x2101,6,0,5,2^40⟩

theorem test_hyp_StatusAndEventLog :
    (issues 0 Cls.stat (some (BitVec.ofNat 32 F.intEvtSeq)).isSome [RegRef.s 0, RegRef.s 0] a ∧
      (a.statusBad.contains (statAddr 0 0 (some (BitVec.ofNat 32 F.intEvtSeq)) a) = false ∧ hiOf (statAddr 0 0 (some (BitVec.ofNat 32 F.intEvtSeq)) a) = none ∧ (List.find? (fun l => decide (l.1 = 0) && decide (l.2.1 = statAddr 0 0 (some (BitVec.ofNat 32 F.intEvtSeq)) a)) a.latches = none) ∧ 3 ≠ 0) ∧
      4 ≠ statAddr 0 0 (some (BitVec.ofNat 32 F.intEvtSeq)) a) ∧
    clocked a = true ∧
    (clocked ev1 = true ∧ ev1.ev.queue[0]? = some st0 ∧ inOrder st0 ev1 = true ∧
      unread ev1 = 256 ∧
      0 < 4) := by unfold issues; decide +kernel

theorem test_hyp_StatusAndEventLog_2 :
    clocked ev2 = true ∧ ev2.ev.queue[0]? = some st4 ∧ inOrder st4 ev2 = true ∧ ¬unread ev2 = 256 := by decide +kernel

end T4d

namespace T5a

def st0 : State := rec_ 0x60 dieRec a
def st1 : State := rec_ 0x60 [0,0] a
def st2 : State := rec_ 0x61 profRec a
def st3 : State := rec_ 0x61 [0x10000000,5,6] a
def st4 : State := rec_ 0x60 valRec a
def st5 : State := rec_ 0x60 [0x20000000,5] a

theorem test_hyp_EjectorSettings :
    (recordAt 0 1 ejtEp (xrec 96 2) st0 ∧ passes (dieOf 0) (6 + ↑(ejtEpDie (xrec 96 2).ep)) st0 = true ∧ bits (nth 0 (sourceWords (xrec 96 2) st0) 0) 31 28 = 0 ∧ dieRecordOk (sourceWords (xrec 96 2) st0) = true ∧ 1 ∉ [F.ejtDieCfg0 ↑(ejtEpDie (xrec 96 2).ep), F.ejtDieCfg1 ↑(ejtEpDie (xrec 96 2).ep)]) ∧
    (recordAt 0 1 ejtEp (xrec 96 2) st1 ∧ passes (dieOf 0) (6 + ↑(ejtEpDie (xrec 96 2).ep)) st1 = true ∧ bits (nth 0 (sourceWords (xrec 96 2) st1) 0) 31 28 = 0 ∧ dieRecordOk (sourceWords (xrec 96 2) st1) = false) ∧
    (recordAt 0 1 ejtEp (xrec 96 2) st5 ∧ passes (dieOf 0) (6 + ↑(ejtEpDie (xrec 96 2).ep)) st5 = true ∧ bits (nth 0 (sourceWords (xrec 96 2) st5) 0) 31 28 = 2 ∧ valveEntriesOk (sourceWords (xrec 96 2) st5) = false) ∧
    (recordAt 0 1 ejtEp (xrec 97 3) st2 ∧ passes (dieOf 0) (6 + ↑(ejtEpDie (xrec 97 3).ep)) st2 = true ∧ bits (nth 0 (sourceWords (xrec 97 3) st2) 0) 31 28 = 1 ∧ profileOk (sourceWords (xrec 97 3) st2) = true ∧ 1 ∉ [F.ejtProfileW0 (↑(ejtEpDie (xrec 97 3).ep)) (bits (nth 0 (sourceWords (xrec 97 3) st2) 0) 27 24), F.ejtProfileW1 (↑(ejtEpDie (xrec 97 3).ep)) (bits (nth 0 (sourceWords (xrec 97 3) st2) 0) 27 24), F.ejtProfileW2 (↑(ejtEpDie (xrec 97 3).ep)) (bits (nth 0 (sourceWords (xrec 97 3) st2) 0) 27 24), F.ejtProfileState (↑(ejtEpDie (xrec 97 3).ep)) (bits (nth 0 (sourceWords (xrec 97 3) st2) 0) 27 24)]) ∧
    (recordAt 0 1 ejtEp (xrec 97 3) st3 ∧ passes (dieOf 0) (6 + ↑(ejtEpDie (xrec 97 3).ep)) st3 = true ∧ bits (nth 0 (sourceWords (xrec 97 3) st3) 0) 31 28 = 1 ∧ profileOk (sourceWords (xrec 97 3) st3) = false) := by unfold recordAt wholeSource; decide +kernel

theorem test_hyp_EjectorSettings_2 :
    recordAt 0 1 ejtEp (xrec 96 5) st4 ∧ passes (dieOf 0) (6 + ↑(ejtEpDie (xrec 96 5).ep)) st4 = true ∧ bits (nth 0 (sourceWords (xrec 96 5) st4) 0) 31 28 = 2 ∧ valveEntriesOk (sourceWords (xrec 96 5) st4) = true ∧
      0 < bits (nth 0 (sourceWords (xrec 96 5) st4) 0) 21 15 ∧
      (∀ i < bits (nth 0 (sourceWords (xrec 96 5) st4) 0) 21 15, 0 ≠ 64 * ↑(ejtEpDie (xrec 96 5).ep) + bits (nth 0 (sourceWords (xrec 96 5) st4) 0) 27 22 + i) := by unfold recordAt wholeSource; decide +kernel

end T5a

namespace T5b





end T5b

namespace T5c



theorem test_hyp_LampLoops :
    (clocked loopS = true ∧ adUp (strDie 2) loopS = true ∧
      bits (strCfg 2 2 loopS) 31 30 ≠ 0 ∧
      (bits (strCfg 2 0 loopS) 23 18 ≠ 63 ∧ loopS.lum[strDie 2].strs[strIdx 2].therm = some 20000 ∧ -40 ≤ 1 / (100 / 29815 + (lnWide 20000 (32768 - 20000) : Rat) / (2 ^ 64 : Rat) / (bits (strCfg 2 1 loopS) 15 3 : Rat)) - 27315 / 100 ∧ 1 / (100 / 29815 + (lnWide 20000 (32768 - 20000) : Rat) / (2 ^ 64 : Rat) / (bits (strCfg 2 1 loopS) 15 3 : Rat)) - 27315 / 100 ≤ 150) ∧
      nvsWorks loopS = true) ∧
    (clocked loop1 = true ∧ adUp (strDie 2) loop1 = true ∧ bits (strCfg 2 0 loop1) 23 18 ≠ 63 ∧ loop1.lum[strDie 2].strs[strIdx 2].therm = some 300 ∧ (1 / (100 / 29815 + (lnWide 300 (32768 - 300) : Rat) / (2 ^ 64 : Rat) / (bits (strCfg 2 1 loop1) 15 3 : Rat)) - 27315 / 100 < -40 ∨ 150 < 1 / (100 / 29815 + (lnWide 300 (32768 - 300) : Rat) / (2 ^ 64 : Rat) / (bits (strCfg 2 1 loop1) 15 3 : Rat)) - 27315 / 100)) := by decide +kernel

theorem test_hyp_LampFaultsAndTests :
    (clocked lit = true ∧
      (strRunning 2 lit = true ∧ testWindow 2 3 lit = false ∧ lampUsed 2 (3) lit = true ∧ 8000 < 8001) ∧
      adUp (strDie 2) lit = true) ∧
    (clocked short = true ∧
      (strRunning 2 short = true ∧ litShort 2 3 short = true) ∧
      (adUp (strDie 2) short = true ∧ litShort 2 3 short = true ∧ stretchRoom 2 short = false ∧ (getF (lampFld 2 3) short = 0 ∨ getF (lampFld 2 3) short = 3 ∧ 3 ∈ short.lum[strDie 2].tests[strIdx 2].fresh))) := by decide +kernel

end T5c

namespace T5d





end T5d

namespace T6a

def st0 : State := sOn true false a
def st3 : State := rec_ 0x70 [w32 (5*2^22)] a
def st4 : State := rec_ 0x70 sadcSeqRec a
def st5 : State := rec_ 0x70 sadcHur a
def st6 : State := rec_ 0x70 [w32 (3*2^28)] a
def st7 : State := rec_ 0x70 [w32 (1*2^28)] a
def st8 : State := rec_ 0x70 [w32 (2*2^28)] a
def st9 : State := sOn false true r
def st10 : State := rd 0x71 24 0 sFull
def st14 : State := modSadc (fun e => { e with trim := .waiting }) r
def st15 : State := modSadc (fun e => { e with trim := .running }) sFull

theorem test_hyp_SadcStartAndSettings :
    (issues 0 Cls.event (srcImm (Src.imm 0)) (srcRegs (Src.imm 0)) a ∧ passes (dieOf 0) 0 a = true ∧ flag F.sadcStateStart a = false ∧ BitVec.toNat (srcVal 0 (Src.imm 0) a) = 0 ∧ (∀ q ∈ a.sadc.inj, a.sadc.injAt ≠ a.periph)) ∧
    (issues 0 Cls.event (srcImm (Src.imm 0)) (srcRegs (Src.imm 0)) st0 ∧ passes (dieOf 0) 0 st0 = true ∧ flag F.sadcStateStart st0 = true) ∧
    (issues 0 Cls.event (srcImm (Src.imm 1)) (srcRegs (Src.imm 1)) a ∧ passes (dieOf 0) 0 a = true ∧ flag F.sadcStateStart a = false ∧ BitVec.toNat (srcVal 0 (Src.imm 1) a) = 1 ∧ (∀ q ∈ a.sadc.inj, a.sadc.injAt ≠ a.periph)) ∧
    (issues 0 Cls.event (srcImm (Src.imm 2)) (srcRegs (Src.imm 2)) st0 ∧ passes (dieOf 0) 0 st0 = true ∧ flag F.sadcStateStart st0 = true ∧ BitVec.toNat (srcVal 0 (Src.imm 2) st0) = 2) ∧
    ((recordAt 0 1 (fun x => decide (x = 112)) (xrec 112 1) st3) ∧ passes (dieOf 0) 0 st3 = true ∧ sadcRecordOk (sourceWords (xrec 112 1) st3) st3 = true ∧ bits (nth 0 (sourceWords (xrec 112 1) st3) 0) 31 28 = 0 ∧ 1 ∉ [F.sadcCfg]) ∧
    ((recordAt 0 1 (fun x => decide (x = 112)) (xrec 112 1) st6) ∧ passes (dieOf 0) 0 st6 = true ∧ sadcRecordOk (sourceWords (xrec 112 1) st6) st6 = false ∧ (bits (nth 0 (sourceWords (xrec 112 1) st6) 0) 31 28 = 0 ∨ 2 < bits (nth 0 (sourceWords (xrec 112 1) st6) 0) 31 28)) ∧
    ((recordAt 0 1 (fun x => decide (x = 112)) (xrec 112 1) st7) ∧ passes (dieOf 0) 0 st7 = true ∧ sadcRecordOk (sourceWords (xrec 112 1) st7) st7 = false ∧ bits (nth 0 (sourceWords (xrec 112 1) st7) 0) 31 28 = 1) := by unfold issues recordAt wholeSource; decide +kernel

theorem test_hyp_SadcStartAndSettings_2 :
    ((recordAt 0 1 (fun x => decide (x = 112)) (xrec 112 1) st8) ∧ passes (dieOf 0) 0 st8 = true ∧ sadcRecordOk (sourceWords (xrec 112 1) st8) st8 = false ∧ bits (nth 0 (sourceWords (xrec 112 1) st8) 0) 31 28 = 2) ∧
    ((recordAt 0 1 (fun x => decide (x = 112)) (xrec 112 2) st5) ∧ passes (dieOf 0) 0 st5 = true ∧ sadcRecordOk (sourceWords (xrec 112 2) st5) st5 = true ∧ bits (nth 0 (sourceWords (xrec 112 2) st5) 0) 31 28 = 2) ∧
    ((recordAt 0 1 (fun x => decide (x = 112)) (xrec 112 3) st4) ∧ passes (dieOf 0) 0 st4 = true ∧ sadcRecordOk (sourceWords (xrec 112 3) st4) st4 = true ∧ bits (nth 0 (sourceWords (xrec 112 3) st4) 0) 31 28 = 1 ∧
      0 < bits (nth 0 (sourceWords (xrec 112 3) st4) 0) 22 17 ∧
      (0 < 32 ∧ (¬(bits (nth 0 (sourceWords (xrec 112 3) st4) 0) 27 23 ≤ 0 ∧ 0 < bits (nth 0 (sourceWords (xrec 112 3) st4) 0) 27 23 + bits (nth 0 (sourceWords (xrec 112 3) st4) 0) 22 17)))) := by unfold recordAt wholeSource; decide +kernel

theorem test_hyp_SadcResults :
    (clocked sFull = true ∧ flag F.sadcStateStart sFull = true) ∧
    (clocked st9 = true ∧ flag F.sadcStateStart st9 = true ∧ st9.sadc.gap = true ∧ st9.sadc.trim = TrimPhase.off ∧ (∀ q ∈ st9.sadc.inj, st9.sadc.injAt ≠ st9.periph)) ∧
    ((readAt 0 1 (fun x => decide (x = 113)) (xrd 113 24 0) st10) ∧ passes (dieOf 0) 0 st10 = true ∧ (xrd 113 24 0).addr = 0 ∧ (xrd 113 24 0).len % 8 = 0 ∧ (1 < storeBase 0 + (xrd 113 24 0).base ∨ storeBase 0 + (xrd 113 24 0).base + 4 * (fitWords ((xrd 113 24 0).len / 4) (List.flatMap (fun r => [r.1, r.2]) st10.sadc.ring)).length ≤ 1)) := by unfold readAt; decide +kernel

theorem test_hyp_SadcInjected :
    (clocked r = true ∧ (InjSrc.cal = InjSrc.cal → refWaits 4 r = false) ∧ (InjSrc.cal = InjSrc.lum → have n := Fin.ofNat 8 4; adUp (strDie n) r = true ∧ (thermDue n (56) r = true ∨ sensDue n (56) r = true)) ∧ (r.sadc.entry = false ∧ r.sadc.inj = none ∧ r.sadc.trim = TrimPhase.off) ∧ InjSrc.cal ≠ InjSrc.lum) ∧
    (clocked sMid = true ∧
      ((InjSrc.cal = InjSrc.cal → refWaits 4 sMid = false) ∧ (InjSrc.cal = InjSrc.lum → have n := Fin.ofNat 8 4; adUp (strDie n) sMid = true ∧ (thermDue n (56) sMid = true ∨ sensDue n (56) sMid = true)) ∧ (¬(sMid.sadc.entry = false ∧ sMid.sadc.inj = none ∧ sMid.sadc.trim = TrimPhase.off)) ∧ (∀ q ∈ sMid.sadc.inj, sMid.sadc.injAt = sMid.periph → injRank q.src ≤ injRank InjSrc.cal)) ∧
      ((InjSrc.thm = InjSrc.cal → refWaits 4 sMid = false) ∧ (InjSrc.thm = InjSrc.lum → have n := Fin.ofNat 8 4; adUp (strDie n) sMid = true ∧ (thermDue n (56) sMid = true ∨ sensDue n (56) sMid = true)) ∧ (¬(sMid.sadc.entry = false ∧ sMid.sadc.inj = none ∧ sMid.sadc.trim = TrimPhase.off)) ∧ (∀ q ∈ sMid.sadc.inj, sMid.sadc.injAt = sMid.periph → injRank q.src ≤ injRank InjSrc.thm) ∧ InjSrc.thm ≠ InjSrc.cal)) ∧
    (clocked st14 = true ∧ st14.sadc.trim = TrimPhase.waiting ∧ st14.sadc.entry = false ∧ st14.sadc.inj = none) ∧
    (clocked st15 = true ∧ st15.sadc.trim = TrimPhase.running ∧ flag F.sadcStateStart st15 = true) := by decide +kernel

end T6a

namespace T6b

def st0 : State := nvs2 0
def st1 : State := nvs2 3
def st2 : NvsProg := (⟨4, 320, 4, 0, 0⟩: NvsProg)
def st3 : NvsProg := ⟨4, 320, 4, 3, 0⟩

theorem test_hyp_RecordProgramming :
    (nvsWorks nvs1 = true ∧ nvs1.nvs.queue = [wr, wr true] ∧ nvs1.nvs.prog = none ∧ (liveKeys nvs1.nvs).length < 8192 ∧ takeRoom wr.part (nextSeq wr.part wr.key nvs1.nvs % 2) (copyWords wr.data.length wr.counter.isSome) nvs1.nvs = some (320, ((takeRoom 2 0 4 nvs1.nvs).getD (0, nvs1.nvs)).2)) ∧
    (nvsWorks st0 = true ∧ st0.nvs.queue = [wr, wr true] ∧ st0.nvs.prog = some st2 ∧
      wr.data.length ≤ 4096 ∧
      (0 < progWords wr st2 ∧ st2.fails ≠ 3)) ∧
    (nvsWorks st1 = true ∧ st1.nvs.queue = [wr, wr true] ∧ st1.nvs.prog = some st3 ∧ 0 < progWords wr st3 ∧ st3.fails = 3 ∧ wr.save = false) ∧
    (nvsWorks nvsC = true ∧ (freeSectors (2) (0) nvsC.nvs).length < 2 ∧ collectChoice (2) (0) nvsC.nvs = some 320) ∧
    (nvsWorks nvsE = true ∧ (sectorAt (5) nvsE.nvs).st = SectorState.erase ∧ 90000 ≤ (sectorAt (5) nvsE.nvs).erases + 1) := by decide +kernel

end T6b

namespace T6c

def st (p op k : Nat) (ws : List Word) (s : State) : State := rec_ 0x78 ws s 0 (nvsAd p op k)
def xx (p op k n : Nat) : Xfer := xrec 0x78 n 0 (nvsAd p op k)
def ul : State := unl 0xFF a
def pwd : State := modNvs (fun n => { n with pws := [(2, List.replicate 16 5 ++ sha384 (List.replicate 16 5 ++ [9]))], fails := n.fails.set 1 7 }) a
def lk : State := modNvs (fun n => { n with copies := nvsC.nvs.copies }) ul
def st0 : State := st 2 0 0x1005 [1,2] ul
def st1 : State := st 2 6 0x1005 [0] ul
def st2 : State := st 1 1 0 [9] pwd
def st3 : State := st 1 1 0 [8] pwd
def st5 : State := st 1 3 0 [9] ul
def st6 : State := st 1 4 0 [9] ul
def st8 : State := rd 0x78 32 (nvsAd 2 0 0x1005) a
def st10 : State := rd 0x78 32 (nvsAd 2 0 0x1007) lk

theorem test_hyp_RecordAccess :
    ((recordAt 0 1 (fun x => decide (x = 120)) (xx 2 0 4101 2) st0) ∧ passes (dieOf 0) 0 st0 = true ∧ nvsAddrOk (xx 2 0 4101 2).addr = true ∧
      ((unlockBits (nvsPartOf (xx 2 0 4101 2).addr) st0).2.testBit (4 + nvsPartOf (xx 2 0 4101 2).addr) = true ∧ deviceKey (nvsPartOf (xx 2 0 4101 2).addr) (nvsKeyOf (xx 2 0 4101 2).addr) = false ∧ st0.nvs.queue.length < 16 ∧ nvsOpOf (xx 2 0 4101 2).addr = 0 ∧ 4 ≤ (toBytes (sourceWords (xx 2 0 4101 2) st0)).length ∧ (toBytes (sourceWords (xx 2 0 4101 2) st0)).length ≤ 4096) ∧
      (trimZeros (toBytes (sourceWords (xx 2 0 4101 2) st0)) ≠ [] ∧ (trimZeros (toBytes (sourceWords (xx 2 0 4101 2) st0))).length ≤ 32 ∧ 4 ≤ (toBytes (sourceWords (xx 2 0 4101 2) st0)).length ∧ (toBytes (sourceWords (xx 2 0 4101 2) st0)).length ≤ 4096 ∧ nvsPartOf (xx 2 0 4101 2).addr < 4 ∧ 0 < 2)) ∧
    ((recordAt 0 1 (fun x => decide (x = 120)) (xx 2 6 4101 1) st1) ∧ passes (dieOf 0) 0 st1 = true ∧ nvsAddrOk (xx 2 6 4101 1).addr = true ∧ (unlockBits (nvsPartOf (xx 2 6 4101 1).addr) st1).2.testBit (4 + nvsPartOf (xx 2 6 4101 1).addr) = true ∧ deviceKey (nvsPartOf (xx 2 6 4101 1).addr) (nvsKeyOf (xx 2 6 4101 1).addr) = false ∧ st1.nvs.queue.length < 16 ∧ nvsOpOf (xx 2 6 4101 1).addr = 6 ∧ toBytes (sourceWords (xx 2 6 4101 1) st1) = [0, 0, 0, 0]) := by unfold recordAt wholeSource; decide +kernel

theorem test_hyp_RecordAccess_2 :
    ((recordAt 0 1 (fun x => decide (x = 120)) (xx 1 1 0 1) st2) ∧ passes (dieOf 0) 0 st2 = true ∧ nvsAddrOk (xx 1 1 0 1).addr = true ∧ trimZeros (toBytes (sourceWords (xx 1 1 0 1) st2)) ≠ [] ∧ (trimZeros (toBytes (sourceWords (xx 1 1 0 1) st2))).length ≤ 32 ∧ 4 ≤ (toBytes (sourceWords (xx 1 1 0 1) st2)).length ∧ (toBytes (sourceWords (xx 1 1 0 1) st2)).length ≤ 4096 ∧ nvsPartOf (xx 1 1 0 1).addr < 4 ∧ 0 < 2 ∧ nvsOpOf (xx 1 1 0 1).addr = 0 + 1 ∧ st2.nvs.lockout[Fin.ofNat 4 (nvsPartOf (xx 1 1 0 1).addr)] = false) ∧
    ((recordAt 0 1 (fun x => decide (x = 120)) (xx 1 1 0 1) st3) ∧ passes (dieOf 0) 0 st3 = true ∧ nvsAddrOk (xx 1 1 0 1).addr = true ∧ trimZeros (toBytes (sourceWords (xx 1 1 0 1) st3)) ≠ [] ∧ (trimZeros (toBytes (sourceWords (xx 1 1 0 1) st3))).length ≤ 32 ∧ 4 ≤ (toBytes (sourceWords (xx 1 1 0 1) st3)).length ∧ (toBytes (sourceWords (xx 1 1 0 1) st3)).length ≤ 4096 ∧ nvsPartOf (xx 1 1 0 1).addr < 4 ∧ 0 < 2 ∧ nvsOpOf (xx 1 1 0 1).addr = 0 + 1 ∧ st3.nvs.lockout[Fin.ofNat 4 (nvsPartOf (xx 1 1 0 1).addr)] = false) ∧
    ((recordAt 0 1 (fun x => decide (x = 120)) (xx 1 3 0 1) st5) ∧ passes (dieOf 0) 0 st5 = true ∧ nvsAddrOk (xx 1 3 0 1).addr = true ∧ trimZeros (toBytes (sourceWords (xx 1 3 0 1) st5)) ≠ [] ∧ (trimZeros (toBytes (sourceWords (xx 1 3 0 1) st5))).length ≤ 32 ∧ 4 ≤ (toBytes (sourceWords (xx 1 3 0 1) st5)).length ∧ (toBytes (sourceWords (xx 1 3 0 1) st5)).length ≤ 4096 ∧ nvsPartOf (xx 1 3 0 1).addr < 4 ∧ nvsOpOf (xx 1 3 0 1).addr = 3) := by unfold recordAt wholeSource; decide +kernel

theorem test_hyp_RecordAccess_3 :
    (recordAt 0 1 (fun x => decide (x = 120)) (xx 1 4 0 1) st6) ∧ passes (dieOf 0) 0 st6 = true ∧ nvsAddrOk (xx 1 4 0 1).addr = true ∧ trimZeros (toBytes (sourceWords (xx 1 4 0 1) st6)) ≠ [] ∧ (trimZeros (toBytes (sourceWords (xx 1 4 0 1) st6))).length ≤ 32 ∧ 4 ≤ (toBytes (sourceWords (xx 1 4 0 1) st6)).length ∧ (toBytes (sourceWords (xx 1 4 0 1) st6)).length ≤ 4096 ∧ nvsPartOf (xx 1 4 0 1).addr < 4 ∧ 0 < 2 ∧ nvsOpOf (xx 1 4 0 1).addr = 0 + 4 ∧ (unlockBits (nvsPartOf (xx 1 4 0 1).addr) st6).2.testBit (4 + nvsPartOf (xx 1 4 0 1).addr) = true ∧ st6.nvs.queue.length < 16 := by unfold recordAt wholeSource; decide +kernel

theorem test_hyp_RecordAccess_4 :
    (readAt 0 1 (fun x => decide (x = 120)) (xrd 120 32 (nvsAd 2 0 4101)) st8) ∧ passes (dieOf 0) 0 st8 = true ∧ 16 ≤ (xrd 120 32 (nvsAd 2 0 4101)).len ∧ nvsOpOf (xrd 120 32 (nvsAd 2 0 4101)).addr = 0 ∧ nvsAddrOk (xrd 120 32 (nvsAd 2 0 4101)).addr = true ∧ (unlockBits (nvsPartOf (xrd 120 32 (nvsAd 2 0 4101)).addr) st8).2.testBit (nvsPartOf (xrd 120 32 (nvsAd 2 0 4101)).addr) = true ∧ (¬(nvsPartOf (xrd 120 32 (nvsAd 2 0 4101)).addr = 0 ∧ 1296 ≤ nvsKeyOf (xrd 120 32 (nvsAd 2 0 4101)).addr ∧ nvsKeyOf (xrd 120 32 (nvsAd 2 0 4101)).addr ≤ 1303)) ∧ resolve (nvsPartOf (xrd 120 32 (nvsAd 2 0 4101)).addr) (nvsKeyOf (xrd 120 32 (nvsAd 2 0 4101)).addr) st8.nvs = Resolved.absent ∧ (63 < storeBase 0 + (xrd 120 32 (nvsAd 2 0 4101)).base ∨ storeBase 0 + (xrd 120 32 (nvsAd 2 0 4101)).base + 4 * (fitWords ((xrd 120 32 (nvsAd 2 0 4101)).len / 4) (nvsHeader 1 0 0)).length ≤ 63) := by unfold readAt; decide +kernel

theorem test_hyp_RecordAccess_5 :
    ((readAt 0 1 (fun x => decide (x = 120)) (xrd 120 32 (nvsAd 2 0 4103)) st10) ∧ passes (dieOf 0) 0 st10 = true ∧ 16 ≤ (xrd 120 32 (nvsAd 2 0 4103)).len ∧ nvsOpOf (xrd 120 32 (nvsAd 2 0 4103)).addr = 0 ∧ nvsAddrOk (xrd 120 32 (nvsAd 2 0 4103)).addr = true ∧ (unlockBits (nvsPartOf (xrd 120 32 (nvsAd 2 0 4103)).addr) st10).2.testBit (nvsPartOf (xrd 120 32 (nvsAd 2 0 4103)).addr) = true ∧ (¬(nvsPartOf (xrd 120 32 (nvsAd 2 0 4103)).addr = 0 ∧ 1296 ≤ nvsKeyOf (xrd 120 32 (nvsAd 2 0 4103)).addr ∧ nvsKeyOf (xrd 120 32 (nvsAd 2 0 4103)).addr ≤ 1303)) ∧ resolve (nvsPartOf (xrd 120 32 (nvsAd 2 0 4103)).addr) (nvsKeyOf (xrd 120 32 (nvsAd 2 0 4103)).addr) st10.nvs = Resolved.found (cp 4103 1 321 true [7, 7, 7, 7]) ∧ 16 + (copyBytes (cp 4103 1 321 true [7, 7, 7, 7])).length ≤ (xrd 120 32 (nvsAd 2 0 4103)).len ∧ (63 < storeBase 0 + (xrd 120 32 (nvsAd 2 0 4103)).base ∨ storeBase 0 + (xrd 120 32 (nvsAd 2 0 4103)).base + 4 * (fitWords ((xrd 120 32 (nvsAd 2 0 4103)).len / 4) (nvsHeader 0 (copyBytes (cp 4103 1 321 true [7, 7, 7, 7])).length (cp 4103 1 321 true [7, 7, 7, 7]).seq ++ toWords (copyBytes (cp 4103 1 321 true [7, 7, 7, 7])))).length ≤ 63)) ∧
    clocked st8 = true := by unfold readAt; decide +kernel

theorem test_hyp_RecordAccess_unlock :
    (recordAt 0 1 (· = 0x78) (xx 1 1 0 1) st2 ∧ passes (dieOf 0) 0 st2 = true ∧ nvsAddrOk (xx 1 1 0 1).addr = true ∧
      (trimZeros (toBytes (sourceWords (xx 1 1 0 1) st2))).length = 1 ∧ nvsPartOf (xx 1 1 0 1).addr = 1 ∧
      nvsOpOf (xx 1 1 0 1).addr = 1 ∧ st2.nvs.lockout[(1 : Fin 4)] = false) ∧
    unlockMatches 1 0 (trimZeros (toBytes (sourceWords (xx 1 1 0 1) st2))) st2 = true := by
  have h1 : trimZeros (toBytes (sourceWords (xx 1 1 0 1) st2)) = [9] := by decide +kernel
  have h2 : assoc st2.nvs.pws (2 * 1 + 0) = some (List.replicate 16 5 ++ sha384 (List.replicate 16 5 ++ [9])) := rfl
  refine ⟨by unfold recordAt wholeSource; decide +kernel, ?_⟩
  rw [h1, unlockMatches, h2]
  simp

end T6c

namespace T6d

def pac (s : State) : State := setF (F.fpdStateRun 0) 1 s
def cols : List ColIn := (List.range 2064).map fun (i : Nat) => ⟨((i : Nat) : Int) * 300 - 300000, BitVec.ofNat 64 i⟩
def dwel : State := modFd 0 (fun e => { e with dwelling := true, hist := [2600,2700,2800,3900,3000,3100,3200,3300] }) r
def raw : State := modFd 0 (fun e => { e with raw := (List.range 20).map w32 }) a
def sh (st : Nat) : State := setF (F.fpdStateShutter 0) st (modFd 0 (fun e => { e with kept1 := 0x12345678 }) a)
def st0 : State := pac r
def st3 : State := rd 0x32 32 0 raw
def st8 : State := { setF (F.fpdStateLsyncMode 0) 1 (pac a) with grid := { a.grid with lastEdge := some 0 } }
def st9 : State := sh 0
def st10 : State := sh 1
def st11 : State := sh 2
def st12 : State := sh 3
def st14 : State := setF F.intStateSafe 1 (sh 0)

theorem test_hyp_FocalDieResults :
    (working st0 = true ∧ fdUp 0 st0 = true ∧ pacing 0 st0 = true ∧ st0.focal[0].row = 0 ∧ cols.length = 2064 ∧ 0 < 2064 ∧ allRecov 0 true st0 = true) ∧
    (clocked st0 = true ∧ fdUp 0 st0 = true) := by decide +kernel

theorem test_hyp_FocalDieResults_2 :
    ((readAt 0 1 (fun ep => decide (ep = 50) || decide (ep = 51)) (xrd 50 32 0) st3) ∧ (∀ e ∈ if st3.opt = Opt.zt4 then [1] else [1 + (Fin.ofNat 2 ((xrd 50 32 0).ep - 50)).val, 2 + (Fin.ofNat 2 ((xrd 50 32 0).ep - 50)).val], passes (dieOf 0) e st3 = true) ∧ (xrd 50 32 0).len / 4 ≤ st3.focal[Fin.ofNat 2 ((xrd 50 32 0).ep - 50)].raw.length ∧ (63 < storeBase 0 + (xrd 50 32 0).base ∨ storeBase 0 + (xrd 50 32 0).base + 4 * (List.take ((xrd 50 32 0).len / 4) st3.focal[Fin.ofNat 2 ((xrd 50 32 0).ep - 50)].raw).length ≤ 63)) ∧
    (clocked st3 = true ∧ fdUp 0 st3 = true ∧
      st3.focal[0].hist ≠ [] ∧
      1 ∉ [(F.fpdStateSettling 0).addr]) ∧
    (clocked dwel = true ∧ fdUp 0 dwel = true ∧ dwel.focal[0].dwelling = true ∧ flag (F.fpdStateBandLock 0) dwel = false) := by unfold readAt; decide +kernel

theorem test_hyp_SynchronisingAndTime :
    (working a = true ∧
      (issues 0 Cls.event false [] a ∧ passes (dieOf 0) 0 a = true ∧ edgeTooSoon ((a.periph + 74) / 25 * 25) a = false) ∧
      (100 ≤ 100 ∧ getF (F.fpdStateLsyncMode 0) a = 1 ∧ edgeTooSoon ((a.periph + 74) / 25 * 25) a = false)) ∧
    (working st8 = true ∧
      (issues 0 Cls.event false [] st8 ∧ passes (dieOf 0) 0 st8 = true ∧ edgeTooSoon ((st8.periph + 74) / 25 * 25) st8 = true) ∧
      (100 ≤ 100 ∧ getF (F.fpdStateLsyncMode 0) st8 = 1 ∧ edgeTooSoon ((st8.periph + 74) / 25 * 25) st8 = true)) ∧
    live a = true := by unfold issues; decide +kernel

theorem test_hyp_ShutterMovements :
    (issues 0 Cls.event (srcImm (Src.imm 0)) (srcRegs (Src.imm 0)) st9 ∧ bits (srcVal 0 (Src.imm 0) st9) 31 2 = 0 ∧ diePresent st9.opt (4 + ↑(shutterDie (srcVal 0 (Src.imm 0) st9))) = true ∧ reach (dieOf 0) (6 + ↑(shutterDie (srcVal 0 (Src.imm 0) st9))) st9 = true ∧ st9.msgs[shutterDie (srcVal 0 (Src.imm 0) st9)] = [] ∧ held (dieOf 0) (6 + ↑(shutterDie (srcVal 0 (Src.imm 0) st9))) st9 = false ∧ shutRunning (shutterDie (srcVal 0 (Src.imm 0) st9)) st9 = false ∧ st9.mode ≠ Mode.park ∧ inSafe st9 = false ∧ bit (srcVal 0 (Src.imm 0) st9) 1 = false ∧ getF (F.fpdStateShutter ↑(shutterDie (srcVal 0 (Src.imm 0) st9))) st9 = 0) ∧
    (issues 0 Cls.event (srcImm (Src.imm 0)) (srcRegs (Src.imm 0)) st14 ∧ bits (srcVal 0 (Src.imm 0) st14) 31 2 = 0 ∧ diePresent st14.opt (4 + ↑(shutterDie (srcVal 0 (Src.imm 0) st14))) = true ∧ reach (dieOf 0) (6 + ↑(shutterDie (srcVal 0 (Src.imm 0) st14))) st14 = true ∧ st14.msgs[shutterDie (srcVal 0 (Src.imm 0) st14)] = [] ∧ held (dieOf 0) (6 + ↑(shutterDie (srcVal 0 (Src.imm 0) st14))) st14 = false ∧ (shutRunning (shutterDie (srcVal 0 (Src.imm 0) st14)) st14 = true ∨ st14.mode = Mode.park ∨ inSafe st14 = true)) := by unfold issues; decide +kernel

theorem test_hyp_ShutterMovements_2 :
    (issues 0 Cls.event (srcImm (Src.imm 2)) (srcRegs (Src.imm 2)) st9 ∧ bits (srcVal 0 (Src.imm 2) st9) 31 2 = 0 ∧ diePresent st9.opt (4 + ↑(shutterDie (srcVal 0 (Src.imm 2) st9))) = true ∧ reach (dieOf 0) (6 + ↑(shutterDie (srcVal 0 (Src.imm 2) st9))) st9 = true ∧ st9.msgs[shutterDie (srcVal 0 (Src.imm 2) st9)] = [] ∧ held (dieOf 0) (6 + ↑(shutterDie (srcVal 0 (Src.imm 2) st9))) st9 = false ∧ shutRunning (shutterDie (srcVal 0 (Src.imm 2) st9)) st9 = false ∧ st9.mode ≠ Mode.park ∧ inSafe st9 = false ∧ bit (srcVal 0 (Src.imm 2) st9) 1 = true) ∧
    (issues 0 Cls.event (srcImm (Src.imm 2)) (srcRegs (Src.imm 2)) st11 ∧ bits (srcVal 0 (Src.imm 2) st11) 31 2 = 0 ∧ diePresent st11.opt (4 + ↑(shutterDie (srcVal 0 (Src.imm 2) st11))) = true ∧ reach (dieOf 0) (6 + ↑(shutterDie (srcVal 0 (Src.imm 2) st11))) st11 = true ∧ st11.msgs[shutterDie (srcVal 0 (Src.imm 2) st11)] = [] ∧ held (dieOf 0) (6 + ↑(shutterDie (srcVal 0 (Src.imm 2) st11))) st11 = false ∧ shutRunning (shutterDie (srcVal 0 (Src.imm 2) st11)) st11 = false ∧ st11.mode ≠ Mode.park ∧ inSafe st11 = false ∧ bit (srcVal 0 (Src.imm 2) st11) 1 = true ∧ getF (F.fpdStateShutter ↑(shutterDie (srcVal 0 (Src.imm 2) st11))) st11 = 2) ∧
    clocked st9 = true ∧
    (clocked st10 = true ∧ getF (F.fpdStateShutter 0) st10 = 1 ∧ diePresent st10.opt (4 + 0) = true) ∧
    (clocked st12 = true ∧ getF (F.fpdStateShutter 0) st12 = 3) := by unfold issues; decide +kernel

end T6d

namespace T7a

def st0 : State := rec_ 0x48 calRec a
def st1 : State := rec_ 0x48 [1,2,3,4] a
def st2 : State := pend 4 c0
def st4 : State := late (pend 10 c0)

theorem test_hyp_CalibrationRequests :
    ((recordAt 0 1 (fun x => decide (x = 72)) (xrec 72 4) st0) ∧ passes (dieOf 0) 0 st0 = true ∧ calRecordOk (sourceWords (xrec 72 4) st0) = true) ∧
    ((recordAt 0 1 (fun x => decide (x = 72)) (xrec 72 4) st1) ∧ passes (dieOf 0) 0 st1 = true ∧ calRecordOk (sourceWords (xrec 72 4) st1) = false) ∧
    (issues 0 Cls.event (srcImm (Src.imm (w32 (0 * 2 ^ 28)))) (srcRegs (Src.imm (w32 (0 * 2 ^ 28)))) st0 ∧ passes (dieOf 0) 0 st0 = true ∧ (11 < bits (srcVal 0 (Src.imm (w32 (0 * 2 ^ 28))) st0) 31 28 ∨ itemPresent st0.opt (bits (srcVal 0 (Src.imm (w32 (0 * 2 ^ 28))) st0) 31 28) = true) ∧ calReqOk (srcVal 0 (Src.imm (w32 (0 * 2 ^ 28))) st0) st0 = true ∧ bits (srcVal 0 (Src.imm (w32 (0 * 2 ^ 28))) st0) 27 26 = 0) ∧
    (issues 0 Cls.event (srcImm (Src.imm (w32 (4 * 2 ^ 28 + 2 ^ 26)))) (srcRegs (Src.imm (w32 (4 * 2 ^ 28 + 2 ^ 26)))) st0 ∧ passes (dieOf 0) 0 st0 = true ∧ (11 < bits (srcVal 0 (Src.imm (w32 (4 * 2 ^ 28 + 2 ^ 26))) st0) 31 28 ∨ itemPresent st0.opt (bits (srcVal 0 (Src.imm (w32 (4 * 2 ^ 28 + 2 ^ 26))) st0) 31 28) = true) ∧ calReqOk (srcVal 0 (Src.imm (w32 (4 * 2 ^ 28 + 2 ^ 26))) st0) st0 = true ∧ bits (srcVal 0 (Src.imm (w32 (4 * 2 ^ 28 + 2 ^ 26))) st0) 27 26 = 1) := by unfold issues recordAt wholeSource; decide +kernel

theorem test_hyp_CalibrationRequests_2 :
    (issues 0 Cls.event (srcImm (Src.imm (w32 (2 * 2 ^ 26 + 10 * 2 ^ 16 + 5)))) (srcRegs (Src.imm (w32 (2 * 2 ^ 26 + 10 * 2 ^ 16 + 5)))) st0 ∧ passes (dieOf 0) 0 st0 = true ∧ (11 < bits (srcVal 0 (Src.imm (w32 (2 * 2 ^ 26 + 10 * 2 ^ 16 + 5))) st0) 31 28 ∨ itemPresent st0.opt (bits (srcVal 0 (Src.imm (w32 (2 * 2 ^ 26 + 10 * 2 ^ 16 + 5))) st0) 31 28) = true) ∧ calReqOk (srcVal 0 (Src.imm (w32 (2 * 2 ^ 26 + 10 * 2 ^ 16 + 5))) st0) st0 = true ∧ bits (srcVal 0 (Src.imm (w32 (2 * 2 ^ 26 + 10 * 2 ^ 16 + 5))) st0) 27 26 = 2) ∧
    (issues 0 Cls.event (srcImm (Src.imm (w32 (3 * 2 ^ 26)))) (srcRegs (Src.imm (w32 (3 * 2 ^ 26)))) st0 ∧ passes (dieOf 0) 0 st0 = true ∧ (11 < bits (srcVal 0 (Src.imm (w32 (3 * 2 ^ 26))) st0) 31 28 ∨ itemPresent st0.opt (bits (srcVal 0 (Src.imm (w32 (3 * 2 ^ 26))) st0) 31 28) = true) ∧ calReqOk (srcVal 0 (Src.imm (w32 (3 * 2 ^ 26))) st0) st0 = false) := by unfold issues; decide +kernel

theorem test_hyp_CalibrationRequests_3 :
    (issues 0 Cls.event (srcImm (Src.imm (w32 (4 * 2 ^ 28)))) (srcRegs (Src.imm (w32 (4 * 2 ^ 28)))) st2 ∧ passes (dieOf 0) 0 st2 = true ∧ (11 < bits (srcVal 0 (Src.imm (w32 (4 * 2 ^ 28))) st2) 31 28 ∨ itemPresent st2.opt (bits (srcVal 0 (Src.imm (w32 (4 * 2 ^ 28))) st2) 31 28) = true) ∧ calReqOk (srcVal 0 (Src.imm (w32 (4 * 2 ^ 28))) st2) st2 = true ∧ bits (srcVal 0 (Src.imm (w32 (4 * 2 ^ 28))) st2) 27 26 = 0 ∧ calPending (bits (srcVal 0 (Src.imm (w32 (4 * 2 ^ 28))) st2) 31 28) st2 = true) ∧
    (live st2 = true ∧
      (bit (st2.word F.calCfg0) 30 = true ∧ itemPresent st2.opt 0 = true ∧ (0 < 2 ∧ bits (st2.word F.calCfg0) 29 22 ≠ 0 ∨ 4 ≤ 0 ∧ 0 ≤ 10 ∧ bits (st2.word F.calCfg0) 21 14 ≠ 0) ∧ (∀ (a : ℕ), assoc st2.cal.autoAt 0 = some a → a + 6000000000 * bits (st2.word F.calCfg0) (if 0 < 2 then 29 else 21) (if 0 < 2 then 22 else 14) ≤ st2.periph)) ∧
      assoc st2.cal.since 4 = some 0) ∧
    (live st4 = true ∧ assoc st4.cal.since 10 = some 0 ∧ (10 < 2 ∨ 10 = 10) ∧ 0 + 3600000000000 ≤ st4.time ∧ 10 ∉ st4.cal.told) := by unfold issues; decide +kernel

end T7a

namespace T7b

def sv : State := modCal (fun c => { c with unsaved := [(4, 0)] }) (late c0)
def svf : State := setF (F.calItemResultResult 11) 0x3C sv
def svr : State := modNvs (fun n => { n with save := some 1 }) (running 11 .measuring sv)
def st0 : State := gap false 6500000 10 c0
def st1 : State := gap true 0 6 c0
def st3 : DeclGap := (⟨6500000, 10, false⟩ : DeclGap)
def st4 : DeclGap := ⟨0, 6, true⟩

theorem test_hyp_CalibrationGapsAndSaves :
    (live c0 = true ∧
      c0.pins.feedGap = false ∧
      c0.mode ≠ Mode.park ∧
      calRunning 11 c0 = false) ∧
    (live st0 = true ∧ st0.cal.gap = some st3 ∧ st3.open_ = false ∧ st3.start ≤ st0.time) ∧
    (live st1 = true ∧ st1.cal.gap = some st4 ∧ st4.open_ = true ∧ st4.start + st4.len * 1000000 ≤ st1.time) ∧
    (live svf = true ∧ calRunning 11 svf = false ∧ getF (F.calItemResultResult 11) svf = 60 ∧ 600000 ≤ (svf.time / 1000000 + 2 ^ 32 - getF (F.calItemTimeDoneMs 11) svf) % 2 ^ 32) ∧
    (live svr = true ∧ calRunning 11 svr = true ∧ calPending 11 svr = false ∧ (∀ w ∈ svr.nvs.queue ++ svr.nvs.later, w.save = false) ∧ svr.nvs.save.isSome = true) := by decide +kernel

end T7b

namespace T7c

def sh0 : State := gap true 0 1000000 (pend 0 c0)
def sh1 : State := setF (F.fpdStateShutter 0) 2 (running 0 .closing c0)
def sh2 : State := modCalRun 0 (fun r => { r with phase := .measuring, refs := [2500], n := 3, total := 3, sums := [[],[],[]] }) sh1
def sc1 : State := modCalRun 2 (fun r => { r with counts := List.replicate 32 256, cfg := calRec }) (running 2 .measuring c0)
def sc2 : State := late sc1
def rn (i : Nat) (s : State) : CalRun := (runOf i s).getD (newRun 0 .closing s)

theorem test_hyp_CalibrationRunsResult :
    (live sh0 = true ∧ working sh0 = true ∧ fdUp 0 sh0 = true ∧ calPending (0) sh0 = true ∧ calRunning (0) sh0 = false ∧ gapOpen sh0 = true ∧ gapLeaves ((bits sh0.focal[0].kept1 31 24 + bits sh0.focal[0].kept1 23 16) * 100000 + 10000000 + slotLen sh0 * 250) sh0 = true ∧ (∀ l ∈ dieEngines 0 sh0, flag (F.algEngStatePresent ↑l) sh0 = false) ∧ getF (F.fpdStateShutter 0) sh0 = 0) ∧
    (live sh1 = true ∧ working sh1 = true ∧ runOf (0) sh1 = some (rn 0 sh1) ∧ (rn 0 sh1).phase = CalPhase.closing ∧ getF (F.fpdStateShutter 0) sh1 ≠ 1 ∧ sh1.grid.slotAt = sh1.periph) ∧
    (live sh2 = true ∧ working sh2 = true ∧ runOf (0) sh2 = some (rn 0 sh2) ∧ (rn 0 sh2).phase = CalPhase.measuring ∧ (rn 0 sh2).n = (rn 0 sh2).total ∧ calRunning (0) sh2 = true ∧ getF (F.fpdStateShutter 0) sh2 = 2) := by decide +kernel

theorem test_hyp_CalibrationRunsResult_2 :
    (live sc1 = true ∧ working sc1 = true ∧ runOf (2 + 0) sc1 = some (rn 2 sc1) ∧ calRunning (2 + 0) sc1 = true ∧ calPending (2 + 0) sc1 = false ∧ bit (sc1.word F.calCfg0) 31 = false ∧ sceneFull 0 (rn 2 sc1) sc1 = true) ∧
    (live sc2 = true ∧ working sc2 = true ∧ runOf (2 + 0) sc2 = some (rn 2 sc1) ∧ calRunning (2 + 0) sc2 = true ∧ calPending (2 + 0) sc2 = false ∧ bit (sc2.word F.calCfg0) 31 = false ∧ (rn 2 sc1).start + bits (nth 0 (rn 2 sc1).cfg 3) 31 16 * 1000000000 ≤ sc2.time) := by decide +kernel

end T7c

namespace T7d

def rn (i : Nat) (s : State) : CalRun := (runOf i s).getD (newRun i .closing s)
def q8 : State := pend 8 c0
def run (i : Nat) (ph : CalPhase) (f : CalRun → CalRun) : State := modCalRun i f (running i ph c0)
def r8 : State := run 8 (.repeating 0) fun r => { r with chans := List.replicate 64 (256, 5) }
def r8' : State := run 8 (.repeating 1) fun r => { r with chans := List.replicate 64 (255, 5) }
def st0 : State := late r8'

theorem test_hyp_CalibrationRunsResult :
    live q8 = true ∧ 4 ≤ 8 ∧ 8 ≤ 10 ∧ classAMay (8) q8 = true := by decide +kernel

theorem test_hyp_CalibrationRunsResult_2 :
    (live r8 = true ∧
      (4 ≤ 8 ∧ 8 ≤ 10 ∧ runOf (8) r8 = some (rn 8 r8) ∧ (rn 8 r8).phase = CalPhase.repeating 0 ∧ working r8 = true ∧ repeatDone (rn 8 r8) r8 = true ∧ (rn 8 r8).tries < 9) ∧
      (runOf (8 + 0) r8 = some (rn 8 r8) ∧ (rn 8 r8).phase = CalPhase.repeating 0)) ∧
    (live st0 = true ∧ runOf (8 + 0) st0 = some (rn 8 r8') ∧ (rn 8 r8').phase = CalPhase.repeating 1 ∧ (rn 8 r8').since + 10000000000 ≤ st0.time ∧ (nth (0, 0) (rn 8 r8').chans 5).1 ≠ 256) := by decide +kernel

end T7d

namespace T8a

def detS : State := rd 0x3A 32 0 { a with fused := { a.fused with det := [[1,2,3,4],[5,6,7,8],[9,10,11,12]] } }
def outS : State := rd 0x3E 288 0 { a with csn := a.csn.set 0 { a.csn[(0 : Fin 2)] with out := (List.range 3).map fun i => List.replicate 36 (w32 i) } }
def st0 : State := rec_ 0x38 (algRec 3 0 1 2) a
def st3 : State := rec_ 0x38 (algRec 3 1 4 2) a
def st6 : State := rec_ 0x39 (ram4 3) a
def st8 : State := rec_ 0x39 [1,2] a

theorem test_hyp_AlongAndCsenseRecords :
    ((recordAt 0 1 (fun x => decide (x = 56)) (xrec 56 4) st0) ∧ (∀ d ∈ algDies (bits (nth 0 (sourceWords (xrec 56 4) st0) 0) 31 24) st0, passes (dieOf 0) d st0 = true) ∧ (algRecordOk st0.opt (sourceWords (xrec 56 4) st0) = true ∧ ∀ l ∈ algTargets (bits (nth 0 (sourceWords (xrec 56 4) st0) 0) 31 24) st0, algEngineOk (nth 0 (sourceWords (xrec 56 4) st0) 0) l st0 = true)) ∧
    ((recordAt 0 1 (fun x => decide (x = 56)) (xrec 56 4) st3) ∧ (∀ d ∈ algDies (bits (nth 0 (sourceWords (xrec 56 4) st3) 0) 31 24) st3, passes (dieOf 0) d st3 = true) ∧ (algRecordOk st3.opt (sourceWords (xrec 56 4) st3) = false ∨ ∃ l ∈ algTargets (bits (nth 0 (sourceWords (xrec 56 4) st3) 0) 31 24) st3, algEngineOk (nth 0 (sourceWords (xrec 56 4) st3) 0) l st3 = false)) := by unfold recordAt wholeSource; decide +kernel

theorem test_hyp_AlongAndCsenseRecords_2 :
    ((recordAt 0 1 (fun x => decide (x = 57)) (xrec 57 2) st6) ∧ (∀ d ∈ algDies (bits (nth 0 (sourceWords (xrec 57 2) st6) 0) 31 24) st6, passes (dieOf 0) d st6 = true) ∧ (ramLoadOk (sourceWords (xrec 57 2) st6) = true ∧ ∀ l ∈ algTargets (bits (nth 0 (sourceWords (xrec 57 2) st6) 0) 31 24) st6, (engPlaced l st6 && !ramInUse (bit (nth 0 (sourceWords (xrec 57 2) st6) 0) 23) st6.engines[Fin.ofNat 64 l]) = true)) ∧
    ((recordAt 0 1 (fun x => decide (x = 57)) (xrec 57 2) st8) ∧ (∀ d ∈ algDies (bits (nth 0 (sourceWords (xrec 57 2) st8) 0) 31 24) st8, passes (dieOf 0) d st8 = true) ∧ (ramLoadOk (sourceWords (xrec 57 2) st8) = false ∨ ∃ l ∈ algTargets (bits (nth 0 (sourceWords (xrec 57 2) st8) 0) 31 24) st8, (engPlaced l st8 && !ramInUse (bit (nth 0 (sourceWords (xrec 57 2) st8) 0) 23) st8.engines[Fin.ofNat 64 l]) = false)) := by unfold recordAt wholeSource; decide +kernel

theorem test_hyp_AlongAndCsenseRecords_3 :
    ((readAt 0 1 (fun x => decide (x = 58)) (xrd 58 32 0) detS) ∧ passes (dieOf 0) 0 detS = true ∧ (xrd 58 32 0).addr = 0 ∧ (xrd 58 32 0).len % 16 = 0 ∧ (63 < storeBase 0 + (xrd 58 32 0).base ∨ storeBase 0 + (xrd 58 32 0).base + 4 * (fitWords ((xrd 58 32 0).len / 4) (List.take ((xrd 58 32 0).len / 16) detS.fused.det).flatten).length ≤ 63)) ∧
    ((readAt 0 1 (fun ep => decide (ep = 62) || decide (ep = 63)) (xrd 62 288 0) outS) ∧ passes (dieOf 0) (6 + ((xrd 62 288 0).ep - 62)) outS = true ∧ (xrd 62 288 0).addr = 0 ∧ (xrd 62 288 0).len % 144 = 0 ∧ (63 < storeBase 0 + (xrd 62 288 0).base ∨ storeBase 0 + (xrd 62 288 0).base + 4 * (fitWords ((xrd 62 288 0).len / 4) (List.take ((xrd 62 288 0).len / 144) outS.csn[Fin.ofNat 2 ((xrd 62 288 0).ep - 62)].out).flatten).length ≤ 63)) := by unfold readAt; decide +kernel

end T8a

namespace T8b

def mrec : List Word := [w32 (1*2^29 + 5*2^23 + 100*2^12 + 3), 0x00050007, 0x00000009]
def corRec : List Word := [w32 (100*2^20 + 20*2^9), w32 (500*2^16), 0]
def reg : List Word := [w32 (2^31 + 2), 1, 2]
def lw (row n : Nat) : List Word := (List.range n).map fun i => w32 (row*2^26 + (1000 + 5*i))
def rows (row : Nat) : State := modFd 0 (fun e => { e with sent := [(row, lw row 1040, lw row 1040, none), (8, [], [], some 3)] }) a
def badM : State := { a with corr := { a.corr with badEntries := [(siteKey 0 7 9, false), (siteKey 0 7 10, true)] } }
def st0 : State := rec_ 0x40 mrec a
def st1 : State := rec_ 0x40 [w32 (3*2^29),2,3] a
def st2 : State := rec_ 0x42 corRec a
def st3 : State := rec_ 0x42 [1,2,3] a
def st4 : State := rec_ 0x43 reg a
def st6 : State := rows 7
def st8 : State := rd 0x41 64 0 a

theorem test_hyp_PixelCorrectionResults :
    ((recordAt 0 1 (fun x => decide (x = 64)) (xrec 64 3) st0) ∧ (∀ d ∈ modelDies st0.opt (nth 0 (sourceWords (xrec 64 3) st0) 0), passes (dieOf 0) d st0 = true) ∧ modelRecordOk st0.opt (sourceWords (xrec 64 3) st0) = true) ∧
    ((recordAt 0 1 (fun x => decide (x = 64)) (xrec 64 3) st1) ∧ (∀ d ∈ modelDies st1.opt (nth 0 (sourceWords (xrec 64 3) st1) 0), passes (dieOf 0) d st1 = true) ∧ modelRecordOk st1.opt (sourceWords (xrec 64 3) st1) = false) ∧
    ((recordAt 0 1 (fun x => decide (x = 66)) (xrec 66 3) st2) ∧ passes (dieOf 0) 0 st2 = true ∧ corRecordOk st2.opt (sourceWords (xrec 66 3) st2) = true) ∧
    ((recordAt 0 1 (fun x => decide (x = 66)) (xrec 66 3) st3) ∧ passes (dieOf 0) 0 st3 = true ∧ corRecordOk st3.opt (sourceWords (xrec 66 3) st3) = false) ∧
    ((recordAt 0 1 (fun x => decide (x = 67)) (xrec 67 3) st4) ∧ passes (dieOf 0) (camDie st4.opt (Fin.ofNat 2 (b2n (bit (nth 0 (sourceWords (xrec 67 3) st4) 0) 31)))) st4 = true ∧ regMapOk (sourceWords (xrec 67 3) st4) st4 = false) := by unfold recordAt wholeSource; decide +kernel

theorem test_hyp_PixelCorrectionResults_2 :
    working st6 = true ∧ st6.focal[0].sent = [(7, lw 7 1040, lw 7 1040, none), (8, [], [], some 3)] ∧ 0 < 2048 ∧ dieUp (streamDieOf st6.opt (0) 0) st6 = true ∧ colWord 0 (lw 7 1040) (lw 7 1040) 0 = some ((colWord 0 (lw 7 1040) (lw 7 1040) 0).getD 0) := by decide +kernel

theorem test_hyp_PixelCorrectionResults_3 :
    (readAt 0 1 (fun x => decide (x = 65)) (xrd 65 64 0) st8) ∧ passes (dieOf 0) (streamDieOf st8.opt ((xrd 65 64 0).addr / 2) 0) st8 = true ∧ (xrd 65 64 0).addr < 4 ∧ (st8.opt = Opt.zt4 → (xrd 65 64 0).addr < 2) ∧ (∀ e ∈ corrDies st8.opt ↑(Fin.ofNat 2 ((xrd 65 64 0).addr / 2)), dieUp e st8 = true) ∧ (63 < storeBase 0 + (xrd 65 64 0).base ∨ storeBase 0 + (xrd 65 64 0).base + 4 * (fitWords ((xrd 65 64 0).len / 4) (blindHeld (Fin.ofNat 2 ((xrd 65 64 0).addr / 2)) ((xrd 65 64 0).addr % 2) st8)).length ≤ 63) := by unfold readAt; decide +kernel

theorem test_hyp_PixelCorrectionResults_4 :
    live badM = true ∧ diePresent badM.opt (4 + 0) = true ∧ (∃ k ∈ badM.corr.badEntries, k.1 = siteKey 0 7 9) ∧ siteKey 0 7 8 ≠ siteKey 0 7 9 := by decide +kernel

end T8b

namespace T8c

def bnd : State := modFd 1 (fun e => { e with row := 50 }) (modFd 0 (fun e => { e with row := 50 }) (setF (F.fpdStateRun 1) 1 (setF (F.fpdStateRun 0) 1 { a with grid := { a.grid with lastEdge := some 0, stamps := [1,2] } })))
def edge : State := { bnd with grid := { bnd.grid with edge := some 700000 } }
def fw : FusedWait := { num := 5, line := 3, stamp := 6000, bands := List.replicate 16 none, head := [], thermal := [], since := 0, late := [] }
def waitF : State := { a with fused := { a.fused with waiting := [fw, { fw with num := 6 }] } }
def ringS : State := rd 0x28 32 (5*131072 + 8) { a with fused := { a.fused with ring := [⟨5, (List.range 100).map w32, false⟩, ⟨6, [], false⟩] } }
def ringN : State := rd 0x28 32 (7*131072 + 8) ringS
def st0 : List FusedWait := [{ fw with num := 6 }]
def st1 : FusedLine := (⟨5, (List.range 100).map w32, false⟩ : FusedLine)

theorem test_hyp_LineSlotsAndFusedLines :
    (working bnd = true ∧ atBoundary bnd = true ∧ bnd.grid.lastEdge.isSome = true) ∧
    (working edge = true ∧ edge.grid.edge = some 700000 ∧ edge.fused.waiting = []) := by decide +kernel

theorem test_hyp_LineSlotsAndFusedLines_2 :
    working waitF = true ∧ waitF.fused.waiting = fw :: st0 ∧ dieUp (asmDie waitF.opt) waitF = true ∧ camReady 0 fw (takeMaps waitF) = true ∧ camReady 1 fw (takeMaps waitF) = true ∧ waitF.fused.ring.length < 8 := by decide +kernel

theorem test_hyp_LineSlotsAndFusedLines_3 :
    ((readAt 0 1 (fun x => decide (x = 40)) (xrd 40 32 (5 * 131072 + 8)) ringS) ∧ passes (dieOf 0) (asmDie ringS.opt) ringS = true ∧ fusedAt (xrd 40 32 (5 * 131072 + 8)) ringS = some st1 ∧ (xrd 40 32 (5 * 131072 + 8)).addr % 131072 + (xrd 40 32 (5 * 131072 + 8)).len ≤ 4 * st1.words.length ∧ noticesOut 0 1 ringS = false ∧ (∀ i ∈ [], 4 + 4 * bandCount ringS.opt ≤ i ∧ i < st1.words.length ∧ (xrd 40 32 (5 * 131072 + 8)).addr % 131072 ≤ 4 * i ∧ 4 * i < (xrd 40 32 (5 * 131072 + 8)).addr % 131072 + (xrd 40 32 (5 * 131072 + 8)).len) ∧ (63 < storeBase 0 + (xrd 40 32 (5 * 131072 + 8)).base ∨ storeBase 0 + (xrd 40 32 (5 * 131072 + 8)).base + 4 * (sliceWords (ringWords [] st1.words) ((xrd 40 32 (5 * 131072 + 8)).addr % 131072) (xrd 40 32 (5 * 131072 + 8)).len).length ≤ 63)) ∧
    ((readAt 0 1 (fun x => decide (x = 40)) (xrd 40 32 (7 * 131072 + 8)) ringN) ∧ passes (dieOf 0) (asmDie ringN.opt) ringN = true ∧ fusedAt (xrd 40 32 (7 * 131072 + 8)) ringN = none) := by unfold readAt; decide +kernel

end T8c

namespace T8d

def dm : List Word := [2, 0x4005, 0x1]
def opn (k : Nat) : CamOpen := ⟨some 3, List.replicate k 9, 0, false, true⟩
def o0 : State := withP (fun e => { e with hist := [ln 0, ln 1] }) k0
def fr0 : State := withP (fun e => { e with trigs := [trg 4 false false, trg 3 true true] }) k0
def fr1 : State := withP (fun e => { e with trigs := [trg 4 true false, trg 3 true true], line := some ⟨some 4, [3,2,1], 0, false, true⟩ }) k0
def fr3 : State := camF fr0
def fr4 : State := withP (fun e => { e with frame := some ⟨none, 2, []⟩ }) (camF fr0)
def st0 : State := rec_ 0x50 camRec k0
def st1 : State := rec_ 0x50 [1,2,3,4,5] k0
def st2 : State := rec_ 0x52 pipeReset k0
def st3 : State := rec_ 0x52 (List.replicate 20 1) k0
def st4 : State := rec_ 0x54 dm k0
def st5 : State := rec_ 0x54 [2,0x400F,1] k0
def st6 : State := rec_ 0x54 dm (withP (fun e => { e with line := some ⟨none,[],0,false,true⟩ }) k0)
def st7 : State := rec_ 0x52 pipeReset (withP (fun e => { e with line := some ⟨none,[],0,false,true⟩ }) k0)
def st8 : State := withP (fun e => { e with line := some (opn 2) }) k0
def st9 : State := withP (fun e => { e with line := some (opn 6) }) k0
def st12 : CamOut := (nextOf (exec (.camLineOut 0) o0)).cam.ports[(0:Fin 2)].outs.getLastD ⟨0,0,[],[],false⟩
def st13 : CamFrame := (⟨none, 2, []⟩: CamFrame)
def st14 : State := withP (fun e => { e with trigs := [trg 3 true true] }) k0
def st15 : CamOpen := (⟨some 4, [3,2,1], 0, false, true⟩: CamOpen)

theorem test_hyp_CameraRecordsAndPixels :
    ((recordAt 0 1 (fun ep => decide (ep = 80) || decide (ep = 81)) (xrec 80 5) st0 ∧ 0 = Fin.ofNat 2 ((xrec 80 5).ep - 80) ∧ passes (dieOf 0) (camDie st0.opt 0) st0 = true) ∧ camRecordOk 0 (sourceWords (xrec 80 5) st0) st0 = true) ∧
    ((recordAt 0 1 (fun ep => decide (ep = 80) || decide (ep = 81)) (xrec 80 5) st1 ∧ 0 = Fin.ofNat 2 ((xrec 80 5).ep - 80) ∧ passes (dieOf 0) (camDie st1.opt 0) st1 = true) ∧ camRecordOk 0 (sourceWords (xrec 80 5) st1) st1 = false) ∧
    ((recordAt 0 1 (fun ep => decide (ep = 82) || decide (ep = 83)) (xrec 82 20) st2 ∧ 0 = Fin.ofNat 2 ((xrec 82 20).ep - 82) ∧ passes (dieOf 0) (camDie st2.opt 0) st2 = true) ∧ camPipeOk (sourceWords (xrec 82 20) st2) = true ∧ (st2.cam.ports[0].line = none ∧ st2.cam.ports[0].frame = none)) ∧
    ((recordAt 0 1 (fun ep => decide (ep = 82) || decide (ep = 83)) (xrec 82 20) st3 ∧ 0 = Fin.ofNat 2 ((xrec 82 20).ep - 82) ∧ passes (dieOf 0) (camDie st3.opt 0) st3 = true) ∧ camPipeOk (sourceWords (xrec 82 20) st3) = false) ∧
    ((recordAt 0 1 (fun ep => decide (ep = 82) || decide (ep = 83)) (xrec 82 20) st7 ∧ 0 = Fin.ofNat 2 ((xrec 82 20).ep - 82) ∧ passes (dieOf 0) (camDie st7.opt 0) st7 = true) ∧ camPipeOk (sourceWords (xrec 82 20) st7) = true ∧ (¬(st7.cam.ports[0].line = none ∧ st7.cam.ports[0].frame = none))) ∧
    ((recordAt 0 1 (fun ep => decide (ep = 84) || decide (ep = 85)) (xrec 84 3) st4 ∧ 0 = Fin.ofNat 2 ((xrec 84 3).ep - 84) ∧ passes (dieOf 0) (camDie st4.opt 0) st4 = true) ∧ camDefectOk 0 (sourceWords (xrec 84 3) st4) st4 = true ∧ (st4.cam.ports[0].line = none ∧ st4.cam.ports[0].frame = none)) := by unfold recordAt wholeSource; decide +kernel

theorem test_hyp_CameraRecordsAndPixels_2 :
    ((recordAt 0 1 (fun ep => decide (ep = 84) || decide (ep = 85)) (xrec 84 3) st5 ∧ 0 = Fin.ofNat 2 ((xrec 84 3).ep - 84) ∧ passes (dieOf 0) (camDie st5.opt 0) st5 = true) ∧ camDefectOk 0 (sourceWords (xrec 84 3) st5) st5 = false) ∧
    ((recordAt 0 1 (fun ep => decide (ep = 84) || decide (ep = 85)) (xrec 84 3) st6 ∧ 0 = Fin.ofNat 2 ((xrec 84 3).ep - 84) ∧ passes (dieOf 0) (camDie st6.opt 0) st6 = true) ∧ camDefectOk 0 (sourceWords (xrec 84 3) st6) st6 = true ∧ (¬(st6.cam.ports[0].line = none ∧ st6.cam.ports[0].frame = none))) ∧
    camOn 0 st0 = true := by unfold recordAt wholeSource; decide +kernel

theorem test_hyp_CameraRecordsAndPixels_3 :
    (camOn 0 k0 = true ∧ pacing 0 k0 = true ∧ 0 < camTriggers 0 k0 ∧ 0 ∉ k0.cam.ports[0].fired ∧ (trigTimes 0 (0) k0).1 < getF (F.fpdStateLineSlot 0) k0 * 250) ∧
    (camOn 0 st8 = true ∧ st8.cam.ports[0].line = some (opn 2) ∧ (opn 2).trig.isSome = true ∧ (opn 2).pix.length < camLineLen 0 st8) ∧
    (camOn 0 st9 = true ∧ st9.cam.ports[0].line = some (opn 6) ∧ (opn 6).trig.isSome = true ∧ camLineLen 0 st9 ≤ (opn 6).pix.length ∧ (opn 6).long = false) := by decide +kernel

theorem test_hyp_CameraRecordsAndPixels_4 :
    camOn 0 o0 = true ∧ (List.find? (fun k => decide (k.num = o0.cam.ports[0].nextOut)) o0.cam.ports[0].hist = some (ln 0)) ∧ (∀ i ≤ lookahead o0.cam.ports[0].pipe (camArea 0 o0), ∃ k ∈ o0.cam.ports[0].hist, k.num = o0.cam.ports[0].nextOut + i) ∧ List.replicate 6 0 ∈ st12.chans := by decide +kernel

theorem test_hyp_CameraFraming :
    (camOn 0 fr0 = true ∧ camArea 0 fr0 = false ∧ camFrameLines 0 fr0 = 0 ∧ fr0.cam.ports[0].line = none ∧ fr0.cam.ports[0].frame = none ∧
      (freeTrigger 0 fr0 = some 4 ∧ camClosed 0 fr0 < 2) ∧
      (oldestOpen 0 fr0 = some (trg 4 false false) ∧ (List.find? (fun y => decide (y.num = (trg 4 false false).num)) fr0.cam.ports[0].trigs = some (trg 4 false false)) ∧ (trg 4 false false).at_ + bits (camCfg 0 1 fr0) 19 10 * 1000 ≤ fr0.time ∧ camClosed 0 fr0 < 2)) ∧
    (camOn 0 fr3 = true ∧ camArea 0 fr3 = false ∧ camFrameLines 0 fr3 ≠ 0 ∧ fr3.cam.ports[0].line = none) ∧
    (camOn 0 fr4 = true ∧ camArea 0 fr4 = false ∧ fr4.cam.ports[0].frame = some st13 ∧
      (camFrameLines 0 fr4 ≠ 0 ∧ fr4.cam.ports[0].line = none ∧ camFrameLines 0 fr4 ≤ st13.count) ∧
      trg 4 false false ∈ (nextOf (exec (Instr.camFrameEnd 0) fr4)).cam.ports[0].trigs ∧
      (List.take (camFrameLines 0 fr4 - st13.count) (List.map (fun x => x.num) (List.filter (fun x => !x.lined) fr4.cam.ports[0].trigs)).reverse = [])) := by decide +kernel

theorem test_hyp_CameraFraming_2 :
    (camOn 0 fr1 = true ∧ camArea 0 fr1 = false ∧ fr1.cam.ports[0].line = some st15 ∧ st15.trig = some 4 ∧ (List.find? (fun y => decide (y.num = 4)) fr1.cam.ports[0].trigs = some (trg 4 true false)) ∧ 0 < camLineLen 0 fr1) ∧
    (camOn 0 st14 = true ∧ camArea 0 st14 = false ∧ camFrameLines 0 st14 = 0 ∧ st14.cam.ports[0].line = none ∧ st14.cam.ports[0].frame = none ∧ freeTrigger 0 st14 = none) := by decide +kernel

end T8d

namespace T9a

def bl : BLine := { n := 1, warm := false, blind := false, vel := 30000, view := 6000000, bound := 7000000, pix := List.replicate 256 0 }
def fw : FusedWait := { num := 5, line := 3, stamp := 6000, bands := some bl :: List.replicate 15 none, head := [], thermal := [], since := 0, late := [] }
def waitM : State := camS { a with fused := { a.fused with waiting := [fw], regMap := a.fused.regMap.set 0 [0x80] } }
def st0 : State := { rec_ 0x43 [] a with xfers := [xrec 0x43 4097] }

theorem test_hyp_LineSlotsAndFusedLines :
    working waitM = true ∧ waitM.fused.waiting = [fw] ∧ camReady 0 fw (takeMaps waitM) = false := by decide +kernel

theorem noWords (b : Nat) : ∀ n a, readWords ([] : List Host.Cell) (b + a) n = List.replicate n 0
  | 0, _ => rfl
  | n + 1, a => by
    have h : readW [] (b + a) = 0 := by simp [readW, readB]
    rw [readWords, Nat.add_assoc, noWords b n (a + 4), List.replicate_succ, h]

theorem test_hyp_PixelCorrectionResults :
    recordAt 0 1 (· = 0x43) (xrec 67 4097) st0 ∧
    passes (dieOf 0) (camDie st0.opt (Fin.ofNat 2 (b2n (bit (nth 0 (sourceWords (xrec 67 4097) st0) 0) 31)))) st0 = true ∧
    regMapOk (sourceWords (xrec 67 4097) st0) st0 = true := by
  have hw : sourceWords (xrec 67 4097) st0 = List.replicate 4097 0 := noWords (storeBase 0 + 64) 4097 0
  refine ⟨⟨by decide +kernel, by decide +kernel, fun b hb => ?_⟩, ?_, ?_⟩
  · obtain ⟨a, _, rfl⟩ := List.mem_map.mp hb
    rfl
  · rw [hw, List.replicate_succ]
    decide +kernel
  · rw [hw, List.replicate_succ, regMapOk]
    simp only [List.length_replicate, List.all_replicate]
    decide +kernel

end T9a

namespace T9b

def lw (row n : Nat) : List Word := (List.range n).map fun i => w32 (row*2^26 + (1000 + 5*i))
def rows (row : Nat) : State := modFd 0 (fun e => { e with sent := [(row, lw row 1040, lw row 1040, none)] }) ({ a with corr := { a.corr with model := [(siteKey 0 row 100, { Entry.dflt with g := 20000, o0 := 7, tau := 100 }), (siteKey 0 row 101, { Entry.dflt with badPix := true })], drift := [(siteKey 0 row 100, -5)] } })
def st0 : State := rows 7

theorem test_hyp_PixelCorrectionResults :
    working st0 = true ∧ st0.focal[0].sent = [(7, lw 7 1040, lw 7 1040, none)] ∧ 0 < 2048 ∧ dieUp (streamDieOf st0.opt (0) 0) st0 = true ∧ colWord 0 (lw 7 1040) (lw 7 1040) 0 = some ((colWord 0 (lw 7 1040) (lw 7 1040) 0).getD 0) ∧ commonMode (streamDieOf st0.opt (0) 0) (0) (7) (nqOf (getF (F.fpdStateBand 0) st0)) (refsOf st0.opt (streamDieOf st0.opt (0) 0) (0) (lw 7 1040) (lw 7 1040)) st0 = some ((commonMode (streamDieOf Opt.zt8 0 100) 0 7 (nqOf (getF (F.fpdStateBand 0) (rows 7))) (refsOf Opt.zt8 (streamDieOf Opt.zt8 0 100) 0 (lw 7 1040) (lw 7 1040)) (rows 7)).getD 0) ∧ (48 ≤ 7 ∨ (entryAt (siteKey (0) (7) 0) st0).badPix = false ∧ ∀ k ∈ st0.corr.badEntries, k.1 ≠ siteKey (0) (7) 0) := by decide +kernel

end T9b

namespace T1

def r : State := State.reset
def discard (n : Nat) : State := modDir 4 true (fun d => { d with discarding := true, attempts := n }) r
def failing : State := modDir 4 true (fun d => { d with attempts := 3 }) r
def moving : State := setAt F.stcLinkUp 4 false (modLink 4 (fun k => { k with moving := true }) r)
def f (q : Fin 128) (ty : BitVec 2) (par : BitVec 4) (ack : BitVec 8) : Flit := ⟨[0, 0, 0, 0], par, q, ty, ack⟩
def st0 : State := discard 0

theorem test_hyp_LinkTraffic :
    (clocked r = true ∧ linkUp (4) r = true ∧
      (flitOk (sentFlit (f 0 1 15 0) []) = true ∧ (f 0 1 15 0).type = 1 ∧ (f 0 1 15 0).ack.getLsbD 7 = false ∧ maySend (linkDir true r.links[4]) (sentFlit (f 0 1 15 0) []) = true ∧ (linkDir true r.links[4]).discarding = false ∧ (f 0 1 15 0).seq = (linkDir true r.links[4]).expect ∧ flitOk (f 0 1 15 0) = true) ∧
      (flitOk (sentFlit (f 0 1 14 0) [1#33]) = true ∧ (f 0 1 14 0).type = 1 ∧ (f 0 1 14 0).ack.getLsbD 7 = false ∧ maySend (linkDir true r.links[4]) (sentFlit (f 0 1 14 0) [1#33]) = true ∧ (linkDir true r.links[4]).discarding = false ∧ (f 0 1 14 0).seq = (linkDir true r.links[4]).expect ∧ flitOk (f 0 1 14 0) = false ∧ (linkDir true r.links[4]).attempts < 3) ∧
      (flitOk (sentFlit (f 0 0 15 129) []) = true ∧ (f 0 0 15 129).type = 0 ∧ flitOk (f 0 0 15 129) = true ∧ (f 0 0 15 129).ack.getLsbD 7 = true ∧ (∀ x ∈ (linkDir (!true) r.links[4]).buf, x.seq ≠ Fin.ofNat 128 ((f 0 0 15 129).ack.toNat % 128)))) ∧
    (clocked st0 = true ∧ linkUp (4) st0 = true ∧ flitOk (sentFlit (f 0 1 15 0) []) = true ∧
      ((f 0 1 15 0).type = 1 ∧ (f 0 1 15 0).ack.getLsbD 7 = false ∧ maySend (linkDir true st0.links[4]) (sentFlit (f 0 1 15 0) []) = true ∧ (linkDir true st0.links[4]).discarding = true) ∧
      (linkDir true st0.links[4]).discarding = true) := by decide +kernel

theorem test_hyp_LinkTraffic_2 :
    (clocked failing = true ∧ linkUp (4) failing = true ∧ flitOk (sentFlit (f 0 1 14 0) [1#33]) = true ∧ (f 0 1 14 0).type = 1 ∧ (f 0 1 14 0).ack.getLsbD 7 = false ∧ maySend (linkDir true failing.links[4]) (sentFlit (f 0 1 14 0) [1#33]) = true ∧ (linkDir true failing.links[4]).discarding = false ∧ (f 0 1 14 0).seq = (linkDir true failing.links[4]).expect ∧ flitOk (f 0 1 14 0) = false ∧ 3 ≤ (linkDir true failing.links[4]).attempts) ∧
    (clocked moving = true ∧ moving.links[4].moving = true ∧ linkUp (4) moving = false ∧ (secondPath (4) moving).isSome = true) := by decide +kernel

end T1

namespace T10

def dd (tr wi fat : Bool) (s : State) : State := setAt F.stcDdrFatal 1 fat (setF F.stcDdrSizeSize 6 { s with ddr := Vector.replicate 4 { DdrChan.reset with trained := tr, wiped := wi } })
def wrx (ad n : Nat) (s : State) : State := { rec_ 0x21 ((List.range (n/4)).map fun i => w32 (i*77+1)) s 0 ad with }
def xw (ad n : Nat) : Xfer := xrec 0x21 (n/4) 0 ad
def rdx (ad n : Nat) (s : State) : State := rd 0x21 n ad { s with mem := (List.range 40).map fun i => (ddrBase 1 + 8*ad + i*2, 7) }
def st0 : State := dd true true false (wrx 5 16 a)
def st1 : State := dd true true false (wrx 5 12 a)
def st4 : State := dd true true true (wrx 5 16 a)
def st5 : State := dd true false false (wrx 5 16 a)
def st6 : State := dd false false false (wrx 5 16 a)
def st8 : State := dd true true false (rdx 5 64 a)
def st11 : State := dd true true false (rdx 8 64 a)

theorem test_hyp_DdrChannels :
    (live st0 = true ∧ Memory.wf st0.mem = true ∧ firstXfer 0 1 st0 = some (xw 5 16) ∧ (xw 5 16).ep = 32 + 1 ∧ passes (dieOf 0) (1) st0 = true ∧ flagAt F.stcDdrFatal (1) st0 = false ∧ st0.ddr[1].trained = true ∧ ddrSize 1 st0 ≠ 0 ∧ (xw 5 16).len % 8 = 0 ∧ 8 * (xw 5 16).addr + (xw 5 16).len ≤ ddrSize 1 st0 ∧ (st0.ddr[1].wiped = true ∨ 8 * (xw 5 16).addr + (xw 5 16).len ≤ st0.ddr[1].passed) ∧ (xw 5 16).out = true ∧ wholeSource (xw 5 16) st0 ∧ (0 < ddrBase 1 + 8 * (xw 5 16).addr ∨ ddrBase 1 + 8 * (xw 5 16).addr + 4 * (sourceWords (xw 5 16) st0).length ≤ 0)) ∧
    (clocked st0 = true ∧ ddrSize 1 st0 ≠ 0 ∧ dieUp (1) st0 = true) ∧
    (live st1 = true ∧ Memory.wf st1.mem = true ∧ firstXfer 0 1 st1 = some (xw 5 12) ∧ (xw 5 12).ep = 32 + 1 ∧ passes (dieOf 0) (1) st1 = true ∧ flagAt F.stcDdrFatal (1) st1 = false ∧ st1.ddr[1].trained = true ∧ ddrSize 1 st1 ≠ 0 ∧ ((xw 5 12).len % 8 ≠ 0 ∨ ddrSize 1 st1 < 8 * (xw 5 12).addr + (xw 5 12).len)) ∧
    (live st4 = true ∧ Memory.wf st4.mem = true ∧ firstXfer 0 1 st4 = some (xw 5 16) ∧ (xw 5 16).ep = 32 + 1 ∧ passes (dieOf 0) (1) st4 = true ∧ flagAt F.stcDdrFatal (1) st4 = true) ∧
    (live st5 = true ∧ Memory.wf st5.mem = true ∧ firstXfer 0 1 st5 = some (xw 5 16) ∧ (xw 5 16).ep = 32 + 1 ∧ passes (dieOf 0) (1) st5 = true ∧ flagAt F.stcDdrFatal (1) st5 = false ∧ st5.ddr[1].trained = true ∧ ddrSize 1 st5 ≠ 0 ∧ (xw 5 16).len % 8 = 0 ∧ 8 * (xw 5 16).addr + (xw 5 16).len ≤ ddrSize 1 st5 ∧ st5.ddr[1].wiped = false ∧ st5.ddr[1].passed < 8 * (xw 5 16).addr + (xw 5 16).len) := by unfold wholeSource; decide +kernel

theorem test_hyp_DdrChannels_2 :
    live st6 = true ∧ Memory.wf st6.mem = true ∧ firstXfer 0 1 st6 = some (xw 5 16) ∧ (xw 5 16).ep = 32 + 1 ∧ passes (dieOf 0) (1) st6 = true ∧ flagAt F.stcDdrFatal (1) st6 = false ∧ st6.ddr[1].trained = false := by decide +kernel

theorem test_hyp_DdrChannels_3 :
    live st8 = true ∧ Memory.wf st8.mem = true ∧ firstXfer 0 1 st8 = some (xrd 33 64 5) ∧ (xrd 33 64 5).ep = 32 + 1 ∧ passes (dieOf 0) (1) st8 = true ∧ flagAt F.stcDdrFatal (1) st8 = false ∧ st8.ddr[1].trained = true ∧ ddrSize 1 st8 ≠ 0 ∧ (xrd 33 64 5).len % 8 = 0 ∧ 8 * (xrd 33 64 5).addr + (xrd 33 64 5).len ≤ ddrSize 1 st8 ∧ (st8.ddr[1].wiped = true ∨ 8 * (xrd 33 64 5).addr + (xrd 33 64 5).len ≤ st8.ddr[1].passed) ∧ (xrd 33 64 5).out = false ∧ (∀ y ∈ st8.ddr[1].failing, y.1 ≠ 0 ∨ y.2.1 ≠ 1) ∧ st8.memBad = [] ∧ (0 < storeBase 0 + (xrd 33 64 5).base ∨ storeBase 0 + (xrd 33 64 5).base + 4 * ((xrd 33 64 5).len / 4) ≤ 0) := by decide +kernel

theorem test_hyp_DdrChannels_4 :
    (live st11 = true ∧ (List.find? (fun x => !x.out && x.code.isNone && decide (x.ep = 32 + 1) && (burstsOf (8 * x.addr) x.len).contains (1#30).toNat && (ddrRefusal 1 x st11).isNone && !st11.ddr[1].failing.contains (x.unit, x.tag, (1#30).toNat)) st11.xfers = some (xrd 33 64 8))) ∧
    (clocked st11 = true ∧ ddrSize 1 st11 ≠ 0 ∧ dieUp (1) st11 = true ∧ flagAt F.stcDdrFatal (1) st11 = false ∧ 4 ≤ 4) := by decide +kernel

end T10

namespace T11

def lim (a b c : Nat) : Word := w32 (a*2^24 + b*65536 + c*256)
def th (d : Fin 8) (f : ThmDie → ThmDie) (s : State) : State := { s with thm := { s.thm with dies := s.thm.dies.set d (f s.thm.dies[d]) } }
def nx : State := { r with thm := { r.thm with next := some (lim 100 110 120) } }
def hot (n : Nat) : State := th 0 (fun e => { e with at_ := [n, n, n, n, n], hist := [[9000,9100],[12000,11900]] }) nx
def st0 : State := rec_ 0x74 [lim 110 118 125, ~~~(lim 110 118 125)] nx
def st1 : State := rec_ 0x74 [lim 110 118 125, 5] a
def st4 : State := hot 3
def st5 : State := th 0 (fun e => { e with at_ := [4,4,4,0,0], below := [16,16,16], shut := true }) r

theorem test_hyp_TemperatureReadings :
    (recordAt 0 1 (fun x => decide (x = 116)) (xrec 116 2) st0) ∧ passes (dieOf 0) 0 st0 = true ∧ sourceWords (xrec 116 2) st0 = [lim 110 118 125, ~~~lim 110 118 125] ∧ thmRangeOk (lim 110 118 125) = true := by unfold recordAt wholeSource; decide +kernel

theorem test_hyp_TemperatureReadings_2 :
    clocked st4 = true ∧ diePresent st4.opt 0 = true ∧ dieUp (0) st4 = true ∧ st4.thm.dies[0].shut = false ∧ 3 ≤ nth 0 st4.thm.dies[0].at_ 4 ∧ dieReading (0) (nextOf (exec (Instr.junctionSample 0 [12600, 12700, 1]) st4)) = some ((dieReading 0 (nextOf (exec (Instr.junctionSample 0 [12600, 12700, 1]) (hot 3)))).getD 0) := by decide +kernel

theorem test_hyp_TemperatureReadings_3 :
    clocked st5 = true ∧ diePresent st5.opt 0 = true ∧
      (inLevel 0 0 st5 = true ∧ 16 ≤ nth 0 st5.thm.dies[0].below 0) ∧
      (st5.thm.dies[0].shut = true ∧ 16 ≤ nth 0 st5.thm.dies[0].below 2) := by decide +kernel

theorem test_hyp_TemperatureReadings_refused :
    (recordAt 0 1 (· = 0x74) (xrec 116 2) st1 ∧ passes (dieOf 0) 0 st1 = true) ∧
    ∀ a, sourceWords (xrec 116 2) st1 = [a, ~~~ a] → thmRangeOk a = false := by
  have h : sourceWords (xrec 116 2) st1 = [lim 110 118 125, 5] := by decide +kernel
  refine ⟨by unfold recordAt wholeSource; decide +kernel, fun a ha => ?_⟩
  rw [h] at ha
  injection ha with h1 h2
  injection h2 with h2 _
  rw [← h1] at h2
  exact absurd h2 (by decide)

end T11

namespace T12

def th (d : Fin 8) (f : ThmDie → ThmDie) (s : State) : State := { s with thm := { s.thm with dies := s.thm.dies.set d (f s.thm.dies[d]) } }
def busy0 : State := strOn 2 (setF (F.fpdStateRun 0) 1 (setF (F.fpdStateBiasOn 0) 1 (running 0 .measuring (runs2 |> (fun s => { s with nvs := (nvs2 2).nvs })))))
def ageSt (n : Nat) : State := setF F.pwrVcoreSetStep n r
def st0 : State := setF F.thmStateShutdown 1 (th 2 (fun e => {e with shut := true}) r)
def st1 : State := ageSt 0

theorem test_hyp_ShutdownAndAgeing :
    (clocked busy0 = true ∧ diePresent busy0.opt 0 = true ∧ busy0.thm.dies[0].shut = false ∧ inShutdown busy0 = false) ∧
    ageingRuns busy0 = true ∧
    live busy0 = true ∧
    (clocked st0 = true ∧ diePresent st0.opt 0 = true ∧ st0.thm.dies[0].shut = false ∧ inShutdown st0 = true) := by decide +kernel

theorem test_hyp_ShutdownAndAgeing_2 :
    ageingRuns st1 = true ∧
      (getF F.pwrVcoreSetStep st1 < 12 ∧ (4000 + 3000 * getF F.pwrVcoreSetStep st1 < List.foldl max 0 (List.map (fun d => getF (F.thmDieAgeAge d) (List.foldl (fun r x => setF (F.thmDieAgeAge x.1) (min 65535 (nth 0 [4001] x.2)) r) st1 (ringDies st1.opt).zipIdx)) (List.filter (fun d => diePresent st1.opt d) (List.range 4)))) ∧ (∀ (d : Fin 8), st1.thm.dies[d].shut = false)) ∧
      (List.foldl max 0 (List.map (fun d => getF (F.thmDieAgeAge d) (List.foldl (fun r x => setF (F.thmDieAgeAge x.1) (min 65535 (nth 0 [4000] x.2)) r) st1 (ringDies st1.opt).zipIdx)) (List.filter (fun d => diePresent st1.opt d) (List.range 4))) ≤ 4000 + 3000 * getF F.pwrVcoreSetStep st1) := by decide +kernel

end T12

namespace T13a

def fullx : State := strOn 2 (setF (F.fpdStateRun 0) 1 (modU 26 (fun e => { e with s := (e.s.set 6 0x0701).set 7 0x0402 |>.set 8 0x0201 |>.set 9 0x1a02 |>.set 10 0x0001 }) { h with mem := mem1 ++ [(storeBase 4 + 4, 3), (storeBase 26 + 4, 3), (2^40+7, 9)], nvs := (nvs2 2).nvs, ejt := valves .open_ |>.ejt, focal := h.focal, time := 6600000 }))

theorem test_hyp_ResetsAndReload :
    (issues 26 Cls.sys (srcImm (Src.reg 0)) (srcRegs (Src.reg 0)) fullx ∧ resetBad (srcVal 26 (Src.reg 0) fullx) fullx = false ∧ Instr.sysResetFull 26 (Src.reg 0) ∈ [Instr.sysResetFull 26 (Src.reg 0), Instr.sysResetDie 26 (Src.reg 0), Instr.sysResetCluster 26 (Src.reg 0)] ∧ (bits (srcVal 26 (Src.reg 0) fullx) 1 0 = 0 ∨ bits (srcVal 26 (Src.reg 0) fullx) 1 0 = 1 ∧ bits (srcVal 26 (Src.reg 0) fullx) 15 8 = 0) ∧
      (storeBase 4 ≤ storeBase 4 + 4 ∧ storeBase 4 + 4 < storeBase 4 + storeSize 4) ∧
      2 ^ 40 ≤ 2 ^ 40 + 7) ∧
    (issues 26 Cls.sys (srcImm (Src.reg 6)) (srcRegs (Src.reg 6)) fullx ∧ resetBad (srcVal 26 (Src.reg 6) fullx) fullx = false ∧ Instr.sysResetDie 26 (Src.reg 6) ∈ [Instr.sysResetFull 26 (Src.reg 6), Instr.sysResetDie 26 (Src.reg 6), Instr.sysResetCluster 26 (Src.reg 6)] ∧ bits (srcVal 26 (Src.reg 6) fullx) 1 0 = 1 ∧ bits (srcVal 26 (Src.reg 6) fullx) 15 8 ≠ 0 ∧
      2 ^ 40 ≤ 2 ^ 40 + 7 ∧
      (dieOf 4 ≠ bits (srcVal 26 (Src.reg 6) fullx) 15 8 ∧ storeBase 4 ≤ storeBase 4 + 4 ∧ storeBase 4 + 4 < storeBase 4 + storeSize 4)) ∧
    (issues 26 Cls.sys (srcImm (Src.reg 7)) (srcRegs (Src.reg 7)) fullx ∧ resetBad (srcVal 26 (Src.reg 7) fullx) fullx = false ∧ Instr.sysResetCluster 26 (Src.reg 7) ∈ [Instr.sysResetFull 26 (Src.reg 7), Instr.sysResetDie 26 (Src.reg 7), Instr.sysResetCluster 26 (Src.reg 7)] ∧ bits (srcVal 26 (Src.reg 7) fullx) 1 0 = 2 ∧ 4 = bits (srcVal 26 (Src.reg 7) fullx) 15 8 ∧
      (storeBase 4 ≤ storeBase 4 + 4 ∧ storeBase 4 + 4 < storeBase 4 + storeSize 4) ∧
      (0 ≠ 4 ∧ storeBase 0 ≤ 8 ∧ 8 < storeBase 0 + storeSize 0) ∧
      2 ^ 40 ≤ 2 ^ 40 + 7) := by unfold issues; decide +kernel

end T13a

namespace T13b

def ldd (n : Nat) (im : Image) : State := modU 26 (fun e => { e with s := e.s.set 6 (w32 n) }) { h with boot := { h.boot with running := some im, place := [(0, 3), (1, 7)] }, status := h.status, mem := [(storeBase 3 + 4, 5)] }
def dn (d : Nat) : State := setAt F.rstDieDieUp d false (setAt F.stcLinkUp 10 false h)
def st0 : State := ldd 0 img
def st2 : State := ldd 0 imgBad
def st3 : State := dn 6

theorem test_hyp_ResetsAndReload :
    issues 26 Cls.sys (srcImm (Src.reg 6)) (srcRegs (Src.reg 6)) st0 ∧ st0.boot.running = some img ∧ img.clusters[BitVec.toNat (srcVal 26 (Src.reg 6) st0)]? = some (cc none) ∧ ((loaderCheck false img (List.filter (fun x => [BitVec.toNat (srcVal 26 (Src.reg 6) st0)].contains x.1) (clustersOf img)) (List.filter (fun x => ! [BitVec.toNat (srcVal 26 (Src.reg 6) st0)].contains x.1) (match assoc st0.boot.place (BitVec.toNat (srcVal 26 (Src.reg 6) st0)) with | some p => clusterReset p (advance 26 (srcImm (Src.reg 6)) st0) | none => advance 26 (srcImm (Src.reg 6)) st0).boot.place) (match assoc st0.boot.place (BitVec.toNat (srcVal 26 (Src.reg 6) st0)) with | some p => clusterReset p (advance 26 (srcImm (Src.reg 6)) st0) | none => advance 26 (srcImm (Src.reg 6)) st0)).1 = 0) ∧ ((BitVec.toNat (srcVal 26 (Src.reg 6) st0), 0) ∈ (loaderCheck false img (List.filter (fun x => [BitVec.toNat (srcVal 26 (Src.reg 6) st0)].contains x.1) (clustersOf img)) (List.filter (fun x => ! [BitVec.toNat (srcVal 26 (Src.reg 6) st0)].contains x.1) (match assoc st0.boot.place (BitVec.toNat (srcVal 26 (Src.reg 6) st0)) with | some p => clusterReset p (advance 26 (srcImm (Src.reg 6)) st0) | none => advance 26 (srcImm (Src.reg 6)) st0).boot.place) (match assoc st0.boot.place (BitVec.toNat (srcVal 26 (Src.reg 6) st0)) with | some p => clusterReset p (advance 26 (srcImm (Src.reg 6)) st0) | none => advance 26 (srcImm (Src.reg 6)) st0)).2) ∧ 3 ≠ clusterUnit 0 := by unfold issues; decide +kernel

theorem test_hyp_ResetsAndReload_2 :
    issues 26 Cls.sys (srcImm (Src.reg 6)) (srcRegs (Src.reg 6)) st2 ∧ st2.boot.running = some imgBad ∧ imgBad.clusters[BitVec.toNat (srcVal 26 (Src.reg 6) st2)]? = some (cc none) ∧ ((loaderCheck false imgBad (List.filter (fun x => [BitVec.toNat (srcVal 26 (Src.reg 6) st2)].contains x.1) (clustersOf imgBad)) (List.filter (fun x => ! [BitVec.toNat (srcVal 26 (Src.reg 6) st2)].contains x.1) (match assoc st2.boot.place (BitVec.toNat (srcVal 26 (Src.reg 6) st2)) with | some p => clusterReset p (advance 26 (srcImm (Src.reg 6)) st2) | none => advance 26 (srcImm (Src.reg 6)) st2).boot.place) (match assoc st2.boot.place (BitVec.toNat (srcVal 26 (Src.reg 6) st2)) with | some p => clusterReset p (advance 26 (srcImm (Src.reg 6)) st2) | none => advance 26 (srcImm (Src.reg 6)) st2)).1 ≠ 0) := by unfold issues; decide +kernel

theorem test_hyp_ResetsAndReload_3 :
    live st3 = true ∧ 6 ≠ 0 ∧ diePresent st3.opt 6 = true ∧ dieUp (6) st3 = false ∧
      (Option.any (fun e => decide (e.1 = 6) || decide (e.2 = 6)) (linkEnds st3.opt (0 : Fin 16)) = false) ∧
      ((Option.any (fun e => decide (e.1 = 6) || decide (e.2 = 6)) (linkEnds st3.opt (10 : Fin 16)) = true) ∧ (10 : Fin 16) ∉ []) := by decide +kernel

end T13b

namespace T14

def m (k : Mode) (s : State) : State := { s with mode := k }
def lit0 (s : State) : State := strOn 2 (setF (F.fpdStateBiasOn 0) 1 (setF (F.fpdStateShutter 0) shClosed (setF (F.fpdStateShutter 1) shClosing s)))
def fullx : State := { runs2 with mode := .entering true }
def st0 : State := lit0 h
def st1 : State := m .park (lit0 h)
def st2 : State := m .standby (lit0 h)
def st3 : State := m (.exiting true) (lit0 h)
def st5 : State := strOn 2 (setF (F.fpdStateBiasOn 0) 1 fullx)

theorem test_hyp_StandbyAndPark :
    (issues 26 Cls.sys false [] st0 ∧ inShutdown st0 = false ∧ (st0.mode = Mode.running ∨ ∃ p, st0.mode = Mode.entering p)) ∧
    (issues 26 Cls.sys false [] st1 ∧ inShutdown st1 = false ∧
      st1.mode = Mode.park ∧
      st1.mode = if true = true then Mode.park else Mode.standby) ∧
    (issues 26 Cls.sys false [] st2 ∧ inShutdown st2 = false ∧ st2.mode = Mode.standby) ∧
    (issues 26 Cls.sys false [] st3 ∧ inShutdown st3 = false ∧ st3.mode = Mode.exiting true ∧ st3.power.leaveStage ≠ 2) ∧
    (st0.freeze.since = none ∧ inShutdown st0 = false) ∧
    (st3.freeze.since = none ∧ inShutdown st3 = false ∧ st3.mode = Mode.exiting true ∧ st3.power.leaveStage = 0) := by unfold issues; decide +kernel

theorem test_hyp_StandbyAndPark_2 :
    st5.freeze.since = none ∧ inShutdown st5 = false ∧ st5.mode = Mode.entering true ∧
    (∀ p : Fin 26, busyTags st5.units[clusterUnit p] = []) ∧ pacing 0 st5 = false ∧ pacing 1 st5 = false := by
  have hu : st5.units = Vector.replicate 30 ExUnit.reset := rfl
  have hb : busyTags ExUnit.reset = [] := by decide +kernel
  refine ⟨rfl, by decide +kernel, rfl, fun p => ?_, by decide +kernel, by decide +kernel⟩
  rw [hu]
  simpa using hb

end T14

namespace T15

def m (k : Mode) (s : State) : State := { s with mode := k }
def full1 : State := { strOn 2 runs2 with mem := mem1 ++ [(2^40+7, 9)], nvs := (nvs2 2).nvs, tick := 12345678 }
def unp : State := nextOf (exec .powerLost full1)
def st1 : State := m .inrushWait unp
def st3 : State := m .railWait unp
def st5 : State := setF F.pwrStateVinZone 1 r

theorem test_hyp_PowerUpAndZones :
    full1.mode ≠ Mode.unpowered ∧
      full1.freeze.since = none ∧
      (full1.mode ≠ Mode.brownout BoCause.under ∧
        getF F.pwrStateVinZone full1 ≠ 1 ∧
        getF F.pwrStateVinZone full1 ≠ 3 ∧
        getF F.pwrStateVinZone full1 ≠ 4) := by decide +kernel

theorem test_hyp_PowerUpAndZones_2 :
    unp.mode = Mode.unpowered ∧
    ((st1.mode = Mode.inrushWait ∨ st1.mode = Mode.brownout BoCause.inputTrip ∧ getF F.pwrStateVinZone st1 ≠ 0)) ∧
    st3.mode = Mode.railWait := by decide +kernel

theorem test_hyp_PowerUpAndZones_3 :
    (m (Mode.powerUp PwrRow.inrush) unp).mode = Mode.powerUp PwrRow.inrush ∧
    (m (Mode.powerUp PwrRow.refclk) unp).mode = Mode.powerUp PwrRow.refclk := by decide +kernel

theorem test_hyp_PowerUpAndZones_4 :
    st5.mode ≠ Mode.unpowered ∧ st5.mode ≠ Mode.brownout BoCause.under ∧ getF F.pwrStateVinZone st5 ≠ 2 := by decide +kernel

end T15

namespace T16

def m (k : Mode) (s : State) : State := { s with mode := k }
def full1 : State := setF F.pwrStateInrushDone 1 { strOn 2 runs2 with mem := mem1 ++ [(2^40+7, 9)], nvs := (nvs2 2).nvs, tick := 123456789000 }
def pw (l : List Nat) (w : Bool) (s : State) : State := { s with power := { attempts := l, attemptStart := s.tick - 100, waiting := w, monitor := true, leaveAt := 0, leaveStage := 0 } }
def up1' (l : List Nat) (k : PwrRow) : State := m (.powerUp k) (pw l false (setF F.pwrStateVinZone 4 full1))
def st0 : State := up1' [] .vcore
def st5 : State := m (.brownout .overTrip) full1
def st7 : State := m (.clockHeld (some .vddq)) full1
def st8 : State := m (.clockHeld none) full1
def st10 : State := m .resetPin full1

theorem test_hyp_BrownoutsClocksAndPins :
    (full1.mode ≠ Mode.unpowered ∧
      (full1.mode ≠ Mode.brownout BoCause.under ∧ full1.mode ≠ Mode.brownout BoCause.inputTrip ∧ 8 < 2 ^ 40) ∧
      full1.mode ≠ Mode.brownout BoCause.overTrip) ∧
    (powered full1 = true ∧
      (flag F.pwrStateInrushDone full1 = true ∧ 8 < 2 ^ 40) ∧
      (full1.mode ≠ Mode.railWait ∧ full1.mode ≠ Mode.inrushWait ∧ (Rail.vcoreUv = Rail.fda1 → full1.opt = Opt.zt8) ∧
        8 < 2 ^ 40 ∧
        (full1.power.waiting = false ∧ full1.power.attempts.length < 2))) ∧
    (full1.power.monitor = true ∧ released full1 = true ∧ 8 < 2 ^ 40) ∧
    (600 ≤ 600 ∧ released full1 = true ∧ 8 < 2 ^ 40) ∧
    399 < 400 ∧
    full1.mode ≠ Mode.resetPin ∧
    (live full1 = true ∧ 8 < 2 ^ 40) := by decide +kernel

theorem test_hyp_BrownoutsClocksAndPins_2 :
    (st0.mode ≠ Mode.unpowered ∧ st0.mode ≠ Mode.brownout BoCause.overTrip ∧ getF F.pwrStateVinZone st0 = 4 ∧ 8 < 2 ^ 40) ∧
    (st0.power.monitor = true ∧ st0.mode = Mode.powerUp PwrRow.vcore) := by decide +kernel

theorem test_hyp_BrownoutsClocksAndPins_3 :
    st5.mode = Mode.brownout BoCause.overTrip ∧
    st7.mode = Mode.clockHeld (some PwrRow.vddq) ∧
    st8.mode = Mode.clockHeld none ∧
    st10.mode = Mode.resetPin := by decide +kernel

end T16

namespace T16b





end T16b

namespace T17

def allow (s : State) : State := s.setWord F.lnkCfg0 (w32 (3*2^25 + 2^30 + 2^31))
def ck (f : TimePart → TimePart) (s : State) : State := { s with clock := f s.clock }
def st0 : State := allow r
def st1 : State := allow runs2
def st2 : State := ck (fun c => { c with src := some .eth0, remaining := 55, slewing := true }) r
def st3 : State := ck (fun c => { c with remaining := 2000000, deferred := true, slewing := true}) r
def st4 : State := ck (fun c => { c with slewing := true, remaining := 0 }) r

theorem test_hyp_SynchronisingAndTime :
    (live st0 = true ∧ srcAllowed TimeSrc.eth0 st0 = true ∧ (st0.clock.src = none ∨ st0.clock.src = some TimeSrc.eth0) ∧
      (Int.natAbs 0 ≤ 1000000 ∨ mayStep st0 = false) ∧
      (1000000 < Int.natAbs 1000001 ∧ mayStep st0 = true)) ∧
    (live st1 = true ∧ srcAllowed TimeSrc.eth0 st1 = true ∧ (st1.clock.src = none ∨ st1.clock.src = some TimeSrc.eth0) ∧ (Int.natAbs 1000001 ≤ 1000000 ∨ mayStep st1 = false) ∧ 1000000 < Int.natAbs 1000001) ∧
    (live st2 = true ∧
      st2.clock.slewing = true ∧
      st2.clock.src = some TimeSrc.eth0) ∧
    (live st3 = true ∧ st3.clock.deferred = true ∧ mayStep st3 = true) ∧
    (live st4 = true ∧ st4.clock.slewing = true ∧ st4.clock.remaining = 0) := by decide +kernel

end T17

namespace T18

def bt (st : Nat) (ix mo : Bool) (i : Image) (s : State) : State := setF F.rstBootSlot 0 <| setF F.rstBootStage st (setF F.rstBootIndexReady (b2n ix) (setF F.rstBootModelReady (b2n mo) { s with mode := .boot, boot := { s.boot with slotA := some i, slotB := some img } }))
def b1 : State := act (bt 2 false false img r)
def b5 : State := { act (bt 4 true true img r) with boot := { (act (bt 4 true true img r)).boot with running := some img } }
def cpk (p k : Nat) : Copy := { cp k 0 0 true [9] with part := p }
def b6 (n : Nat) : State := setF F.lcsInfoWipePending 1 (setF F.lcsStateState n (setF F.lcsStateStateN (255-n) { b1 with sec := { b1.sec with otp := (BitVec.ofNat 8 n, BitVec.ofNat 8 (255-n)) }, nvs := { b1.nvs with copies := [cpk 0 5, cpk 0 0x511, cpk 0 0x512, cpk 0 0x517, cpk 0 0x518, cpk 1 1, cpk 2 1, cpk 3 1] } }))
def b7 : State := setF F.stcDdrSizeSize 6 { r with ddr := Vector.replicate 4 { DdrChan.reset with trained := true }, mem := mem1 ++ [(2^40+7, 9)], memBad := [4, 2^40+4] }
def st0 : State := act (bt 2 true false img r)
def st1 : State := act (bt 2 false false imgForged r)
def st7 : State := b6 2
def st8 : State := b6 4

theorem test_hyp_BootSteps :
    (booting b1 = true ∧
      (bootImage b1 = some img ∧ getF F.rstBootStage b1 = 2 ∧ imageHolds img (checkSlots b1) = true ∧ (loaderCheck true img (clustersOf img) [] (checkSlots b1)).1 = 0) ∧
      (flag F.rstBootIndexReady b1 = false ∧ flag F.lcsInfoWipePending b1 = false)) ∧
    (clocked b1 = true ∧ (∃ c : Fin 4, b1.ddr[c].trained = false) ∧ ddrSize (0 : Fin 4) (nextOf (exec (Instr.ddrTrainingComplete 134 [8240, 3872]) b1)) ≠ 0) ∧
    (booting st0 = true ∧ flag F.rstBootIndexReady st0 = true ∧ flag F.rstBootModelReady st0 = false) ∧
    (booting st1 = true ∧ bootImage st1 = some imgForged ∧ getF F.rstBootStage st1 = 2 ∧ (imageHolds imgForged (checkSlots st1) = false ∨ (loaderCheck true imgForged (clustersOf imgForged) [] (checkSlots st1)).1 ≠ 0)) := by decide +kernel

theorem test_hyp_BootSteps_2 :
    booting b5 = true ∧ b5.boot.running.isSome = true ∧ flag F.rstBootIndexReady b5 = true ∧ flag F.rstBootModelReady b5 = true ∧ getF F.rstBootStage b5 ≠ 14 ∧ getF F.rstBootStage b5 ≠ 15 := by decide +kernel

theorem test_hyp_BootSteps_3 :
    (booting st7 = true ∧ flag F.lcsInfoWipePending st7 = true ∧ otpBad st7 = false ∧
      cpk 0 1297 ∈ (nextOf (exec Instr.lifecycleWipeComplete st7)).nvs.copies ∧
      (cpk 0 1297 ∈ st7.nvs.copies ∧ (cpk 0 1297).part = 0 ∧ (cpk 0 1297).sector ∈ bankSectors 0 0 ++ bankSectors 0 1 ∧ (¬(1298 ≤ (cpk 0 1297).key ∧ (cpk 0 1297).key ≤ 1303)))) ∧
    (booting st8 = true ∧ flag F.lcsInfoWipePending st8 = true ∧ otpBad st8 = false ∧ (getF F.lcsStateState st8 = 4 ∨ getF F.lcsStateState st8 = 8)) := by decide +kernel

theorem test_hyp_BootSteps_4 :
    clocked b7 = true ∧ (∀ (c : Fin 4), b7.ddr[c].trained = true) ∧ (∃ c : Fin 4, b7.ddr[c].wiped = false) ∧ 4 ∈ (nextOf (exec Instr.ddrWipeComplete b7)).memBad := by decide +kernel

end T18

namespace T19

def full1 (s : State) : State := { strOn 2 (setF (F.fpdStateBiasOn 0) 1 (vgdup (ethup runs2))) with units := s.units, mem := mem1 } |> setF (F.isaUStateState 26) 2
def fz (s : State) : State := { nextOf (exec .zfreeze s) with tick := 5000 }
def z : State := fz (full1 h)
def st0 : State := { full1 h with status := (setF F.lcsStateStateN 0 (full1 h)).status, statusBad := [ F.isaFaultLoadRefused.addr, ringBase + 16], memBad := [4] }
def st1 : State := full1 h
def st3 : State := { full1 h with mode := .boot}
def st4 : State := { z with pins := { z.pins with freezeN := false } }

theorem test_hyp_FreezeAndResume :
    (live st0 = true ∧ otpBad st0 = false ∧ getF F.lcsStateState st0 + getF F.lcsStateStateN st0 ≠ 255 ∧ F.lcsState ∉ st0.statusBad) ∧
    0 < 130 := by decide +kernel

theorem test_hyp_FreezeAndResume_2 :
    (live st1 = true ∧
      170 ≤ 170 ∧
      issues 26 Cls.sys false [] st1) ∧
    (170 ≤ 170 ∧ live st3 = false ∧ st3.mode ≠ Mode.unpowered ∧ st3.freeze.since = none) := by unfold issues; decide +kernel

theorem test_hyp_FreezeAndResume_3 :
    (z.mode ≠ Mode.unpowered ∧ z.freeze.since = some (0, z.time) ∧ z.pins.freezeN = true ∧ z.freeze.shuts = []) ∧
    (st4.mode ≠ Mode.unpowered ∧ st4.freeze.since = some (0, z.time) ∧ st4.pins.freezeN = false) := by decide +kernel

end T19

namespace T20

def z (s : State) : State := { nextOf (exec .zfreeze s) with tick := 5000 }
def jt (u a : Nat) (s : State) : State := { s with jtag := { s.jtag with unit := u, addr := a, drive := some .extest } }
def st0 : State := jt 26 0 r
def st1 : State := jt 0 (26*2^34 + 8) (z ld)
def st3 : State := jt 5 (0x20*2^34 + 8) h

theorem test_hyp_JtagPort :
    (st0.mode ≠ Mode.unpowered ∧
      st0.opt = Opt.zt8 ∧
      (st0.freeze.since = none ∧ st0.pins.resetN = true) ∧
      st0.jtag.addr / 2 ^ 34 = 0 ∧
      100 ≤ 100 ∧
      49 < 50) ∧
    (st1.mode ≠ Mode.unpowered ∧
      (st1.freeze.since.isSome = true ∨ st1.pins.resetN = false) ∧
      (st1.freeze.since.isSome = true ∧ st1.jtag.unit = 0 ∧ unitPresent st1.opt 0 = true) ∧
      live st1 = false ∧
      (st1.jtag.addr / 2 ^ 34 = 26 ∧ st1.freeze.since.isSome = true ∧ unitPresent st1.opt 26 = true ∧ st1.jtag.addr % 2 ^ 34 / 4 * 4 < storeSize 26)) ∧
    (st3.mode ≠ Mode.unpowered ∧ st3.jtag.addr / 2 ^ 34 = 32 ∧ (live st3 = true ∨ st3.freeze.since.isSome = true) ∧ st3.jtag.addr % 2 ^ 34 / 4 * 4 < 2 ^ 24 ∧ st3.statusBad.contains (st3.jtag.addr % 2 ^ 34 / 4 * 4) = false ∧ hiOf (st3.jtag.addr % 2 ^ 34 / 4 * 4) = none ∧ (List.find? (fun l => decide (l.1 = jtagReader) && decide (l.2.1 = st3.jtag.addr % 2 ^ 34 / 4 * 4)) st3.latches = none)) := by decide +kernel

end T20

namespace T21a

def n0 (s : State) : State := setF F.lnkNetNumValid 1 (setF F.lnkNetDevnum 9 (ethup s))
def q := n0 r
def rp (s : State) : State := { s with net := { s.net with replies := [⟨0x0A000001, 5000, 77, hd 1 0 9 0, [1]⟩] } }
def le := leBytes
def chgF (h : Hdr) : Hdr := { h with magic := 0 }
def st0 : State := rp q
def st2 : KeptReply := ⟨0x0A000001, 5000, 77, hd 1 0 9 0, [1]⟩
def st3 : State := setF F.isaFaultLoadRefused 1 q
def st5 : State := { q with mode := .park}
def st6 : State := {q with mode := .standby}
def st7 : State := (setF F.thmStateShutdown 1 q).setWord F.lnkCfg2 5
def st8 : State := setF F.thmStateResumeReady 1 ((setF F.thmStateShutdown 1 q).setWord F.lnkCfg2 5)

theorem test_hyp_Requests :
    (hears (chgF (hd 1 0 9 6)) (le 4 F.lnkNetDevnum.addr ++ le 2 3) q = true ∧ dgramOk (chgF (hd 1 0 9 6)) = false) ∧
    (hears (hd 1 0 9 6) (le 4 F.lnkNetDevnum.addr ++ le 2 3) q = true ∧ dgramOk (hd 1 0 9 6) = true ∧ addressed (hd 1 0 9 6) q = true ∧ answered (hd 1 0 9 6) = true) ∧
    (asks 1 [0, 2] [0, 1, 2, 3, 4, 5] (hd 1 0 9 6) (le 4 F.lnkNetDevnum.addr ++ le 2 3) q ∧ (le 4 F.lnkNetDevnum.addr ++ le 2 3).length = 6 ∧ 1 ≤ fieldAt (le 4 F.lnkNetDevnum.addr ++ le 2 3) 4 2 ∧ fieldAt (le 4 F.lnkNetDevnum.addr ++ le 2 3) 4 2 ≤ 256 ∧ (q.statusBad = [] ∧ q.latches = []) ∧ (∀ i < fieldAt (le 4 F.lnkNetDevnum.addr ++ le 2 3) 4 2, hiOf ((fieldAt (le 4 F.lnkNetDevnum.addr ++ le 2 3) 0 4 + 4 * i) % 2 ^ 32 / 4 * 4) = none)) := by unfold asks; decide +kernel

theorem test_hyp_Requests_2 :
    hears (hd 1 0 9 6) (le 4 F.lnkNetDevnum.addr ++ le 2 3) st0 = true ∧ dgramOk (hd 1 0 9 6) = true ∧ addressed (hd 1 0 9 6) st0 = true ∧ answered (hd 1 0 9 6) = true ∧ keptReply (hd 1 0 9 6) st0 = some st2 ∧ (1, Instr.cmdRead (hd 1 0 9 6) (le 4 F.lnkNetDevnum.addr ++ le 2 3)) ∈ [(1, Instr.cmdRead (hd 1 0 9 6) (le 4 F.lnkNetDevnum.addr ++ le 2 3)), (2, Instr.cmdEvtClr (hd 1 0 9 6) (le 4 F.lnkNetDevnum.addr ++ le 2 3)), (3, Instr.cmdEvents (hd 1 0 9 6) (le 4 F.lnkNetDevnum.addr ++ le 2 3)), (16, Instr.cmdWake (hd 1 0 9 6) (le 4 F.lnkNetDevnum.addr ++ le 2 3)), (17, Instr.cmdResume (hd 1 0 9 6) (le 4 F.lnkNetDevnum.addr ++ le 2 3)), (32, Instr.cmdImage (hd 1 0 9 6) (le 4 F.lnkNetDevnum.addr ++ le 2 3) img), (33, Instr.cmdLoad (hd 1 0 9 6) (le 4 F.lnkNetDevnum.addr ++ le 2 3) img), (48, Instr.cmdAttest (hd 1 0 9 6) (le 4 F.lnkNetDevnum.addr ++ le 2 3)), (49, Instr.cmdAuth (hd 1 0 9 6) (le 4 F.lnkNetDevnum.addr ++ le 2 3)), (64, Instr.cmdNvs (hd 1 0 9 6) (le 4 F.lnkNetDevnum.addr ++ le 2 3)), (96, Instr.cmdSetNet (hd 1 0 9 6) (le 4 F.lnkNetDevnum.addr ++ le 2 3))] ∧ BitVec.toNat (hd 1 0 9 6).opcode = (1, Instr.cmdRead (hd 1 0 9 6) (le 4 F.lnkNetDevnum.addr ++ le 2 3)).1 := by decide +kernel

theorem test_hyp_Requests_3 :
    asks 2 [0, 1, 2] [2, 3, 4, 5] (hd 2 0 9 8) (le 4 4294967295 ++ le 4 F.isaFaultLoadRefused.addr) st3 ∧ (le 4 4294967295 ++ le 4 F.isaFaultLoadRefused.addr).length = 8 := by unfold asks; decide +kernel

theorem test_hyp_Requests_4 :
    asks 3 [0, 2] [0, 1, 2, 3, 4, 5] (hd 3 0 9 2) (le 2 1) q ∧ (le 2 1).length = 2 ∧ 1 ≤ fieldAt (le 2 1) 0 2 ∧ fieldAt (le 2 1) 0 2 ≤ 64 ∧ (q.statusBad = [] ∧ q.latches = []) := by unfold asks; decide +kernel

theorem test_hyp_Requests_5 :
    (asks 16 [0, 1, 2] [3, 4] (hd 16 0 9 0) [] st5 ∧ inShutdown st5 = false ∧ st5.mode = Mode.park) ∧
    (asks 16 [0, 1, 2] [3, 4] (hd 16 0 9 0) [] st6 ∧ inShutdown st6 = false ∧ st6.mode = Mode.standby) ∧
    (asks 17 [0, 1, 2] [5] (hd 17 1 5 0) [] st7 ∧ live st7 = true ∧ flag F.thmStateResumeReady st7 = false) ∧
    (asks 17 [0, 1, 2] [5] (hd 17 1 5 0) [] st8 ∧ live st8 = true ∧ flag F.thmStateResumeReady st8 = true ∧ st8.mode = Mode.running) := by unfold asks; decide +kernel

end T21a

namespace T21b

def n0 (s : State) : State := setF F.lnkNetNumValid 1 (setF F.lnkNetDevnum 9 (ethup s))
def q := n0 r
def le := leBytes
def nv : State := unl 0xF4 { n0 nvs1 with nvs := { nvs1.nvs with copies := nvs1.nvs.copies } }
def ad (p op k : Nat) : Nat := p * 2^30 + op * 2^27 + k

theorem test_hyp_Requests :
    (asks 64 [0, 2] [2, 3, 4, 5] (hd 64 0 9 4) (le 4 (ad 2 0 4101)) nv ∧ nvsAddrOk (fieldAt (le 4 (ad 2 0 4101)) 0 4) = true ∧ nvsOpOf (fieldAt (le 4 (ad 2 0 4101)) 0 4) = 0 ∧ (le 4 (ad 2 0 4101)).length = 4 ∧ (unlockBits (nvsPartOf (fieldAt (le 4 (ad 2 0 4101)) 0 4)) nv).2.testBit (nvsPartOf (fieldAt (le 4 (ad 2 0 4101)) 0 4)) = true ∧ (¬(nvsPartOf (fieldAt (le 4 (ad 2 0 4101)) 0 4) = 0 ∧ 1296 ≤ nvsKeyOf (fieldAt (le 4 (ad 2 0 4101)) 0 4) ∧ nvsKeyOf (fieldAt (le 4 (ad 2 0 4101)) 0 4) ≤ 1303)) ∧ resolve (nvsPartOf (fieldAt (le 4 (ad 2 0 4101)) 0 4)) (nvsKeyOf (fieldAt (le 4 (ad 2 0 4101)) 0 4)) nv.nvs = Resolved.found (cp 4101 3 321 true [9, 9, 9, 9]) ∧ 16 + (copyBytes (cp 4101 3 321 true [9, 9, 9, 9])).length ≤ 1448 ∧ (copyBytes (cp 4101 3 321 true [9, 9, 9, 9])).length < 2 ^ 16) ∧
    (asks 64 [0, 2] [2, 3, 4, 5] (hd 64 0 9 8) (le 4 (ad 2 0 4101) ++ [1, 2, 3, 4]) nv ∧ nvsAddrOk (fieldAt (le 4 (ad 2 0 4101) ++ [1, 2, 3, 4]) 0 4) = true ∧ nvsOpOf (fieldAt (le 4 (ad 2 0 4101) ++ [1, 2, 3, 4]) 0 4) = 0 ∧ 8 ≤ (le 4 (ad 2 0 4101) ++ [1, 2, 3, 4]).length ∧ (le 4 (ad 2 0 4101) ++ [1, 2, 3, 4]).length % 4 = 0 ∧ (unlockBits (nvsPartOf (fieldAt (le 4 (ad 2 0 4101) ++ [1, 2, 3, 4]) 0 4)) nv).2.testBit (4 + nvsPartOf (fieldAt (le 4 (ad 2 0 4101) ++ [1, 2, 3, 4]) 0 4)) = true ∧ deviceKey (nvsPartOf (fieldAt (le 4 (ad 2 0 4101) ++ [1, 2, 3, 4]) 0 4)) (nvsKeyOf (fieldAt (le 4 (ad 2 0 4101) ++ [1, 2, 3, 4]) 0 4)) = false ∧ nv.nvs.queue.length < 16) := by unfold asks; decide +kernel

theorem test_hyp_Requests_2 :
    (asks 96 [2] [0, 1, 2, 3, 4, 5] (hd 96 2 0 28) (le 4 262142 ++ le 4 167772162 ++ le 4 4278190080 ++ le 4 3 ++ le 4 0 ++ le 4 5 ++ le 4 1) q ∧ (le 4 262142 ++ le 4 167772162 ++ le 4 4278190080 ++ le 4 3 ++ le 4 0 ++ le 4 5 ++ le 4 1).length = 28 ∧ fieldAt (le 4 262142 ++ le 4 167772162 ++ le 4 4278190080 ++ le 4 3 ++ le 4 0 ++ le 4 5 ++ le 4 1) 12 4 ≤ 3 ∧ fieldAt (le 4 262142 ++ le 4 167772162 ++ le 4 4278190080 ++ le 4 3 ++ le 4 0 ++ le 4 5 ++ le 4 1) 24 4 ≤ 3 ∧ fieldAt (le 4 262142 ++ le 4 167772162 ++ le 4 4278190080 ++ le 4 3 ++ le 4 0 ++ le 4 5 ++ le 4 1) 0 4 ≤ 262142 ∧
      BitVec.ofNat 32 (fieldAt (le 4 262142 ++ le 4 167772162 ++ le 4 4278190080 ++ le 4 3 ++ le 4 0 ++ le 4 5 ++ le 4 1) (4 + 12 * 0) 4) ≠ 0 ∧
      BitVec.ofNat 32 (fieldAt (le 4 262142 ++ le 4 167772162 ++ le 4 4278190080 ++ le 4 3 ++ le 4 0 ++ le 4 5 ++ le 4 1) (4 + 12 * 1) 4) = 0) ∧
    (asks 96 [2] [0, 1, 2, 3, 4, 5] (hd 96 2 0 28) (le 4 262143 ++ le 4 167772162 ++ le 4 4278190080 ++ le 4 3 ++ le 4 0 ++ le 4 5 ++ le 4 1) q ∧ (le 4 262143 ++ le 4 167772162 ++ le 4 4278190080 ++ le 4 3 ++ le 4 0 ++ le 4 5 ++ le 4 1).length = 28 ∧ fieldAt (le 4 262143 ++ le 4 167772162 ++ le 4 4278190080 ++ le 4 3 ++ le 4 0 ++ le 4 5 ++ le 4 1) 12 4 ≤ 3 ∧ fieldAt (le 4 262143 ++ le 4 167772162 ++ le 4 4278190080 ++ le 4 3 ++ le 4 0 ++ le 4 5 ++ le 4 1) 24 4 ≤ 3 ∧ 262142 < fieldAt (le 4 262143 ++ le 4 167772162 ++ le 4 4278190080 ++ le 4 3 ++ le 4 0 ++ le 4 5 ++ le 4 1) 0 4) := by unfold asks; decide +kernel

end T21b

namespace T22

def n0 (s : State) : State := setF F.lnkNetNumValid 1 (setF F.lnkNetDevnum 9 (ethup s))
def q := act (n0 r)
def le := leBytes
def chs : State := { q with boot := { q.boot with chunkOp := 0x21, chunks := (List.range 100).map (BitVec.ofNat 8) } }
def stg (s : State) : State := setF F.rstBootStage 0xE { s with mode := .boot }
def vf (b : Bool) (i : Image) (s : State) : State := { s with sec := { s.sec with verify := some (b, hd 0x20 0 9 10, i) } }
def st1 : State := vf false img (stg q)
def st2 : State := vf false imgBad (stg q)
def st3 : State := vf false imgForged (stg q)
def st4 : State := vf true img q

theorem test_hyp_SecurityEngine :
    (asks (if true = true then 33 else 32) [0, 2] (if true = true then [2, 3] else [0]) (hd 33 0 9 10) (le 4 0 ++ le 4 0 ++ [1, 2]) chs ∧ 8 ≤ (le 4 0 ++ le 4 0 ++ [1, 2]).length ∧ (fieldAt (le 4 0 ++ le 4 0 ++ [1, 2]) 0 4 = (if (chs.boot.chunkOp = if true = true then 33 else 32) ∧ fieldAt (le 4 0 ++ le 4 0 ++ [1, 2]) 0 4 ≠ 0 then chs.boot.chunks else []).length) ∧ fieldAt (le 4 0 ++ le 4 0 ++ [1, 2]) 4 4 = 0) ∧
    (asks (if true = true then 33 else 32) [0, 2] (if true = true then [2, 3] else [0]) (hd 33 0 9 10) (le 4 0 ++ le 4 1 ++ [1, 2]) chs ∧ 8 ≤ (le 4 0 ++ le 4 1 ++ [1, 2]).length ∧ (fieldAt (le 4 0 ++ le 4 1 ++ [1, 2]) 0 4 = (if (chs.boot.chunkOp = if true = true then 33 else 32) ∧ fieldAt (le 4 0 ++ le 4 1 ++ [1, 2]) 0 4 ≠ 0 then chs.boot.chunks else []).length) ∧ fieldAt (le 4 0 ++ le 4 1 ++ [1, 2]) 4 4 = 1) ∧
    (asks (if true = true then 33 else 32) [0, 2] (if true = true then [2, 3] else [0]) (hd 33 0 9 10) (le 4 100 ++ le 4 1 ++ [1, 2]) chs ∧ 8 ≤ (le 4 100 ++ le 4 1 ++ [1, 2]).length ∧ fieldAt (le 4 100 ++ le 4 1 ++ [1, 2]) 0 4 ≠ 0) ∧
    (asks (if true = true then 33 else 32) [0, 2] (if true = true then [2, 3] else [0]) (hd 33 0 9 10) (le 4 50 ++ le 4 0 ++ [1, 2]) chs ∧ 8 ≤ (le 4 50 ++ le 4 0 ++ [1, 2]).length ∧ fieldAt (le 4 50 ++ le 4 0 ++ [1, 2]) 0 4 ≠ 0 ∧ (fieldAt (le 4 50 ++ le 4 0 ++ [1, 2]) 0 4 ≠ (if (chs.boot.chunkOp = if true = true then 33 else 32) ∧ fieldAt (le 4 50 ++ le 4 0 ++ [1, 2]) 0 4 ≠ 0 then chs.boot.chunks else []).length) ∧ fieldAt (le 4 50 ++ le 4 0 ++ [1, 2]) 4 4 ≤ 1) ∧
    clocked chs = true := by unfold asks; decide +kernel

theorem test_hyp_SecurityEngine_2 :
    (clocked st1 = true ∧ st1.sec.verify = some (false, hd 32 0 9 10, img) ∧ false = false ∧ imageHolds img (checkSlots { st1 with sec := { st1.sec with verify := none } }) = true ∧ (loaderCheck true img (clustersOf img) [] (checkSlots { st1 with sec := { st1.sec with verify := none } })).1 = 0) ∧
    (clocked st2 = true ∧ st2.sec.verify = some (false, hd 32 0 9 10, imgBad) ∧ false = false ∧ imageHolds imgBad (checkSlots { st2 with sec := { st2.sec with verify := none } }) = true ∧ (loaderCheck true imgBad (clustersOf imgBad) [] (checkSlots { st2 with sec := { st2.sec with verify := none } })).1 ≠ 0) ∧
    (clocked st3 = true ∧ st3.sec.verify = some (false, hd 32 0 9 10, imgForged) ∧ imageHolds imgForged (checkSlots { st3 with sec := { st3.sec with verify := none } }) = false) ∧
    (clocked st4 = true ∧ st4.sec.verify = some (true, hd 32 0 9 10, img) ∧ imageHolds img (checkSlots { st4 with sec := { st4.sec with verify := none } }) = true ∧ (placeAgain none img (affected img (checkSlots { st4 with sec := { st4.sec with verify := none } })) (checkSlots { st4 with sec := { st4.sec with verify := none } })).2 = 0) := by decide +kernel

end T22

namespace T22b

def n0 (s : State) : State := setF F.lnkNetNumValid 1 (setF F.lnkNetDevnum 9 (ethup s))
def q := act (n0 r)
def le := leBytes
def blkA (ty sg tg : Nat) (cnt : Nat) : List Byte := le 4 0x48545541 ++ [BitVec.ofNat 8 ty, BitVec.ofNat 8 sg, BitVec.ofNat 8 tg, BitVec.ofNat 8 (255 - tg)] ++ le 8 0 ++ le 2 cnt ++ le 2 0 ++ List.replicate (if sg = 15 then 480 else 192) 7
def blkS (ty tg : Nat) (key sig : List Byte) : List Byte := le 4 0x48545541 ++ [BitVec.ofNat 8 ty, 0, BitVec.ofNat 8 tg, BitVec.ofNat 8 (255 - tg)] ++ le 8 0 ++ le 2 0 ++ le 2 0 ++ key ++ sig
def zk : List Byte := List.replicate 96 0
def bAdd := blkS 2 1 own1 sigAdd
def bRev := blkS 3 1 zk sigRev
def bLcs := blkS 1 8 zk sigLcs
def hm (n : Nat) (l : List Byte) : State := modU 26 (fun e => { e with s := e.s.set 6 (w32 n) }) { act h with mem := (writeWords (storeBase 26 + 1024) (toWords l) []) }
def au (l : List Byte) (rp : Bool) (s : State) : State := { s with sec := { s.sec with auths := [⟨l, if rp then some (hd 0x31 0 9 212) else none⟩] } }
def two (s : State) : State := setF F.secKeysSlots 5 (setF F.secKeysSlotsN 250 s)
def at2 (s : State) : State := { s with sec := { s.sec with attest := some (hd 0x30 0 9 32, List.replicate 32 3) } }
def st0 : State := hm 1024 (blkA 1 0 8 0)
def st1 : State := hm 1026 (blkA 1 0 8 0)
def st5 : State := au bAdd true q
def st6 : State := au bRev true (two q)
def st7 : State := au bLcs false q
def st8 : State := au (blkA 2 0 1 0) true q
def st14 : AuthReq := ⟨bAdd, some (hd 0x31 0 9 212)⟩
def st15 : AuthReq := ⟨bRev, some (hd 0x31 0 9 212)⟩
def st16 : AuthReq := ⟨bLcs, none⟩
def st17 : AuthReq := ⟨blkA 2 0 1 0, some (hd 0x31 0 9 212)⟩
def st23 : State := at2 q

theorem test_hyp_SecurityEngine :
    (issues 26 Cls.sys (srcImm (Src.reg 6)) (srcRegs (Src.reg 6)) st0 ∧ BitVec.toNat (srcVal 26 (Src.reg 6) st0) % 4 = 0 ∧ BitVec.toNat (srcVal 26 (Src.reg 6) st0) + 212 ≤ storeSize 26 ∧ BitVec.toNat (srcVal 26 (Src.reg 6) st0) + authLen (BitVec.toNat (readB st0.mem (storeBase 26 + BitVec.toNat (srcVal 26 (Src.reg 6) st0) + 5))) ≤ storeSize 26) ∧
    (issues 26 Cls.sys (srcImm (Src.reg 6)) (srcRegs (Src.reg 6)) st1 ∧ (BitVec.toNat (srcVal 26 (Src.reg 6) st1) % 4 ≠ 0 ∨ storeSize 26 < BitVec.toNat (srcVal 26 (Src.reg 6) st1) + 212 ∨ storeSize 26 < BitVec.toNat (srcVal 26 (Src.reg 6) st1) + authLen (BitVec.toNat (readB st1.mem (storeBase 26 + BitVec.toNat (srcVal 26 (Src.reg 6) st1) + 5))))) := by unfold issues; decide +kernel

theorem test_hyp_SecurityEngine_2 :
    (asks 49 [0, 2] [2, 3, 4] (hd 49 0 9 212) (blkA 2 0 1 0) q ∧ (blkA 2 0 1 0).length = authLen (authSigner (blkA 2 0 1 0)) ∧ authType (blkA 2 0 1 0) ≠ 1) ∧
    (asks 49 [0, 2] [2, 3, 4] (hd 49 0 9 212) (blkA 1 0 1 0) q ∧ (blkA 1 0 1 0).length = authLen (authSigner (blkA 1 0 1 0)) ∧ authType (blkA 1 0 1 0) = 1) := by unfold asks; decide +kernel

theorem test_hyp_SecurityEngine_3 :
    (clocked st5 = true ∧ st5.sec.auths = [st14] ∧ authOk st14 (if authCompl st14.data = true then checkSlots (setF F.secStateAuthBusy (b2n ! ([] : List AuthReq).isEmpty) { st5 with sec := { st5.sec with auths := [] } }) else complementFail 7 (checkSlots (setF F.secStateAuthBusy (b2n ! ([] : List AuthReq).isEmpty) { st5 with sec := { st5.sec with auths := [] } }))) = true ∧ authType st14.data = 2 ∧
      st14.reply = some (hd 49 0 9 212) ∧
      (0 < 4 ∧ 0 ≠ authTarget st14.data)) ∧
    (clocked st6 = true ∧ st6.sec.auths = [st15] ∧ authOk st15 (if authCompl st15.data = true then checkSlots (setF F.secStateAuthBusy (b2n ! ([] : List AuthReq).isEmpty) { st6 with sec := { st6.sec with auths := [] } }) else complementFail 7 (checkSlots (setF F.secStateAuthBusy (b2n ! ([] : List AuthReq).isEmpty) { st6 with sec := { st6.sec with auths := [] } }))) = true ∧ authType st15.data = 3 ∧
      st15.reply = some (hd 49 0 9 212) ∧
      (0 < 4 ∧ 0 ≠ authTarget st15.data)) ∧
    (clocked st7 = true ∧ st7.sec.auths = [st16] ∧ authOk st16 (if authCompl st16.data = true then checkSlots (setF F.secStateAuthBusy (b2n ! ([] : List AuthReq).isEmpty) { st7 with sec := { st7.sec with auths := [] } }) else complementFail 7 (checkSlots (setF F.secStateAuthBusy (b2n ! ([] : List AuthReq).isEmpty) { st7 with sec := { st7.sec with auths := [] } }))) = true ∧ authType st16.data = 1) := by decide +kernel

theorem test_hyp_SecurityEngine_4 :
    clocked st8 = true ∧ st8.sec.auths = [st17] ∧ authOk st17 (if authCompl st17.data = true then checkSlots (setF F.secStateAuthBusy (b2n ! ([] : List AuthReq).isEmpty) { st8 with sec := { st8.sec with auths := [] } }) else complementFail 7 (checkSlots (setF F.secStateAuthBusy (b2n ! ([] : List AuthReq).isEmpty) { st8 with sec := { st8.sec with auths := [] } }))) = false ∧ st17.reply = some (hd 49 0 9 212) := by decide +kernel

theorem test_hyp_SecurityEngine_5 :
    clocked st23 = true ∧ st23.sec.attest = some (hd 48 0 9 32, List.replicate 32 3) := by decide +kernel

end T22b

namespace T23

def n0 (s : State) : State := setF F.lnkNetNumValid 1 (setF F.lnkNetDevnum 9 (ethup s))
def en (w : Nat) (s : State) : State := s.setWord F.lnkCfg0 (w32 w) |>.setWord F.lnkCfg2 (w32 5)
def q (w : Nat) (s : State) : State := vgdup (en w (n0 s))
def seen (n at_ kind : Nat) (s : State) : State := { s with periph := 100000000, net := { s.net with seen := [⟨7, kind, n, at_⟩] } }
def cl (h g sr sq : Nat) (p : List Byte) (ok : Bool := true) (k : Nat := 1) : Cell :=
  let c : Cell := ⟨h, BitVec.ofNat 16 g, BitVec.ofNat 18 sr, w32 sq, p, 0⟩
  if ok then { c with crc := cellCrc k c } else c
def le := leBytes
def sy : List Byte := le 8 6600000 ++ List.replicate 40 0
def full64 (s : State) : State := { s with net := { s.net with rx := List.replicate 64 [1] } }
def all1 : Nat := 2^31+2^30+2^28+2^27
def st0 : State := q all1 r
def st1 : State := setF F.clkStateTimeSrc 2 (q all1 r)
def st2 : State := seen 4 99950000 1 (q all1 r)
def st3 : State := seen 4 50000 3 (full64 (q (2^31+2^30) r))
def st4 : State := { en all1 (n0 r) with pins := r.pins}

theorem test_hyp_VangadCells :
    (clocked st0 = true ∧
      (vgdEnabled 0 st0 = true ∧ vgdUp 0 st0 = true ∧
        (1 ∈ [1, 2, 3, 4, 5] ∧
          ((cl 5 5 7 4 sy).crc = cellCrc 1 (cl 5 5 7 4 sy) ∧ ownSource (cl 5 5 7 4 sy).source.toNat st0 = false) ∧
          ((cl 64 0 9 4 sy).crc = cellCrc 1 (cl 64 0 9 4 sy) ∧ ownSource (cl 64 0 9 4 sy).source.toNat st0 = true)) ∧
        (2 ∈ [1, 2, 3, 4, 5] ∧ (cl 5 5 7 4 sy).crc ≠ cellCrc 2 (cl 5 5 7 4 sy)) ∧
        (((cl 5 5 7 4 sy).crc = cellCrc 1 (cl 5 5 7 4 sy) ∧ ownSource (cl 5 5 7 4 sy).source.toNat st0 = false ∧ seenWithin secondCycles (cl 5 5 7 4 sy).source.toNat 1 (BitVec.toNat (cl 5 5 7 4 sy).cseq) st0 = false) ∧ syncFwd 0 st0 = true ∧ working st0 = true)) ∧
      vgdUp 0 st0 = true) ∧
    (clocked st1 = true ∧ vgdEnabled 0 st1 = true ∧ vgdUp 0 st1 = true ∧ ((cl 5 5 7 4 sy).crc = cellCrc 1 (cl 5 5 7 4 sy) ∧ ownSource (cl 5 5 7 4 sy).source.toNat st1 = false ∧ seenWithin secondCycles (cl 5 5 7 4 sy).source.toNat 1 (BitVec.toNat (cl 5 5 7 4 sy).cseq) st1 = false) ∧ syncFwd 0 st1 = true ∧ working st1 = true ∧ getF F.clkStateTimeSrc st1 ≠ 0 ∧ edgeTooSoon (if boundaryAt (leNat (List.take 8 (cl 5 5 7 4 sy).payload) + 600 * (64 - (cl 5 5 7 4 sy).hops)) st1 ≤ ↑st1.periph then edgeCycle st1.periph else (boundaryAt (leNat (List.take 8 (cl 5 5 7 4 sy).payload) + 600 * (64 - (cl 5 5 7 4 sy).hops)) st1).toNat) st1 = false) ∧
    (clocked st2 = true ∧ vgdEnabled 0 st2 = true ∧ vgdUp 0 st2 = true ∧ 1 ∈ [1, 2, 3, 4, 5] ∧ (cl 5 5 7 4 sy).crc = cellCrc 1 (cl 5 5 7 4 sy) ∧ ownSource (cl 5 5 7 4 sy).source.toNat st2 = false ∧ seenWithin msCycles (cl 5 5 7 4 sy).source.toNat 1 (BitVec.toNat (cl 5 5 7 4 sy).cseq) st2 = true) := by decide +kernel

theorem test_hyp_VangadCells_2 :
    (clocked st3 = true ∧ vgdEnabled 0 st3 = true ∧ vgdUp 0 st3 = true ∧ ((cl 5 5 7 4 sy).crc = cellCrc 1 (cl 5 5 7 4 sy) ∧ ownSource (cl 5 5 7 4 sy).source.toNat st3 = false ∧ seenWithin secondCycles (cl 5 5 7 4 sy).source.toNat 1 (BitVec.toNat (cl 5 5 7 4 sy).cseq) st3 = false) ∧ syncFwd 0 st3 = false) ∧
    (clocked st4 = true ∧ vgdEnabled 0 st4 = true ∧ vgdUp 0 st4 = false ∧ st4.pins.vgdTx = true) := by decide +kernel

end T23

namespace T24

def n0 (s : State) : State := setF F.lnkNetNumValid 1 (setF F.lnkNetDevnum 9 (ethup s))
def en (w : Nat) (s : State) : State := s.setWord F.lnkCfg0 (w32 w) |>.setWord F.lnkCfg2 (w32 5)
def q (w : Nat) (s : State) : State := vgdup (en w (n0 s))
def lchG (t : Nat) : List Word := blk [w32 (t % 2^32), w32 (t / 2^32), w32 (2^31 + 2^30 + 5), 0x1234]
def full64 (s : State) : State := { s with net := { s.net with rx := List.replicate 64 [1] } }
def all1 : Nat := 2^31+2^30+2^28+2^27
def hdl (h : Hdr) : Hdr := { h with seq := 4 }
def lq (l : List Word) (w : Nat) : State := modU 26 (fun e => { e with s := (e.s.set 8 (nth 0 l 0)).set 9 (nth 0 l 1) |>.set 10 (nth 0 l 2) |>.set 11 (nth 0 l 3) |>.set 12 (nth 0 l 4) |>.set 13 (nth 0 l 5) |>.set 14 (nth 0 l 6) |>.set 15 (nth 0 l 7) }) (q w h)
def x0 (n ad : Nat) : Xfer := xrec 0x7C n 0 ad
def lrec : List Word := [w32 (2^31 + 5*2^18), w32 (3*2^16), 5, 0,0,0,0,0,0,0]
def hA : Nat := 2^28 + 1*2^26 + 3*2^22
def dA : Nat := 2*2^28 + 3*2^26 + 5
def rxs (k : Nat) : State := rd 0x7C (64*k) (2^28) { q all1 a with net := { (q all1 a).net with rx := [List.replicate 16 5, List.replicate 16 6] } }
def st0 : State := q all1 r
def st1 : State := full64 (q all1 r)
def st2 : State := lq (lchG 7000000) all1
def st3 : State := lq (lch 7000000) all1
def st4 : State := lq [1,2] all1
def st5 : State := rec_ 0x7C lrec (q all1 a)
def st6 : State := rec_ 0x7C (5 :: lrec.tail) (q all1 a)
def st8 : State := rec_ 0x7C (List.replicate 12 3) (q all1 a) 0 hA
def st9 : State := rec_ 0x7C (List.replicate 12 3) (q all1 a) 0 dA
def st11 : State := rec_ 0x7C [7] (q all1 a) 0 (3*2^28)
def st12 : State := rxs 2

theorem test_hyp_VangadCells :
    (clocked st0 = true ∧
      (asks 113 [1] [0, 1, 2, 3, 4, 5] (hdl (hd 113 1 5 36)) (toBytes (lchG 7000000) ++ leBytes 4 7) st0 ∧ (toBytes (lchG 7000000) ++ leBytes 4 7).length = 36 ∧ ownSource (fieldAt (toBytes (lchG 7000000) ++ leBytes 4 7) 32 4) st0 = false ∧ latchSeen (fieldAt (toBytes (lchG 7000000) ++ leBytes 4 7) 32 4) (BitVec.toNat (hdl (hd 113 1 5 36)).seq) st0 = false ∧ live st0 = true ∧ (groupsOf st0).contains (latchGroup (toWords (List.take 32 (toBytes (lchG 7000000) ++ leBytes 4 7)))) = true ∧ complementOk (toWords (List.take 32 (toBytes (lchG 7000000) ++ leBytes 4 7))) = true ∧ latchTime (toWords (List.take 32 (toBytes (lchG 7000000) ++ leBytes 4 7))) ≤ st0.time + 60000000000) ∧
      (asks 80 [0, 1, 2] [2, 3, 4] (hd 80 1 5 8) (leBytes 8 77) st0 ∧ 4 ≤ (leBytes 8 77).length ∧ (leBytes 8 77).length ≤ 48 ∧ st0.net.rx.length < 64)) ∧
    (clocked st1 = true ∧ asks 80 [0, 1, 2] [2, 3, 4] (hd 80 1 5 8) (leBytes 8 77) st1 ∧ 4 ≤ (leBytes 8 77).length ∧ (leBytes 8 77).length ≤ 48 ∧ 64 ≤ st1.net.rx.length) := by unfold asks; decide +kernel

theorem test_hyp_VangadAndMessageSends :
    (isBlock 8 = true ∧
      (issues 26 Cls.event false (List.map RegRef.s (blockRegs 8)) st2 ∧ latchOk (getBlock 26 8 st2) st2 = true ∧ latchGroup (getBlock 26 8 st2) ≠ 0 ∧ reach (dieOf 26) 0 st2 = true ∧ vgdSends false 0 st2 = true) ∧
      (issues 26 Cls.event false (List.map RegRef.s (blockRegs 8)) st3 ∧ latchOk (getBlock 26 8 st3) st3 = true ∧ latchGroup (getBlock 26 8 st3) = 0) ∧
      (issues 26 Cls.event false (List.map RegRef.s (blockRegs 8)) st4 ∧ latchOk (getBlock 26 8 st4) st4 = false)) ∧
    (clocked st2 = true ∧ vgdSends false 0 st2 = true) := by unfold issues; decide +kernel

theorem test_hyp_VangadAndMessageSends_2 :
    ((recordAt 0 1 (fun x => decide (x = 124)) (x0 10 0) st5) ∧ passes (dieOf 0) 0 st5 = true ∧ msgKind (x0 10 0).addr = 0 ∧ linkRecordOk (sourceWords (x0 10 0) st5) = true ∧ vgdEnabled 0 (nextOf (exec (Instr.lnkMsgSettings 0 1) st5)) = false) ∧
    ((recordAt 0 1 (fun x => decide (x = 124)) (x0 10 0) st6) ∧ passes (dieOf 0) 0 st6 = true ∧ msgKind (x0 10 0).addr = 0 ∧ linkRecordOk (sourceWords (x0 10 0) st6) = false) ∧
    ((recordAt 0 1 (fun x => decide (x = 124)) (x0 1 (3 * 2 ^ 28)) st11) ∧ passes (dieOf 0) 0 st11 = true ∧ 3 ≤ msgKind (x0 1 (3 * 2 ^ 28)).addr) ∧
    ((recordAt 0 1 (fun x => decide (x = 124)) (x0 12 hA) st8) ∧ passes (dieOf 0) 0 st8 = true ∧ msgKind (x0 12 hA).addr = 1 ∧ (x0 12 hA).len = 48 ∧ ((x0 12 hA).addr / 2 ^ 22 % 16 = 3 ∨ (x0 12 hA).addr / 2 ^ 22 % 16 = 5 ∧ (x0 12 hA).addr / 2 ^ 16 % 64 ≠ 0) ∧ (∀ p ∈ msgPorts (x0 12 hA).addr, vgdSends false p st8 = true) ∧ 0 ∈ msgPorts (x0 12 hA).addr) ∧
    ((recordAt 0 1 (fun x => decide (x = 124)) (x0 12 dA) st9) ∧ passes (dieOf 0) 0 st9 = true ∧ msgKind (x0 12 dA).addr = 2 ∧ 4 ≤ (x0 12 dA).len ∧ (x0 12 dA).len ≤ 48 ∧ (∀ e ∈ msgPorts (x0 12 dA).addr, ethUp e st9 = true) ∧ st9.pins.ethTx = true ∧ 0 ∈ msgPorts (x0 12 dA).addr) := by unfold recordAt wholeSource; decide +kernel

theorem test_hyp_VangadAndMessageSends_3 :
    (readAt 0 1 (fun x => decide (x = 124)) (xrd 124 128 (2 ^ 28)) st12) ∧ passes (dieOf 0) 0 st12 = true ∧ msgKind (xrd 124 128 (2 ^ 28)).addr = 1 ∧ (xrd 124 128 (2 ^ 28)).len % 64 = 0 ∧ (0 < storeBase 0 + (xrd 124 128 (2 ^ 28)).base ∨ storeBase 0 + (xrd 124 128 (2 ^ 28)).base + 4 * (fitWords ((xrd 124 128 (2 ^ 28)).len / 4) (List.take ((xrd 124 128 (2 ^ 28)).len / 64) st12.net.rx).flatten).length ≤ 0) := by unfold readAt; decide +kernel

end T24

namespace T25

def n0 (s : State) : State := setF F.lnkNetNumValid 1 (setF F.lnkNetDevnum 9 s)
def en (w : Nat) (s : State) : State := s.setWord F.lnkCfg0 (w32 w) |>.setWord F.lnkCfg2 (w32 5)
def q (s : State) : State := vgdup (en (3*2^25 + 2^29 + 2^31 + 128 * 2^8) (n0 s))
def pt (f : PtpPort → PtpPort) (s : State) : State := { s with net := { s.net with ptp := s.net.ptp.set 0 (f s.net.ptp[0]) } }
def pc : PtpClock := ⟨0, 0, 99⟩
def sl := pt (fun x => { x with parent := some pc, sync := some (7, 6499000), req := some (7, 6499500), pair := some (6498000, 6499000) }) (ethup (q r))
def mg (b two : Bool) : PtpMsg := ⟨0, false, ⟨if b then 0 else 255, 0, 99⟩, two, 7, 6498500, 6499700⟩
def s26 : Nat := 5
def al : State := modU 26 (fun e => { e with ranAt := some 5 }) r
def ef (v : Bool) (n : Nat) (f : Bool) : EthFrame := ⟨n, v, f, false, false⟩
def st0 : State := q r
def st1 : State := ethup (q r)
def st5 : PtpMsg := { mg true true with clock := ⟨0, 0, 100⟩ }

theorem test_hyp_EthernetPorts :
    (clocked al = true ∧
      (ethUp 0 al = false ∧ al.pins.ethTx = true) ∧
      (working al = true ∧ al.units[26].ranAt = some s26 ∧ al.periph ≤ s26 + 100000 ∧ al.periph ≤ al.ejt.monitorAt + 100000)) ∧
    (clocked st0 = true ∧ vgdUp 0 st0 = true) ∧
    (clocked st1 = true ∧
      (ethUp 0 st1 = true ∧ st1.pins.ethTx = true ∧
        ((ef true 100 true).vlan = true ∨ 1518 < (ef true 100 true).length ∨ (ef true 100 true).fcsOk = false) ∧
        w32 5 ≠ ethAddr 0 st1 ∧
        flagAt F.lnkPortLinkLocal (0) st1 = true ∧
        hostState st1 = some 2 ∧
        (bit (st1.word F.lnkCfg0) (25 + 0) = true ∧ ptpMaster 0 st1 = true ∧ (∀ a ∈ st1.net.ptp[0].syncAt, a + syncCycles st1 ≤ st1.periph))) ∧
      (ptpHears 0 (mg true true) st1 = true ∧
        ptpMaster 0 st1 = true ∧
        ((mg true true).clock.identity ≠ clockIdentity st1 ∧ (decide ((ownClock st1).prio1 = 255) || betterClock (mg true true).clock (ownClock st1)) = true ∧ ((fromParent 0 (mg true true) st1 || Option.all (fun x => betterClock (mg true true).clock x) st1.net.ptp[0].parent) = true) ∧ fromParent 0 (mg true true) st1 = false)) ∧
      (ptpHears 0 (mg false false) st1 = true ∧ (mg false false).clock.identity ≠ clockIdentity st1 ∧ (decide ((ownClock st1).prio1 = 255) || betterClock (mg false false).clock (ownClock st1)) = false ∧ fromParent 0 (mg false false) st1 = false)) := by decide +kernel

theorem test_hyp_EthernetPorts_2 :
    clocked sl = true ∧
      (ptpHears 0 (mg true true) sl = true ∧
        (fromParent 0 (mg true true) sl = true ∧
          (mg true true).twoStep = true ∧
          (sl.net.ptp[0].sync = some ((mg true true).seq.toNat, 6499000) ∧ sl.net.ptp[0].delay = none) ∧
          (sl.net.ptp[0].req = some ((mg true true).seq.toNat, 6499500) ∧ sl.net.ptp[0].pair = some (6498000, 6499000) ∧ live sl = true ∧ srcAllowed (ethSrc 0) sl = true ∧ sl.clock.src = none ∧ (6499000 - 6498000 - (6499000 - 6498000 + ((mg true true).origin - 6499500)) / 2).natAbs ≤ 1000000)) ∧
        ((mg true true).clock.identity ≠ clockIdentity sl ∧ (decide ((ownClock sl).prio1 = 255) || betterClock (mg true true).clock (ownClock sl)) = true ∧ ((fromParent 0 (mg true true) sl || Option.all (fun x => betterClock (mg true true).clock x) sl.net.ptp[0].parent) = true) ∧ fromParent 0 (mg true true) sl = true)) ∧
      (ptpHears 0 (mg false false) sl = true ∧
        (fromParent 0 (mg false false) sl = true ∧ (mg false false).twoStep = false ∧ sl.net.ptp[0].delay = none) ∧
        ((mg false false).clock.identity ≠ clockIdentity sl ∧ (decide ((ownClock sl).prio1 = 255) || betterClock (mg false false).clock (ownClock sl)) = false ∧ fromParent 0 (mg false false) sl = true)) ∧
      (ptpHears 0 st5 sl = true ∧ st5.clock.identity ≠ clockIdentity sl ∧ (decide ((ownClock sl).prio1 = 255) || betterClock st5.clock (ownClock sl)) = true ∧ ((fromParent 0 st5 sl || Option.all (fun x => betterClock st5.clock x) sl.net.ptp[0].parent) = false)) ∧
      sl.net.ptp[0].slave = true := by decide +kernel

end T25

namespace T26

def st0 : State := { r with mode := .unpowered, timeOn := false }

theorem test_hyp_StepRunsTheFrontCommand :
    (r.pending = [] ∧
      (r.freeze.since = none ∧ r.timeOn = true ∧ r.clock.slewing = false ∧ r.clock.rate = 0 ∧ r.clock.drift.natAbs < 100000) ∧
      8 < ddrBase 0) ∧
    (st0.pending = [] ∧
      (st0.freeze.since.isSome = true ∨ st0.timeOn = false) ∧
      clocked st0 = false) := by decide +kernel

end T26

namespace T30

def cutS (n : Nat) (sw : Bool) : State := modStr 2 (fun e => { e with sw, cuts := List.replicate n 4000 }) { lit with periph := 5000 }
def tst (p : Nat) (f : StrTest → StrTest) (s : State) : State := { s with periph := p, lum := s.lum.set 0 { s.lum[0] with period := some (p - 3), tests := s.lum[0].tests.set 2 (f s.lum[0].tests[2]) } }
def stopN (nd : Nat) (s : State) : State := tst 7000000000 (fun x => { x with node := nd }) (modStr 2 (fun e => { e with stopAt := some 6999999000 }) s)
def st1 : State := modNotes 1 2 (fun _ => { kept := [], ever := [(0,5)] }) ea0
def st3 : State := { wait1 with time := 6800000 }
def st5 : State := { runs with time := 6700000 }
def st6 : State := cutS 6 true
def st7 : State := cutS 7 true
def st10 : State := tst 2000000000 id short
def st11 : State := tst 7000000000 id short
def st13 : State := stopN 3 (setF (F.lumSStateRunning 0 2) 0 short)

theorem test_hyp_EjectAcceptance :
    (ea1.msgs[1] = [Msg.eject 0 true (ej true false 3 70 2 400 9 7000000), Msg.latch 0 false []] ∧ arrives 1 (Msg.eject 0 true (ej true false 3 70 2 400 9 7000000)) ea1 = true ∧ lostOnWay 1 (Msg.eject 0 true (ej true false 3 70 2 400 9 7000000)) ea1 = false ∧ complementOk (ej true false 3 70 2 400 9 7000000) = true ∧ ejectMalformed (ej true false 3 70 2 400 9 7000000) = false ∧ lineKept 1 (cBand (ej true false 3 70 2 400 9 7000000)) (cLine (ej true false 3 70 2 400 9 7000000)) ea1 = some (note 2 9 LineState.decided) ∧ (note 2 9 LineState.decided).st ≠ LineState.open_) ∧
    (ea0.msgs[1] = [Msg.eject 0 false (ej false false 3 70 2 400 9 7000000), Msg.latch 0 false []] ∧ arrives 1 (Msg.eject 0 false (ej false false 3 70 2 400 9 7000000)) ea0 = true ∧ lostOnWay 1 (Msg.eject 0 false (ej false false 3 70 2 400 9 7000000)) ea0 = false ∧ complementOk (ej false false 3 70 2 400 9 7000000) = true ∧ ejectMalformed (ej false false 3 70 2 400 9 7000000) = false ∧ lineKept 1 (cBand (ej false false 3 70 2 400 9 7000000)) (cLine (ej false false 3 70 2 400 9 7000000)) ea0 = some (note 2 9 LineState.open_) ∧ (note 2 9 LineState.open_).st = LineState.open_ ∧ (note 2 9 LineState.open_).note.bound ≤ ea0.time) := by decide +kernel

theorem test_hyp_EjectAcceptance_2 :
    (st1.msgs[1] = [Msg.eject 0 false (ej false false 3 70 2 400 9 7000000), Msg.latch 0 false []] ∧ arrives 1 (Msg.eject 0 false (ej false false 3 70 2 400 9 7000000)) st1 = true ∧ lostOnWay 1 (Msg.eject 0 false (ej false false 3 70 2 400 9 7000000)) st1 = false ∧ complementOk (ej false false 3 70 2 400 9 7000000) = true ∧ ejectMalformed (ej false false 3 70 2 400 9 7000000) = false ∧ lineKept 1 (cBand (ej false false 3 70 2 400 9 7000000)) (cLine (ej false false 3 70 2 400 9 7000000)) st1 = none) ∧
    (ea3.msgs[1] = [Msg.eject 0 false [1, 2, 3, 4], Msg.latch 0 false []] ∧ arrives 1 (Msg.eject 0 false [1, 2, 3, 4]) ea3 = true ∧ lostOnWay 1 (Msg.eject 0 false [1, 2, 3, 4]) ea3 = false ∧ complementOk [1, 2, 3, 4] = false) := by decide +kernel

theorem test_hyp_ShotEnergiseResult :
    (clocked wait1 = true ∧ adUp (valveDie 70) wait1 = true ∧ waitingShot 70 wait1 = some (shot 9 (some (6500000, 6700000, 1000000)), 6500000, 6700000, 1000000) ∧ inSafe wait1 = false ∧ ↑wait1.time ≤ 6700000 ∧ peakPlace 70 wait1 = true ∧ firstWaiting 70 6500000 wait1 = true ∧ vinOver wait1 = false ∧ valveEnabled 70 (clampCheck 70 wait1) = true ∧ 69 ≠ 70) ∧
    (clocked st3 = true ∧ adUp (valveDie 70) st3 = true ∧ waitingShot 70 st3 = some (shot 9 (some (6500000, 6700000, 1000000)), 6500000, 6700000, 1000000) ∧ 6700000 < ↑st3.time ∧ 69 ≠ 70) := by decide +kernel

theorem test_hyp_ShotPhases :
    (clocked runs = true ∧ runs.ejt.chans[70].run = some run0 ∧ run0.inPeak = true ∧ (match some (2 ^ 16) with | some x => bit (nth 0 run0.w 0) 14 = true ∧ 1000 * ↑(bits (nth 0 run0.w 0) 23 15) ≤ x | none => run0.at_ + 1000 * bits (nth 0 run0.w 0) 13 3 ≤ runs.time) ∧ 69 ≠ 70) ∧
    (clocked runs2 = true ∧ runs2.ejt.chans[70].quench = true ∧ 2559 < 2560 ∧ 69 ≠ 70) := by decide +kernel

theorem test_hyp_ValveFaultsAndCoils :
    (clocked runs = true ∧ energised 70 runs = true ∧ 307200 ≤ 307200 ∧ 63 ≠ 70) ∧
    (clocked st5 = true ∧ energised 70 st5 = true ∧ (Option.all (fun r => decide (r.at_ + 200000 ≤ st5.time)) st5.ejt.chans[70].run = true) ∧ 6399 < 6400 ∧ 63 ≠ 70) := by decide +kernel

theorem test_hyp_LampFaultsAndTests :
    (clocked st6 = true ∧ strRunning 2 st6 = true ∧
      (testWindow 2 3 st6 = false ∧ lampUsed 2 (3) st6 = true ∧ 8000 < 8001 ∧ 9 < 10) ∧
      (st6.lum[strDie 2].strs[strIdx 2].startAt + 2000 ≤ st6.periph ∧ 9 < 10 ∧ (∀ i < 10, getF (lampFld 2 i) st6 ≠ 1)) ∧
      (2400 ≤ 2400 ∧ st6.lum[strDie 2].strs[strIdx 2].sw = true ∧ ((List.filter (fun c => decide (st6.periph < c + 100000)) st6.lum[strDie 2].strs[strIdx 2].cuts).length < 7)) ∧
      (0 < 2400 ∧ ((List.filter (fun c => decide (st6.periph < c + 100000)) st6.lum[strDie 2].strs[strIdx 2].cuts).length < 8))) ∧
    (clocked st7 = true ∧ strRunning 2 st7 = true ∧ 2400 ≤ 2400 ∧ st7.lum[strDie 2].strs[strIdx 2].sw = true ∧ (7 ≤ (List.filter (fun c => decide (st7.periph < c + 100000)) st7.lum[strDie 2].strs[strIdx 2].cuts).length)) ∧
    (clocked st10 = true ∧ adUp (strDie 2) st10 = true ∧ litShort 2 3 st10 = true ∧ stretchRoom 2 st10 = false ∧ (getF (lampFld 2 3) st10 = 0 ∨ getF (lampFld 2 3) st10 = 3 ∧ 3 ∈ st10.lum[strDie 2].tests[strIdx 2].fresh) ∧ (assoc st10.lum[strDie 2].tests[strIdx 2].tested 3).getD st10.lum[strDie 2].tests[strIdx 2].since + 1000000000 ≤ st10.periph) ∧
    (clocked st11 = true ∧ adUp (strDie 2) st11 = true ∧ st11.lum[strDie 2].tests[strIdx 2].fullAt.getD st11.lum[strDie 2].tests[strIdx 2].since + 6000000000 ≤ st11.periph) := by decide +kernel

theorem test_hyp_LampFaultsAndTests_2 :
    clocked st13 = true ∧ adUp (strDie 2) st13 = true ∧ nodeDue 2 st13 = true ∧
      100 < ((0 : Int) - 101).natAbs ∧
      ((∀ y ∈ [(2, 4, 1000)], y.2.2 ≤ 1000) ∧ ((0 : Int) - 0).natAbs ≤ 100) := by decide +kernel

end T30

namespace T31

def injAt (src : InjSrc) (s : State) : State := modSadc (fun e => { e with inj := some (inj src 56 0), injAt := s.periph }) s
def retr2 : State := running 4 (.ref 0) { retr with cal := c0.cal, status := c0.status }
def tr2 : State := modSadc (fun e => { e with trim := .running, entry := false }) (modCalRun 10 (fun r => { r with phase := .repeating 1, meas := [[some (4, 5)]] }) (running 10 (.repeating 1) c0))
def fg (b : Bool) (p : Nat) : State := { c0 with pins := { c0.pins with feedGap := b }, periph := p }
def sv : State := modCal (fun c => { c with unsaved := [(5,7), (4, 0)] }) (late c0)
def rn (i : Nat) (s : State) : CalRun := (runOf i s).getD (newRun i .closing s)
def run (i : Nat) (ph : CalPhase) (f : CalRun → CalRun) : State := modCalRun i f (running i ph c0)
def refd (i j : Nat) : State := { run i (.ref j) (fun r => { r with meas := [List.replicate 64 (some (1, 2)), List.replicate 64 (some (1, 2))], refs := [12000] }) with sadc := { c0.sadc with inj := some ⟨.cal, 5, 4, i⟩ } }
def st0 : State := injAt .thm a
def st5 : State := injAt .ejt r
def st7 : State := sInj (inj .pwr 56 0)
def st11 : State := { setF (F.fpdStateLsyncMode 0) 2 (setF (F.fpdStateRun 0) 1 a) with grid := { a.grid with edge := some 80, later := [75, 1100, 5000] } }
def st13 : State := fg true 99999
def st14 : State := fg true 100000
def st15 : State := refd 8 0
def st19 : Inj := (⟨.cal, 5, 4, 8⟩ : Inj)

theorem test_hyp_SadcStartAndSettings :
    (issues 0 Cls.event (srcImm (Src.imm 0)) (srcRegs (Src.imm 0)) st0 ∧ passes (dieOf 0) 0 st0 = true ∧ flag F.sadcStateStart st0 = false ∧ BitVec.toNat (srcVal 0 (Src.imm 0) st0) = 0 ∧ st0.sadc.inj = some (inj InjSrc.thm 56 0) ∧ st0.sadc.injAt = st0.periph ∧ (inj InjSrc.thm 56 0).src ≠ InjSrc.cal) ∧
    (issues 0 Cls.event (srcImm (Src.imm 1)) (srcRegs (Src.imm 1)) st0 ∧ passes (dieOf 0) 0 st0 = true ∧ flag F.sadcStateStart st0 = false ∧ BitVec.toNat (srcVal 0 (Src.imm 1) st0) = 1 ∧ st0.sadc.inj = some (inj InjSrc.thm 56 0) ∧ st0.sadc.injAt = st0.periph ∧ (inj InjSrc.thm 56 0).src ≠ InjSrc.cal) := by unfold issues; decide +kernel

theorem test_hyp_SadcResults :
    clocked sFull = true ∧ sFull.sadc.entry = true ∧ sFull.sadc.inj = none := by decide +kernel

theorem test_hyp_SadcInjected :
    (clocked st5 = true ∧ (InjSrc.cal = InjSrc.cal → refWaits 4 st5 = false) ∧ (InjSrc.cal = InjSrc.lum → have n := Fin.ofNat 8 4; adUp (strDie n) st5 = true ∧ (thermDue n (56) st5 = true ∨ sensDue n (56) st5 = true)) ∧ st5.sadc.inj = some (inj InjSrc.ejt 56 0) ∧ st5.sadc.injAt = st5.periph ∧ injRank InjSrc.cal < injRank (inj InjSrc.ejt 56 0).src) ∧
    (clocked st7 = true ∧ st7.sadc.inj = some (inj InjSrc.pwr 56 0) ∧
      (inj InjSrc.pwr 56 0).src ≠ InjSrc.cal ∧
      ((inj InjSrc.pwr 56 0).src = InjSrc.pwr ∧ (inj InjSrc.pwr 56 0).inp = 56)) := by decide +kernel

theorem test_hyp_SadcInjected_2 :
    clocked retr2 = true ∧ retr2.sadc.retry = [inj InjSrc.cal 5 4] ∧ (inj InjSrc.cal 5 4).src = InjSrc.cal ∧ calRunning (inj InjSrc.cal 5 4).key retr2 = true ∧ (retr2.sadc.entry = false ∧ retr2.sadc.inj = none ∧ retr2.sadc.trim = TrimPhase.off) := by decide +kernel

theorem test_hyp_SadcInjected_3 :
    clocked tr2 = true ∧ tr2.sadc.trim = TrimPhase.running ∧ runOf 10 tr2 = some ((runOf 10 tr2).getD (newRun 10 CalPhase.closing tr2)) ∧ ((runOf 10 tr2).getD (newRun 10 CalPhase.closing tr2)).phase = CalPhase.repeating 1 ∧ nth [] ((runOf 10 tr2).getD (newRun 10 CalPhase.closing tr2)).meas 0 = [some (4, 5)] ∧ (-128 < BitVec.toInt (5 : BitVec 8) ∧ BitVec.toInt (5 : BitVec 8) < 127 ∧ -128 < BitVec.toInt (6 : BitVec 8) ∧ BitVec.toInt (6 : BitVec 8) < 127) ∧ agree 3 (4, 5) (BitVec.toInt (5 : BitVec 8), BitVec.toInt (6 : BitVec 8)) = true := by decide +kernel

theorem test_hyp_SynchronisingAndTime :
    working st11 = true ∧ issues 0 Cls.event false [] st11 ∧ passes (dieOf 0) 0 st11 = true ∧ edgeTooSoon ((st11.periph + 74) / 25 * 25) st11 = false ∧ getF (F.fpdStateLsyncMode 0) st11 = 2 ∧ (st11.periph + 74) / 25 * 25 = st11.periph + 50 := by unfold issues; decide +kernel

theorem test_hyp_CalibrationGapsAndSaves :
    (live st13 = true ∧ st13.mode ≠ Mode.park ∧ st13.pins.feedGap = true) ∧
    (live st14 = true ∧ st14.mode ≠ Mode.park ∧ st14.pins.feedGap = true ∧ st14.pins.feedAt + 100000 ≤ st14.periph) := by decide +kernel

theorem test_hyp_CalibrationGapsAndSaves_2 :
    live sv = true ∧ calRunning 11 sv = false ∧ sv.cal.unsaved.getLast? = some (4, 0) ∧ (4, 0).2 + bits (sv.word F.calCfg0) 13 6 * 3600000000000 ≤ sv.time := by decide +kernel

theorem test_hyp_CalibrationRunsResult :
    live st15 = true ∧ st15.sadc.inj = some st19 ∧ st19.src = InjSrc.cal ∧ st19.key = 8 ∧ 4 ≤ 8 ∧ 8 ≤ 10 ∧ runOf (8) st15 = some (rn 8 (refd 8 0)) ∧ (rn 8 (refd 8 0)).phase = CalPhase.ref 0 ∧ calRunning (8) st15 = true ∧ refOk (8) (sadcCode (sadcVolts st19.inp st19.sub 1)).1 = false := by decide +kernel

end T31

namespace T32

def cl2 : State := withP (fun e => { e with closed := [ln 4, ln 5] }) k0
def fw : FusedWait := { num := 5, line := 3, stamp := 6000, bands := List.replicate 16 none, head := [], thermal := [], since := 0, late := [] }
def fl (n : Nat) (rd : Bool) : FusedLine := ⟨n, List.replicate 8 5, rd⟩
def ring8 (rd : Bool) : State := { a with fused := { a.fused with waiting := [fw], ring := (List.range 8).map fun i => fl (i + 10) rd } }
def z : State := nextOf (exec .zfreeze r)
def lim (a b c : Nat) : Word := w32 (a*2^24 + b*65536 + c*256)
def th (d : Fin 8) (f : ThmDie → ThmDie) (s : State) : State := { s with thm := { s.thm with dies := s.thm.dies.set d (f s.thm.dies[d]) } }
def nx : State := { r with thm := { r.thm with next := some (lim 100 110 120) } }
def hot (n : Nat) : State := th 0 (fun e => { e with at_ := [n, n, n, n, n], hist := [[12600,12600],[12700,12700]] }) nx
def lv (k : Nat) (s : State) : State := setF (F.thmDieStep 0) k (th 0 (fun e => { e with below := [16,16,16] }) s)
def crs (n : Nat) (i : Nat) (code : Int) : State := th 0 (fun e => { e with hist := [[2500],[2500],[2500]], cross := [n,n,n] }) { a with sadc := { a.sadc with results := [⟨⟨.thm, 5, 4, i⟩, code, false, false⟩] } }
def sg (n : Nat) (s : State) : State := { s with links := s.links.set 4 { s.links[4] with up := { s.links[4].up with attempts := n, buf := [⟨[0, 0, 0, 0], 15, 0, 1, 0⟩, ⟨[0, 0, 0, 0], 15, 1, 1, 0⟩] } } }
def st3 : State := ring8 true
def st5 : State := { z with tick := 5000 }
def st7 : State := hot 2
def st8 : State := lv 1 r
def st15 : State := crs 999 0 0
def st17 : State := sg 0 r
def st18 : Flit := (⟨[0, 0, 0, 0], 15, 1, 0, 0x81⟩ : Flit)
def st21 : List Flit := [⟨[0, 0, 0, 0], 15, 0, 1, 0⟩]
def st22 : Flit := (⟨[0, 0, 0, 0], 15, 0, 1, 0⟩ : Flit)
def st23 : Flit := ⟨[0, 0, 0, 0], 15, 1, 1, 0⟩
def st24 : List Flit := [⟨[0, 0, 0, 0], 15, 1, 1, 0⟩]

theorem test_hyp_CameraRecordsAndPixels :
    camOn 0 cl2 = true ∧ cl2.cam.ports[0].closed = [ln 4, ln 5] ∧ dieUp 1 cl2 = true ∧ (cl2.cam.last = some 0 → cl2.cam.ports[1 - 0].closed = []) ∧ cl2.cam.busy ≤ 20 * cl2.periph ∧ (∀ i ∈ [], i < (List.map (fun x => x.length) (ln 4).rows).sum) := by decide +kernel

theorem test_hyp_LineSlotsAndFusedLines :
    working st3 = true ∧ st3.fused.waiting = [fw] ∧ dieUp (asmDie st3.opt) st3 = true ∧ camReady 0 fw (takeMaps st3) = true ∧ camReady 1 fw (takeMaps st3) = true ∧ (st3.fused.ring = fl 10 true :: List.map (fun i => fl (i + 11) true) (List.range 7)) ∧ ((List.map (fun i => fl (i + 11) true) (List.range 7)).length = 7) ∧ lineRead (fl 10 true) st3 = false := by decide +kernel

theorem test_hyp_JtagPort :
    (r.mode ≠ Mode.unpowered ∧
      (r.freeze.since = none ∧ r.pins.resetN = true) ∧
      (scanChain r.opt)[0]? = some (Contact.cam (0 : Fin 2) (0 : Fin 30)) ∧
      BitVec.toNat (7 : BitVec 8) ∉ [0, 1, 2, 3, 4, 64, 65, 66, 67, 68, 69]) ∧
    (z.mode ≠ Mode.unpowered ∧ (z.freeze.since.isSome = true ∨ z.pins.resetN = false)) := by decide +kernel

theorem test_hyp_FreezeAndResume :
    st5.mode ≠ Mode.unpowered ∧ st5.freeze.since = some (0, z.time) ∧ st5.pins.freezeN = true ∧ 0 < 11 := by decide +kernel

theorem test_hyp_TemperatureReadings :
    clocked st7 = true ∧ diePresent st7.opt 0 = true ∧ dieUp (0) st7 = true ∧ (st7.thm.dies[0].shut = true ∨ nth 0 st7.thm.dies[0].at_ 4 < 3) ∧
      st7.thm.next = some (lim 100 110 120) ∧
      0 < (sensorsOf 0).2 := by decide +kernel

theorem test_hyp_TemperatureReadings_2 :
    clocked st8 = true ∧ diePresent st8.opt 0 = true ∧ (Level.step1, 1) ∈ [(Level.step1, 1), (Level.step2, 2), (Level.step3, 3)] := by decide +kernel

theorem test_hyp_TemperatureReadings_3 :
    clocked st15 = true ∧ diePresent st15.opt 0 = true ∧ (sensorDie 0).1 = 0 := by decide +kernel

theorem test_hyp_LinkTraffic :
    clocked st17 = true ∧ linkUp (4) st17 = true ∧ flitOk (sentFlit st18 []) = true ∧ st18.type = 0 ∧ flitOk st18 = true ∧ st18.ack.getLsbD 7 = true ∧
      (linkDir (!false) st17.links[4]).buf = [] ++ st22 :: st24 ∧
      ((linkDir (!false) st17.links[4]).buf = st21 ++ [st23] ∧ st23.seq = Fin.ofNat 128 (st18.ack.toNat % 128) ∧ (∀ x ∈ st21, x.seq ≠ Fin.ofNat 128 (st18.ack.toNat % 128))) := by decide +kernel

end T32

namespace T33a

def m (k : Mode) (s : State) : State := { s with mode := k }
def full1 : State := setF F.pwrStateInrushDone 1 { strOn 2 runs2 with mem := mem1, tick := 123456789000 }
def st0 : State := m (.powerUp .pll) full1
def st2 : State := { m .inReset full1 with pins := { full1.pins with resetN := false } }

theorem test_hyp_BrownoutsClocksAndPins :
    ((st0.mode = Mode.powerUp PwrRow.pll ∨ st0.mode = Mode.inReset) ∧ st0.pins.resetN = true ∧
      0 < 8 ∧
      (3 ∈ [3, 10] ∧ (linkEnds st0.opt 3).isSome = true)) ∧
    ((st2.mode = Mode.powerUp PwrRow.pll ∨ st2.mode = Mode.inReset) ∧ st2.pins.resetN = false) := by decide +kernel

end T33a

namespace T33b

def m (k : Mode) (s : State) : State := { s with mode := k }
def full1 : State := setF F.pwrStateInrushDone 1 { strOn 2 runs2 with mem := mem1, tick := 123456789000 }

theorem test_hyp_PowerUpAndZones :
    (PwrRow.v12 = PwrRow.v12 ∧ PwrRow.v18 = PwrRow.v18 ∧ F.pwrStateV12Good = F.pwrStateV12Good ∨ PwrRow.v12 = PwrRow.v18 ∧ PwrRow.v18 = PwrRow.refclk ∧ F.pwrStateV12Good = F.pwrStateV18Good ∨ PwrRow.v12 = PwrRow.vcore ∧ PwrRow.v18 = PwrRow.vddq ∧ F.pwrStateV12Good = F.pwrStateVcoreGood ∨ PwrRow.v12 = PwrRow.vddq ∧ PwrRow.v18 = PwrRow.adec ∧ F.pwrStateV12Good = F.pwrStateVddqGood ∨ PwrRow.v12 = PwrRow.adec ∧ PwrRow.v18 = PwrRow.pll ∧ F.pwrStateV12Good = F.pwrStateFda0Good) ∧ (m (Mode.powerUp PwrRow.v12) full1).mode = Mode.powerUp PwrRow.v12 := by decide +kernel

end T33b

namespace T33c

def q9 (n : Nat) (s : State) : State := { s with nvs := { s.nvs with copies := [{ cp 0x1005 n 320 true [9] with cells := 0 }, { cp 0x1005 n 321 true [8] with cells := 0 }] } }
def st0 : State := q9 4 (rd 0x78 32 (nvsAd 2 0 0x1005) (unl 0xFF a))

theorem test_hyp_RecordAccess :
    (readAt 0 1 (fun x => decide (x = 120)) (xrd 120 32 (nvsAd 2 0 4101)) st0) ∧ passes (dieOf 0) 0 st0 = true ∧ 16 ≤ (xrd 120 32 (nvsAd 2 0 4101)).len ∧ nvsOpOf (xrd 120 32 (nvsAd 2 0 4101)).addr = 0 ∧ nvsAddrOk (xrd 120 32 (nvsAd 2 0 4101)).addr = true ∧ (unlockBits (nvsPartOf (xrd 120 32 (nvsAd 2 0 4101)).addr) st0).2.testBit (nvsPartOf (xrd 120 32 (nvsAd 2 0 4101)).addr) = true ∧ (¬(nvsPartOf (xrd 120 32 (nvsAd 2 0 4101)).addr = 0 ∧ 1296 ≤ nvsKeyOf (xrd 120 32 (nvsAd 2 0 4101)).addr ∧ nvsKeyOf (xrd 120 32 (nvsAd 2 0 4101)).addr ≤ 1303)) ∧ resolve (nvsPartOf (xrd 120 32 (nvsAd 2 0 4101)).addr) (nvsKeyOf (xrd 120 32 (nvsAd 2 0 4101)).addr) st0.nvs = Resolved.conflict 4 ∧ (63 < storeBase 0 + (xrd 120 32 (nvsAd 2 0 4101)).base ∨ storeBase 0 + (xrd 120 32 (nvsAd 2 0 4101)).base + 4 * (fitWords ((xrd 120 32 (nvsAd 2 0 4101)).len / 4) (nvsHeader 2 0 4)).length ≤ 63) := by unfold readAt; decide +kernel

end T33c

namespace T33d

def n0 (s : State) : State := setF F.lnkNetNumValid 1 (setF F.lnkNetDevnum 9 (ethup s))
def en (w : Nat) (s : State) : State := s.setWord F.lnkCfg0 (w32 w) |>.setWord F.lnkCfg2 (w32 5)
def q (w : Nat) (s : State) : State := vgdup (en w (n0 s))
def all1 : Nat := 2^31+2^30+2^28+2^27
def cl (h g sr sq : Nat) (p : List Byte) (k : Nat) : Cell :=
  let c : Cell := ⟨h, BitVec.ofNat 16 g, BitVec.ofNat 18 sr, w32 sq, p, 0⟩
  { c with crc := cellCrc k c }
def sy : List Byte := leBytes 8 6600000 ++ List.replicate 40 0
def cs : State := setF (F.fpdStateRun 0) 1 (setF F.clkStateTimeSrc 2 (q all1 r))

theorem test_hyp_VangadCells :
    clocked cs = true ∧ vgdEnabled 0 cs = true ∧ vgdUp 0 cs = true ∧
      (((cl 1 0 7 4 sy 3).crc = cellCrc 3 (cl 1 0 7 4 sy 3) ∧ ownSource (cl 1 0 7 4 sy 3).source.toNat cs = false ∧ seenWithin secondCycles (cl 1 0 7 4 sy 3).source.toNat 3 (BitVec.toNat (cl 1 0 7 4 sy 3).cseq) cs = false) ∧ cs.net.rx.length < 64) ∧
      (((cl 2 5 7 4 sy 5).crc = cellCrc 5 (cl 2 5 7 4 sy 5) ∧ ownSource (cl 2 5 7 4 sy 5).source.toNat cs = false ∧ seenWithin secondCycles (cl 2 5 7 4 sy 5).source.toNat 5 (BitVec.toNat (cl 2 5 7 4 sy 5).cseq) cs = false) ∧
        (((cl 2 5 7 4 sy 5).group = 0 ∨ (groupsOf cs).contains (cl 2 5 7 4 sy 5).group.toNat = true) ∧ cs.net.rx.length < 64) ∧
        (cl 2 5 7 4 sy 5).group ≠ 0) := by decide +kernel

end T33d

namespace T35

def cfgC : State := { a with periph := 100000, time := 1000000, clock := { a.clock with shifts := [(99990, 7), (50, 100)] }, csn := a.csn.set 0 { a.csn[(0 : Fin 2)] with zeroAt := some 99000, block := 7, nextCfg := [(w32 (2*2^30 + 5*2^21), 99500), (w32 (1*2^30 + 6*2^21), 99900), (w32 (7*2^21), 99991)] } }
def fg (f : Bool) : State := { a with pins := { a.pins with feedGap := true }, cal := { a.cal with feedOpen := true } }
def st0 : State := fg true

theorem test_hyp_AlongAndCsenseRecords :
    clocked cfgC = true ∧ adUp 0 cfgC = true ∧
      (Option.map (fun x => x.1) (List.filter (fun y => decide (10 * y.2 + min 100 5968 ≤ 10 * cfgC.periph)) cfgC.csn[0].nextCfg).getLast? = some (w32 (1 * 2 ^ 30 + 6 * 2 ^ 21))) ∧
      1 ≠ 0 := by decide +kernel

theorem test_hyp_CalibrationGapsAndSaves :
    live st0 = true ∧ st0.cal.feedOpen = true ∧
      5 < 10 ∧
      (10 ≤ 10 ∧ 10 < 20) ∧
      20 ≤ 20 := by decide +kernel

end T35

namespace T36

def E (done : Bool) : List Word := ej done false 3 70 2 400 9 7000000
def st (done o : Bool) (lst : LineState) : State := { valves lst with time := 6400000, msgs := (valves lst).msgs.set 1 [.eject 0 o (E done), .latch 0 false []] }
def warm : State := modNotes 1 2 (fun _ => { kept := [⟨{ (note 2 9 .open_).note with warm := true }, .open_⟩], ever := [(0, 12)] }) (st false false .open_)
def q8 : State := { st false false .open_ with ejt := { (st false false .open_).ejt with chans := (st false false .open_).ejt.chans.set 70 { (st false false .open_).ejt.chans[70] with queue := List.replicate 8 (shot 3 none) } } }
def lost (s : State) : State := (List.finRange 16).foldl (fun s l => linkFatal l s) s
def lost2 (s : State) : State := let s := lost s; { s with links := s.links.map fun k => { k with moving := false } }
def imgD (x : Dflt) : Image := { img with defaults := List.replicate 16 x }
def runImg (x : Dflt) (s : State) : State := { s with boot := { s.boot with running := some (imgD x) } }
def en (s : State) : State := (List.range 64).foldl (fun s i => setF (F.ejtVStateEnabled 1 i) 1 s) (setF (F.ejtProfileStateLoaded 1 3) 1 s)
def bd9 : State := { modNotes 1 9 (fun _ => { kept := [{ note 9 5 .open_ with note := { (note 9 5 .open_).note with view := 6450000 }}], ever := [(0, 12)] }) (en bound) with time := 6500000 }
def al : Dflt := .all 300000 3 400
def st0 : Kept := ⟨{ (note 2 9 .open_).note with warm := true }, .open_⟩
def st1 : State := st false false .open_
def st2 : State := setF F.pwrStateVinZone 4 (st false false .open_)
def st3 : State := setF (F.ejtVStateEnabled 1 6) 0 (st false false .open_)
def st5 : State := st true true .open_
def st6 : State := lost2 (st false false .open_)
def st8 : Notice := { (note 9 6 .open_).note with blind := true, view := 6450000 }
def st9 : Kept := { note 9 5 .open_ with note := { (note 9 5 .open_).note with view := 6450000 }}

theorem test_hyp_EjectAcceptance :
    (st1.msgs[1] = [Msg.eject 0 false (E false), Msg.latch 0 false []] ∧ arrives 1 (Msg.eject 0 false (E false)) st1 = true ∧ lostOnWay 1 (Msg.eject 0 false (E false)) st1 = false ∧ complementOk (E false) = true ∧ ejectMalformed (E false) = false ∧ lineKept 1 (cBand (E false)) (cLine (E false)) st1 = some (note 2 9 LineState.open_) ∧ (note 2 9 LineState.open_).st = LineState.open_ ∧ st1.time < (note 2 9 LineState.open_).note.bound ∧ false = false ∧ cNone (E false) = false ∧ valveDie (cValve (E false)) = 1 ∧ vinOver st1 = false ∧ (1 ≤ cHold (E false) ∧ cHold (E false) ≤ 25500 ∧ profileLoaded 1 (cProf (E false)) st1 = true ∧ valveEnabled (cValve (E false)) st1 = true) ∧ (note 2 9 LineState.open_).note.warm = false ∧ st1.ejt.chans[cValve (E false)].queue.length < 8 ∧ 71 ≠ cValve (E false)) ∧
    (st2.msgs[1] = [Msg.eject 0 false (E false), Msg.latch 0 false []] ∧ arrives 1 (Msg.eject 0 false (E false)) st2 = true ∧ lostOnWay 1 (Msg.eject 0 false (E false)) st2 = false ∧ complementOk (E false) = true ∧ ejectMalformed (E false) = false ∧ lineKept 1 (cBand (E false)) (cLine (E false)) st2 = some (note 2 9 LineState.open_) ∧ (note 2 9 LineState.open_).st = LineState.open_ ∧ st2.time < (note 2 9 LineState.open_).note.bound ∧ false = false ∧ cNone (E false) = false ∧ valveDie (cValve (E false)) = 1 ∧ vinOver st2 = true) := by decide +kernel

theorem test_hyp_EjectAcceptance_2 :
    (st3.msgs[1] = [Msg.eject 0 false (E false), Msg.latch 0 false []] ∧ arrives 1 (Msg.eject 0 false (E false)) st3 = true ∧ lostOnWay 1 (Msg.eject 0 false (E false)) st3 = false ∧ complementOk (E false) = true ∧ ejectMalformed (E false) = false ∧ lineKept 1 (cBand (E false)) (cLine (E false)) st3 = some (note 2 9 LineState.open_) ∧ (note 2 9 LineState.open_).st = LineState.open_ ∧ st3.time < (note 2 9 LineState.open_).note.bound ∧ false = false ∧ cNone (E false) = false ∧ valveDie (cValve (E false)) = 1 ∧ vinOver st3 = false ∧ (¬(1 ≤ cHold (E false) ∧ cHold (E false) ≤ 25500 ∧ profileLoaded 1 (cProf (E false)) st3 = true ∧ valveEnabled (cValve (E false)) st3 = true))) ∧
    (warm.msgs[1] = [Msg.eject 0 false (E false), Msg.latch 0 false []] ∧ arrives 1 (Msg.eject 0 false (E false)) warm = true ∧ lostOnWay 1 (Msg.eject 0 false (E false)) warm = false ∧ complementOk (E false) = true ∧ ejectMalformed (E false) = false ∧ lineKept 1 (cBand (E false)) (cLine (E false)) warm = some st0 ∧ st0.st = LineState.open_ ∧ warm.time < st0.note.bound ∧ false = false ∧ cNone (E false) = false ∧ valveDie (cValve (E false)) = 1 ∧ vinOver warm = false ∧ (1 ≤ cHold (E false) ∧ cHold (E false) ≤ 25500 ∧ profileLoaded 1 (cProf (E false)) warm = true ∧ valveEnabled (cValve (E false)) warm = true) ∧ st0.note.warm = true) := by decide +kernel

theorem test_hyp_EjectAcceptance_3 :
    (q8.msgs[1] = [Msg.eject 0 false (E false), Msg.latch 0 false []] ∧ arrives 1 (Msg.eject 0 false (E false)) q8 = true ∧ lostOnWay 1 (Msg.eject 0 false (E false)) q8 = false ∧ complementOk (E false) = true ∧ ejectMalformed (E false) = false ∧ lineKept 1 (cBand (E false)) (cLine (E false)) q8 = some (note 2 9 LineState.open_) ∧ (note 2 9 LineState.open_).st = LineState.open_ ∧ q8.time < (note 2 9 LineState.open_).note.bound ∧ false = false ∧ cNone (E false) = false ∧ valveDie (cValve (E false)) = 1 ∧ vinOver q8 = false ∧ (1 ≤ cHold (E false) ∧ cHold (E false) ≤ 25500 ∧ profileLoaded 1 (cProf (E false)) q8 = true ∧ valveEnabled (cValve (E false)) q8 = true) ∧ (note 2 9 LineState.open_).note.warm = false ∧ 8 ≤ q8.ejt.chans[cValve (E false)].queue.length) ∧
    (st6.msgs[1] = [Msg.eject 0 false (E false), Msg.latch 0 false []] ∧ arrives 1 (Msg.eject 0 false (E false)) st6 = true ∧ lostOnWay 1 (Msg.eject 0 false (E false)) st6 = true) ∧
    (st5.msgs[1] = [Msg.eject 0 true (E true), Msg.latch 0 false []] ∧ arrives 1 (Msg.eject 0 true (E true)) st5 = true ∧ lostOnWay 1 (Msg.eject 0 true (E true)) st5 = false ∧ complementOk (E true) = true ∧ ejectMalformed (E true) = false ∧ lineKept 1 (cBand (E true)) (cLine (E true)) st5 = some (note 2 9 LineState.open_) ∧ (note 2 9 LineState.open_).st = LineState.open_ ∧ st5.time < (note 2 9 LineState.open_).note.bound ∧ (true = true ∨ cNone (E true) = true)) := by decide +kernel

theorem test_hyp_LineNotices :
    (clocked (runImg al bd9) = true ∧ adUp 1 (runImg al bd9) = true ∧ lineKept 1 9 (5#24).toNat (runImg al bd9) = some st9 ∧ st9.st = LineState.open_ ∧ st9.note.bound ≤ (runImg al bd9).time ∧
      valveDie 72 = 1 ∧
      (valveDie 80 = 1 ∧ (decide (valveDie 80 = 1) && decide (80 / 8 = 9)) = false) ∧
      valveDie 3 ≠ 1) ∧
    (clocked (runImg Dflt.none bd9) = true ∧ adUp 1 (runImg Dflt.none bd9) = true ∧ lineKept 1 9 (5#24).toNat (runImg Dflt.none bd9) = some st9 ∧ st9.st = LineState.open_ ∧ st9.note.bound ≤ (runImg Dflt.none bd9).time ∧ bandDefault (9) (runImg Dflt.none bd9) = Dflt.none ∧ (decide (valveDie 72 = 1) && decide (72 / 8 = 9)) = true) := by decide +kernel

theorem test_hyp_LineNotices_2 :
    (clocked (modEjt 1 (fun e => { e with coming := [{ (note 9 6 LineState.open_).note with blind := true, view := 6450000 }] }) (runImg al bd9)) = true) ∧ (adUp 1 (modEjt 1 (fun e => { e with coming := [{ (note 9 6 LineState.open_).note with blind := true, view := 6450000 }] }) (runImg al bd9)) = true) ∧ ((modEjt 1 (fun e => { e with coming := [{ (note 9 6 LineState.open_).note with blind := true, view := 6450000 }] }) (runImg al bd9)).ejt.dies[1].coming = [st8]) ∧ st8.band < 16 ∧ (arrivesFrom (if dieUp (asmDie (modEjt 1 (fun e => { e with coming := [{ (note 9 6 LineState.open_).note with blind := true, view := 6450000 }] }) (runImg al bd9)).opt) (modEjt 1 (fun e => { e with coming := [{ (note 9 6 LineState.open_).note with blind := true, view := 6450000 }] }) (runImg al bd9)) = true then asmDie (modEjt 1 (fun e => { e with coming := [{ (note 9 6 LineState.open_).note with blind := true, view := 6450000 }] }) (runImg al bd9)).opt else 0) 1 (modEjt 1 (fun e => { e with coming := [{ (note 9 6 LineState.open_).note with blind := true, view := 6450000 }] }) (runImg al bd9)) = true) ∧ st8.blind = true ∧
      valveDie 72 = 1 ∧
      (valveDie 80 = 1 ∧ (decide (valveDie 80 = 1) && decide (80 / 8 = ↑(Fin.ofNat 16 st8.band))) = false) ∧
      valveDie 3 ≠ 1 := by decide +kernel

end T36

namespace T37

def fB (f : CamPort → CamPort) (n : Nat) : State := withP f ((camF k0).setWord (F.camCfg0 0 + 4) (w32 (10*2^20 + 20*2^10 + n)))
def tr : List CamTrig := [trg 5 false false, trg 4 false false, trg 3 true true]
def tn : List CamTrig := [trg 5 true false, trg 4 false false, trg 3 true true]
def F0 (k : Nat) : CamFrame := ⟨none, k, []⟩
/- AREA, tile height 2 -/
def ar (f : CamPort → CamPort) (n : Nat) : State :=
  let s := (fB f n)
  let s := s.setWord (F.camCfg0 0) (putBits (s.word (F.camCfg0 0)) 30 30 1)
  withP (fun e => { e with pipe := (putBits (nth 0 e.pipe 0) 29 28 1) :: e.pipe.drop 1 }) (s.setWord (F.camCfg0 0 + 16) (putBits (s.word (F.camCfg0 0 + 16)) 15 6 1))
def g1 : CamFrame := ⟨some 5, 1, []⟩
def rw0 : List (Int × Bool) := (List.range 6).map fun i => ((i*100:Nat), false)
def g2 : CamFrame := ⟨some 5, 2, [rw0]⟩
def op : CamOpen := ⟨some 5, [3,2,1], 1, false, true⟩
def st1 : CamFrame := ⟨some 5, 4, []⟩

theorem test_hyp_CameraFraming :
    (camOn 0 (fB (fun e => { e with trigs := tr, frame := some (F0 1) }) 4) = true) ∧ (camArea 0 (fB (fun e => { e with trigs := tr, frame := some (F0 1) }) 4) = false) ∧ ((fB (fun e => { e with trigs := tr, frame := some (F0 1) }) 4).cam.ports[0].frame = some (F0 1)) ∧
      ((camFrameLines 0 (fB (fun e => { e with trigs := tr, frame := some (F0 1) }) 4) ≠ 0) ∧ ((fB (fun e => { e with trigs := tr, frame := some (F0 1) }) 4).cam.ports[0].line = none) ∧ ((F0 1).count < camFrameLines 0 (fB (fun e => { e with trigs := tr, frame := some (F0 1) }) 4)) ∧ (freeTrigger 0 (fB (fun e => { e with trigs := tr, frame := some (F0 1) }) 4) = some 5) ∧ (camClosed 0 (fB (fun e => { e with trigs := tr, frame := some (F0 1) }) 4) < 2)) ∧
      ((trg 4 true true ∈ (nextOf (exec (Instr.camFrameEnd 0) (fB (fun e => { e with trigs := tr, frame := some (F0 1) }) 4))).cam.ports[0].trigs) ∧ ((trg 4 true true).num ∈ List.take (camFrameLines 0 (fB (fun e => { e with trigs := tr, frame := some (F0 1) }) 4) - (F0 1).count) (List.map (fun x => x.num) (List.filter (fun x => !x.lined) (fB (fun e => { e with trigs := tr, frame := some (F0 1) }) 4).cam.ports[0].trigs)).reverse)) := by decide +kernel

theorem test_hyp_CameraFraming_2 :
    (camOn 0 (fB (fun e => { e with trigs := tn, frame := some (F0 1) }) 4) = true) ∧ (camArea 0 (fB (fun e => { e with trigs := tn, frame := some (F0 1) }) 4) = false) ∧ ((fB (fun e => { e with trigs := tn, frame := some (F0 1) }) 4).cam.ports[0].frame = some (F0 1)) ∧ (camFrameLines 0 (fB (fun e => { e with trigs := tn, frame := some (F0 1) }) 4) ≠ 0) ∧ ((fB (fun e => { e with trigs := tn, frame := some (F0 1) }) 4).cam.ports[0].line = none) ∧ ((F0 1).count < camFrameLines 0 (fB (fun e => { e with trigs := tn, frame := some (F0 1) }) 4)) ∧ (freeTrigger 0 (fB (fun e => { e with trigs := tn, frame := some (F0 1) }) 4) = none) := by decide +kernel

theorem test_hyp_CameraFraming_3 :
    ((camOn 0 (ar (fun e => { e with trigs := tr }) 4) = true) ∧ (camArea 0 (ar (fun e => { e with trigs := tr }) 4) = true) ∧ (camFrameLines 0 (ar (fun e => { e with trigs := tr }) 4) ≠ 0) ∧ ((ar (fun e => { e with trigs := tr }) 4).cam.ports[0].line = none) ∧ (freeTrigger 0 (ar (fun e => { e with trigs := tr }) 4) = some 5) ∧ (camClosed 0 (ar (fun e => { e with trigs := tr }) 4) < 2)) ∧
    ((camOn 0 (ar (fun e => { e with trigs := tn, frame := some g1 }) 4) = true) ∧ (camArea 0 (ar (fun e => { e with trigs := tn, frame := some g1 }) 4) = true) ∧
      (((ar (fun e => { e with trigs := tn, frame := some g1 }) 4).cam.ports[0].frame = some g1) ∧ ((ar (fun e => { e with trigs := tn, frame := some g1 }) 4).cam.ports[0].line = none) ∧ (g1.count < camFrameLines 0 (ar (fun e => { e with trigs := tn, frame := some g1 }) 4))) ∧
      (((ar (fun e => { e with trigs := tn, frame := some g1 }) 4).cam.ports[0].frame = some { trig := some 5, count := 1, rows := [] : CamFrame }) ∧ (List.find? (fun y => decide (y.num = 5)) (ar (fun e => { e with trigs := tn, frame := some g1 }) 4).cam.ports[0].trigs = some (trg 5 true false)) ∧ ((ar (fun e => { e with trigs := tn, frame := some g1 }) 4).cam.ports[0].line = none) ∧ (([] : List Nat).length < tileH (ar (fun e => { e with trigs := tn, frame := some g1 }) 4).cam.ports[0].pipe))) := by decide +kernel

theorem test_hyp_CameraFraming_4 :
    (camOn 0 (ar (fun e => { e with trigs := tn, frame := some { trig := some 5, count := 4, rows := [] : CamFrame } }) 4) = true) ∧ (camArea 0 (ar (fun e => { e with trigs := tn, frame := some { trig := some 5, count := 4, rows := [] : CamFrame } }) 4) = true) ∧ ((ar (fun e => { e with trigs := tn, frame := some { trig := some 5, count := 4, rows := [] : CamFrame } }) 4).cam.ports[0].frame = some st1) ∧ ((ar (fun e => { e with trigs := tn, frame := some { trig := some 5, count := 4, rows := [] : CamFrame } }) 4).cam.ports[0].line = none) ∧ (camFrameLines 0 (ar (fun e => { e with trigs := tn, frame := some { trig := some 5, count := 4, rows := [] : CamFrame } }) 4) ≤ st1.count) := by decide +kernel

theorem test_hyp_CameraFraming_5 :
    (camOn 0 (ar (fun e => { e with trigs := tn, line := some op, frame := some g1 }) 4) = true) ∧ (camArea 0 (ar (fun e => { e with trigs := tn, line := some op, frame := some g1 }) 4) = true) ∧ ((ar (fun e => { e with trigs := tn, line := some op, frame := some g1 }) 4).cam.ports[0].frame = some { trig := some 5, count := 1, rows := [] : CamFrame }) ∧ (List.find? (fun y => decide (y.num = 5)) (ar (fun e => { e with trigs := tn, line := some op, frame := some g1 }) 4).cam.ports[0].trigs = some (trg 5 true false)) ∧ ((ar (fun e => { e with trigs := tn, line := some op, frame := some g1 }) 4).cam.ports[0].line = some op) ∧ op.trig = some 5 ∧
      (([] : List Nat).length + 1 < tileH (ar (fun e => { e with trigs := tn, line := some op, frame := some g1 }) 4).cam.ports[0].pipe) ∧
      (([] : List Nat).length < tileH (ar (fun e => { e with trigs := tn, line := some op, frame := some g1 }) 4).cam.ports[0].pipe) := by decide +kernel

theorem test_hyp_CameraFraming_6 :
    (camOn 0 (ar (fun e => { e with trigs := tn, line := some op, frame := some g2 }) 4) = true) ∧ (camArea 0 (ar (fun e => { e with trigs := tn, line := some op, frame := some g2 }) 4) = true) ∧ ((ar (fun e => { e with trigs := tn, line := some op, frame := some g2 }) 4).cam.ports[0].frame = some { trig := some 5, count := 2, rows := [rw0] : CamFrame }) ∧ (List.find? (fun y => decide (y.num = 5)) (ar (fun e => { e with trigs := tn, line := some op, frame := some g2 }) 4).cam.ports[0].trigs = some (trg 5 true false)) ∧ ((ar (fun e => { e with trigs := tn, line := some op, frame := some g2 }) 4).cam.ports[0].line = some op) ∧ op.trig = some 5 ∧ (tileH (ar (fun e => { e with trigs := tn, line := some op, frame := some g2 }) 4).cam.ports[0].pipe ≤ [rw0].length + 1) := by decide +kernel

end T37

namespace T38b

def rowW (_r _k : Nat) : List Word := [100]
def rowsD (k : Nat) : List RowDone := (List.range 50).map fun r => ⟨r, rowW r k, false⟩
def xsD (_k : Nat) : List (List Word) := []
def kept (s : State) : State := modFd 1 (fun e => { e with row := 50, sent := [], kept0 := 0x80000190 }) (modFd 0 (fun e => { e with row := 50, sent := [], kept0 := 0x98000190, pend := some 7 }) s)
def bnd : State := kept (setF (F.fpdStateLineSlot 0) 400 (setF (F.fpdStateRun 1) 1 (setF (F.fpdStateRun 0) 1 { a with
  grid := { a.grid with lastEdge := some 0, stamps := [6400000, 6300000, 6200000, 6100000, 6000000, 5900000] }
  corr := { a.corr with dies := a.corr.dies.map (fun e => { e with rows := rowsD 1 }), vcfg := some (0x13880000 + 2^6, 100), waiting := [modelRec .zt8 [w32 (0*2^29 + 5*2^23 + 3*2^12 + 1), 1,2,3,4] ] }
  bands := a.bands.map fun e => { e with xs := [(xsD 0, 400), (xsD 0, 400)], laps := List.replicate 64 (latchLap 30000 a).1 } })))

theorem test_hyp_LineSlotTakesUp :
    working bnd = true ∧ atBoundary bnd = true ∧ bnd.grid.lastEdge.isSome = true ∧ (∀ (p : Bool), bnd.mode ≠ Mode.entering p) ∧ (∀ (d : Fin 2), bnd.focal[d].sent = []) ∧
      ((pacing 0 bnd = true ∧ fdUp 0 bnd = true ∧ recRun bnd.focal[0] = true)) ∧
      (pacing 0 bnd = true ∧ fdUp 0 bnd = true) ∧
      bnd.corr.vcfg = some (327680000 + 2 ^ 6, 100) ∧
      (bnd.corr.waiting = [nth (modelRec Opt.zt8 []) bnd.corr.waiting 0] ∧ (nth (modelRec Opt.zt8 []) bnd.corr.waiting 0).cal = none ∧ (nth (modelRec Opt.zt8 []) bnd.corr.waiting 0).part = 0 ∧ getF F.calStateRunning bnd = 0 ∧ (∀ (d : Fin 2), bnd.cal.convNext[d] = none)) ∧
      0 < engCount bnd.opt ∧
      (0 ∈ bandsOf bnd.opt ∧ (pacing (bandFd 0) bnd = true ∧ fdUp (bandFd 0) bnd = true ∧ recRun bnd.focal[bandFd 0] = true) ∧ bandBlind (0) bnd = false ∧ bnd.bands[0].blind = none ∧ bnd.bands[0].owed = false ∧
        (0 ∈ bandEngines 0 ∧ bnd.engines[0].fade = none) ∧
        (getF (F.velBandJoined 0) bnd = 0 ∧ getF F.corVcfgLag bnd < bnd.bands[0].xs.length ∧ getF (F.velBandState 0) bnd = 2)) ∧
      dieUp (asmDie bnd.opt) bnd = true := by decide +kernel

/-- No calibration item runs there. -/
theorem test_hyp_LineSlotTakesUp_calibration (i : Nat) : calRunning i bnd = false := by
  have h : getF F.calStateRunning bnd = 0 := by decide +kernel
  rw [calRunning, flagAt, h]
  exact Nat.zero_testBit i

end T38b

namespace T41a

def rowW (_r _k : Nat) : List Word := [100]
def rowsD (k : Nat) : List RowDone := (List.range 50).map fun r => ⟨r, rowW r k, false⟩
def xsD (_k : Nat) : List (List Word) := []
def kept (s : State) : State := modFd 1 (fun e => { e with row := 50, sent := [], kept0 := 0x80000190 }) (modFd 0 (fun e => { e with row := 50, sent := [], kept0 := 0x98000190, pend := some 7 }) s)
def bnd : State := kept (setF (F.fpdStateLineSlot 0) 400 (setF (F.fpdStateRun 1) 1 (setF (F.fpdStateRun 0) 1 { a with
  grid := { a.grid with lastEdge := some 0, stamps := [6400000, 6300000, 6200000, 6100000, 6000000, 5900000] }
  corr := { a.corr with dies := a.corr.dies.map (fun e => { e with rows := rowsD 1 }), vcfg := some (0x13880000 + 2^6, 100), waiting := [modelRec .zt8 [w32 (0*2^29 + 5*2^23 + 3*2^12 + 1), 1,2,3,4] ] }
  bands := a.bands.map fun e => { e with xs := [(xsD 0, 400), (xsD 0, 400)], laps := List.replicate 64 (latchLap 30000 a).1 } })))
def fd1 : State := setF (F.fpdStateRun 1) 0 { bnd with engines := bnd.engines.map fun e => { e with fade := some ⟨⟨1,1,0,0⟩, 16, 3⟩, held := some ⟨⟨1,2,3,4⟩, 16⟩ } }
def fd1s : State := setF (F.velBandState 0) 0 { fd1 with engines := fd1.engines.map fun e => { e with fade := some ⟨⟨1,1,0,0⟩, 16, 15⟩ } }
def st1 : Fade := (⟨⟨1,1,0,0⟩, 16, 3⟩ : Fade)

theorem test_hyp_LineSlotTakesUp :
    working fd1 = true ∧ atBoundary fd1 = true ∧ fd1.grid.lastEdge.isSome = true ∧ (∀ (p : Bool), fd1.mode ≠ Mode.entering p) ∧ (∀ (d : Fin 2), fd1.focal[d].sent = []) ∧
      (pacing 1 fd1 = false ∧ pacing (1 - 1) fd1 = true ∧ fdUp 1 fd1 = true ∧ recRun fd1.focal[1] = true ∧
        0 ∈ bandsOf fd1.opt ∧
        (9 ∈ bandsOf fd1.opt ∧ bandFd 9 = 1)) ∧
      (0 ∈ bandsOf fd1.opt ∧ (pacing (bandFd 0) fd1 = true ∧ fdUp (bandFd 0) fd1 = true ∧ recRun fd1.focal[bandFd 0] = true) ∧ bandBlind (0) fd1 = false ∧ fd1.bands[0].blind = none ∧ fd1.bands[0].owed = false ∧ 0 ∈ bandEngines 0 ∧ fd1.engines[0].fade = some st1 ∧ st1.i < st1.len) := by decide +kernel

theorem test_hyp_LineSlotTakesUp_2 :
    working fd1s = true ∧ atBoundary fd1s = true ∧ fd1s.grid.lastEdge.isSome = true ∧ (∀ (p : Bool), fd1s.mode ≠ Mode.entering p) ∧ (∀ (d : Fin 2), fd1s.focal[d].sent = []) ∧ 0 ∈ bandsOf fd1s.opt ∧ (pacing (bandFd 0) fd1s = true ∧ fdUp (bandFd 0) fd1s = true ∧ recRun fd1s.focal[bandFd 0] = true) ∧ bandBlind (0) fd1s = false ∧ fd1s.bands[0].blind = none ∧ fd1s.bands[0].owed = false ∧ getF (F.velBandJoined 0) fd1s = 0 ∧ getF F.corVcfgLag fd1s < fd1s.bands[0].xs.length ∧ getF (F.velBandState 0) fd1s = 0 := by decide +kernel

end T41a

namespace T41b

def rowW (_r _k : Nat) : List Word := [100]
def rowsD (k : Nat) : List RowDone := (List.range 50).map fun r => ⟨r, rowW r k, false⟩
def xsD (_k : Nat) : List (List Word) := []
def kept (s : State) : State := modFd 1 (fun e => { e with row := 50, sent := [], kept0 := 0x80000190 }) (modFd 0 (fun e => { e with row := 50, sent := [], kept0 := 0x98000190, pend := some 7 }) s)
def bnd : State := kept (setF (F.fpdStateLineSlot 0) 400 (setF (F.fpdStateRun 1) 1 (setF (F.fpdStateRun 0) 1 { a with
  grid := { a.grid with lastEdge := some 0, stamps := [6400000, 6300000, 6200000, 6100000, 6000000, 5900000] }
  corr := { a.corr with dies := a.corr.dies.map (fun e => { e with rows := rowsD 1 }), vcfg := some (0x13880000 + 2^6, 100), waiting := [modelRec .zt8 [w32 (0*2^29 + 5*2^23 + 3*2^12 + 1), 1,2,3,4] ] }
  bands := a.bands.map fun e => { e with xs := [(xsD 0, 400), (xsD 0, 400)], laps := List.replicate 64 (latchLap 30000 a).1 } })))
def stop0 : State := setF (F.velBandState 9) 0 (modFd 0 (fun e => { e with kept0 := 0x18000190 }) bnd)
def hold : State := setF (F.velBandState 0) 1 (setF (F.velBandShiftHoldLines 0) 3 (setF (F.velBandState 9) 1 (setF (F.velBandShiftHoldLines 9) 64 bnd)))

theorem test_hyp_LineSlotTakesUp :
    working stop0 = true ∧ atBoundary stop0 = true ∧ stop0.grid.lastEdge.isSome = true ∧ (∀ (p : Bool), stop0.mode ≠ Mode.entering p) ∧ (∀ (d : Fin 2), stop0.focal[d].sent = []) ∧ pacing 0 stop0 = true ∧ fdUp 0 stop0 = true ∧ recRun stop0.focal[0] = false := by decide +kernel

theorem test_hyp_LineSlotTakesUp_2 :
    working hold = true ∧ atBoundary hold = true ∧ hold.grid.lastEdge.isSome = true ∧ (∀ (p : Bool), hold.mode ≠ Mode.entering p) ∧ (∀ (d : Fin 2), hold.focal[d].sent = []) ∧
      (0 ∈ bandsOf hold.opt ∧ (pacing (bandFd 0) hold = true ∧ fdUp (bandFd 0) hold = true ∧ recRun hold.focal[bandFd 0] = true) ∧ bandBlind (0) hold = false ∧ hold.bands[0].blind = none ∧ hold.bands[0].owed = false ∧ getF (F.velBandJoined 0) hold = 0 ∧ getF F.corVcfgLag hold < hold.bands[0].xs.length ∧ getF (F.velBandState 0) hold = 1 ∧ getF (F.velBandShiftHoldLines 0) hold < 64) ∧
      (9 ∈ bandsOf hold.opt ∧ (pacing (bandFd 9) hold = true ∧ fdUp (bandFd 9) hold = true ∧ recRun hold.focal[bandFd 9] = true) ∧ bandBlind (9) hold = false ∧ hold.bands[9].blind = none ∧ hold.bands[9].owed = false ∧ getF (F.velBandJoined 9) hold = 0 ∧ getF F.corVcfgLag hold < hold.bands[9].xs.length ∧ getF (F.velBandState 9) hold = 1 ∧ 64 ≤ getF (F.velBandShiftHoldLines 9) hold) := by decide +kernel

end T41b

namespace T41c

def rowW (_r _k : Nat) : List Word := [100]
def rowsD (k : Nat) : List RowDone := (List.range 50).map fun r => ⟨r, rowW r k, false⟩
def xsD (_k : Nat) : List (List Word) := []
def kept (s : State) : State := modFd 1 (fun e => { e with row := 50, sent := [], kept0 := 0x80000190 }) (modFd 0 (fun e => { e with row := 50, sent := [], kept0 := 0x98000190, pend := some 7 }) s)
def bnd : State := kept (setF (F.fpdStateLineSlot 0) 400 (setF (F.fpdStateRun 1) 1 (setF (F.fpdStateRun 0) 1 { a with
  grid := { a.grid with lastEdge := some 0, stamps := [6400000, 6300000, 6200000, 6100000, 6000000, 5900000] }
  corr := { a.corr with dies := a.corr.dies.map (fun e => { e with rows := rowsD 1 }), vcfg := some (0x13880000 + 2^6, 100), waiting := [modelRec .zt8 [w32 (0*2^29 + 5*2^23 + 3*2^12 + 1), 1,2,3,4] ] }
  bands := a.bands.map fun e => { e with xs := [(xsD 0, 400), (xsD 0, 400)], laps := List.replicate 64 (latchLap 30000 a).1 } })))
def blind (x : Option Nat) : State := { bnd with bands := (bnd.bands.map fun e => { e with blind := x }), boot := { bnd.boot with engMissing := [0] } }
def st0 : State := blind (some 3)

theorem test_hyp_LineSlotTakesUp :
    working st0 = true ∧ atBoundary st0 = true ∧ st0.grid.lastEdge.isSome = true ∧ (∀ (p : Bool), st0.mode ≠ Mode.entering p) ∧ (∀ (d : Fin 2), st0.focal[d].sent = []) ∧ 0 ∈ bandsOf st0.opt ∧ bandBlind (0) st0 = true ∧ st0.bands[0].blind = some 3 ∧ (3 / blindStep st0).floor < (↑(3 + 1) / blindStep st0).floor ∧ dieUp (asmDie st0.opt) st0 = true ∧ st0.bands[0].done = [] := by decide +kernel

end T41c

namespace T41d

def rowW (_r _k : Nat) : List Word := [100]
def rowsD (k : Nat) : List RowDone := (List.range 50).map fun r => ⟨r, rowW r k, false⟩
def xsD (_k : Nat) : List (List Word) := []
def kept (s : State) : State := modFd 1 (fun e => { e with row := 50, sent := [], kept0 := 0x80000190 }) (modFd 0 (fun e => { e with row := 50, sent := [], kept0 := 0x98000190, pend := some 7 }) s)
def bnd : State := kept (setF (F.fpdStateLineSlot 0) 400 (setF (F.fpdStateRun 1) 1 (setF (F.fpdStateRun 0) 1 { a with
  grid := { a.grid with lastEdge := some 0, stamps := [6400000, 6300000, 6200000, 6100000, 6000000, 5900000] }
  corr := { a.corr with dies := a.corr.dies.map (fun e => { e with rows := rowsD 1 }), vcfg := some (0x13880000 + 2^6, 100), waiting := [modelRec .zt8 [w32 (0*2^29 + 5*2^23 + 3*2^12 + 1), 1,2,3,4] ] }
  bands := a.bands.map fun e => { e with xs := [(xsD 0, 400), (xsD 0, 400)], laps := List.replicate 64 (latchLap 30000 a).1 } })))
def lnx (n : Nat) : BLine := { n := n, warm := false, blind := false, vel := 30000, view := 6000000, bound := 7000000, pix := List.replicate 256 0 }
def don0 : State := modBand 0 (fun e => { e with done := [lnx 3] }) bnd

theorem test_hyp_LineSlotTakesUp :
    working don0 = true ∧ atBoundary don0 = true ∧ don0.grid.lastEdge.isSome = true ∧ (∀ (p : Bool), don0.mode ≠ Mode.entering p) ∧ (∀ (d : Fin 2), don0.focal[d].sent = []) ∧ dieUp (asmDie don0.opt) don0 = true ∧ (∃ b ∈ bandsOf don0.opt, don0.bands[b].done ≠ []) := by decide +kernel

end T41d

namespace T39

def bnd : State := modFd 1 (fun e => { e with row := 50 }) (modFd 0 (fun e => { e with row := 50 }) (setF (F.fpdStateRun 1) 1 (setF (F.fpdStateRun 0) 1 { a with grid := { a.grid with lastEdge := some 0, stamps := [1,2] } })))
def fw : FusedWait := { num := 5, line := 3, stamp := 6000, bands := List.replicate 16 none, head := [], thermal := [], since := 0, late := [] }
def fw6 : FusedWait := { fw with num := 6 }
def edge : State := { bnd with grid := { bnd.grid with edge := some 700000 }, fused := { bnd.fused with waiting := [fw, fw6], ring := [⟨1, [], true⟩] }, corr := { bnd.corr with grid := some 0x20028000 }, engines := bnd.engines.map fun e => { e with pend := some ⟨⟨1,2,3,4⟩, 16⟩, fade := some ⟨⟨1,1,0,0⟩, 16, 3⟩ } }
def st0 : Swap := (⟨⟨1,2,3,4⟩, 16⟩ : Swap)

theorem test_hyp_LineSlotsAndFusedLines :
    working edge = true ∧ edge.grid.edge = some 700000 ∧
      edge.fused.waiting = [fw] ++ [fw6] ∧
      edge.corr.grid = some 537034752#32 ∧
      0 ∈ bandsOf edge.opt ∧
      (0 < engCount edge.opt ∧ edge.engines[0].pend = some st0) := by decide +kernel

end T39

namespace T40

def big (s : State) : State := { s with periph := 20000000000 }
def snr (s : State) : State := (s.setWord (F.lumSCfg2 0 2) (w32 (2*2^30 + 5*2^15))).setWord (F.lumSCfg3 0 2) (w32 (1000*2^16))
def litH (s : State) : State := modStr 2 (fun e => { e with lit := (List.range 10).map fun i => hourCycles + i }) s
def st0 : State := big (snr loopS)
def st2 : State := big (snr loopF)
def st4 : State := litH loopS

theorem test_hyp_LampLoops :
    (clocked st0 = true ∧ adUp (strDie 2) st0 = true ∧
      (bits (strCfg 2 2 st0) 31 30 ≠ 0 ∧ st0.lum[strDie 2].strs[strIdx 2].loopAt + secondCycles ≤ st0.periph ∧ (meanRat (st0.lum[strDie 2].strs[strIdx 2].sens.map fun (x : Int) => (x : Rat)) ≠ 0)) ∧
      (bits (strCfg 2 0 st0) 23 18 ≠ 63 ∧ st0.lum[strDie 2].strs[strIdx 2].thermOk + secondCycles ≤ st0.periph)) ∧
    (clocked st2 = true ∧ adUp (strDie 2) st2 = true ∧ bits (strCfg 2 2 st2) 31 30 ≠ 0 ∧ st2.lum[strDie 2].strs[strIdx 2].loopAt + secondCycles ≤ st2.periph ∧ (meanRat (st2.lum[strDie 2].strs[strIdx 2].sens.map fun (x : Int) => (x : Rat)) = 0)) ∧
    (clocked st4 = true ∧ adUp (strDie 2) st4 = true ∧ nvsWorks st4 = true ∧ hourCycles ≤ nth 0 st4.lum[strDie 2].strs[strIdx 2].lit 0 ∧ (∀ c ∈ foundIn (resolve 0 (1152 + 10 * 2 + 0) st4.nvs), c.type = 1)) := by decide +kernel

end T40

namespace T42

def at1 (p : Nat) (s : State) : State := { (modLum 0 (fun e => { e with period := some (20000000000 - p) }) (setF (F.lumDieStateBits 0) 4 s)) with periph := 20000000000 }
def winS : State := at1 100 (setF (dutyFld 2 3) 0xFFFF (setF (F.lumSSetDuty 0 2) 30000 lit))
def shS : State := (at1 5 (setF (dutyFld 2 3) 20000 (setF (F.lumSSetDuty 0 2) 3000 lit))).setWord (F.lumSCfg0 0 2) (strCfg 2 0 lit ||| w32 (2^24))

theorem test_hyp_LampFaultsAndTests :
    (clocked winS = true ∧
      (testWindow 2 3 winS = true ∧
        8000 < 8001 ∧
        1000 ≤ 8001 ∧
        (1000 ≤ 8000 ∧ 8000 ≤ 8000) ∧
        (999 < 1000 ∧ 50 ≤ 50)) ∧
      (strRunning 2 winS = true ∧ (∃ i < 10, lampLit 2 i winS = true))) ∧
    (clocked shS = true ∧ strRunning 2 shS = true ∧ litShort 2 3 shS = true ∧ stretchRoom 2 shS = true ∧ bypassHeld 2 (3) shS = false ∧ (∀ (c : ℕ), assoc shS.lum[strDie 2].tests[strIdx 2].stretchAt 3 = some c → c + secondCycles ≤ shS.periph) ∧ (∃ p, litPhase 2 shS = some p ∧ p ≤ litCycles 2 (3) shS)) := by decide +kernel

end T42

end Sys2Proof.Tests
end

section
/-!
SUPPORT. Proofs of the scope statements: every command keeps the memory in its canonical form (O59).
A frame lemma for each operation that leaves memory alone, then the operations that write it, then every step.
-/

namespace Sys2Proof.Machine

/-! ### What leaves memory as it was: folds and answers -/

/-- A choice between two states, each with the memory of its branch. -/
@[simp] theorem mem_ite {c : Prop} [Decidable c] (a b : State) : (if c then a else b).mem = if c then a.mem else b.mem :=
  apply_ite State.mem c a b

/-- What every step of a fold leaves as it was, the fold leaves as it was. -/
theorem foldl_keeps {σ α γ : Type} (f : σ → γ) {g : σ → α → σ} (h : ∀ s x, f (g s x) = f s) (l : List α) (s : σ) :
    f (l.foldl g s) = f s := by
  induction l generalizing s with
  | nil => rfl
  | cons x t ih => rw [List.foldl_cons, ih, h]

@[simp] theorem foldl_mem {α : Type} {g : State → α → State} (h : ∀ s x, (g s x).mem = s.mem) (l : List α) (s : State) :
    (l.foldl g s).mem = s.mem := foldl_keeps State.mem h l s

/-- An answer that, where it is a next state, leaves the memory of `s` as it was. -/
def leavesMem (s : State) (o : Host.Outcome State Fault Refusal) : Prop := ∀ t, o = .next t → t.mem = s.mem

@[simp] theorem leavesMem_next (s t : State) : leavesMem s (.next t) ↔ t.mem = s.mem := by
  simp [leavesMem]

@[simp] theorem leavesMem_refused (s : State) (r : Refusal) : leavesMem s (.refused r) := by
  simp [leavesMem]

@[simp] theorem leavesMem_ite {c : Prop} [Decidable c] (s : State) (a b : Host.Outcome State Fault Refusal) :
    leavesMem s (if c then a else b) ↔ (c → leavesMem s a) ∧ (¬ c → leavesMem s b) := by
  split <;> simp [*]

@[simp] theorem raiseLim_mem (code kind index detail : Nat) (s : State) : (raiseLim code kind index detail s).mem = s.mem := by
  unfold raiseLim; split <;> rfl

@[simp] theorem takeExc_mem (u : UnitId) (c : Nat) (wide : Bool) (s : State) : (takeExc u c wide s).mem = s.mem := by
  unfold takeExc
  split
  · rfl
  · simp only; split <;> simp

@[simp] theorem issue_mem (u : UnitId) (c : Cls) (wide : Bool) (rs : List RegRef) (bad : Bool) {act : State → State}
    (h : ∀ t, (act t).mem = t.mem) (s : State) : (issue u c wide rs bad act s).mem = s.mem := by
  simp [issue, h]

@[simp] theorem mem_ite_fst {α : Type} {c : Prop} [Decidable c] (a b : State × α) :
    (if c then a else b).1.mem = if c then a.1.mem else b.1.mem := by
  split <;> rfl

/-! ### Memory under the operations of Ops -/

@[simp] theorem finishTag_mem (u : UnitId) (t : Tag) (code : Nat) (s : State) : (finishTag u t code s).mem = s.mem := by
  simp [finishTag]

@[simp] theorem returnExc_mem (u : UnitId) (s : State) : (returnExc u s).mem = s.mem := by simp [returnExc]

/-! ### Memory under the operations of Operands -/

@[simp] theorem setS_mem (u : UnitId) (n : Reg) (w : Word) (s : State) : (setS u n w s).mem = s.mem := by simp [setS]

@[simp] theorem setPair_mem (u : UnitId) (n : Reg) (x : BitVec 64) (s : State) : (setPair u n x s).mem = s.mem := by
  simp [setPair]

/-! ### Memory under the operations of Scalar -/

@[simp] theorem scalarOp_mem (u : UnitId) (d a : Reg) (b : Src) (f : Word → Word → Word) (s : State) :
    (scalarOp u d a b f s).mem = s.mem := by simp [scalarOp]

@[simp] theorem pairOp_mem (u : UnitId) (d a : Reg) (b : Src) (f : BitVec 64 → BitVec 64 → BitVec 64) (s : State) :
    (pairOp u d a b f s).mem = s.mem := by simp [pairOp]

theorem execAdd_mem (u : UnitId) (d a : Reg) (b : Src) (s : State) : leavesMem s (execAdd u d a b s) := by simp [execAdd]

theorem execSub_mem (u : UnitId) (d a : Reg) (b : Src) (s : State) : leavesMem s (execSub u d a b s) := by simp [execSub]

theorem execAnd_mem (u : UnitId) (d a : Reg) (b : Src) (s : State) : leavesMem s (execAnd u d a b s) := by simp [execAnd]

theorem execOr_mem (u : UnitId) (d a : Reg) (b : Src) (s : State) : leavesMem s (execOr u d a b s) := by simp [execOr]

theorem execXor_mem (u : UnitId) (d a : Reg) (b : Src) (s : State) : leavesMem s (execXor u d a b s) := by simp [execXor]

theorem execShl_mem (u : UnitId) (d a : Reg) (b : Src) (s : State) : leavesMem s (execShl u d a b s) := by simp [execShl]

theorem execShr_mem (u : UnitId) (d a : Reg) (b : Src) (s : State) : leavesMem s (execShr u d a b s) := by simp [execShr]

theorem execSra_mem (u : UnitId) (d a : Reg) (b : Src) (s : State) : leavesMem s (execSra u d a b s) := by simp [execSra]

theorem execMul_mem (u : UnitId) (d a : Reg) (b : Src) (s : State) : leavesMem s (execMul u d a b s) := by simp [execMul]

theorem execMulh_mem (u : UnitId) (d a : Reg) (b : Src) (s : State) : leavesMem s (execMulh u d a b s) := by
  simp [execMulh]

theorem execMin_mem (u : UnitId) (d a : Reg) (b : Src) (s : State) : leavesMem s (execMin u d a b s) := by simp [execMin]

theorem execMax_mem (u : UnitId) (d a : Reg) (b : Src) (s : State) : leavesMem s (execMax u d a b s) := by simp [execMax]

theorem execSlt_mem (u : UnitId) (d a : Reg) (b : Src) (s : State) : leavesMem s (execSlt u d a b s) := by simp [execSlt]

theorem execSltu_mem (u : UnitId) (d a : Reg) (b : Src) (s : State) : leavesMem s (execSltu u d a b s) := by
  simp [execSltu]

theorem execMov_mem (u : UnitId) (d : Reg) (b : Src) (s : State) : leavesMem s (execMov u d b s) := by simp [execMov]

theorem execAddD_mem (u : UnitId) (d a : Reg) (b : Src) (s : State) : leavesMem s (execAddD u d a b s) := by
  simp [execAddD]

theorem execSubD_mem (u : UnitId) (d a : Reg) (b : Src) (s : State) : leavesMem s (execSubD u d a b s) := by
  simp [execSubD]

theorem execMovD_mem (u : UnitId) (d : Reg) (b : Src) (s : State) : leavesMem s (execMovD u d b s) := by simp [execMovD]

/-! ### Memory under the operations of Vector -/

@[simp] theorem laneOp_mem (u : UnitId) (c : Cls) (d a : Reg) (b : VSrc) (pg : Option Pred)
    (f : Word → Word → Word → Word) (s : State) : (laneOp u c d a b pg f s).mem = s.mem := by
  unfold laneOp
  exact issue_mem _ _ _ _ _ (fun t => by simp) s

@[simp] theorem laneOp1_mem (u : UnitId) (d a : Reg) (pg : Option Pred) (f : Word → Word) (s : State) :
    (laneOp1 u d a pg f s).mem = s.mem := by
  unfold laneOp1
  exact issue_mem _ _ _ _ _ (fun t => by simp) s

@[simp] theorem compareOp_mem (u : UnitId) (c : Cond) (d : Pred) (a : Reg) (b : VSrc) (pg : Option Pred) (f : Word → Word)
    (s : State) : (compareOp u c d a b pg f s).mem = s.mem := by
  unfold compareOp
  exact issue_mem _ _ _ _ _ (fun t => by simp) s

theorem execVadd_mem (u : UnitId) (d a : Reg) (b : VSrc) (pg : Option Pred) (s : State) : leavesMem s
    (execVadd u d a b pg s) := by simp [execVadd]

theorem execVsub_mem (u : UnitId) (d a : Reg) (b : VSrc) (pg : Option Pred) (s : State) : leavesMem s
    (execVsub u d a b pg s) := by simp [execVsub]

theorem execVand_mem (u : UnitId) (d a : Reg) (b : VSrc) (pg : Option Pred) (s : State) : leavesMem s
    (execVand u d a b pg s) := by simp [execVand]

theorem execVor_mem (u : UnitId) (d a : Reg) (b : VSrc) (pg : Option Pred) (s : State) : leavesMem s
    (execVor u d a b pg s) := by
  simp [execVor]

theorem execVxor_mem (u : UnitId) (d a : Reg) (b : VSrc) (pg : Option Pred) (s : State) : leavesMem s
    (execVxor u d a b pg s) := by simp [execVxor]

theorem execVshl_mem (u : UnitId) (d a : Reg) (b : VSrc) (pg : Option Pred) (s : State) : leavesMem s
    (execVshl u d a b pg s) := by simp [execVshl]

theorem execVshr_mem (u : UnitId) (d a : Reg) (b : VSrc) (pg : Option Pred) (s : State) : leavesMem s
    (execVshr u d a b pg s) := by simp [execVshr]

theorem execVsra_mem (u : UnitId) (d a : Reg) (b : VSrc) (pg : Option Pred) (s : State) : leavesMem s
    (execVsra u d a b pg s) := by simp [execVsra]

theorem execVmin_mem (u : UnitId) (d a : Reg) (b : VSrc) (pg : Option Pred) (s : State) : leavesMem s
    (execVmin u d a b pg s) := by simp [execVmin]

theorem execVmax_mem (u : UnitId) (d a : Reg) (b : VSrc) (pg : Option Pred) (s : State) : leavesMem s
    (execVmax u d a b pg s) := by simp [execVmax]

theorem execVabs_mem (u : UnitId) (d a : Reg) (pg : Option Pred) (s : State) : leavesMem s (execVabs u d a pg s) := by
  simp [execVabs]

theorem execVmov_mem (u : UnitId) (d : Reg) (b : VSrc) (pg : Option Pred) (s : State) : leavesMem s
    (execVmov u d b pg s) := by
  simp [execVmov]

theorem execVval_mem (u : UnitId) (d a : Reg) (pg : Option Pred) (s : State) : leavesMem s (execVval u d a pg s) := by
  simp [execVval]

theorem execVext_mem (u : UnitId) (d a : Reg) (b : Src) (pg : Option Pred) (s : State) : leavesMem s
    (execVext u d a b pg s) := by
  exact (leavesMem_next ..).2 (issue_mem _ _ _ _ _ (fun t => by simp) s)

theorem execVsum_mem (u : UnitId) (d a : Reg) (pg : Option Pred) (s : State) : leavesMem s (execVsum u d a pg s) := by
  simp [execVsum]

theorem execVcmp_mem (u : UnitId) (c : Cond) (d : Pred) (a : Reg) (b : VSrc) (pg : Option Pred) (s : State) : leavesMem s
    (execVcmp u c d a b pg s) := by simp [execVcmp]

theorem execVcmpw_mem (u : UnitId) (c : Cond) (d : Pred) (a : Reg) (b : VSrc) (pg : Option Pred) (s : State) : leavesMem s
    (execVcmpw u c d a b pg s) := by simp [execVcmpw]

theorem execVflags_mem (u : UnitId) (d : Pred) (a b : Reg) (s : State) : leavesMem s (execVflags u d a b s) := by
  exact (leavesMem_next ..).2 (issue_mem _ _ _ _ _ (fun t => by simp) s)

theorem execPcount_mem (u : UnitId) (d : Reg) (a : Pred) (s : State) : leavesMem s (execPcount u d a s) := by
  simp [execPcount]

theorem execVmacH_mem (u : UnitId) (d a : Reg) (b : VSrc) (pg : Option Pred) (s : State) : leavesMem s
    (execVmacH u d a b pg s) := by simp [execVmacH]

theorem execVmacHs_mem (u : UnitId) (d a : Reg) (b : VSrc) (pg : Option Pred) (s : State) : leavesMem s
    (execVmacHs u d a b pg s) := by simp [execVmacHs]

theorem execVmacW_mem (u : UnitId) (d a : Reg) (b : VSrc) (pg : Option Pred) (s : State) : leavesMem s
    (execVmacW u d a b pg s) := by simp [execVmacW]

theorem execVmulW_mem (u : UnitId) (d a : Reg) (b : VSrc) (pg : Option Pred) (s : State) : leavesMem s
    (execVmulW u d a b pg s) := by simp [execVmulW]

theorem execVmulhW_mem (u : UnitId) (d a : Reg) (b : VSrc) (pg : Option Pred) (s : State) : leavesMem s
    (execVmulhW u d a b pg s) := by simp [execVmulhW]

theorem execVdotH_mem (u : UnitId) (d a : Reg) (b : VSrc) (pg : Option Pred) (s : State) : leavesMem s
    (execVdotH u d a b pg s) := by simp [execVdotH]

/-! ### Memory under the operations of LoadStore -/

@[simp] theorem access_mem (u : UnitId) (c : Cls) (size align : Nat) (m : Addr) (t : TagSel) (rs : List RegRef)
    (kind : State → MemKind) (s : State) : (access u c size align m t rs kind s).mem = s.mem := by
  unfold access
  refine issue_mem _ _ _ _ _ (fun t => ?_) s
  split
  · rfl
  · simp
  · split <;> simp

@[simp] theorem loadOp_mem (u : UnitId) (n : Nat) (signed : Bool) (d : Reg) (m : Addr) (t : TagSel) (s : State) :
    (loadOp u n signed d m t s).mem = s.mem := by simp [loadOp]

@[simp] theorem storeOp_mem (u : UnitId) (n : Nat) (d : Reg) (m : Addr) (t : TagSel) (s : State) :
    (storeOp u n d m t s).mem = s.mem := by simp [storeOp]

theorem execLoad_mem (u : UnitId) (d : Reg) (m : Addr) (t : TagSel) (s : State) : leavesMem s (execLoad u d m t s) := by
  simp [execLoad]

theorem execLoadD_mem (u : UnitId) (d : Reg) (m : Addr) (t : TagSel) (s : State) : leavesMem s (execLoadD u d m t s) := by
  simp [execLoadD]

theorem execLoadH_mem (u : UnitId) (d : Reg) (m : Addr) (t : TagSel) (s : State) : leavesMem s (execLoadH u d m t s) := by
  simp [execLoadH]

theorem execLoadHu_mem (u : UnitId) (d : Reg) (m : Addr) (t : TagSel) (s : State) : leavesMem s (execLoadHu u d m t s) := by
  simp [execLoadHu]

theorem execLoadB_mem (u : UnitId) (d : Reg) (m : Addr) (t : TagSel) (s : State) : leavesMem s (execLoadB u d m t s) := by
  simp [execLoadB]

theorem execLoadBu_mem (u : UnitId) (d : Reg) (m : Addr) (t : TagSel) (s : State) : leavesMem s (execLoadBu u d m t s) := by
  simp [execLoadBu]

theorem execStore_mem (u : UnitId) (d : Reg) (m : Addr) (t : TagSel) (s : State) : leavesMem s (execStore u d m t s) := by
  simp [execStore]

theorem execStoreD_mem (u : UnitId) (d : Reg) (m : Addr) (t : TagSel) (s : State) : leavesMem s (execStoreD u d m t s) := by
  simp [execStoreD]

theorem execStoreH_mem (u : UnitId) (d : Reg) (m : Addr) (t : TagSel) (s : State) : leavesMem s (execStoreH u d m t s) := by
  simp [execStoreH]

theorem execStoreB_mem (u : UnitId) (d : Reg) (m : Addr) (t : TagSel) (s : State) : leavesMem s (execStoreB u d m t s) := by
  simp [execStoreB]

theorem execVload_mem (u : UnitId) (d : Reg) (m : Addr) (t : TagSel) (s : State) : leavesMem s (execVload u d m t s) := by
  simp [execVload]

theorem execVstore_mem (u : UnitId) (d : Reg) (m : Addr) (t : TagSel) (s : State) : leavesMem s (execVstore u d m t s) := by
  simp [execVstore]

@[simp] theorem burstFail_mem (a : Nat) (s : State) : (burstFail a s).mem = s.mem := by simp [burstFail]

theorem execTagTimeout_mem (u : UnitId) (t : Tag) (s : State) : leavesMem s (execTagTimeout u t s) := by
  simp [execTagTimeout]

/-! ### Memory under the operations of Stream -/

@[simp] theorem streamOp_mem (u : UnitId) (out : Bool) (q : StreamOp) (s : State) : (streamOp u out q s).mem = s.mem := by
  unfold streamOp
  refine issue_mem _ _ _ _ _ (fun t => ?_) s
  split
  · simp
  · rfl
  · simp

theorem execStreamIn_mem (u : UnitId) (q : StreamOp) (s : State) : leavesMem s (execStreamIn u q s) := by
  simp [execStreamIn]

theorem execStreamOut_mem (u : UnitId) (q : StreamOp) (s : State) : leavesMem s (execStreamOut u q s) := by
  simp [execStreamOut]

@[simp] theorem refuseRecord_mem (f : Fld) (code kind index ep : Nat) (s : State) :
    (refuseRecord f code kind index ep s).1.mem = s.mem := by rfl

theorem execTransferComplete_mem (u : UnitId) (t : Tag) (s : State) : leavesMem s (execTransferComplete u t s) := by
  unfold execTransferComplete; split <;> simp

/-! ### Memory under the operations of Status -/

@[simp] theorem parityCheck_mem (a : Nat) (s : State) : (parityCheck a s).mem = s.mem := by simp [parityCheck]

@[simp] theorem readStatus_mem (reader a : Nat) (s : State) : (readStatus reader a s).1.mem = s.mem := by
  unfold readStatus
  dsimp only
  split
  · simp
  · split <;> simp

@[simp] theorem clearStatus_mem (a : Nat) (m : Word) (s : State) : (clearStatus a m s).mem = s.mem := by simp [clearStatus]

/-! ### Memory under the operations of Control -/

theorem execWait_mem (u : UnitId) (w : WaitSel) (s : State) : leavesMem s (execWait u w s) := by simp [execWait]

theorem execFence_mem (u : UnitId) (s : State) : leavesMem s (execFence u s) := by
  exact (leavesMem_next ..).2 (issue_mem _ _ _ _ _ (fun t => by simp) s)

theorem execTagstat_mem (u : UnitId) (d : Reg) (t : Tag) (s : State) : leavesMem s (execTagstat u d t s) := by
  simp [execTagstat]

@[simp] theorem branchOp_mem (u : UnitId) (a : Reg) (b : BSrc) (g : Target) (c : Word → Word → Bool) (s : State) :
    (branchOp u a b g c s).mem = s.mem := by simp [branchOp]

theorem execBeq_mem (u : UnitId) (a : Reg) (b : BSrc) (g : Target) (s : State) : leavesMem s (execBeq u a b g s) := by
  simp [execBeq]

theorem execBne_mem (u : UnitId) (a : Reg) (b : BSrc) (g : Target) (s : State) : leavesMem s (execBne u a b g s) := by
  simp [execBne]

theorem execBlt_mem (u : UnitId) (a : Reg) (b : BSrc) (g : Target) (s : State) : leavesMem s (execBlt u a b g s) := by
  simp [execBlt]

theorem execBge_mem (u : UnitId) (a : Reg) (b : BSrc) (g : Target) (s : State) : leavesMem s (execBge u a b g s) := by
  simp [execBge]

theorem execBltu_mem (u : UnitId) (a : Reg) (b : BSrc) (g : Target) (s : State) : leavesMem s (execBltu u a b g s) := by
  simp [execBltu]

theorem execBgeu_mem (u : UnitId) (a : Reg) (b : BSrc) (g : Target) (s : State) : leavesMem s (execBgeu u a b g s) := by
  simp [execBgeu]

theorem execJmp_mem (u : UnitId) (g : Target) (s : State) : leavesMem s (execJmp u g s) := by
  unfold execJmp
  split
  · exact (leavesMem_next ..).2 (issue_mem _ _ _ _ _ (fun t => by simp) s)
  · simp

theorem execCall_mem (u : UnitId) (g : Target) (s : State) : leavesMem s (execCall u g s) := by simp [execCall]

@[simp] theorem jumpReg_mem (u : UnitId) (a : Reg) (s : State) : (jumpReg u a s).mem = s.mem := by
  unfold jumpReg
  exact issue_mem _ _ _ _ _ (fun t => by simp) s

theorem execJmpr_mem (u : UnitId) (a : Reg) (s : State) : leavesMem s (execJmpr u a s) := by simp [execJmpr]

theorem execRet_mem (u : UnitId) (s : State) : leavesMem s (execRet u s) := by simp [execRet]

theorem execRetx_mem (u : UnitId) (s : State) : leavesMem s (execRetx u s) := by simp [execRetx]

theorem execLoop_mem (u : UnitId) (a : Reg) (g : Target) (s : State) : leavesMem s (execLoop u a g s) := by simp [execLoop]

theorem execStat_mem (u : UnitId) (d a : Reg) (k : Option Word) (s : State) : leavesMem s (execStat u d a k s) := by
  simp [execStat]

theorem execEvtClr_mem (u : UnitId) (m a : Reg) (k : Option Word) (s : State) : leavesMem s (execEvtClr u m a k s) := by
  simp [execEvtClr]

/-! ### Memory under the operations of Event -/

@[simp] theorem eventLost_mem (u : UnitId) (s : State) : (eventLost u s).mem = s.mem := by simp [eventLost]

@[simp] theorem eventOp_mem (u : UnitId) (wide : Bool) (rs : List RegRef) (ok : State → Bool) (d : State → Nat)
    {act : State → State} (hact : ∀ t, (act t).mem = t.mem) (s : State) : (eventOp u wide rs ok d act s).mem =
    s.mem := by simp [eventOp, hact]

@[simp] theorem wearOut_mem (b kind index : Nat) (s : State) : (wearOut b kind index s).mem = s.mem := by simp [wearOut]

@[simp] theorem takeFree_mem (s : State) : (takeFree s).2.mem = s.mem := by rfl

@[simp] theorem loseMsg_mem (d : Fin 2) (m : Msg) (s : State) : (loseMsg d m s).mem = s.mem := by
  unfold loseMsg; split <;> simp

@[simp] theorem sendMsg_mem (d : Fin 2) (m : Msg) (s : State) : (sendMsg d m s).mem = s.mem := by rfl

/-! ### Memory under the operations of Cells -/

@[simp] theorem putCell_mem (fwd : Bool) (p : Fin 2) (kind : Nat) (c : Cell) (s : State) : (putCell fwd p kind c s).mem =
    s.mem := by simp [putCell]

@[simp] theorem originate_mem (links : List (Fin 2)) (kind hops group : Nat) (payload : List Byte) (s : State) :
    (originate links kind hops group payload s).mem = s.mem := by simp [originate]

@[simp] theorem idleCell_mem (p : Fin 2) (s : State) : (idleCell p s).mem = s.mem := by simp [idleCell]

@[simp] theorem syncCells_mem (e0 : Nat) (s : State) : (syncCells e0 s).mem = s.mem := by simp [syncCells]

@[simp] theorem cutLsync_mem (s : State) : (cutLsync s).mem = s.mem := by rfl

@[simp] theorem driveLsync_mem (s : State) : (driveLsync s).mem = s.mem := by rfl

@[simp] theorem lsyncPulse_mem (c : Nat) (s : State) : (lsyncPulse c s).mem = s.mem := by simp [lsyncPulse]

@[simp] theorem dropPulse_mem (c : Nat) (s : State) : (dropPulse c s).mem = s.mem := by rfl

/-! ### Memory under the operations of Focal -/

@[simp] theorem useBand_mem (d : Fin 2) (b : Nat) (s : State) : (useBand d b s).mem = s.mem := by simp [useBand]

@[simp] theorem takeBand_mem (d : Fin 2) (s : State) : (takeBand d s).mem = s.mem := by simp [takeBand]

@[simp] theorem takeShutter_mem (d : Fin 2) (s : State) : (takeShutter d s).mem = s.mem := by rfl

@[simp] theorem takeAtOnce_mem (d : Fin 2) (s : State) : (takeAtOnce d s).mem = s.mem := by simp [takeAtOnce]

@[simp] theorem setBias_mem (d : Fin 2) (on : Bool) (s : State) : (setBias d on s).mem = s.mem := by simp [setBias]

@[simp] theorem setLowBias_mem (d : Fin 2) (s : State) : (setLowBias d s).mem = s.mem := by simp [setLowBias]

@[simp] theorem standbyBias_mem (s : State) : (standbyBias s).mem = s.mem := by simp [standbyBias]

@[simp] theorem startLeave_mem (park : Bool) (s : State) : (startLeave park s).mem = s.mem := by rfl

@[simp] theorem startSlot_mem (d : Fin 2) (sync : Bool) (s : State) : (startSlot d sync s).mem = s.mem := by
  simp [startSlot]

@[simp] theorem stopPacer_mem (d : Fin 2) (keepBias : Bool) (s : State) : (stopPacer d keepBias s).mem = s.mem := by
  simp [stopPacer]

@[simp] theorem runRecov_mem (d : Fin 2) (ns : Nat) (s : State) : (runRecov d ns s).mem = s.mem := by rfl

@[simp] theorem pacerBoundary_mem (d : Fin 2) (other : Bool) (s : State) : (pacerBoundary d other s).mem = s.mem := by
  unfold pacerBoundary
  extract_lets was t want
  have ht : t.mem = s.mem := by rw [mem_ite, setF_mem, ite_self]
  split
  · exact ht
  · split
    · split
      · rw [stopPacer_mem, ht]
      · exact ht
    · split
      · rw [startSlot_mem, ht]
      · split
        · rw [stopPacer_mem, ht]
        · exact ht

@[simp] theorem takeLineSlot_mem (s : State) : (takeLineSlot s).mem = s.mem := by
  unfold takeLineSlot
  dsimp only
  split <;> rfl

@[simp] theorem focalBoundary_mem (s : State) : (focalBoundary s).mem = s.mem := by simp [focalBoundary]

@[simp] theorem convertRow_mem (d : Fin 2) (row : Nat) (x : List ColIn) (ampErr : Bool) (s : State) :
    (convertRow d row x ampErr s).mem = s.mem := by
  simp only [convertRow, modFd_mem, runRecov_mem, bumpBy_mem, mem_ite, raiseLim_mem, setF_mem, ite_self]

theorem execRowSlotEnd_mem (d : Fin 2) (row : Fin 50) (x : List ColIn) (ampErr : Bool) (s : State) : leavesMem s
    (execRowSlotEnd d row x ampErr s) := by simp [execRowSlotEnd]

theorem execBiasSettled_mem (d : Fin 2) (s : State) : leavesMem s (execBiasSettled d s) := by simp [execBiasSettled]

@[simp] theorem moveShutter_mem (d : Fin 2) (close : Bool) (s : State) : (moveShutter d close s).mem = s.mem := by
  unfold moveShutter
  extract_lets st same
  split
  · rfl
  · rw [bump_mem, setF_mem, takeShutter_mem]

@[simp] theorem releaseShutter_mem (d : Fin 2) (s : State) : (releaseShutter d s).mem = s.mem := by
  unfold releaseShutter
  extract_lets st
  split
  · rw [setF_mem, takeShutter_mem]
  · rfl

@[simp] theorem bothFd_mem {f : Nat → State → State} (hf : ∀ i t, (f i t).mem = t.mem) (s : State) : (bothFd f s).mem =
    s.mem := by simp [bothFd, hf]

@[simp] theorem setEdges_mem (es : List Nat) (s : State) : (setEdges es s).mem = s.mem := by rfl

@[simp] theorem ignoreEdge_mem (s : State) : (ignoreEdge s).mem = s.mem := by
  unfold ignoreEdge
  rw [raise_mem, bothFd_mem fun i t => by simp]

@[simp] theorem requestEdge_mem (c : Nat) (s : State) : (requestEdge c s).mem = s.mem := by simp [requestEdge]

@[simp] theorem ownEdge_mem (c : Nat) (s : State) : (ownEdge c s).mem = s.mem := by simp [ownEdge]

theorem execSync_mem (u : UnitId) (s : State) : leavesMem s (execSync u s) := by simp [execSync]

@[simp] theorem noteLsync_mem (s : State) : (noteLsync s).mem = s.mem := by exact bothFd_mem (fun i t => by simp) s

theorem execLsyncRise_mem (ns : Nat) (s : State) : leavesMem s (execLsyncRise ns s) := by simp [execLsyncRise]

@[simp] theorem focalSyncEdge_mem (s : State) : (focalSyncEdge s).mem = s.mem := by
  unfold focalSyncEdge
  simp only [mem_ite, startSlot_mem, stopPacer_mem, modFd_mem, runRecov_mem, ite_self]
  rw [bothFd_mem fun i t => by simp]
  simp

/-! ### Memory under the operations of CalRuns -/

@[simp] theorem endTrial_mem (pass : Bool) (s : State) : (endTrial pass s).mem = s.mem := by
  unfold endTrial; split <;> simp

@[simp] theorem calEnd_mem (i : Nat) (pass : Bool) (s : State) : (calEnd i pass s).mem = s.mem := by simp [calEnd]

@[simp] theorem calFail_mem (is : List Nat) (s : State) : (calFail is s).mem = s.mem := by simp [calFail]

@[simp] theorem sceneRestart_mem (d : Fin 2) (s : State) : (sceneRestart d s).mem = s.mem := by simp [sceneRestart]

@[simp] theorem calPacerChange_mem (d : Fin 2) (s : State) : (calPacerChange d s).mem = s.mem := by simp [calPacerChange]

@[simp] theorem pacerChanges_mem (was : State) (s : State) : (pacerChanges was s).mem = s.mem := by simp [pacerChanges]

@[simp] theorem calModelWrite_mem (d : Fin 2) (s : State) : (calModelWrite d s).mem = s.mem := by simp [calModelWrite]

@[simp] theorem calDieReset_mem (die : Nat) (s : State) : (calDieReset die s).mem = s.mem := by simp [calDieReset]

@[simp] theorem calStopAll_mem (s : State) : (calStopAll s).mem = s.mem := by simp [calStopAll]

@[simp] theorem showGaps_mem (s : State) : (showGaps s).mem = s.mem := by rfl

@[simp] theorem endShutTaint_mem (d : Fin 2) (s : State) : (endShutTaint d s).mem = s.mem := by simp [endShutTaint]

@[simp] theorem takeShutterCmd_mem (d : Fin 2) (close : Bool) (s : State) : (takeShutterCmd d close s).mem = s.mem := by
  simp [takeShutterCmd]

@[simp] theorem actMsg_mem (d : Fin 2) (m : Msg) (s : State) : (actMsg d m s).mem = s.mem := by
  unfold actMsg; split <;> simp

@[simp] theorem takeQuick_mem (d : Fin 2) (ms : List Msg) (s : State) : (takeQuick d ms s).mem = s.mem := by
  induction ms generalizing s with
  | nil => rfl
  | cons m t ih =>
    simp only [takeQuick]
    split
    · rw [ih]; split <;> simp
    · rfl

@[simp] theorem drainMsgs_mem (d : Fin 2) (s : State) : (drainMsgs d s).mem = s.mem := by simp [drainMsgs]

@[simp] theorem shutterOp_mem (u : UnitId) (b : Src) (s : State) : (shutterOp u b s).mem = s.mem := by simp [shutterOp]

theorem execShutterClose_mem (u : UnitId) (b : Src) (s : State) : leavesMem s (execShutterClose u b s) := by
  simp [execShutterClose]

theorem execShutterOpen_mem (u : UnitId) (b : Src) (s : State) : leavesMem s (execShutterOpen u b s) := by
  simp [execShutterOpen]

theorem execShutterTravelEnd_mem (d : Fin 2) (s : State) : leavesMem s (execShutterTravelEnd d s) := by
  simp [execShutterTravelEnd]

theorem execShutterReopenEnd_mem (d : Fin 2) (s : State) : leavesMem s (execShutterReopenEnd d s) := by
  simp [execShutterReopenEnd]

theorem execShutterFault_mem (d : Fin 2) (overcurrent : Bool) (s : State) : leavesMem s
    (execShutterFault d overcurrent s) := by
  simp [execShutterFault]

theorem execSubstrateSample_mem (d : Fin 2) (temp : Int) (s : State) : leavesMem s (execSubstrateSample d temp s) := by
  simp [execSubstrateSample]

theorem execBandDwellComplete_mem (d : Fin 2) (s : State) : leavesMem s (execBandDwellComplete d s) := by
  simp [execBandDwellComplete]

@[simp] theorem modCalRun_mem (i : Nat) (f : CalRun → CalRun) (s : State) : (modCalRun i f s).mem = s.mem := by
  simp [modCalRun]

@[simp] theorem calComplement_mem (i : Nat) (s : State) : (calComplement i s).mem = s.mem := by
  unfold calComplement
  simp

@[simp] theorem takeSadcTrim_mem (s : State) : (takeSadcTrim s).mem = s.mem := by unfold takeSadcTrim; split <;> simp

@[simp] theorem tryTrim_mem (s : State) : (tryTrim s).mem = s.mem := by
  unfold tryTrim
  split
  · rfl
  · split <;> simp

@[simp] theorem classADecide_mem (r : CalRun) (a b : List (Option (Int × Int))) (s : State) : (classADecide r a b s).mem =
    s.mem := by
  unfold classADecide
  dsimp only
  split
  · split <;> simp
  · split
    · split
      · split <;> simp
      · simp
    · split <;> simp

@[simp] theorem startRepeat_mem (i k : Nat) (s : State) : (startRepeat i k s).mem = s.mem := by rfl

/-! ### Memory under the operations of Correction -/

@[simp] theorem countBad_mem (s : State) : (countBad s).mem = s.mem := by rfl

@[simp] theorem writeModel_mem (r : ModelRec) (s : State) : (writeModel r s).mem = s.mem := by simp [writeModel]

@[simp] theorem applyModels_mem (s : State) : (applyModels s).mem = s.mem := by
  unfold applyModels
  dsimp only
  rw [mem_ite, countBad_mem, ite_self]
  refine foldl_mem (fun t r => ?_) _ _
  split
  · split <;> simp
  · simp

@[simp] theorem countTaintParity_mem (n : Nat) (s : State) : (countTaintParity n s).mem = s.mem := by rfl

@[simp] theorem correctRow_mem (d : Fin 2) (row : Nat) (ramp : Bool) (a b : List Word) (bad : BadWords) (s : State) :
    (correctRow d row ramp a b bad s).mem = s.mem := by
  unfold correctRow
  extract_lets up nq dtq formed cms heldAt s1 new s2 keys fail repl words marked vals plain outs sat s3 s4 s5 read new'
    s6 _ s7
  have h1 : s1.mem = s.mem := by rw [mem_ite, raiseLim_mem, setF_mem, bump_mem, ite_self]
  have h4 : s4.mem = s1.mem := by rw [mem_ite, raiseLim_mem, setF_mem, ite_self, bumpBy_mem, modCorr_mem]
  have h7 : s7.mem = s4.mem := by rw [mem_ite, raiseLim_mem, setF_mem, ite_self, bumpBy_mem, bumpBy_mem]
  rw [modCorr_mem, h7, h4, h1]

@[simp] theorem rampWords_mem (d : Fin 2) (since : Nat) (a b : List Word) (s : State) : (rampWords d since a b s).mem =
    s.mem := by simp [rampWords]

@[simp] theorem takeRow_mem (d : Fin 2) (bad : BadWords) (s : State) : (takeRow d bad s).mem = s.mem := by
  unfold takeRow
  split
  · rfl
  · dsimp only
    split <;> simp

theorem execRowSlotCorrection_mem (d : Fin 2) (row : Fin 50) (bad : List (Fin 2048)) (refs : List (Fin 4 × Fin 16))
    (s : State) : leavesMem s (execRowSlotCorrection d row bad refs s) := by unfold execRowSlotCorrection; split <;> simp

@[simp] theorem blindRecords_mem (d : Fin 2) (s : State) : (blindRecords d s).mem = s.mem := by simp [blindRecords]

@[simp] theorem takeVcfg_mem (s : State) : (takeVcfg s).mem = s.mem := by unfold takeVcfg; split <;> simp

@[simp] theorem takeGrid_mem (s : State) : (takeGrid s).mem = s.mem := by unfold takeGrid; split <;> simp

/-! ### Memory under the operations of Along -/

@[simp] theorem showSwap_mem (l : Fin 64) (s : State) : (showSwap l s).mem = s.mem := by
  unfold showSwap
  dsimp only
  split <;> simp

@[simp] theorem showPath_mem (l : Fin 64) (s : State) : (showPath l s).mem = s.mem := by simp [showPath]

@[simp] theorem requestSwap_mem (l : Fin 64) (sync : Bool) (q : Swap) (s : State) : (requestSwap l sync q s).mem =
    s.mem := by
  simp [requestSwap]

@[simp] theorem takeAlgRecord_mem (a b c d : Word) (l : Nat) (s : State) : (takeAlgRecord a b c d l s).mem = s.mem := by
  simp [takeAlgRecord]

@[simp] theorem showPresent_mem (l : Nat) (s : State) : (showPresent l s).mem = s.mem := by simp [showPresent]

@[simp] theorem zeroEngine_mem (sync : Bool) (l : Fin 64) (s : State) : (zeroEngine sync l s).mem = s.mem := by
  simp [zeroEngine]

@[simp] theorem csnDetect_mem (d : Fin 2) (k : Fin 64) (m : Nat) (s : State) : (csnDetect d k m s).mem = s.mem := by
  simp [csnDetect]

@[simp] theorem csnSample_mem (d : Fin 2) (warm : Bool) (k : Fin 64) (x : BitVec 64) (s : State) :
    (csnSample d warm k x s).mem = s.mem := by simp [csnSample]

@[simp] theorem takeCsnCfg_mem (d : Fin 2) (age : Nat) (s : State) : (takeCsnCfg d age s).mem = s.mem := by
  unfold takeCsnCfg; split <;> simp

@[simp] theorem zeroCsn_mem (d : Fin 2) (age : Nat) (s : State) : (zeroCsn d age s).mem = s.mem := by simp [zeroCsn]

@[simp] theorem takeCsnTrim_mem (d : Fin 2) (s : State) : (takeCsnTrim d s).mem = s.mem := by
  unfold takeCsnTrim; split <;> simp

@[simp] theorem csnChain_mem (d : Fin 2) (age : Nat) (x : List (BitVec 64)) (s : State) : (csnChain d age x s).1.mem =
    s.mem := by
  simp [csnChain]

/-! ### Memory under the operations of Store -/

@[simp] theorem noteConflict_mem (p k : Nat) (s : State) : (noteConflict p k s).mem = s.mem := by simp [noteConflict]

@[simp] theorem showNvs_mem (s : State) : (showNvs s).mem = s.mem := by simp [showNvs]

@[simp] theorem abandonCopy_mem (s : State) : (abandonCopy s).mem = s.mem := by unfold abandonCopy; split <;> simp

@[simp] theorem nvsInterrupt_mem (s : State) : (nvsInterrupt s).mem = s.mem := by simp [nvsInterrupt]

@[simp] theorem startCopy_mem (w : NvsWrite) (s : State) : (startCopy w s).mem = s.mem := by
  unfold startCopy
  dsimp only
  split
  · simp
  · split <;> simp

theorem execNvsWriteStart_mem (s : State) : leavesMem s (execNvsWriteStart s) := by
  unfold execNvsWriteStart; split <;> simp

theorem execNvsCopyCommit_mem (s : State) : leavesMem s (execNvsCopyCommit s) := by
  unfold execNvsCopyCommit; split <;> simp

theorem execNvsVerifyFail_mem (s : State) : leavesMem s (execNvsVerifyFail s) := by
  unfold execNvsVerifyFail; split <;> simp

@[simp] theorem putBase_mem (p k b : Nat) (s : State) : (putBase p k b s).mem = s.mem := by simp [putBase]

@[simp] theorem countUp_mem (k : Nat) (s : State) : (countUp k s).mem = s.mem := by unfold countUp; split <;> simp

theorem execGarbageCollect_mem (p : Fin 4) (bank : Fin 2) (s : State) : leavesMem s (execGarbageCollect p bank s) := by
  unfold execGarbageCollect
  rw [leavesMem_next]
  split
  · dsimp only
    split
    · simp
    · split <;> simp
  · rfl

@[simp] theorem eraseSector_mem (i : Nat) (s : State) : (eraseSector i s).mem = s.mem := by simp [eraseSector]

theorem execSectorEraseComplete_mem (sec : Fin 512) (s : State) : leavesMem s (execSectorEraseComplete sec s) := by
  simp [execSectorEraseComplete]

@[simp] theorem unlockBits_mem (p : Nat) (s : State) : (unlockBits p s).1.mem = s.mem := by simp [unlockBits]

@[simp] theorem setUnlock_mem (i : Nat) (on : Bool) (s : State) : (setUnlock i on s).mem = s.mem := by simp [setUnlock]

@[simp] theorem showPw_mem (s : State) : (showPw s).mem = s.mem := by simp [showPw]

@[simp] theorem nvsQueue_mem (w : NvsWrite) (s : State) : (nvsQueue w s).mem = s.mem := by
  unfold nvsQueue
  simp

@[simp] theorem nvsRefuse_mem (s : State) : (nvsRefuse s).1.mem = s.mem := by rfl

@[simp] theorem nvsWrite_mem (del : Bool) (p k : Nat) (bs : List Byte) (s : State) : (nvsWrite del p k bs s).1.mem =
    s.mem := by
  simp [nvsWrite]

@[simp] theorem nvsUnlock_mem (acc p : Nat) (bs : List Byte) (s : State) : (nvsUnlock acc p bs s).1.mem = s.mem := by
  unfold nvsUnlock
  simp

@[simp] theorem nvsLock_mem (p : Nat) (bs : List Byte) (s : State) : (nvsLock p bs s).1.mem = s.mem := by
  unfold nvsLock
  split <;> simp

@[simp] theorem randomBytes_mem (n : Nat) (s : State) : (randomBytes n s).2.mem = s.mem := by
  unfold randomBytes
  simp

@[simp] theorem nvsSetPw_mem (acc p : Nat) (bs : List Byte) (s : State) : (nvsSetPw acc p bs s).1.mem = s.mem := by
  simp [nvsSetPw]

@[simp] theorem nvsRead_mem (p k n : Nat) (s : State) : (nvsRead p k n s).1.mem = s.mem := by
  unfold nvsRead
  dsimp only
  split
  · simp
  · split <;> simp

@[simp] theorem nvsRequest_mem (a : Nat) (bs : List Byte) (s : State) : (nvsRequest a bs s).1.mem = s.mem := by
  unfold nvsRequest
  simp

theorem execUnlockLockoutEnd_mem (p : Fin 4) (s : State) : leavesMem s (execUnlockLockoutEnd p s) := by
  simp [execUnlockLockoutEnd]

@[simp] theorem buildIndex_mem (s : State) : (buildIndex s).mem = s.mem := by simp [buildIndex]

/-! ### Memory under the operations of Ejector -/

@[simp] theorem showDie_mem (d : Fin 2) (s : State) : (showDie d s).mem = s.mem := by simp [showDie]

@[simp] theorem showChan_mem (v : Valve) (s : State) : (showChan v s).mem = s.mem := by simp [showChan]

@[simp] theorem noteDrop_mem (v : Valve) (s : State) : (noteDrop v s).mem = s.mem := by simp [noteDrop]

@[simp] theorem flushValve_mem (v : Valve) (s : State) : (flushValve v s).mem = s.mem := by
  unfold flushValve
  simp

@[simp] theorem dropShot_mem (v : Valve) (f : Fld) (x : Shot) (s : State) : (dropShot v f x s).mem = s.mem := by
  simp [dropShot]

@[simp] theorem settleValve_mem (v : Valve) (n : Nat) (s : State) : (settleValve v n s).mem = s.mem := by
  induction n generalizing s with
  | zero => rfl
  | succ n ih =>
    unfold settleValve
    split
    · rfl
    · split
      · split
        · rw [ih, dropShot_mem]
        · rfl
      · rfl

@[simp] theorem commitShot_mem (v : Valve) (x : Shot) (s : State) : (commitShot v x s).mem = s.mem := by simp [commitShot]

@[simp] theorem acceptShot_mem (v : Valve) (x : Shot) (warm : Bool) (s : State) : (acceptShot v x warm s).1.mem = s.mem := by
  unfold acceptShot
  simp

@[simp] theorem refuseCmd_mem (d : Fin 2) (s : State) : (refuseCmd d s).mem = s.mem := by simp [refuseCmd]

@[simp] theorem modNotes_mem (d : Fin 2) (b : Fin 16) (f : BandNotes → BandNotes) (s : State) : (modNotes d b f s).mem =
    s.mem := by rfl

@[simp] theorem setLine_mem (d : Fin 2) (b : Fin 16) (n : Nat) (st : LineState) (s : State) : (setLine d b n st s).mem =
    s.mem := by simp [setLine]

@[simp] theorem takeDone_mem (d : Fin 2) (b : Fin 16) (n : Nat) (s : State) : (takeDone d b n s).mem = s.mem := by
  simp [takeDone]

@[simp] theorem applyDefault_mem (d : Fin 2) (b : Fin 16) (k : Kept) (s : State) : (applyDefault d b k s).mem = s.mem := by
  unfold applyDefault; split <;> simp

@[simp] theorem boundPass_mem (d : Fin 2) (b : Fin 16) (k : Kept) (s : State) : (boundPass d b k s).mem = s.mem := by
  simp [boundPass]

theorem execLineNotice_mem (d : Fin 2) (s : State) : leavesMem s (execLineNotice d s) := by
  unfold execLineNotice; split <;> simp

theorem execLineBoundPass_mem (d : Fin 2) (b : Fin 16) (n : BitVec 24) (s : State) : leavesMem s
    (execLineBoundPass d b n s) := by
  unfold execLineBoundPass; split <;> simp

@[simp] theorem notesZero_mem (b : Fin 16) (s : State) : (notesZero b s).mem = s.mem := by
  have one (d : Fin 2) (t : State) (l : List Kept) : (l.foldl (fun s k => boundPass d b k s) t).mem = t.mem := foldl_mem
    (fun _ _ => boundPass_mem ..) l t
  unfold notesZero
  simp only [mem_ite, modEjt_mem, one, ite_self]

@[simp] theorem closeLines_mem (s : State) : (closeLines s).mem = s.mem := by simp [closeLines]

@[simp] theorem measureBudget_mem (u : UnitId) (b n : Nat) (s : State) : (measureBudget u b n s).mem = s.mem := by
  unfold measureBudget; split <;> simp

@[simp] theorem sendEject_mem (u : UnitId) (b : List Word) (s : State) (x : Fin 2 × Bool) : (sendEject u b s x).mem =
    s.mem := by
  simp [sendEject]

theorem execEject_mem (u : UnitId) (n : Reg) (s : State) : leavesMem s (execEject u n s) := by simp [execEject]

@[simp] theorem takeEject_mem (d : Fin 2) (doneOnly : Bool) (b : List Word) (s : State) : (takeEject d doneOnly b s).mem =
    s.mem := by
  unfold takeEject
  extract_lets band n t
  have ht : t.mem = s.mem := by
    unfold t
    split
    · split <;> simp
    · rfl
  split
  · simp
  · split
    · simp
    · split
      · split <;> simp [ht]
      · split
        · rw [bump_mem, ht]
        · simp only [mem_ite, takeDone_mem, acceptShot_mem, ite_self, ht]

theorem execEjectArrival_mem (d : Fin 2) (s : State) : leavesMem s (execEjectArrival d s) := by
  unfold execEjectArrival; split <;> simp

theorem execUncommittedLastStart_mem (d : Fin 2) (s : State) : leavesMem s (execUncommittedLastStart d s) := by
  simp [execUncommittedLastStart]

@[simp] theorem countCycle_mem (v : Valve) (s : State) : (countCycle v s).mem = s.mem := by simp [countCycle]

@[simp] theorem energise_mem (v : Valve) (x : Shot) (s : State) : (energise v x s).mem = s.mem := by simp [energise]

@[simp] theorem ageingCheck_mem (v : Valve) (s : State) : (ageingCheck v s).mem = s.mem := by simp [ageingCheck]

@[simp] theorem endSearch_mem (v : Valve) (lag : Option Nat) (s : State) : (endSearch v lag s).mem = s.mem := by
  unfold endSearch
  split
  · rfl
  · split
    · rfl
    · dsimp only
      split <;> simp

@[simp] theorem closeSearch_mem (v : Valve) (s : State) : (closeSearch v s).mem = s.mem := by simp [closeSearch]

theorem execDipDetected_mem (v : Valve) (s : State) : leavesMem s (execDipDetected v s) := by
  unfold execDipDetected; split <;> simp

theorem execDipSearchEnd_mem (v : Valve) (s : State) : leavesMem s (execDipSearchEnd v s) := by
  unfold execDipSearchEnd; split <;> simp

@[simp] theorem modRun_mem (v : Valve) (f : Run → Run) (s : State) : (modRun v f s).mem = s.mem := by rfl

@[simp] theorem endPeak_mem (v : Valve) (s : State) : (endPeak v s).mem = s.mem := by simp [endPeak]

@[simp] theorem chop_mem (v : Valve) (x : Int) (s : State) : (chop v x s).mem = s.mem := by unfold chop; split <;> simp

theorem execPeakEnd_mem (v : Valve) (x : Option Int) (s : State) : leavesMem s (execPeakEnd v x s) := by
  unfold execPeakEnd; split <;> simp

@[simp] theorem showTemp_mem (v : Valve) (s : State) : (showTemp v s).mem = s.mem := by rfl

@[simp] theorem selectCoil_mem (v : Valve) (s : State) : (selectCoil v s).mem = s.mem := by simp [selectCoil]

@[simp] theorem coilAwait_mem (v : Valve) (s : State) : (coilAwait v s).mem = s.mem := by simp [coilAwait]

@[simp] theorem coilMeasure_mem (v : Valve) (vin : Rat) (s : State) : (coilMeasure v vin s).mem = s.mem := by
  unfold coilMeasure; split <;> simp

@[simp] theorem coilStep_mem (d : Fin 2) (v : Valve) (s : State) : (coilStep d v s).mem = s.mem := by simp [coilStep]

theorem execCoilModelUpdate_mem (d : Fin 2) (s : State) : leavesMem s (execCoilModelUpdate d s) := by
  simp [execCoilModelUpdate]

@[simp] theorem valveFault_mem (v : Valve) (code : Nat) (s : State) : (valveFault v code s).mem = s.mem := by
  unfold valveFault
  simp

@[simp] theorem clampCheck_mem (v : Valve) (s : State) : (clampCheck v s).mem = s.mem := by
  unfold clampCheck; split <;> simp

@[simp] theorem clampSample_mem (v : Valve) (at_ : Nat) (x : Int) (s : State) : (clampSample v at_ x s).mem = s.mem := by
  unfold clampSample; split <;> simp

@[simp] theorem endRun_mem (v : Valve) (quench : Bool) (s : State) : (endRun v quench s).mem = s.mem := by simp [endRun]

@[simp] theorem endShot_mem (v : Valve) (s : State) : (endShot v s).mem = s.mem := by
  unfold endShot
  split
  · rfl
  · dsimp only
    split
    · rw [modChan_mem, endRun_mem]
    · rw [endRun_mem]

theorem execShotEnd_mem (v : Valve) (s : State) : leavesMem s (execShotEnd v s) := by unfold execShotEnd; split <;> simp

theorem execQuenchEnd_mem (v : Valve) (x : Int) (s : State) : leavesMem s (execQuenchEnd v x s) := by simp [execQuenchEnd]

theorem execValveOpenFault_mem (v : Valve) (x : Int) (s : State) : leavesMem s (execValveOpenFault v x s) := by
  unfold execValveOpenFault; split <;> simp

theorem execValveShortFault_mem (v : Valve) (x : Int) (s : State) : leavesMem s (execValveShortFault v x s) := by
  simp [execValveShortFault]

theorem execShotEnergise_mem (v : Valve) (s : State) : leavesMem s (execShotEnergise v s) := by
  unfold execShotEnergise
  rw [leavesMem_next]
  split
  · dsimp only
    split <;> simp
  · rfl

theorem execPeakWaitLastStart_mem (v : Valve) (s : State) : leavesMem s (execPeakWaitLastStart v s) := by
  unfold execPeakWaitLastStart
  rw [leavesMem_next]
  split
  · split
    · split <;> simp
    · rfl
  · rfl

theorem execHighSideFault_mem (g : Fin 16) (s : State) : leavesMem s (execHighSideFault g s) := by
  unfold execHighSideFault
  rw [leavesMem_next]
  split
  · dsimp only
    rw [foldl_mem fun t v => by simp, showDie_mem, foldl_mem fun t v => by simp, foldl_mem fun t v => by split <;> simp]
  · rfl

@[simp] theorem stopRuns_mem (d : Fin 2) (s : State) : (stopRuns d s).mem = s.mem := by
  unfold stopRuns
  rw [showDie_mem, foldl_mem fun t v => by simp, foldl_mem fun t v => by split <;> simp]

@[simp] theorem flushDie_mem (d : Fin 2) (s : State) : (flushDie d s).mem = s.mem := by simp [flushDie]

@[simp] theorem valvesOff_mem (s : State) : (valvesOff s).mem = s.mem := by
  simp only [valvesOff, flushDie_mem, stopRuns_mem]

@[simp] theorem ejtRefuse_mem (d : Fin 2) (ep : Nat) (s : State) : (ejtRefuse d ep s).1.mem = s.mem := by rfl

@[simp] theorem takeEntry_mem (d : Fin 2) (k : Nat) (a b : Word) (s : State) : (takeEntry d k a b s).mem = s.mem := by
  simp [takeEntry]

@[simp] theorem envSample_mem (d : Fin 2) (k : Fin 64) (at_ : Nat) (s : State) : (envSample d k at_ s).mem = s.mem := by
  simp [envSample]

@[simp] theorem csnTrimSample_mem (d : Fin 2) (k : Fin 64) (x : Int) (s : State) : (csnTrimSample d k x s).mem = s.mem := by
  simp [csnTrimSample]

@[simp] theorem schedSample_mem (d : Fin 2) (warm : Bool) (at_ : Nat) (k : Fin 64) (s : State) :
    (schedSample d warm at_ k s).mem = s.mem := by simp [schedSample]

theorem execCsnBlock_mem (d : Fin 2) (age : Nat) (x : List (BitVec 64)) (cmp : List (Fin 64 × Int)) (s : State) :
    leavesMem s (execCsnBlock d age x cmp s) := by simp [execCsnBlock]

/-! ### Memory under the operations of Models -/

@[simp] theorem loadModel_mem (d : Fin 2) (mine : Nat → Bool) (s : State) : (loadModel d mine s).mem = s.mem := by
  simp [loadModel]

theorem execModelParityReload_mem (d : Fin 2) (row : Fin 50) (col : Fin 2048) (s : State) : leavesMem s
    (execModelParityReload d row col s) := by simp [execModelParityReload]

@[simp] theorem loadFocalTrims_mem (d : Fin 2) (s : State) : (loadFocalTrims d s).mem = s.mem := by rfl

@[simp] theorem loadActuatorTrims_mem (d : Fin 2) (s : State) : (loadActuatorTrims d s).mem = s.mem := by
  unfold loadActuatorTrims
  dsimp only
  split <;> simp

@[simp] theorem loadSadcTrims_mem (s : State) : (loadSadcTrims s).mem = s.mem := by unfold loadSadcTrims; split <;> simp

@[simp] theorem loadAll_mem (s : State) : (loadAll s).mem = s.mem := by simp [loadAll]

/-! ### Memory under the operations of Lamps -/

@[simp] theorem modStr_mem (n : Strng) (f : Str → Str) (s : State) : (modStr n f s).mem = s.mem := by rfl

@[simp] theorem modTest_mem (n : Strng) (f : StrTest → StrTest) (s : State) : (modTest n f s).mem = s.mem := by rfl

@[simp] theorem beginStop_mem (n : Strng) (s : State) : (beginStop n s).mem = s.mem := by rfl

@[simp] theorem stopString_mem (n : Strng) (s : State) : (stopString n s).mem = s.mem := by simp [stopString]

theorem execRegulatorDecayEnd_mem (n : Strng) (s : State) : leavesMem s (execRegulatorDecayEnd n s) := by
  simp [execRegulatorDecayEnd]

@[simp] theorem raiseStr_mem (code : Nat) (n : Strng) (lamp : Nat) (s : State) : (raiseStr code n lamp s).mem = s.mem := by
  simp [raiseStr]

@[simp] theorem stringFault_mem (n : Strng) (code : Nat) (s : State) : (stringFault n code s).mem = s.mem := by
  simp [stringFault]

@[simp] theorem lampFault_mem (n : Strng) (k : Fin 10) (code : Nat) (s : State) : (lampFault n k code s).mem = s.mem := by
  simp [lampFault]

theorem execLamp_mem (u : UnitId) (a : Reg) (b : Src) (s : State) : leavesMem s (execLamp u a b s) := by simp [execLamp]

@[simp] theorem showLatch_mem (d : Fin 2) (s : State) : (showLatch d s).mem = s.mem := by rfl

@[simp] theorem stageLatch_mem (d : Fin 2) (b : List Word) (s : State) : (stageLatch d b s).mem = s.mem := by
  simp [stageLatch]

theorem execLatchArrival_mem (d : Fin 2) (s : State) : leavesMem s (execLatchArrival d s) := by
  unfold execLatchArrival; split <;> simp

@[simp] theorem applyString_mem (n : Strng) (s : State) : (applyString n s).mem = s.mem := by
  have put (f : Fld) (o : Option Nat) (t : State) : (match o with | some x => setF f x t | none => t).mem = t.mem := by
    cases o <;> rfl
  unfold applyString
  exact (put ..).trans ((put ..).trans (foldl_mem (fun t k => put ..) _ s))

@[simp] theorem applyStage_mem (d : Fin 2) (s : State) : (applyStage d s).mem = s.mem := by
  unfold applyStage; split <;> simp

@[simp] theorem runString_mem (n : Strng) (s : State) : (runString n s).mem = s.mem := by simp [runString]

@[simp] theorem regulate_mem (n : Strng) (ma : Nat) (s : State) : (regulate n ma s).mem = s.mem := by simp [regulate]

@[simp] theorem startString_mem (on : Bool) (n : Strng) (s : State) : (startString on n s).mem = s.mem := by
  simp [startString]

@[simp] theorem pwmStart_mem (d : Fin 2) (s : State) : (pwmStart d s).mem = s.mem := by simp [pwmStart]

theorem execPwmPeriodStart_mem (d : Fin 2) (s : State) : leavesMem s (execPwmPeriodStart d s) := by
  simp [execPwmPeriodStart]

@[simp] theorem matrixStart_mem (d : Fin 2) (s : State) : (matrixStart d s).mem = s.mem := by simp [matrixStart]

theorem execMatrixCycleStart_mem (d : Fin 2) (s : State) : leavesMem s (execMatrixCycleStart d s) := by
  simp [execMatrixCycleStart]

@[simp] theorem matrixTick_mem (d : Fin 2) (s : State) : (matrixTick d s).mem = s.mem := by
  unfold matrixTick; split <;> simp

@[simp] theorem matrixCut_mem (d : Fin 2) (s : State) : (matrixCut d s).mem = s.mem := by simp [matrixCut]

@[simp] theorem lampTick_mem (d : Fin 2) (s : State) : (lampTick d s).mem = s.mem := by simp [lampTick]

theorem execLatchApply_mem (d : Fin 2) (s : State) : leavesMem s (execLatchApply d s) := by
  unfold execLatchApply; split <;> simp

@[simp] theorem lampsOff_mem (d : Fin 2) (s : State) : (lampsOff d s).mem = s.mem := by simp [lampsOff]

@[simp] theorem lumRefuse_mem (d : Fin 2) (ep : Nat) (s : State) : (lumRefuse d ep s).1.mem = s.mem := by rfl

@[simp] theorem clearLamps_mem (n : Strng) (fresh : Nat) (s : State) : (clearLamps n fresh s).mem = s.mem := by
  unfold clearLamps
  rw [foldl_mem fun t k => by simp]
  simp

@[simp] theorem takeString_mem (n : Strng) (ws : List Word) (s : State) : (takeString n ws s).mem = s.mem := by
  simp [takeString]

@[simp] theorem loopLine_mem (p k : Nat) (len : Nat) (chans : List (List Int)) (s : State) :
    (loopLine p k len chans s).mem = s.mem := by simp [loopLine]

theorem execColourLoopUpdate_mem (n : Strng) (s : State) : leavesMem s (execColourLoopUpdate n s) := by
  unfold execColourLoopUpdate
  dsimp only
  split
  · split <;> simp
  · simp

@[simp] theorem thermFault_mem (n : Strng) (s : State) : (thermFault n s).mem = s.mem := by simp [thermFault]

theorem execThermistorConversion_mem (n : Strng) (s : State) : leavesMem s (execThermistorConversion n s) := by
  unfold execThermistorConversion
  rw [leavesMem_next]
  dsimp only
  split
  · rfl
  · split
    · split
      · simp
      · simp
    · rfl

theorem execThermistorTimeout_mem (n : Strng) (s : State) : leavesMem s (execThermistorTimeout n s) := by
  simp [execThermistorTimeout]

theorem execLampTestWindow_mem (n : Strng) (k : Fin 10) (mv pct : Nat) (s : State) : leavesMem s
    (execLampTestWindow n k mv pct s) := by simp [execLampTestWindow]

theorem execOpenStringFault_mem (n : Strng) (pct : Nat) (s : State) : leavesMem s (execOpenStringFault n pct s) := by
  simp [execOpenStringFault]

theorem execInductorOvercurrent_mem (n : Strng) (ma : Nat) (s : State) : leavesMem s (execInductorOvercurrent n ma s) := by
  simp [execInductorOvercurrent]

theorem execHeadroomLoss_mem (n : Strng) (mv : Nat) (s : State) : leavesMem s (execHeadroomLoss n mv s) := by
  simp [execHeadroomLoss]

@[simp] theorem nodeTested_mem (n : Strng) (s : State) : (nodeTested n s).mem = s.mem := by simp [nodeTested]

theorem execNeighbourTest_mem (n : Strng) (v : List (Fin 4 × Fin 11 × Nat)) (a b : Nat) (s : State) : leavesMem s
    (execNeighbourTest n v a b s) := by simp [execNeighbourTest]

theorem execNeighbourUntested_mem (n : Strng) (s : State) : leavesMem s (execNeighbourUntested n s) := by
  simp [execNeighbourUntested]

theorem execLampStretch_mem (n : Strng) (k : Fin 10) (s : State) : leavesMem s (execLampStretch n k s) := by
  simp [execLampStretch]

theorem execLampUnverified_mem (n : Strng) (k : Fin 10) (s : State) : leavesMem s (execLampUnverified n k s) := by
  simp [execLampUnverified]

@[simp] theorem litTick_mem (d : Fin 2) (s : State) : (litTick d s).mem = s.mem := by simp [litTick]

theorem execLampHourCell_mem (n : Strng) (k : Fin 10) (s : State) : leavesMem s (execLampHourCell n k s) := by
  simp [execLampHourCell]

/-! ### Memory under the operations of Camera -/

@[simp] theorem camEvent_mem (code : Nat) (p : Fin 2) (s : State) : (camEvent code p s).mem = s.mem := by simp [camEvent]

@[simp] theorem camMerge_mem (p : Fin 2) (mask ws : List Word) (s : State) : (camMerge p mask ws s).mem = s.mem := by
  exact foldl_mem (fun t i => by simp) _ s

@[simp] theorem showCam_mem (p : Fin 2) (s : State) : (showCam p s).mem = s.mem := by rfl

@[simp] theorem camSlotBoundary_mem (p : Fin 2) (s : State) : (camSlotBoundary p s).mem = s.mem := by
  unfold camSlotBoundary
  dsimp only
  split <;> simp

@[simp] theorem camFusedLine_mem (p : Fin 2) (s : State) : (camFusedLine p s).mem = s.mem := by
  unfold camFusedLine; split <;> simp

@[simp] theorem camSyncEdge_mem (p : Fin 2) (s : State) : (camSyncEdge p s).mem = s.mem := by
  unfold camSyncEdge; split <;> simp

@[simp] theorem camBetween_mem (p : Fin 2) (s : State) : (camBetween p s).mem = s.mem := by simp [camBetween]

@[simp] theorem checkTie_mem (p : Fin 2) (s : State) : (checkTie p s).mem = s.mem := by simp [checkTie]

theorem execCamTrigger_mem (p : Fin 2) (k : Fin 4) (s : State) : leavesMem s (execCamTrigger p k s) := by
  simp [execCamTrigger]

@[simp] theorem modTrig_mem (p : Fin 2) (n : Nat) (f : CamTrig → CamTrig) (s : State) : (modTrig p n f s).mem = s.mem := by
  simp [modTrig]

@[simp] theorem camPut_mem (p : Fin 2) (how : CamHow) (n tile : Nat) (rows : List (List (Int × Bool))) (s : State) :
    (camPut p how n tile rows s).mem = s.mem := by unfold camPut; split <;> simp

@[simp] theorem countLine_mem (p : Fin 2) (s : State) : (countLine p s).mem = s.mem := by rfl

@[simp] theorem closeWindow_mem (p : Fin 2) (s : State) : (closeWindow p s).mem = s.mem := by
  unfold closeWindow; split <;> simp

@[simp] theorem fillWindow_mem (p : Fin 2) (s : State) : (fillWindow p s).mem = s.mem := by simp [fillWindow]

@[simp] theorem closeLine_mem (p : Fin 2) (counts : Bool) (s : State) : (closeLine p counts s).mem = s.mem := by
  unfold closeLine
  split
  · rfl
  · dsimp only
    split <;> simp

@[simp] theorem dropLine_mem (p : Fin 2) (n tile : Nat) (s : State) : (dropLine p n tile s).mem = s.mem := by
  simp [dropLine]

@[simp] theorem pairLine_mem (p : Fin 2) (n : Nat) (s : State) : (pairLine p n s).mem = s.mem := by rfl

@[simp] theorem openRow_mem (p : Fin 2) (t : Option Nat) (row : Nat) (s : State) : (openRow p t row s).mem = s.mem := by
  rfl

@[simp] theorem openLine_mem (p : Fin 2) (s : State) : (openLine p s).mem = s.mem := by unfold openLine; split <;> simp

@[simp] theorem openAreaRow_mem (p : Fin 2) (s : State) : (openAreaRow p s).mem = s.mem := by
  unfold openAreaRow; split <;> simp

@[simp] theorem lineOpen_mem (p : Fin 2) (s : State) : (lineOpen p s).mem = s.mem := by simp [lineOpen]

theorem execCamLineOpen_mem (p : Fin 2) (s : State) : leavesMem s (execCamLineOpen p s) := by simp [execCamLineOpen]

theorem execCamLineClose_mem (p : Fin 2) (s : State) : leavesMem s (execCamLineClose p s) := by simp [execCamLineClose]

@[simp] theorem frameOpen_mem (p : Fin 2) (s : State) : (frameOpen p s).mem = s.mem := by
  unfold frameOpen
  extract_lets running s1 s2 start s3
  have h1 : s1.mem = s.mem := by rw [mem_ite, modCam_mem, ite_self]
  have h2 : s2.mem = s.mem := by rw [mem_ite, closeLine_mem, camEvent_mem, bump_mem, bump_mem, ite_self, h1]
  have hs (o : Option Nat) (t : State) : (start o t).mem = t.mem := by rw [showCam_mem, modCam_mem]
  have h3 : s3.mem = s.mem := by
    unfold s3
    split
    · rw [hs, h2]
    · split
      · rw [hs, bump_mem, h2]
      · dsimp only
        split
        · rw [hs, dropLine_mem, pairLine_mem, h2]
        · rw [hs, pairLine_mem, h2]
  split
  · rw [lineOpen_mem, h3]
  · exact h3

theorem execCamFrameOpen_mem (p : Fin 2) (s : State) : leavesMem s (execCamFrameOpen p s) := by simp [execCamFrameOpen]

@[simp] theorem synthLine_mem (p : Fin 2) (n : Nat) (s : State) : (synthLine p n s).mem = s.mem := by simp [synthLine]

@[simp] theorem closeOpenRow_mem (p : Fin 2) (s : State) : (closeOpenRow p s).mem = s.mem := by
  unfold closeOpenRow; split <;> simp

@[simp] theorem shortWindow_mem (p : Fin 2) (s : State) : (shortWindow p s).mem = s.mem := by
  unfold shortWindow
  dsimp only
  split <;> simp

@[simp] theorem frameEnd_mem (p : Fin 2) (s : State) : (frameEnd p s).mem = s.mem := by unfold frameEnd; split <;> simp

theorem execCamFrameEnd_mem (p : Fin 2) (s : State) : leavesMem s (execCamFrameEnd p s) := by simp [execCamFrameEnd]

@[simp] theorem lateLine_mem (p : Fin 2) (n : Nat) (s : State) : (lateLine p n s).mem = s.mem := by
  unfold lateLine
  dsimp only
  split <;> simp

theorem execCamLineTimeout_mem (p : Fin 2) (s : State) : leavesMem s (execCamLineTimeout p s) := by
  unfold execCamLineTimeout; split <;> simp

theorem execPclkRisingEdge_mem (p : Fin 2) (x : BitVec 24) (lval dval : Bool) (s : State) : leavesMem s
    (execPclkRisingEdge p x lval dval s) := by
  unfold execPclkRisingEdge
  dsimp only
  split <;> simp

@[simp] theorem admitEnd_mem (p : Fin 2) (s : State) : (admitEnd p s).mem = s.mem := by unfold admitEnd; split <;> simp

theorem execCamLineAdmit_mem (p : Fin 2) (bad : List Nat) (s : State) : leavesMem s (execCamLineAdmit p bad s) := by
  unfold execCamLineAdmit
  dsimp only
  split <;> simp

@[simp] theorem lineOut_mem (p : Fin 2) (l : CamLn) (s : State) : (lineOut p l s).mem = s.mem := by
  have looped (o : Option CamTrig) (n : Nat) (cs : List (List Int)) :
      (match o with | some t => loopLine p t.k n cs s | none => s).mem = s.mem := by
    cases o <;> simp
  unfold lineOut
  exact looped ..

theorem execCamLineOut_mem (p : Fin 2) (s : State) : leavesMem s (execCamLineOut p s) := by
  unfold execCamLineOut
  dsimp only
  split <;> simp

@[simp] theorem giveUp_mem (p : Fin 2) (n : Nat) (s : State) : (giveUp p n s).mem = s.mem := by simp [giveUp]

@[simp] theorem flushLines_mem (p : Fin 2) (top : Nat) (s : State) : (flushLines p top s).mem = s.mem := by
  unfold flushLines
  extract_lets a ns t
  have ht : t.mem = s.mem := foldl_mem (fun t n => giveUp_mem p n t) _ s
  rw [foldl_mem fun t n => by split <;> simp, ht]

/-! ### Memory under the operations of Chain -/

@[simp] theorem countHeld_mem (b n : Nat) (s : State) : (countHeld b n s).mem = s.mem := by simp [countHeld]

@[simp] theorem velDefault_mem (b : Nat) (s : State) : (velDefault b s).mem = s.mem := by simp [velDefault]

@[simp] theorem zeroCm_mem (b : Fin 16) (s : State) : (zeroCm b s).mem = s.mem := by rfl

@[simp] theorem zeroBand_mem (b : Fin 16) (s : State) : (zeroBand b s).mem = s.mem := by simp [zeroBand]

@[simp] theorem zeroBandEngines_mem (sync : Bool) (b : Fin 16) (s : State) : (zeroBandEngines sync b s).mem = s.mem := by
  simp [zeroBandEngines]

@[simp] theorem takeDet_mem (l : Fin 64) (s : State) : (takeDet l s).mem = s.mem := by unfold takeDet; split <;> simp

@[simp] theorem detect_mem (l : Fin 64) (n m : Nat) (s : State) : (detect l n m s).mem = s.mem := by simp [detect]

@[simp] theorem fadeStep_mem (l : Fin 64) (s : State) : (fadeStep l s).mem = s.mem := by unfold fadeStep; split <;> simp

@[simp] theorem countSat_mem (l : Fin 64) (n : Nat) (s : State) : (countSat l n s).mem = s.mem := by simp [countSat]

@[simp] theorem makeParts_mem (l : Fin 64) (m : Nat) (n : Nat) (s : State) : (makeParts l m n s).mem = s.mem := by
  induction n generalizing s with
  | zero => rfl
  | succ n ih =>
    unfold makeParts
    dsimp only
    split
    · rfl
    · rw [ih]; simp

@[simp] theorem engineSlot_mem (l : Fin 64) (s : State) : (engineSlot l s).mem = s.mem := by simp [engineSlot]

@[simp] theorem placeLine_mem (b : Fin 16) (s : State) : (placeLine b s).mem = s.mem := by
  unfold placeLine
  dsimp only
  split <;> simp

@[simp] theorem placeLines_mem (b : Fin 16) (n : Nat) (s : State) : (placeLines b n s).mem = s.mem := by
  induction n generalizing s with
  | zero => rfl
  | succ n ih => rw [placeLines, ih, placeLine_mem]

@[simp] theorem completeLines_mem (b : Fin 16) (n : Nat) (s : State) : (completeLines b n s).mem = s.mem := by
  induction n generalizing s with
  | zero => rfl
  | succ n ih =>
    unfold completeLines
    dsimp only
    split
    · rfl
    · split
      · rfl
      · rw [ih, modBand_mem, foldl_mem fun t l => by simp]

@[simp] theorem takeEstimate_mem (b : Nat) (x : Estimate) (s : State) : (takeEstimate b x s).mem = s.mem := by
  unfold takeEstimate; split <;> simp

@[simp] theorem estimatorSlot_mem (b : Fin 16) (s : State) : (estimatorSlot b s).mem = s.mem := by simp [estimatorSlot]

@[simp] theorem publishDefault_mem (b : Nat) (s : State) : (publishDefault b s).mem = s.mem := by simp [publishDefault]

@[simp] theorem keepRows_mem (b : Fin 16) (s : State) : (keepRows b s).mem = s.mem := by rfl

/-! ### Memory under the operations of Fused -/

@[simp] theorem sendNotice_mem (src : Nat) (n : Notice) (s : State) : (sendNotice src n s).mem = s.mem := by
  simp [sendNotice]

@[simp] theorem blindSlot_mem (b : Fin 16) (s : State) : (blindSlot b s).mem = s.mem := by
  unfold blindSlot
  split
  · rfl
  · extract_lets t st e l t'
    have ht : t.mem = s.mem := rfl
    have ht' : t'.mem = s.mem := by rw [modBand_mem, bump_mem, ht]
    split
    · exact ht
    · split
      · rw [modBand_mem, ht']
      · rw [sendNotice_mem, ht']

@[simp] theorem makeFused_mem (blindLine : Bool) (s : State) : (makeFused blindLine s).mem = s.mem := by
  simp [makeFused]
  intro _ _ _ _
  exact foldl_mem (fun t b => by simp) _ s

@[simp] theorem takeMaps_mem (s : State) : (takeMaps s).mem = s.mem := by simp [takeMaps]

@[simp] theorem endCamWait_mem (p : Fin 2) (s : State) : (endCamWait p s).mem = s.mem := by
  unfold endCamWait; split <;> simp

theorem execCamWaitEnd_mem (p : Fin 2) (s : State) : leavesMem s (execCamWaitEnd p s) := by
  unfold execCamWaitEnd; split <;> simp

@[simp] theorem enterRing_mem (l : FusedLine) (s : State) : (enterRing l s).mem = s.mem := by rfl

@[simp] theorem fusedLeaves_mem (s : State) : (fusedLeaves s).mem = s.mem := by unfold fusedLeaves; split <;> simp

theorem execFusedLineEntry_mem (s : State) : leavesMem s (execFusedLineEntry s) := by
  unfold execFusedLineEntry; split <;> simp

@[simp] theorem fusedAtEdge_mem (s : State) : (fusedAtEdge s).mem = s.mem := by simp [fusedAtEdge]

/-! ### Memory under the operations of Sadc -/

@[simp] theorem showSadc_mem (s : State) : (showSadc s).mem = s.mem := by rfl

@[simp] theorem calAttempt_mem (r : Inj) (s : State) : (calAttempt r s).mem = s.mem := by simp [calAttempt]

@[simp] theorem injDropped_mem (r : Inj) (s : State) : (injDropped r s).mem = s.mem := by unfold injDropped; split <;> simp

@[simp] theorem reportDrop_mem (r : Inj) (s : State) : (reportDrop r s).mem = s.mem := by simp [reportDrop]

@[simp] theorem injAccept_mem (r : Inj) (s : State) : (injAccept r s).mem = s.mem := by simp [injAccept]

@[simp] theorem injDrop_mem (r : Inj) (s : State) : (injDrop r s).mem = s.mem := by simp [injDrop]

@[simp] theorem injRequest_mem (r : Inj) (s : State) : (injRequest r s).mem = s.mem := by
  unfold injRequest
  split
  · rfl
  · split <;> simp

@[simp] theorem injYield_mem (s : State) : (injYield s).mem = s.mem := by unfold injYield; split <;> simp

@[simp] theorem startPass_mem (next : Bool) (s : State) : (startPass next s).mem = s.mem := by simp [startPass]

@[simp] theorem endSequence_mem (s : State) : (endSequence s).mem = s.mem := by simp [endSequence]

@[simp] theorem sadcStart_mem (mode : Nat) (s : State) : (sadcStart mode s).mem = s.mem := by simp [sadcStart]

@[simp] theorem sadcStartOp_mem (u : UnitId) (b : Src) (s : State) : (sadcStartOp u b s).mem = s.mem := by
  simp [sadcStartOp]

theorem execSadcStartSingle_mem (u : UnitId) (b : Src) (s : State) : leavesMem s (execSadcStartSingle u b s) := by
  simp [execSadcStartSingle]

theorem execSadcStartContinuous_mem (u : UnitId) (b : Src) (s : State) : leavesMem s (execSadcStartContinuous u b s) := by
  simp [execSadcStartContinuous]

theorem execSadcStartStop_mem (u : UnitId) (b : Src) (s : State) : leavesMem s (execSadcStartStop u b s) := by
  simp [execSadcStartStop]

@[simp] theorem takeSadcRecord_mem (ws : List Word) (s : State) : (takeSadcRecord ws s).mem = s.mem := by
  unfold takeSadcRecord
  dsimp only
  split
  · rfl
  · exact foldl_mem (fun t x => by simp) _ s
  · rfl

@[simp] theorem sadcOvr_mem (ovr : Bool) (sub : Nat) (s : State) : (sadcOvr ovr sub s).mem = s.mem := by simp [sadcOvr]

@[simp] theorem takeHurdle_mem (h : Fin 8) (i : Nat) (s : State) : (takeHurdle h i s).mem = s.mem := by
  unfold takeHurdle; split <;> simp

@[simp] theorem hurdle_mem (h : Fin 8) (i : Nat) (code : Int) (recov : Bool) (s : State) : (hurdle h i code recov s).mem =
    s.mem := by simp [hurdle]

@[simp] theorem pushResult_mem (i : Nat) (r : Word × Word) (s : State) : (pushResult i r s).mem = s.mem := by
  simp [pushResult]

@[simp] theorem nextEntry_mem (s : State) : (nextEntry s).mem = s.mem := by simp [nextEntry]

theorem execSadcEntryEnd_mem (x y : Rat) (s : State) : leavesMem s (execSadcEntryEnd x y s) := by simp [execSadcEntryEnd]

theorem execSadcGapEnd_mem (s : State) : leavesMem s (execSadcGapEnd s) := by simp [execSadcGapEnd]

theorem execInjectedRequest_mem (src : InjSrc) (inp : Fin 64) (sub : Fin 4) (key : Nat) (s : State) : leavesMem s
    (execInjectedRequest src inp sub key s) := by
  unfold execInjectedRequest
  rw [leavesMem_next]
  split
  · rfl
  · dsimp only
    split <;> simp

theorem execCalSadcRetry_mem (s : State) : leavesMem s (execCalSadcRetry s) := by unfold execCalSadcRetry; split <;> simp

@[simp] theorem requestRef_mem (i : Nat) (s : State) : (requestRef i s).mem = s.mem := by simp [requestRef]

@[simp] theorem armTrim_mem (s : State) : (armTrim s).mem = s.mem := by simp [armTrim]

@[simp] theorem takeRef_mem (i : Nat) (code : Int) (s : State) : (takeRef i code s).mem = s.mem := by
  unfold takeRef
  split
  · rfl
  · dsimp only
    split <;> simp

@[simp] theorem injDeliver_mem (x : InjResult) (s : State) : (injDeliver x s).mem = s.mem := by
  unfold injDeliver
  dsimp only
  split <;> simp

theorem execInjectedConversionEnd_mem (x : Rat) (s : State) : leavesMem s (execInjectedConversionEnd x s) := by
  unfold execInjectedConversionEnd; split <;> simp

theorem execSelfTrimStart_mem (s : State) : leavesMem s (execSelfTrimStart s) := by simp [execSelfTrimStart]

theorem execSelfTrimEnd_mem (off gain : BitVec 8) (s : State) : leavesMem s (execSelfTrimEnd off gain s) := by
  simp [execSelfTrimEnd]

/-! ### Memory under the operations of Calib -/

@[simp] theorem clearPending_mem (i : Nat) (s : State) : (clearPending i s).mem = s.mem := by rfl

@[simp] theorem startRun_mem (r : CalRun) (s : State) : (startRun r s).mem = s.mem := by simp [startRun]

@[simp] theorem startScene_mem (d : Fin 2) (s : State) : (startScene d s).mem = s.mem := by simp [startScene]

@[simp] theorem applyConv_mem (d : Fin 2) (s : State) : (applyConv d s).mem = s.mem := by
  unfold applyConv
  split
  · rfl
  · dsimp only
    split
    · simp
    · refine (foldl_mem (fun t p => ?_) _ _).trans rfl
      split
      · rfl
      · split
        · refine foldl_mem (fun t row => ?_) _ t; rfl
        · refine foldl_mem (fun t sd => foldl_mem (fun t row => ?_) _ t) _ t; rfl

@[simp] theorem accepted_mem (s : State) : (accepted s).mem = s.mem := by simp [accepted]

@[simp] theorem reloaded_mem (s : State) : (reloaded s).mem = s.mem := by
  unfold reloaded
  rw [loadAll_mem, foldl_mem fun t v => by simp, setF_mem, setF_mem]

@[simp] theorem startSave_mem (s : State) : (startSave s).mem = s.mem := by simp [startSave]

@[simp] theorem setPending_mem (i : Nat) (s : State) : (setPending i s).mem = s.mem := by simp [setPending]

@[simp] theorem wantSave_mem (s : State) : (wantSave s).mem = s.mem := by simp [wantSave]

@[simp] theorem requestRun_mem (i : Nat) (s : State) : (requestRun i s).mem = s.mem := by simp [requestRun]

@[simp] theorem calReq_mem (w : Word) (s : State) : (calReq w s).mem = s.mem := by
  unfold calReq
  split
  · rfl
  · dsimp only
    split <;> simp

@[simp] theorem calReqOp_mem (u : UnitId) (b : Src) (s : State) : (calReqOp u b s).mem = s.mem := by simp [calReqOp]

theorem execCalReqRun_mem (u : UnitId) (b : Src) (s : State) : leavesMem s (execCalReqRun u b s) := by simp [execCalReqRun]

theorem execCalReqCancel_mem (u : UnitId) (b : Src) (s : State) : leavesMem s (execCalReqCancel u b s) := by
  simp [execCalReqCancel]

theorem execCalReqGap_mem (u : UnitId) (b : Src) (s : State) : leavesMem s (execCalReqGap u b s) := by simp [execCalReqGap]

theorem execCalAutoRequest_mem (i : Fin 12) (s : State) : leavesMem s (execCalAutoRequest i s) := by
  simp [execCalAutoRequest]

theorem execCalWaiting_mem (i : Fin 12) (s : State) : leavesMem s (execCalWaiting i s) := by
  unfold execCalWaiting; split <;> simp

theorem execDeclaredGapOpen_mem (s : State) : leavesMem s (execDeclaredGapOpen s) := by
  unfold execDeclaredGapOpen; split <;> simp

theorem execDeclaredGapClose_mem (s : State) : leavesMem s (execDeclaredGapClose s) := by
  unfold execDeclaredGapClose; split <;> simp

theorem execFeedGapOpen_mem (rise : Bool) (s : State) : leavesMem s (execFeedGapOpen rise s) := by simp [execFeedGapOpen]

@[simp] theorem dropFeedGap_mem (park : Bool) (s : State) : (dropFeedGap park s).mem = s.mem := by simp [dropFeedGap]

theorem execFeedGapClose_mem (ns : Nat) (s : State) : leavesMem s (execFeedGapClose ns s) := by simp [execFeedGapClose]

theorem execShutRunStart_mem (d : Fin 2) (s : State) : leavesMem s (execShutRunStart d s) := by simp [execShutRunStart]

theorem execShutMeasureStart_mem (d : Fin 2) (s : State) : leavesMem s (execShutMeasureStart d s) := by
  unfold execShutMeasureStart
  rw [leavesMem_next]
  split
  · dsimp only
    split
    · rw [modCalRun_mem]
    · rfl
  · rfl

@[simp] theorem queueWrites_mem (rs : List ModelRec) (s : State) : (queueWrites rs s).mem = s.mem := by rfl

@[simp] theorem shutDecide_mem (d : Fin 2) (r : CalRun) (s : State) : (shutDecide d r s).mem = s.mem := by
  simp [shutDecide]

theorem execShutMeasureEnd_mem (d : Fin 2) (s : State) : leavesMem s (execShutMeasureEnd d s) := by
  unfold execShutMeasureEnd; split <;> simp

@[simp] theorem fdAge_mem (d : Fin 2) (gs : List Nat) (s : State) : (fdAge d gs s).mem = s.mem := by simp [fdAge]

@[simp] theorem sceneDecide_mem (d : Fin 2) (r : CalRun) (s : State) : (sceneDecide d r s).mem = s.mem := by
  unfold sceneDecide; split <;> simp

theorem execSceneRunEnd_mem (d : Fin 2) (s : State) : leavesMem s (execSceneRunEnd d s) := by
  unfold execSceneRunEnd; split <;> simp

theorem execSceneTimeout_mem (d : Fin 2) (s : State) : leavesMem s (execSceneTimeout d s) := by
  unfold execSceneTimeout; split <;> simp

theorem execClassARunStart_mem (i : Fin 12) (s : State) : leavesMem s (execClassARunStart i s) := by
  simp [execClassARunStart]

theorem execClassARepeatEnd_mem (i : Fin 12) (codes : List (List Int)) (amp : Int) (s : State) : leavesMem s
    (execClassARepeatEnd i codes amp s) := by
  unfold execClassARepeatEnd
  rw [leavesMem_next]
  split
  · dsimp only
    split <;> simp
  · rfl

theorem execCsnIdleTimeout_mem (d : Fin 2) (ch : Fin 64) (s : State) : leavesMem s (execCsnIdleTimeout d ch s) := by
  unfold execCsnIdleTimeout
  rw [leavesMem_next]
  split
  · split
    · split <;> simp
    · rfl
  · rfl

theorem execSaveDue_mem (s : State) : leavesMem s (execSaveDue s) := by simp [execSaveDue]

theorem execSaveRetry_mem (s : State) : leavesMem s (execSaveRetry s) := by simp [execSaveRetry]

@[simp] theorem saveAgain_mem (s : State) : (saveAgain s).mem = s.mem := by simp [saveAgain]

@[simp] theorem endSave_mem (s : State) : (endSave s).mem = s.mem := by unfold endSave; split <;> simp

theorem execSaveComplete_mem (ok : Bool) (s : State) : leavesMem s (execSaveComplete ok s) := by simp [execSaveComplete]

@[simp] theorem shutSlot_mem (d : Fin 2) (s : State) : (shutSlot d s).mem = s.mem := by unfold shutSlot; split <;> simp

@[simp] theorem sceneSlot_mem (d : Fin 2) (s : State) : (sceneSlot d s).mem = s.mem := by
  unfold sceneSlot
  dsimp only
  split
  · rw [modCalRun_mem]
  · rfl

@[simp] theorem classASlot_mem (d : Fin 2) (s : State) : (classASlot d s).mem = s.mem := by simp [classASlot]

@[simp] theorem calSlot_mem (d : Fin 2) (s : State) : (calSlot d s).mem = s.mem := by
  rw [calSlot]
  split
  · rw [sceneSlot_mem, modCal_mem, classASlot_mem, shutSlot_mem]
  · rw [classASlot_mem, shutSlot_mem]

@[simp] theorem countQuiet_mem (s : State) : (countQuiet s).mem = s.mem := by simp [countQuiet]

@[simp] theorem taintBoundary_mem (d : Fin 2) (s : State) : (taintBoundary d s).mem = s.mem := by simp [taintBoundary]

/-! ### Memory under the operations of LineSlot -/

@[simp] theorem takeRows_mem (d : Fin 2) (n : Nat) (s : State) : (takeRows d n s).mem = s.mem := by
  induction n generalizing s with
  | zero => rfl
  | succ n ih =>
    rw [takeRows]
    split
    · rfl
    · rw [ih, takeRow_mem]

@[simp] theorem chainSlot_mem (b : Fin 16) (s : State) : (chainSlot b s).mem = s.mem := by simp [chainSlot]

@[simp] theorem bandSlot_mem (b : Fin 16) (s : State) : (bandSlot b s).mem = s.mem := by simp [bandSlot]

@[simp] theorem slotResults_mem (s : State) : (slotResults s).mem = s.mem := by
  have each (l : List (Fin 2)) {c : Fin 2 → State → Bool} {f : Fin 2 → State → State} (h : ∀ d t, (f d t).mem = t.mem)
    (t : State) :
      (l.foldl (fun s d => if c d s then f d s else s) t).mem = t.mem := foldl_mem (fun t d => by split <;> simp [h]) l t
  unfold slotResults
  dsimp only
  rw [makeFused_mem, foldl_mem fun t b => bandSlot_mem b t, each _ calSlot_mem, countQuiet_mem, foldl_mem fun t b => by
    split <;> simp,
    each _ fun d t => by split <;> simp]
  rw [foldl_mem fun t d => by simp, takeRows_mem, takeRows_mem]

@[simp] theorem takeEngCfg_mem (lenChanged : Bool) (l : Fin 64) (s : State) : (takeEngCfg lenChanged l s).mem = s.mem := by
  simp [takeEngCfg]

@[simp] theorem applyBias_mem (d : Fin 2) (s : State) : (applyBias d s).mem = s.mem := by unfold applyBias; split <;> simp

@[simp] theorem startBandSlot_mem (was : State) (b : Fin 16) (s : State) : (startBandSlot was b s).mem = s.mem := by
  simp [startBandSlot]

@[simp] theorem startCorr_mem (d : Fin 2) (s : State) : (startCorr d s).mem = s.mem := by rfl

@[simp] theorem takeSettings_mem (was : State) (s : State) : (takeSettings was s).mem = s.mem := by simp [takeSettings]

@[simp] theorem startLineSlot_mem (was : State) (s : State) : (startLineSlot was s).mem = s.mem := by simp [startLineSlot]

@[simp] theorem zeroStillBlind_mem (b : Fin 16) (s : State) : (zeroStillBlind b s).mem = s.mem := by simp [zeroStillBlind]

@[simp] theorem zeroStarted_mem (was : State) (s : State) : (zeroStarted was s).mem = s.mem := by simp [zeroStarted]

theorem execLineSlotBoundary_mem (s : State) : leavesMem s (execLineSlotBoundary s) := by simp [execLineSlotBoundary]

@[simp] theorem undoBlind_mem (d : Fin 2) (s : State) : (undoBlind d s).mem = s.mem := by simp [undoBlind]

@[simp] theorem showSyncOffset_mem (c : Nat) (s : State) : (showSyncOffset c s).mem = s.mem := by
  unfold showSyncOffset; split <;> simp

@[simp] theorem syncEdge_mem (s : State) : (syncEdge s).mem = s.mem := by simp [syncEdge]

theorem execSyncResetEdge_mem (s : State) : leavesMem s (execSyncResetEdge s) := by simp [execSyncResetEdge]

/-! ### Memory under the operations of Links -/

@[simp] theorem modDir_mem (l : Fin 16) (up : Bool) (f : LinkDir → LinkDir) (s : State) : (modDir l up f s).mem = s.mem := by
  simp [modDir]

@[simp] theorem linkFatal_mem (l : Fin 16) (s : State) : (linkFatal l s).mem = s.mem := by simp [linkFatal]

@[simp] theorem replay_mem (l : Fin 16) (up : Bool) (q : Fin 128) (s : State) : (replay l up q s).mem = s.mem := by
  simp [replay]

@[simp] theorem acknowledge_mem (l : Fin 16) (up : Bool) (q : Fin 128) (s : State) : (acknowledge l up q s).mem = s.mem := by
  simp [acknowledge]

@[simp] theorem takeFlit_mem (l : Fin 16) (up : Bool) (f g : Flit) (s : State) : (takeFlit l up f g s).mem = s.mem := by
  simp [takeFlit]

theorem execFlitReceived_mem (l : Fin 16) (up : Bool) (f : Flit) (noise : List (BitVec 33)) (s : State) : leavesMem s
    (execFlitReceived l up f noise s) := by
  unfold execFlitReceived
  rw [leavesMem_next]
  split
  · rfl
  · dsimp only
    split <;> simp

theorem execReplayRequest_mem (l : Fin 16) (up : Bool) (q : Fin 128) (s : State) : leavesMem s
    (execReplayRequest l up q s) := by
  simp [execReplayRequest]

theorem execLinkRemapComplete_mem (l : Fin 16) (s : State) : leavesMem s (execLinkRemapComplete l s) := by
  simp [execLinkRemapComplete]

@[simp] theorem countRefused_mem (s : State) : (countRefused s).mem = s.mem := by
  unfold countRefused
  dsimp only
  split <;> simp

theorem execDdrReadBurst_mem (c : Fin 4) (a : BitVec 30) (fails : Nat) (s : State) : leavesMem s
    (execDdrReadBurst c a fails s) := by
  unfold execDdrReadBurst
  dsimp only
  split <;> simp

theorem execDdrAlert_mem (c : Fin 4) (fails : Nat) (s : State) : leavesMem s (execDdrAlert c fails s) := by
  simp [execDdrAlert]

theorem execDdrTempCheck_mem (c : Fin 4) (temp : Int) (s : State) : leavesMem s (execDdrTempCheck c temp s) := by
  simp [execDdrTempCheck]

/-! ### Memory under the operations of Thermal -/

@[simp] theorem checkLimits_mem (s : State) : (checkLimits s).mem = s.mem := by simp [checkLimits]

@[simp] theorem takeLimits_mem (s : State) : (takeLimits s).mem = s.mem := by unfold takeLimits; split <;> simp

@[simp] theorem sensorFault_mem (i : Nat) (s : State) : (sensorFault i s).mem = s.mem := by simp [sensorFault]

@[simp] theorem takeSamples_mem (d : Fin 8) (temps : List Int) (s : State) : (takeSamples d temps s).mem = s.mem := by
  unfold takeSamples
  dsimp only
  rw [foldl_mem fun t x => by simp, modThm_mem, mem_ite, setF_mem, ite_self]
  exact foldl_mem (fun t x => by simp) _ s

@[simp] theorem showThm_mem (s : State) : (showThm s).mem = s.mem := by
  unfold showThm
  dsimp only
  split <;> simp

@[simp] theorem enterLevel_mem (d : Fin 8) (k : Nat) (s : State) : (enterLevel d k s).mem = s.mem := by simp [enterLevel]

@[simp] theorem evaluate_mem (d : Fin 8) (x : Int) (s : State) : (evaluate d x s).mem = s.mem := by simp [evaluate]

theorem execThmCrossCheck_mem (i : Fin 24) (s : State) : leavesMem s (execThmCrossCheck i s) := by
  unfold execThmCrossCheck
  dsimp only
  split <;> simp

theorem execLevelExit_mem (d : Fin 8) (l : Level) (s : State) : leavesMem s (execLevelExit d l s) := by
  unfold execLevelExit
  rw [leavesMem_next]
  split
  · rfl
  · dsimp only
    split <;> simp

@[simp] theorem releaseShutters_mem (s : State) : (releaseShutters s).mem = s.mem := by simp [releaseShutters]

@[simp] theorem moveShutters_mem (close : Bool) (s : State) : (moveShutters close s).mem = s.mem := by simp [moveShutters]

@[simp] theorem haltPacers_mem (s : State) : (haltPacers s).mem = s.mem := by simp [haltPacers]

@[simp] theorem safeState_mem (s : State) : (safeState s).mem = s.mem := by simp [safeState]

@[simp] theorem actShutdown_mem (d : Fin 8) (first : Bool) (s : State) : (actShutdown d first s).mem = s.mem := by
  simp [actShutdown]

@[simp] theorem enterShutdown_mem (d : Fin 8) (s : State) : (enterShutdown d s).mem = s.mem := by
  unfold enterShutdown
  split
  · rfl
  · dsimp only
    split <;> simp

theorem execShutdownEntry_mem (d : Fin 8) (s : State) : leavesMem s (execShutdownEntry d s) := by simp [execShutdownEntry]

theorem execJunctionSample_mem (d : Fin 8) (temps : List Int) (s : State) : leavesMem s (execJunctionSample d temps s) := by
  unfold execJunctionSample
  rw [leavesMem_next]
  split
  · rfl
  · extract_lets s1 s2 s3 s4
    have h2 : s2.mem = s.mem := by rw [checkLimits_mem, takeSamples_mem, takeLimits_mem]
    have h3 : s3.mem = s2.mem := by
      unfold s3
      split
      · rw [evaluate_mem, setF_mem]
      · rw [modThm_mem]
    have h4 : s4.mem = s3.mem := by rw [showThm_mem, mem_ite, enterShutdown_mem, ite_self]
    rw [mem_ite, bump_mem, ite_self, h4, h3, h2]

@[simp] theorem resumeDevice_mem (s : State) : (resumeDevice s).1.mem = s.mem := by
  unfold resumeDevice
  split
  · rfl
  · split
    · simp
    · dsimp only
      split <;> simp

@[simp] theorem writeMargin_mem (s : State) : (writeMargin s).mem = s.mem := by
  unfold writeMargin
  simp

@[simp] theorem repace_mem (s : State) : (repace s).mem = s.mem := by
  unfold repace
  extract_lets step worst
  split
  · rw [raise_mem, writeMargin_mem, setF_mem]
  · rfl

theorem execAgeingMeasure_mem (ppm : List Nat) (s : State) : leavesMem s (execAgeingMeasure ppm s) := by
  unfold execAgeingMeasure
  simp
  intro h
  exact foldl_mem (fun t x => by simp) _ s

theorem execMarginTableWrite_mem (s : State) : leavesMem s (execMarginTableWrite s) := by simp [execMarginTableWrite]

/-! ### Memory under the operations of Loader -/

@[simp] theorem loaderRefuse_mem (who : Option UnitId) (code : Nat) (s : State) : (loaderRefuse who code s).mem = s.mem := by
  simp [loaderRefuse]

/-! ### Memory under the operations of Reset -/

@[simp] theorem noteCause_mem (c : Cause) (s : State) : (noteCause c s).mem = s.mem := by simp [noteCause]

@[simp] theorem loseWords_mem (p : Nat → Bool) (s : State) : (loseWords p s).mem = s.mem := by simp [loseWords]

@[simp] theorem resetPort_mem (s : State) : (resetPort s).mem = s.mem := by simp [resetPort]

@[simp] theorem losePrograms_mem (s : State) : (losePrograms s).mem = s.mem := by rfl

@[simp] theorem oweZero_mem (d : Nat) (s : State) : (oweZero d s).mem = s.mem := by simp [oweZero]

@[simp] theorem resetFocalDie_mem (d : Fin 2) (s : State) : (resetFocalDie d s).mem = s.mem := by simp [resetFocalDie]

@[simp] theorem resetActuatorDie_mem (d : Fin 2) (s : State) : (resetActuatorDie d s).mem = s.mem := by
  simp [resetActuatorDie]

@[simp] theorem rejoinLinks_mem (d : Nat) (bad : List (Fin 16)) (s : State) : (rejoinLinks d bad s).mem = s.mem := by
  refine foldl_mem (fun t l => ?_) _ s
  split
  · split
    · split <;> simp
    · split <;> simp
  · rfl

@[simp] theorem loadCounts_mem (d : Fin 2) (s : State) : (loadCounts d s).mem = s.mem := by
  unfold loadCounts
  rw [foldl_mem fun t n => by simp, foldl_mem fun t v => by simp]

@[simp] theorem rejoinFocal_mem (d : Fin 2) (s : State) : (rejoinFocal d s).mem = s.mem := by
  unfold rejoinFocal
  extract_lets e t t' t''
  have ht : t''.mem = s.mem := by rw [mem_ite, setF_mem, ite_self, setF_mem, setF_mem, takeShutter_mem, takeAtOnce_mem]
  rw [setLowBias_mem, loadFocalTrims_mem, modFd_mem, ht]

@[simp] theorem rejoinBands_mem (s : State) : (rejoinBands s).mem = s.mem := by simp [rejoinBands]

@[simp] theorem rejoinStream_mem (d : Nat) (s : State) : (rejoinStream d s).mem = s.mem := by simp [rejoinStream]

theorem execDieRejoin_mem (d : Fin 8) (bad : List (Fin 16)) (s : State) : leavesMem s (execDieRejoin d bad s) := by
  simp [execDieRejoin]

@[simp] theorem sysOp_mem (u : UnitId) (wide : Bool) (rs : List RegRef) (bad : State → Bool) {act : State → State}
    (hact : ∀ t, (act t).mem = t.mem) (s : State) : (sysOp u wide rs bad act s).mem = s.mem := by simp [sysOp, hact]

@[simp] theorem measureLoad_mem (img : Image) (k : Nat) (s : State) : (measureLoad img k s).mem = s.mem := by
  unfold measureLoad; split <;> simp

@[simp] theorem dropLatches_mem (s : State) : (dropLatches s).mem = s.mem := by simp [dropLatches]

@[simp] theorem takeLow_mem (park : Bool) (s : State) : (takeLow park s).mem = s.mem := by simp [takeLow]

@[simp] theorem requestLow_mem (park : Bool) (s : State) : (requestLow park s).mem = s.mem := by
  unfold requestLow
  split
  · rfl
  · split <;> simp

theorem execSysStandby_mem (u : UnitId) (s : State) : leavesMem s (execSysStandby u s) := by simp [execSysStandby]

theorem execSysPark_mem (u : UnitId) (s : State) : leavesMem s (execSysPark u s) := by simp [execSysPark]

theorem execStandbyParkEntry_mem (s : State) : leavesMem s (execStandbyParkEntry s) := by
  unfold execStandbyParkEntry; split <;> simp

@[simp] theorem leaveLow_mem (s : State) : (leaveLow s).mem = s.mem := by
  unfold leaveLow
  split
  · rfl
  · split <;> simp

@[simp] theorem leaveTo_mem (k : Nat) (s : State) : (leaveTo k s).mem = s.mem := by simp [leaveTo]

@[simp] theorem leaveTick_mem (s : State) : (leaveTick s).mem = s.mem := by unfold leaveTick; split <;> simp

theorem execSysRun_mem (u : UnitId) (s : State) : leavesMem s (execSysRun u s) := by simp [execSysRun]

theorem execExitComplete_mem (s : State) : leavesMem s (execExitComplete s) := by unfold execExitComplete; split <;> simp

/-! ### Memory under the operations of Power -/

@[simp] theorem raiseClocked_mem (code kind index detail : Nat) (s : State) :
    (raiseClocked code kind index detail s).mem = s.mem := by simp [raiseClocked]

@[simp] theorem startAttempt_mem (s : State) : (startAttempt s).mem = s.mem := by rfl

@[simp] theorem railsOff_mem (s : State) : (railsOff s).mem = s.mem := by rfl

theorem execPowerOn_mem (s : State) : leavesMem s (execPowerOn s) := by
  unfold execPowerOn
  rw [leavesMem_next]
  split
  · rfl
  · dsimp only
    rw [startAttempt_mem]
    rw [foldl_mem fun t u => by simp]
    simp

theorem execInrushComplete_mem (s : State) : leavesMem s (execInrushComplete s) := by simp [execInrushComplete]

theorem execInrushTimeout_mem (s : State) : leavesMem s (execInrushTimeout s) := by simp [execInrushTimeout]

theorem execInrushRetry_mem (s : State) : leavesMem s (execInrushRetry s) := by simp [execInrushRetry]

theorem execRailSequenceStep_mem (s : State) : leavesMem s (execRailSequenceStep s) := by
  unfold execRailSequenceStep
  rw [leavesMem_next]
  split
  iterate 4 rfl
  · dsimp only; split <;> rfl
  · rfl

theorem execRefclkPresent_mem (s : State) : leavesMem s (execRefclkPresent s) := by simp [execRefclkPresent]

theorem execBrownoutEnd_mem (s : State) : leavesMem s (execBrownoutEnd s) := by unfold execBrownoutEnd; split <;> simp

theorem execRailRetryWaitEnd_mem (s : State) : leavesMem s (execRailRetryWaitEnd s) := by simp [execRailRetryWaitEnd]

@[simp] theorem enterZone_mem (z code : Nat) (s : State) : (enterZone z code s).mem = s.mem := by simp [enterZone]

theorem execVinLowEntry_mem (s : State) : leavesMem s (execVinLowEntry s) := by simp [execVinLowEntry]

theorem execVinNormalEntry_mem (s : State) : leavesMem s (execVinNormalEntry s) := by simp [execVinNormalEntry]

theorem execVinHighEntry_mem (s : State) : leavesMem s (execVinHighEntry s) := by simp [execVinHighEntry]

@[simp] theorem endForSupply_mem (s : State) : (endForSupply s).mem = s.mem := by
  refine foldl_mem (fun t v => ?_) _ s
  split
  · rw [settleValve_mem, bump_mem, endRun_mem]
  · rfl

theorem execVinOverEntry_mem (s : State) : leavesMem s (execVinOverEntry s) := by simp [execVinOverEntry]

theorem execPwrVinConversion_mem (v : BitVec 16) (s : State) : leavesMem s (execPwrVinConversion v s) := by
  simp [execPwrVinConversion]

@[simp] theorem noteClockLoss_mem (k : ClockLoss) (s : State) : (noteClockLoss k s).mem = s.mem := by
  unfold noteClockLoss; split <;> simp

theorem execClockRestart_mem (s : State) : leavesMem s (execClockRestart s) := by unfold execClockRestart; split <;> simp

theorem execResetNRelease_mem (s : State) : leavesMem s (execResetNRelease s) := by
  unfold execResetNRelease
  rw [leavesMem_next]
  dsimp only
  split <;> split <;> simp

@[simp] theorem takeClusterTest_mem (cl : BitVec 26) (s : State) : (takeClusterTest cl s).mem = s.mem := by
  unfold takeClusterTest
  rw [foldl_mem fun t p => by simp]
  simp

@[simp] theorem takeEngineTest_mem (eng : BitVec 80) (s : State) : (takeEngineTest eng s).mem = s.mem := by
  unfold takeEngineTest
  refine foldl_keeps (fun x : List Nat × State => x.2.mem) (fun x l => ?_) _ _
  dsimp only
  split
  · split_ifs <;> rfl
  · rfl

@[simp] theorem chooseSlot_mem (s : State) : (chooseSlot s).mem = s.mem := by unfold chooseSlot; split <;> simp

@[simp] theorem checkLifecycle_mem (s : State) : (checkLifecycle s).mem = s.mem := by simp [checkLifecycle]

@[simp] theorem checkCounter_mem (signer : Option Nat) (s : State) : (checkCounter signer s).mem = s.mem := by
  simp [checkCounter]

theorem execResetRelease_mem (cl : BitVec 26) (eng : BitVec 80) (bad : List (Fin 16)) (s : State) : leavesMem s
    (execResetRelease cl eng bad s) := by
  unfold execResetRelease
  rw [leavesMem_next]
  split
  · rfl
  · extract_lets s1 s2
    have h2 : s2.mem = s.mem := by
      unfold s2
      split <;> rfl
    split
    · rfl
    · dsimp only
      rw [checkCounter_mem, checkLifecycle_mem, takeEngineTest_mem, takeClusterTest_mem, foldl_mem fun t l => ?_]
      · rw [setF_mem]
        exact h2
      · split <;> simp

/-! ### Memory under the operations of Time -/

@[simp] theorem moveTime_mem (d : Int) (s : State) : (moveTime d s).mem = s.mem := by rfl

@[simp] theorem shiftTime_mem (d : Int) (s : State) : (shiftTime d s).mem = s.mem := by simp [shiftTime]

@[simp] theorem stepTime_mem (s : State) : (stepTime s).mem = s.mem := by simp [stepTime]

@[simp] theorem showStratum_mem (s : State) : (showStratum s).mem = s.mem := by rfl

@[simp] theorem useSource_mem (x : TimeSrc) (s : State) : (useSource x s).mem = s.mem := by simp [useSource]

@[simp] theorem takeOffset_mem (x : TimeSrc) (off : Int) (s : State) : (takeOffset x off s).mem = s.mem := by
  simp [takeOffset]

theorem execTimeOffsetMeasured_mem (x : TimeSrc) (off : Int) (s : State) : leavesMem s (execTimeOffsetMeasured x off s) := by
  simp [execTimeOffsetMeasured]

theorem execTimeStep_mem (s : State) : leavesMem s (execTimeStep s) := by simp [execTimeStep]

theorem execSlewComplete_mem (s : State) : leavesMem s (execSlewComplete s) := by simp [execSlewComplete]

@[simp] theorem loseSource_mem (s : State) : (loseSource s).mem = s.mem := by unfold loseSource; split <;> simp

theorem execTimeSourceLost_mem (s : State) : leavesMem s (execTimeSourceLost s) := by simp [execTimeSourceLost]

@[simp] theorem loseIf_mem (x : TimeSrc) (s : State) : (loseIf x s).mem = s.mem := by simp [loseIf]

@[simp] theorem tickTime_mem (s : State) : (tickTime s).mem = s.mem := by simp [tickTime]

/-! ### Memory under the operations of Freeze -/

@[simp] theorem checkSlot_mem (s : State) (i : Nat) : (checkSlot s i).mem = s.mem := by simp [checkSlot]

@[simp] theorem checkSlots_mem (s : State) : (checkSlots s).mem = s.mem := by simp [checkSlots]

@[simp] theorem scanLifecycle_mem (s : State) : (scanLifecycle s).mem = s.mem := by simp [scanLifecycle]

theorem execIntegrityScan_mem (s : State) : leavesMem s (execIntegrityScan s) := by simp [execIntegrityScan]

@[simp] theorem freezeNow_mem (src : Nat) (s : State) : (freezeNow src s).mem = s.mem := by simp [freezeNow]

@[simp] theorem requestFreeze_mem (src : Nat) (s : State) : (requestFreeze src s).mem = s.mem := by simp [requestFreeze]

theorem execFreezeNAssert_mem (ns : Nat) (s : State) : leavesMem s (execFreezeNAssert ns s) := by simp [execFreezeNAssert]

theorem execSysFreeze_mem (u : UnitId) (s : State) : leavesMem s (execSysFreeze u s) := by simp [execSysFreeze]

@[simp] theorem taintBuffers_mem (s : State) : (taintBuffers s).mem = s.mem := by rfl

@[simp] theorem raiseAt_mem (t code detail : Nat) (s : State) : (raiseAt t code detail s).mem = s.mem := by rfl

@[simp] theorem endFreeze_mem (a t : Nat) (s : State) : (endFreeze a t s).mem = s.mem := by simp [endFreeze]

/-! ### Memory under the operations of Boot -/

@[simp] theorem verifyFail_mem (n : Nat) (s : State) : (verifyFail n s).mem = s.mem := by rfl

@[simp] theorem slotFails_mem (s : State) : (slotFails s).mem = s.mem := by simp [slotFails]

@[simp] theorem loadMargin_mem (s : State) : (loadMargin s).mem = s.mem := by
  unfold loadMargin
  dsimp only
  split
  · simp
  · dsimp only
    rw [foldl_mem fun t d => by simp]
    simp

theorem execIndexComplete_mem (s : State) : leavesMem s (execIndexComplete s) := by simp [execIndexComplete]

theorem execPixelModelLoaded_mem (s : State) : leavesMem s (execPixelModelLoaded s) := by simp [execPixelModelLoaded]

theorem execFirstInstruction_mem (s : State) : leavesMem s (execFirstInstruction s) := by
  unfold execFirstInstruction
  rw [leavesMem_next]
  split
  · rfl
  · extract_lets s1 s2 s3 s4 _ s5 _ s6 s7
    have h2 : s2.mem = s.mem := by rw [raise_mem, setF_mem, setF_mem]
    have h4 : s4.mem = s2.mem := by rw [mem_ite, raise_mem, ite_self, mem_ite, raise_mem, ite_self]
    have h7 : s7.mem = s4.mem := rfl
    split
    · rw [freezeNow_mem, h7, h4, h2]
    · exact h7.trans (h4.trans h2)

@[simp] theorem showWipe_mem (s : State) : (showWipe s).mem = s.mem := by simp [showWipe]

theorem execDdrTrainingComplete_mem (size : BitVec 8) (eyes : List (BitVec 16)) (s : State) : leavesMem s
    (execDdrTrainingComplete size eyes s) := by simp [execDdrTrainingComplete]

@[simp] theorem erasePartition_mem (p : Nat) (s : State) : (erasePartition p s).mem = s.mem := by simp [erasePartition]

@[simp] theorem completionMark_mem (st : Nat) (s : State) : (completionMark st s).mem = s.mem := by
  unfold completionMark
  dsimp only
  split <;> simp

theorem execLifecycleWipeComplete_mem (s : State) : leavesMem s (execLifecycleWipeComplete s) := by
  unfold execLifecycleWipeComplete
  rw [leavesMem_next]
  split
  · rfl
  · extract_lets s1 s2 st _ s3
    have h2 : s2.mem = s.mem := by rw [modNvs_mem, erasePartition_mem, erasePartition_mem, erasePartition_mem]
    have h3 : s3.mem = s2.mem := by
      unfold s3
      split
      · rw [setF_mem, setF_mem]
      · rfl
    rw [checkLifecycle_mem, raise_mem, showNvs_mem, setF_mem, completionMark_mem, h3, h2]

/-! ### Memory under the operations of EventLog -/

@[simp] theorem loseRecord_mem (s : State) : (loseRecord s).mem = s.mem := by simp [loseRecord]

@[simp] theorem enterLog_mem (r : EvRec) (s : State) : (enterLog r s).mem = s.mem := by simp [enterLog]

theorem execEventLogEntry_mem (i : Nat) (s : State) : leavesMem s (execEventLogEntry i s) := by
  unfold execEventLogEntry; split <;> simp

/-! ### Memory under the operations of Request -/

@[simp] theorem reply_mem (h : Hdr) (st : Nat) (data : List Byte) (s : State) : (reply h st data s).mem = s.mem := by
  simp [reply]

@[simp] theorem conclude_mem (h : Hdr) (st : Nat) (data : List Byte) (s : State) : (conclude h st data s).mem = s.mem := by
  simp [conclude]

@[simp] theorem requestThen_mem (op : Nat) (layout : List Byte → Bool) {act : State → State × Option (Nat × List Byte)}
    (hact : ∀ t, (act t).1.mem = t.mem) {after : State → State} (hafter : ∀ t, (after t).mem = t.mem) (h : Hdr)
    (p : List Byte) (s : State) : (requestThen op layout act after h p s).mem = s.mem := by
  unfold requestThen
  split
  · rfl
  · split
    · simp
    · split
      · rfl
      · split
        · split <;> simp
        · split
          · simp
          · split
            next t ht => rw [← hact s, ht]
            next t st data ht =>
              have hm : t.mem = s.mem := by rw [← hact s, ht]
              split
              · rw [hafter, conclude_mem, hm]
              · rw [conclude_mem, hm]

@[simp] theorem request_mem (op : Nat) (layout : List Byte → Bool) {act : State → State × Option (Nat × List Byte)}
    (hact : ∀ t, (act t).1.mem = t.mem) (h : Hdr) (p : List Byte) (s : State) : (request op layout act h p s).mem =
    s.mem := by exact requestThen_mem op layout hact (fun t => rfl) h p s

@[simp] theorem plain_mem {f : State → State × Bool} (hf : ∀ t, (f t).1.mem = t.mem) (s : State) : (plain f s).1.mem =
    s.mem := by
  simp [plain, hf]

theorem execDatagramDiscard_mem (h : Hdr) (p : List Byte) (s : State) : leavesMem s (execDatagramDiscard h p s) := by
  simp [execDatagramDiscard]

@[simp] theorem readMany_mem (a : Nat) (n : Nat) (s : State) : (readMany a n s).1.mem = s.mem := by
  induction n generalizing a s with
  | zero => rfl
  | succ n ih =>
    unfold readMany
    dsimp only
    rw [ih]
    simp

theorem execCmdRead_mem (h : Hdr) (p : List Byte) (s : State) : leavesMem s (execCmdRead h p s) := by simp [execCmdRead]

theorem execCmdEvtClr_mem (h : Hdr) (p : List Byte) (s : State) : leavesMem s (execCmdEvtClr h p s) := by
  simp [execCmdEvtClr]

theorem execCmdEvents_mem (h : Hdr) (p : List Byte) (s : State) : leavesMem s (execCmdEvents h p s) := by
  refine (leavesMem_next ..).2 (request_mem _ _ (fun t => ?_) h p s)
  refine foldl_keeps (fun x : State × List Word => x.1.mem) (fun x i => ?_) _ _
  exact readMany_mem ..

theorem execCmdWake_mem (h : Hdr) (p : List Byte) (s : State) : leavesMem s (execCmdWake h p s) := by simp [execCmdWake]

theorem execCmdResume_mem (h : Hdr) (p : List Byte) (s : State) : leavesMem s (execCmdResume h p s) := by
  simp [execCmdResume]

theorem execCmdNvs_mem (h : Hdr) (p : List Byte) (s : State) : leavesMem s (execCmdNvs h p s) := by
  refine (leavesMem_next ..).2 (request_mem _ _ (fun t => ?_) h p s)
  simp

@[simp] theorem setPort_mem (e : Fin 2) (ip mask : Word) (mode : Nat) (s : State) : (setPort e ip mask mode s).mem =
    s.mem := by
  simp [setPort]

@[simp] theorem setNet_mem (p : List Byte) (s : State) : (setNet p s).mem = s.mem := by simp [setNet]

theorem execCmdSetNet_mem (h : Hdr) (p : List Byte) (s : State) : leavesMem s (execCmdSetNet h p s) := by
  simp [execCmdSetNet]

/-! ### Memory under the operations of Security -/

@[simp] theorem takeChunk_mem (op : Nat) (img : Image) (h : Hdr) (p : List Byte) (s : State) :
    (takeChunk op img h p s).1.mem = s.mem := by
  unfold takeChunk
  simp

theorem execCmdImage_mem (h : Hdr) (p : List Byte) (img : Image) (s : State) : leavesMem s (execCmdImage h p img s) := by
  simp [execCmdImage]

theorem execCmdLoad_mem (h : Hdr) (p : List Byte) (img : Image) (s : State) : leavesMem s (execCmdLoad h p img s) := by
  simp [execCmdLoad]

@[simp] theorem pushAuth_mem (r : AuthReq) (s : State) : (pushAuth r s).mem = s.mem := by rfl

theorem execSysLifecycle_mem (u : UnitId) (b : Src) (s : State) : leavesMem s (execSysLifecycle u b s) := by
  simp [execSysLifecycle]

@[simp] theorem refuseAuth_mem (r : AuthReq) (s : State) : (refuseAuth r s).mem = s.mem := by simp [refuseAuth]

theorem execCmdAuth_mem (h : Hdr) (p : List Byte) (s : State) : leavesMem s (execCmdAuth h p s) := by
  refine (leavesMem_next ..).2 (request_mem _ _ (fun t => ?_) h p s)
  simp

@[simp] theorem setSlot_mem (i x : Nat) (s : State) : (setSlot i x s).mem = s.mem := by rfl

theorem execCmdAttest_mem (h : Hdr) (p : List Byte) (s : State) : leavesMem s (execCmdAttest h p s) := by
  refine (leavesMem_next ..).2 (request_mem _ _ (fun t => ?_) h p s)
  split <;> simp

theorem execAttestReport_mem (s : State) : leavesMem s (execAttestReport s) := by unfold execAttestReport; split <;> simp

/-! ### Memory under the operations of Vangad -/

@[simp] theorem vgdDown_mem (p : Fin 2) (s : State) : (vgdDown p s).mem = s.mem := by simp [vgdDown]

theorem execVgdLinkTrained_mem (p : Fin 2) (s : State) : leavesMem s (execVgdLinkTrained p s) := by
  simp [execVgdLinkTrained]

theorem execVgdLinkDown_mem (p : Fin 2) (s : State) : leavesMem s (execVgdLinkDown p s) := by simp [execVgdLinkDown]

@[simp] theorem noteSeen_mem (source kind cseq : Nat) (s : State) : (noteSeen source kind cseq s).mem = s.mem := by rfl

@[simp] theorem forward_mem (p : Fin 2) (kind : Nat) (c : Cell) (s : State) : (forward p kind c s).mem = s.mem := by
  simp [forward]

@[simp] theorem cellIn_mem (p : Fin 2) (kind : Nat) (c : Cell) {act : Bool → State → State}
    (hact : ∀ b t, (act b t).mem = t.mem) (s : State) : (cellIn p kind c act s).mem = s.mem := by simp [cellIn, hact]

@[simp] theorem takeSync_mem (p : Fin 2) (c : Cell) (s : State) : (takeSync p c s).mem = s.mem := by simp [takeSync]

theorem execVgdSyncCell_mem (p : Fin 2) (c : Cell) (s : State) : leavesMem s (execVgdSyncCell p c s) := by
  simp [execVgdSyncCell]

@[simp] theorem takeLatch_mem (b : List Word) (s : State) : (takeLatch b s).mem = s.mem := by simp [takeLatch]

theorem execVgdLatchCell_mem (p : Fin 2) (c : Cell) (s : State) : leavesMem s (execVgdLatchCell p c s) := by
  simp [execVgdLatchCell]

theorem execLatchDatagram_mem (h : Hdr) (p : List Byte) (s : State) : leavesMem s (execLatchDatagram h p s) := by
  refine (leavesMem_next ..).2 (request_mem _ _ (plain_mem fun t => ?_) h p s)
  simp

@[simp] theorem sendDatagram_mem (e : Fin 2) (ip : Word) (h : Hdr) (data : List Byte) (s : State) :
    (sendDatagram e ip h data s).mem = s.mem := by simp [sendDatagram]

@[simp] theorem sendLatch_mem (b : List Word) (s : State) : (sendLatch b s).mem = s.mem := by simp [sendLatch]

theorem execLatch_mem (u : UnitId) (n : Reg) (s : State) : leavesMem s (execLatch u n s) := by simp [execLatch]

@[simp] theorem takeTime_mem (p : Fin 2) (c : Cell) (s : State) : (takeTime p c s).mem = s.mem := by simp [takeTime]

theorem execVgdTimeCell_mem (p : Fin 2) (c : Cell) (s : State) : leavesMem s (execVgdTimeCell p c s) := by
  simp [execVgdTimeCell]

theorem execVgdTimeSend_mem (p : Fin 2) (s : State) : leavesMem s (execVgdTimeSend p s) := by simp [execVgdTimeSend]

@[simp] theorem showRx_mem (s : State) : (showRx s).mem = s.mem := by rfl

@[simp] theorem rxPush_mem (kind port type source : Nat) (data : List Byte) (s : State) :
    (rxPush kind port type source data s).mem = s.mem := by simp [rxPush]

theorem execVgdHandoffCell_mem (p : Fin 2) (c : Cell) (s : State) : leavesMem s (execVgdHandoffCell p c s) := by
  simp [execVgdHandoffCell]

theorem execVgdOwnerCell_mem (p : Fin 2) (c : Cell) (s : State) : leavesMem s (execVgdOwnerCell p c s) := by
  simp [execVgdOwnerCell]

theorem execCmdMsg_mem (h : Hdr) (p : List Byte) (s : State) : leavesMem s (execCmdMsg h p s) := by simp [execCmdMsg]

/-! ### Memory under the operations of Ethernet -/

@[simp] theorem joinGroups_mem (e : Fin 2) (s : State) : (joinGroups e s).mem = s.mem := by
  exact foldl_mem (fun t g => by simp) _ s

theorem execEthLinkUp_mem (e : Fin 2) (s : State) : leavesMem s (execEthLinkUp e s) := by simp [execEthLinkUp]

@[simp] theorem ptpStop_mem (e : Fin 2) (s : State) : (ptpStop e s).mem = s.mem := by simp [ptpStop]

@[simp] theorem ethDown_mem (e : Fin 2) (s : State) : (ethDown e s).mem = s.mem := by simp [ethDown]

theorem execEthLinkDown_mem (e : Fin 2) (s : State) : leavesMem s (execEthLinkDown e s) := by simp [execEthLinkDown]

theorem execSerdesUnlock_mem (p : Fin 4) (s : State) : leavesMem s (execSerdesUnlock p s) := by simp [execSerdesUnlock]

theorem execEthFrameReceive_mem (e : Fin 2) (f : EthFrame) (s : State) : leavesMem s (execEthFrameReceive e f s) := by
  simp [execEthFrameReceive]

theorem execArpRequest_mem (e : Fin 2) (dst src : Word) (data : List Byte) (s : State) : leavesMem s
    (execArpRequest e dst src data s) := by simp [execArpRequest]

theorem execIcmpEcho_mem (e : Fin 2) (mac : BitVec 48) (dst src : Word) (data : List Byte) (s : State) : leavesMem s
    (execIcmpEcho e mac dst src data s) := by simp [execIcmpEcho]

theorem execAddrConflict_mem (e : Fin 2) (s : State) : leavesMem s (execAddrConflict e s) := by simp [execAddrConflict]

@[simp] theorem modPtp_mem (e : Fin 2) (f : PtpPort → PtpPort) (s : State) : (modPtp e f s).mem = s.mem := by rfl

@[simp] theorem sendPtp_mem (e : Fin 2) (k : PtpKind) (seq : Nat) (stamp : Int) (s : State) :
    (sendPtp e k seq stamp s).mem = s.mem := by rfl

@[simp] theorem ptpOffset_mem (e : Fin 2) (s : State) : (ptpOffset e s).mem = s.mem := by unfold ptpOffset; split <;> simp

@[simp] theorem ptpPair_mem (e : Fin 2) (t1 t2 : Int) (s : State) : (ptpPair e t1 t2 s).mem = s.mem := by simp [ptpPair]

theorem execPtpSync_mem (e : Fin 2) (m : PtpMsg) (s : State) : leavesMem s (execPtpSync e m s) := by simp [execPtpSync]

theorem execPtpFollowUp_mem (e : Fin 2) (m : PtpMsg) (s : State) : leavesMem s (execPtpFollowUp e m s) := by
  unfold execPtpFollowUp; split <;> simp

theorem execPtpDelayReq_mem (e : Fin 2) (m : PtpMsg) (s : State) : leavesMem s (execPtpDelayReq e m s) := by
  simp [execPtpDelayReq]

theorem execPtpDelayResp_mem (e : Fin 2) (m : PtpMsg) (s : State) : leavesMem s (execPtpDelayResp e m s) := by
  unfold execPtpDelayResp; split <;> simp

@[simp] theorem follow_mem (e : Fin 2) (c : PtpClock) (s : State) : (follow e c s).mem = s.mem := by simp [follow]

theorem execPtpAnnounce_mem (e : Fin 2) (m : PtpMsg) (s : State) : leavesMem s (execPtpAnnounce e m s) := by
  simp [execPtpAnnounce]

theorem execPtpAnnounceTimeout_mem (e : Fin 2) (s : State) : leavesMem s (execPtpAnnounceTimeout e s) := by
  simp [execPtpAnnounceTimeout]

@[simp] theorem ptpAnnounce_mem (e : Fin 2) (s : State) : (ptpAnnounce e s).mem = s.mem := by simp [ptpAnnounce]

theorem execPtpSyncSend_mem (e : Fin 2) (s : State) : leavesMem s (execPtpSyncSend e s) := by simp [execPtpSyncSend]

theorem execHeartbeatSend_mem (e : Fin 2) (s : State) : leavesMem s (execHeartbeatSend e s) := by
  unfold execHeartbeatSend; split <;> simp

theorem execAliveToggle_mem (s : State) : leavesMem s (execAliveToggle s) := by simp [execAliveToggle]

/-! ### Memory under the operations of Jtag -/

@[simp] theorem toBypass_mem (s : State) : (toBypass s).mem = s.mem := by rfl

@[simp] theorem loadIr_mem (ok : Bool) (c : Nat) {act : State → State} (hact : ∀ t, (act t).mem = t.mem) (s : State) :
    (loadIr ok c act s).mem = s.mem := by simp [loadIr, hact]

@[simp] theorem captureChain_mem (s : State) : (captureChain s).mem = s.mem := by rfl

@[simp] theorem shiftBoundary_mem (v : List Bool) (s : State) : (shiftBoundary v s).mem = s.mem := by rfl

theorem execExtest_mem (v : List Bool) (s : State) : leavesMem s (execExtest v s) := by simp [execExtest]

theorem execSamplePreload_mem (v : List Bool) (s : State) : leavesMem s (execSamplePreload v s) := by
  simp [execSamplePreload]

theorem execIdcode_mem (s : State) : leavesMem s (execIdcode s) := by
  exact (leavesMem_next ..).2 (loadIr_mem _ _ (fun t => by simp) s)

theorem execClamp_mem (s : State) : leavesMem s (execClamp s) := by
  exact (leavesMem_next ..).2 (loadIr_mem _ _ (fun t => by simp) s)

theorem execHighz_mem (s : State) : leavesMem s (execHighz s) := by
  exact (leavesMem_next ..).2 (loadIr_mem _ _ (fun t => by simp) s)

theorem execZfreeze_mem (s : State) : leavesMem s (execZfreeze s) := by simp [execZfreeze]

theorem execZresume_mem (s : State) : leavesMem s (execZresume s) := by unfold execZresume; split <;> simp

theorem execZunit_mem (v : BitVec 8) (s : State) : leavesMem s (execZunit v s) := by
  exact (leavesMem_next ..).2 (loadIr_mem _ _ (fun t => by simp) s)

theorem execZcapture_mem (s : State) : leavesMem s (execZcapture s) := by
  exact (leavesMem_next ..).2 (loadIr_mem _ _ (fun t => by simp) s)

theorem execZaddr_mem (v : BitVec 40) (s : State) : leavesMem s (execZaddr v s) := by
  exact (leavesMem_next ..).2 (loadIr_mem _ _ (fun t => by simp) s)

@[simp] theorem jtagRead_mem (a : Nat) (s : State) : (jtagRead a s).1.mem = s.mem := by
  unfold jtagRead
  simp

theorem execZdata_mem (s : State) : leavesMem s (execZdata s) := by simp [execZdata]

theorem execBypass_mem (c : BitVec 8) (s : State) : leavesMem s (execBypass c s) := by simp [execBypass]

theorem execTrstNAssert_mem (ns : Nat) (s : State) : leavesMem s (execTrstNAssert ns s) := by simp [execTrstNAssert]

/-! ### Memory under the operations of Message -/

@[simp] theorem settleLinks_mem (s : State) : (settleLinks s).mem = s.mem := by simp [settleLinks]

/-! ### Memory under the operations of Idle -/

@[simp] theorem endFreezeN_mem (s : State) : (endFreezeN s).mem = s.mem := by simp [endFreezeN]

@[simp] theorem monitorTick_mem (s : State) : (monitorTick s).mem = s.mem := by simp [monitorTick]

/-! ### Memory under the operations of Step -/

@[simp] theorem State_withFetchWord_mem (s : State) (nbits w : Nat) : (State.withFetchWord s nbits w).mem = s.mem := by
  unfold State.withFetchWord; split <;> simp

/-! ### Operations that write memory -/

/-- A state whose memory is that of a sound one is sound. -/
theorem sound_of_mem {s t : State} (h : t.mem = s.mem) (hs : sound s) : sound t := by
  unfold sound
  rwa [h]

/-- An answer that, where it is a next state, is sound when `s` is. -/
def keepsSound (s : State) (o : Host.Outcome State Fault Refusal) : Prop := sound s → ∀ t, o = .next t → sound t

theorem keepsSound_next {s t : State} (h : sound s → sound t) : keepsSound s (.next t) := by
  rintro hs _ ⟨⟩
  exact h hs

theorem keepsSound_of_leavesMem {s : State} {o : Host.Outcome State Fault Refusal} (h : leavesMem s o) : keepsSound s o :=
  fun hs t ht => sound_of_mem (h t ht) hs

/-- A fold of steps that keep a state sound keeps it sound. -/
theorem foldl_sound {α : Type} {g : State → α → State} (h : ∀ s x, sound s → sound (g s x)) (l : List α) {s : State}
    (hs : sound s) : sound (l.foldl g s) :=
  List.foldlRecOn l g hs fun t ht x _ => h t x ht

section
variable {s : State}

theorem storeWords_sound (a : Nat) (ws : List Word) (hs : sound s) : sound (storeWords a ws s) := wf_writeWords a ws hs

theorem storePart_sound (a : Nat) (bs : List Byte) (hs : sound s) : sound (storePart a bs s) := wf_writeBytes a bs hs

theorem refetch_sound (ws : List Nat) (hs : sound s) : sound (refetch ws s) := by
  refine foldl_sound (fun t w ht => ?_) ws hs
  split
  · split
    · exact ht
    · split
      · exact sound_of_mem (by simp) ht
      · exact wf_writeWords w _ ht
  · exact ht

theorem checkLoad_sound (ws : List Nat) (hs : sound s) : sound (checkLoad ws s).1 :=
  sound_of_mem (by simp [checkLoad]) (refetch_sound ws hs)

theorem checkSource_sound (x : Xfer) (hs : sound s) : sound (checkSource x s).1 := by
  unfold checkSource
  split
  · exact hs
  · exact sound_of_mem (by simp) (checkLoad_sound (sourceAddrs x) hs)

theorem performOp_sound (u : UnitId) (o : MemOp) (hs : sound s) : sound (performOp u o s).1 := by
  unfold performOp
  split
  · exact sound_of_mem (setS_mem ..) (checkLoad_sound _ hs)
  · exact sound_of_mem (setPair_mem ..) (checkLoad_sound _ hs)
  · exact sound_of_mem (setV_mem ..) (checkLoad_sound _ hs)
  · dsimp only
    split
    · exact storePart_sound _ _ hs
    · exact storeWords_sound _ _ hs

theorem execLoadComplete_sound (u : UnitId) (t : Tag) : keepsSound s (execLoadComplete u t s) := by
  refine keepsSound_next fun hs => ?_
  split
  · split
    · exact sound_of_mem (finishTag_mem ..) (performOp_sound _ _ hs)
    · exact hs
  · exact hs

theorem loseTag_sound (x : Xfer) (hs : sound s) : sound (loseTag x s).1 := by
  unfold loseTag
  split
  · exact hs
  · split
    · exact hs
    · split
      · exact checkSource_sound x hs
      · exact hs

theorem loseTags_sound (u : UnitId) (hs : sound s) : sound (loseTags u s) := by
  refine foldl_sound (fun t x ht => ?_) s.xfers hs
  split
  · exact loseTag_sound x ht
  · exact ht

/-- An endpoint that takes a record and leaves memory alone keeps the state sound. -/
theorem recordOut_sound (u : UnitId) (t : Tag) (p : Nat → Bool) (dies : Xfer → List Word → State → List Nat)
    {act : Xfer → List Word → State → State × Nat} (h : ∀ x ws t, (act x ws t).1.mem = t.mem) (hs : sound s) :
    sound (recordOut u t p dies act s) := by
  unfold recordOut
  split
  · exact hs
  · split
    · exact hs
    · split
      · exact hs
      · split
        · exact hs
        · dsimp only
          split
          · exact checkSource_sound _ hs
          · exact sound_of_mem (h ..) (checkSource_sound _ hs)

/-- An endpoint that gives data and leaves memory alone keeps the state sound: the data lands in the window. -/
theorem dataIn_sound (u : UnitId) (t : Tag) (p : Nat → Bool) (dies : Xfer → State → List Nat)
    {act : Xfer → State → State × Nat × List Word} (h : ∀ x t, (act x t).1.mem = t.mem) (hs : sound s) :
    sound (dataIn u t p dies act s) := by
  unfold dataIn
  split
  · exact hs
  · split
    · exact hs
    · split
      · exact hs
      · split
        · exact hs
        · dsimp only
          split
          · exact storeWords_sound _ _ (sound_of_mem (h ..) hs)
          · exact sound_of_mem (h ..) hs

theorem execClusterTransfer_sound (u : UnitId) (t : Tag) : keepsSound s (execClusterTransfer u t s) := by
  refine keepsSound_next fun hs => ?_
  split
  · exact hs
  next x _ =>
    split
    · exact hs
    · split
      · exact hs
      · split
        · exact hs
        · split
          · exact hs
          · split
            · exact hs
            · extract_lets mine theirs src dst
              split
              · exact storeWords_sound _ _ (checkSource_sound x hs)
              · have hc := checkLoad_sound (wordsOf src x.len) hs
                split
                next t' bad h =>
                  rw [h] at hc
                  extract_lets t'' bads
                  have ht : sound t'' := sound_of_mem (by rw [mem_ite, setF_mem, ite_self]) hc
                  exact storeWords_sound _ _ ht

theorem ddrWrite_sound (c : Fin 4) (x : Xfer) (hs : sound s) : sound (ddrWrite c x s) :=
  storeWords_sound _ _ (checkSource_sound x hs)

theorem ddrRead_sound (c : Fin 4) (x : Xfer) (hs : sound s) : sound (ddrRead c x s) := by
  unfold ddrRead
  extract_lets a stuck mine bad s1 ws base hit s2 whole s3
  have h1 : sound s1 := foldl_sound (fun t b ht => sound_of_mem (by simp) ht) _ hs
  have h2 : sound s2 := storeWords_sound _ _ h1
  refine sound_of_mem (s := s2) ?_ h2
  rw [setCode_mem, mem_ite, ite_self]

theorem execDdrAccess_sound (u : UnitId) (t : Tag) : keepsSound s (execDdrAccess u t s) := by
  refine keepsSound_next fun hs => ?_
  split
  · exact hs
  · dsimp only
    split
    · exact hs
    · split
      · exact hs
      · split
        · exact hs
        · split
          · exact sound_of_mem (by simp) hs
          · split
            · exact ddrWrite_sound _ _ hs
            · exact ddrRead_sound _ _ hs

/-! ### Records and reads -/

theorem refusing_mem {f : Fld} {code kind index ep : Nat} {ok : Bool} {p : State × Nat} (h : p.1.mem = s.mem) :
    (if !ok then refuseRecord f code kind index ep s else p).1.mem = s.mem := by
  rw [mem_ite_fst, refuseRecord_mem, h, ite_self]

theorem typedRecord_sound (u : UnitId) (t : Tag) (p types : Nat → Bool) (dies : Xfer → List Word → State → List Nat)
    {act : Xfer → List Word → State → State × Nat} (h : ∀ x ws t, (act x ws t).1.mem = t.mem) (hs : sound s) :
    sound (typedRecord u t p types dies act s) := by
  unfold typedRecord
  split
  · split
    · exact recordOut_sound u t p dies h hs
    · exact hs
  · exact hs

theorem nvsOut_sound (u : UnitId) (t : Tag) (ops : Nat → Bool) (hs : sound s) : sound (nvsOut u t ops s) := by
  unfold nvsOut
  split
  · split
    · exact recordOut_sound u t _ _ (fun x ws t => nvsRequest_mem ..) hs
    · exact hs
  · exact hs

theorem sadcRecord_sound (u : UnitId) (t : Tag) (types : Nat → Bool) (hs : sound s) : sound (sadcRecord u t types s) := by
  unfold sadcRecord
  split
  · exact hs
  · split
    · exact hs
    · exact recordOut_sound u t _ _ (fun x ws t => refusing_mem (takeSadcRecord_mem ..)) hs

theorem msgOut_sound (u : UnitId) (t : Tag) (kinds : Nat → Bool) {act : Xfer → List Word → State → State × Nat}
    (h : ∀ x ws t, (act x ws t).1.mem = t.mem) (hs : sound s) : sound (msgOut u t kinds act s) := by
  unfold msgOut
  split
  · split
    · exact recordOut_sound u t _ _ h hs
    · exact hs
  · exact hs

variable (u : UnitId) (t : Tag)

theorem execFpdRawRead_sound : keepsSound s (execFpdRawRead u t s) := by
  refine keepsSound_next fun hs => ?_
  split
  · exact hs
  · dsimp only
    split
    · exact hs
    · exact dataIn_sound u t _ _ (fun x t => modFd_mem ..) hs

theorem execFpdCtlRecord_sound : keepsSound s (execFpdCtlRecord u t s) :=
  keepsSound_next fun hs => recordOut_sound u t _ _ (fun x ws t => refusing_mem (by simp)) hs

theorem execCorModelRecord_sound : keepsSound s (execCorModelRecord u t s) :=
  keepsSound_next fun hs => recordOut_sound u t _ _ (fun x ws t => refusing_mem (by simp)) hs

theorem execCorBlindRead_sound : keepsSound s (execCorBlindRead u t s) :=
  keepsSound_next fun hs => dataIn_sound u t _ _ (fun x t => by simp) hs

theorem execCorCtlRecord_sound : keepsSound s (execCorCtlRecord u t s) :=
  keepsSound_next fun hs => recordOut_sound u t _ _ (fun _ _ _ => refusing_mem rfl) hs

theorem execAlgCtlRecord_sound : keepsSound s (execAlgCtlRecord u t s) := by
  refine keepsSound_next fun hs => recordOut_sound u t _ _ (fun x ws t => ?_) hs
  dsimp only
  split
  · exact foldl_mem (fun t l => by simp) _ t
  · rw [foldl_mem fun t l => by simp, setF_mem, bumpBy_mem]

theorem execAlgRamLoad_sound : keepsSound s (execAlgRamLoad u t s) := by
  refine keepsSound_next fun hs => recordOut_sound u t _ _ (fun x ws t => ?_) hs
  dsimp only
  split
  · exact foldl_mem (fun t l => by simp) _ t
  · rw [raise_mem, setF_mem, bump_mem]

theorem execAlgDetRead_sound : keepsSound s (execAlgDetRead u t s) :=
  keepsSound_next fun hs => dataIn_sound u t _ _ (fun x t => by simp) hs

theorem execCsnCtlRecord_sound : keepsSound s (execCsnCtlRecord u t s) :=
  keepsSound_next fun hs => recordOut_sound u t _ _ (fun _ _ _ => refusing_mem rfl) hs

theorem execCsnOutRead_sound : keepsSound s (execCsnOutRead u t s) :=
  keepsSound_next fun hs => dataIn_sound u t _ _ (fun x t => by simp) hs

theorem execNvsRead_sound : keepsSound s (execNvsRead u t s) :=
  keepsSound_next fun hs => dataIn_sound u t _ _ (fun x t => by simp) hs

theorem execNvsWrite_sound : keepsSound s (execNvsWrite u t s) := keepsSound_next (nvsOut_sound u t _)
theorem execNvsDelete_sound : keepsSound s (execNvsDelete u t s) := keepsSound_next (nvsOut_sound u t _)
theorem execNvsUnlockRead_sound : keepsSound s (execNvsUnlockRead u t s) := keepsSound_next (nvsOut_sound u t _)
theorem execNvsUnlockWrite_sound : keepsSound s (execNvsUnlockWrite u t s) := keepsSound_next (nvsOut_sound u t _)
theorem execNvsLock_sound : keepsSound s (execNvsLock u t s) := keepsSound_next (nvsOut_sound u t _)
theorem execNvsSetReadPassword_sound : keepsSound s (execNvsSetReadPassword u t s) := keepsSound_next (nvsOut_sound u t _)
theorem execNvsSetWritePassword_sound : keepsSound s (execNvsSetWritePassword u t s) := keepsSound_next (nvsOut_sound u t _)

theorem execEjtCtlDie_sound : keepsSound s (execEjtCtlDie u t s) :=
  keepsSound_next fun hs => typedRecord_sound u t _ _ _ (fun x ws t => by simp) hs

theorem execEjtCtlProfile_sound : keepsSound s (execEjtCtlProfile u t s) :=
  keepsSound_next fun hs => typedRecord_sound u t _ _ _ (fun x ws t => by simp) hs

theorem execEjtCtlValves_sound : keepsSound s (execEjtCtlValves u t s) :=
  keepsSound_next fun hs => typedRecord_sound u t _ _ _ (fun x ws t => by simp) hs

theorem execLumDieRecord_sound : keepsSound s (execLumDieRecord u t s) :=
  keepsSound_next fun hs => typedRecord_sound u t _ _ _ (fun x ws t => by simp) hs

theorem execLumStringRecord_sound : keepsSound s (execLumStringRecord u t s) :=
  keepsSound_next fun hs => typedRecord_sound u t _ _ _ (fun x ws t => by simp) hs

theorem execCamCtlRecord_sound : keepsSound s (execCamCtlRecord u t s) :=
  keepsSound_next fun hs => recordOut_sound u t _ _ (fun x ws t => refusing_mem (by simp)) hs

theorem execCamPipeRecord_sound : keepsSound s (execCamPipeRecord u t s) :=
  keepsSound_next fun hs => recordOut_sound u t _ _ (fun x ws t => refusing_mem (by simp)) hs

theorem execCamDefectMap_sound : keepsSound s (execCamDefectMap u t s) :=
  keepsSound_next fun hs => recordOut_sound u t _ _ (fun x ws t => refusing_mem (by simp)) hs

theorem execFusedRead_sound (bad : List Nat) : keepsSound s (execFusedRead u t bad s) := by
  refine keepsSound_next fun hs => ?_
  split
  · exact hs
  · refine dataIn_sound u t _ _ (fun x t => ?_) hs
    dsimp only
    split
    · simp
    · simp

theorem execCorRegMap_sound : keepsSound s (execCorRegMap u t s) :=
  keepsSound_next fun hs => recordOut_sound u t _ _ (fun _ _ _ => refusing_mem rfl) hs

theorem execSadcCtlControl_sound : keepsSound s (execSadcCtlControl u t s) := keepsSound_next (sadcRecord_sound u t _)
theorem execSadcCtlSequence_sound : keepsSound s (execSadcCtlSequence u t s) := keepsSound_next (sadcRecord_sound u t _)
theorem execSadcCtlHurdle_sound : keepsSound s (execSadcCtlHurdle u t s) := keepsSound_next (sadcRecord_sound u t _)

theorem execSadcResRead_sound : keepsSound s (execSadcResRead u t s) :=
  keepsSound_next fun hs => dataIn_sound u t _ _ (fun x t => by simp) hs

theorem execCalCtlRecord_sound : keepsSound s (execCalCtlRecord u t s) :=
  keepsSound_next fun hs => recordOut_sound u t _ _
    (fun x ws t => refusing_mem (by rw [startScene_mem, startScene_mem, foldl_mem fun t k => by simp])) hs

theorem execThmCtlRecord_sound : keepsSound s (execThmCtlRecord u t s) := by
  refine keepsSound_next fun hs => recordOut_sound u t _ _ (fun x ws t => ?_) hs
  dsimp only
  split
  · simp
  · simp

theorem execLnkMsgSettings_sound : keepsSound s (execLnkMsgSettings u t s) := by
  refine keepsSound_next fun hs => msgOut_sound u t _ (fun x ws t => ?_) hs
  split
  · rfl
  · exact refusing_mem (by rw [settleLinks_mem, foldl_mem fun t i => by simp])

theorem execLnkMsgCellSend_sound : keepsSound s (execLnkMsgCellSend u t s) :=
  keepsSound_next fun hs => msgOut_sound u t _ (fun x ws t => by simp) hs

theorem execLnkMsgEthSend_sound : keepsSound s (execLnkMsgEthSend u t s) :=
  keepsSound_next fun hs => msgOut_sound u t _ (fun x ws t => by simp) hs

theorem execLnkMsgRead_sound : keepsSound s (execLnkMsgRead u t s) :=
  keepsSound_next fun hs => dataIn_sound u t _ _ (fun x t => by simp) hs

end

/-! ### Placing code, resets and wipes -/

section
variable {s : State}

theorem placeUnit_sound (u : UnitId) (e : ExUnit) (consts : List (Nat × List Word)) (hs : sound s) :
    sound (placeUnit u e consts s) :=
  foldl_sound (fun _ _ ht => storeWords_sound _ _ ht) consts (s := modU u (fun _ => e) s) hs

theorem placeCluster_sound (c : ClusterCode) (p : Fin 26) (hs : sound s) : sound (placeCluster c p s) :=
  placeUnit_sound _ _ _ hs

/-- Placing those logical clusters of a list that an image has code for. -/
theorem placeClusters_sound (cs : List (Nat × ClusterCode)) (pl : List (Nat × Fin 26)) (hs : sound s) :
    sound (pl.foldl (fun s x => match cs.find? fun k => k.1 = x.1 with
      | some k => placeCluster k.2 x.2 s
      | none => s) s) := by
  refine foldl_sound (fun t x ht => ?_) pl hs
  split
  · exact placeCluster_sound _ _ ht
  · exact ht

theorem placeImage_sound (img : Image) (pl : List (Nat × Fin 26)) (hs : sound s) : sound (placeImage img pl s) := by
  unfold placeImage
  extract_lets s1 s2 s3 s4
  have h1 : sound s1 := foldl_sound (fun t c ht => placeUnit_sound _ _ _ ht) _ hs
  have h2 : sound s2 := foldl_sound (fun t c ht => placeUnit_sound _ _ _ ht) _ h1
  exact placeClusters_sound (clustersOf img) pl h2

theorem replace_sound (who : Option UnitId) (img : Image) (ks : List Nat) (hs : sound s) : sound (replace who img ks s).1 := by
  unfold replace
  dsimp only
  split
  · exact placeClusters_sound _ _ hs
  · exact sound_of_mem (loaderRefuse_mem ..) hs

theorem placeAgain_sound (who : Option UnitId) (img : Image) (ks : List Nat) (hs : sound s) :
    sound (placeAgain who img ks s).1 := by
  have hr : sound (replace who img ks s).1 := replace_sound who img ks hs
  unfold placeAgain
  split
  next t h =>
    rw [h] at hr
    exact sound_of_mem (foldl_mem (fun t k => by simp) ks t) hr
  next t n h =>
    rw [h] at hr
    exact hr

theorem takeImage_sound (img : Image) (pl : List (Nat × Fin 26)) (hs : sound s) : sound (takeImage img pl s) :=
  placeImage_sound img pl (s := { s with sec := { s.sec with imageHash := sha384 img.raw } }) hs

theorem execSignatureVerified_sound : keepsSound s (execSignatureVerified s) := by
  refine keepsSound_next fun hs => ?_
  split
  · exact hs
  · split
    · exact hs
    · have hc : sound (checkSlots s) := sound_of_mem (checkSlots_mem s) hs
      dsimp only
      split
      · exact sound_of_mem (by simp) hc
      · split
        · exact takeImage_sound _ _ hc
        · exact sound_of_mem (by simp) hc

theorem execImageVerify_sound : keepsSound s (execImageVerify s) := by
  refine keepsSound_next fun hs => ?_
  split
  · exact hs
  next isLoad h img _ =>
    split
    · exact hs
    · extract_lets t
      have ht : sound t := sound_of_mem (by rw [checkSlots_mem, modSec_mem]) hs
      split
      · exact sound_of_mem (by rw [conclude_mem, verifyFail_mem]) ht
      · split
        · have hp := placeAgain_sound none img (affected img t) ht
          split
          next r hr =>
            rw [hr] at hp
            exact sound_of_mem (conclude_mem ..) hp
          next r code _ hr =>
            rw [hr] at hp
            exact sound_of_mem (conclude_mem ..) hp
        · split
          · exact sound_of_mem (conclude_mem ..) (takeImage_sound _ _ (sound_of_mem (setF_mem ..) ht))
          · exact sound_of_mem (by rw [conclude_mem, loaderRefuse_mem]) ht

theorem wipeUnit_sound (u : UnitId) (hs : sound s) : sound (wipeUnit u s) := wf_filter _ hs

theorem clusterReset_sound (p : Fin 26) (hs : sound s) : sound (clusterReset p s) :=
  sound_of_mem (losePrograms_mem _) (wipeUnit_sound _ (loseTags_sound _ (sound_of_mem (noteCause_mem ..) hs)))

/-- The stores of a die's clusters are wiped, and nothing else of memory changes (R86). -/
theorem resetStreamDie_sound (d : Fin 8) (hs : sound s) : sound (resetStreamDie d s) := by
  unfold resetStreamDie
  extract_lets s1 us s2 s3 s4 s5 mine _ s6
  have h1 : sound s1 := sound_of_mem (oweZero_mem ..) hs
  have h2 : sound s2 := foldl_sound
    (fun t p ht => wipeUnit_sound (s := { t with xfers := t.xfers.filter fun x => x.unit ≠ clusterUnit p }) _ ht) us h1
  have h3 : s3.mem = s2.mem := by rw [mem_ite, losePrograms_mem, ite_self]
  have h4 : s4.mem = s3.mem := foldl_mem (fun t l => by split <;> simp) _ s3
  have h5 : s5.mem = s4.mem := foldl_mem (fun t p => by split <;> simp) _ s4
  refine sound_of_mem (s := s2) ?_ h2
  rw [mem_ite, ite_self, ← h3, ← h4, ← h5]

theorem dieReset_sound (d : Fin 8) (hs : sound s) : sound (dieReset d s) := by
  unfold dieReset
  extract_lets s1 s2 s3
  have h1 : sound s1 := sound_of_mem (by rw [calDieReset_mem, noteCause_mem]) hs
  have h2 : sound s2 := by
    unfold s2
    split
    · exact resetStreamDie_sound d h1
    · split
      · exact sound_of_mem (resetFocalDie_mem ..) h1
      · exact sound_of_mem (resetActuatorDie_mem ..) h1
  exact sound_of_mem (by rw [showThm_mem, setAt_mem, modThm_mem]) h2

/-- A full reset zeroes every SRAM; DDR5 keeps its bytes while VDDQ stands (R83, R84). -/
theorem fullReset_mem (c : Cause) (m : Mode) (s : State) :
    (fullReset c m s).mem = if c = .powerOn || c = .brownout then [] else ddrCells s.mem := by
  unfold fullReset
  extract_lets s1 _ s2 cold _ _ _ _ _ _ _ _ _ _ _ _ n0 n1 n2 n3 n4 n5 n6 n7 n8 n9
  have h2 : s2.mem = s.mem := by rw [nvsInterrupt_mem, valvesOff_mem, noteCause_mem, mem_ite, setF_mem, ite_self]
  have h0 : n0.mem = if cold then [] else ddrCells s2.mem := rfl
  have h1 : n2.mem = n0.mem := by
    unfold n2
    rw [mem_ite, foldl_mem fun t c => by simp, setWord_mem, ite_self, resetPort_mem, setWord_mem]
  have h4 : n4.mem = n2.mem := by rw [setF_mem, setF_mem, setF_mem, setF_mem, setF_mem, setF_mem, setF_mem]
  have h5 : n5.mem = n4.mem := by
    unfold n5
    split
    · rfl
    · rw [setF_mem, setF_mem]
  have h8 : n8.mem = n5.mem := by rw [foldl_mem fun t u => by simp, setF_mem, setF_mem, setF_mem, setWord_mem]
  rw [setF_mem, setF_mem, setF_mem, setF_mem, setF_mem, setF_mem, h8, h5, h4, h1, h0, h2]

theorem fullReset_sound (c : Cause) (m : Mode) (hs : sound s) : sound (fullReset c m s) := by
  unfold sound
  rw [fullReset_mem]
  split
  · rfl
  · exact wf_filter _ hs

theorem issue_sound (u : UnitId) (c : Cls) (wide : Bool) (rs : List RegRef) (bad : Bool) {act : State → State}
    (h : sound s → sound (act s)) (hs : sound s) : sound (issue u c wide rs bad act s) := by
  have he (c : Nat) (w : Bool) : sound (takeExc u c w s) := sound_of_mem (takeExc_mem ..) hs
  unfold issue
  split_ifs
  · exact hs
  · exact hs
  · exact he ..
  · exact he ..
  · exact he ..
  · exact hs
  · exact h hs

theorem sysOp_sound (u : UnitId) (wide : Bool) (rs : List RegRef) (bad : State → Bool) {act : State → State}
    (h : ∀ t, sound t → sound (act t)) (hs : sound s) : sound (sysOp u wide rs bad act s) := by
  refine issue_sound u _ _ _ _ (fun hs => ?_) hs
  split
  · exact sound_of_mem (takeExc_mem ..) hs
  · exact h _ (sound_of_mem (advance_mem ..) hs)

theorem sysReset_sound (u : UnitId) (b : Src) (hs : sound s) : sound (sysReset u b s) := by
  refine sysOp_sound u _ _ _ (fun t ht => ?_) hs
  dsimp only
  split
  · exact fullReset_sound _ _ ht
  · split
    · exact dieReset_sound _ ht
    · exact clusterReset_sound _ ht

theorem execSysResetFull_sound (u : UnitId) (b : Src) : keepsSound s (execSysResetFull u b s) :=
  keepsSound_next (sysReset_sound u b)
theorem execSysResetDie_sound (u : UnitId) (b : Src) : keepsSound s (execSysResetDie u b s) :=
  keepsSound_next (sysReset_sound u b)
theorem execSysResetCluster_sound (u : UnitId) (b : Src) : keepsSound s (execSysResetCluster u b s) :=
  keepsSound_next (sysReset_sound u b)

theorem execSysLoad_sound (u : UnitId) (b : Src) : keepsSound s (execSysLoad u b s) := by
  refine keepsSound_next (sysOp_sound u _ _ _ fun t ht => ?_)
  extract_lets k t'
  have ht' : sound t' := by
    unfold t'
    split
    · exact clusterReset_sound _ ht
    · exact ht
  split
  · exact placeAgain_sound _ _ _ ht'
  · exact ht'

theorem unpower_sound (s : State) : sound (unpower s) := by
  rw [sound, unpower]
  rfl

theorem execPowerLost_sound : keepsSound s (execPowerLost s) := by
  refine keepsSound_next fun hs => ?_
  split
  · exact hs
  · exact unpower_sound s

theorem brownOut_sound (m : Mode) (gate : Bool) (hs : sound s) : sound (brownOut m gate s) := by
  unfold brownOut
  extract_lets s1 s2
  have h1 : sound s1 := sound_of_mem (by rw [raiseClocked_mem, bump_mem, setF_mem]) hs
  exact sound_of_mem (by rw [modPins_mem, railsOff_mem]) (fullReset_sound .brownout m h1)

theorem execBrownout_sound : keepsSound s (execBrownout s) := by
  refine keepsSound_next fun hs => ?_
  have take (c : BoCause) (gate : Bool) : sound (modPower (fun p => { p with attempts := [] })
      (setF F.pwrStateVinZone 0 (brownOut (.brownout c) gate s))) :=
    sound_of_mem (by rw [modPower_mem, setF_mem]) (brownOut_sound (.brownout c) gate hs)
  split
  · exact hs
  · exact hs
  · split
    · exact hs
    · exact take ..
  · exact take ..

theorem execInputOvercurrentTrip_sound : keepsSound s (execInputOvercurrentTrip s) := by
  refine keepsSound_next fun hs => ?_
  split
  · exact sound_of_mem (modPower_mem ..)
      (brownOut_sound _ _ (sound_of_mem (by rw [raiseClocked_mem, bump_mem, setF_mem]) hs))
  · exact hs

theorem execRailFault_sound (r : Rail) : keepsSound s (execRailFault r s) := by
  refine keepsSound_next fun hs => ?_
  dsimp only
  split
  · exact hs
  · exact sound_of_mem (modPower_mem ..) (brownOut_sound _ _ (sound_of_mem (by rw [raiseClocked_mem, setF_mem]) hs))

theorem execVinOvTrip_sound : keepsSound s (execVinOvTrip s) := by
  refine keepsSound_next fun hs => ?_
  split
  · exact sound_of_mem (modPower_mem ..) (brownOut_sound _ _ (sound_of_mem (setF_mem ..) hs))
  · exact hs

theorem execClockLoss_sound (k : ClockLoss) : keepsSound s (execClockLoss k s) := by
  refine keepsSound_next fun hs => ?_
  split
  · exact hs
  · split
    · exact hs
    iterate 4 exact sound_of_mem (by rw [noteCause_mem, noteClockLoss_mem]) hs
    · exact sound_of_mem (by rw [noteCause_mem, noteClockLoss_mem]) hs
    · exact sound_of_mem (noteClockLoss_mem ..) (fullReset_sound _ _ hs)

theorem takePin_sound (hs : sound s) : sound (takePin s) := by
  unfold takePin
  extract_lets t hold
  have ht : sound t := sound_of_mem (modPins_mem ..) hs
  have hh : sound (hold t) := sound_of_mem (by rw [noteCause_mem, bump_mem]) ht
  split
  · exact ht
  · exact ht
  · exact hh
  · exact hh
  · exact hh
  · exact hh
  · exact hh
  · exact fullReset_sound _ _ (sound_of_mem (bump_mem ..) ht)

theorem execResetNAssert_sound (ns : Nat) : keepsSound s (execResetNAssert ns s) := by
  refine keepsSound_next fun hs => ?_
  split
  · exact hs
  · split
    · have ht : sound (takeFree s).2 := sound_of_mem (takeFree_mem s) hs
      dsimp only
      split
      · exact takePin_sound ht
      · exact ht
    · exact takePin_sound hs

theorem execHubWatchdog_sound : keepsSound s (execHubWatchdog s) := by
  refine keepsSound_next fun hs => ?_
  split
  · exact fullReset_sound _ _ (sound_of_mem (bump_mem ..) hs)
  · exact hs

theorem wipeTo_sound (c : Fin 4) (n : Nat) (hs : sound s) : sound (wipeTo c n s) := wf_filter _ hs

theorem wipeTick_sound (hs : sound s) : sound (wipeTick s) := by
  unfold wipeTick
  split
  · refine sound_of_mem (showWipe_mem _) (foldl_sound (fun t c ht => ?_) _ hs)
    split
    · exact wipeTo_sound _ _ ht
    · exact ht
  · exact hs

theorem execDdrWipeComplete_sound : keepsSound s (execDdrWipeComplete s) := by
  refine keepsSound_next fun hs => ?_
  split
  · exact hs
  · extract_lets t
    have ht : sound t := wf_filter _ hs
    exact sound_of_mem (by rw [setF_mem, showWipe_mem]) ht

theorem changeLifecycle_sound (target : Nat) (s : State) : sound s → sound (changeLifecycle target s) := fun hs => by
  refine fullReset_sound _ _ (sound_of_mem ?_ hs)
  rw [setF_mem, setF_mem, setF_mem, mem_ite, setF_mem, ite_self, modSec_mem, foldl_mem fun t d => by split <;> simp,
    lampsOff_mem, lampsOff_mem, valvesOff_mem]

theorem acceptAuth_sound (r : AuthReq) (hs : sound s) : sound (acceptAuth r s) := by
  unfold acceptAuth
  extract_lets i t
  have ht : sound t := sound_of_mem (by rw [checkCounter_mem, setF_mem]) hs
  split
  · exact changeLifecycle_sound i t ht
  · exact sound_of_mem (by rw [raise_mem, setSlot_mem, modSec_mem]) ht
  · exact sound_of_mem (by rw [raise_mem, setSlot_mem]) ht

theorem execAuthBlockCheck_sound : keepsSound s (execAuthBlockCheck s) := by
  refine keepsSound_next fun hs => ?_
  split
  · exact hs
  · split
    · exact hs
    · extract_lets s1 s2 s3 ok s4
      have h3 : sound s3 := sound_of_mem (by rw [mem_ite, complementFail_mem, ite_self, checkSlots_mem, setF_mem, modSec_mem]) hs
      have h4 : sound s4 := by
        unfold s4
        split
        · exact acceptAuth_sound _ h3
        · exact sound_of_mem (refuseAuth_mem ..) h3
      split
      · exact sound_of_mem (conclude_mem ..) h4
      · exact h4

end

/-! ### Every command, and every step -/

/-- Every command keeps the canonical form: most leave memory alone, the others write it by the operations above. -/
theorem exec_sound (c : Instr) (s : State) : keepsSound s (exec c s) :=
  match c with
  | .add .. => keepsSound_of_leavesMem (execAdd_mem _ _ _ _ _)
  | .sub .. => keepsSound_of_leavesMem (execSub_mem _ _ _ _ _)
  | .and .. => keepsSound_of_leavesMem (execAnd_mem _ _ _ _ _)
  | .or .. => keepsSound_of_leavesMem (execOr_mem _ _ _ _ _)
  | .xor .. => keepsSound_of_leavesMem (execXor_mem _ _ _ _ _)
  | .shl .. => keepsSound_of_leavesMem (execShl_mem _ _ _ _ _)
  | .shr .. => keepsSound_of_leavesMem (execShr_mem _ _ _ _ _)
  | .sra .. => keepsSound_of_leavesMem (execSra_mem _ _ _ _ _)
  | .mul .. => keepsSound_of_leavesMem (execMul_mem _ _ _ _ _)
  | .mulh .. => keepsSound_of_leavesMem (execMulh_mem _ _ _ _ _)
  | .min .. => keepsSound_of_leavesMem (execMin_mem _ _ _ _ _)
  | .max .. => keepsSound_of_leavesMem (execMax_mem _ _ _ _ _)
  | .slt .. => keepsSound_of_leavesMem (execSlt_mem _ _ _ _ _)
  | .sltu .. => keepsSound_of_leavesMem (execSltu_mem _ _ _ _ _)
  | .mov .. => keepsSound_of_leavesMem (execMov_mem _ _ _ _)
  | .addD .. => keepsSound_of_leavesMem (execAddD_mem _ _ _ _ _)
  | .subD .. => keepsSound_of_leavesMem (execSubD_mem _ _ _ _ _)
  | .movD .. => keepsSound_of_leavesMem (execMovD_mem _ _ _ _)
  | .vadd .. => keepsSound_of_leavesMem (execVadd_mem _ _ _ _ _ _)
  | .vsub .. => keepsSound_of_leavesMem (execVsub_mem _ _ _ _ _ _)
  | .vand .. => keepsSound_of_leavesMem (execVand_mem _ _ _ _ _ _)
  | .vor .. => keepsSound_of_leavesMem (execVor_mem _ _ _ _ _ _)
  | .vxor .. => keepsSound_of_leavesMem (execVxor_mem _ _ _ _ _ _)
  | .vshl .. => keepsSound_of_leavesMem (execVshl_mem _ _ _ _ _ _)
  | .vshr .. => keepsSound_of_leavesMem (execVshr_mem _ _ _ _ _ _)
  | .vsra .. => keepsSound_of_leavesMem (execVsra_mem _ _ _ _ _ _)
  | .vmin .. => keepsSound_of_leavesMem (execVmin_mem _ _ _ _ _ _)
  | .vmax .. => keepsSound_of_leavesMem (execVmax_mem _ _ _ _ _ _)
  | .vabs .. => keepsSound_of_leavesMem (execVabs_mem _ _ _ _ _)
  | .vmov .. => keepsSound_of_leavesMem (execVmov_mem _ _ _ _ _)
  | .vval .. => keepsSound_of_leavesMem (execVval_mem _ _ _ _ _)
  | .vext _ _ _ _ pg => keepsSound_of_leavesMem (execVext_mem _ _ _ _ pg _)
  | .vsum .. => keepsSound_of_leavesMem (execVsum_mem _ _ _ _ _)
  | .vcmp .. => keepsSound_of_leavesMem (execVcmp_mem _ _ _ _ _ _ _)
  | .vcmpw .. => keepsSound_of_leavesMem (execVcmpw_mem _ _ _ _ _ _ _)
  | .vflags .. => keepsSound_of_leavesMem (execVflags_mem _ _ _ _ _)
  | .pcount .. => keepsSound_of_leavesMem (execPcount_mem _ _ _ _)
  | .vmacH .. => keepsSound_of_leavesMem (execVmacH_mem _ _ _ _ _ _)
  | .vmacHs .. => keepsSound_of_leavesMem (execVmacHs_mem _ _ _ _ _ _)
  | .vmacW .. => keepsSound_of_leavesMem (execVmacW_mem _ _ _ _ _ _)
  | .vmulW .. => keepsSound_of_leavesMem (execVmulW_mem _ _ _ _ _ _)
  | .vmulhW .. => keepsSound_of_leavesMem (execVmulhW_mem _ _ _ _ _ _)
  | .vdotH .. => keepsSound_of_leavesMem (execVdotH_mem _ _ _ _ _ _)
  | .load .. => keepsSound_of_leavesMem (execLoad_mem _ _ _ _ _)
  | .loadD .. => keepsSound_of_leavesMem (execLoadD_mem _ _ _ _ _)
  | .loadH .. => keepsSound_of_leavesMem (execLoadH_mem _ _ _ _ _)
  | .loadHu .. => keepsSound_of_leavesMem (execLoadHu_mem _ _ _ _ _)
  | .loadB .. => keepsSound_of_leavesMem (execLoadB_mem _ _ _ _ _)
  | .loadBu .. => keepsSound_of_leavesMem (execLoadBu_mem _ _ _ _ _)
  | .store .. => keepsSound_of_leavesMem (execStore_mem _ _ _ _ _)
  | .storeD .. => keepsSound_of_leavesMem (execStoreD_mem _ _ _ _ _)
  | .storeH .. => keepsSound_of_leavesMem (execStoreH_mem _ _ _ _ _)
  | .storeB .. => keepsSound_of_leavesMem (execStoreB_mem _ _ _ _ _)
  | .vload .. => keepsSound_of_leavesMem (execVload_mem _ _ _ _ _)
  | .vstore .. => keepsSound_of_leavesMem (execVstore_mem _ _ _ _ _)
  | .loadComplete .. => execLoadComplete_sound _ _
  | .streamIn .. => keepsSound_of_leavesMem (execStreamIn_mem _ _ _)
  | .streamOut .. => keepsSound_of_leavesMem (execStreamOut_mem _ _ _)
  | .transferComplete .. => keepsSound_of_leavesMem (execTransferComplete_mem _ _ _)
  | .tagTimeout .. => keepsSound_of_leavesMem (execTagTimeout_mem _ _ _)
  | .eject .. => keepsSound_of_leavesMem (execEject_mem _ _ _)
  | .latch .. => keepsSound_of_leavesMem (execLatch_mem _ _ _)
  | .lamp .. => keepsSound_of_leavesMem (execLamp_mem _ _ _ _)
  | .sadcStartSingle .. => keepsSound_of_leavesMem (execSadcStartSingle_mem _ _ _)
  | .sadcStartContinuous .. => keepsSound_of_leavesMem (execSadcStartContinuous_mem _ _ _)
  | .sadcStartStop .. => keepsSound_of_leavesMem (execSadcStartStop_mem _ _ _)
  | .calReqRun .. => keepsSound_of_leavesMem (execCalReqRun_mem _ _ _)
  | .calReqCancel .. => keepsSound_of_leavesMem (execCalReqCancel_mem _ _ _)
  | .calReqGap .. => keepsSound_of_leavesMem (execCalReqGap_mem _ _ _)
  | .sync .. => keepsSound_of_leavesMem (execSync_mem _ _)
  | .shutterClose .. => keepsSound_of_leavesMem (execShutterClose_mem _ _ _)
  | .shutterOpen .. => keepsSound_of_leavesMem (execShutterOpen_mem _ _ _)
  | .wait .. => keepsSound_of_leavesMem (execWait_mem _ _ _)
  | .fence .. => keepsSound_of_leavesMem (execFence_mem _ _)
  | .tagstat .. => keepsSound_of_leavesMem (execTagstat_mem _ _ _ _)
  | .beq .. => keepsSound_of_leavesMem (execBeq_mem _ _ _ _ _)
  | .bne .. => keepsSound_of_leavesMem (execBne_mem _ _ _ _ _)
  | .blt .. => keepsSound_of_leavesMem (execBlt_mem _ _ _ _ _)
  | .bge .. => keepsSound_of_leavesMem (execBge_mem _ _ _ _ _)
  | .bltu .. => keepsSound_of_leavesMem (execBltu_mem _ _ _ _ _)
  | .bgeu .. => keepsSound_of_leavesMem (execBgeu_mem _ _ _ _ _)
  | .jmp .. => keepsSound_of_leavesMem (execJmp_mem _ _ _)
  | .call .. => keepsSound_of_leavesMem (execCall_mem _ _ _)
  | .jmpr .. => keepsSound_of_leavesMem (execJmpr_mem _ _ _)
  | .ret .. => keepsSound_of_leavesMem (execRet_mem _ _)
  | .retx .. => keepsSound_of_leavesMem (execRetx_mem _ _)
  | .loop .. => keepsSound_of_leavesMem (execLoop_mem _ _ _ _)
  | .stat .. => keepsSound_of_leavesMem (execStat_mem _ _ _ _ _)
  | .evtClr .. => keepsSound_of_leavesMem (execEvtClr_mem _ _ _ _ _)
  | .sysResetFull .. => execSysResetFull_sound _ _
  | .sysResetDie .. => execSysResetDie_sound _ _
  | .sysResetCluster .. => execSysResetCluster_sound _ _
  | .sysFreeze .. => keepsSound_of_leavesMem (execSysFreeze_mem _ _)
  | .sysStandby .. => keepsSound_of_leavesMem (execSysStandby_mem _ _)
  | .sysPark .. => keepsSound_of_leavesMem (execSysPark_mem _ _)
  | .sysRun .. => keepsSound_of_leavesMem (execSysRun_mem _ _)
  | .sysLifecycle .. => keepsSound_of_leavesMem (execSysLifecycle_mem _ _ _)
  | .sysLoad .. => execSysLoad_sound _ _
  | .powerOn => keepsSound_of_leavesMem (execPowerOn_mem _)
  | .refclkPresent => keepsSound_of_leavesMem (execRefclkPresent_mem _)
  | .inrushComplete => keepsSound_of_leavesMem (execInrushComplete_mem _)
  | .inrushTimeout => keepsSound_of_leavesMem (execInrushTimeout_mem _)
  | .inrushRetry => keepsSound_of_leavesMem (execInrushRetry_mem _)
  | .inputOvercurrentTrip => execInputOvercurrentTrip_sound
  | .railSequenceStep => keepsSound_of_leavesMem (execRailSequenceStep_mem _)
  | .resetRelease .. => keepsSound_of_leavesMem (execResetRelease_mem _ _ _ _)
  | .vinLowEntry => keepsSound_of_leavesMem (execVinLowEntry_mem _)
  | .vinNormalEntry => keepsSound_of_leavesMem (execVinNormalEntry_mem _)
  | .vinHighEntry => keepsSound_of_leavesMem (execVinHighEntry_mem _)
  | .vinOverEntry => keepsSound_of_leavesMem (execVinOverEntry_mem _)
  | .vinOvTrip => execVinOvTrip_sound
  | .brownout => execBrownout_sound
  | .brownoutEnd => keepsSound_of_leavesMem (execBrownoutEnd_mem _)
  | .railFault .. => execRailFault_sound _
  | .railRetryWaitEnd => keepsSound_of_leavesMem (execRailRetryWaitEnd_mem _)
  | .pwrVinConversion .. => keepsSound_of_leavesMem (execPwrVinConversion_mem _ _)
  | .clockLoss .. => execClockLoss_sound _
  | .clockRestart => keepsSound_of_leavesMem (execClockRestart_mem _)
  | .serdesUnlock .. => keepsSound_of_leavesMem (execSerdesUnlock_mem _ _)
  | .timeSourceLost => keepsSound_of_leavesMem (execTimeSourceLost_mem _)
  | .timeOffsetMeasured .. => keepsSound_of_leavesMem (execTimeOffsetMeasured_mem _ _ _)
  | .timeStep => keepsSound_of_leavesMem (execTimeStep_mem _)
  | .slewComplete => keepsSound_of_leavesMem (execSlewComplete_mem _)
  | .resetNAssert .. => execResetNAssert_sound _
  | .resetNRelease => keepsSound_of_leavesMem (execResetNRelease_mem _)
  | .hubWatchdog => execHubWatchdog_sound
  | .signatureVerified => execSignatureVerified_sound
  | .indexComplete => keepsSound_of_leavesMem (execIndexComplete_mem _)
  | .pixelModelLoaded => keepsSound_of_leavesMem (execPixelModelLoaded_mem _)
  | .firstInstruction => keepsSound_of_leavesMem (execFirstInstruction_mem _)
  | .ddrTrainingComplete .. => keepsSound_of_leavesMem (execDdrTrainingComplete_mem _ _ _)
  | .ddrWipeComplete => execDdrWipeComplete_sound
  | .dieRejoin .. => keepsSound_of_leavesMem (execDieRejoin_mem _ _ _)
  | .standbyParkEntry => keepsSound_of_leavesMem (execStandbyParkEntry_mem _)
  | .exitComplete => keepsSound_of_leavesMem (execExitComplete_mem _)
  | .lifecycleWipeComplete => keepsSound_of_leavesMem (execLifecycleWipeComplete_mem _)
  | .fpdCtlRecord .. => execFpdCtlRecord_sound _ _
  | .lineSlotBoundary => keepsSound_of_leavesMem (execLineSlotBoundary_mem _)
  | .rowSlotEnd .. => keepsSound_of_leavesMem (execRowSlotEnd_mem _ _ _ _ _)
  | .substrateSample .. => keepsSound_of_leavesMem (execSubstrateSample_mem _ _ _)
  | .bandDwellComplete .. => keepsSound_of_leavesMem (execBandDwellComplete_mem _ _)
  | .biasSettled .. => keepsSound_of_leavesMem (execBiasSettled_mem _ _)
  | .lsyncRise .. => keepsSound_of_leavesMem (execLsyncRise_mem _ _)
  | .syncResetEdge => keepsSound_of_leavesMem (execSyncResetEdge_mem _)
  | .shutterTravelEnd .. => keepsSound_of_leavesMem (execShutterTravelEnd_mem _ _)
  | .shutterReopenEnd .. => keepsSound_of_leavesMem (execShutterReopenEnd_mem _ _)
  | .shutterFault .. => keepsSound_of_leavesMem (execShutterFault_mem _ _ _)
  | .algCtlRecord .. => execAlgCtlRecord_sound _ _
  | .algRamLoad .. => execAlgRamLoad_sound _ _
  | .algDetRead .. => execAlgDetRead_sound _ _
  | .csnCtlRecord .. => execCsnCtlRecord_sound _ _
  | .csnBlock .. => keepsSound_of_leavesMem (execCsnBlock_mem _ _ _ _ _)
  | .csnOutRead .. => execCsnOutRead_sound _ _
  | .rowSlotCorrection .. => keepsSound_of_leavesMem (execRowSlotCorrection_mem _ _ _ _ _)
  | .modelParityReload .. => keepsSound_of_leavesMem (execModelParityReload_mem _ _ _ _)
  | .corModelRecord .. => execCorModelRecord_sound _ _
  | .corCtlRecord .. => execCorCtlRecord_sound _ _
  | .fusedLineEntry => keepsSound_of_leavesMem (execFusedLineEntry_mem _)
  | .fusedRead .. => execFusedRead_sound _ _ _
  | .corBlindRead .. => execCorBlindRead_sound _ _
  | .corRegMap .. => execCorRegMap_sound _ _
  | .fpdRawRead .. => execFpdRawRead_sound _ _
  | .calCtlRecord .. => execCalCtlRecord_sound _ _
  | .calAutoRequest .. => keepsSound_of_leavesMem (execCalAutoRequest_mem _ _)
  | .calWaiting .. => keepsSound_of_leavesMem (execCalWaiting_mem _ _)
  | .declaredGapOpen => keepsSound_of_leavesMem (execDeclaredGapOpen_mem _)
  | .declaredGapClose => keepsSound_of_leavesMem (execDeclaredGapClose_mem _)
  | .feedGapOpen .. => keepsSound_of_leavesMem (execFeedGapOpen_mem _ _)
  | .feedGapClose .. => keepsSound_of_leavesMem (execFeedGapClose_mem _ _)
  | .shutRunStart .. => keepsSound_of_leavesMem (execShutRunStart_mem _ _)
  | .shutMeasureStart .. => keepsSound_of_leavesMem (execShutMeasureStart_mem _ _)
  | .shutMeasureEnd .. => keepsSound_of_leavesMem (execShutMeasureEnd_mem _ _)
  | .sceneRunEnd .. => keepsSound_of_leavesMem (execSceneRunEnd_mem _ _)
  | .sceneTimeout .. => keepsSound_of_leavesMem (execSceneTimeout_mem _ _)
  | .classARunStart .. => keepsSound_of_leavesMem (execClassARunStart_mem _ _)
  | .classARepeatEnd .. => keepsSound_of_leavesMem (execClassARepeatEnd_mem _ _ _ _)
  | .csnIdleTimeout .. => keepsSound_of_leavesMem (execCsnIdleTimeout_mem _ _ _)
  | .calSadcRetry => keepsSound_of_leavesMem (execCalSadcRetry_mem _)
  | .saveDue => keepsSound_of_leavesMem (execSaveDue_mem _)
  | .saveRetry => keepsSound_of_leavesMem (execSaveRetry_mem _)
  | .saveComplete .. => keepsSound_of_leavesMem (execSaveComplete_mem _ _)
  | .camCtlRecord .. => execCamCtlRecord_sound _ _
  | .camPipeRecord .. => execCamPipeRecord_sound _ _
  | .camDefectMap .. => execCamDefectMap_sound _ _
  | .camTrigger .. => keepsSound_of_leavesMem (execCamTrigger_mem _ _ _)
  | .camLineOpen .. => keepsSound_of_leavesMem (execCamLineOpen_mem _ _)
  | .camLineClose .. => keepsSound_of_leavesMem (execCamLineClose_mem _ _)
  | .camFrameOpen .. => keepsSound_of_leavesMem (execCamFrameOpen_mem _ _)
  | .camFrameEnd .. => keepsSound_of_leavesMem (execCamFrameEnd_mem _ _)
  | .camLineTimeout .. => keepsSound_of_leavesMem (execCamLineTimeout_mem _ _)
  | .camLineAdmit .. => keepsSound_of_leavesMem (execCamLineAdmit_mem _ _ _)
  | .camLineOut .. => keepsSound_of_leavesMem (execCamLineOut_mem _ _)
  | .camWaitEnd .. => keepsSound_of_leavesMem (execCamWaitEnd_mem _ _)
  | .flitReceived .. => keepsSound_of_leavesMem (execFlitReceived_mem _ _ _ _ _)
  | .replayRequest .. => keepsSound_of_leavesMem (execReplayRequest_mem _ _ _ _)
  | .linkRemapComplete .. => keepsSound_of_leavesMem (execLinkRemapComplete_mem _ _)
  | .ddrAccess .. => execDdrAccess_sound _ _
  | .ddrReadBurst .. => keepsSound_of_leavesMem (execDdrReadBurst_mem _ _ _ _)
  | .ddrAlert .. => keepsSound_of_leavesMem (execDdrAlert_mem _ _ _)
  | .ddrTempCheck .. => keepsSound_of_leavesMem (execDdrTempCheck_mem _ _ _)
  | .clusterTransfer .. => execClusterTransfer_sound _ _
  | .lineNotice .. => keepsSound_of_leavesMem (execLineNotice_mem _ _)
  | .ejectArrival .. => keepsSound_of_leavesMem (execEjectArrival_mem _ _)
  | .lineBoundPass .. => keepsSound_of_leavesMem (execLineBoundPass_mem _ _ _ _)
  | .uncommittedLastStart .. => keepsSound_of_leavesMem (execUncommittedLastStart_mem _ _)
  | .shotEnergise .. => keepsSound_of_leavesMem (execShotEnergise_mem _ _)
  | .peakEnd .. => keepsSound_of_leavesMem (execPeakEnd_mem _ _ _)
  | .shotEnd .. => keepsSound_of_leavesMem (execShotEnd_mem _ _)
  | .quenchEnd .. => keepsSound_of_leavesMem (execQuenchEnd_mem _ _ _)
  | .dipDetected .. => keepsSound_of_leavesMem (execDipDetected_mem _ _)
  | .dipSearchEnd .. => keepsSound_of_leavesMem (execDipSearchEnd_mem _ _)
  | .coilModelUpdate .. => keepsSound_of_leavesMem (execCoilModelUpdate_mem _ _)
  | .valveOpenFault .. => keepsSound_of_leavesMem (execValveOpenFault_mem _ _ _)
  | .valveShortFault .. => keepsSound_of_leavesMem (execValveShortFault_mem _ _ _)
  | .highSideFault .. => keepsSound_of_leavesMem (execHighSideFault_mem _ _)
  | .ejtCtlDie .. => execEjtCtlDie_sound _ _
  | .ejtCtlProfile .. => execEjtCtlProfile_sound _ _
  | .ejtCtlValves .. => execEjtCtlValves_sound _ _
  | .lumDieRecord .. => execLumDieRecord_sound _ _
  | .lumStringRecord .. => execLumStringRecord_sound _ _
  | .latchArrival .. => keepsSound_of_leavesMem (execLatchArrival_mem _ _)
  | .latchApply .. => keepsSound_of_leavesMem (execLatchApply_mem _ _)
  | .pwmPeriodStart .. => keepsSound_of_leavesMem (execPwmPeriodStart_mem _ _)
  | .matrixCycleStart .. => keepsSound_of_leavesMem (execMatrixCycleStart_mem _ _)
  | .lampTestWindow .. => keepsSound_of_leavesMem (execLampTestWindow_mem _ _ _ _ _)
  | .openStringFault .. => keepsSound_of_leavesMem (execOpenStringFault_mem _ _ _)
  | .inductorOvercurrent .. => keepsSound_of_leavesMem (execInductorOvercurrent_mem _ _ _)
  | .regulatorDecayEnd .. => keepsSound_of_leavesMem (execRegulatorDecayEnd_mem _ _)
  | .neighbourTest .. => keepsSound_of_leavesMem (execNeighbourTest_mem _ _ _ _ _)
  | .neighbourUntested .. => keepsSound_of_leavesMem (execNeighbourUntested_mem _ _)
  | .lampStretch .. => keepsSound_of_leavesMem (execLampStretch_mem _ _ _)
  | .lampUnverified .. => keepsSound_of_leavesMem (execLampUnverified_mem _ _ _)
  | .colourLoopUpdate .. => keepsSound_of_leavesMem (execColourLoopUpdate_mem _ _)
  | .thermistorConversion .. => keepsSound_of_leavesMem (execThermistorConversion_mem _ _)
  | .thermistorTimeout .. => keepsSound_of_leavesMem (execThermistorTimeout_mem _ _)
  | .lampHourCell .. => keepsSound_of_leavesMem (execLampHourCell_mem _ _ _)
  | .sadcCtlControl .. => execSadcCtlControl_sound _ _
  | .sadcCtlSequence .. => execSadcCtlSequence_sound _ _
  | .sadcCtlHurdle .. => execSadcCtlHurdle_sound _ _
  | .sadcResRead .. => execSadcResRead_sound _ _
  | .sadcEntryEnd .. => keepsSound_of_leavesMem (execSadcEntryEnd_mem _ _ _)
  | .sadcGapEnd => keepsSound_of_leavesMem (execSadcGapEnd_mem _)
  | .injectedRequest .. => keepsSound_of_leavesMem (execInjectedRequest_mem _ _ _ _ _)
  | .injectedConversionEnd .. => keepsSound_of_leavesMem (execInjectedConversionEnd_mem _ _)
  | .selfTrimStart => keepsSound_of_leavesMem (execSelfTrimStart_mem _)
  | .selfTrimEnd .. => keepsSound_of_leavesMem (execSelfTrimEnd_mem _ _ _)
  | .junctionSample .. => keepsSound_of_leavesMem (execJunctionSample_mem _ _ _)
  | .thmCrossCheck .. => keepsSound_of_leavesMem (execThmCrossCheck_mem _ _)
  | .levelExit .. => keepsSound_of_leavesMem (execLevelExit_mem _ _ _)
  | .shutdownEntry .. => keepsSound_of_leavesMem (execShutdownEntry_mem _ _)
  | .thmCtlRecord .. => execThmCtlRecord_sound _ _
  | .ageingMeasure .. => keepsSound_of_leavesMem (execAgeingMeasure_mem _ _)
  | .marginTableWrite => keepsSound_of_leavesMem (execMarginTableWrite_mem _)
  | .nvsRead .. => execNvsRead_sound _ _
  | .nvsWrite .. => execNvsWrite_sound _ _
  | .nvsDelete .. => execNvsDelete_sound _ _
  | .nvsUnlockRead .. => execNvsUnlockRead_sound _ _
  | .nvsUnlockWrite .. => execNvsUnlockWrite_sound _ _
  | .nvsLock .. => execNvsLock_sound _ _
  | .nvsSetReadPassword .. => execNvsSetReadPassword_sound _ _
  | .nvsSetWritePassword .. => execNvsSetWritePassword_sound _ _
  | .unlockLockoutEnd .. => keepsSound_of_leavesMem (execUnlockLockoutEnd_mem _ _)
  | .nvsWriteStart => keepsSound_of_leavesMem (execNvsWriteStart_mem _)
  | .nvsCopyCommit => keepsSound_of_leavesMem (execNvsCopyCommit_mem _)
  | .nvsVerifyFail => keepsSound_of_leavesMem (execNvsVerifyFail_mem _)
  | .garbageCollect .. => keepsSound_of_leavesMem (execGarbageCollect_mem _ _ _)
  | .sectorEraseComplete .. => keepsSound_of_leavesMem (execSectorEraseComplete_mem _ _)
  | .imageVerify => execImageVerify_sound
  | .authBlockCheck => execAuthBlockCheck_sound
  | .attestReport => keepsSound_of_leavesMem (execAttestReport_mem _)
  | .ethFrameReceive .. => keepsSound_of_leavesMem (execEthFrameReceive_mem _ _ _)
  | .arpRequest .. => keepsSound_of_leavesMem (execArpRequest_mem _ _ _ _ _)
  | .icmpEcho .. => keepsSound_of_leavesMem (execIcmpEcho_mem _ _ _ _ _ _)
  | .addrConflict .. => keepsSound_of_leavesMem (execAddrConflict_mem _ _)
  | .ptpSync .. => keepsSound_of_leavesMem (execPtpSync_mem _ _ _)
  | .ptpFollowUp .. => keepsSound_of_leavesMem (execPtpFollowUp_mem _ _ _)
  | .ptpDelayReq .. => keepsSound_of_leavesMem (execPtpDelayReq_mem _ _ _)
  | .ptpDelayResp .. => keepsSound_of_leavesMem (execPtpDelayResp_mem _ _ _)
  | .ptpAnnounce .. => keepsSound_of_leavesMem (execPtpAnnounce_mem _ _ _)
  | .ptpAnnounceTimeout .. => keepsSound_of_leavesMem (execPtpAnnounceTimeout_mem _ _)
  | .ptpSyncSend .. => keepsSound_of_leavesMem (execPtpSyncSend_mem _ _)
  | .datagramDiscard .. => keepsSound_of_leavesMem (execDatagramDiscard_mem _ _ _)
  | .cmdRead .. => keepsSound_of_leavesMem (execCmdRead_mem _ _ _)
  | .cmdEvtClr .. => keepsSound_of_leavesMem (execCmdEvtClr_mem _ _ _)
  | .cmdEvents .. => keepsSound_of_leavesMem (execCmdEvents_mem _ _ _)
  | .cmdWake .. => keepsSound_of_leavesMem (execCmdWake_mem _ _ _)
  | .cmdResume .. => keepsSound_of_leavesMem (execCmdResume_mem _ _ _)
  | .cmdImage .. => keepsSound_of_leavesMem (execCmdImage_mem _ _ _ _)
  | .cmdLoad .. => keepsSound_of_leavesMem (execCmdLoad_mem _ _ _ _)
  | .cmdAttest .. => keepsSound_of_leavesMem (execCmdAttest_mem _ _ _)
  | .cmdAuth .. => keepsSound_of_leavesMem (execCmdAuth_mem _ _ _)
  | .cmdNvs .. => keepsSound_of_leavesMem (execCmdNvs_mem _ _ _)
  | .cmdMsg .. => keepsSound_of_leavesMem (execCmdMsg_mem _ _ _)
  | .cmdSetNet .. => keepsSound_of_leavesMem (execCmdSetNet_mem _ _ _)
  | .latchDatagram .. => keepsSound_of_leavesMem (execLatchDatagram_mem _ _ _)
  | .heartbeatSend .. => keepsSound_of_leavesMem (execHeartbeatSend_mem _ _)
  | .aliveToggle => keepsSound_of_leavesMem (execAliveToggle_mem _)
  | .vgdLinkTrained .. => keepsSound_of_leavesMem (execVgdLinkTrained_mem _ _)
  | .vgdLinkDown .. => keepsSound_of_leavesMem (execVgdLinkDown_mem _ _)
  | .vgdSyncCell .. => keepsSound_of_leavesMem (execVgdSyncCell_mem _ _ _)
  | .vgdLatchCell .. => keepsSound_of_leavesMem (execVgdLatchCell_mem _ _ _)
  | .vgdTimeCell .. => keepsSound_of_leavesMem (execVgdTimeCell_mem _ _ _)
  | .vgdTimeSend .. => keepsSound_of_leavesMem (execVgdTimeSend_mem _ _)
  | .vgdHandoffCell .. => keepsSound_of_leavesMem (execVgdHandoffCell_mem _ _ _)
  | .vgdOwnerCell .. => keepsSound_of_leavesMem (execVgdOwnerCell_mem _ _ _)
  | .lnkMsgSettings .. => execLnkMsgSettings_sound _ _
  | .lnkMsgCellSend .. => execLnkMsgCellSend_sound _ _
  | .lnkMsgEthSend .. => execLnkMsgEthSend_sound _ _
  | .lnkMsgRead .. => execLnkMsgRead_sound _ _
  | .integrityScan => keepsSound_of_leavesMem (execIntegrityScan_mem _)
  | .freezeNAssert .. => keepsSound_of_leavesMem (execFreezeNAssert_mem _ _)
  | .extest .. => keepsSound_of_leavesMem (execExtest_mem _ _)
  | .samplePreload .. => keepsSound_of_leavesMem (execSamplePreload_mem _ _)
  | .idcode => keepsSound_of_leavesMem (execIdcode_mem _)
  | .clamp => keepsSound_of_leavesMem (execClamp_mem _)
  | .highz => keepsSound_of_leavesMem (execHighz_mem _)
  | .zfreeze => keepsSound_of_leavesMem (execZfreeze_mem _)
  | .zresume => keepsSound_of_leavesMem (execZresume_mem _)
  | .zunit .. => keepsSound_of_leavesMem (execZunit_mem _ _)
  | .zcapture => keepsSound_of_leavesMem (execZcapture_mem _)
  | .zaddr .. => keepsSound_of_leavesMem (execZaddr_mem _ _)
  | .zdata => keepsSound_of_leavesMem (execZdata_mem _)
  | .bypass .. => keepsSound_of_leavesMem (execBypass_mem _ _)
  | .trstNAssert .. => keepsSound_of_leavesMem (execTrstNAssert_mem _ _)
  | .eventLogEntry .. => keepsSound_of_leavesMem (execEventLogEntry_mem _ _)
  | .powerLost => execPowerLost_sound
  | .ethLinkUp .. => keepsSound_of_leavesMem (execEthLinkUp_mem _ _)
  | .ethLinkDown .. => keepsSound_of_leavesMem (execEthLinkDown_mem _ _)
  | .pclkRisingEdge .. => keepsSound_of_leavesMem (execPclkRisingEdge_mem _ _ _ _ _)
  | .peakWaitLastStart .. => keepsSound_of_leavesMem (execPeakWaitLastStart_mem _ _)
  | .headroomLoss .. => keepsSound_of_leavesMem (execHeadroomLoss_mem _ _ _)

theorem unitTicks_sound {s : State} (hs : sound s) : sound (unitTicks s) := by
  have h : sound (wipeTick (leaveTick (driveLsync s))) := wipeTick_sound (sound_of_mem (by simp) hs)
  exact sound_of_mem (by simp [unitTicks]) h

theorem idle_sound {s : State} (hs : sound s) : sound (idle s) := by
  unfold idle
  extract_lets s1 s2
  have h1 : sound s1 := sound_of_mem (endFreezeN_mem _) hs
  have h2 : sound s2 := sound_of_mem (by rw [mem_ite, tickTime_mem, ite_self]) h1
  split
  · exact unitTicks_sound (sound_of_mem (s := s2) ((litTick_mem ..).trans (litTick_mem ..)) h2)
  · exact h2

/-- Settles O59: the command in front of the queue, or the idle cycle, keeps the canonical form. -/
theorem memoryStaysCanonical : Obligations.MemoryStaysCanonical := by
  intro s t hs hstep
  unfold step at hstep
  split at hstep
  · cases hstep
    exact idle_sound hs
  next c rest _ => exact exec_sound c { s with pending := rest } hs t hstep

end Sys2Proof.Machine
end

section
/-!
SUPPORT. Proofs of the scope statements: which commands run (O60).
-/

namespace Sys2Proof.Machine

/-! ### Which commands run (R263, R270, R271, R277) -/

/-- An answer that is a next state where `b` holds, and the refusal as ill formed elsewhere. -/
def runsIff (b : Bool) (o : Host.Outcome State Fault Refusal) : Prop :=
  (b = true → ∃ t, o = .next t) ∧ (b = false → ∃ m, o = .refused (.illFormed m))

theorem runsIff_next (t : State) : runsIff true (.next t) := ⟨fun _ => ⟨t, rfl⟩, nofun⟩

theorem runsIff_ite (b : Bool) (t : State) (m : String) : runsIff b (if b then .next t else .refused (.illFormed m)) := by
  cases b
  · exact ⟨nofun, fun _ => ⟨m, rfl⟩⟩
  · exact runsIff_next t

theorem streamIn_runs (u : UnitId) (q : StreamOp) (s : State) :
    runsIff (WellFormed (.streamIn u q) && epPresent q.ep.toNat s) (exec (.streamIn u q) s) := runsIff_ite ..

theorem streamOut_runs (u : UnitId) (q : StreamOp) (s : State) :
    runsIff (WellFormed (.streamOut u q) && epPresent q.ep.toNat s) (exec (.streamOut u q) s) := runsIff_ite ..

/-- But for a STREAM, the loader's check decides: a command with an operand to refuse tests it first, every other one always
answers. -/
theorem exec_runs (i : Instr) (s : State) (h : ∀ u q, i ≠ .streamIn u q ∧ i ≠ .streamOut u q) :
    runsIff (WellFormed i) (exec i s) := by
  cases i
  case streamIn u q => exact absurd rfl (h u q).1
  case streamOut u q => exact absurd rfl (h u q).2
  case shl | shr | sra | vshl | vshr | vsra => exact runsIff_ite ..
  case addD | subD | movD => exact runsIff_ite ..
  case load | loadD | loadH | loadHu | loadB | loadBu | store | storeD | storeH | storeB | vload | vstore =>
    exact runsIff_ite ..
  case eject | latch => exact runsIff_ite ..
  case wait | tagstat => exact runsIff_ite ..
  case beq | bne | blt | bge | bltu | bgeu | jmp | call | loop => exact runsIff_ite ..
  all_goals exact runsIff_next _

/-- Settles O60: a STREAM runs where its endpoint is open and present, every other command where it is well formed. -/
theorem wellFormedCommandsRun : Obligations.WellFormedCommandsRun := by
  intro i s absent
  have stream {u : UnitId} {q : StreamOp} (hi : i = .streamIn u q ∨ i = .streamOut u q)
      (hr : runsIff (WellFormed i && epPresent q.ep.toNat s) (exec i s)) :
      (WellFormed i = true → ¬ absent → ∃ t, exec i s = .next t) ∧
        (WellFormed i = false ∨ absent → ∃ m, exec i s = .refused (.illFormed m)) := by
    have habs : absent ↔ epPresent q.ep.toNat s = false := by
      constructor
      · rintro ⟨u', q', h', hp⟩
        rcases hi with rfl | rfl <;> rcases h' with h' | h' <;> cases h' <;> exact hp
      · exact fun hp => ⟨u, q, hi, hp⟩
    rw [habs]
    refine ⟨fun hw hp => hr.1 ?_, fun h => hr.2 ?_⟩
    · simpa [hw] using hp
    · rcases h with h | h <;> simp [h]
  by_cases hs : ∃ u q, i = .streamIn u q ∨ i = .streamOut u q
  · obtain ⟨u, q, rfl | rfl⟩ := hs
    · exact stream (.inl rfl) (streamIn_runs u q s)
    · exact stream (.inr rfl) (streamOut_runs u q s)
  · push Not at hs
    have hr := exec_runs i s hs
    have hno : ¬ absent := fun ⟨u, q, h, _⟩ => h.elim (hs u q).1 (hs u q).2
    exact ⟨fun hw _ => hr.1 hw, fun h => hr.2 (h.resolve_right hno)⟩

end Sys2Proof.Machine
end

section
/-!
SUPPORT. Proofs of the scope statements: the reset state (O58).
-/

namespace Sys2Proof.Machine

/-- In the reset state the identification word and RST.CAUSE and RST.BOOT read what power-on leaves there. -/
theorem reset_identification : getF F.idPartFamily State.reset = 0x5A54 ∧ getF F.idPartStep State.reset = 0xB1 ∧
    getF F.rstCausePowerOn State.reset = 1 ∧ getF F.rstBootStage State.reset = 5 := by
  decide +kernel

theorem reset_dieUp : ∀ d, d < 8 → dieUp d State.reset = true := by
  decide +kernel

theorem reset_tags (u : UnitId) (t : Tag) : State.reset.units[u].tags[t] = .free := by
  simp [State.reset, ExUnit.reset]

theorem reset_valve (v : Valve) :
    energised v State.reset = false ∧ (State.reset.ejt.chans[v]).queue = [] := by
  simp [State.reset, EjtPart.reset, energised, Chan.reset]

theorem reset_strRunning : ∀ n : Strng, strRunning n State.reset = false := by
  decide +kernel

theorem reset_setPoints : setPoints State.reset = (110, 118, 125) ∧
    State.reset.word F.thmLimitsN = ~~~ State.reset.word F.thmLimits := by
  decide +kernel

/-- No byte is listed after reset: every address reads zero. -/
theorem reset_readB (a : Nat) : readB State.reset.mem a = 0 := rfl

theorem reset_sound : sound State.reset := rfl

/-- Settles O58, from the facts about the reset state above. -/
theorem stateAfterReset : Obligations.StateAfterReset := by
  obtain ⟨hfamily, hstep, hpower, hstage⟩ := reset_identification
  obtain ⟨hpoints, hcomplement⟩ := reset_setPoints
  exact ⟨hfamily, hstep, hpower, hstage, rfl, rfl, reset_dieUp, reset_tags, reset_readB, reset_sound,
    reset_valve, reset_strRunning, hpoints, hcomplement, rfl⟩

end Sys2Proof.Machine
end

section
/-!
SUPPORT. Proofs of the scope statements: the completion of loads and stores (O7).
-/

namespace Sys2Proof.Machine

/-! ### Bytes of words -/

theorem nth_eq_getD {α : Type} (d : α) (l : List α) (k : Nat) : nth d l k = l.getD k d := by
  induction l generalizing k with
  | nil => rfl
  | cons x t ih =>
    cases k with
    | zero => rfl
    | succ k => exact ih k

theorem nth_take {α : Type} (d : α) (l : List α) {n k : Nat} (h : k < n) : nth d (l.take n) k = nth d l k := by
  simp [nth_eq_getD, List.getD_eq_getElem?_getD, List.getElem?_take_of_lt h]

theorem toBytes_length (ws : List Word) : (toBytes ws).length = 4 * ws.length := by
  induction ws with
  | nil => rfl
  | cons w t ih =>
    rw [toBytes, List.flatMap_cons, List.length_append, wordBytes_length, ← toBytes, ih, List.length_cons]
    omega

theorem writeBytes_append (a : Nat) (xs ys : List Byte) (m : List Host.Cell) :
    writeBytes a (xs ++ ys) m = writeBytes (a + xs.length) ys (writeBytes a xs m) := by
  induction xs generalizing a m with
  | nil => rfl
  | cons x t ih => rw [List.cons_append, writeBytes, ih, writeBytes, List.length_cons, Nat.add_right_comm, Nat.add_assoc]

/-- Writing words is writing their bytes, low byte first (R8). -/
theorem writeWords_eq_writeBytes (a : Nat) (ws : List Word) (m : List Host.Cell) :
    writeWords a ws m = writeBytes a (toBytes ws) m := by
  induction ws generalizing a m with
  | nil => rfl
  | cons w t ih =>
    have hw : toBytes (w :: t) = wordBytes w ++ toBytes t := List.flatMap_cons
    rw [writeWords, ih, hw, writeBytes_append, wordBytes_length]

/-- The memory an access leaves where it stores the low `n` bytes of `ws`: part of a word, or whole words. -/
theorem readB_store {a n : Nat} {ws : List Word} (hn : n < 4 ∧ ws.length = 1 ∨ n = 4 * ws.length) {m : List Host.Cell}
    (h : Memory.wf m = true) (x : Nat) :
    readB (writeBytes a ((toBytes ws).take n) m) x =
      if a ≤ x ∧ x < a + n then nth 0 (toBytes ws) (x - a) else readB m x := by
  have hl : ((toBytes ws).take n).length = n := by
    rw [List.length_take, toBytes_length]
    omega
  rw [readB_writeBytes _ _ _ h, hl]
  split
  · rw [nth_take]
    omega
  · rfl

/-! ### Registers and tags of a unit -/

/-- A change of a unit that keeps its scalar registers. -/
theorem getS_modU {u : UnitId} {f : ExUnit → ExUnit} (h : ∀ e, (f e).s = e.s) (r : Reg) (s : State) :
    getS u r (modU u f s) = getS u r s := by
  simp [getS, h]

theorem getV_setV_same (u : UnitId) (d : Reg) (x : Vector Word 32) (s : State) : getV u d (setV u d x s) = x := by
  simp [getV, setV]

@[simp] theorem getS_setV (u : UnitId) (r d : Reg) (x : Vector Word 32) (s : State) :
    getS u r (setV u d x s) = getS u r s := by
  unfold setV
  exact getS_modU (by intro _; rfl) r s

theorem lo32_pairOf (lo hi : Word) : lo32 (pairOf lo hi) = lo := by
  unfold lo32 pairOf
  exact BitVec.setWidth_append_eq_right

theorem hi32_pairOf (lo hi : Word) : hi32 (pairOf lo hi) = hi := by
  unfold hi32 pairOf
  ext i h
  have hbit : (hi ++ lo).getLsbD (32 + i) = hi[i] := by
    rw [BitVec.getLsbD_append]
    simp [h]
  simpa using hbit

/-- A pair reads as written, low word in the even register; s0 discards (R270). -/
theorem getS_setPair_low (u : UnitId) (d : Reg) (lo hi : Word) (s : State) :
    getS u d (setPair u d (pairOf lo hi) s) = if d = 0 then 0 else lo := by
  rw [setPair, getS_setS_ne _ _ regSucc_ne.symm, getS_setS_same, lo32_pairOf]

theorem getS_setPair_high (u : UnitId) (d : Reg) (lo hi : Word) (s : State) :
    getS u (regSucc d) (setPair u d (pairOf lo hi) s) = if regSucc d = 0 then 0 else hi := by
  rw [setPair, getS_setS_same, hi32_pairOf]

theorem getS_setPair_ne {u : UnitId} {d r : Reg} (x : BitVec 64) (s : State) (h : r ≠ d) (h' : r ≠ regSucc d) :
    getS u r (setPair u d x s) = getS u r s := by
  rw [setPair, getS_setS_ne _ _ h', getS_setS_ne _ _ h]

theorem finishTag_ok_tag (u : UnitId) (t : Tag) (s : State) : (finishTag u t 0 s).units[u].tags[t] = .doneOk := by
  simp [finishTag]

@[simp] theorem getS_finishTag_ok (u : UnitId) (t : Tag) (r : Reg) (s : State) :
    getS u r (finishTag u t 0 s) = getS u r s := by
  unfold finishTag
  exact getS_modU (by intro _; rfl) r s

@[simp] theorem getV_finishTag_ok (u : UnitId) (t : Tag) (r : Reg) (s : State) :
    getV u r (finishTag u t 0 s) = getV u r s := by
  simp [getV, finishTag]

/-! ### Completion of an access (R275) -/

/-- Words of good parity need no refetch. -/
theorem refetch_of_clean {ws : List Nat} {s : State} (h : ∀ w ∈ ws, badAt w s = false) : refetch ws s = s := by
  induction ws with
  | nil => rfl
  | cons w t ih =>
    obtain ⟨hw, ht⟩ := List.forall_mem_cons.mp h
    have hrest := ih ht
    unfold refetch at hrest ⊢
    rw [List.foldl_cons, hw]
    exact hrest

/-- A load of words of good parity fails nowhere and changes nothing. -/
theorem checkLoad_of_clean {ws : List Nat} {s : State} (h : ∀ w ∈ ws, badAt w s = false) : checkLoad ws s = (s, false) := by
  have hn : (ws.countP fun w => badAt w s) = 0 := List.countP_eq_zero.mpr fun w hw => by simp [h w hw]
  simp [checkLoad, refetch_of_clean h, hn]

/-- The state in which the accesses in flight under a tag are forgotten. -/
def dropOps (u : UnitId) (t : Tag) (s : State) : State := modU u (fun e => { e with ops := e.ops.filter fun x => x.tag ≠ t }) s

@[simp] theorem getS_dropOps (u : UnitId) (t : Tag) (r : Reg) (s : State) : getS u r (dropOps u t s) = getS u r s := by
  unfold dropOps
  exact getS_modU (by intro _; rfl) r s

@[simp] theorem dropOps_mem (u : UnitId) (t : Tag) (s : State) : (dropOps u t s).mem = s.mem := rfl

section
variable {u : UnitId} {t : Tag} {o : MemOp} {s : State} (hlive : live s = true)
  (hop : (s.units[u].ops.find? fun o => o.tag = t) = some o)
include hlive hop

theorem exec_loadComplete_of_op : exec (.loadComplete u t) s =
    .next (finishTag u t (performOp u o (dropOps u t s)).2 (performOp u o (dropOps u t s)).1) := by
  change execLoadComplete u t s = _
  unfold execLoadComplete
  rw [hop]
  simp only [hlive, if_true]
  rfl

theorem exec_loadComplete_ld {n : Nat} {signed : Bool} {d : Reg} (hk : o.kind = .ld n signed d)
    (hc : ∀ w ∈ wordsOf (storeBase u + o.addr) n, badAt w s = false) :
    exec (.loadComplete u t) s = .next (finishTag u t 0
      (setS u d (extendBytes n signed (readPart s.mem (storeBase u + o.addr) n)) (dropOps u t s))) := by
  have h := checkLoad_of_clean (s := dropOps u t s) hc
  rw [exec_loadComplete_of_op hlive hop, performOp, hk]
  simp [h]

theorem exec_loadComplete_ldD {d : Reg} (hk : o.kind = .ldD d)
    (hc : ∀ w ∈ wordsOf (storeBase u + o.addr) 8, badAt w s = false) :
    exec (.loadComplete u t) s = .next (finishTag u t 0
      (setPair u d (pairOf (readW s.mem (storeBase u + o.addr)) (readW s.mem (storeBase u + o.addr + 4))) (dropOps u t s))) := by
  have h := checkLoad_of_clean (s := dropOps u t s) hc
  rw [exec_loadComplete_of_op hlive hop, performOp, hk]
  simp [h]

theorem exec_loadComplete_ldV {d : Reg} (hk : o.kind = .ldV d)
    (hc : ∀ w ∈ wordsOf (storeBase u + o.addr) 128, badAt w s = false) :
    exec (.loadComplete u t) s = .next (finishTag u t 0
      (setV u d (lanes fun k => readW s.mem (storeBase u + o.addr + 4 * k)) (dropOps u t s))) := by
  have h := checkLoad_of_clean (s := dropOps u t s) hc
  rw [exec_loadComplete_of_op hlive hop, performOp, hk]
  simp [h]

/-- A STORE that finishes writes its bytes, the low `n` of its data, and ends its tag well. -/
theorem exec_loadComplete_st {n : Nat} {ws : List Word} (hk : o.kind = .st n ws)
    (hn : n < 4 ∧ ws.length = 1 ∨ n = 4 * ws.length) :
    ∃ s1, exec (.loadComplete u t) s = .next (finishTag u t 0 s1) ∧
      s1.mem = writeBytes (storeBase u + o.addr) ((toBytes ws).take n) s.mem ∧ ∀ r, getS u r s1 = getS u r s := by
  rw [exec_loadComplete_of_op hlive hop, performOp, hk]
  simp only
  refine ⟨_, rfl, ?_, ?_⟩
  · split
    · rfl
    · have hall : (toBytes ws).take n = toBytes ws := List.take_of_length_le (by rw [toBytes_length]; omega)
      rw [hall, ← writeWords_eq_writeBytes]
      rfl
  · intro r
    split
    · exact getS_dropOps u t r s
    · exact getS_dropOps u t r s

end

/-- Settles O7: what each kind of access leaves when it completes, read by the register, tag and memory rules above. -/
theorem accessCompletionResult : Obligations.AccessCompletionResult := by
  refine ⟨fun u t o s hlive hop _ => ⟨fun n signed d hk hc => ?_, fun d hk hc => ?_, fun d hk hc => ?_⟩,
    fun u t o n ws s hlive hwf hop _ hk hn => ?_⟩
  · refine ⟨_, exec_loadComplete_ld hlive hop hk hc, ?_, fun r hr => ?_, finishTag_ok_tag .., fun b => ?_⟩
    · rw [getS_finishTag_ok, getS_setS_same]
    · rw [getS_finishTag_ok, getS_setS_ne _ _ hr, getS_dropOps]
    · rw [finishTag_mem, setS_mem, dropOps_mem]
  · refine ⟨_, exec_loadComplete_ldD hlive hop hk hc, ?_, ?_, fun r hr hr' => ?_, finishTag_ok_tag .., fun b => ?_⟩
    · rw [getS_finishTag_ok, getS_setPair_low]
    · rw [getS_finishTag_ok, getS_setPair_high]
    · rw [getS_finishTag_ok, getS_setPair_ne _ _ hr hr', getS_dropOps]
    · rw [finishTag_mem, setPair_mem, dropOps_mem]
  · refine ⟨_, exec_loadComplete_ldV hlive hop hk hc, fun k => ?_, fun r => ?_, finishTag_ok_tag .., fun b => ?_⟩
    · rw [getV_finishTag_ok, getV_setV_same, lanes_get]
    · rw [getS_finishTag_ok, getS_setV, getS_dropOps]
    · rw [finishTag_mem, setV_mem, dropOps_mem]
  · obtain ⟨s1, hexec, hmem, hregs⟩ := exec_loadComplete_st hlive hop hk hn
    refine ⟨_, hexec, fun x => ?_, finishTag_ok_tag .., fun r => ?_, ?_⟩
    · rw [finishTag_mem, hmem, readB_store hn hwf]
    · rw [getS_finishTag_ok, hregs]
    · rw [finishTag_mem, hmem]
      exact wf_writeBytes _ _ hwf

end Sys2Proof.Machine
end

section
/-!
SUPPORT. Proofs of the scope statements: STAT, EVT.CLR and the event log (O12).
-/

namespace Sys2Proof.Machine

/-! ### Reading and clearing a status word (R260, R288, R443) -/

theorem statAddr_aligned (u : UnitId) (a : Reg) (k : Option Word) (s : State) :
    statAddr u a k s / 4 * 4 = statAddr u a k s := by
  unfold statAddr
  omega

theorem parityCheck_of_good {a : Nat} {s : State} (h : s.statusBad.contains a = false) : parityCheck a s = s := by
  rw [parityCheck, h]
  rfl

/-- A word of good parity that is no latched pair's word reads as it stands. -/
theorem readStatus_of_plain {reader a : Nat} {s : State} (ha : a / 4 * 4 = a) (hgood : s.statusBad.contains a = false)
    (hhi : hiOf a = none) (hlatch : (s.latches.find? fun l => l.1 = reader && l.2.1 = a) = none) :
    readStatus reader a s = (s, liveWord a s) := by
  unfold readStatus
  simp only [ha, parityCheck_of_good hgood, hhi, hlatch]

theorem clearStatus_word {a : Nat} (ha : a / 4 * 4 = a) (m : Word) (s : State) :
    (clearStatus a m s).word a = s.word a &&& ~~~ clearedBits (fieldsAt s.opt a) m := by
  unfold clearStatus
  simp only [ha]
  split
  next h =>
    rw [h]
    exact BitVec.and_allOnes.symm
  · exact word_setWord_same s _ _

theorem clearStatus_word_ne {a b : Nat} (ha : a / 4 * 4 = a) (hb : b ≠ a) (m : Word) (s : State) :
    (clearStatus a m s).word b = s.word b := by
  unfold clearStatus
  simp only [ha]
  split
  · rfl
  · exact word_setWord_ne s hb _

/-- Clearing a word changes only what is held of the status space. -/
theorem clearStatus_frame (a : Nat) (m : Word) (s : State) :
    clearStatus a m s = { s with status := (clearStatus a m s).status } := by
  unfold clearStatus
  dsimp only
  split <;> rfl

/-- What the next instruction of a unit is depends on nothing of the status space. -/
theorem advance_clearStatus_units (u : UnitId) (wide : Bool) (a : Nat) (m : Word) (s : State) :
    (advance u wide (clearStatus a m s)).units = (advance u wide s).units := by
  rw [clearStatus_frame]
  rfl

theorem stat_writesScalar {u : UnitId} {d a : Reg} {k : Option Word} {s : State}
    (hissue : issues u .stat k.isSome [.s d, .s a] s) (hgood : s.statusBad.contains (statAddr u a k s) = false)
    (hhi : hiOf (statAddr u a k s) = none)
    (hlatch : (s.latches.find? fun l => l.1 = u.val && l.2.1 = statAddr u a k s) = none) :
    writesScalar (.stat u d a k) u d (liveWord (statAddr u a k s) s) k.isSome s := by
  apply writesScalar_of
  rw [exec_stat, execStat, issue_acts hissue, readStatus_of_plain (statAddr_aligned ..) hgood hhi hlatch]

theorem exec_evtClr_of_issues {u : UnitId} {d a : Reg} {k : Option Word} {s : State}
    (hissue : issues u .stat k.isSome [.s d, .s a] s) :
    exec (.evtClr u d a k) s = .next (advance u k.isSome (clearStatus (statAddr u a k s) (getS u d s) s)) := by
  rw [exec_evtClr, execEvtClr, issue_acts hissue]

/-! ### Entering a record in the log (R446, R447, R450) -/

/-- The state in which a record stands in the log, before any record is lost. -/
def logged (r : EvRec) (s : State) : State :=
  let n := getF F.intEvtSeqSeq s
  let slot := ringBase + 16 * (n % 256)
  setF F.intEvtSeqSeq ((n + 1) % 2 ^ 32) { s with
    ev := { s.ev with
      log := (r :: s.ev.log).take 256
      last := some (s.periph, evKey r)
      blank := s.ev.blank.filter fun a => !(decide (slot ≤ a) && decide (a < slot + 16))
      marks := ⟨r.code, r.kind, r.index, s.periph⟩ ::
        s.ev.marks.filter fun m => !(m.code = r.code && m.kind = r.kind && m.index = r.index) }
    statusBad := s.statusBad.filter fun a => !(decide (slot ≤ a) && decide (a < slot + 16)) }

theorem enterLog_eq (r : EvRec) (s : State) :
    enterLog r s = if unread s = 256 then loseRecord (logged r s) else logged r s := rfl

/-- The state in which the loss of the oldest unread record is counted, before it is told. -/
def counted (s : State) : State :=
  setF F.intEvtHostNext ((getF F.intEvtHostNext (bump F.intEvtLostLost s) + 1) % 2 ^ 32) (bump F.intEvtLostLost s)

theorem loseRecord_eq (s : State) :
    loseRecord s =
      if withheld 0x6005 0 0 (counted s) then
        bump F.intEvtSuppressedSuppressed { counted s with ev := { s.ev with lostSince := s.ev.lostSince + 1 } }
      else raise 0x6005 0 0 (s.ev.lostSince + 1) { counted s with ev := { s.ev with lostSince := 0 } } := rfl

/-- Losing a record changes only the event log and what is held of the status space. -/
theorem loseRecord_frame (s : State) :
    loseRecord s = { s with ev := (loseRecord s).ev, status := (loseRecord s).status } := by
  rw [loseRecord_eq]
  split <;> rfl

theorem loseRecord_log (s : State) : (loseRecord s).ev.log = s.ev.log := by
  rw [loseRecord_eq]
  split <;> rfl

theorem loseRecord_blank (s : State) : (loseRecord s).ev.blank = s.ev.blank := by
  rw [loseRecord_eq]
  split <;> rfl

theorem loseRecord_statusBad (s : State) : (loseRecord s).statusBad = s.statusBad := by
  rw [loseRecord_frame]

/-- A record that tells the loss sets out last, or none does (R449). -/
theorem loseRecord_queue (s : State) : ∃ told, (loseRecord s).ev.queue = s.ev.queue ++ told := by
  rw [loseRecord_eq]
  split
  · exact ⟨[], (List.append_nil _).symm⟩
  · exact ⟨_, rfl⟩

/-- But for the count of suppressed events, the fields after a loss are those when it was counted. -/
theorem getF_loseRecord {f : Fld} (h : f.addr ≠ F.intEvtSuppressedSuppressed.addr) (s : State) :
    getF f (loseRecord s) = getF f (counted s) := by
  rw [loseRecord_eq]
  split
  · exact getF_setF_addr _ _ h
  · rfl

theorem getF_bump_same {f : Fld} (h : f.hi < 32) (s : State) : getF f (bump f s) = min (topF f) (getF f s + 1) := by
  unfold bump bumpBy
  rw [getF_setF_same _ _ _ h]
  refine Nat.mod_eq_of_lt (Nat.lt_of_le_of_lt (Nat.min_le_left ..) ?_)
  exact Nat.sub_lt (by positivity) Nat.one_pos

theorem lost_loseRecord (s : State) :
    getF F.intEvtLostLost (loseRecord s) = min (2 ^ 32 - 1) (getF F.intEvtLostLost s + 1) := by
  rw [getF_loseRecord (by decide), counted, getF_setF_addr _ _ (by decide), getF_bump_same (by decide)]
  rfl

theorem hostNext_loseRecord (s : State) :
    getF F.intEvtHostNext (loseRecord s) = (getF F.intEvtHostNext s + 1) % 2 ^ 32 := by
  have hnext : getF F.intEvtHostNext (bump F.intEvtLostLost s) = getF F.intEvtHostNext s := getF_setF_addr _ _ (by decide)
  rw [getF_loseRecord (by decide), counted, getF_setF_same _ _ _ (by decide), hnext]
  exact Nat.mod_mod ..

theorem seq_loseRecord (s : State) : getF F.intEvtSeqSeq (loseRecord s) = getF F.intEvtSeqSeq s := by
  rw [getF_loseRecord (by decide), counted, getF_setF_addr _ _ (by decide)]
  exact getF_setF_addr _ _ (by decide)

theorem seq_logged (r : EvRec) (s : State) : getF F.intEvtSeqSeq (logged r s) = (getF F.intEvtSeqSeq s + 1) % 2 ^ 32 := by
  rw [logged, getF_setF_same _ _ _ (by decide)]
  exact Nat.mod_mod ..

theorem getF_logged_ne {f : Fld} (h : f.addr ≠ F.intEvtSeqSeq.addr) (r : EvRec) (s : State) :
    getF f (logged r s) = getF f s := getF_setF_addr _ _ h

/-- An address of a slot is no longer marked once the slot's marks are dropped. -/
theorem contains_filter_slot {slot a : Nat} (l : List Nat) (h : slot ≤ a ∧ a < slot + 16) :
    (l.filter fun a => !(decide (slot ≤ a) && decide (a < slot + 16))).contains a = false := by
  simp [h]

theorem enterLog_frame (r : EvRec) (s : State) :
    enterLog r s =
      { s with ev := (enterLog r s).ev, status := (enterLog r s).status, statusBad := (enterLog r s).statusBad } := by
  rw [enterLog_eq]
  split
  · rw [loseRecord_frame]
    rfl
  · rfl

theorem enterLog_log (r : EvRec) (s : State) : (enterLog r s).ev.log = (r :: s.ev.log).take 256 := by
  rw [enterLog_eq]
  split
  · rw [loseRecord_log]
    rfl
  · rfl

theorem enterLog_blank (r : EvRec) (s : State) : (enterLog r s).ev.blank = (logged r s).ev.blank := by
  rw [enterLog_eq]
  split
  · exact loseRecord_blank _
  · rfl

theorem enterLog_statusBad (r : EvRec) (s : State) : (enterLog r s).statusBad = (logged r s).statusBad := by
  rw [enterLog_eq]
  split
  · exact loseRecord_statusBad _
  · rfl

theorem seq_enterLog (r : EvRec) (s : State) : getF F.intEvtSeqSeq (enterLog r s) = (getF F.intEvtSeqSeq s + 1) % 2 ^ 32 := by
  rw [enterLog_eq]
  split
  · rw [seq_loseRecord, seq_logged]
  · exact seq_logged r s

theorem lost_enterLog (r : EvRec) (s : State) : getF F.intEvtLostLost (enterLog r s) =
    if unread s = 256 then min (2 ^ 32 - 1) (getF F.intEvtLostLost s + 1) else getF F.intEvtLostLost s := by
  rw [enterLog_eq]
  split
  · rw [lost_loseRecord, getF_logged_ne (by decide)]
  · exact getF_logged_ne (by decide) r s

theorem hostNext_enterLog (r : EvRec) (s : State) : getF F.intEvtHostNext (enterLog r s) =
    if unread s = 256 then (getF F.intEvtHostNext s + 1) % 2 ^ 32 else getF F.intEvtHostNext s := by
  rw [enterLog_eq]
  split
  · rw [hostNext_loseRecord, getF_logged_ne (by decide)]
  · exact getF_logged_ne (by decide) r s

/-- A word of slot `k` of the event ring is that word of the record that stands there. -/
theorem liveWord_ring {k w : Nat} {r : EvRec} {s : State} (hk : k < 256) (hw : w < 4)
    (hblank : s.ev.blank.contains (ringBase + 16 * k + 4 * w) = false) (hr : ringRec k s = some r) :
    liveWord (ringBase + 16 * k + 4 * w) s = recWord r w := by
  have hslot : (ringBase + 16 * k + 4 * w - ringBase) / 16 = k := by omega
  have hword : (ringBase + 16 * k + 4 * w) / 4 % 4 = w := by
    unfold ringBase
    omega
  have hin : inRing (ringBase + 16 * k + 4 * w) = true := by
    simp only [inRing, Bool.and_eq_true, decide_eq_true_eq]
    omega
  have hlo : ringBase + 16 * k + 4 * w ≠ F.clkTimeLo := by
    unfold ringBase F.clkTimeLo
    omega
  have hhi : ringBase + 16 * k + 4 * w ≠ F.clkTimeHi := by
    unfold ringBase F.clkTimeHi
    omega
  rw [liveWord, if_neg hlo, if_neg hhi, if_pos hin, hblank, hslot, hr, hword]
  rfl

/-- The newest record stands in the slot of its number. -/
theorem ringRec_newest {n : Nat} {r : EvRec} {s : State} (hlog : s.ev.log[0]? = some r)
    (hseq : getF F.intEvtSeqSeq s = (n + 1) % 2 ^ 32) : ringRec (n % 256) s = some r := by
  have hplace : ((n + 1) % 2 ^ 32 + 2 ^ 32 - 1 - n % 256) % 256 = 0 := by omega
  rw [ringRec, hseq, hplace]
  exact hlog

/-- The record that entered reads in its slot, with good parity. -/
theorem enterLog_slot {w : Nat} (hw : w < 4) (r : EvRec) (s : State) :
    let a := ringBase + 16 * (getF F.intEvtSeqSeq s % 256) + 4 * w
    liveWord a (enterLog r s) = recWord r w ∧ (enterLog r s).statusBad.contains a = false := by
  intro a
  have ha : ringBase + 16 * (getF F.intEvtSeqSeq s % 256) ≤ a ∧ a < ringBase + 16 * (getF F.intEvtSeqSeq s % 256) + 16 := by
    omega
  constructor
  · refine liveWord_ring (Nat.mod_lt _ (by decide)) hw ?_ (ringRec_newest ?_ (seq_enterLog r s))
    · rw [enterLog_blank]
      exact contains_filter_slot _ ha
    · rw [enterLog_log]
      rfl
  · rw [enterLog_statusBad]
    exact contains_filter_slot _ ha

/-- The records on their way stay, and over an unread record one that tells the loss may set out behind them. -/
theorem enterLog_queue (r : EvRec) (s : State) :
    (unread s = 256 → ∃ told, (enterLog r s).ev.queue = s.ev.queue ++ told) ∧
      (unread s ≠ 256 → (enterLog r s).ev.queue = s.ev.queue) := by
  rw [enterLog_eq]
  constructor
  · intro h
    rw [if_pos h]
    exact loseRecord_queue (logged r s)
  · intro h
    rw [if_neg h]
    rfl

/-- The state in which record `i` of those on their way has arrived. -/
def arrived (i : Nat) (s : State) : State := { s with ev := { s.ev with queue := s.ev.queue.eraseIdx i } }

theorem exec_eventLogEntry_of_inOrder {i : Nat} {r : EvRec} {s : State} (hclk : clocked s = true)
    (hr : s.ev.queue[i]? = some r) (hord : inOrder r s = true) :
    exec (.eventLogEntry i) s = .next (enterLog r (arrived i s)) := by
  rw [exec_eventLogEntry, execEventLogEntry, hr]
  simp [hclk, hord, arrived]

/-- Settles O12: STAT and EVT.CLR by what reading and clearing a word do, the log by what entering a record does to each
part of it. -/
theorem statusAndEventLog : Obligations.StatusAndEventLog := by
  refine ⟨fun u d a k s => ⟨fun hissue hgood hhi hlatch => stat_writesScalar hissue hgood hhi hlatch, fun hissue => ?_⟩,
    fun i r s hclk hr hord => ?_⟩
  · refine ⟨_, exec_evtClr_of_issues hissue, ?_, fun b hb => ?_, advance_clearStatus_units .., fun x => ?_⟩
    · exact clearStatus_word (statAddr_aligned ..) _ s
    · exact clearStatus_word_ne (statAddr_aligned ..) hb _ s
    · rw [advance_mem, clearStatus_mem]
  · have hlen : (s.ev.queue.eraseIdx i).length = s.ev.queue.length - 1 :=
      List.length_eraseIdx_of_lt (List.getElem?_eq_some_iff.mp hr).1
    obtain ⟨hfull, hroom⟩ := enterLog_queue r (arrived i s)
    refine ⟨_, exec_eventLogEntry_of_inOrder hclk hr hord, enterLog_log .., seq_enterLog .., fun h => ?_, hroom,
      fun w hw => enterLog_slot hw r (arrived i s), lost_enterLog .., hostNext_enterLog .., enterLog_frame ..⟩
    obtain ⟨told, htold⟩ := hfull h
    rw [htold, ← hlen]
    exact List.take_left

end Sys2Proof.Machine
end

section
/-!
SUPPORT. Folds that bring something about, and single bits of the fields of the status space.
-/

namespace Sys2Proof.Machine

/-! ### Folds -/

/-- What every step of a fold keeps, and the step of one member brings about, holds after it. -/
theorem foldl_reaches {σ α : Type} {P : σ → Prop} {g : σ → α → σ} {x : α} {l : List α} (hx : x ∈ l)
    (hkeep : ∀ s y, P s → P (g s y)) (hmake : ∀ s, P (g s x)) (s : σ) : P (l.foldl g s) := by
  have hstays (l : List α) (s : σ) (h : P s) : P (l.foldl g s) := List.foldlRecOn l g h fun s hs y _ => hkeep s y hs
  obtain ⟨l₁, l₂, rfl⟩ := List.append_of_mem hx
  rw [List.foldl_append, List.foldl_cons]
  exact hstays l₂ _ (hmake _)

/-! ### Bits of a field -/

/-- Adding a power of two to a number that lacks its bit changes that bit alone. -/
theorem testBit_add_two_pow_of_clear {v i j : Nat} (hi : v.testBit i = false) (hj : j ≠ i) :
    (v + 2 ^ i).testBit j = v.testBit j := by
  rcases Nat.lt_or_gt_of_ne hj with hlt | hgt
  · rw [Nat.add_comm, Nat.testBit_two_pow_add_gt hlt]
  · have heven : v / 2 ^ i % 2 = 0 := by
      rw [Nat.testBit_eq_decide_div_mod_eq, decide_eq_false_iff_not] at hi
      omega
    have hhalf : (v + 2 ^ i) / 2 ^ (i + 1) = v / 2 ^ (i + 1) := by
      rw [Nat.pow_succ, ← Nat.div_div_eq_div_mul, ← Nat.div_div_eq_div_mul, Nat.add_div_right _ (by positivity)]
      omega
    obtain ⟨k, rfl⟩ := Nat.exists_eq_add_of_lt hgt
    have hshift (n : Nat) : n.testBit (i + k + 1) = (n / 2 ^ (i + 1)).testBit k := by
      rw [Nat.testBit_div_two_pow, Nat.add_right_comm, Nat.add_comm]
    rw [hshift, hshift, hhalf]

/-- The number that `setAt` writes. -/
theorem testBit_setBit (v i j : Nat) (b : Bool) :
    (if v.testBit i = b then v else if b then v + 2 ^ i else v - 2 ^ i).testBit j = if j = i then b else v.testBit j := by
  split
  next h =>
    split
    next hj => rw [hj, h]
    next => rfl
  next h =>
    cases b
    case true =>
      have hi : v.testBit i = false := by simpa using h
      rw [if_pos rfl]
      split
      next hj =>
        rw [hj, Nat.add_comm, Nat.testBit_two_pow_add_eq, hi]
        rfl
      next hj => exact testBit_add_two_pow_of_clear hi hj
    case false =>
      obtain ⟨u, rfl⟩ : ∃ u, v = u + 2 ^ i :=
        ⟨v - 2 ^ i, (Nat.sub_add_cancel (Nat.ge_two_pow_of_testBit (by simpa using h))).symm⟩
      have hi : u.testBit i = false := by
        rw [Nat.add_comm, Nat.testBit_two_pow_add_eq] at h
        simpa using h
      rw [if_neg Bool.false_ne_true, Nat.add_sub_cancel]
      split
      next hj => rw [hj, hi]
      next hj => exact (testBit_add_two_pow_of_clear hi hj).symm

/-- A bit of a field reads as written, and every other bit as before; a bit set must lie in the field. -/
theorem flagAt_setAt {f : Fld} {i : Nat} {b : Bool} (hf : f.hi < 32) (hi : b = true → i < f.hi + 1 - f.lo) (j : Nat)
    (s : State) : flagAt f j (setAt f i b s) = if j = i then b else flagAt f j s := by
  have hread : flagAt f j (setAt f i b s) =
      (decide (j < f.hi + 1 - f.lo) && if j = i then b else flagAt f j s) := by
    unfold flagAt setAt
    rw [getF_setF_same _ _ _ hf, Nat.testBit_mod_two_pow, testBit_setBit]
  have hout (h : ¬ j < f.hi + 1 - f.lo) : flagAt f j s = false := by
    rw [flagAt, getF, testBit_bits, decide_eq_false h, Bool.false_and]
  rw [hread]
  by_cases hj : j < f.hi + 1 - f.lo
  · rw [decide_eq_true hj, Bool.true_and]
  · rw [decide_eq_false hj, Bool.false_and]
    split
    next h => exact (Bool.eq_false_iff.mpr fun hb => hj (h ▸ hi hb)).symm
    next => exact (hout hj).symm

end Sys2Proof.Machine
end

section
/-!
SUPPORT. Going over to STANDBY or PARK: what each part leaves aside, and what it shows (R90, R102, R200, R329).
-/

namespace Sys2Proof.Machine

/-! ### What stays aside -/

/-- The 64 KiB of the status space that a word lies in, which tell the windows of Table 21.1 apart. -/
def page (a : Nat) : Nat := a / 0x10000

/-- What most parts of an entry to STANDBY or PARK leave as it was, with the word of the status space at one address. -/
structure Aside where
  opt : Opt
  mode : Mode
  periph : Nat
  units : Vector ExUnit 30
  pins : Pins
  latches : Fin 2 → Option LatchWait
  chans : Vector Chan 128
  word : Word

/-- What stands aside in a state, with the word at `a`. -/
def aside (a : Nat) (s : State) : Aside :=
  ⟨s.opt, s.mode, s.periph, s.units, s.pins, fun d => s.lum[d].latch, s.ejt.chans, s.word a⟩

section
variable {a : Nat} {f : Fld} {s t : State}

theorem getF_of_aside (h : aside f.addr t = aside f.addr s) : getF f t = getF f s := by
  rw [getF, getF, show t.word f.addr = s.word f.addr from congrArg Aside.word h]

theorem units_of_aside (h : aside a t = aside a s) : t.units = s.units := congrArg Aside.units h

theorem chans_of_aside (h : aside a t = aside a s) : t.ejt.chans = s.ejt.chans := congrArg Aside.chans h

/-- Whether a focal die works follows from the option and RST.DIE. -/
theorem fdUp_congr (hopt : t.opt = s.opt) (hword : t.word F.rstDie = s.word F.rstDie) (d : Fin 2) : fdUp d t = fdUp d s := by
  have hup : getF F.rstDieDieUp t = getF F.rstDieDieUp s := congrArg (bits · 7 0) hword
  rw [fdUp, fdUp, dieUp, dieUp, flagAt, flagAt, hup, hopt]

theorem fdUp_of_aside (h : aside F.rstDie t = aside F.rstDie s) (d : Fin 2) : fdUp d t = fdUp d s :=
  fdUp_congr (congrArg Aside.opt h) (congrArg Aside.word h) d

theorem aside_ite {c : Prop} [Decidable c] (s t : State) : aside a (if c then s else t) = if c then aside a s else aside a t :=
  apply_ite (aside a) c s t

theorem aside_setF (v : Nat) (h : a ≠ f.addr) (s : State) : aside a (setF f v s) = aside a s := by
  simp [aside, setF_word_ne s v h]

/-- A field of another window. -/
theorem aside_setF_page {p : Nat} (h : page a ≠ p) (hf : page f.addr = p) (v : Nat) (s : State) :
    aside a (setF f v s) = aside a s :=
  aside_setF v (fun e => h (by rw [e, hf])) s

theorem aside_raiseLim (code kind index detail : Nat) (h : page a ≠ 0xA0) (s : State) :
    aside a (raiseLim code kind index detail s) = aside a s := by
  unfold raiseLim
  split
  · exact aside_setF_page h rfl _ s
  · rfl

end

/-! ### The focal dies and their shutters -/

theorem page_fpdState (d : Fin 2) : page (F.fpdState d) = 0x10 := by
  unfold page F.fpdState
  omega

theorem page_fpdShutterCfg (d : Fin 2) : page (F.fpdShutterCfg d) = 0x10 := by
  unfold page F.fpdShutterCfg
  omega

theorem page_fpdCount (d : Fin 2) : page (F.fpdCount d) = 0x10 := by
  unfold page F.fpdCount
  omega

section
variable {a : Nat} (h : page a ≠ 0x10)
include h

theorem aside_setBias (d : Fin 2) (on : Bool) (s : State) : aside a (setBias d on s) = aside a s := by
  unfold setBias
  simp only [aside_ite, aside_setF_page (f := F.fpdStateBiasOn d) h (page_fpdState d),
    aside_setF_page (f := F.fpdStateSettling d) h (page_fpdState d), ite_self]

theorem aside_standbyBias (s : State) : aside a (standbyBias s) = aside a s := by
  simp [standbyBias, setLowBias, aside_ite, aside_setBias h]

theorem aside_takeShutter (d : Fin 2) (s : State) : aside a (takeShutter d s) = aside a s := by
  unfold takeShutter
  simp only [aside_setF_page (f := F.fpdShutterCfgTravel d) h (page_fpdShutterCfg d),
    aside_setF_page (f := F.fpdShutterCfgReopen d) h (page_fpdShutterCfg d),
    aside_setF_page (f := F.fpdShutterCfgHold d) h (page_fpdShutterCfg d)]

theorem aside_moveShutter (d : Fin 2) (close : Bool) (s : State) : aside a (moveShutter d close s) = aside a s := by
  simp only [moveShutter, bump, bumpBy, aside_ite, aside_setF_page (f := F.fpdCountShutterMoves d) h (page_fpdCount d),
    aside_setF_page (f := F.fpdStateShutter d) h (page_fpdState d), aside_takeShutter h, ite_self]

theorem aside_moveShutters (close : Bool) (s : State) : aside a (moveShutters close s) = aside a s := by
  unfold moveShutters
  rw [aside_ite, foldl_keeps (aside a) fun s d => by rw [aside_ite, aside_moveShutter h, ite_self]]
  exact ite_self _

theorem aside_releaseShutters (s : State) : aside a (releaseShutters s) = aside a s := by
  unfold releaseShutters
  refine foldl_keeps (aside a) (fun s d => ?_) _ s
  have hrelease : aside a (releaseShutter d s) = aside a s := by
    unfold releaseShutter
    rw [aside_ite, aside_setF_page (f := F.fpdStateShutter d) h (page_fpdState d), aside_takeShutter h, ite_self]
  have htaint (s : State) : aside a (endShutTaint d s) = aside a s := by
    unfold endShutTaint
    split <;> rfl
  dsimp only
  rw [aside_ite, htaint, hrelease, ite_self]

end

/-- A bias switched off is off. -/
theorem biasOn_setBias_off (d : Fin 2) (s : State) : getF (F.fpdStateBiasOn d) (setBias d false s) = 0 := by
  change getF (F.fpdStateBiasOn d) (setF (F.fpdStateSettling d) 0 (setF (F.fpdStateBiasOn d) 0 s)) = 0
  rw [getF_setF_bits _ _ (.inr (show 29 < 30 by decide)), getF_setF_same _ _ _ (show 30 < 32 by decide), Nat.zero_mod]

/-- A shutter's state stands beside the bias in one word, and moving it leaves every bias as it was. -/
theorem biasOn_moveShutter (d e : Fin 2) (close : Bool) (s : State) :
    getF (F.fpdStateBiasOn d) (moveShutter e close s) = getF (F.fpdStateBiasOn d) s := by
  have hcount (s : State) : getF (F.fpdStateBiasOn d) (bump (F.fpdCountShutterMoves e) s) = getF (F.fpdStateBiasOn d) s :=
    getF_setF_bits s _ (.inr (show 15 < 30 by decide))
  have hcfg (s : State) : getF (F.fpdStateBiasOn d) (takeShutter e s) = getF (F.fpdStateBiasOn d) s := by
    have hne : F.fpdState d ≠ F.fpdShutterCfg e := by
      unfold F.fpdState F.fpdShutterCfg
      omega
    unfold takeShutter
    rw [getF_setF_addr _ _ hne, getF_setF_addr _ _ hne, getF_setF_addr _ _ hne]
  unfold moveShutter
  extract_lets _ same
  split
  · rfl
  · rw [hcount, getF_setF_bits _ _ (.inr (show 23 < 30 by decide)), hcfg]

theorem biasOn_moveShutters (d : Fin 2) (close : Bool) (s : State) :
    getF (F.fpdStateBiasOn d) (moveShutters close s) = getF (F.fpdStateBiasOn d) s := by
  unfold moveShutters
  split
  · rfl
  · refine foldl_keeps (getF (F.fpdStateBiasOn d)) (fun s e => ?_) _ s
    split
    · exact biasOn_moveShutter d e close s
    · rfl

/-! ### The lamps -/

theorem page_lumSState (n : Strng) : page (F.lumSState (strDie n) (strIdx n)) = 0x70 := by
  unfold page F.lumSState
  omega

theorem page_lumDieState (d : Fin 2) : page (F.lumDieState d) = 0x70 := by
  unfold page F.lumDieState
  omega

/-- A change of a die's lamps that keeps its LATCH. -/
theorem aside_modLum {a : Nat} {g : LumDie → LumDie} (hg : ∀ e, (g e).latch = e.latch) (d : Fin 2) (s : State) :
    aside a (modLum d g s) = aside a s := by
  have hlatch (e : Fin 2) : ((vmod s.lum d g)[e]).latch = (s.lum[e]).latch := by
    by_cases hed : e = d
    · rw [hed, vmod_same, hg]
    · rw [vmod_ne _ _ hed]
  simp only [aside, modLum, hlatch]
  rfl

theorem aside_modStr {a : Nat} (n : Strng) (g : Str → Str) (s : State) : aside a (modStr n g s) = aside a s := by
  unfold modStr
  exact aside_modLum (by intro _; rfl) _ s

theorem aside_beginStop {a : Nat} (n : Strng) (s : State) : aside a (beginStop n s) = aside a s := by
  unfold beginStop modTest
  rw [aside_modLum (by intro _; rfl), aside_modStr]

theorem aside_stopString {a : Nat} (h : page a ≠ 0x70) (n : Strng) (s : State) : aside a (stopString n s) = aside a s := by
  simp only [stopString, aside_ite, aside_beginStop, aside_modStr,
    aside_setF_page (f := F.lumSStateHeadroom (strDie n) (strIdx n)) h (page_lumSState n),
    aside_setF_page (f := F.lumSStateRunning (strDie n) (strIdx n)) h (page_lumSState n), ite_self]

theorem aside_lampsOff {a : Nat} (h : page a ≠ 0x70) (d : Fin 2) (s : State) : aside a (lampsOff d s) = aside a s := by
  unfold lampsOff
  rw [foldl_keeps (aside a) fun s n => aside_stopString h n s]
  exact aside_modLum (by intro _; rfl) d s

theorem strRunning_of_aside {n : Strng} {s t : State}
    (h : aside (F.lumSState (strDie n) (strIdx n)) t = aside (F.lumSState (strDie n) (strIdx n)) s) :
    strRunning n t = strRunning n s := by
  rw [strRunning, strRunning, flag, flag, getF_of_aside (f := F.lumSStateRunning (strDie n) (strIdx n)) h]

/-- Of the running strings, stopping one changes what its two fields show. -/
theorem strRunning_stopString (n m : Strng) (s : State) :
    strRunning n (stopString m s) =
      strRunning n (setF (F.lumSStateHeadroom (strDie m) (strIdx m)) 0 (setF (F.lumSStateRunning (strDie m) (strIdx m)) 0 s)) := by
  unfold stopString
  extract_lets d j was t
  refine strRunning_of_aside ?_
  rw [aside_ite, aside_beginStop, aside_modStr, ite_self]

theorem strRunning_stopString_same (n : Strng) (s : State) : strRunning n (stopString n s) = false := by
  have hoff : getF (F.lumSStateRunning (strDie n) (strIdx n))
      (setF (F.lumSStateRunning (strDie n) (strIdx n)) 0 s) = 0 := by
    rw [getF_setF_same _ _ _ (show 30 < 32 by decide), Nat.zero_mod]
  rw [strRunning_stopString, strRunning, flag, getF_setF_bits _ _ (.inr (show 26 < 30 by decide)), hoff]
  rfl

/-- Stopping a string starts none. -/
theorem strRunning_stopString_of_stopped (n m : Strng) {s : State} (h : strRunning n s = false) :
    strRunning n (stopString m s) = false := by
  by_cases ha : F.lumSState (strDie n) (strIdx n) = F.lumSState (strDie m) (strIdx m)
  · have hfld : F.lumSStateRunning (strDie n) (strIdx n) = F.lumSStateRunning (strDie m) (strIdx m) := by
      unfold F.lumSStateRunning
      rw [ha]
    have hsame : strRunning n (stopString m s) = strRunning m (stopString m s) := by
      rw [strRunning, strRunning, hfld]
    rw [hsame, strRunning_stopString_same]
  · rw [strRunning_stopString, strRunning, flag, getF_setF_addr _ _ ha, getF_setF_addr _ _ ha]
    exact h

theorem mem_strsOf (n : Strng) : n ∈ strsOf (strDie n) := by simp [strsOf]

/-- After the lamps of a die go off none of its strings runs. -/
theorem strRunning_lampsOff_same (n : Strng) (s : State) : strRunning n (lampsOff (strDie n) s) = false :=
  foldl_reaches (P := fun s => strRunning n s = false) (mem_strsOf n)
    (fun _ m h => strRunning_stopString_of_stopped n m h) (strRunning_stopString_same n) _

theorem strRunning_lampsOff_of_stopped (d : Fin 2) {n : Strng} {s : State} (h : strRunning n s = false) :
    strRunning n (lampsOff d s) = false :=
  List.foldlRecOn (motive := fun s => strRunning n s = false) _ _ h fun _ hs m _ => strRunning_stopString_of_stopped n m hs

theorem strRunning_lampsOff_both (n : Strng) (s : State) : strRunning n (lampsOff 1 (lampsOff 0 s)) = false := by
  have hdie : ∀ d : Fin 2, d = 0 ∨ d = 1 := by decide
  rcases hdie (strDie n) with hd | hd
  · exact strRunning_lampsOff_of_stopped 1 (hd ▸ strRunning_lampsOff_same n s)
  · exact hd ▸ strRunning_lampsOff_same n _

/-! ### Calibration: SAVE, gaps and runs -/

/-- SAVE starts as item 11 and hands its records to the store, or it does nothing. -/
theorem startSave_cases (s : State) : startSave s = s ∨
    ∃ f g, startSave s = showNvs (modNvs f (startRun (newRun 11 .measuring s) (modCal g s))) := by
  unfold startSave
  split
  · exact .inl rfl
  · exact .inr ⟨_, _, rfl⟩

section
variable {a : Nat}

theorem aside_showGaps (h : page a ≠ 0x38) (s : State) : aside a (showGaps s) = aside a s := by
  unfold showGaps
  rw [aside_setF_page h rfl, aside_setF_page h rfl]

theorem aside_dropFeedGap (h : page a ≠ 0x38) (park : Bool) (s : State) : aside a (dropFeedGap park s) = aside a s := by
  unfold dropFeedGap
  rw [aside_ite, aside_showGaps h]
  exact ite_self _

theorem aside_showNvs (h : page a ≠ 0x80) (s : State) : aside a (showNvs s) = aside a s := by
  unfold showNvs
  simp only [aside_setF_page (f := F.nvsStateQueued) h rfl, aside_setF_page (f := F.nvsStateProgramming) h rfl,
    aside_setF_page (f := F.nvsStateKeys) h rfl, aside_setF_page (f := F.nvsSectorsFree) h rfl,
    aside_setF_page (f := F.nvsSectorsRetired) h rfl, aside_setF_page (f := F.nvsEraseMaxEraseMax) h rfl]

theorem aside_setPending (h : page a ≠ 0x38) (i : Nat) (s : State) : aside a (setPending i s) = aside a s := by
  have hset : aside a (setAt F.calStatePending i true s) = aside a s := aside_setF_page h rfl _ s
  rw [setPending, aside_ite]
  exact (congrArg (ite _ _) hset).trans (ite_self _)

theorem aside_startRun (h : page a ≠ 0x38) (r : CalRun) (s : State) : aside a (startRun r s) = aside a s := by
  have hrunning (t : State) : aside a (setAt F.calStateRunning r.item true t) = aside a t := aside_setF_page h rfl _ t
  have hpending : aside a (setAt F.calStatePending r.item false s) = aside a s := aside_setF_page h rfl _ s
  exact (hrunning (clearPending r.item s)).trans hpending

theorem aside_startSave (hcal : page a ≠ 0x38) (hnvs : page a ≠ 0x80) (s : State) :
    aside a (startSave s) = aside a s := by
  rcases startSave_cases s with hs | ⟨f, g, hs⟩
  · rw [hs]
  · have hmod (t : State) : aside a (modNvs f t) = aside a t := rfl
    rw [hs, aside_showNvs hnvs, hmod, aside_startRun hcal]
    rfl

theorem aside_wantSave (hcal : page a ≠ 0x38) (hnvs : page a ≠ 0x80) (s : State) : aside a (wantSave s) = aside a s := by
  rw [wantSave, aside_ite, aside_setPending hcal, aside_startSave hcal hnvs, ite_self]

end

theorem calRunning_of_aside {s t : State} (h : aside F.calState t = aside F.calState s) (i : Nat) :
    calRunning i t = calRunning i s :=
  congrArg (·.testBit i) (getF_of_aside h)

/-- A field beside CAL.STATE.RUNNING in its word. -/
theorem calRunning_setF {f : Fld} (hf : f.hi < 16) (i v : Nat) (s : State) : calRunning i (setF f v s) = calRunning i s :=
  congrArg (·.testBit i) (getF_setF_bits s v (.inr hf))

theorem calRunning_dropFeedGap (i : Nat) (park : Bool) (s : State) : calRunning i (dropFeedGap park s) = calRunning i s := by
  unfold dropFeedGap
  split
  · exact (calRunning_setF (show 1 < 16 by decide) ..).trans (calRunning_setF (show 3 < 16 by decide) ..)
  · rfl

theorem calRunning_startRun {i : Nat} {r : CalRun} (hr : r.item < 12) (hi : i ≠ r.item) (s : State) :
    calRunning i (startRun r s) = calRunning i s := by
  have hpending : calRunning i (clearPending r.item s) = calRunning i s := calRunning_setF (show 15 < 16 by decide) ..
  rw [← hpending]
  exact (flagAt_setAt (f := F.calStateRunning) (show 27 < 32 by decide) (fun _ => hr) i _).trans (if_neg hi)

/-- SAVE touches no other run. -/
theorem calRunning_wantSave {i : Nat} (hi : i ≠ 11) (s : State) : calRunning i (wantSave s) = calRunning i s := by
  unfold wantSave
  split
  · unfold setPending
    split
    · rfl
    · exact calRunning_setF (show 15 < 16 by decide) ..
  · rcases startSave_cases s with hs | ⟨f, g, hs⟩
    · rw [hs]
    · have hmod (t : State) : calRunning i (modNvs f t) = calRunning i t := rfl
      have hitem : (newRun 11 .measuring s).item < 12 := show 11 < 12 by decide
      rw [hs, calRunning_of_aside (aside_showNvs (by decide) _), hmod, calRunning_startRun hitem hi]
      rfl

/-! ### Going over to STANDBY or PARK (R90) -/

/-- The clusters' supply is shed in the mode gone over to, with no edge pending. -/
def shed (park : Bool) (s : State) : State :=
  setEdges [] (setF F.pwrStateVcShed 1 { s with
    mode := if park then .park else .standby
    pins := { s.pins with alive := true, vgdTx := !park } })

/-- The part common to STANDBY and PARK: besides, no LATCH is staged, and LSYNC is an input. -/
def lowered (park : Bool) (s : State) : State := cutLsync (dropLatches (shed park s))

/-- The bias of both focal dies off. -/
def biasOff (s : State) : State :=
  (List.finRange 2).foldl (fun s (d : Fin 2) => if fdUp d s then setBias d false s else s) s

theorem takeLow_park (s : State) : takeLow true s =
    wantSave (dropFeedGap true (lampsOff 1 (lampsOff 0 (moveShutters true (biasOff (lowered true s)))))) := rfl

theorem takeLow_standby (s : State) : takeLow false s =
    wantSave (releaseShutters (if fromPark s then moveShutters false (standbyBias (lowered false s))
      else standbyBias (lowered false s))) := rfl

theorem aside_biasOff {a : Nat} (h : page a ≠ 0x10) (s : State) : aside a (biasOff s) = aside a s :=
  foldl_keeps (aside a) (fun s d => by rw [aside_ite, aside_setBias h, ite_self]) _ s

/-- After the common part nothing that stands aside changes. -/
theorem aside_takeLow {a : Nat} (hfpd : page a ≠ 0x10) (hcal : page a ≠ 0x38) (hlum : page a ≠ 0x70) (hnvs : page a ≠ 0x80)
    (park : Bool) (s : State) : aside a (takeLow park s) = aside a (lowered park s) := by
  cases park
  case true =>
    rw [takeLow_park, aside_wantSave hcal hnvs, aside_dropFeedGap hcal, aside_lampsOff hlum, aside_lampsOff hlum,
      aside_moveShutters hfpd, aside_biasOff hfpd]
  case false =>
    rw [takeLow_standby, aside_wantSave hcal hnvs, aside_releaseShutters hfpd, aside_ite, aside_moveShutters hfpd,
      aside_standbyBias hfpd, ite_self]

/-- A LATCH at one die is lost. -/
def dropLatch (d : Fin 2) (s : State) : State := showLatch d (modLum d (fun e => { e with latch := none }) s)

theorem dropLatches_eq (s : State) : dropLatches s = dropLatch 1 (dropLatch 0 s) := rfl

theorem latch_dropLatch (d e : Fin 2) (s : State) :
    ((dropLatch d s).lum[e]).latch = if e = d then none else (s.lum[e]).latch := by
  change ((vmod s.lum d fun e => { e with latch := none })[e]).latch = _
  split
  next he => rw [he, vmod_same]
  next he => rw [vmod_ne _ _ he]

theorem latch_dropLatches (e : Fin 2) (s : State) : ((dropLatches s).lum[e]).latch = none := by
  rw [dropLatches_eq, latch_dropLatch, latch_dropLatch]
  revert e
  simp [Fin.forall_fin_two]

theorem word_dropLatches {a : Nat} (h : page a ≠ 0x70) (s : State) : (dropLatches s).word a = s.word a := by
  have hdrop (d : Fin 2) (s : State) : (dropLatch d s).word a = s.word a :=
    setF_word_ne _ _ fun e => h (e ▸ page_lumDieState d)
  rw [dropLatches_eq, hdrop, hdrop]

theorem cutLsync_word (a : Nat) (s : State) : (cutLsync s).word a = s.word a := rfl

theorem cutLsync_lum (s : State) : (cutLsync s).lum = s.lum := rfl

/-- The common part shows VC_SHED, and besides it only whether a LATCH is staged. -/
theorem word_lowered {a : Nat} (h : page a ≠ 0x70) (park : Bool) (s : State) :
    (lowered park s).word a = (setF F.pwrStateVcShed 1 s).word a := by
  rw [lowered, cutLsync_word, word_dropLatches h]
  rfl

theorem latch_lowered (d : Fin 2) (park : Bool) (s : State) : ((lowered park s).lum[d]).latch = none := by
  rw [lowered, cutLsync_lum]
  exact latch_dropLatches d _

theorem vcShed_lowered (park : Bool) (s : State) : getF F.pwrStateVcShed (lowered park s) = 1 := by
  have hset : getF F.pwrStateVcShed (setF F.pwrStateVcShed 1 s) = 1 := getF_setF_same _ _ _ (by decide)
  rw [← hset, getF, getF, word_lowered (by decide)]

theorem fdUp_lowered (d : Fin 2) (park : Bool) (s : State) : fdUp d (lowered park s) = fdUp d s := by
  have hword : (lowered park s).word F.rstDie = s.word F.rstDie := by
    rw [word_lowered (by decide), setF_word_ne _ _ (by decide)]
  have hopt : (lowered park s).opt = s.opt := rfl
  exact fdUp_congr hopt hword d

/-- What a device that has gone over to STANDBY or PARK shows, by the common part. -/
theorem takeLow_aside (park : Bool) (s : State) :
    (takeLow park s).mode = (if park then .park else .standby) ∧ (takeLow park s).units = s.units ∧
      (takeLow park s).pins = { s.pins with alive := true, vgdTx := !park, lsync := false } ∧
      (∀ d : Fin 2, ((takeLow park s).lum[d]).latch = none) ∧ (takeLow park s).ejt.chans = s.ejt.chans := by
  have h : aside F.pwrState (takeLow park s) = aside F.pwrState (lowered park s) :=
    aside_takeLow (by decide) (by decide) (by decide) (by decide) park s
  refine ⟨?_, ?_, ?_, ?_, ?_⟩
  · exact congrArg Aside.mode h
  · exact congrArg Aside.units h
  · exact congrArg Aside.pins h
  · intro d
    exact (congrFun (congrArg Aside.latches h) d).trans (latch_lowered d park s)
  · exact congrArg Aside.chans h

theorem vcShed_takeLow (park : Bool) (s : State) : getF F.pwrStateVcShed (takeLow park s) = 1 := by
  have h : aside F.pwrState (takeLow park s) = aside F.pwrState (lowered park s) :=
    aside_takeLow (by decide) (by decide) (by decide) (by decide) park s
  exact (getF_of_aside h).trans (vcShed_lowered park s)

/-- Going over starts no run but SAVE, and ends none. -/
theorem calRunning_takeLow {i : Nat} (hi : i ≠ 11) (park : Bool) (s : State) :
    calRunning i (takeLow park s) = calRunning i s := by
  have hlowered (b : Bool) : calRunning i (lowered b s) = calRunning i s := by
    have hword : (lowered b s).word F.calState = s.word F.calState := by
      rw [word_lowered (by decide), setF_word_ne _ _ (by decide)]
    exact congrArg (fun w => (bits w 27 16).testBit i) hword
  cases park
  case true =>
    rw [takeLow_park, calRunning_wantSave hi, calRunning_dropFeedGap, calRunning_of_aside (aside_lampsOff (by decide) _ _),
      calRunning_of_aside (aside_lampsOff (by decide) _ _), calRunning_of_aside (aside_moveShutters (by decide) _ _),
      calRunning_of_aside (aside_biasOff (by decide) _), hlowered]
  case false =>
    have hbias : calRunning i (standbyBias (lowered false s)) = calRunning i s := by
      rw [calRunning_of_aside (aside_standbyBias (by decide) _), hlowered]
    rw [takeLow_standby, calRunning_wantSave hi, calRunning_of_aside (aside_releaseShutters (by decide) _)]
    split
    · rw [calRunning_of_aside (aside_moveShutters (by decide) _ _), hbias]
    · exact hbias

/-- Switching the bias of a die leaves that of the other die as it was. -/
theorem biasOn_setBias_ne {d e : Fin 2} (h : d ≠ e) (on : Bool) (s : State) :
    getF (F.fpdStateBiasOn d) (setBias e on s) = getF (F.fpdStateBiasOn d) s := by
  have hne : F.fpdState d ≠ F.fpdState e := by
    unfold F.fpdState
    omega
  have hother (f : Fld) (hf : f.addr = F.fpdState e) (v : Nat) (s : State) :
      getF (F.fpdStateBiasOn d) (setF f v s) = getF (F.fpdStateBiasOn d) s :=
    getF_setF_addr s v (hf ▸ hne)
  unfold setBias
  split
  · split
    · rfl
    · rw [hother _ rfl, hother _ rfl]
  · rw [hother _ rfl, hother _ rfl]

theorem biasOn_biasOff {d : Fin 2} {s : State} (hup : fdUp d s = true) : getF (F.fpdStateBiasOn d) (biasOff s) = 0 := by
  have hstep (e : Fin 2) (t : State) : fdUp d (if fdUp e t then setBias e false t else t) = fdUp d t :=
    fdUp_of_aside (by rw [aside_ite, aside_setBias (by decide), ite_self]) d
  have hmake (t : State) (h : fdUp d (if fdUp d t then setBias d false t else t) = true) :
      getF (F.fpdStateBiasOn d) (if fdUp d t then setBias d false t else t) = 0 := by
    rw [hstep] at h
    rw [if_pos h, biasOn_setBias_off]
  refine foldl_reaches (P := fun t => fdUp d t = true → getF (F.fpdStateBiasOn d) t = 0) (List.mem_finRange d)
    (fun t e ht h => ?_) hmake s ?_
  · by_cases hde : d = e
    · exact hde ▸ hmake t (hde ▸ h)
    · rw [hstep] at h
      split
      · rw [biasOn_setBias_ne hde, ht h]
      · exact ht h
  · exact (fdUp_of_aside (aside_biasOff (by decide) s) d).trans hup

/-- PARK has every lamp off, and the bias of the focal dies that work (R90, R102, R329). -/
theorem takeLow_dark (s : State) : (∀ n : Strng, strRunning n (takeLow true s) = false) ∧
    ∀ d : Fin 2, fdUp d s = true → getF (F.fpdStateBiasOn d) (takeLow true s) = 0 := by
  refine ⟨fun n => ?_, fun d hup => ?_⟩
  · have hn := page_lumSState n
    have h (t : State) : strRunning n (wantSave (dropFeedGap true t)) = strRunning n t :=
      strRunning_of_aside
        ((aside_wantSave (hn ▸ by decide) (hn ▸ by decide) _).trans (aside_dropFeedGap (hn ▸ by decide) _ t))
    rw [takeLow_park, h, strRunning_lampsOff_both]
  · have hd := page_fpdState d
    have h (t : State) : getF (F.fpdStateBiasOn d) (wantSave (dropFeedGap true (lampsOff 1 (lampsOff 0 t)))) =
        getF (F.fpdStateBiasOn d) t := by
      refine getF_of_aside (f := F.fpdStateBiasOn d) ?_
      change aside (F.fpdState d) _ = aside (F.fpdState d) _
      rw [aside_wantSave (hd ▸ by decide) (hd ▸ by decide), aside_dropFeedGap (hd ▸ by decide),
        aside_lampsOff (hd ▸ by decide), aside_lampsOff (hd ▸ by decide)]
    rw [takeLow_park, h, biasOn_moveShutters, biasOn_biasOff ((fdUp_lowered d true s).trans hup)]

end Sys2Proof.Machine
end

section
/-!
SUPPORT. What a device stops before it goes over: the shots and queues of the valves and the runs of the calibration (R90, R198).
-/

namespace Sys2Proof.Machine

/-! ### The valves -/

/-- What the end of shots and the emptying of queues leaves as it was, with the word of the status space at one address. -/
def besideValves (a : Nat) (s : State) : Opt × Vector ExUnit 30 × Word := (s.opt, s.units, s.word a)

theorem opt_of_besideValves {a : Nat} {s t : State} (h : besideValves a t = besideValves a s) : t.opt = s.opt :=
  congrArg (·.1) h

theorem units_of_besideValves {a : Nat} {s t : State} (h : besideValves a t = besideValves a s) : t.units = s.units :=
  congrArg (·.2.1) h

theorem word_of_besideValves {a : Nat} {s t : State} (h : besideValves a t = besideValves a s) : t.word a = s.word a :=
  congrArg (·.2.2) h

theorem besideValves_ite {a : Nat} {c : Prop} [Decidable c] (s t : State) :
    besideValves a (if c then s else t) = if c then besideValves a s else besideValves a t := apply_ite (besideValves a) c s t

theorem besideValves_modChan (a : Nat) (v : Valve) (g : Chan → Chan) (s : State) :
    besideValves a (modChan v g s) = besideValves a s := rfl

section
variable {a : Nat} (h : a < 0x600000)
include h

theorem besideValves_setF {f : Fld} (hf : 0x600000 ≤ f.addr) (v : Nat) (s : State) :
    besideValves a (setF f v s) = besideValves a s := by
  simp [besideValves, setF_word_ne s v (Nat.ne_of_lt (Nat.lt_of_lt_of_le h hf))]

/-- A field of a valve's block. -/
theorem besideValves_setV {f : Fld} {c i j : Nat} (hf : f.addr = c + 0x8000 * i + 0x20 * j) (hc : 0x600000 ≤ c) (v : Nat)
    (s : State) : besideValves a (setF f v s) = besideValves a s :=
  besideValves_setF h (by omega) v s

theorem besideValves_showChan (v : Valve) (s : State) : besideValves a (showChan v s) = besideValves a s := by
  unfold showChan
  simp only [besideValves_setV h (f := F.ejtVAdvanceAdvance _ _) rfl (by decide),
    besideValves_setV h (f := F.ejtVAdvanceDipMean _ _) rfl (by decide),
    besideValves_setV h (f := F.ejtVStateRunning _ _) rfl (by decide),
    besideValves_setV h (f := F.ejtVStateQueued _ _) rfl (by decide)]

theorem besideValves_showDie (d : Fin 2) (s : State) : besideValves a (showDie d s) = besideValves a s := by
  have hbase : 0x600000 ≤ F.ejtDieState d := Nat.le_add_right ..
  unfold showDie
  rw [besideValves_setF h hbase, besideValves_setF h hbase]

theorem besideValves_ageingCheck (v : Valve) (s : State) : besideValves a (ageingCheck v s) = besideValves a s := by
  have hset (x : Nat) (s : State) :
      besideValves a (setF (F.ejtVStateAgeing (valveDie v) (valveChan v)) x s) = besideValves a s :=
    besideValves_setV h rfl (by decide) x s
  have hraise (x : Nat) (s : State) :
      besideValves a (raise 0x3007 4 v 0 (setF (F.ejtVStateAgeing (valveDie v) (valveChan v)) x s)) = besideValves a s :=
    hset x s
  simp only [ageingCheck, besideValves_ite, hset, hraise, ite_self]

theorem besideValves_closeSearch (v : Valve) (s : State) : besideValves a (closeSearch v s) = besideValves a s := by
  unfold closeSearch endSearch
  extract_lets d k
  split
  · rfl
  · split
    · rfl
    · split
      · rw [besideValves_ageingCheck h, besideValves_showChan h,
          besideValves_setV h (f := F.ejtVStateLastResult _ _) rfl (by decide),
          besideValves_setV h (f := F.ejtVDipLastDip _ _) rfl (by decide), besideValves_modChan]
      · have hraise (t : State) : besideValves a (raise 0x3006 4 v 0 t) = besideValves a t := rfl
        rw [besideValves_ite, hraise, ite_self, bump, bumpBy,
          besideValves_setV h (f := F.ejtVCountNoMotion _ _) rfl (by decide),
          besideValves_setV h (f := F.ejtVStateLastResult _ _) rfl (by decide), besideValves_modChan]

theorem besideValves_endRun (v : Valve) (quench : Bool) (s : State) : besideValves a (endRun v quench s) = besideValves a s := by
  unfold endRun
  dsimp only
  rw [besideValves_showDie h, besideValves_showChan h, besideValves_modChan, coilAwait, besideValves_modChan,
    besideValves_closeSearch h]

theorem besideValves_flushValve (v : Valve) (s : State) : besideValves a (flushValve v s) = besideValves a s := by
  have hbase : 0x600000 ≤ (F.ejtQueueFlushQueueFlush (valveDie v)).addr := Nat.le_of_lt (Nat.lt_add_right _ (by decide))
  unfold flushValve
  dsimp only
  rw [besideValves_showChan h]
  exact besideValves_setF h hbase _ s

theorem besideValves_valvesOff (s : State) : besideValves a (valvesOff s) = besideValves a s := by
  have hstop (d : Fin 2) (s : State) : besideValves a (stopRuns d s) = besideValves a s := by
    unfold stopRuns
    rw [besideValves_showDie h]
    rw [foldl_keeps (besideValves a) fun s v => besideValves_modChan a v _ s]
    exact foldl_keeps (besideValves a) (fun s v => by rw [besideValves_ite, besideValves_endRun h, ite_self]) _ s
  have hflush (d : Fin 2) (s : State) : besideValves a (flushDie d s) = besideValves a s :=
    foldl_keeps (besideValves a) (fun s v => by rw [besideValves_ite, besideValves_flushValve h, ite_self]) _ s
  rw [valvesOff, hflush, hflush, hstop, hstop]

end

/-! #### Shots and queues -/

theorem showChan_ejt (v : Valve) (s : State) : (showChan v s).ejt = s.ejt := by
  simp only [showChan, setF_ejt]

theorem showDie_ejt (d : Fin 2) (s : State) : (showDie d s).ejt = s.ejt := by
  rw [showDie, setF_ejt, setF_ejt]

theorem ageingCheck_ejt (v : Valve) (s : State) : (ageingCheck v s).ejt = s.ejt := by
  simp only [ageingCheck, apply_ite State.ejt, setF_ejt, raise_ejt, ite_self]

/-- A change of a channel reads at that channel, and nowhere else. -/
theorem modChan_chans (v w : Valve) (g : Chan → Chan) (s : State) :
    (modChan v g s).ejt.chans[w] = if w = v then g s.ejt.chans[v] else s.ejt.chans[w] := by
  change (vmod s.ejt.chans v g)[w] = _
  split
  next hw => rw [hw, vmod_same]
  next hw => rw [vmod_ne _ _ hw]

/-- The end of a dip search changes its channel alone. -/
theorem closeSearch_ejt (v : Valve) (s : State) : ∃ g, (closeSearch v s).ejt = (modChan v g s).ejt := by
  have hself : s.ejt = (modChan v id s).ejt := by
    have hchans : vmod s.ejt.chans v id = s.ejt.chans := Vector.set_getElem_self _
    unfold modChan
    rw [hchans]
  unfold closeSearch endSearch
  extract_lets d k
  split
  · exact ⟨id, hself⟩
  · split
    · exact ⟨id, hself⟩
    · split
      · rw [ageingCheck_ejt, showChan_ejt, setF_ejt, setF_ejt]
        exact ⟨_, rfl⟩
      · simp only [apply_ite State.ejt, raise_ejt, ite_self, bump, bumpBy, setF_ejt]
        exact ⟨_, rfl⟩

theorem closeSearch_chans_ne {v w : Valve} (h : w ≠ v) (s : State) :
    (closeSearch v s).ejt.chans[w] = s.ejt.chans[w] := by
  obtain ⟨g, hg⟩ := closeSearch_ejt v s
  rw [hg, modChan_chans, if_neg h]

/-- A shot that ends leaves its channel, and no other, without one. -/
theorem energised_endRun (v w : Valve) (quench : Bool) (s : State) :
    energised w (endRun v quench s) = if w = v then false else energised w s := by
  unfold endRun energised
  dsimp only
  rw [showDie_ejt, showChan_ejt, modChan_chans]
  split
  next => rfl
  next h =>
    rw [coilAwait, modChan_chans, if_neg h, closeSearch_chans_ne h]

/-- Emptying a queue changes nothing else of the channels. -/
theorem flushValve_chans (v w : Valve) (s : State) :
    (flushValve v s).ejt.chans[w] = if w = v then { s.ejt.chans[v] with queue := [] } else s.ejt.chans[w] := by
  unfold flushValve
  dsimp only
  rw [showChan_ejt, modChan_chans, bumpBy, setF_ejt]

theorem energised_flushValve (v w : Valve) (s : State) : energised w (flushValve v s) = energised w s := by
  rw [energised, energised, flushValve_chans]
  split
  next h => rw [h]
  next => rfl

theorem mem_valvesOf (v : Valve) : v ∈ valvesOf (valveDie v) := by simp [valvesOf]

theorem energised_showDie (d : Fin 2) (w : Valve) (s : State) : energised w (showDie d s) = energised w s := rfl

/-- What a die's second pass over its valves clears is not the shot that runs. -/
theorem energised_stopRuns (d : Fin 2) (w : Valve) (s : State) : energised w (stopRuns d s) =
    energised w ((valvesOf d).foldl (fun s v => if energised v s then endRun v false s else s) s) := by
  unfold stopRuns
  rw [energised_showDie]
  refine foldl_keeps (energised w) (fun s v => ?_) _ _
  rw [energised, energised, modChan_chans]
  split
  next h => rw [h]
  next => rfl

/-- Ending the shots that run starts none. -/
theorem not_energised_endRun (v : Valve) {w : Valve} {s : State} (h : energised w s = false) :
    energised w (if energised v s then endRun v false s else s) = false := by
  split
  · rw [energised_endRun, h, ite_self]
  · exact h

theorem energised_stopRuns_of_off (d : Fin 2) {w : Valve} {s : State} (h : energised w s = false) :
    energised w (stopRuns d s) = false := by
  rw [energised_stopRuns]
  exact List.foldlRecOn (motive := fun s => energised w s = false) _ _ h fun _ hs v _ => not_energised_endRun v hs

theorem energised_stopRuns_same (w : Valve) (s : State) : energised w (stopRuns (valveDie w) s) = false := by
  rw [energised_stopRuns]
  refine foldl_reaches (P := fun s => energised w s = false) (mem_valvesOf w) (fun _ v => not_energised_endRun v)
    (fun s => ?_) s
  split
  next => rw [energised_endRun, if_pos rfl]
  next h => exact Bool.eq_false_iff.mpr h

theorem energised_flushDie (d : Fin 2) (w : Valve) (s : State) : energised w (flushDie d s) = energised w s := by
  refine foldl_keeps (energised w) (fun s v => ?_) _ s
  split
  · rfl
  · exact energised_flushValve v w s

/-- No shot waits in the valve's queue. -/
def unqueued (w : Valve) (s : State) : Prop := (s.ejt.chans[w]).queue = []

/-- Emptying queues fills none. -/
theorem unqueued_flushValve (v : Valve) {w : Valve} {s : State} (h : unqueued w s) :
    unqueued w (if s.ejt.chans[v].queue.isEmpty then s else flushValve v s) := by
  split
  · exact h
  · rw [unqueued, flushValve_chans]
    split
    · rfl
    · exact h

theorem unqueued_flushDie (d : Fin 2) {w : Valve} {s : State} (h : unqueued w s) : unqueued w (flushDie d s) :=
  List.foldlRecOn (motive := unqueued w) _ _ h fun _ hs v _ => unqueued_flushValve v hs

theorem unqueued_flushDie_same (w : Valve) (s : State) : unqueued w (flushDie (valveDie w) s) := by
  refine foldl_reaches (P := unqueued w) (mem_valvesOf w) (fun _ v => unqueued_flushValve v) (fun s => ?_) s
  split
  next h => exact List.isEmpty_iff.mp h
  next => rw [unqueued, flushValve_chans, if_pos rfl]

/-- With the valves off no channel is energised and no shot waits. -/
theorem valvesOff_idle (w : Valve) (s : State) : energised w (valvesOff s) = false ∧ unqueued w (valvesOff s) := by
  have hdie : ∀ d : Fin 2, d = 0 ∨ d = 1 := by decide
  have hstop := energised_stopRuns_same w
  have hflush := unqueued_flushDie_same w
  unfold valvesOff
  rw [energised_flushDie, energised_flushDie]
  rcases hdie (valveDie w) with hd | hd <;> rw [hd] at hstop hflush
  · exact ⟨energised_stopRuns_of_off 1 (hstop s), unqueued_flushDie 1 (hflush _)⟩
  · exact ⟨hstop _, hflush _⟩

/-! ### The runs of the calibration -/

/-- The result words of a run that fails (R199). -/
def shownFail (i : Nat) (s : State) : State :=
  bump (F.calItemCountFailCount i) (setF (F.calItemTimeDoneMs i) (s.time / 1000000 % 2 ^ 32)
    (setF (F.calItemResultResultN i) 0xC3 (setF (F.calItemResultResult i) 0x3C
      (setF (F.calItemResultRun i) ((getF (F.calItemResultRun i) s + 1) % 2 ^ 16) s))))

/-- A run that fails is over. -/
def failed (i : Nat) (s : State) : State :=
  modCal (fun c => { c with runs := c.runs.filter fun r => r.item ≠ i }) (setAt F.calStateRunning i false (shownFail i s))

/-- A run that fails is reported, and a SHUT run releases the flag (R198). -/
theorem calEnd_fail (i : Nat) (s : State) : calEnd i false s =
    let t := raiseLim 0x1301 0xA i 0 (if i = 10 then endTrial false (failed i s) else failed i s)
    if i < 2 && getF (F.fpdStateShutter i) t ≠ shFault then moveShutter (Fin.ofNat 2 i) false t else t := rfl

theorem aside_modCal (a : Nat) (f : CalPart → CalPart) (s : State) : aside a (modCal f s) = aside a s := rfl

theorem aside_failed {a : Nat} (h : a ≠ F.calState) (i : Nat) (s : State) : aside a (failed i s) = aside a (shownFail i s) := by
  rw [failed, aside_modCal, setAt, aside_setF _ h]

theorem aside_endTrial {a : Nat} (h : page a ≠ 0x78) (pass : Bool) (s : State) : aside a (endTrial pass s) = aside a s := by
  unfold endTrial
  split
  · rfl
  · change aside a (if pass then modCal (fun c => { c with sadcOld := none }) s else _) = _
    rw [aside_ite, aside_setF_page h rfl, aside_setF_page h rfl]
    exact ite_self _

theorem aside_calEnd_fail {a : Nat} (hfpd : page a ≠ 0x10) (hsadc : page a ≠ 0x78) (hint : page a ≠ 0xA0) (i : Nat)
    (s : State) : aside a (calEnd i false s) = aside a (failed i s) := by
  rw [calEnd_fail]
  dsimp only
  rw [aside_ite, aside_moveShutter hfpd, ite_self, aside_raiseLim _ _ _ _ hint, aside_ite, aside_endTrial hsadc, ite_self]

/-- The end of a run writes no word of the windows before FPD. -/
theorem aside_calFail {a : Nat} (h : a < 0x100000) (is : List Nat) (s : State) : aside a (calFail is s) = aside a s := by
  have hp : page a < 0x10 := Nat.div_lt_of_lt_mul h
  have hset (f : Fld) {c : Nat} (i : Nat) (hf : f.addr = c + 0x10 * i) (hc : 0x100000 ≤ c) (v : Nat) (s : State) :
      aside a (setF f v s) = aside a s := aside_setF v (by omega) s
  refine foldl_keeps (aside a) (fun s i => ?_) is s
  have hshown : aside a (shownFail i s) = aside a s := by
    unfold shownFail bump bumpBy
    rw [hset (F.calItemCountFailCount i) i rfl (by decide), hset (F.calItemTimeDoneMs i) i rfl (by decide),
      hset (F.calItemResultResultN i) i rfl (by decide), hset (F.calItemResultResult i) i rfl (by decide),
      hset (F.calItemResultRun i) i rfl (by decide)]
  have hne : a ≠ F.calState := Nat.ne_of_lt (Nat.lt_of_lt_of_le h (show 0x100000 ≤ 0x380010 by decide))
  rw [aside_ite, aside_calEnd_fail (by omega) (by omega) (by omega), aside_failed hne, hshown, ite_self]

/-- A run that fails stops running, and every other run stays as it was. -/
theorem calRunning_calEnd_fail (i j : Nat) (s : State) :
    calRunning j (calEnd i false s) = if j = i then false else calRunning j s := by
  have hset (f : Fld) {c : Nat} (hf : f.addr = c + 0x10 * i) (hc : 0x380010 < c) (v : Nat) (s : State) :
      calRunning j (setF f v s) = calRunning j s :=
    congrArg (·.testBit j) (getF_setF_addr s v (by rw [hf]; exact Nat.ne_of_lt (Nat.lt_add_right _ hc)))
  have hshown : calRunning j (shownFail i s) = calRunning j s := by
    unfold shownFail bump bumpBy
    rw [hset (F.calItemCountFailCount i) rfl (by decide), hset (F.calItemTimeDoneMs i) rfl (by decide),
      hset (F.calItemResultResultN i) rfl (by decide), hset (F.calItemResultResult i) rfl (by decide),
      hset (F.calItemResultRun i) rfl (by decide)]
  have hcal (f : CalPart → CalPart) (t : State) : calRunning j (modCal f t) = calRunning j t := rfl
  rw [calRunning_of_aside (aside_calEnd_fail (by decide) (by decide) (by decide) i s), ← hshown, failed, hcal]
  exact flagAt_setAt (f := F.calStateRunning) (show 27 < 32 by decide) (fun h => absurd h Bool.false_ne_true) j _

/-- Every run but SAVE ends (Table 8.5). -/
theorem calRunning_calStopAll {i : Nat} (hi : i < 11) (s : State) : calRunning i (calStopAll s) = false := by
  have hmem : i ∈ [0, 1, 2, 3, 4, 5, 6, 7, 8, 9, 10] := List.mem_range.mpr hi
  refine foldl_reaches (P := fun s => calRunning i s = false) hmem (fun s j hs => ?_) (fun s => ?_) s
  · split
    · rw [calRunning_calEnd_fail, hs, ite_self]
    · exact hs
  · split
    next => rw [calRunning_calEnd_fail, if_pos rfl]
    next h => exact Bool.eq_false_iff.mpr h

end Sys2Proof.Machine
end

section
/-!
SUPPORT. Proofs of the scope statements: STANDBY and PARK, the entry and the exit (O46).
-/

namespace Sys2Proof.Machine

/-! ### Requests (R90, R289) -/

/-- Where nothing holds a SYS instruction of no operand back, it moves on and acts. -/
theorem sysOp_of_issues {u : UnitId} {act : State → State} {s : State} (h : issues u .sys false [] s) :
    sysOp u false [] (fun _ => false) act s = act (advance u false s) := issue_acts h

theorem exec_sysStandby_of_issues {u : UnitId} {s : State} (h : issues u .sys false [] s) :
    exec (.sysStandby u) s = .next (requestLow false (advance u false s)) := by
  rw [exec_sysStandby, execSysStandby, sysOp_of_issues h]

theorem exec_sysPark_of_issues {u : UnitId} {s : State} (h : issues u .sys false [] s) :
    exec (.sysPark u) s = .next (requestLow true (advance u false s)) := by
  rw [exec_sysPark, execSysPark, sysOp_of_issues h]

theorem exec_sysRun_of_issues {u : UnitId} {s : State} (h : issues u .sys false [] s) :
    exec (.sysRun u) s = .next (leaveLow (advance u false s)) := by
  rw [exec_sysRun, execSysRun, sysOp_of_issues h]

/-- Only the hub issues SYS, and it issues while the device is live (R90). -/
theorem live_of_issues_sys {u : UnitId} {s : State} (h : issues u .sys false [] s) : live s = true := by
  simp only [issues, canIssue, executes, Bool.and_eq_true] at h
  obtain ⟨⟨⟨⟨⟨⟨⟨⟨hlive, _⟩, _⟩, _⟩, _⟩, hhub⟩, _⟩, _⟩, _⟩ := h
  rwa [if_pos hhub] at hlive

theorem freeze_of_live {s : State} (h : live s = true) : s.freeze.since = none := by
  rw [live, Bool.and_eq_true, Option.isNone_iff_eq_none] at h
  exact h.1

section
variable {s : State} (hshut : inShutdown s = false)
include hshut

theorem requestLow_of_up (park : Bool) (hm : s.mode = .running ∨ ∃ p, s.mode = .entering p) :
    requestLow park s = { s with mode := .entering park } := by
  rcases hm with hm | ⟨p, hm⟩ <;> simp [requestLow, hshut, hm]

theorem requestLow_of_other {park : Bool} (hm : s.mode = if park then .standby else .park) :
    requestLow park s = takeLow park s := by
  cases park <;> simp_all [requestLow]

theorem requestLow_of_restarted (park : Bool) {p : Bool} (hm : s.mode = .exiting p) (hstage : s.power.leaveStage = 2) :
    requestLow park s = { s with mode := .entering park } := by
  simp [requestLow, hshut, hm, hstage]

theorem requestLow_of_leaving (park : Bool) {p : Bool} (hm : s.mode = .exiting p) (hstage : s.power.leaveStage ≠ 2) :
    requestLow park s = takeLow park s := by
  simp [requestLow, hshut, hm, hstage]

theorem leaveLow_of_low (hfreeze : s.freeze.since = none) {p : Bool} (hm : s.mode = if p then .park else .standby) :
    leaveLow s = startLeave p s := by
  cases p <;> simp_all [leaveLow]

end

/-- A device that a request takes over to STANDBY or PARK, its unit having moved on: LSYNC is an input, and no LATCH waits. -/
theorem takeLow_advance (u : UnitId) (park : Bool) (s : State) :
    let t := takeLow park (advance u false s)
    t.mode = (if park then .park else .standby) ∧ t.units = (advance u false s).units ∧ sameMem s t ∧ t.pins.alive = true ∧
      t.pins.lsync = false ∧ ∀ d : Fin 2, (t.lum[d]).latch = none := by
  obtain ⟨hmode, hunits, hpins, hlatch, -⟩ := takeLow_aside park (advance u false s)
  refine ⟨hmode, hunits, fun b => ?_, ?_, ?_, hlatch⟩
  · rw [takeLow_mem, advance_mem]
  · rw [hpins]
  · rw [hpins]

/-! ### The exit (R91) -/

theorem aside_leaveTo {a : Nat} (hpwr : a ≠ F.pwrState) (hfpd : page a ≠ 0x10) (k : Nat) (s : State) :
    aside a (leaveTo k s) = aside a s := by
  have hstage (n : Nat) (t : State) : aside a { t with power := { t.power with leaveStage := n } } = aside a t := rfl
  unfold leaveTo
  simp only [aside_ite, aside_setF (f := F.pwrStateVcShed) _ hpwr, aside_moveShutters hfpd, hstage, ite_self]

/-- A device whose clusters have restarted on the six VCORE phases (Table 4.4). -/
def restarted (s : State) : State :=
  modPower (fun p => { p with leaveStage := 2 }) (setF F.pwrStateVcShed 0 (modPower (fun p => { p with leaveStage := 1 }) s))

theorem leaveTo_from_start {s : State} (h : s.power.leaveStage = 0) :
    leaveTo 2 s = if s.mode = .exiting true then moveShutters false (restarted s) else restarted s := by
  simp only [leaveTo, h, decide_true, Bool.and_true, Nat.reduceLeDiff, if_true, setF_power]
  rfl

theorem vcShed_restarted (s : State) : getF F.pwrStateVcShed (restarted s) = 0 := by
  have hclear (t : State) : getF F.pwrStateVcShed (setF F.pwrStateVcShed 0 t) = 0 := getF_setF_same _ _ _ (by decide)
  exact hclear _

/-- From its start the exit brings back the clusters' supply (R59). -/
theorem vcShed_leaveTo {s : State} (h : s.power.leaveStage = 0) : getF F.pwrStateVcShed (leaveTo 2 s) = 0 := by
  rw [leaveTo_from_start h]
  split
  · exact (getF_of_aside (aside_moveShutters (by decide) false _)).trans (vcShed_restarted s)
  · exact vcShed_restarted s

/-- The exit ends in a running device with one synchronising edge to come (Table 4.4). -/
theorem exec_exitComplete_of_exiting {s : State} (hfreeze : s.freeze.since = none) (hshut : inShutdown s = false) {p : Bool}
    (hm : s.mode = .exiting p) : exec .exitComplete s =
      .next (setEdges [(s.periph + 24) / 25 * 25] { leaveTo 2 s with mode := .running }) := by
  have hperiph : (leaveTo 2 s).periph = s.periph :=
    congrArg Aside.periph (aside_leaveTo (a := F.rstDie) (by decide) (by decide) 2 s)
  rw [exec_exitComplete, execExitComplete, hm]
  simp [hfreeze, hshut, hperiph]

/-! ### The entry completes (R90) -/

theorem aside_closeLines (a : Nat) (s : State) : aside a (closeLines s) = aside a s := by
  have hdie (d : Fin 2) (g : EjtDie → EjtDie) (s : State) : aside a (modEjt d g s) = aside a s := rfl
  have hlines (w : FusedPart) (e : Vector Band 16) (s : State) : aside a { s with fused := w, bands := e } = aside a s := rfl
  unfold closeLines
  extract_lets one t
  rw [hlines, hdie, hdie]

/-- What the device stops before it goes over. -/
def quiet (s : State) : State := calStopAll (closeLines (valvesOff s))

theorem exec_standbyParkEntry_of_quiet {s : State} (hfreeze : s.freeze.since = none) (hshut : inShutdown s = false) {park : Bool}
    (hm : s.mode = .entering park) (hbusy : ∀ u : UnitId, busyTags s.units[u] = []) (h0 : pacing 0 s = false)
    (h1 : pacing 1 s = false) : exec .standbyParkEntry s = .next (takeLow park (quiet s)) := by
  rw [exec_standbyParkEntry, execStandbyParkEntry, hm]
  have hidle : ((List.finRange 30).any fun u : UnitId => !(busyTags s.units[u]).isEmpty) = false := by
    rw [List.any_eq_false]
    intro u _
    rw [hbusy u]
    decide
  simp only [hfreeze, hshut, hidle, h0, h1]
  rfl

theorem aside_quiet {a : Nat} (h : a < 0x100000) (s : State) : aside a (quiet s) = aside a (valvesOff s) := by
  rw [quiet, calStopAll, aside_calFail h, aside_closeLines]

theorem quiet_units (s : State) : (quiet s).units = s.units := by
  rw [units_of_aside (aside_quiet (a := F.rstDie) (by decide) s),
    units_of_besideValves (besideValves_valvesOff (a := F.rstDie) (by decide) s)]

theorem fdUp_quiet (d : Fin 2) (s : State) : fdUp d (quiet s) = fdUp d s := by
  have hvalves : besideValves F.rstDie (valvesOff s) = besideValves F.rstDie s := besideValves_valvesOff (by decide) s
  rw [fdUp_of_aside (aside_quiet (by decide) s), fdUp_congr (opt_of_besideValves hvalves) (word_of_besideValves hvalves)]

theorem quiet_chans (s : State) : (quiet s).ejt.chans = (valvesOff s).ejt.chans :=
  chans_of_aside (aside_quiet (a := F.rstDie) (by decide) s)

theorem quiet_mem (s : State) : (quiet s).mem = s.mem := by simp [quiet]

/-- Settles O46: each request by what it makes of the mode, going over to STANDBY or PARK by what its parts leave aside, the
entry by what stops before it, and the exit by its stages. -/
theorem standbyAndPark : Obligations.StandbyAndPark := by
  refine ⟨fun u s hissue hshut => ?_, fun s hfreeze hshut => ⟨fun park hm hbusy h0 h1 => ?_, fun p hm => ?_⟩⟩
  · intro s0 low dark
    have hstandby : exec (.sysStandby u) s = .next (requestLow false s0) := exec_sysStandby_of_issues hissue
    have hpark : exec (.sysPark u) s = .next (requestLow true s0) := exec_sysPark_of_issues hissue
    have hrun : exec (.sysRun u) s = .next (leaveLow s0) := exec_sysRun_of_issues hissue
    have hshut0 : inShutdown s0 = false := hshut
    have hfreeze : s.freeze.since = none := freeze_of_live (live_of_issues_sys hissue)
    have hfreeze0 : s0.freeze.since = none := hfreeze
    have hlow (park : Bool) : low (if park then .park else .standby) (takeLow park s0) := takeLow_advance u park s
    have hdark : dark (takeLow true s0) := takeLow_dark s0
    refine ⟨fun hm => ⟨?_, ?_⟩, fun hm => ⟨_, ?_, hlow false⟩, fun hm => ⟨_, ?_, hlow true, hdark⟩,
      fun p hm hstage => ⟨?_, ?_⟩, fun p hm hstage => ⟨⟨_, ?_, hlow false⟩, _, ?_, hlow true, hdark⟩, fun p hm => ?_⟩
    · rw [hstandby, requestLow_of_up hshut0 false hm]
    · rw [hpark, requestLow_of_up hshut0 true hm]
    · rw [hstandby, requestLow_of_other (park := false) hshut0 hm]
    · rw [hpark, requestLow_of_other (park := true) hshut0 hm]
    · rw [hstandby, requestLow_of_restarted hshut0 false hm hstage]
    · rw [hpark, requestLow_of_restarted hshut0 true hm hstage]
    · rw [hstandby, requestLow_of_leaving hshut0 false hm hstage]
    · rw [hpark, requestLow_of_leaving hshut0 true hm hstage]
    · rw [hrun, leaveLow_of_low hshut0 hfreeze0 hm]
      rfl
  · obtain ⟨hmode, hunits, hpins, hlatch, hchans⟩ := takeLow_aside park (quiet s)
    have hidle (v : Valve) : energised v (takeLow park (quiet s)) = false ∧
        ((takeLow park (quiet s)).ejt.chans[v]).queue = [] := by
      rw [energised, hchans, quiet_chans]
      exact valvesOff_idle v s
    refine ⟨_, exec_standbyParkEntry_of_quiet hfreeze hshut hm hbusy h0 h1, hmode, hunits.trans (quiet_units s),
      fun b => by rw [takeLow_mem, quiet_mem], hidle, hlatch, fun i hi => ?_, vcShed_takeLow park _, by rw [hpins], ?_⟩
    · rw [calRunning_takeLow (Nat.ne_of_lt hi)]
      exact calRunning_calStopAll hi _
    · rintro rfl
      obtain ⟨hstrings, hbias⟩ := takeLow_dark (quiet s)
      exact ⟨hstrings, fun d hup => hbias d ((fdUp_quiet d s).trans hup)⟩
  · have haside : aside F.rstDie (leaveTo 2 s) = aside F.rstDie s := aside_leaveTo (by decide) (by decide) 2 s
    refine ⟨_, exec_exitComplete_of_exiting hfreeze hshut hm, rfl, fun h => vcShed_leaveTo h, rfl,
      congrArg Aside.units haside, fun b => ?_⟩
    rw [setEdges_mem]
    exact congrArg (readB · b) (leaveTo_mem 2 s)

end Sys2Proof.Machine
end

section
/-!
SUPPORT. Proofs of the scope statements: the step, and the cycle on an empty queue (O57).
-/

namespace Sys2Proof.Machine

/-! ### What the ticks of the units leave as it was -/

/-- What no tick of a unit touches: the clocks, the execution units, the transfers under way and the commands that wait. -/
structure Steady where
  tick : Nat
  periph : Nat
  time : Nat
  units : Vector ExUnit 30
  xfers : List Xfer
  pending : List Instr

/-- What stands steady in a state. -/
def steady (s : State) : Steady := ⟨s.tick, s.periph, s.time, s.units, s.xfers, s.pending⟩

theorem steady_ite {c : Prop} [Decidable c] (s t : State) : steady (if c then s else t) = if c then steady s else steady t :=
  apply_ite steady c s t

theorem steady_foldl {α : Type} {g : State → α → State} (h : ∀ s x, steady (g s x) = steady s) (l : List α) (s : State) :
    steady (l.foldl g s) = steady s := foldl_keeps steady h l s

@[simp] theorem steady_setF (f : Fld) (v : Nat) (s : State) : steady (setF f v s) = steady s := rfl

@[simp] theorem steady_bump (f : Fld) (s : State) : steady (bump f s) = steady s := rfl

@[simp] theorem steady_raiseLim (code kind index detail : Nat) (s : State) :
    steady (raiseLim code kind index detail s) = steady s := by
  unfold raiseLim
  split <;> rfl

@[simp] theorem steady_modLum (d : Fin 2) (f : LumDie → LumDie) (s : State) : steady (modLum d f s) = steady s := rfl

@[simp] theorem steady_modStr (n : Strng) (f : Str → Str) (s : State) : steady (modStr n f s) = steady s := rfl

@[simp] theorem steady_modTest (n : Strng) (f : StrTest → StrTest) (s : State) : steady (modTest n f s) = steady s := rfl

@[simp] theorem steady_stopString (n : Strng) (s : State) : steady (stopString n s) = steady s := by
  simp [stopString, beginStop, steady_ite]

@[simp] theorem steady_runString (n : Strng) (s : State) : steady (runString n s) = steady s := by
  simp [runString, steady_ite]

@[simp] theorem steady_litTick (d : Fin 2) (s : State) : steady (litTick d s) = steady s :=
  steady_foldl (fun s n => by rw [steady_ite, steady_modStr, ite_self]) _ s

@[simp] theorem steady_matrixCut (d : Fin 2) (s : State) : steady (matrixCut d s) = steady s := by
  unfold matrixCut
  extract_lets cut t
  have ht : steady t = steady s := steady_foldl (fun s n => steady_stopString n s) _ _
  rw [steady_ite, steady_ite, steady_raiseLim, steady_bump, ite_self, ht, ite_self]

@[simp] theorem steady_matrixTick (d : Fin 2) (s : State) : steady (matrixTick d s) = steady s := by
  unfold matrixTick
  split
  · rfl
  · dsimp only
    rw [steady_ite]
    rw [steady_foldl fun s n => by simp [steady_ite]]
    exact ite_self _

@[simp] theorem steady_lampTick (d : Fin 2) (s : State) : steady (lampTick d s) = steady s := by
  simp [lampTick, steady_ite]

@[simp] theorem steady_driveLsync (s : State) : steady (driveLsync s) = steady s := rfl

@[simp] theorem steady_moveShutters (close : Bool) (s : State) : steady (moveShutters close s) = steady s := by
  have hmove (d : Fin 2) (s : State) : steady (moveShutter d close s) = steady s := by
    simp [moveShutter, takeShutter, steady_ite]
  unfold moveShutters
  rw [steady_ite, steady_foldl fun s d => by rw [steady_ite, hmove, ite_self]]
  exact ite_self _

@[simp] theorem steady_leaveTick (s : State) : steady (leaveTick s) = steady s := by
  have hleave (k : Nat) (s : State) : steady (leaveTo k s) = steady s := by
    unfold leaveTo
    extract_lets p t q u
    have ht : steady t = steady s := by
      unfold t
      split <;> rfl
    have hu : steady u = steady s := ht
    rw [steady_ite, steady_ite, steady_moveShutters, ite_self, ht, hu, ite_self]
  unfold leaveTick
  split
  · rw [steady_ite, hleave, ite_self]
  · rfl

@[simp] theorem steady_wipeTick (s : State) : steady (wipeTick s) = steady s := by
  have hwipe (c : Fin 4) (n : Nat) (s : State) : steady (wipeTo c n s) = steady s := rfl
  unfold wipeTick showWipe
  simp only [steady_ite, steady_setF]
  rw [steady_foldl fun s c => by rw [steady_ite, hwipe, ite_self]]
  exact ite_self _

@[simp] theorem steady_monitorTick (s : State) : steady (monitorTick s) = steady s := by
  unfold monitorTick
  split <;> rfl

@[simp] theorem steady_admitEnd (p : Fin 2) (s : State) : steady (admitEnd p s) = steady s := by
  unfold admitEnd
  split
  · rfl
  · split <;> rfl

@[simp] theorem steady_modNet (f : NetPart → NetPart) (s : State) : steady (modNet f s) = steady s := rfl

@[simp] theorem steady_send (x : Sent) (s : State) : steady (send x s) = steady s := rfl

@[simp] theorem steady_putCell (fwd : Bool) (p : Fin 2) (kind : Nat) (c : Cell) (s : State) :
    steady (putCell fwd p kind c s) = steady s := by
  simp [putCell, steady_ite]

@[simp] theorem steady_idleCell (p : Fin 2) (s : State) : steady (idleCell p s) = steady s := by
  simp [idleCell, steady_ite]

theorem steady_unitTicks (s : State) : steady (unitTicks s) = steady s := by simp [unitTicks]

/-! ### Memory on a cycle -/

/-- Forgetting cells leaves every address that keeps its cells as it read. -/
theorem readB_filter {p : Host.Cell → Bool} {a : Nat} (h : ∀ x, p (a, x) = true) (m : List Host.Cell) :
    readB (m.filter p) a = readB m a := by
  induction m with
  | nil => rfl
  | cons c t ih =>
    obtain ⟨b, x⟩ := c
    by_cases hb : a = b
    · subst hb
      simp [h, readB]
    · rw [List.filter_cons]
      split <;> simp [readB, hb, ih]

/-- The wipe touches DDR5 alone. -/
theorem readB_wipeTick {a : Nat} (ha : a < ddrBase 0) (s : State) : readB (wipeTick s).mem a = readB s.mem a := by
  have hwipe (c : Fin 4) (n : Nat) (s : State) : readB (wipeTo c n s).mem a = readB s.mem a := by
    refine readB_filter (fun _ => ?_) s.mem
    have hbase : ddrBase 0 ≤ ddrBase c := by unfold ddrBase; omega
    simp only [Bool.not_eq_true', Bool.and_eq_false_iff, decide_eq_false_iff_not]
    omega
  unfold wipeTick
  split
  · rw [showWipe_mem]
    refine foldl_keeps (fun s : State => readB s.mem a) (fun s c => ?_) _ s
    split
    · exact hwipe ..
    · rfl
  · rfl

theorem readB_unitTicks {a : Nat} (ha : a < ddrBase 0) (s : State) : readB (unitTicks s).mem a = readB s.mem a := by
  simp [unitTicks, readB_wipeTick ha]

/-! ### Device time on a cycle (R69, R71) -/

theorem shiftTime_frame (d : Int) (s : State) :
    shiftTime d s = { s with time := (shiftTime d s).time, clock := (shiftTime d s).clock } := by
  unfold shiftTime
  split <;> rfl

theorem tickTime_frame (s : State) : tickTime s = { s with time := (tickTime s).time, clock := (tickTime s).clock } := by
  unfold tickTime
  extract_lets c g may d
  split
  · exact shiftTime_frame ..
  · split
    · exact shiftTime_frame ..
    · rfl

/-- Moving device time by one more nanosecond, by none, or by one less. -/
theorem shiftTime_sign_moveTime (x : Int) (s : State) :
    ∃ d, d ≤ 2 ∧ (shiftTime x.sign (moveTime 10 s)).time = (s.time + 9 + d) % 2 ^ 64 := by
  have henc (n : Nat) : enc 64 (n : Int) = n % 2 ^ 64 := by unfold enc; omega
  have hten : (moveTime 10 s).time = (s.time + 10) % 2 ^ 64 := henc (s.time + 10)
  rcases lt_trichotomy x 0 with hx | rfl | hx
  · refine ⟨0, by omega, ?_⟩
    rw [Int.sign_eq_neg_one_of_neg hx]
    change enc 64 (((moveTime 10 s).time : Int) + -1) = _
    rw [hten, enc]
    omega
  · exact ⟨1, by omega, hten⟩
  · refine ⟨2, by omega, ?_⟩
    rw [Int.sign_eq_one_of_pos hx]
    change enc 64 (((moveTime 10 s).time : Int) + 1) = _
    rw [hten, enc]
    omega

theorem tickTime_time (s : State) : ∃ d, d ≤ 2 ∧ (tickTime s).time = (s.time + 9 + d) % 2 ^ 64 := by
  unfold tickTime
  extract_lets c g may
  split
  · exact shiftTime_sign_moveTime ..
  · split
    · exact shiftTime_sign_moveTime ..
    · refine ⟨1, by omega, ?_⟩
      change enc 64 ((s.time + 10 : Nat) : Int) = _
      rw [enc]
      omega

/-- Neither slewed nor rate corrected, a cycle takes 10 ns. -/
theorem tickTime_time_of_steady {s : State} (hslew : s.clock.slewing = false) (hrate : s.clock.rate = 0)
    (hdrift : s.clock.drift.natAbs < 100000) : (tickTime s).time = (s.time + 10) % 2 ^ 64 := by
  have hgathered : ¬ 100000 ≤ (s.clock.drift + s.clock.rate).natAbs := by omega
  unfold tickTime
  simp only [hslew, hgathered, Bool.and_false, Bool.false_and, decide_false, Bool.false_eq_true, if_false, moveTime, enc]
  omega

/-! ### The cycle -/

/-- The cycle as far as device time: the supervisor's clock, what it makes of FREEZE_N, and a cycle of device time. -/
def timed (s : State) : State :=
  let s := endFreezeN { s with tick := s.tick + 1 }
  if s.timeOn && s.freeze.since.isNone then tickTime s else s

theorem idle_eq (s : State) : idle s =
    if clocked (timed s) then unitTicks { litTick 1 (litTick 0 (timed s)) with periph := (timed s).periph + 1 } else timed s := rfl

theorem endFreezeN_frame (s : State) : endFreezeN s = { s with pins := (endFreezeN s).pins } := by
  unfold endFreezeN
  split <;> rfl

/-- The part common to every cycle, and what it makes of device time. -/
theorem timed_cases (s : State) : ∃ p, timed s = { s with tick := s.tick + 1, pins := p } ∧ (s.timeOn && s.freeze.since.isNone) = false ∨
    timed s = tickTime { s with tick := s.tick + 1, pins := p } ∧ (s.timeOn && s.freeze.since.isNone) = true := by
  refine ⟨(endFreezeN { s with tick := s.tick + 1 }).pins, ?_⟩
  unfold timed
  rw [endFreezeN_frame]
  cases h : s.timeOn && s.freeze.since.isNone
  · exact .inl ⟨if_neg (Bool.eq_false_iff.mp h), rfl⟩
  · exact .inr ⟨if_pos h, rfl⟩

theorem timed_frame (s : State) :
    timed s = { s with tick := s.tick + 1, time := (timed s).time, clock := (timed s).clock, pins := (timed s).pins } := by
  obtain ⟨p, ⟨h, -⟩ | ⟨h, -⟩⟩ := timed_cases s <;> rw [h]
  rw [tickTime_frame]

theorem idle_eq_of_clocked {s : State} (h : clocked s = true) :
    idle s = unitTicks { litTick 1 (litTick 0 (timed s)) with periph := s.periph + 1 } := by
  have hclk : clocked (timed s) = true := by
    rw [timed_frame]
    exact h
  have hperiph : (timed s).periph = s.periph := by rw [timed_frame]
  rw [idle_eq, if_pos hclk, hperiph]

theorem idle_eq_of_stopped {s : State} (h : clocked s = false) : idle s = timed s := by
  have hclk : ¬ clocked (timed s) = true := by
    rw [timed_frame]
    exact Bool.eq_false_iff.mp h
  rw [idle_eq, if_neg hclk]

/-- What stands steady on a cycle, but for the clocks. -/
theorem steady_idle (s : State) :
    steady (idle s) = { steady s with tick := s.tick + 1, periph := s.periph + b2n (clocked s), time := (timed s).time } := by
  have htimed : steady (timed s) = { steady s with tick := s.tick + 1, time := (timed s).time } := by
    rw [timed_frame]
    rfl
  cases h : clocked s
  · rw [idle_eq_of_stopped h, htimed]
    rfl
  · have hlit : steady (litTick 1 (litTick 0 (timed s))) = steady (timed s) := by simp
    have hperiph (t : State) (n : Nat) : steady { t with periph := n } = { steady t with periph := n } := rfl
    rw [idle_eq_of_clocked h, steady_unitTicks, hperiph, hlit, htimed]
    rfl

theorem readB_idle {a : Nat} (ha : a < ddrBase 0) (s : State) : readB (idle s).mem a = readB s.mem a := by
  have hmem : (timed s).mem = s.mem := by rw [timed_frame]
  cases h : clocked s
  · rw [idle_eq_of_stopped h, hmem]
  · rw [idle_eq_of_clocked h, readB_unitTicks ha]
    simp [hmem]

theorem timed_time_of_held {s : State} (h : s.freeze.since.isSome = true ∨ s.timeOn = false) : (timed s).time = s.time := by
  obtain ⟨p, ⟨ht, -⟩ | ⟨-, hon⟩⟩ := timed_cases s
  · rw [ht]
  · rcases h with h | h <;> simp [h] at hon
    simp [hon.2] at h

theorem timed_eq_tickTime {s : State} (hfreeze : s.freeze.since = none) (hon : s.timeOn = true) :
    ∃ p, timed s = tickTime { s with tick := s.tick + 1, pins := p } := by
  obtain ⟨p, ⟨-, hoff⟩ | ⟨ht, -⟩⟩ := timed_cases s
  · simp [hfreeze, hon] at hoff
  · exact ⟨p, ht⟩

/-- Settles O57: the step by its definition; the cycle by what it makes of the clocks and what the units' ticks leave. -/
theorem stepRunsTheFrontCommand : Obligations.StepRunsTheFrontCommand := by
  refine ⟨fun c rest s => rfl, fun s hpending => ⟨idle s, ?_, ?_⟩⟩
  · rw [step, hpending]
  · have hsteady := steady_idle s
    have htime : (idle s).time = (timed s).time := congrArg Steady.time hsteady
    rw [htime]
    refine ⟨congrArg Steady.tick hsteady, congrArg Steady.periph hsteady, timed_time_of_held, fun hfreeze hon => ?_,
      fun hfreeze hon hslew hrate hdrift => ?_, congrArg Steady.units hsteady, congrArg Steady.xfers hsteady,
      congrArg Steady.pending hsteady, fun a ha => readB_idle ha s, fun hclk => ?_⟩
    · obtain ⟨p, ht⟩ := timed_eq_tickTime hfreeze hon
      rw [ht]
      exact tickTime_time _
    · obtain ⟨p, ht⟩ := timed_eq_tickTime hfreeze hon
      rw [ht]
      exact tickTime_time_of_steady hslew hrate hdrift
    · have htick : (timed s).tick = s.tick + 1 := by rw [timed_frame]
      rw [idle_eq_of_stopped hclk, htick]
      exact timed_frame s

end Sys2Proof.Machine
end

section
/-!
SUPPORT. Frames: the state without its status space, and without its status space and events, for the operations that show and
report and change nothing else; and words of the status space.
-/

namespace Sys2Proof.Machine

/-! ### The state without the status space -/

/-- The state without what the status space holds. -/
def sansStatus (s : State) : State := { s with status := [] }

theorem eq_of_sansStatus {s t : State} (h : sansStatus t = sansStatus s) : t = { s with status := t.status } := by
  have hback (t : State) : t = { sansStatus t with status := t.status } := rfl
  rw [hback t, h]
  rfl

theorem sansStatus_ite {c : Prop} [Decidable c] (s t : State) :
    sansStatus (if c then s else t) = if c then sansStatus s else sansStatus t := apply_ite sansStatus c s t

@[simp] theorem sansStatus_setWord (a : Nat) (w : Word) (s : State) : sansStatus (s.setWord a w) = sansStatus s := rfl

@[simp] theorem sansStatus_setF (f : Fld) (v : Nat) (s : State) : sansStatus (setF f v s) = sansStatus s := rfl

@[simp] theorem sansStatus_bump (f : Fld) (s : State) : sansStatus (bump f s) = sansStatus s := rfl

@[simp] theorem sansStatus_bumpBy (f : Fld) (n : Nat) (s : State) : sansStatus (bumpBy f n s) = sansStatus s := rfl

@[simp] theorem sansStatus_setAt (f : Fld) (i : Nat) (b : Bool) (s : State) : sansStatus (setAt f i b s) = sansStatus s := rfl

theorem sansStatus_foldl {α : Type} {g : State → α → State} (h : ∀ s x, sansStatus (g s x) = sansStatus s) (l : List α)
    (s : State) : sansStatus (l.foldl g s) = sansStatus s := foldl_keeps sansStatus h l s

/-! ### The state without status space and events -/

/-- The state without what it shows and reports: the status space and the events. -/
def sansReport (s : State) : State := { s with status := [], ev := EventPart.reset }

theorem eq_of_sansReport {s t : State} (h : sansReport t = sansReport s) : t = { s with status := t.status, ev := t.ev } := by
  have hback (t : State) : t = { sansReport t with status := t.status, ev := t.ev } := rfl
  rw [hback t, h]
  rfl

theorem sansReport_of_sansStatus {s t : State} (h : sansStatus t = sansStatus s) : sansReport t = sansReport s :=
  show sansReport (sansStatus t) = sansReport (sansStatus s) from congrArg sansReport h

theorem sansReport_ite {c : Prop} [Decidable c] (s t : State) :
    sansReport (if c then s else t) = if c then sansReport s else sansReport t := apply_ite sansReport c s t

@[simp] theorem sansReport_setF (f : Fld) (v : Nat) (s : State) : sansReport (setF f v s) = sansReport s := rfl

@[simp] theorem sansReport_bump (f : Fld) (s : State) : sansReport (bump f s) = sansReport s := rfl

@[simp] theorem sansReport_bumpBy (f : Fld) (n : Nat) (s : State) : sansReport (bumpBy f n s) = sansReport s := rfl

@[simp] theorem sansReport_setAt (f : Fld) (i : Nat) (b : Bool) (s : State) : sansReport (setAt f i b s) = sansReport s := rfl

@[simp] theorem sansReport_raise (code kind index detail : Nat) (s : State) :
    sansReport (raise code kind index detail s) = sansReport s := rfl

@[simp] theorem sansReport_raiseLim (code kind index detail : Nat) (s : State) :
    sansReport (raiseLim code kind index detail s) = sansReport s := by
  unfold raiseLim
  split <;> rfl

@[simp] theorem sansReport_raiseClocked (code kind index detail : Nat) (s : State) :
    sansReport (raiseClocked code kind index detail s) = sansReport s := by
  unfold raiseClocked
  split <;> rfl

theorem sansReport_foldl {α : Type} {g : State → α → State} (h : ∀ s x, sansReport (g s x) = sansReport s) (l : List α)
    (s : State) : sansReport (l.foldl g s) = sansReport s := foldl_keeps sansReport h l s

/-! ### Words of the status space -/

theorem word_ite {a : Nat} {c : Prop} [Decidable c] (s t : State) :
    (if c then s else t).word a = if c then s.word a else t.word a := apply_ite (fun s : State => s.word a) c s t

/-- A word follows from the option and what the status space holds. -/
theorem word_congr {s t : State} (hopt : t.opt = s.opt) (hstatus : t.status = s.status) (a : Nat) : t.word a = s.word a := by
  rw [State.word, State.word, hopt, hstatus]

theorem getF_congr {f : Fld} {s t : State} (h : t.word f.addr = s.word f.addr) : getF f t = getF f s := by
  rw [getF, getF, h]

theorem getF_setWord_ne {f : Fld} {a : Nat} (h : f.addr ≠ a) (w : Word) (s : State) : getF f (s.setWord a w) = getF f s :=
  getF_congr (word_setWord_ne s h w)

theorem raise_word (code kind index detail a : Nat) (s : State) : (raise code kind index detail s).word a = s.word a := rfl

theorem raiseClocked_word (code kind index detail a : Nat) (s : State) :
    (raiseClocked code kind index detail s).word a = s.word a := by
  unfold raiseClocked
  split <;> rfl

theorem raiseLim_word {a : Nat} (h : a ≠ F.intEvtSuppressed) (code kind index detail : Nat) (s : State) :
    (raiseLim code kind index detail s).word a = s.word a := by
  unfold raiseLim
  split
  · exact setF_word_ne s _ h
  · rfl

theorem bump_word_ne {f : Fld} {a : Nat} (h : a ≠ f.addr) (s : State) : (bump f s).word a = s.word a := setF_word_ne s _ h

theorem getF_le_topF (f : Fld) (s : State) : getF f s ≤ topF f := Nat.le_pred_of_lt (Nat.mod_lt _ (by positivity))

/-- What a counter that is no more than its top counts to. -/
theorem getF_bumpBy_same {f : Fld} (h : f.hi < 32) (n : Nat) (s : State) :
    getF f (bumpBy f n s) = min (topF f) (getF f s + n) := by
  unfold bumpBy
  rw [getF_setF_same _ _ _ h]
  refine Nat.mod_eq_of_lt (Nat.lt_of_le_of_lt (Nat.min_le_left ..) ?_)
  exact Nat.sub_lt (by positivity) Nat.one_pos

/-- A field written with a value in its range reads that value. -/
theorem getF_setF_lt {f : Fld} {v : Nat} (h : f.hi < 32) (hv : v < 2 ^ (f.hi + 1 - f.lo)) (s : State) :
    getF f (setF f v s) = v := by
  rw [getF_setF_same _ _ _ h, Nat.mod_eq_of_lt hv]

end Sys2Proof.Machine
end

section
/-!
SUPPORT. The valves: what ending shots, emptying queues and dropping shots leave as it was, of the state and of the status space.
-/

namespace Sys2Proof.Machine

/-! ### What stands beside the valves -/

/-- The state without what the valve operations change: the actuator dies' schedulers, the status space and the events. -/
def sansValves (s : State) : State := { s with ejt := EjtPart.reset, status := [], ev := EventPart.reset }

/-- States that agree beside the valves differ in the schedulers, the status space and the events alone. -/
theorem eq_of_sansValves {s t : State} (h : sansValves t = sansValves s) :
    t = { s with ejt := t.ejt, status := t.status, ev := t.ev } := by
  have hback (t : State) : t = { sansValves t with ejt := t.ejt, status := t.status, ev := t.ev } := rfl
  rw [hback t, h]
  rfl

theorem sansValves_ite {c : Prop} [Decidable c] (s t : State) :
    sansValves (if c then s else t) = if c then sansValves s else sansValves t := apply_ite sansValves c s t

theorem sansValves_of_sansReport {s t : State} (h : sansReport t = sansReport s) : sansValves t = sansValves s :=
  show sansValves (sansReport t) = sansValves (sansReport s) from congrArg sansValves h

@[simp] theorem sansValves_setF (f : Fld) (v : Nat) (s : State) : sansValves (setF f v s) = sansValves s := rfl

@[simp] theorem sansValves_bump (f : Fld) (s : State) : sansValves (bump f s) = sansValves s := rfl

@[simp] theorem sansValves_bumpBy (f : Fld) (n : Nat) (s : State) : sansValves (bumpBy f n s) = sansValves s := rfl

@[simp] theorem sansValves_raise (code kind index detail : Nat) (s : State) :
    sansValves (raise code kind index detail s) = sansValves s := rfl

@[simp] theorem sansValves_raiseLim (code kind index detail : Nat) (s : State) :
    sansValves (raiseLim code kind index detail s) = sansValves s :=
  sansValves_of_sansReport (sansReport_raiseLim ..)

@[simp] theorem sansValves_modChan (v : Valve) (g : Chan → Chan) (s : State) : sansValves (modChan v g s) = sansValves s := rfl

@[simp] theorem sansValves_showChan (v : Valve) (s : State) : sansValves (showChan v s) = sansValves s := by
  simp [showChan]

@[simp] theorem sansValves_showDie (d : Fin 2) (s : State) : sansValves (showDie d s) = sansValves s := by
  simp [showDie]

@[simp] theorem sansValves_ageingCheck (v : Valve) (s : State) : sansValves (ageingCheck v s) = sansValves s := by
  simp [ageingCheck, sansValves_ite]

@[simp] theorem sansValves_closeSearch (v : Valve) (s : State) : sansValves (closeSearch v s) = sansValves s := by
  unfold closeSearch endSearch
  extract_lets d k
  split
  · rfl
  · split
    · rfl
    · split <;> simp [sansValves_ite]

@[simp] theorem sansValves_coilAwait (v : Valve) (s : State) : sansValves (coilAwait v s) = sansValves s := rfl

@[simp] theorem sansValves_endRun (v : Valve) (quench : Bool) (s : State) : sansValves (endRun v quench s) = sansValves s := by
  simp [endRun]

@[simp] theorem sansValves_flushValve (v : Valve) (s : State) : sansValves (flushValve v s) = sansValves s := by
  simp [flushValve]

@[simp] theorem sansValves_stopRuns (d : Fin 2) (s : State) : sansValves (stopRuns d s) = sansValves s := by
  unfold stopRuns
  rw [sansValves_showDie, foldl_keeps sansValves fun s v => sansValves_modChan v _ s]
  exact foldl_keeps sansValves (fun s v => by rw [sansValves_ite, sansValves_endRun, ite_self]) _ s

@[simp] theorem sansValves_flushDie (d : Fin 2) (s : State) : sansValves (flushDie d s) = sansValves s :=
  foldl_keeps sansValves (fun s v => by rw [sansValves_ite, sansValves_flushValve, ite_self]) _ s

@[simp] theorem sansValves_valvesOff (s : State) : sansValves (valvesOff s) = sansValves s := by simp [valvesOff]

@[simp] theorem sansValves_dropShot (v : Valve) (f : Fld) (x : Shot) (s : State) : sansValves (dropShot v f x s) = sansValves s := by
  simp [dropShot, noteDrop]

@[simp] theorem sansValves_settleValve (v : Valve) (n : Nat) (s : State) : sansValves (settleValve v n s) = sansValves s := by
  induction n generalizing s with
  | zero => rfl
  | succ n ih =>
    unfold settleValve
    split
    · rfl
    · split
      · rw [sansValves_ite, ih, sansValves_dropShot, ite_self]
      · rfl

/-! ### Words of the status space -/

/-- The word stands outside the blocks of the valves and is no EJT.DIE_STATE: below the windows of the actuator dies, or among the
words of a die that stand before its valves. -/
def outsideValves (a : Nat) : Prop := a < 0x700000 ∧ (0x600000 ≤ a → 0 < a % 0x8000 ∧ a % 0x8000 < 0x1000)

theorem valveChan_lt (v : Valve) : valveChan v < 64 := Nat.mod_lt _ (by decide)

section
variable {a : Nat} (h : outsideValves a)
include h

/-- A field of a valve's block. -/
theorem word_setF_valve {f : Fld} {c i j : Nat} (hf : f.addr = c + 0x8000 * i + 0x20 * j) (hj : j < 64) (hc : 0x601000 ≤ c)
    (hc' : c < 0x601020) (v : Nat) (s : State) : (setF f v s).word a = s.word a := by
  obtain ⟨hlow, hhead⟩ := h
  refine setF_word_ne s v fun e => ?_
  rw [hf] at e
  have := hhead (by omega)
  omega

theorem word_showChan (v : Valve) (s : State) : (showChan v s).word a = s.word a := by
  have hk := valveChan_lt v
  unfold showChan
  simp only [word_setF_valve h (f := F.ejtVAdvanceAdvance _ (valveChan v)) rfl hk (by decide) (by decide),
    word_setF_valve h (f := F.ejtVAdvanceDipMean _ (valveChan v)) rfl hk (by decide) (by decide),
    word_setF_valve h (f := F.ejtVStateRunning _ (valveChan v)) rfl hk (by decide) (by decide),
    word_setF_valve h (f := F.ejtVStateQueued _ (valveChan v)) rfl hk (by decide) (by decide)]

theorem word_showDie (d : Fin 2) (s : State) : (showDie d s).word a = s.word a := by
  have hne : a ≠ F.ejtDieState d := by
    intro e
    unfold F.ejtDieState at e
    have := h.2 (by omega)
    omega
  unfold showDie
  rw [setF_word_ne _ _ hne, setF_word_ne _ _ hne]

theorem word_ageingCheck (v : Valve) (s : State) : (ageingCheck v s).word a = s.word a := by
  have hset (x : Nat) (s : State) : (setF (F.ejtVStateAgeing (valveDie v) (valveChan v)) x s).word a = s.word a :=
    word_setF_valve h rfl (valveChan_lt v) (by decide) (by decide) x s
  have hraise (x : Nat) (s : State) :
      (raise 0x3007 4 v 0 (setF (F.ejtVStateAgeing (valveDie v) (valveChan v)) x s)).word a = s.word a := hset x s
  simp only [ageingCheck, word_ite, hset, hraise, ite_self]

theorem word_closeSearch (v : Valve) (s : State) : (closeSearch v s).word a = s.word a := by
  have hmod (g : Chan → Chan) (s : State) : (modChan v g s).word a = s.word a := rfl
  unfold closeSearch endSearch
  extract_lets d k
  have hset (f : Fld) {c : Nat} (hf : f.addr = c + 0x8000 * d + 0x20 * k) (hc : 0x601000 ≤ c) (hc' : c < 0x601020) (x : Nat)
      (s : State) : (setF f x s).word a = s.word a := word_setF_valve h hf (valveChan_lt v) hc hc' x s
  split
  · rfl
  · split
    · rfl
    · split
      · rw [word_ageingCheck h, word_showChan h, hset (F.ejtVStateLastResult _ _) rfl (by decide) (by decide),
          hset (F.ejtVDipLastDip _ _) rfl (by decide) (by decide), hmod]
      · have hraise (t : State) : (raise 0x3006 4 v 0 t).word a = t.word a := rfl
        rw [word_ite, hraise, ite_self, bump, bumpBy, hset (F.ejtVCountNoMotion _ _) rfl (by decide) (by decide),
          hset (F.ejtVStateLastResult _ _) rfl (by decide) (by decide), hmod]

theorem word_endRun (v : Valve) (quench : Bool) (s : State) : (endRun v quench s).word a = s.word a := by
  have hmod (g : Chan → Chan) (s : State) : (modChan v g s).word a = s.word a := rfl
  unfold endRun
  dsimp only
  rw [word_showDie h, word_showChan h, hmod, coilAwait, hmod, word_closeSearch h]

/-- Dropping shots writes the counter of the reason besides. -/
theorem word_dropShot (v : Valve) {f : Fld} (hf : a ≠ f.addr) (x : Shot) (s : State) : (dropShot v f x s).word a = s.word a := by
  have hmod (g : Chan → Chan) (s : State) : (modChan v g s).word a = s.word a := rfl
  rw [dropShot, noteDrop, raiseLim_word (Nat.ne_of_lt (Nat.lt_trans h.1 (by decide))), word_showChan h, hmod]
  exact setF_word_ne _ _ hf

theorem word_settleValve (v : Valve) (hf : a ≠ F.ejtDropWindow (valveDie v)) (n : Nat) (s : State) :
    (settleValve v n s).word a = s.word a := by
  induction n generalizing s with
  | zero => rfl
  | succ n ih =>
    unfold settleValve
    split
    · rfl
    · split
      · rw [word_ite, ih, word_dropShot h v (f := F.ejtDropWindowDropWindow _) hf, ite_self]
      · rfl

end

/-! ### Shots that run -/

/-- Dropping shots leaves those that run. -/
theorem run_dropShot (v w : Valve) (f : Fld) (x : Shot) (s : State) :
    ((dropShot v f x s).ejt.chans[w]).run = (s.ejt.chans[w]).run := by
  have hlim (t : State) : (raiseLim 0x3003 4 v 0 t).ejt = t.ejt := by
    unfold raiseLim
    split <;> rfl
  rw [dropShot, noteDrop, hlim, showChan_ejt, modChan_chans]
  split
  next hw =>
    rw [hw]
    rfl
  next => rfl

theorem energised_settleValve (v w : Valve) (n : Nat) (s : State) : energised w (settleValve v n s) = energised w s := by
  induction n generalizing s with
  | zero => rfl
  | succ n ih =>
    unfold settleValve
    split
    · rfl
    · split
      · split
        · rw [ih, energised, energised, run_dropShot]
        · rfl
      · rfl

end Sys2Proof.Machine
end

section
/-!
SUPPORT. Proofs of the scope statements: the loss of supply, the power-up sequence and the zones of VIN (O47).
-/

namespace Sys2Proof.Machine

/-! ### What an interruption of the record store leaves as it was (R379) -/

/-- The state without what an interrupted program of the record store changes: the store, the status space and the free values. -/
def sansStore (s : State) : State := { s with nvs := NvsPart.reset, status := [], free := 0 }

@[simp] theorem sansStatus_showNvs (s : State) : sansStatus (showNvs s) = sansStatus s := by simp [showNvs]

theorem showNvs_nvs (s : State) : (showNvs s).nvs = s.nvs := by
  rw [eq_of_sansStatus (sansStatus_showNvs s)]

theorem sansStore_of_sansStatus {s t : State} (h : sansStatus t = sansStatus s) : sansStore t = sansStore s :=
  show sansStore (sansStatus t) = sansStore (sansStatus s) from congrArg sansStore h

theorem sansStore_showNvs (s : State) : sansStore (showNvs s) = sansStore s := sansStore_of_sansStatus (sansStatus_showNvs s)

theorem sansStore_nvsInterrupt (s : State) : sansStore (nvsInterrupt s) = sansStore s := by
  unfold nvsInterrupt abandonCopy
  split
  · split <;> exact sansStore_showNvs _
  · rfl

theorem nvsInterrupt_frame (s : State) : nvsInterrupt s =
    { s with nvs := (nvsInterrupt s).nvs, status := (nvsInterrupt s).status, free := (nvsInterrupt s).free } := by
  have hback (t : State) : t = { sansStore t with nvs := t.nvs, status := t.status, free := t.free } := rfl
  rw [hback (nvsInterrupt s), sansStore_nvsInterrupt]
  rfl

theorem word_showNvs {a : Nat} (h : page a ≠ 0x80) (s : State) : (showNvs s).word a = s.word a :=
  congrArg Aside.word (aside_showNvs h s)

/-- An interruption shows in the words of the store alone. -/
theorem word_nvsInterrupt {a : Nat} (h : page a ≠ 0x80) (s : State) : (nvsInterrupt s).word a = s.word a := by
  unfold nvsInterrupt abandonCopy
  split
  · split
    · rw [word_showNvs h]
      rfl
    · rw [word_showNvs h]
      rfl
  · rfl

/-- An interruption adds the copy that was being programmed, or none. -/
theorem copies_nvsInterrupt (s : State) : ∃ c, (nvsInterrupt s).nvs.copies = c ++ s.nvs.copies := by
  unfold nvsInterrupt abandonCopy
  split
  · split
    next w _ g _ _ =>
      refine ⟨[{ copyOf w g false with words := 1 + (takeFree s).1 % progWords w g }], ?_⟩
      rw [showNvs_nvs]
      dsimp only
      split <;> rfl
    · exact ⟨[], by rw [showNvs_nvs]; rfl⟩
  · exact ⟨[], rfl⟩

/-! ### The loss and the return of the supply (R51, R75) -/

/-- What the loss of the supply leaves. -/
theorem unpower_keeps (s : State) :
    (unpower s).mode = .unpowered ∧ (unpower s).mem = [] ∧ (unpower s).units = Vector.replicate 30 ExUnit.reset ∧
      (unpower s).time = 0 ∧ (unpower s).timeOn = false ∧ (∃ c, (unpower s).nvs.copies = c ++ s.nvs.copies) ∧
      (unpower s).boot.slotA = s.boot.slotA ∧ (unpower s).boot.slotB = s.boot.slotB ∧ (unpower s).sec.otp = s.sec.otp ∧
      (unpower s).pending = s.pending := by
  have hboot : (nvsInterrupt s).boot = s.boot := by rw [nvsInterrupt_frame]
  have hsec : (nvsInterrupt s).sec = s.sec := by rw [nvsInterrupt_frame]
  have hpending : (nvsInterrupt s).pending = s.pending := by rw [nvsInterrupt_frame]
  refine ⟨rfl, rfl, rfl, rfl, rfl, copies_nvsInterrupt s, ?_, ?_, ?_, hpending⟩
  · change (nvsInterrupt s).boot.slotA = _
    rw [hboot]
  · change (nvsInterrupt s).boot.slotB = _
    rw [hboot]
  · change (nvsInterrupt s).sec.otp = _
    rw [hsec]

theorem exec_powerLost_of_powered {s : State} (h : s.mode ≠ .unpowered) : exec .powerLost s = .next (unpower s) := by
  rw [exec_powerLost, execPowerLost, if_neg h]

/-- What the status space shows on the supply's return, before the first row. -/
def shownAtPowerOn (s : State) : State :=
  let s := setF F.intStateSafe 1 (setF F.pwrStateVinZone 1 (railsOff s))
  let s := setF F.rstBootStage 0 (setF F.rstBootSlot 3 (setF F.rstBootIndexReady 0 (setF F.rstBootModelReady 0 s)))
  let s := setF F.nvsAccessUnlockN 255 ((setF F.rstDieDieUp 0 s).setWord F.nvsAccess 0)
  let s := setF F.nvsStateIndexReady 0 (setF F.secStateImageSigner 0xE s)
  (List.finRange 30).foldl (fun s (u : UnitId) => setF (F.isaUStateState u) 0 s) s

/-- The words of the units stand above those of the power unit and of the resets. -/
theorem word_setUnitStates {a : Nat} (ha : a < 0x500000) (v : Nat) (us : List UnitId) (s : State) :
    (us.foldl (fun s (u : UnitId) => setF (F.isaUStateState u) v s) s).word a = s.word a := by
  refine foldl_keeps (fun s : State => s.word a) (fun s u => setF_word_ne s v fun e => ?_) us s
  unfold F.isaUStateState F.isaUState at e
  dsimp only at e
  omega

theorem sansStatus_railsOff (s : State) : sansStatus (railsOff s) = sansStatus s := rfl

theorem sansStatus_shownAtPowerOn (s : State) : sansStatus (shownAtPowerOn s) = sansStatus s := by
  unfold shownAtPowerOn
  rw [sansStatus_foldl fun s u => sansStatus_setF _ _ s]
  simp only [sansStatus_setF, sansStatus_setWord, sansStatus_railsOff]

theorem shownAtPowerOn_frame (s : State) : shownAtPowerOn s = { s with status := (shownAtPowerOn s).status } :=
  eq_of_sansStatus (sansStatus_shownAtPowerOn s)

theorem vinZone_shownAtPowerOn (s : State) : getF F.pwrStateVinZone (shownAtPowerOn s) = 1 := by
  have hset : getF F.pwrStateVinZone (setF F.pwrStateVinZone 1 (railsOff s)) = 1 := getF_setF_lt (by decide) (by decide) _
  rw [← hset]
  refine getF_congr ?_
  unfold shownAtPowerOn
  rw [word_setUnitStates (by decide)]
  simp (disch := decide) only [setF_word_ne, word_setWord_ne]

theorem dieUp_shownAtPowerOn (s : State) : getF F.rstDieDieUp (shownAtPowerOn s) = 0 := by
  unfold shownAtPowerOn
  rw [getF_congr (word_setUnitStates (by decide) ..)]
  simp (disch := decide) only [getF_setF_addr, getF_setWord_ne]
  exact getF_setF_lt (by decide) (by decide) _

theorem exec_powerOn_of_unpowered {s : State} (h : s.mode = .unpowered) : exec .powerOn s =
    .next (startAttempt { shownAtPowerOn s with
      boot := { (shownAtPowerOn s).boot with cause := .powerOn }
      freeze := { (shownAtPowerOn s).freeze with
        requested := if (shownAtPowerOn s).pins.freezeN then none else some 1 } }) := by
  rw [exec_powerOn, execPowerOn, if_neg (not_not.mpr h)]
  rfl

/-- What the power-up sequence begins with. -/
theorem powerOn_begins {s : State} (h : s.mode = .unpowered) : ∃ t, exec .powerOn s = .next t ∧
    t.mode = .powerUp .inrush ∧ t.boot.cause = .powerOn ∧ getF F.pwrStateVinZone t = 1 ∧ getF F.rstDieDieUp t = 0 ∧
      t.pins = { s.pins with inrGate := true } ∧ t.power = { s.power with attemptStart := s.tick } ∧
      t.freeze.requested = (if s.pins.freezeN = true then none else some 1) ∧ t.units = s.units ∧ t.mem = s.mem ∧ t.nvs = s.nvs := by
  have hzone := vinZone_shownAtPowerOn s
  have hdie := dieUp_shownAtPowerOn s
  have hframe := shownAtPowerOn_frame s
  rw [exec_powerOn_of_unpowered h]
  generalize shownAtPowerOn s = t at hzone hdie hframe
  refine ⟨_, rfl, rfl, rfl, hzone, hdie, ?_, ?_, ?_, ?_, ?_, ?_⟩ <;> rw [hframe] <;> rfl

/-! ### The rows of the sequence (R54, R60, Table 3.3) -/

theorem exec_inrushComplete_of_inrush {s : State} (h : s.mode = .powerUp .inrush) : exec .inrushComplete s =
    .next (modPins (fun p => { p with icv := true }) (setF F.pwrStateInrushDone 1 { s with mode := .powerUp .v12 })) := by
  rw [exec_inrushComplete, execInrushComplete, if_pos h]

theorem exec_inrushTimeout_of_inrush {s : State} (h : s.mode = .powerUp .inrush) : exec .inrushTimeout s =
    .next (modPower (fun p => { p with attempts := [] })
      (modPins (fun p => { p with inrGate := false }) (setF F.pwrFaultInrushTimeout 1 { s with mode := .inrushWait }))) := by
  rw [exec_inrushTimeout, execInrushTimeout, if_pos h]

/-- A field of one bit that is set reads 1, whatever the contacts and the sequence's memory become. -/
theorem getF_set_one {f : Fld} (h : f.hi < 32) (hf : f.lo = f.hi) (s : State) : getF f (setF f 1 s) = 1 := by
  refine getF_setF_lt h ?_ s
  rw [hf, Nat.add_sub_cancel_left]
  decide

/-- After a wait, or a trip that leaves VIN above its limit, an attempt starts. -/
theorem exec_inrushRetry_of_waiting {s : State}
    (h : s.mode = .inrushWait ∨ (s.mode = .brownout .inputTrip ∧ getF F.pwrStateVinZone s ≠ 0)) :
    exec .inrushRetry s = .next (startAttempt s) := by
  rw [exec_inrushRetry, execInrushRetry]
  rcases h with h | ⟨h, hzone⟩
  · rw [if_pos h]
  · rw [if_neg (by rw [h]; decide), if_pos h, if_neg hzone]

theorem exec_railRetryWaitEnd_of_railWait {s : State} (h : s.mode = .railWait) :
    exec .railRetryWaitEnd s = .next (startAttempt s) := by
  rw [exec_railRetryWaitEnd, execRailRetryWaitEnd, if_pos h]

/-- Each row that comes within its limits starts the next, shows itself and enables the supply after it. -/
theorem railSequenceStep_starts {m n : PwrRow} {f : Fld} {s : State}
    (hrow : (m = .v12 ∧ n = .v18 ∧ f = F.pwrStateV12Good) ∨ (m = .v18 ∧ n = .refclk ∧ f = F.pwrStateV18Good) ∨
      (m = .vcore ∧ n = .vddq ∧ f = F.pwrStateVcoreGood) ∨ (m = .vddq ∧ n = .adec ∧ f = F.pwrStateVddqGood) ∨
      (m = .adec ∧ n = .pll ∧ f = F.pwrStateFda0Good)) (h : s.mode = .powerUp m) :
    ∃ t, exec .railSequenceStep s = .next t ∧ t.mode = .powerUp n ∧ getF f t = 1 ∧
      t.pins = { s.pins with vqEn := s.pins.vqEn || decide (m = .vcore), adec := s.pins.adec || decide (m = .vddq) } ∧
      t = { s with mode := t.mode, pins := t.pins, status := t.status } := by
  rw [exec_railSequenceStep, execRailSequenceStep, h]
  have hone {f : Fld} (h : f.hi < 32 ∧ f.lo = f.hi) (s : State) : getF f (setF f 1 s) = 1 := getF_set_one h.1 h.2 s
  rcases hrow with ⟨rfl, rfl, rfl⟩ | ⟨rfl, rfl, rfl⟩ | ⟨rfl, rfl, rfl⟩ | ⟨rfl, rfl, rfl⟩ | ⟨rfl, rfl, rfl⟩
  · exact ⟨_, rfl, rfl, hone (by decide) _, by simp, rfl⟩
  · exact ⟨_, rfl, rfl, hone (by decide) _, by simp, rfl⟩
  · exact ⟨_, rfl, rfl, hone (by decide) { s with mode := .powerUp .vddq }, by simp [modPins], rfl⟩
  · exact ⟨_, rfl, rfl, hone (by decide) { s with mode := .powerUp .adec }, by simp [modPins], rfl⟩
  · dsimp only
    split
    · refine ⟨_, rfl, rfl, ?_, by simp, rfl⟩
      rw [getF_setF_bits _ _ (.inl (by decide))]
      exact hone (by decide) _
    · exact ⟨_, rfl, rfl, hone (by decide) _, by simp, rfl⟩

theorem exec_refclkPresent_of_refclk {s : State} (h : s.mode = .powerUp .refclk) : exec .refclkPresent s =
    .next (modPower (fun p => { p with monitor := true })
      (modPins (fun p => { p with vcEn := true }) (setF F.clkStateRefclkOk 1 { s with mode := .powerUp .vcore }))) := by
  rw [exec_refclkPresent, execRefclkPresent, if_pos h]

theorem exec_pwrVinConversion_of_powered {s : State} (h : s.mode ≠ .unpowered) (hfreeze : s.freeze.since = none) (v : BitVec 16) :
    exec (.pwrVinConversion v) s = .next (setF F.pwrStateVin v.toNat s) := by
  rw [exec_pwrVinConversion, execPwrVinConversion, hfreeze]
  simp [h]

/-! ### The zones of VIN (R51, R52, R63) -/

theorem enterZone_of_new {z code : Nat} {s : State} (hpow : s.mode ≠ .unpowered) (hunder : s.mode ≠ .brownout .under)
    (hz : getF F.pwrStateVinZone s ≠ z) : enterZone z code s =
      if code = 0 then setF F.pwrStateVinZone z s else raiseClocked code 0 0 0 (setF F.pwrStateVinZone z s) := by
  simp [enterZone, hpow, hunder, hz]

theorem vinZone_enterZone {z code : Nat} (hz : z < 16) {s : State} (hpow : s.mode ≠ .unpowered)
    (hunder : s.mode ≠ .brownout .under) (hnew : getF F.pwrStateVinZone s ≠ z) :
    getF F.pwrStateVinZone (enterZone z code s) = z := by
  have hset : getF F.pwrStateVinZone (setF F.pwrStateVinZone z s) = z := getF_setF_lt (by decide) hz s
  have hraise (t : State) : getF F.pwrStateVinZone (raiseClocked code 0 0 0 t) = getF F.pwrStateVinZone t :=
    getF_congr (raiseClocked_word ..)
  rw [enterZone_of_new hpow hunder hnew]
  split
  · exact hset
  · rw [hraise, hset]

theorem sansReport_enterZone (z code : Nat) (s : State) : sansReport (enterZone z code s) = sansReport s := by
  simp [enterZone, sansReport_ite]

theorem queue_raiseClocked (code kind index detail : Nat) (s : State) : (raiseClocked code kind index detail s).ev.queue =
    s.ev.queue ++ if clocked s = true then [⟨code, kind, index, detail, s.time⟩] else [] := by
  unfold raiseClocked
  split
  · rfl
  · exact (List.append_nil _).symm

/-- A zone that is entered with an event while the clocks run. -/
theorem queue_enterZone {z code : Nat} (hcode : code ≠ 0) {s : State} (hpow : s.mode ≠ .unpowered)
    (hunder : s.mode ≠ .brownout .under) (hnew : getF F.pwrStateVinZone s ≠ z) : (enterZone z code s).ev.queue =
      s.ev.queue ++ if clocked s = true then [⟨code, 0, 0, 0, s.time⟩] else [] := by
  rw [enterZone_of_new hpow hunder hnew, if_neg hcode, queue_raiseClocked]
  rfl

/-! ### The Over zone: shots that run end (R51, R307) -/

/-- What the supply's loss does at one valve. -/
def endForSupplyAt (v : Valve) (s : State) : State :=
  if energised v s then settleValve v 9 (bump (F.ejtDropSupplyDropSupply (valveDie v)) (endRun v false s)) else s

theorem endForSupply_eq (s : State) : endForSupply s = (List.finRange 128).foldl (fun s v => endForSupplyAt v s) s := rfl

theorem sansValves_endForSupplyAt (v : Valve) (s : State) : sansValves (endForSupplyAt v s) = sansValves s := by
  rw [endForSupplyAt, sansValves_ite, sansValves_settleValve, sansValves_bump, sansValves_endRun, ite_self]

theorem sansValves_endForSupply (s : State) : sansValves (endForSupply s) = sansValves s :=
  foldl_keeps sansValves (fun s v => sansValves_endForSupplyAt v s) _ s

theorem energised_endForSupplyAt (v w : Valve) (s : State) :
    energised w (endForSupplyAt v s) = if w = v then false else energised w s := by
  have hbump (f : Fld) (t : State) : energised w (bump f t) = energised w t := rfl
  unfold endForSupplyAt
  split
  · rw [energised_settleValve, hbump, energised_endRun]
  next h =>
    split
    next hw => rw [hw, Bool.eq_false_iff.mpr h]
    next => rfl

theorem not_energised_endForSupply (w : Valve) (s : State) : energised w (endForSupply s) = false := by
  rw [endForSupply_eq]
  refine foldl_reaches (P := fun s => energised w s = false) (List.mem_finRange w) (fun s v h => ?_) (fun s => ?_) s
  · rw [energised_endForSupplyAt, h, ite_self]
  · rw [energised_endForSupplyAt, if_pos rfl]

/-- The words that stay where shots end and drop: outside the valves, and no EJT.DROP_WINDOW or EJT.DROP_SUPPLY. -/
theorem word_endForSupplyAt {a : Nat} (h : outsideValves a) (v : Valve) (hwin : a ≠ F.ejtDropWindow (valveDie v))
    (hsup : a ≠ F.ejtDropSupply (valveDie v)) (s : State) : (endForSupplyAt v s).word a = s.word a := by
  rw [endForSupplyAt, word_ite, word_settleValve h v hwin, bump_word_ne hsup, word_endRun h, ite_self]

theorem word_endForSupply_low {a : Nat} (h : a < 0x600000) (s : State) : (endForSupply s).word a = s.word a := by
  refine foldl_keeps (fun s : State => s.word a) (fun s v => ?_) _ s
  refine word_endForSupplyAt ⟨by omega, by omega⟩ v ?_ ?_ s
  · unfold F.ejtDropWindow
    omega
  · unfold F.ejtDropSupply
    omega

theorem dropSupply_endForSupplyAt (d : Fin 2) (v : Valve) (s : State) :
    getF (F.ejtDropSupplyDropSupply d) (endForSupplyAt v s) =
      min (2 ^ 32 - 1) (getF (F.ejtDropSupplyDropSupply d) s + b2n (decide (valveDie v = d) && energised v s)) := by
  have hout (e : Fin 2) : outsideValves (F.ejtDropSupply e) := by
    unfold outsideValves F.ejtDropSupply
    omega
  have hwin (e : Fin 2) : F.ejtDropSupply d ≠ F.ejtDropWindow e := by
    unfold F.ejtDropSupply F.ejtDropWindow
    omega
  have htop : getF (F.ejtDropSupplyDropSupply d) s ≤ 2 ^ 32 - 1 := getF_le_topF ..
  unfold endForSupplyAt
  split
  next hrun =>
    have hend : getF (F.ejtDropSupplyDropSupply d) (endRun v false s) = getF (F.ejtDropSupplyDropSupply d) s :=
      getF_congr (word_endRun (hout d) ..)
    rw [getF_congr (word_settleValve (hout d) v (hwin _) 9 _), hrun, Bool.and_true]
    by_cases hd : valveDie v = d
    · rw [hd, bump, getF_bumpBy_same (show 31 < 32 by decide), hend, decide_eq_true rfl]
      rfl
    · have hne : F.ejtDropSupply d ≠ F.ejtDropSupply (valveDie v) := by
        unfold F.ejtDropSupply
        omega
      rw [getF_congr (bump_word_ne hne _), hend, decide_eq_false hd]
      exact (Nat.min_eq_right htop).symm
  next hrun =>
    rw [Bool.eq_false_iff.mpr hrun, Bool.and_false]
    exact (Nat.min_eq_right htop).symm

/-- Over a list of distinct valves each running one of the die counts once. -/
theorem dropSupply_foldl (d : Fin 2) {vs : List Valve} (hvs : vs.Nodup) (s : State) :
    getF (F.ejtDropSupplyDropSupply d) (vs.foldl (fun s v => endForSupplyAt v s) s) =
      min (2 ^ 32 - 1) (getF (F.ejtDropSupplyDropSupply d) s + vs.countP fun v => decide (valveDie v = d) && energised v s) := by
  induction vs generalizing s with
  | nil => exact (Nat.min_eq_right (getF_le_topF ..)).symm
  | cons v vs ih =>
    obtain ⟨hv, hvs⟩ := List.nodup_cons.mp hvs
    have hrest : vs.countP (fun w => decide (valveDie w = d) && energised w (endForSupplyAt v s)) =
        vs.countP fun w => decide (valveDie w = d) && energised w s := by
      refine List.countP_congr fun w hw => ?_
      rw [energised_endForSupplyAt, if_neg fun h : w = v => hv (h ▸ hw)]
    rw [List.foldl_cons, ih hvs, dropSupply_endForSupplyAt, hrest, List.countP_cons]
    unfold b2n
    omega

theorem dropSupply_endForSupply (d : Fin 2) (s : State) :
    getF (F.ejtDropSupplyDropSupply d) (endForSupply s) =
      min (2 ^ 32 - 1) (getF (F.ejtDropSupplyDropSupply d) s + ((valvesOf d).filter fun v => energised v s).length) := by
  rw [endForSupply_eq, dropSupply_foldl d (List.nodup_finRange 128), List.countP_eq_length_filter, valvesOf, List.filter_filter]
  simp only [Bool.and_comm]

/-- A VIN that goes Over ends every running shot and counts it at its die. -/
theorem vinOverEntry_ends {s : State} (hpow : s.mode ≠ .unpowered) (hunder : s.mode ≠ .brownout .under)
    (hnew : getF F.pwrStateVinZone s ≠ 4) : ∃ t, exec .vinOverEntry s = .next t ∧ getF F.pwrStateVinZone t = 4 ∧
      t.units = s.units ∧ sameMem s t ∧ (∀ v : Valve, energised v t = false) ∧
      ∀ d : Fin 2, getF (F.ejtDropSupplyDropSupply d) t =
        min (2 ^ 32 - 1) (getF (F.ejtDropSupplyDropSupply d) s + ((valvesOf d).filter fun v => energised v s).length) := by
  have hsans : sansValves (endForSupply (enterZone 4 0x0103 s)) = sansValves s := by
    rw [sansValves_endForSupply]
    exact sansValves_of_sansReport (sansReport_enterZone ..)
  have hrun (v : Valve) : energised v (enterZone 4 0x0103 s) = energised v s := by
    rw [eq_of_sansReport (sansReport_enterZone ..)]
    rfl
  have hcount (d : Fin 2) : getF (F.ejtDropSupplyDropSupply d) (enterZone 4 0x0103 s) = getF (F.ejtDropSupplyDropSupply d) s := by
    have hne : F.ejtDropSupply d ≠ F.pwrState := by
      unfold F.ejtDropSupply F.pwrState
      omega
    rw [enterZone_of_new hpow hunder hnew, if_neg (by decide)]
    refine getF_congr ?_
    rw [raiseClocked_word, setF_word_ne _ _ hne]
  refine ⟨_, rfl, ?_, ?_, fun a => by rw [endForSupply_mem, enterZone_mem], fun v => not_energised_endForSupply v _, fun d => ?_⟩
  · rw [getF_congr (word_endForSupply_low (by decide) _), vinZone_enterZone (by decide) hpow hunder hnew]
  · rw [eq_of_sansValves hsans]
  · rw [dropSupply_endForSupply, hcount]
    simp only [hrun]

/-- Settles O47: each row and zone by what it makes of the state; the loss and the return of the supply by what they leave and
show; and Over by what ending a shot does to its valve and to its die's counter. -/
theorem powerUpAndZones : Obligations.PowerUpAndZones := by
  intro s
  refine ⟨fun h => ⟨_, exec_powerLost_of_powered h, unpower_keeps s⟩, powerOn_begins, fun h => ?_, fun h => ?_,
    exec_inrushRetry_of_waiting, exec_railRetryWaitEnd_of_railWait, fun m n f hrow h => railSequenceStep_starts hrow h,
    fun h => ?_, fun h hfreeze v => ?_, fun hpow hunder => ⟨fun hnew => ?_, fun hnew => ?_, fun hnew => ?_, vinOverEntry_ends hpow hunder⟩⟩
  · exact ⟨_, exec_inrushComplete_of_inrush h, rfl, rfl, getF_set_one (by decide) rfl { s with mode := .powerUp .v12 }, rfl⟩
  · exact ⟨_, exec_inrushTimeout_of_inrush h, rfl, rfl, getF_set_one (by decide) rfl { s with mode := .inrushWait }, rfl⟩
  · exact ⟨_, exec_refclkPresent_of_refclk h, rfl, rfl, rfl, getF_set_one (by decide) rfl { s with mode := .powerUp .vcore }, rfl⟩
  · exact ⟨_, exec_pwrVinConversion_of_powered h hfreeze v, getF_setF_lt (by decide) v.isLt s, rfl⟩
  · exact ⟨_, rfl, vinZone_enterZone (by decide) hpow hunder hnew, queue_enterZone (by decide) hpow hunder hnew,
      eq_of_sansReport (sansReport_enterZone ..)⟩
  · refine ⟨_, rfl, vinZone_enterZone (by decide) hpow hunder hnew, eq_of_sansStatus ?_⟩
    rw [enterZone_of_new hpow hunder hnew, if_pos rfl, sansStatus_setF]
  · exact ⟨_, rfl, vinZone_enterZone (by decide) hpow hunder hnew, queue_enterZone (by decide) hpow hunder hnew,
      eq_of_sansReport (sansReport_enterZone ..)⟩

end Sys2Proof.Machine
end

section
/-!
SUPPORT. A full reset: what it takes down, what goes on, and the faults and counters that outlive it (R75, R76, R83, R87).
-/

namespace Sys2Proof.Machine

/-! ### What comes before the words are lost -/

/-- The state as a full reset of cause `c` finds it once the valves are off and the record store has stopped. -/
def stopped (c : Cause) (s : State) : State :=
  nvsInterrupt (valvesOff (noteCause c
    (if released s then setF F.lnkHbBoot ((getF F.lnkHbBoot s + 1) % 65536) s else s)))

/-- The causes that stand noted of a full reset. -/
theorem noteCause_word {a : Nat} (h : a ≠ F.rstCause) (c : Cause) (s : State) : (noteCause c s).word a = s.word a := by
  have hfld : a ≠ (causeFld c).addr := by cases c <;> exact h
  have hboot (t : State) (b : BootPart) : State.word { t with boot := b } a = t.word a := rfl
  rw [noteCause, hboot, setF_word_ne _ _ hfld, setF_word_ne _ _ h]

theorem noteCause_shows (c : Cause) (s : State) : getF (causeFld c) (noteCause c s) = 1 := by
  have hboot (t : State) (b : BootPart) (f : Fld) : getF f { t with boot := b } = getF f t := rfl
  rw [noteCause, hboot]
  refine getF_set_one ?_ ?_ _ <;> cases c <;> decide

theorem noteCause_frame (c : Cause) (s : State) :
    noteCause c s = { s with boot := (noteCause c s).boot, status := (noteCause c s).status } := rfl

/-- What `stopped` leaves as it was. -/
theorem stopped_frame (c : Cause) (s : State) : stopped c s = { s with
    ejt := (stopped c s).ejt, nvs := (stopped c s).nvs, boot := (stopped c s).boot, free := (stopped c s).free
    status := (stopped c s).status, ev := (stopped c s).ev } := by
  have hfirst (b : Prop) [Decidable b] (v : Nat) :
      sansStatus (if b then setF F.lnkHbBoot v s else s) = sansStatus s := by
    rw [sansStatus_ite, sansStatus_setF, ite_self]
  unfold stopped
  rw [nvsInterrupt_frame, eq_of_sansValves (sansValves_valvesOff _), noteCause_frame, eq_of_sansStatus (hfirst ..)]

/-- A word below the windows of the valves and the record store stands as the cause leaves it. -/
theorem stopped_word {a : Nat} (ha : a < 0x600000) (c : Cause) (s : State) : (stopped c s).word a = (noteCause c
    (if released s then setF F.lnkHbBoot ((getF F.lnkHbBoot s + 1) % 65536) s else s)).word a := by
  have hpage : page a ≠ 0x80 := by
    unfold page
    omega
  rw [stopped, word_nvsInterrupt hpage]
  exact word_of_besideValves (besideValves_valvesOff ha _)

theorem stopped_word_of_ne {a : Nat} (ha : a < 0x600000) (hcause : a ≠ F.rstCause) (c : Cause) (s : State) :
    (stopped c s).word a = s.word a := by
  rw [stopped_word ha, noteCause_word hcause, word_ite, setF_word_ne _ _ (Nat.ne_of_lt (Nat.lt_trans ha (by decide))), ite_self]

theorem stopped_cause (c : Cause) (s : State) : getF (causeFld c) (stopped c s) = 1 := by
  have haddr : (causeFld c).addr < 0x600000 := by cases c <;> decide
  rw [getF_congr (stopped_word haddr c s)]
  exact noteCause_shows ..

/-! ### Words through a reset (R87) -/

theorem lookupW_map {f : Nat × Word → Nat × Word} {a : Nat} (hkey : ∀ x, (f x).1 = x.1) (h : ∀ w, f (a, w) = (a, w))
    (l : List (Nat × Word)) : lookupW (l.map f) a = lookupW l a := by
  induction l with
  | nil => rfl
  | cons x t ih =>
    obtain ⟨b, w⟩ := x
    by_cases hb : a = b
    · subst hb
      rw [List.map_cons, h]
      simp [lookupW]
    · have hne : a ≠ (f (b, w)).1 := by
        rw [hkey]
        exact hb
      simp only [List.map_cons, lookupW, if_neg hb, ← ih]
      rw [lookupW.eq_def]
      simp [hne]

theorem loseWords_opt (p : Nat → Bool) (s : State) : (loseWords p s).opt = s.opt := rfl

/-- A word that every reset keeps whole. -/
theorem word_loseWords_kept {a : Nat} (h : keptWord a = true) (p : Nat → Bool) (s : State) :
    (loseWords p s).word a = s.word a := by
  unfold State.word loseWords
  dsimp only
  rw [lookupW_map (fun x => ?_) fun w => ?_]
  · split <;> rfl
  · simp [h]

/-- The words of faults and counters that a full reset keeps and writes nothing to, but the cause. -/
def outliving : List Nat := [F.pwrFault, F.pwrCount, F.clkFault, F.rstCause, F.rstCount]

/-- What a full reset of cause `c` writes to the status space of the state `n` it leaves, from the state `s` it found. -/
def resetShown (c : Cause) (s n : State) : State :=
  let n := resetPort (n.setWord F.lnkPort (s.word F.lnkPort))
  let n := if c = .powerOn || c = .brownout then n
    else (List.finRange 4).foldl (fun n (k : Fin 4) => n.setWord (F.thmDdrMargin k) (s.word (F.thmDdrMargin k)))
      (n.setWord F.stcDdrSize (s.word F.stcDdrSize))
  let n := setF F.rstBootStage 0 (setF F.rstBootSlot 3 (setF F.rstBootIndexReady 0 (setF F.rstBootModelReady 0 n)))
  let n := setF F.rstDieDieUp 0 (setF F.clkStateTimeSrc 0 (setF F.clkStateSlewing 0 n))
  let n := if n.ddr.toList.all (·.wiped) then n else setF F.rstDdrWipeChDone 0 (setF F.rstDdrWipeProgress 0 n)
  let n := setF F.nvsAccessUnlockN 255 (n.setWord F.nvsAccess 0)
  let n := setF F.nvsStateIndexReady 0 (setF F.secStateImageSigner 0xE n)
  let n := (List.finRange 30).foldl (fun n (u : UnitId) => setF (F.isaUStateState u) 0 n) n
  let n := setF F.isaLoadVersion 0 (setF F.isaBudgetDeclared 0 n)
  let b := b2n (inShutdown s)
  setF F.thmStateShutdown b (setF F.intStateSafe 1 (setF F.pwrStateVcShed b (setF F.nvsStateHeld b n)))

/-- A full reset leaves a state of its own, with what goes on, and shows it. -/
theorem fullReset_eq (c : Cause) (m : Mode) (s : State) : ∃ n : State, fullReset c m s = resetShown c (stopped c s) n ∧
    n.opt = (stopped c s).opt ∧ n.mode = m ∧ n.time = (stopped c s).time ∧ n.pending = (stopped c s).pending ∧
    n.pins = resetPins c (stopped c s).pins ∧ n.power = (stopped c s).power ∧ n.units = Vector.replicate 30 ExUnit.reset ∧
    n.mem = (if c = .powerOn || c = .brownout then [] else ddrCells (stopped c s).mem) ∧
    n.status = (loseWords (fun _ => true) (stopped c s)).status := by
  unfold fullReset
  extract_lets s1 wait s2 cold ddr shut port n0 r0 r1 r2 r3 r4 r5 r6 r7 n
  have hs2 : stopped c s = s2 := rfl
  rw [hs2]
  clear_value s2
  exact ⟨n, rfl, rfl, rfl, rfl, rfl, rfl, rfl, rfl, rfl, rfl⟩

theorem sansStatus_resetShown (c : Cause) (s n : State) : sansStatus (resetShown c s n) = sansStatus n := by
  unfold resetShown
  extract_lets n1 n2 n3 n4 n5 n6 n7 n8 n9 b
  have h2 : sansStatus n2 = sansStatus n1 := by
    unfold n2
    rw [sansStatus_ite, sansStatus_foldl fun n k => sansStatus_setWord _ _ n, sansStatus_setWord, ite_self]
  have h8 : sansStatus n8 = sansStatus n7 := sansStatus_foldl (fun n u => sansStatus_setF _ _ n) _ n7
  simp only [n9, h8, n7, n6, n5, n4, n3, h2, n1, resetPort, sansStatus_setF, sansStatus_setWord, sansStatus_ite, ite_self]

/-- The faults and counters outlive what a reset shows. -/
theorem word_resetShown {a : Nat} (ha : a ∈ outliving) (c : Cause) (s n : State) : (resetShown c s n).word a = n.word a := by
  have hlow : a < 0x500000 := by
    revert a
    decide
  have hne (b : Nat) (hb : b ∉ outliving) : a ≠ b := fun e => hb (e ▸ ha)
  have hmargin (k : Fin 4) : a ≠ F.thmDdrMargin k := by
    unfold F.thmDdrMargin
    omega
  unfold resetShown
  extract_lets n1 n2 n3 n4 n5 n6 n7 n8 n9 b
  have h2 : n2.word a = n1.word a := by
    unfold n2
    rw [word_ite, foldl_keeps (fun n : State => n.word a) fun n k => word_setWord_ne n (hmargin k) _,
      word_setWord_ne _ (hne _ (by decide)), ite_self]
  have h8 : n8.word a = n7.word a := word_setUnitStates hlow 0 _ n7
  simp (disch := exact hne _ (by decide)) only [n9, h8, n7, n6, n5, n4, n3, h2, n1, resetPort, setF_word_ne, word_setWord_ne, word_ite,
    ite_self]

theorem dieUp_resetShown (c : Cause) (s n : State) : getF F.rstDieDieUp (resetShown c s n) = 0 := by
  unfold resetShown
  extract_lets n1 n2 n3 n4 n5 n6 n7 n8 n9 b
  have h4 : getF F.rstDieDieUp n4 = 0 := getF_setF_lt (by decide) (by decide) _
  have h8 : getF F.rstDieDieUp n8 = getF F.rstDieDieUp n7 := getF_congr (word_setUnitStates (by decide) ..)
  rw [← h4]
  simp (disch := decide) only [n9, h8, n7, n6, n5, getF_setF_addr, getF_setWord_ne, apply_ite (getF F.rstDieDieUp), ite_self]

/-! ### A full reset -/

/-- Nothing listed lies below DDR5 where a reset keeps DDR5 alone. -/
theorem readB_ddrCells {a : Nat} (ha : a < 2 ^ 40) (m : List Host.Cell) : readB (ddrCells m) a = 0 := by
  refine readB_above fun c hc => ?_
  have := of_decide_eq_true (List.mem_filter.mp hc).2
  omega

/-- The device is taken down into mode `m`: no unit, no byte of memory below DDR5 and no die is left, device time and the
commands that wait go on. -/
def takenDown (m : Mode) (s t : State) : Prop :=
  t.mode = m ∧ t.units = Vector.replicate 30 ExUnit.reset ∧ (∀ a, a < 2 ^ 40 → readB t.mem a = 0) ∧ getF F.rstDieDieUp t = 0 ∧
    t.time = s.time ∧ t.pending = s.pending

section
variable (c : Cause) (m : Mode) (s : State)

theorem fullReset_takenDown : takenDown m s (fullReset c m s) := by
  obtain ⟨n, hn, -, hmode, htime, hpending, -, -, hunits, hmem, -⟩ := fullReset_eq c m s
  have hframe := eq_of_sansStatus (sansStatus_resetShown c (stopped c s) n)
  have hs2 := stopped_frame c s
  refine ⟨?_, ?_, fun a ha => ?_, ?_, ?_, ?_⟩
  · rw [hn, hframe, ← hmode]
  · rw [hn, hframe, ← hunits]
  · rw [hn, hframe]
    change readB n.mem a = 0
    rw [hmem]
    split
    · rfl
    · exact readB_ddrCells ha _
  · rw [hn]
    exact dieUp_resetShown ..
  · rw [hn, hframe]
    change n.time = _
    rw [htime, hs2]
  · rw [hn, hframe]
    change n.pending = _
    rw [hpending, hs2]

theorem fullReset_pins : (fullReset c m s).pins = resetPins c s.pins := by
  obtain ⟨n, hn, -, -, -, -, hpins, -⟩ := fullReset_eq c m s
  rw [hn, eq_of_sansStatus (sansStatus_resetShown c (stopped c s) n)]
  change n.pins = _
  rw [hpins, stopped_frame]

theorem fullReset_power : (fullReset c m s).power = s.power := by
  obtain ⟨n, hn, -, -, -, -, -, hpower, -⟩ := fullReset_eq c m s
  rw [hn, eq_of_sansStatus (sansStatus_resetShown c (stopped c s) n)]
  change n.power = _
  rw [hpower, stopped_frame]

/-- A brown-out loses DDR5 too. -/
theorem fullReset_brownout_mem : (fullReset .brownout m s).mem = [] := by
  obtain ⟨n, hn, -, -, -, -, -, -, -, hmem, -⟩ := fullReset_eq .brownout m s
  rw [hn, eq_of_sansStatus (sansStatus_resetShown .brownout (stopped .brownout s) n)]
  exact hmem

/-- The faults and counters outlive a full reset, as its cause leaves them. -/
theorem fullReset_word {a : Nat} (ha : a ∈ outliving) : (fullReset c m s).word a = (stopped c s).word a := by
  have hkept : keptWord a = true := by
    revert a
    decide
  obtain ⟨n, hn, hopt, -, -, -, -, -, -, -, hstatus⟩ := fullReset_eq c m s
  rw [hn, word_resetShown ha]
  exact (word_congr (hopt.trans (loseWords_opt ..).symm) hstatus a).trans (word_loseWords_kept hkept _ _)

/-- But for RST.CAUSE as they were. -/
theorem fullReset_word_of_ne {a : Nat} (ha : a ∈ outliving) (hcause : a ≠ F.rstCause) : (fullReset c m s).word a = s.word a := by
  have hlow : a < 0x600000 := by
    revert a
    decide
  rw [fullReset_word c m s ha, stopped_word_of_ne hlow hcause]

theorem fullReset_cause : getF (causeFld c) (fullReset c m s) = 1 := by
  have haddr : (causeFld c).addr ∈ outliving := by cases c <;> decide
  rw [getF_congr (fullReset_word c m s haddr)]
  exact stopped_cause c s

end

end Sys2Proof.Machine
end

section
/-!
SUPPORT. Proofs of the scope statements: brown-outs, rail faults, clock losses, RESET_N, the watchdog and the release (O48).
-/

namespace Sys2Proof.Machine

/-! ### Taking the device down (R53, R61, R75) -/

theorem takenDown_of_eq {m : Mode} {s s' t : State} (htime : s'.time = s.time) (hpending : s'.pending = s.pending)
    (h : takenDown m s' t) : takenDown m s t := by
  obtain ⟨hmode, hunits, hmem, hdie, ht, hp⟩ := h
  exact ⟨hmode, hunits, hmem, hdie, ht.trans htime, hp.trans hpending⟩

/-- The device is out: taken down with its memory and its rails off, the brown-out shown and counted. -/
def browned (m : Mode) (gate : Bool) (s t : State) : Prop :=
  takenDown m s t ∧ t.mem = [] ∧ getF F.pwrCountBrownoutCount t = min 65535 (getF F.pwrCountBrownoutCount s + 1) ∧
    getF F.pwrFaultBrownout t = 1 ∧ t.pins.icv = false ∧ t.pins.vcEn = false ∧ t.pins.vqEn = false ∧ t.pins.adec = false ∧
    t.pins.inrGate = gate ∧ t.power = s.power

/-- The brown-out's own fault and count, before the reset. -/
def brownNoted (s : State) : State := raiseClocked 0x0104 0 0 0 (bump F.pwrCountBrownoutCount (setF F.pwrFaultBrownout 1 s))

theorem brownOut_eq (m : Mode) (gate : Bool) (s : State) : brownOut m gate s =
    modPins (fun p => { p with inrGate := gate, icv := false, vcEn := false, vqEn := false, adec := false, ddrRstN := false })
      (railsOff (fullReset .brownout m (brownNoted s))) := rfl

theorem railsOff_word {a : Nat} (hpwr : a ≠ F.pwrState) (hclk : a ≠ F.clkState) (s : State) : (railsOff s).word a = s.word a :=
  (word_setWord_ne _ hclk _).trans (word_setWord_ne s hpwr _)

theorem modPins_word (f : Pins → Pins) (a : Nat) (s : State) : (modPins f s).word a = s.word a := rfl

/-- The faults and counters of the power unit as the brown-out leaves them. -/
theorem brownOut_word {a : Nat} (ha : a ∈ [F.pwrFault, F.pwrCount]) (m : Mode) (gate : Bool) (s : State) :
    (brownOut m gate s).word a = (brownNoted s).word a := by
  have hout : a ∈ outliving := by
    revert a
    decide
  have hne : a ≠ F.pwrState ∧ a ≠ F.clkState ∧ a ≠ F.rstCause := by
    revert a
    decide
  obtain ⟨hpwr, hclk, hcause⟩ := hne
  rw [brownOut_eq, modPins_word, railsOff_word hpwr hclk, fullReset_word_of_ne .brownout m _ hout hcause]

theorem brownNoted_word {a : Nat} (ha : a ≠ F.pwrCount) (s : State) :
    (brownNoted s).word a = (setF F.pwrFaultBrownout 1 s).word a := by
  rw [brownNoted, raiseClocked_word, bump_word_ne ha]

theorem brownNoted_count (s : State) :
    getF F.pwrCountBrownoutCount (brownNoted s) = min 65535 (getF F.pwrCountBrownoutCount s + 1) := by
  rw [brownNoted, getF_congr (raiseClocked_word ..), getF_bump_same (by decide), getF_setF_addr _ _ (by decide)]
  rfl

theorem brownOut_browned (m : Mode) (gate : Bool) (s : State) : browned m gate s (brownOut m gate s) := by
  have hframe : brownNoted s = { s with status := (brownNoted s).status, ev := (brownNoted s).ev } :=
    eq_of_sansReport (by simp [brownNoted])
  have hdown := fullReset_takenDown .brownout m (brownNoted s)
  have hmem := fullReset_brownout_mem m (brownNoted s)
  have hpower := fullReset_power .brownout m (brownNoted s)
  have hcount : getF F.pwrCountBrownoutCount (brownOut m gate s) = getF F.pwrCountBrownoutCount (brownNoted s) :=
    getF_congr (brownOut_word (by decide) m gate s)
  have hfault : getF F.pwrFaultBrownout (brownOut m gate s) = getF F.pwrFaultBrownout (setF F.pwrFaultBrownout 1 s) :=
    getF_congr ((brownOut_word (by decide) m gate s).trans (brownNoted_word (by decide) s))
  rw [browned, hcount, hfault, brownNoted_count, brownOut_eq]
  generalize fullReset .brownout m (brownNoted s) = t at hdown hmem hpower
  obtain ⟨hmode, hunits, hcells, hdie, ht, hp⟩ := hdown
  refine ⟨⟨hmode, hunits, hcells, ?_, ?_, ?_⟩, hmem, rfl, getF_set_one (by decide) rfl s, rfl, rfl, rfl, rfl, rfl, ?_⟩
  · rw [← hdie]
    exact getF_congr ((modPins_word ..).trans (railsOff_word (by decide) (by decide) t))
  · refine ht.trans ?_
    rw [hframe]
  · refine hp.trans ?_
    rw [hframe]
  · refine hpower.trans ?_
    rw [hframe]

/-- A fault beside the brown-out's own stays. -/
theorem brownOut_fault {f : Fld} (hf : f.addr = F.pwrFault) (hlo : 0 < f.lo) (m : Mode) (gate : Bool) (s : State) :
    getF f (brownOut m gate s) = getF f s := by
  have hword : (brownOut m gate s).word f.addr = (setF F.pwrFaultBrownout 1 s).word f.addr := by
    rw [hf]
    exact (brownOut_word (by decide) m gate s).trans (brownNoted_word (by decide) s)
  rw [getF_congr hword]
  exact getF_setF_bits s 1 (.inr hlo)

/-- The counter of input trips stands beside that of brown-outs. -/
theorem brownOut_tripCount (m : Mode) (gate : Bool) (s : State) :
    getF F.pwrCountInputTripCount (brownOut m gate s) = getF F.pwrCountInputTripCount s := by
  rw [getF_congr (brownOut_word (by decide) m gate s), brownNoted, getF_congr (raiseClocked_word ..), bump, bumpBy,
    getF_setF_bits _ _ (.inr (by decide)), getF_setF_addr _ _ (by decide)]

/-- Being out is told from the time, the commands and the sequence's memory, and from the count of brown-outs. -/
theorem browned_of_eq {m : Mode} {gate : Bool} {s s' t : State} (h : browned m gate s' t) (hframe : sansReport s' = sansReport s)
    (hcount : getF F.pwrCountBrownoutCount s' = getF F.pwrCountBrownoutCount s) : browned m gate s t := by
  have hs := eq_of_sansReport hframe
  obtain ⟨hdown, hmem, hnum, hrest⟩ := h
  obtain ⟨hfault, hicv, hvc, hvq, hadec, hgate, hpower⟩ := hrest
  refine ⟨takenDown_of_eq (by rw [hs]) (by rw [hs]) hdown, hmem, by rw [hnum, hcount], hfault, hicv, hvc, hvq, hadec, hgate, ?_⟩
  rw [hpower, hs]

/-! ### Undervoltage, trips and rail faults (R52, R54, R61, R62) -/

theorem exec_brownout_of_powered {s : State} (h0 : s.mode ≠ .unpowered) (h1 : s.mode ≠ .brownout .under)
    (h2 : s.mode ≠ .brownout .inputTrip) : exec .brownout s =
      .next (modPower (fun p => { p with attempts := [] }) (setF F.pwrStateVinZone 0 (brownOut (.brownout .under) true s))) := by
  rw [exec_brownout, execBrownout]
  dsimp only
  split
  next h => exact absurd h h0
  next h => exact absurd h h1
  next h => exact absurd h h2
  next => rfl

/-- The supervisor's zone, and the sequence's memory, are no part of being out. -/
theorem browned_beside {m : Mode} {gate : Bool} {s t : State} (h : browned m gate s t) (v : Nat) :
    takenDown m s (setF F.pwrStateVinZone v t) ∧ getF F.pwrCountBrownoutCount (setF F.pwrStateVinZone v t) =
      min 65535 (getF F.pwrCountBrownoutCount s + 1) ∧ getF F.pwrFaultBrownout (setF F.pwrStateVinZone v t) = 1 := by
  obtain ⟨⟨hmode, hunits, hcells, hdie, ht, hp⟩, -, hnum, hfault, -⟩ := h
  have hset (f : Fld) (hf : f.addr ≠ F.pwrState) : getF f (setF F.pwrStateVinZone v t) = getF f t := getF_setF_addr _ _ hf
  exact ⟨⟨hmode, hunits, hcells, (hset _ (by decide)).trans hdie, ht, hp⟩, (hset _ (by decide)).trans hnum,
    (hset _ (by decide)).trans hfault⟩

theorem exec_inputOvercurrentTrip_of_up {s : State} (hpow : powered s = true) (hdone : flag F.pwrStateInrushDone s = true) :
    exec .inputOvercurrentTrip s = .next (modPower (fun p => { p with attempts := [] }) (brownOut (.brownout .inputTrip) false
      (raiseClocked 0x0105 0 0 0 (bump F.pwrCountInputTripCount (setF F.pwrFaultInputTrip 1 s))))) := by
  rw [exec_inputOvercurrentTrip, execInputOvercurrentTrip, hpow, hdone]
  rfl

theorem exec_vinOvTrip_of_over {s : State} (h0 : s.mode ≠ .unpowered) (h1 : s.mode ≠ .brownout .overTrip)
    (hzone : getF F.pwrStateVinZone s = 4) : exec .vinOvTrip s =
      .next (modPower (fun p => { p with attempts := [] }) (brownOut (.brownout .overTrip) false (setF F.pwrFaultVinOvTrip 1 s))) := by
  rw [exec_vinOvTrip, execVinOvTrip]
  simp [h0, h1, hzone]

/-- Is the power-up sequence before the release of reset? -/
def earlyIn (s : State) : Bool :=
  match s.mode with
  | .powerUp _ | .clockHeld (some _) => true
  | _ => false

theorem earlyIn_iff (s : State) : earlyIn s = true ↔ (∃ k, s.mode = .powerUp k) ∨ ∃ k, s.mode = .clockHeld (some k) := by
  unfold earlyIn
  split
  next k h => simp [h]
  next k h => simp [h]
  next h1 h2 => exact iff_of_false Bool.false_ne_true (not_or.mpr ⟨fun ⟨k, h⟩ => h1 k h, fun ⟨k, h⟩ => h2 k h⟩)

/-- The row of attempts that a rail fault makes, newest first. -/
def railRow (s : State) : List Nat := if earlyIn s then s.power.attemptStart :: s.power.attempts else []

/-- Whether the wait of 10 s then stands before each attempt. -/
def railWaits (s : State) : Bool := s.power.waiting || match railRow s with
  | a :: _ :: c :: _ => decide (a ≤ c + tenSeconds)
  | _ => false

theorem exec_railFault_of_up {r : Rail} {s : State} (hpow : powered s = true) (hrail : s.mode ≠ .railWait)
    (hinrush : s.mode ≠ .inrushWait) (hfda : r = .fda1 → s.opt = .zt8) : exec (.railFault r) s =
      .next (modPower (fun p => { p with attempts := (railRow s).take 3, waiting := railWaits s })
        (brownOut (if railWaits s then .railWait else .brownout .rail) true (raiseClocked 0x0106 0 0 0 (setF (railFld r) 1 s)))) := by
  have hthere : (decide (r = .fda1) && decide (s.opt = .zt4)) = false := by
    by_cases hr : r = .fda1
    · simp [hr, hfda hr]
    · simp [hr]
  rw [exec_railFault, execRailFault]
  dsimp only
  rw [if_neg (by rw [hpow, hthere]; simp [hrail, hinrush])]
  rfl

theorem railRow_of_late {s : State} (h : earlyIn s = false) : railRow s = [] ∧ railWaits s = s.power.waiting := by
  have hrow : railRow s = [] := by
    rw [railRow, h]
    rfl
  exact ⟨hrow, by rw [railWaits, hrow, Bool.or_false]⟩

theorem railRow_of_early {s : State} (h : earlyIn s = true) : railRow s = s.power.attemptStart :: s.power.attempts := by
  rw [railRow, if_pos h]

theorem railWaits_of_waiting {s : State} (h : s.power.waiting = true) : railWaits s = true := by
  rw [railWaits, h, Bool.true_or]

/-- Two attempts before it, at most, start no wait. -/
theorem railWaits_of_few {s : State} (hwait : s.power.waiting = false) (hfew : s.power.attempts.length < 2) :
    railWaits s = false := by
  rw [railWaits, hwait, Bool.false_or]
  split
  next a b c rest h =>
    unfold railRow at h
    split at h
    · rw [(List.cons.inj h).2] at hfew
      simp at hfew
    · cases h
  · rfl

/-- With two before it, the first must have started within 10 s. -/
theorem railWaits_of_row {s : State} {a c : Nat} {rest : List Nat} (hearly : earlyIn s = true) (hwait : s.power.waiting = false)
    (hrow : s.power.attempts = a :: c :: rest) : railWaits s = decide (s.power.attemptStart ≤ c + tenSeconds) := by
  rw [railWaits, hwait, railRow_of_early hearly, hrow]
  rfl

/-- A rail fault shows itself and takes the device down. -/
theorem railFault_browned (r : Rail) (m : Mode) (s : State) :
    browned m true s (brownOut m true (raiseClocked 0x0106 0 0 0 (setF (railFld r) 1 s))) ∧
      getF (railFld r) (brownOut m true (raiseClocked 0x0106 0 0 0 (setF (railFld r) 1 s))) = 1 := by
  have hfld : (railFld r).addr = F.pwrFault ∧ 0 < (railFld r).lo ∧ (railFld r).hi < 32 ∧ (railFld r).lo = (railFld r).hi := by
    cases r <;> decide
  obtain ⟨haddr, hlo, hhi, hone⟩ := hfld
  have hcount : F.pwrCountBrownoutCount.addr ≠ (railFld r).addr := by
    rw [haddr]
    decide
  constructor
  · refine browned_of_eq (brownOut_browned m true _) ((sansReport_raiseClocked ..).trans (sansReport_setF ..)) ?_
    rw [getF_congr (raiseClocked_word ..), getF_setF_addr _ _ hcount]
  · rw [brownOut_fault haddr hlo, getF_congr (raiseClocked_word ..), getF_set_one hhi hone]

/-! ### The end of a brown-out (R53, R62) -/

/-- The zone of VIN as a brown-out of cause `c` ends. -/
def endZone (c : BoCause) (s : State) : State :=
  if c = .overTrip then setF F.pwrStateVinZone 2 s
  else if getF F.pwrStateVinZone s = 0 then setF F.pwrStateVinZone 1 s else s

theorem exec_brownoutEnd_of_brownout {c : BoCause} {s : State} (h : s.mode = .brownout c) : exec .brownoutEnd s =
    .next (if (endZone c s).power.waiting then { endZone c s with mode := .railWait } else startAttempt (endZone c s)) := by
  rw [exec_brownoutEnd, execBrownoutEnd, h]
  rfl

theorem sansStatus_endZone (c : BoCause) (s : State) : sansStatus (endZone c s) = sansStatus s := by
  simp [endZone, sansStatus_ite]

theorem vinZone_endZone (c : BoCause) (s : State) : getF F.pwrStateVinZone (endZone c s) =
    if c = .overTrip then 2 else if getF F.pwrStateVinZone s = 0 then 1 else getF F.pwrStateVinZone s := by
  have hset {v : Nat} (hv : v < 16) : getF F.pwrStateVinZone (setF F.pwrStateVinZone v s) = v := getF_setF_lt (by decide) hv s
  simp only [endZone, apply_ite (getF F.pwrStateVinZone), hset (show 2 < 16 by decide), hset (show 1 < 16 by decide)]

theorem brownoutEnd_ends {c : BoCause} {s : State} (h : s.mode = .brownout c) : ∃ t, exec .brownoutEnd s = .next t ∧
    t.mode = (if s.power.waiting then .railWait else .powerUp .inrush) ∧
    t.pins = { s.pins with inrGate := s.pins.inrGate || !s.power.waiting } ∧
    getF F.pwrStateVinZone t =
      (if c = .overTrip then 2 else if getF F.pwrStateVinZone s = 0 then 1 else getF F.pwrStateVinZone s) := by
  have hframe := eq_of_sansStatus (sansStatus_endZone c s)
  have hpower : (endZone c s).power = s.power := by rw [hframe]
  have hpins : (endZone c s).pins = s.pins := by rw [hframe]
  rw [exec_brownoutEnd_of_brownout h, hpower, ← vinZone_endZone]
  cases hwait : s.power.waiting
  · refine ⟨_, rfl, rfl, ?_, rfl⟩
    rw [← hpins, Bool.not_false, Bool.or_true]
    rfl
  · refine ⟨_, rfl, rfl, ?_, rfl⟩
    rw [← hpins, Bool.not_true, Bool.or_false]
    rfl

/-! ### The clock monitor (R67) -/

/-- The sticky bit of a loss. -/
def lossFld : ClockLoss → Fld
  | .refclk => F.clkFaultRefclkLoss
  | .rootPll => F.clkFaultRootUnlock
  | .diePll => F.clkFaultDieUnlock

theorem noteClockLoss_shows (k : ClockLoss) (s : State) : getF (lossFld k) (noteClockLoss k s) = 1 := by
  cases k <;> exact (getF_setF_addr _ _ (by decide)).trans (getF_set_one (by decide) rfl _)

theorem noteClockLoss_frame (k : ClockLoss) (s : State) :
    noteClockLoss k s = { s with boot := (noteClockLoss k s).boot, status := (noteClockLoss k s).status } := by
  cases k <;> rfl

theorem noteClockLoss_word {a : Nat} (hstate : a ≠ F.clkState) (hfault : a ≠ F.clkFault) (k : ClockLoss) (s : State) :
    (noteClockLoss k s).word a = s.word a := by
  cases k <;> exact (setF_word_ne _ _ hstate).trans (setF_word_ne _ _ hfault)

theorem exec_clockLoss_of_unwatched {s : State} (h : s.power.monitor = false) (k : ClockLoss) :
    exec (.clockLoss k) s = .next s := by
  rw [exec_clockLoss, execClockLoss, h]
  rfl

theorem exec_clockLoss_of_powerUp {s : State} {r : PwrRow} (hwatch : s.power.monitor = true) (h : s.mode = .powerUp r)
    (k : ClockLoss) : exec (.clockLoss k) s =
      .next (noteCause .clockLoss (noteClockLoss k { s with mode := .clockHeld (some r) })) := by
  rw [exec_clockLoss, execClockLoss, hwatch, h]
  rfl

theorem exec_clockLoss_of_released {s : State} (hwatch : s.power.monitor = true) (h : released s = true) (k : ClockLoss) :
    exec (.clockLoss k) s = .next (noteClockLoss k (fullReset .clockLoss (.clockHeld none) s)) := by
  rw [exec_clockLoss, execClockLoss, hwatch]
  cases hmode : s.mode <;> simp [released, hmode] at h ⊢

theorem clockLoss_takesDown {s : State} (hwatch : s.power.monitor = true) (h : released s = true) (k : ClockLoss) :
    ∃ t, exec (.clockLoss k) s = .next t ∧ takenDown (.clockHeld none) s t ∧ getF (lossFld k) t = 1 ∧
      getF F.rstCauseClockLoss t = 1 := by
  have hdown := fullReset_takenDown .clockLoss (.clockHeld none) s
  have hcause : getF F.rstCauseClockLoss (fullReset .clockLoss (.clockHeld none) s) = 1 :=
    fullReset_cause .clockLoss (.clockHeld none) s
  refine ⟨_, exec_clockLoss_of_released hwatch h k, ?_, noteClockLoss_shows k _, ?_⟩
  · generalize fullReset .clockLoss (.clockHeld none) s = t at hdown
    obtain ⟨hmode, hunits, hmem, hdie, htime, hpending⟩ := hdown
    have hframe := noteClockLoss_frame k t
    refine ⟨?_, ?_, ?_, ?_, ?_, ?_⟩
    · rw [hframe]
      exact hmode
    · rw [hframe]
      exact hunits
    · rw [hframe]
      exact hmem
    · rw [getF_congr (noteClockLoss_word (by decide) (by decide) k t), hdie]
    · rw [hframe]
      exact htime
    · rw [hframe]
      exact hpending
  · rw [getF_congr (noteClockLoss_word (by decide) (by decide) k _), hcause]

theorem clockLoss_holds {s : State} {r : PwrRow} (hwatch : s.power.monitor = true) (h : s.mode = .powerUp r) (k : ClockLoss) :
    ∃ t, exec (.clockLoss k) s = .next t ∧ t.mode = .clockHeld (some r) ∧ getF (lossFld k) t = 1 ∧ getF F.rstCauseClockLoss t = 1 ∧
      t.units = s.units ∧ t.mem = s.mem := by
  have hfld : (lossFld k).addr ≠ F.rstCause := by cases k <;> decide
  have hcause : ∀ t, getF F.rstCauseClockLoss (noteCause .clockLoss t) = 1 := noteCause_shows .clockLoss
  refine ⟨_, exec_clockLoss_of_powerUp hwatch h k, ?_, ?_, hcause _, ?_, ?_⟩
  · rw [noteCause_frame, noteClockLoss_frame]
  · rw [getF_congr (noteCause_word hfld ..), noteClockLoss_shows]
  · rw [noteCause_frame, noteClockLoss_frame]
  · rw [noteCause_frame, noteClockLoss_frame]

theorem exec_clockRestart_of_held {s : State} {r : PwrRow} (h : s.mode = .clockHeld (some r)) :
    exec .clockRestart s = .next (setF F.clkStateRefclkOk 1 { s with mode := .powerUp r }) := by
  rw [exec_clockRestart, execClockRestart, h]

theorem exec_clockRestart_of_down {s : State} (h : s.mode = .clockHeld none) : exec .clockRestart s =
    .next (setF F.clkStateRefclkOk 1 { s with mode := if s.pins.resetN then .inReset else .resetPin }) := by
  rw [exec_clockRestart, execClockRestart, h]

/-! ### RESET_N and the hub watchdog (R75, R462) -/

theorem exec_resetNAssert_of_released {ns : Nat} {s : State} (hns : 600 ≤ ns) (h : released s = true) :
    exec (.resetNAssert ns) s = .next (fullReset .pin .resetPin
      (bump F.rstCountResetPinCount (modPins (fun p => { p with resetN := false }) s))) := by
  have hpin : takePin s = fullReset .pin .resetPin
      (bump F.rstCountResetPinCount (modPins (fun p => { p with resetN := false }) s)) := by
    unfold takePin
    cases hmode : s.mode <;> simp [released, hmode, modPins] at h ⊢
  rw [exec_resetNAssert, execResetNAssert, if_neg (by omega), if_neg (by omega), hpin]

theorem exec_resetNAssert_of_short {ns : Nat} (hns : ns < 400) (s : State) : exec (.resetNAssert ns) s = .next s := by
  rw [exec_resetNAssert, execResetNAssert, if_pos hns]

/-- A full reset counts what its cause has just counted. -/
theorem fullReset_count {f : Fld} (hf : f.addr = F.rstCount) (hhi : f.hi < 32) (c : Cause) (m : Mode) (s : State) :
    getF f (fullReset c m (bump f s)) = min (topF f) (getF f s + 1) := by
  have hword : (fullReset c m (bump f s)).word f.addr = (bump f s).word f.addr := by
    rw [hf]
    exact fullReset_word_of_ne c m _ (by decide) (by decide)
  rw [getF_congr hword, getF_bump_same hhi]

theorem resetNAssert_resets {ns : Nat} {s : State} (hns : 600 ≤ ns) (h : released s = true) : ∃ t, exec (.resetNAssert ns) s = .next t ∧
    takenDown .resetPin s t ∧ t.pins.resetN = false ∧
    getF F.rstCountResetPinCount t = min 65535 (getF F.rstCountResetPinCount s + 1) ∧ getF F.rstCauseResetPin t = 1 := by
  refine ⟨_, exec_resetNAssert_of_released hns h, ?_, ?_, ?_, fullReset_cause .pin .resetPin _⟩
  · exact takenDown_of_eq (s' := bump F.rstCountResetPinCount (modPins (fun p => { p with resetN := false }) s)) rfl rfl
      (fullReset_takenDown ..)
  · rw [fullReset_pins]
    rfl
  · exact fullReset_count rfl (by decide) ..

theorem exec_resetNRelease_eq (s : State) : exec .resetNRelease s = .next { s with
    mode := if s.mode = .resetPin then .inReset else s.mode
    pins := { s.pins with resetN := true }
    jtag := { s.jtag with drive := if s.freeze.since.isSome then s.jtag.drive else none } } := by
  rw [exec_resetNRelease, execResetNRelease]
  cases hfreeze : s.freeze.since <;> by_cases hmode : s.mode = .resetPin <;> simp [modPins, hfreeze, hmode]

theorem hubWatchdog_resets {s : State} (h : live s = true) : ∃ t, exec .hubWatchdog s = .next t ∧ takenDown .inReset s t ∧
    getF F.rstCountWatchdogCount t = min 65535 (getF F.rstCountWatchdogCount s + 1) ∧ getF F.rstCauseWatchdog t = 1 := by
  refine ⟨fullReset .watchdog .inReset (bump F.rstCountWatchdogCount s), ?_, ?_, ?_, fullReset_cause .watchdog .inReset _⟩
  · rw [exec_hubWatchdog, execHubWatchdog, if_pos h]
  · exact takenDown_of_eq (s' := bump F.rstCountWatchdogCount s) rfl rfl (fullReset_takenDown ..)
  · exact fullReset_count rfl (by decide) ..

end Sys2Proof.Machine
end

section
/-!
SUPPORT. The release of reset: the dies, links, clusters and engines as they start, and the boot (R66, R78, R80, R94, R223, R228,
R233).
-/

namespace Sys2Proof.Machine

/-! ### Sums of powers of two -/

/-- A number made of distinct powers of two has the bits of those powers. -/
theorem testBit_sum_two_pow {l : List Nat} (h : l.Nodup) (i : Nat) : ((l.map (2 ^ ·)).sum).testBit i = decide (i ∈ l) := by
  induction l generalizing i with
  | nil => simp
  | cons x t ih =>
    obtain ⟨hx, ht⟩ := List.nodup_cons.mp h
    have hclear : ((t.map (2 ^ ·)).sum).testBit x = false := by rw [ih ht, decide_eq_false hx]
    rw [List.map_cons, List.sum_cons, Nat.add_comm]
    by_cases hi : i = x
    · rw [hi, Nat.add_comm, Nat.testBit_two_pow_add_eq, hclear]
      simp
    · rw [testBit_add_two_pow_of_clear hclear hi, ih ht]
      simp [hi]

theorem flagAt_setF {f : Fld} (hf : f.hi < 32) (v i : Nat) (s : State) :
    flagAt f i (setF f v s) = (decide (i < f.hi + 1 - f.lo) && v.testBit i) := by
  rw [flagAt, getF_setF_same _ _ _ hf, Nat.testBit_mod_two_pow]

theorem flagAt_congr {f : Fld} {i : Nat} {s t : State} (h : t.word f.addr = s.word f.addr) : flagAt f i t = flagAt f i s := by
  rw [flagAt, flagAt, getF_congr h]

/-! ### What the tests of the release leave as it was -/

/-- The state without what links, self-tests, the life-cycle check and the counter check change. -/
def sansTests (s : State) : State :=
  { s with status := [], ev := EventPart.reset, boot := BootPart.reset, links := Vector.replicate 16 Link.reset, sec := SecPart.reset }

theorem sansTests_of_sansReport {s t : State} (h : sansReport t = sansReport s) : sansTests t = sansTests s :=
  show sansTests (sansReport t) = sansTests (sansReport s) from congrArg sansTests h

theorem eq_of_sansTests {s t : State} (h : sansTests t = sansTests s) :
    t = { s with status := t.status, ev := t.ev, boot := t.boot, links := t.links, sec := t.sec } := by
  have hback (t : State) : t = { sansTests t with status := t.status, ev := t.ev, boot := t.boot, links := t.links, sec := t.sec } := rfl
  rw [hback t, h]
  rfl

theorem sansTests_linkFatal (l : Fin 16) (s : State) : sansTests (linkFatal l s) = sansTests s := by
  have hmod (f : Link → Link) (t : State) : sansTests (modLink l f t) = sansTests t := rfl
  have hraise (t : State) : sansTests (raise 0x2001 7 l 0 t) = sansTests t := rfl
  unfold linkFatal
  dsimp only
  rw [hraise, hmod]
  exact sansTests_of_sansReport (by simp)

theorem sansReport_takeClusterTest (cl : BitVec 26) (s : State) : sansReport (takeClusterTest cl s) = sansReport s := by
  unfold takeClusterTest
  dsimp only
  rw [sansReport_foldl fun s p => by rw [sansReport_raise, sansReport_setF]]
  exact sansReport_setF ..

theorem sansTests_takeEngineTest (eng : BitVec 80) (s : State) : sansTests (takeEngineTest eng s) = sansTests s := by
  unfold takeEngineTest
  refine (foldl_keeps (fun x : List Nat × State => sansTests x.2) (fun x l => ?_) _ _).trans ?_
  · dsimp only
    split
    · split_ifs <;> rfl
    · rfl
  · rfl

theorem sansReport_chooseSlot (s : State) : sansReport (chooseSlot s) = sansReport s := by
  unfold chooseSlot
  split <;> simp

theorem sansReport_checkLifecycle (s : State) : sansReport (checkLifecycle s) = sansReport s := by
  unfold checkLifecycle complementFail
  simp only [sansReport_ite, sansReport_raise, sansReport_setF, sansReport_setAt, sansReport_bump, sansReport_chooseSlot, ite_self]

theorem sansTests_checkCounter (signer : Option Nat) (s : State) : sansTests (checkCounter signer s) = sansTests s := by
  unfold checkCounter
  extract_lets who
  split
  · rfl
  · split <;> rfl

/-! ### Words that the tests leave -/

/-- The words that show the dies, the clusters and the links. -/
def releasedWords : List Nat := [F.rstDie, F.stcCluster, F.stcLink]

section
variable {a : Nat} (ha : a ∈ releasedWords)
include ha

theorem ne_of_released {b : Nat} (hb : b ∉ releasedWords) : a ≠ b := fun e => hb (e ▸ ha)

theorem word_takeEngineTest (eng : BitVec 80) (s : State) : (takeEngineTest eng s).word a = s.word a := by
  have hphys (l : Nat) (hl : l < 64) : a ≠ F.algEngState l := by
    have hout : a < 0x201000 ∨ 0x500000 ≤ a := by
      revert a
      decide
    unfold F.algEngState
    omega
  have hcount : ∀ l ∈ List.range (engCount s.opt), l < 64 := by
    intro l hl
    have hmax : engCount s.opt ≤ 64 := by cases s.opt <;> decide
    exact Nat.lt_of_lt_of_le (List.mem_range.mp hl) hmax
  unfold takeEngineTest
  extract_lets there ok mask t
  have ht : t.word a = s.word a := by
    simp (disch := exact ne_of_released ha (by decide)) only [t, setF_word_ne]
  refine List.foldlRecOn (motive := fun x : List Nat × State => x.2.word a = s.word a) _ _ ht fun x hx l hl => ?_
  have hset (p : Nat) : (setF (F.algEngStatePhys l) p x.2).word a = s.word a :=
    (setF_word_ne _ _ (hphys l (hcount l hl))).trans hx
  have hmissing (b : BootPart) : (setF F.stcFaultEngineMissing 1 { x.2 with boot := b }).word a = s.word a :=
    (setF_word_ne _ _ (ne_of_released ha (by decide))).trans hx
  dsimp only
  split
  · split_ifs
    · exact hset _
    · exact hset _
    · exact hset _
    · exact hset _
  · exact hmissing _

theorem word_checkLifecycle (s : State) : (checkLifecycle s).word a = s.word a := by
  have hchoose (t : State) : (chooseSlot t).word a = t.word a := by
    unfold chooseSlot
    split <;> simp (disch := exact ne_of_released ha (by decide)) only [setF_word_ne, raise_word]
  unfold checkLifecycle complementFail setAt bump bumpBy
  simp (disch := exact ne_of_released ha (by decide)) only [word_ite, hchoose, setF_word_ne, raise_word, ite_self]

theorem word_checkCounter (signer : Option Nat) (s : State) : (checkCounter signer s).word a = s.word a := by
  unfold checkCounter
  extract_lets who
  split
  · rfl
  · split
    · exact bump_word_ne (f := F.intEvtSuppressedSuppressed) (ne_of_released ha (by decide)) s
    · rfl

end

/-! ### The release (R66, R69, R78, R94) -/

/-- The device released to the starting block, its dies up, before its links, its self-tests and its life cycle are looked at. -/
def started (s : State) : State :=
  let s := s.setWord F.clkState (s.word F.clkState ||| 0x7F)
  let s := if s.timeOn then s else { s with time := 0, timeOn := true }
  let (x, s) := takeFree s
  let s := { s with
    mode := .boot
    sec := { s.sec with drbg := drbgSeed (beBytes 48 x) }
    power := PowerPart.reset
    pins := { s.pins with ddrRstN := true, ethTx := true, vgdTx := true }
    boot := { s.boot with releasedAt := s.time, failed := [] } }
  setF F.rstDieDieUp (((List.range 8).filter fun d => diePresent s.opt d).map (2 ^ ·)).sum s

/-- The links in `bad` fail to train. -/
def failLinks (bad : List (Fin 16)) (s : State) : State :=
  (List.finRange 16).foldl (fun s (l : Fin 16) =>
    if bad.contains l && (linkEnds s.opt l).isSome then linkFatal l s else s) s

theorem exec_resetRelease_of_high {s : State} (hmode : s.mode = .powerUp .pll ∨ s.mode = .inReset) (hpin : s.pins.resetN = true)
    (cl : BitVec 26) (eng : BitVec 80) (bad : List (Fin 16)) : exec (.resetRelease cl eng bad) s = .next
      (checkCounter none (checkLifecycle (takeEngineTest eng (takeClusterTest cl (failLinks bad (started s)))))) := by
  have hgo : ¬ (s.mode ≠ .powerUp .pll && s.mode ≠ .inReset) = true := by
    rcases hmode with h | h <;> simp [h]
  rw [exec_resetRelease, execResetRelease, if_neg hgo]
  dsimp only
  rw [if_neg (by simp [hpin])]
  rfl

theorem exec_resetRelease_of_low {s : State} (hmode : s.mode = .powerUp .pll ∨ s.mode = .inReset) (hpin : s.pins.resetN = false)
    (cl : BitVec 26) (eng : BitVec 80) (bad : List (Fin 16)) : exec (.resetRelease cl eng bad) s =
      .next { s.setWord F.clkState (s.word F.clkState ||| 0x7F) with mode := .resetPin, power := PowerPart.reset } := by
  have hgo : ¬ (s.mode ≠ .powerUp .pll && s.mode ≠ .inReset) = true := by
    rcases hmode with h | h <;> simp [h]
  rw [exec_resetRelease, execResetRelease, if_neg hgo]
  dsimp only
  rw [if_pos (by simp [hpin])]

theorem started_keeps (s : State) : (started s).opt = s.opt ∧ (started s).mode = .boot ∧ (started s).timeOn = true ∧
    (started s).time = (if s.timeOn = true then s.time else 0) ∧
    (started s).pins = { s.pins with ddrRstN := true, ethTx := true, vgdTx := true } ∧
    (started s).units = s.units ∧ (started s).mem = s.mem ∧ (started s).nvs = s.nvs := by
  unfold started
  cases h : s.timeOn <;> simp [takeFree, h]

theorem dieUp_started {d : Nat} (hd : d < 8) (s : State) : dieUp d (started s) = diePresent s.opt d := by
  have hnodup (opt : Opt) : ((List.range 8).filter fun d => diePresent opt d).Nodup := List.nodup_range.filter _
  have hopt : (s.setWord F.clkState (s.word F.clkState ||| 0x7F)).opt = s.opt := rfl
  unfold started dieUp
  extract_lets s1 s2
  have h2 : s2.opt = s.opt := by
    unfold s2
    split <;> rfl
  rw [flagAt_setF (by decide), testBit_sum_two_pow (hnodup _)]
  simp [hd, takeFree, h2, F.rstDieDieUp]

theorem failLinks_word {a : Nat} (hlink : a ≠ F.stcLink) (hfatal : a ≠ F.stcLinkFatal) (hfault : a ≠ F.stcFault)
    (bad : List (Fin 16)) (s : State) : (failLinks bad s).word a = s.word a := by
  refine foldl_keeps (fun s : State => s.word a) (fun s l => ?_) _ s
  have hmod (f : Link → Link) (t : State) : (modLink l f t).word a = t.word a := rfl
  split
  · rw [linkFatal, raise_word, hmod, setAt, setF_word_ne _ _ hlink, setAt, setF_word_ne _ _ hfatal, setF_word_ne _ _ hfault]
  · rfl

theorem sansTests_failLinks (bad : List (Fin 16)) (s : State) : sansTests (failLinks bad s) = sansTests s :=
  foldl_keeps sansTests (fun s l => by rw [apply_ite sansTests, sansTests_linkFatal, ite_self]) _ s

/-- Which links a fatal link leaves up. -/
theorem flagAt_linkFatal (l : Fin 16) (i : Nat) (s : State) :
    flagAt F.stcLinkUp i (linkFatal l s) = if i = l then false else flagAt F.stcLinkUp i s := by
  have hmod (f : Link → Link) (t : State) : flagAt F.stcLinkUp i (modLink l f t) = flagAt F.stcLinkUp i t := rfl
  have hraise (t : State) : flagAt F.stcLinkUp i (raise 0x2001 7 l 0 t) = flagAt F.stcLinkUp i t := rfl
  rw [linkFatal, hraise, hmod, flagAt_setAt (by decide) (by simp)]
  congr 1
  refine flagAt_congr ?_
  rw [setAt, setF_word_ne _ _ (by decide), setF_word_ne _ _ (by decide)]

/-- A link that fails to train is down. -/
theorem linkUp_failLinks {bad : List (Fin 16)} {l : Fin 16} {s : State} (hbad : l ∈ bad) (hends : (linkEnds s.opt l).isSome = true) :
    flagAt F.stcLinkUp l (failLinks bad s) = false := by
  have hopt (t : State) (k : Fin 16) : (if bad.contains k && (linkEnds t.opt k).isSome then linkFatal k t else t).opt = t.opt := by
    split
    · rw [eq_of_sansTests (sansTests_linkFatal k t)]
    · rfl
  have hstays (k : Fin 16) {t : State} (h : flagAt F.stcLinkUp l t = false) :
      flagAt F.stcLinkUp l (if bad.contains k && (linkEnds t.opt k).isSome then linkFatal k t else t) = false := by
    split
    · rw [flagAt_linkFatal, h, ite_self]
    · exact h
  refine foldl_reaches (P := fun t => t.opt = s.opt → flagAt F.stcLinkUp l t = false) (List.mem_finRange l) (fun t k h ht => ?_)
    (fun t ht => ?_) s (foldl_keeps State.opt hopt _ s)
  · exact hstays k (h ((hopt t k).symm.trans ht))
  · rw [hopt] at ht
    rw [if_pos (by rw [ht, hends, List.contains_iff_mem.mpr hbad]; rfl), flagAt_linkFatal, if_pos rfl]

/-- The clusters that are there and passed are shown. -/
theorem flagAt_takeClusterTest (cl : BitVec 26) (p : Fin 26) (s : State) :
    flagAt F.stcClusterOk p (takeClusterTest cl s) = (unitPresent s.opt (clusterUnit p) && cl.getLsbD p) := by
  have hnodup (q : Fin 26 → Bool) : (((List.finRange 26).filter q).map Fin.val).Nodup :=
    ((List.nodup_finRange 26).filter q).map Fin.val_injective
  have hsum (q : Fin 26 → Bool) : (((List.finRange 26).filter q).map fun p : Fin 26 => 2 ^ p.val).sum.testBit p = q p := by
    have hmap : ((List.finRange 26).filter q).map (fun p : Fin 26 => 2 ^ p.val) =
        (((List.finRange 26).filter q).map Fin.val).map (2 ^ ·) := by rw [List.map_map]; rfl
    rw [hmap, testBit_sum_two_pow (hnodup q)]
    simp [Fin.val_inj]
  have hraise (k : Fin 26) (t : State) : (raise 0x2006 6 k 0 (setF F.stcFaultClusterFailed 1 t)).word F.stcCluster =
      t.word F.stcCluster := setF_word_ne _ _ (by decide)
  unfold takeClusterTest
  extract_lets there t
  have hword : (((List.finRange 26).filter fun p => there p && !cl.getLsbD p).foldl (fun s (p : Fin 26) =>
      raise 0x2006 6 p 0 (setF F.stcFaultClusterFailed 1 s)) t).word F.stcCluster = t.word F.stcCluster :=
    foldl_keeps (fun s : State => s.word F.stcCluster) (fun s k => hraise k s) _ t
  rw [flagAt_congr hword, flagAt_setF (by decide), hsum]
  simp [there, F.stcClusterOk]

theorem word_takeClusterTest {a : Nat} (hok : a ≠ F.stcCluster) (hfault : a ≠ F.stcFault) (cl : BitVec 26) (s : State) :
    (takeClusterTest cl s).word a = s.word a := by
  unfold takeClusterTest
  dsimp only
  rw [foldl_keeps (fun s : State => s.word a) fun s p => by rw [raise_word, setF_word_ne _ _ hfault], setF_word_ne _ _ hok]

/-- What follows the self-test of the clusters. -/
def tested (eng : BitVec 80) (s : State) : State := checkCounter none (checkLifecycle (takeEngineTest eng s))

theorem sansTests_tested (eng : BitVec 80) (s : State) : sansTests (tested eng s) = sansTests s := by
  rw [tested, sansTests_checkCounter, sansTests_of_sansReport (sansReport_checkLifecycle _), sansTests_takeEngineTest]

theorem word_tested {a : Nat} (ha : a ∈ releasedWords) (eng : BitVec 80) (s : State) : (tested eng s).word a = s.word a := by
  rw [tested, word_checkCounter ha, word_checkLifecycle ha, word_takeEngineTest ha]

/-- What the release shows of the dies, the clusters and the links, and what it leaves as it was. -/
theorem resetRelease_starts {s : State} (hmode : s.mode = .powerUp .pll ∨ s.mode = .inReset) (hpin : s.pins.resetN = true)
    (cl : BitVec 26) (eng : BitVec 80) (bad : List (Fin 16)) :
    ∃ t, exec (.resetRelease cl eng bad) s = .next t ∧ t.mode = .boot ∧ t.timeOn = true ∧
      t.time = (if s.timeOn = true then s.time else 0) ∧ t.pins = { s.pins with ddrRstN := true, ethTx := true, vgdTx := true } ∧
      (∀ d, d < 8 → dieUp d t = diePresent s.opt d) ∧
      (∀ p : Fin 26, flagAt F.stcClusterOk p t = (unitPresent s.opt (clusterUnit p) && cl.getLsbD p)) ∧
      (∀ l ∈ bad, (linkEnds s.opt l).isSome = true → linkUp l t = false) ∧
      t.units = s.units ∧ t.mem = s.mem ∧ t.nvs = s.nvs := by
  obtain ⟨hopt, hboot, hon, htime, hpins, hunits, hmem, hnvs⟩ := started_keeps s
  have hlopt : (failLinks bad (started s)).opt = s.opt := by
    rw [eq_of_sansTests (sansTests_failLinks bad (started s))]
    exact hopt
  have hsans : sansTests (tested eng (takeClusterTest cl (failLinks bad (started s)))) = sansTests (started s) := by
    rw [sansTests_tested, sansTests_of_sansReport (sansReport_takeClusterTest ..), sansTests_failLinks]
  have hdies (d : Nat) (hd : d < 8) :
      dieUp d (tested eng (takeClusterTest cl (failLinks bad (started s)))) = diePresent s.opt d := by
    rw [← dieUp_started hd s]
    refine flagAt_congr ?_
    rw [word_tested (by decide), word_takeClusterTest (by decide) (by decide), failLinks_word (by decide) (by decide) (by decide)]
  have hclusters (p : Fin 26) : flagAt F.stcClusterOk p (tested eng (takeClusterTest cl (failLinks bad (started s)))) =
      (unitPresent s.opt (clusterUnit p) && cl.getLsbD p) := by
    rw [flagAt_congr (word_tested (by decide) ..), flagAt_takeClusterTest, hlopt]
  have hlinks (l : Fin 16) (hl : l ∈ bad) (he : (linkEnds s.opt l).isSome = true) :
      flagAt F.stcLinkUp l (tested eng (takeClusterTest cl (failLinks bad (started s)))) = false := by
    have hword := (word_tested (a := F.stcLink) (by decide) eng _).trans
      (word_takeClusterTest (by decide) (by decide) cl (failLinks bad (started s)))
    rw [flagAt_congr hword]
    exact linkUp_failLinks hl (hopt ▸ he)
  rw [exec_resetRelease_of_high hmode hpin]
  change ∃ t, Host.Outcome.next (tested eng (takeClusterTest cl (failLinks bad (started s)))) = .next t ∧ _
  have hframe := eq_of_sansTests hsans
  generalize tested eng (takeClusterTest cl (failLinks bad (started s))) = t at hframe hdies hclusters hlinks
  refine ⟨t, rfl, ?_, ?_, ?_, ?_, hdies, hclusters, fun l hl he => ?_, ?_, ?_, ?_⟩
  · rw [hframe]; exact hboot
  · rw [hframe]; exact hon
  · rw [hframe]; exact htime
  · rw [hframe]; exact hpins
  · unfold linkUp
    split
    · rfl
    · rw [hlinks l hl he]
      rfl
  · rw [hframe]; exact hunits
  · rw [hframe]; exact hmem
  · rw [hframe]; exact hnvs

theorem getF_modPower (f : Fld) (g : PowerPart → PowerPart) (s : State) : getF f (modPower g s) = getF f s := rfl

/-- The device has gone out in mode `m`: what a brown-out leaves, without the gate and the sequence's memory. -/
def wentOut (m : Mode) (s t : State) : Prop :=
  takenDown m s t ∧ t.mem = [] ∧ getF F.pwrCountBrownoutCount t = min 65535 (getF F.pwrCountBrownoutCount s + 1) ∧
    getF F.pwrFaultBrownout t = 1 ∧ t.pins.icv = false ∧ t.pins.vcEn = false ∧ t.pins.vqEn = false ∧ t.pins.adec = false

/-- The sequence's memory is no part of going out. -/
theorem wentOut_of_browned {m : Mode} {gate : Bool} {s t : State} (h : browned m gate s t) (f : PowerPart → PowerPart) :
    wentOut m s (modPower f t) ∧ (modPower f t).pins.inrGate = gate := by
  obtain ⟨hdown, hmem, hnum, hfault, hicv, hvc, hvq, hadec, hgate, -⟩ := h
  exact ⟨⟨hdown, hmem, hnum, hfault, hicv, hvc, hvq, hadec⟩, hgate⟩

theorem brownout_goesOut {s : State} (h0 : s.mode ≠ .unpowered) (h1 : s.mode ≠ .brownout .under)
    (h2 : s.mode ≠ .brownout .inputTrip) : ∃ t, exec .brownout s = .next t ∧ wentOut (.brownout .under) s t ∧
      getF F.pwrStateVinZone t = 0 ∧ t.pins.inrGate = true := by
  have h := brownOut_browned (.brownout .under) true s
  rw [exec_brownout_of_powered h0 h1 h2]
  generalize brownOut (.brownout .under) true s = t at h
  obtain ⟨hdown, hnum, hfault⟩ := browned_beside h 0
  obtain ⟨-, hmem, -, -, hicv, hvc, hvq, hadec, hgate, -⟩ := h
  exact ⟨_, rfl, ⟨hdown, hmem, hnum, hfault, hicv, hvc, hvq, hadec⟩, getF_setF_lt (by decide) (by decide) t, hgate⟩

/-- What an overcurrent trip shows and counts before the device goes out. -/
def tripNoted (s : State) : State :=
  raiseClocked 0x0105 0 0 0 (bump F.pwrCountInputTripCount (setF F.pwrFaultInputTrip 1 s))

theorem inputTrip_goesOut {s : State} (hpow : powered s = true) (hdone : flag F.pwrStateInrushDone s = true) :
    ∃ t, exec .inputOvercurrentTrip s = .next t ∧ wentOut (.brownout .inputTrip) s t ∧ getF F.pwrFaultInputTrip t = 1 ∧
      getF F.pwrCountInputTripCount t = min 65535 (getF F.pwrCountInputTripCount s + 1) ∧ t.pins.inrGate = false := by
  have hcount : getF F.pwrCountBrownoutCount (tripNoted s) = getF F.pwrCountBrownoutCount s := by
    rw [tripNoted, getF_congr (raiseClocked_word ..), bump, bumpBy, getF_setF_bits _ _ (.inl (by decide)), getF_setF_addr _ _ (by decide)]
  have hfault : getF F.pwrFaultInputTrip (tripNoted s) = 1 := by
    rw [tripNoted, getF_congr (raiseClocked_word ..), getF_congr (bump_word_ne (by decide) _)]
    exact getF_set_one (by decide) rfl s
  have htrips : getF F.pwrCountInputTripCount (tripNoted s) = min 65535 (getF F.pwrCountInputTripCount s + 1) := by
    rw [tripNoted, getF_congr (raiseClocked_word ..), getF_bump_same (by decide), getF_setF_addr _ _ (by decide)]
    rfl
  have hbrown := browned_of_eq (brownOut_browned (.brownout .inputTrip) false (tripNoted s)) (by simp [tripNoted]) hcount
  obtain ⟨hout, hgate⟩ := wentOut_of_browned hbrown fun p => { p with attempts := [] }
  refine ⟨_, exec_inputOvercurrentTrip_of_up hpow hdone, hout, ?_, ?_, hgate⟩
  · rw [getF_modPower, brownOut_fault rfl (by decide)]
    exact hfault
  · rw [getF_modPower, brownOut_tripCount]
    exact htrips

theorem vinOvTrip_goesOut {s : State} (h0 : s.mode ≠ .unpowered) (h1 : s.mode ≠ .brownout .overTrip)
    (hzone : getF F.pwrStateVinZone s = 4) : ∃ t, exec .vinOvTrip s = .next t ∧ wentOut (.brownout .overTrip) s t ∧
      getF F.pwrFaultVinOvTrip t = 1 ∧ t.pins.inrGate = false := by
  have hcount : getF F.pwrCountBrownoutCount (setF F.pwrFaultVinOvTrip 1 s) = getF F.pwrCountBrownoutCount s :=
    getF_setF_addr s 1 (by decide)
  have hbrown := browned_of_eq (brownOut_browned (.brownout .overTrip) false (setF F.pwrFaultVinOvTrip 1 s))
    (sansReport_setF _ _ s) hcount
  obtain ⟨hout, hgate⟩ := wentOut_of_browned hbrown fun p => { p with attempts := [] }
  refine ⟨_, exec_vinOvTrip_of_over h0 h1 hzone, hout, ?_, hgate⟩
  rw [getF_modPower, brownOut_fault rfl (by decide)]
  exact getF_set_one (by decide) rfl s

/-- What a rail fault makes of the row of attempts and of the mode. -/
theorem railFault_goesOut {r : Rail} {s : State} (hpow : powered s = true) (hrail : s.mode ≠ .railWait) (hinrush : s.mode ≠ .inrushWait)
    (hfda : r = .fda1 → s.opt = .zt8) : ∃ t, exec (.railFault r) s = .next t ∧
      wentOut (if railWaits s then .railWait else .brownout .rail) s t ∧ getF (railFld r) t = 1 ∧
      t.power.attempts = (railRow s).take 3 := by
  obtain ⟨hbrown, hfault⟩ := railFault_browned r (if railWaits s then .railWait else .brownout .rail) s
  rw [exec_railFault_of_up hpow hrail hinrush hfda]
  generalize brownOut _ true _ = t at hbrown hfault
  obtain ⟨hout, -⟩ := wentOut_of_browned hbrown fun p => { p with attempts := (railRow s).take 3, waiting := railWaits s }
  exact ⟨_, rfl, hout, hfault, rfl⟩

/-- Settles O48: what takes the device down by what a brown-out or a full reset leaves; the rest by the case of each command. -/
theorem brownoutsClocksAndPins : Obligations.BrownoutsClocksAndPins := by
  intro s up1 down out
  refine ⟨brownout_goesOut, inputTrip_goesOut, vinOvTrip_goesOut, fun r hpow hrail hinrush hfda => ?_,
    fun c h => brownoutEnd_ends h, fun c => ?_, fun k h => ?_, fun h => ?_, fun ns hns h => resetNAssert_resets hns h,
    fun ns hns => exec_resetNAssert_of_short hns s, ⟨fun h => ?_, fun h => ?_⟩, hubWatchdog_resets,
    fun cl eng bad hmode hpin => resetRelease_starts hmode hpin cl eng bad, fun cl eng bad hmode hpin => ?_⟩
  · intro early
    obtain ⟨t, ht, hout, hfault, hattempts⟩ := railFault_goesOut hpow hrail hinrush hfda
    refine ⟨t, _, ht, hout, hfault, fun h => ?_, fun h => ⟨?_, fun hwait => ?_, fun hwait hfew => ?_,
      fun hwait a c rest hrow => ?_⟩⟩
    · obtain ⟨hrow, hwait⟩ := railRow_of_late (Bool.eq_false_iff.mpr (mt (earlyIn_iff s).mp h))
      rw [hattempts, hrow, hwait]
      exact ⟨rfl, rfl⟩
    · rw [hattempts, railRow_of_early ((earlyIn_iff s).mpr h)]
    · rw [railWaits_of_waiting hwait]
      rfl
    · rw [railWaits_of_few hwait hfew]
      rfl
    · rw [railWaits_of_row ((earlyIn_iff s).mpr h) hwait hrow]
      simp
  · intro f
    have hf : f = lossFld c := by cases c <;> rfl
    rw [hf]
    exact ⟨fun h => exec_clockLoss_of_unwatched h c, fun k hwatch h => clockLoss_holds hwatch h c,
      fun hwatch h => clockLoss_takesDown hwatch h c⟩
  · exact ⟨_, exec_clockRestart_of_held h, rfl, getF_set_one (by decide) rfl { s with mode := .powerUp k }, rfl⟩
  · exact ⟨_, exec_clockRestart_of_down h, rfl,
      getF_set_one (by decide) rfl { s with mode := if s.pins.resetN then .inReset else .resetPin }, rfl⟩
  · rw [exec_resetNRelease_eq, if_pos h]
  · rw [exec_resetNRelease_eq, if_neg h]
  · exact ⟨_, exec_resetRelease_of_low hmode hpin cl eng bad, rfl, rfl, rfl⟩

end Sys2Proof.Machine
end

section
/-!
SUPPORT. A held step of device time, and the refutation of the statement about SYNC and device time (R72).
-/

namespace Sys2Proof.Machine

/-- A step whose slew has left nothing to correct leaves device time as it is (R72). -/
theorem stepTime_time_of_remaining_zero {s : State} (h : s.clock.remaining = 0) : (stepTime s).time = s.time := by
  unfold stepTime shiftTime
  rw [if_pos h]
  rfl

/-- A held step is made where it may be (R72). -/
theorem execTimeStep_of_mayStep {s : State} (hlive : live s = true) (hdef : s.clock.deferred = true)
    (hmay : mayStep s = true) : execTimeStep s = .next (stepTime s) := by
  simp [execTimeStep, hlive, hdef, hmay]

/-- A running state whose slew has corrected the offset of a held step, with device time one past what 64 bits count. -/
def overTimeState : State :=
  { State.reset with mode := .running, time := 2 ^ 64, clock := { State.reset.clock with deferred := true } }

/-- Refutes O30: the statement gives the device time of a held step modulo 2^64, but where the slew has left no offset the
step leaves device time as it stands, and `State.time` is a `Nat` that `overTimeState` sets to 2^64.  No run of the model
reaches such a device time: each move of it is reduced to 64 bits. -/
theorem not_synchronisingAndTime : ¬ Obligations.SynchronisingAndTime := by
  intro h
  have hlive : live overTimeState = true := by decide
  have hmay : mayStep overTimeState = true := by decide
  obtain ⟨t, ht, ⟨htime, -⟩, -⟩ := (h.2 overTimeState hlive).2.1 rfl hmay
  rw [exec_timeStep, execTimeStep_of_mayStep hlive rfl hmay] at ht
  cases ht
  rw [stepTime_time_of_remaining_zero rfl] at htime
  exact absurd htime (by decide)

end Sys2Proof.Machine
end

section
/-!
SUPPORT. The supervisory converter: the marked word of a result, what the hurdles make of it, and what a sequence leaves as it was
(R333, R336, R338–R340).
-/

namespace Sys2Proof.Machine

/-! ### The code and the word of a result -/

theorem rndRat_le_of_lt {q : Rat} {n : Int} (h : q < n + 1 / 2) : rndRat q ≤ n := by
  have : rndRat q < n + 1 := by
    unfold rndRat
    rw [Rat.floor_lt_iff]
    push_cast
    linarith
  omega

theorem le_rndRat_of_le {q : Rat} {n : Int} (h : (n : Rat) - 1 / 2 ≤ q) : n ≤ rndRat q := by
  unfold rndRat
  rw [Rat.le_floor_iff]
  linarith

/-- The code is the rounded one, limited to 16 bits (R333). -/
theorem sadcCode_code (v : Rat) : (sadcCode v).1 = max (-32768) (min 32767 (rndRat (v * 32768 / (5 / 2)))) := by
  have hv : v * 32768 / (5 / 2) = v * 65536 / 5 := by ring
  unfold sadcCode
  extract_lets l
  rw [hv]
  change _ = max (-32768) (min 32767 (rndRat l))
  split
  next hhigh =>
    have : 32767 ≤ rndRat l := le_rndRat_of_le (by norm_num at hhigh ⊢; linarith)
    simp only
    omega
  next hhigh =>
    split
    next hlow =>
      have : rndRat l ≤ -32768 := rndRat_le_of_lt (by norm_num at hlow ⊢; linarith)
      simp only
      omega
    next =>
      have : rndRat l ≤ 32767 := rndRat_le_of_lt (by norm_num at hhigh ⊢; linarith)
      simp only
      omega

/-- OVR says the rounded code is beyond 16 bits (R333). -/
theorem sadcCode_ovr (v : Rat) : (sadcCode v).2 =
    (decide (v * 32768 / (5 / 2) < -65537 / 2) || decide (65535 / 2 ≤ v * 32768 / (5 / 2))) := by
  have hv : v * 32768 / (5 / 2) = v * 65536 / 5 := by ring
  unfold sadcCode
  extract_lets l
  rw [hv]
  change _ = (decide (l < -65537 / 2) || decide (65535 / 2 ≤ l))
  split
  next h => simp [h]
  next h =>
    split
    next hlow => simp [hlow]
    next hlow => simp [hlow, h]

/-- The marked word of a result (R338). -/
def resultWord (ovr recov : Bool) (i pass : Nat) (code : Int) : Word :=
  BitVec.ofNat 32 (2 ^ 31 + b2n ovr * 2 ^ 30 + b2n recov * 2 ^ 29 + i * 2 ^ 24 + pass * 2 ^ 16 + enc 16 code)

section
variable (ovr recov : Bool) {i pass : Nat} (hi : i < 32) (hpass : pass < 256) (code : Int)
include hi hpass

theorem toNat_resultWord : (resultWord ovr recov i pass code).toNat =
    2 ^ 31 + b2n ovr * 2 ^ 30 + b2n recov * 2 ^ 29 + i * 2 ^ 24 + pass * 2 ^ 16 + enc 16 code := by
  have henc : enc 16 code < 2 ^ 16 := by unfold enc; omega
  have hb (b : Bool) : b2n b < 2 := by cases b <;> decide
  have h1 := hb ovr
  have h2 := hb recov
  rw [resultWord, BitVec.toNat_ofNat, Nat.mod_eq_of_lt (by omega)]

/-- The fields of a result's word (R338). -/
theorem resultWord_fields : bit (resultWord ovr recov i pass code) 31 = true ∧ bit (resultWord ovr recov i pass code) 30 = ovr ∧
    bit (resultWord ovr recov i pass code) 29 = recov ∧ bits (resultWord ovr recov i pass code) 28 24 = i ∧
    bits (resultWord ovr recov i pass code) 23 16 = pass ∧ bits (resultWord ovr recov i pass code) 15 0 = enc 16 code := by
  have henc : enc 16 code < 2 ^ 16 := by unfold enc; omega
  have hn := toNat_resultWord ovr recov hi hpass code
  simp only [bit, bits, BitVec.getLsbD, Nat.testBit_eq_decide_div_mod_eq, hn]
  refine ⟨?_, ?_, ?_, ?_, ?_, ?_⟩
  · cases ovr <;> cases recov <;> simp [b2n] <;> omega
  · cases ovr <;> cases recov <;> simp [b2n] <;> omega
  · cases ovr <;> cases recov <;> simp [b2n] <;> omega
  · cases ovr <;> cases recov <;> simp [b2n] <;> omega
  · cases ovr <;> cases recov <;> simp [b2n] <;> omega
  · cases ovr <;> cases recov <;> simp [b2n] <;> omega

end

/-- A limited code reads back from its field. -/
theorem dec_enc_of_limited {code : Int} (hlo : -32768 ≤ code) (hhi : code ≤ 32767) : dec 16 (enc 16 code) = code := by
  unfold dec enc
  omega

/-! ### What stands beside the converter -/

/-- The state without the converter, the status space and the events. -/
def sansSadc (s : State) : State := { s with sadc := SadcPart.reset, status := [], ev := EventPart.reset }

theorem eq_of_sansSadc {s t : State} (h : sansSadc t = sansSadc s) : t = { s with sadc := t.sadc, status := t.status, ev := t.ev } := by
  have hback (t : State) : t = { sansSadc t with sadc := t.sadc, status := t.status, ev := t.ev } := rfl
  rw [hback t, h]
  rfl

theorem eq_of_sansSadc_of_ev {s t : State} (h : sansSadc t = sansSadc s) (hev : t.ev = s.ev) :
    t = { s with sadc := t.sadc, status := t.status } := by
  have h := eq_of_sansSadc h
  rwa [hev] at h

theorem sansSadc_ite {c : Prop} [Decidable c] (s t : State) :
    sansSadc (if c then s else t) = if c then sansSadc s else sansSadc t := apply_ite sansSadc c s t

@[simp] theorem sansSadc_setWord (a : Nat) (w : Word) (s : State) : sansSadc (s.setWord a w) = sansSadc s := rfl

@[simp] theorem sansSadc_setF (f : Fld) (v : Nat) (s : State) : sansSadc (setF f v s) = sansSadc s := rfl

@[simp] theorem sansSadc_setAt (f : Fld) (i : Nat) (b : Bool) (s : State) : sansSadc (setAt f i b s) = sansSadc s := rfl

@[simp] theorem sansSadc_bump (f : Fld) (s : State) : sansSadc (bump f s) = sansSadc s := rfl

@[simp] theorem sansSadc_modSadc (f : SadcPart → SadcPart) (s : State) : sansSadc (modSadc f s) = sansSadc s := rfl

@[simp] theorem sansSadc_raiseLim (code kind index detail : Nat) (s : State) :
    sansSadc (raiseLim code kind index detail s) = sansSadc s :=
  show sansSadc (sansReport (raiseLim code kind index detail s)) = sansSadc (sansReport s) from
    congrArg sansSadc (sansReport_raiseLim ..)

@[simp] theorem sansSadc_showSadc (s : State) : sansSadc (showSadc s) = sansSadc s := by simp [showSadc]

@[simp] theorem sansSadc_endSequence (s : State) : sansSadc (endSequence s) = sansSadc s := by simp [endSequence]

@[simp] theorem sansSadc_startPass (next : Bool) (s : State) : sansSadc (startPass next s) = sansSadc s := by
  cases next <;> simp [startPass]

@[simp] theorem sansSadc_nextEntry (s : State) : sansSadc (nextEntry s) = sansSadc s := by
  unfold nextEntry
  extract_lets i last
  split
  · simp
  · split
    · simp
    · split
      · simp
      · split <;> simp

@[simp] theorem sansSadc_sadcOvr (ovr : Bool) (sub : Nat) (s : State) : sansSadc (sadcOvr ovr sub s) = sansSadc s := by
  cases ovr <;> simp [sadcOvr]

@[simp] theorem sansSadc_pushResult (i : Nat) (r : Word × Word) (s : State) : sansSadc (pushResult i r s) = sansSadc s := by
  simp [pushResult, sansSadc_ite]

@[simp] theorem sansSadc_takeHurdle (h : Fin 8) (i : Nat) (s : State) : sansSadc (takeHurdle h i s) = sansSadc s := by
  unfold takeHurdle
  split
  · split <;> simp
  · rfl

@[simp] theorem sansSadc_hurdle (h : Fin 8) (i : Nat) (code : Int) (recov : Bool) (s : State) :
    sansSadc (hurdle h i code recov s) = sansSadc s := by
  unfold hurdle
  extract_lets s1 a b inside n s2 was s3
  have h1 : sansSadc s1 = sansSadc s := sansSadc_takeHurdle ..
  split
  · exact h1
  · split
    · split
      · simp [s2, h1]
      · split <;> simp [s3, s2, h1]
    · simp [h1]

/-! ### Words and parts that stay -/

theorem modSadc_word (f : SadcPart → SadcPart) (a : Nat) (s : State) : (modSadc f s).word a = s.word a := rfl

section
variable {a : Nat} (hstate : a ≠ F.sadcState)
include hstate

theorem word_showSadc (s : State) : (showSadc s).word a = s.word a := by
  rw [showSadc, setF_word_ne _ _ hstate, setF_word_ne _ _ hstate, setF_word_ne _ _ hstate]

theorem word_endSequence (s : State) : (endSequence s).word a = s.word a := by
  rw [endSequence, setF_word_ne _ _ hstate, setF_word_ne _ _ hstate, setF_word_ne _ _ hstate, modSadc_word]

theorem word_startPass (next : Bool) (s : State) : (startPass next s).word a = s.word a := by
  unfold startPass
  extract_lets s1 held
  have h1 : s1.word a = s.word a := by
    unfold s1
    split <;> exact setF_word_ne _ _ hstate
  rw [setF_word_ne _ _ hstate, modSadc_word, h1]

theorem word_nextEntry (s : State) : (nextEntry s).word a = s.word a := by
  unfold nextEntry
  extract_lets i last
  split
  · exact word_endSequence hstate s
  · split
    · rw [setF_word_ne _ _ hstate, modSadc_word]
    · split
      · exact setF_word_ne _ _ hstate
      · split
        · exact word_startPass hstate true s
        · rw [setF_word_ne _ _ hstate, modSadc_word]

end

theorem word_takeHurdle {h : Fin 8} {a : Nat} (h0 : a ≠ F.sadcHCfg0 h) (h1 : a ≠ F.sadcHCfg1 h) (i : Nat) (s : State) :
    (takeHurdle h i s).word a = s.word a := by
  unfold takeHurdle
  split
  · split
    · rw [modSadc_word, word_setWord_ne _ h1, word_setWord_ne _ h0]
    · rfl
  · rfl

theorem setAt_word_ne {f : Fld} {a : Nat} (h : a ≠ f.addr) (i : Nat) (b : Bool) (s : State) : (setAt f i b s).word a = s.word a :=
  setF_word_ne s _ h

theorem word_hurdle {h : Fin 8} {a : Nat} (h0 : a ≠ F.sadcHCfg0 h) (h1 : a ≠ F.sadcHCfg1 h) (hshown : a ≠ F.sadcHurdle)
    (hev : a ≠ F.intEvtSuppressed) (i : Nat) (code : Int) (recov : Bool) (s : State) :
    (hurdle h i code recov s).word a = s.word a := by
  unfold hurdle
  extract_lets s1 c e inside n s2 was s3
  have hs1 : s1.word a = s.word a := word_takeHurdle h0 h1 i s
  have hs3 : s3.word a = s.word a := by
    unfold s3 s2
    rw [setAt_word_ne hshown, setAt_word_ne hshown, modSadc_word, hs1]
  split
  · exact hs1
  · split
    · split
      · exact hs1
      · split
        · exact hs3
        · rw [raiseLim_word hev, hs3]
    · rw [setAt_word_ne hshown, modSadc_word, hs1]

/-! ### What a hurdle looks at -/

/-- What one hurdle holds, shows and would report: the record that waits, the run count, the two words of its record, ACTIVE and
TRIPPED, whether its event is held back, and device time. -/
structure HurdleView where
  next : Option (Word × Word)
  runs : Nat
  cfg0 : Word
  cfg1 : Word
  active : Bool
  tripped : Bool
  held : Bool
  time : Nat

def hurdleView (h : Fin 8) (s : State) : HurdleView :=
  { next := s.sadc.next[h], runs := s.sadc.runs[h], cfg0 := s.word (F.sadcHCfg0 h), cfg1 := s.word (F.sadcHCfg1 h),
    active := flagAt F.sadcHurdleActive h s, tripped := flagAt F.sadcHurdleTripped h s,
    held := withheld 0x3202 11 (256 + h.val) s, time := s.time }

theorem hurdleView_setWord {h : Fin 8} {a : Nat} (h0 : F.sadcHCfg0 h ≠ a) (h1 : F.sadcHCfg1 h ≠ a) (h2 : F.sadcHurdle ≠ a)
    (w : Word) (s : State) : hurdleView h (s.setWord a w) = hurdleView h s := by
  have hsadc : (s.setWord a w).sadc = s.sadc := rfl
  have hheld : withheld 0x3202 11 (256 + h.val) (s.setWord a w) = withheld 0x3202 11 (256 + h.val) s := rfl
  have htime : (s.setWord a w).time = s.time := rfl
  unfold hurdleView
  rw [hsadc, hheld, htime, word_setWord_ne s h0, word_setWord_ne s h1,
    flagAt_congr (f := F.sadcHurdleActive) (word_setWord_ne s h2 w), flagAt_congr (f := F.sadcHurdleTripped) (word_setWord_ne s h2 w)]

theorem hurdleView_setF {h : Fin 8} {f : Fld} (h0 : F.sadcHCfg0 h ≠ f.addr) (h1 : F.sadcHCfg1 h ≠ f.addr)
    (h2 : F.sadcHurdle ≠ f.addr) (v : Nat) (s : State) : hurdleView h (setF f v s) = hurdleView h s :=
  hurdleView_setWord h0 h1 h2 _ s

theorem hurdleView_modSadc {h : Fin 8} {f : SadcPart → SadcPart} {s : State} (hnext : (f s.sadc).next[h] = s.sadc.next[h])
    (hruns : (f s.sadc).runs[h] = s.sadc.runs[h]) : hurdleView h (modSadc f s) = hurdleView h s := by
  have hback : hurdleView h (modSadc f s) = { hurdleView h s with next := (f s.sadc).next[h], runs := (f s.sadc).runs[h] } := rfl
  rw [hback, hnext, hruns]
  rfl

/-- The words of a hurdle lie apart from the words that the converter shows. -/
theorem sadcHCfg_lt (h : Fin 8) : 0x780040 ≤ F.sadcHCfg0 h ∧ F.sadcHCfg0 h + 4 = F.sadcHCfg1 h ∧ F.sadcHCfg1 h < 0x780080 := by
  have := h.isLt
  unfold F.sadcHCfg0 F.sadcHCfg1
  omega

theorem hurdleView_setF_out {h : Fin 8} {f : Fld} (hout : f.addr < 0x780040 ∨ 0x780080 ≤ f.addr) (h2 : F.sadcHurdle ≠ f.addr)
    (v : Nat) (s : State) : hurdleView h (setF f v s) = hurdleView h s := by
  have := sadcHCfg_lt h
  exact hurdleView_setF (by omega) (by omega) h2 v s

/-- An event of another kind or subject leaves withheld what was withheld. -/
theorem withheld_raiseLim_ne {c k i c' k' i' : Nat} (hne : c' ≠ c ∨ i' ≠ i) (detail : Nat) (s : State) :
    withheld c k i (raiseLim c' k' i' detail s) = withheld c k i s := by
  unfold raiseLim
  split
  · rfl
  · have hnew : (decide (c' = c) && decide (k' = k) && decide (i' = i)) = false := by
      rcases hne with h | h <;> simp [h]
    unfold withheld raise
    simp [hnew]

theorem hurdleView_raiseLim {h : Fin 8} {c k i : Nat} (hne : c ≠ 0x3202 ∨ i ≠ 256 + h.val) (detail : Nat) (s : State) :
    hurdleView h (raiseLim c k i detail s) = hurdleView h s := by
  have := sadcHCfg_lt h
  have hev : F.intEvtSuppressed < 0x780040 ∨ 0x780080 ≤ F.intEvtSuppressed := by decide
  have hsadc : (raiseLim c k i detail s).sadc = s.sadc := by unfold raiseLim; split <;> rfl
  have htime : (raiseLim c k i detail s).time = s.time := by unfold raiseLim; split <;> rfl
  have hword : (raiseLim c k i detail s).word F.sadcHurdle = s.word F.sadcHurdle := raiseLim_word (by decide) ..
  unfold hurdleView
  rw [hsadc, htime, withheld_raiseLim_ne hne, raiseLim_word (by omega), raiseLim_word (by omega),
    flagAt_congr (f := F.sadcHurdleActive) hword, flagAt_congr (f := F.sadcHurdleTripped) hword]

/-- What another hurdle shows leaves a hurdle as it was. -/
theorem hurdleView_setAt_ne {h k : Fin 8} (hne : k ≠ h) {f : Fld} (hf : f = F.sadcHurdleActive ∨ f = F.sadcHurdleTripped)
    (b : Bool) (s : State) : hurdleView h (setAt f k b s) = hurdleView h s := by
  have := sadcHCfg_lt h
  have haddr : f.addr = 0x780024 := by rcases hf with rfl | rfl <;> rfl
  have hk : h.val ≠ k.val := fun e => hne (Fin.ext e.symm)
  have hbits (g : Fld) (hg : g = F.sadcHurdleActive ∨ g = F.sadcHurdleTripped) :
      flagAt g h (setAt f k b s) = flagAt g h s := by
    by_cases hfg : g = f
    · have hlast : f.hi < 32 ∧ f.hi + 1 - f.lo = 8 := by rcases hf with rfl | rfl <;> decide
      rw [hfg, flagAt_setAt hlast.1 (fun _ => by omega), if_neg hk]
    · have hbeside : g.hi < f.lo ∨ f.hi < g.lo := by
        rcases hf with rfl | rfl <;> rcases hg with rfl | rfl <;> simp_all [F.sadcHurdleActive, F.sadcHurdleTripped]
      rw [flagAt, setAt, getF_setF_bits _ _ hbeside]
      rfl
  have hheld : withheld 0x3202 11 (256 + h.val) (setAt f k b s) = withheld 0x3202 11 (256 + h.val) s := rfl
  unfold hurdleView
  rw [setAt_sadc, setAt_time, hheld, setAt_word_ne (by omega), setAt_word_ne (by omega), hbits _ (.inl rfl), hbits _ (.inr rfl)]

theorem hurdleView_takeHurdle_ne {h k : Fin 8} (hne : k ≠ h) (i : Nat) (s : State) :
    hurdleView h (takeHurdle k i s) = hurdleView h s := by
  have hh := sadcHCfg_lt h
  have hk := sadcHCfg_lt k
  have hval : k.val ≠ h.val := fun e => hne (Fin.ext e)
  have hshown : F.sadcHurdle < 0x780040 := by decide
  have hcfg : F.sadcHCfg0 h ≠ F.sadcHCfg0 k ∧ F.sadcHCfg0 h ≠ F.sadcHCfg1 k ∧ F.sadcHCfg1 h ≠ F.sadcHCfg0 k ∧
      F.sadcHCfg1 h ≠ F.sadcHCfg1 k := by
    unfold F.sadcHCfg0 F.sadcHCfg1
    omega
  obtain ⟨h00, h01, h10, h11⟩ := hcfg
  unfold takeHurdle
  split
  next r1 r2 hr =>
    split
    · rw [hurdleView_modSadc (Vector.getElem_set_ne k.isLt h.isLt hval) (Vector.getElem_set_ne k.isLt h.isLt hval),
        hurdleView_setWord h01 h11 (by omega), hurdleView_setWord h00 h10 (by omega)]
    · rfl
  · rfl

/-- A hurdle leaves the others as they were. -/
theorem hurdleView_hurdle_ne {h k : Fin 8} (hne : k ≠ h) (i : Nat) (code : Int) (recov : Bool) (s : State) :
    hurdleView h (hurdle k i code recov s) = hurdleView h s := by
  have hval : k.val ≠ h.val := fun e => hne (Fin.ext e)
  have hset (n : Nat) (t : State) : hurdleView h (modSadc (fun e => { e with runs := e.runs.set k n }) t) = hurdleView h t :=
    hurdleView_modSadc rfl (Vector.getElem_set_ne k.isLt h.isLt hval)
  unfold hurdle
  extract_lets s1 c e inside n s2 was s3
  have hs1 : hurdleView h s1 = hurdleView h s := hurdleView_takeHurdle_ne hne i s
  have hs2 : hurdleView h s2 = hurdleView h s := (hset n s1).trans hs1
  have hs3 : hurdleView h s3 = hurdleView h s := by
    unfold s3
    rw [hurdleView_setAt_ne hne (.inl rfl), hurdleView_setAt_ne hne (.inr rfl), hs2]
  split
  · exact hs1
  · split
    · split
      · exact hs2
      · split
        · exact hs3
        · rw [hurdleView_raiseLim (.inr (by omega)), hs3]
    · rw [hurdleView_setAt_ne hne (.inl rfl), hset, hs1]

theorem hurdleView_showSadc (h : Fin 8) (s : State) : hurdleView h (showSadc s) = hurdleView h s := by
  simp (disch := decide) only [showSadc, hurdleView_setF_out]

theorem hurdleView_endSequence (h : Fin 8) (s : State) : hurdleView h (endSequence s) = hurdleView h s := by
  simp (disch := decide) only [endSequence, hurdleView_setF_out]
  exact hurdleView_modSadc rfl rfl

theorem hurdleView_startPass (h : Fin 8) (next : Bool) (s : State) : hurdleView h (startPass next s) = hurdleView h s := by
  unfold startPass
  extract_lets s1 held
  have h1 : hurdleView h s1 = hurdleView h s := by
    unfold s1
    split <;> exact hurdleView_setF_out (by decide) (by decide) _ s
  rw [hurdleView_setF_out (by decide) (by decide)]
  exact (hurdleView_modSadc rfl rfl).trans h1

theorem hurdleView_nextEntry (h : Fin 8) (s : State) : hurdleView h (nextEntry s) = hurdleView h s := by
  unfold nextEntry
  extract_lets i last
  split
  · exact hurdleView_endSequence h s
  · split
    · rw [hurdleView_setF_out (by decide) (by decide)]
      exact hurdleView_modSadc rfl rfl
    · split
      · exact hurdleView_setF_out (by decide) (by decide) _ s
      · split
        · exact hurdleView_startPass h true s
        · rw [hurdleView_setF_out (by decide) (by decide)]
          exact hurdleView_modSadc rfl rfl

theorem hurdleView_sadcOvr (h : Fin 8) (ovr : Bool) (sub : Nat) (s : State) : hurdleView h (sadcOvr ovr sub s) = hurdleView h s := by
  unfold sadcOvr
  extract_lets s1
  have h1 : hurdleView h s1 = hurdleView h s := hurdleView_modSadc rfl rfl
  split
  · rw [hurdleView_raiseLim (.inl (by decide)), hurdleView_setF_out (by decide) (by decide), bump, bumpBy,
      hurdleView_setF_out (by decide) (by decide), h1]
  · exact h1

theorem hurdleView_pushResult (h : Fin 8) (i : Nat) (r : Word × Word) (s : State) :
    hurdleView h (pushResult i r s) = hurdleView h s := by
  unfold pushResult
  extract_lets full s1
  have h1 : hurdleView h s1 = hurdleView h s := hurdleView_modSadc rfl rfl
  split
  · rw [hurdleView_raiseLim (.inl (by decide)), hurdleView_setF_out (by decide) (by decide), bump, bumpBy,
      hurdleView_setF_out (by decide) (by decide), h1]
  · exact h1

/-! ### The result that a hurdle examines (R340) -/

/-- Is the hurdle enabled on entry `i`? -/
def HurdleView.on (x : HurdleView) (i : Nat) : Bool := bit x.cfg0 24 && bits x.cfg0 22 18 = i

/-- Does the code meet the hurdle's condition? -/
def HurdleView.meets (x : HurdleView) (code : Int) : Bool :=
  decide (dec 16 (bits x.cfg1 15 0) ≤ code ∧ code ≤ dec 16 (bits x.cfg1 31 16)) = bit x.cfg0 23

/-- Does the result bring the run count to RUN? -/
def HurdleView.hit (x : HurdleView) (i : Nat) (code : Int) (recov : Bool) : Bool :=
  x.on i && !recov && x.meets code && x.runs + 1 = bits x.cfg0 17 14

/-- What a result leaves a hurdle with on which no record waits. -/
structure Examined (h : Fin 8) (i : Nat) (code : Int) (recov : Bool) (x : HurdleView) (t : State) : Prop where
  runs : t.sadc.runs[h] = if !(x.on i && !recov) then x.runs else if x.meets code then x.runs + 1 else 0
  active : flagAt F.sadcHurdleActive h t = if x.on i && !recov && !x.meets code then false else x.hit i code recov || x.active
  tripped : flagAt F.sadcHurdleTripped h t = (x.hit i code recov || x.tripped)
  event : x.hit i code recov = true → x.active = false → x.held = false → ⟨0x3202, 11, 256 + h.val, 0, x.time⟩ ∈ t.ev.queue

theorem flagAt_active_setAt_tripped (h k : Fin 8) (b : Bool) (s : State) :
    flagAt F.sadcHurdleActive h (setAt F.sadcHurdleTripped k b s) = flagAt F.sadcHurdleActive h s := by
  rw [flagAt, setAt, getF_setF_bits _ _ (by decide)]
  rfl

theorem flagAt_tripped_setAt_active (h k : Fin 8) (b : Bool) (s : State) :
    flagAt F.sadcHurdleTripped h (setAt F.sadcHurdleActive k b s) = flagAt F.sadcHurdleTripped h s := by
  rw [flagAt, setAt, getF_setF_bits _ _ (by decide)]
  rfl

/-- Setting a hurdle's run count. -/
def setRuns (h : Fin 8) (n : Nat) (s : State) : State := modSadc (fun e => { e with runs := e.runs.set h n }) s

theorem setRuns_runs (h : Fin 8) (n : Nat) (s : State) : (setRuns h n s).sadc.runs[h.val] = n := Vector.getElem_set_self h.isLt

theorem flagAt_setRuns (f : Fld) (h : Fin 8) (n i : Nat) (s : State) : flagAt f i (setRuns h n s) = flagAt f i s := rfl

theorem on_hurdleView (h : Fin 8) (i : Nat) (s : State) : (hurdleView h s).on i =
    (bit (s.word (F.sadcHCfg0 h)) 24 && decide (bits (s.word (F.sadcHCfg0 h)) 22 18 = i)) := rfl

theorem meets_hurdleView (h : Fin 8) (code : Int) (s : State) : (hurdleView h s).meets code =
    decide (decide (dec 16 (bits (s.word (F.sadcHCfg1 h)) 15 0) ≤ code ∧ code ≤ dec 16 (bits (s.word (F.sadcHCfg1 h)) 31 16)) =
      bit (s.word (F.sadcHCfg0 h)) 23) := rfl

theorem hurdle_of_next_none {h : Fin 8} {s : State} (hnext : s.sadc.next[h] = none) (i : Nat) (code : Int) (recov : Bool) :
    hurdle h i code recov s =
      if ((hurdleView h s).on i && !recov) = false then s
      else if (hurdleView h s).meets code = true then
        if (hurdleView h s).runs + 1 ≠ bits (hurdleView h s).cfg0 17 14 then setRuns h ((hurdleView h s).runs + 1) s
        else
          let t := setAt F.sadcHurdleActive h true (setAt F.sadcHurdleTripped h true (setRuns h ((hurdleView h s).runs + 1) s))
          if (hurdleView h s).active = true then t else raiseLim 0x3202 0xB (256 + h) 0 t
      else setAt F.sadcHurdleActive h false (setRuns h 0 s) := by
  have htake : takeHurdle h i s = s := by rw [takeHurdle, hnext]
  have hon : (!bit (s.word (F.sadcHCfg0 h)) 24 || bits (s.word (F.sadcHCfg0 h)) 22 18 ≠ i || recov) =
      !((hurdleView h s).on i && !recov) := by
    simp [on_hurdleView]
  have hmeets : ((decide (dec 16 (bits (s.word (F.sadcHCfg1 h)) 15 0) ≤ code) &&
      decide (code ≤ dec 16 (bits (s.word (F.sadcHCfg1 h)) 31 16))) = bit (s.word (F.sadcHCfg0 h)) 23) ↔
      (hurdleView h s).meets code = true := by
    simp [meets_hurdleView]
  unfold hurdle
  simp only [htake, hon, hmeets, Bool.not_eq_true']
  rfl

theorem raiseLim_sadc (c k i detail : Nat) (s : State) : (raiseLim c k i detail s).sadc = s.sadc := by
  unfold raiseLim
  split <;> rfl

theorem flagAt_raiseLim {f : Fld} (hf : f.addr ≠ F.intEvtSuppressed) (j c k i detail : Nat) (s : State) :
    flagAt f j (raiseLim c k i detail s) = flagAt f j s := flagAt_congr (raiseLim_word hf ..)

/-- An event that is not held back is recorded. -/
theorem mem_queue_raiseLim {c k i : Nat} {s : State} (h : withheld c k i s = false) (detail : Nat) :
    ⟨c, k, i, detail, s.time⟩ ∈ (raiseLim c k i detail s).ev.queue := by
  rw [raiseLim, h]
  exact List.mem_append_right _ (List.mem_singleton_self _)

theorem hurdle_examined {h : Fin 8} {s : State} (hnext : s.sadc.next[h] = none) (i : Nat) (code : Int) (recov : Bool) :
    Examined h i code recov (hurdleView h s) (hurdle h i code recov s) := by
  have hruns : (hurdleView h s).runs = s.sadc.runs[h] := rfl
  have hact : (hurdleView h s).active = flagAt F.sadcHurdleActive h s := rfl
  have htrip : (hurdleView h s).tripped = flagAt F.sadcHurdleTripped h s := rfl
  rw [hurdle_of_next_none hnext]
  generalize hx : hurdleView h s = x at hruns hact htrip ⊢
  split
  next hoff =>
    have hhit : x.hit i code recov = false := by simp [HurdleView.hit, hoff]
    constructor <;> simp [hoff, hhit, hruns, hact, htrip]
  next hon =>
    rw [Bool.not_eq_false] at hon
    split
    next hmeets =>
      have hhit : x.hit i code recov = decide (x.runs + 1 = bits x.cfg0 17 14) := by simp [HurdleView.hit, hon, hmeets]
      split
      next hfew =>
        rw [decide_eq_false hfew] at hhit
        constructor <;> simp [hon, hmeets, hhit, hact, htrip, setRuns_runs, flagAt_setRuns]
      next hfull =>
        rw [decide_eq_true (not_not.mp hfull)] at hhit
        extract_lets t
        have hruns' : t.sadc.runs[h] = x.runs + 1 := setRuns_runs h _ s
        have hact' : flagAt F.sadcHurdleActive h t = true := by
          unfold t
          rw [flagAt_setAt (by decide) (fun _ => h.isLt), if_pos rfl]
        have htrip' : flagAt F.sadcHurdleTripped h t = true := by
          unfold t
          rw [flagAt_tripped_setAt_active, flagAt_setAt (by decide) (fun _ => h.isLt), if_pos rfl]
        split
        next hwas =>
          constructor <;> simp [hon, hmeets, hhit, hruns', hact', htrip', hwas]
        next hwas =>
          constructor
          · simp [raiseLim_sadc, hon, hmeets, hruns']
          · rw [flagAt_raiseLim (by decide), hact', hhit]
            simp [hon, hmeets]
          · rw [flagAt_raiseLim (by decide), htrip', hhit]
            rfl
          · intro _ _ hheld
            rw [← hx] at hheld ⊢
            exact mem_queue_raiseLim (s := t) hheld 0
    next hmeets =>
      rw [Bool.not_eq_true] at hmeets
      have hhit : x.hit i code recov = false := by simp [HurdleView.hit, hmeets]
      constructor
      · simp [hon, hmeets, setRuns_runs]
      · rw [flagAt_setAt (by decide) (by simp), if_pos rfl]
        simp [hon, hmeets]
      · rw [flagAt_tripped_setAt_active, flagAt_setRuns, hhit, htrip]
        rfl
      · simp [hhit]

/-! ### All hurdles -/

def hurdles (i : Nat) (code : Int) (recov : Bool) (s : State) : State :=
  (List.finRange 8).foldl (fun s h => hurdle h i code recov s) s

theorem hurdleView_foldl_hurdle {h : Fin 8} {l : List (Fin 8)} (hl : h ∉ l) (i : Nat) (code : Int) (recov : Bool) (s : State) :
    hurdleView h (l.foldl (fun s k => hurdle k i code recov s) s) = hurdleView h s := by
  induction l generalizing s with
  | nil => rfl
  | cons k l ih =>
    rw [List.mem_cons, not_or] at hl
    rw [List.foldl_cons, ih hl.2, hurdleView_hurdle_ne (Ne.symm hl.1)]

theorem mem_queue_raiseLim_of_mem {r : EvRec} {s : State} (hr : r ∈ s.ev.queue) (c k i detail : Nat) :
    r ∈ (raiseLim c k i detail s).ev.queue := by
  unfold raiseLim
  split
  · exact hr
  · exact List.mem_append_left _ hr

theorem takeHurdle_ev (h : Fin 8) (i : Nat) (s : State) : (takeHurdle h i s).ev = s.ev := by
  unfold takeHurdle
  split
  · split <;> rfl
  · rfl

theorem mem_queue_hurdle {r : EvRec} {s : State} (hr : r ∈ s.ev.queue) (h : Fin 8) (i : Nat) (code : Int) (recov : Bool) :
    r ∈ (hurdle h i code recov s).ev.queue := by
  have htake : r ∈ (takeHurdle h i s).ev.queue := by rwa [takeHurdle_ev]
  unfold hurdle
  extract_lets s1 c e inside n s2 was s3
  split
  · exact htake
  · split
    · split
      · exact htake
      · split
        · exact htake
        · exact mem_queue_raiseLim_of_mem (s := s3) htake ..
    · exact htake

theorem mem_queue_foldl_hurdle {r : EvRec} (l : List (Fin 8)) (i : Nat) (code : Int) (recov : Bool) {s : State}
    (hr : r ∈ s.ev.queue) : r ∈ (l.foldl (fun s k => hurdle k i code recov s) s).ev.queue := by
  induction l generalizing s with
  | nil => exact hr
  | cons k l ih => exact ih (mem_queue_hurdle hr k i code recov)

/-- What a hurdle was left with stays where its view, its run count and the events reported do. -/
theorem Examined.mono {h : Fin 8} {i : Nat} {code : Int} {recov : Bool} {x : HurdleView} {t u : State}
    (ht : Examined h i code recov x t) (hview : hurdleView h u = hurdleView h t)
    (hev : ∀ r ∈ t.ev.queue, r ∈ u.ev.queue) : Examined h i code recov x u where
  runs := (congrArg HurdleView.runs hview).trans ht.runs
  active := (congrArg HurdleView.active hview).trans ht.active
  tripped := (congrArg HurdleView.tripped hview).trans ht.tripped
  event h1 h2 h3 := hev _ (ht.event h1 h2 h3)

/-- Each hurdle on which no record waits examines the result, whichever the others do (R340). -/
theorem hurdles_examined {h : Fin 8} {s : State} (hnext : s.sadc.next[h] = none) (i : Nat) (code : Int) (recov : Bool) :
    Examined h i code recov (hurdleView h s) (hurdles i code recov s) := by
  obtain ⟨before, after, hsplit⟩ := List.append_of_mem (List.mem_finRange h)
  have hnodup : (before ++ h :: after).Nodup := hsplit ▸ List.nodup_finRange 8
  obtain ⟨hb, ha⟩ : h ∉ before ∧ h ∉ after := by
    rw [List.nodup_append, List.nodup_cons] at hnodup
    exact ⟨fun hm => hnodup.2.2 h hm h (List.mem_cons_self ..) rfl, hnodup.2.1.1⟩
  have hview := hurdleView_foldl_hurdle hb i code recov s
  unfold hurdles
  rw [hsplit, List.foldl_append, List.foldl_cons]
  generalize before.foldl (fun s k => hurdle k i code recov s) s = s1 at hview ⊢
  have hnext1 : s1.sadc.next[h] = none := (congrArg HurdleView.next hview).trans hnext
  rw [← hview]
  exact (hurdle_examined hnext1 i code recov).mono (hurdleView_foldl_hurdle ha i code recov _)
    fun r hr => mem_queue_foldl_hurdle after i code recov hr

theorem sansSadc_hurdles (i : Nat) (code : Int) (recov : Bool) (s : State) : sansSadc (hurdles i code recov s) = sansSadc s :=
  foldl_keeps sansSadc (fun s h => sansSadc_hurdle h i code recov s) _ s

theorem ring_takeHurdle (h : Fin 8) (i : Nat) (s : State) : (takeHurdle h i s).sadc.ring = s.sadc.ring := by
  unfold takeHurdle
  split
  · split <;> rfl
  · rfl

theorem ring_hurdle (h : Fin 8) (i : Nat) (code : Int) (recov : Bool) (s : State) :
    (hurdle h i code recov s).sadc.ring = s.sadc.ring := by
  have htake := ring_takeHurdle h i s
  unfold hurdle
  extract_lets s1 c e inside n s2 was s3
  split
  · exact htake
  · split
    · split
      · exact htake
      · split
        · exact htake
        · rw [raiseLim_sadc]
          exact htake
    · exact htake

theorem ring_hurdles (i : Nat) (code : Int) (recov : Bool) (s : State) : (hurdles i code recov s).sadc.ring = s.sadc.ring :=
  foldl_keeps (fun s : State => s.sadc.ring) (fun s h => ring_hurdle h i code recov s) _ s

/-! ### The end of a sequence conversion (R338) -/

/-- The code and OVR of the entry that ends. -/
def entryCode (a b : Rat) (s : State) : Int × Bool :=
  sadcCode (entryVolts (s.word (F.sadcSeq (getF F.sadcStateEntry s))) a b)

/-- The word of its result. -/
def entryWord (a b : Rat) (s : State) : Word :=
  resultWord (entryCode a b s).2 (sadcRecov s) (getF F.sadcStateEntry s) (getF F.sadcStatePass s) (entryCode a b s).1

/-- The state that the hurdles find: the result stands in LAST and in the buffer. -/
def resultKept (a b : Rat) (s : State) : State :=
  pushResult (getF F.sadcStateEntry s) (entryWord a b s, BitVec.ofNat 32 (timeAgo 700 s))
    ((sadcOvr (entryCode a b s).2 (getF F.sadcStateEntry s) s).setWord (F.sadcLast (getF F.sadcStateEntry s)) (entryWord a b s))

/-- The state when the entry has ended. -/
def entryEnded (a b : Rat) (s : State) : State :=
  showSadc (nextEntry (hurdles (getF F.sadcStateEntry s) (entryCode a b s).1 (sadcRecov s) (resultKept a b s)))

theorem exec_sadcEntryEnd_of_due {a b : Rat} {s : State} (hclk : clocked s = true) (hentry : s.sadc.entry = true)
    (hinj : s.sadc.inj = none) : exec (.sadcEntryEnd a b) s =
      .next (entryEnded a b s) := by
  have hdue : (clocked s && s.sadc.entry && s.sadc.inj.isNone) = true := by rw [hclk, hentry, hinj]; rfl
  rw [exec_sadcEntryEnd, execSadcEntryEnd, if_pos hdue]
  rfl

theorem entry_lt (s : State) : getF F.sadcStateEntry s < 32 :=
  Nat.lt_of_le_of_lt (getF_le_topF F.sadcStateEntry s) (by decide)

theorem pass_lt (s : State) : getF F.sadcStatePass s < 256 :=
  Nat.lt_of_le_of_lt (getF_le_topF F.sadcStatePass s) (by decide)

theorem entryWord_fields (a b : Rat) (s : State) : bit (entryWord a b s) 31 = true ∧ bit (entryWord a b s) 30 = (entryCode a b s).2 ∧
    bit (entryWord a b s) 29 = sadcRecov s ∧ bits (entryWord a b s) 28 24 = getF F.sadcStateEntry s ∧
    bits (entryWord a b s) 23 16 = getF F.sadcStatePass s ∧ dec 16 (bits (entryWord a b s) 15 0) = (entryCode a b s).1 := by
  obtain ⟨h31, h30, h29, hentry, hpass, hcode⟩ :=
    resultWord_fields (entryCode a b s).2 (sadcRecov s) (entry_lt s) (pass_lt s) (entryCode a b s).1
  refine ⟨h31, h30, h29, hentry, hpass, ?_⟩
  have hlim := sadcCode_code (entryVolts (s.word (F.sadcSeq (getF F.sadcStateEntry s))) a b)
  rw [entryWord, hcode]
  refine dec_enc_of_limited ?_ ?_ <;> rw [entryCode, hlim] <;> omega

theorem word_pushResult {x : Nat} (hfault : x ≠ F.sadcFault) (hcount : x ≠ F.sadcOverwrite) (hev : x ≠ F.intEvtSuppressed)
    (i : Nat) (r : Word × Word) (s : State) : (pushResult i r s).word x = s.word x := by
  unfold pushResult
  extract_lets full s1
  split
  · rw [raiseLim_word hev, setF_word_ne _ _ hfault, bump_word_ne hcount]
    rfl
  · rfl

theorem ring_pushResult (i : Nat) (r : Word × Word) (s : State) : (pushResult i r s).sadc.ring =
    (if 64 ≤ s.sadc.ring.length then s.sadc.ring.drop 1 else s.sadc.ring) ++ [r] := by
  unfold pushResult
  extract_lets full s1
  have h1 : s1.sadc.ring = (if 64 ≤ s.sadc.ring.length then s.sadc.ring.drop 1 else s.sadc.ring) ++ [r] := by
    simp [s1, full, modSadc]
  split
  · rw [raiseLim_sadc]
    exact h1
  · exact h1

theorem ring_sadcOvr (ovr : Bool) (sub : Nat) (s : State) : (sadcOvr ovr sub s).sadc.ring = s.sadc.ring := by
  unfold sadcOvr
  split
  · rw [raiseLim_sadc]
    rfl
  · rfl

theorem ring_nextEntry (s : State) : (nextEntry s).sadc.ring = s.sadc.ring := by
  unfold nextEntry
  extract_lets i last
  split
  · rfl
  · split
    · rfl
    · split
      · rfl
      · split <;> rfl

/-- The words of LAST lie apart from what the converter writes besides. -/
theorem word_hurdles_last {x : Nat} (hlo : 0x780100 ≤ x) (hhi : x < 0x780180) (i : Nat) (code : Int) (recov : Bool) (s : State) :
    (hurdles i code recov s).word x = s.word x := by
  have hshown : F.sadcHurdle < 0x780100 := by decide
  have hev : 0x780180 ≤ F.intEvtSuppressed := by decide
  refine foldl_keeps (fun s : State => s.word x) (fun s h => ?_) _ s
  have := sadcHCfg_lt h
  exact word_hurdle (by omega) (by omega) (by omega) (by omega) i code recov s

/-- LAST of the entry holds the word of its result (R338). -/
theorem entryEnd_last (a b : Rat) (s : State) :
    (entryEnded a b s).word
      (F.sadcLast (getF F.sadcStateEntry s)) = entryWord a b s := by
  have hi := entry_lt s
  have haddr : 0x780100 ≤ F.sadcLast (getF F.sadcStateEntry s) ∧ F.sadcLast (getF F.sadcStateEntry s) < 0x780180 := by
    unfold F.sadcLast
    omega
  have hne (y : Nat) (hy : y < 0x780100 ∨ 0x780180 ≤ y) : F.sadcLast (getF F.sadcStateEntry s) ≠ y := by omega
  rw [entryEnded, word_showSadc (hne _ (by decide)), word_nextEntry (hne _ (by decide)), word_hurdles_last haddr.1 haddr.2, resultKept,
    word_pushResult (hne _ (by decide)) (hne _ (by decide)) (hne _ (by decide)), word_setWord_same]

/-- The buffer ends with the result and the device time of its sampling (R338, R339). -/
theorem entryEnd_ring (a b : Rat) (s : State) :
    (entryEnded a b s).sadc.ring =
      (if 64 ≤ s.sadc.ring.length then s.sadc.ring.drop 1 else s.sadc.ring) ++
        [(entryWord a b s, BitVec.ofNat 32 (timeAgo 700 s))] := by
  have hshow (t : State) : (showSadc t).sadc = t.sadc := rfl
  have hset (x : Nat) (w : Word) (t : State) : (t.setWord x w).sadc = t.sadc := rfl
  rw [entryEnded, hshow, ring_nextEntry, ring_hurdles, resultKept, ring_pushResult, hset, ring_sadcOvr]

theorem hurdleView_resultKept (h : Fin 8) (a b : Rat) (s : State) : hurdleView h (resultKept a b s) = hurdleView h s := by
  have hh := sadcHCfg_lt h
  have hshown : F.sadcHurdle < 0x780100 := by decide
  have hlast : 0x780100 ≤ F.sadcLast (getF F.sadcStateEntry s) := Nat.le_add_right ..
  rw [resultKept, hurdleView_pushResult, hurdleView_setWord (by omega) (by omega) (by omega), hurdleView_sadcOvr]

theorem nextEntry_ev (s : State) : (nextEntry s).ev = s.ev := by
  unfold nextEntry
  extract_lets i last
  split
  · rfl
  · split
    · rfl
    · split
      · rfl
      · split <;> rfl

/-- A hurdle on which no record waits has examined the result when the entry has ended (R340). -/
theorem entryEnd_examined {h : Fin 8} {s : State} (hnext : s.sadc.next[h] = none) (a b : Rat) :
    Examined h (getF F.sadcStateEntry s) (entryCode a b s).1 (sadcRecov s) (hurdleView h s)
      (entryEnded a b s) := by
  have hshow (t : State) : (showSadc t).ev = t.ev := rfl
  have hview := hurdleView_resultKept h a b s
  rw [← hview]
  refine (hurdles_examined ?_ _ _ _).mono (by rw [entryEnded, hurdleView_showSadc, hurdleView_nextEntry]) fun r hr => ?_
  · exact (congrArg HurdleView.next hview).trans hnext
  · rwa [entryEnded, hshow, nextEntry_ev]

theorem sansSadc_resultKept (a b : Rat) (s : State) : sansSadc (resultKept a b s) = sansSadc s := by
  simp [resultKept]

/-- The low word of the device time at which a conversion that ends now was sampled. -/
theorem ofNat_timeAgo (ns : Nat) (s : State) : BitVec.ofNat 32 (timeAgo ns s) = BitVec.ofInt 32 ((s.time : Int) - ns -
    ((s.clock.shifts.filter fun y => decide (10 * s.periph ≤ 10 * y.1 + ns)).map (·.2)).sum) := by
  apply BitVec.eq_of_toNat_eq
  rw [BitVec.toNat_ofNat, BitVec.toNat_ofInt, timeAgo, enc]
  omega

/-! ### Gaps and reads -/

theorem injYield_of_none {s : State} (h : ∀ q, s.sadc.inj = some q → s.sadc.injAt ≠ s.periph) : injYield s = s := by
  unfold injYield
  split
  next q hq => rw [if_neg (h q hq)]
  next => rfl

theorem flatMap_take_pairs (n : Nat) (ring : List (Word × Word)) :
    ((ring.take n).flatMap fun r => [r.1, r.2]) = (ring.flatMap fun r => [r.1, r.2]).take (2 * n) := by
  induction ring generalizing n with
  | nil => simp
  | cons r ring ih =>
    cases n with
    | zero => rfl
    | succ n => simp [ih, Nat.mul_add]

/-- Words beyond those that fit make no difference. -/
theorem fitWords_take (n : Nat) (ws : List Word) : fitWords n (ws.take n) = fitWords n ws := by
  have hlen : n - min n ws.length = n - ws.length := by omega
  simp [fitWords, List.take_append, hlen]

theorem showSadc_ev (s : State) : (showSadc s).ev = s.ev := rfl

theorem showSadc_sadc (s : State) : (showSadc s).sadc = s.sadc := rfl

/-- A gap that ends starts entry 0 of the next pass (R336). -/
theorem exec_sadcGapEnd_of_due {s : State} (hclk : clocked s = true) (hstart : flag F.sadcStateStart s = true)
    (hgap : s.sadc.gap = true) (htrim : s.sadc.trim = .off) (hinj : ∀ q, s.sadc.inj = some q → s.sadc.injAt ≠ s.periph) :
    exec .sadcGapEnd s = .next (showSadc (startPass true s)) := by
  rw [exec_sadcGapEnd, execSadcGapEnd, if_pos (by rw [hclk, hstart, hgap, htrim]; rfl), injYield_of_none hinj]

theorem startPass_true_sadc {s : State} (htrim : s.sadc.trim = .off) :
    (startPass true s).sadc = { s.sadc with entry := true, gap := false, stopping := false } := by
  simp [startPass, modSadc, htrim]

theorem startPass_ev (next : Bool) (s : State) : (startPass next s).ev = s.ev := by
  cases next <;> rfl

theorem startPass_shows (s : State) : getF F.sadcStateEntry (showSadc (startPass true s)) = 0 ∧
    getF F.sadcStatePass (showSadc (startPass true s)) = (getF F.sadcStatePass s + 1) % 256 := by
  have hmod (f : Fld) (g : SadcPart → SadcPart) (t : State) : getF f (modSadc g t) = getF f t := rfl
  constructor
  · rw [showSadc, getF_setF_bits _ _ (by decide), getF_setF_bits _ _ (by decide), getF_setF_bits _ _ (by decide), startPass]
    rw [getF_setF_same _ _ _ (by decide)]
    rfl
  · rw [showSadc, getF_setF_bits _ _ (by decide), getF_setF_bits _ _ (by decide), getF_setF_bits _ _ (by decide), startPass]
    rw [getF_setF_bits _ _ (by decide), hmod, if_pos rfl, getF_setF_same _ _ _ (by decide)]
    exact Nat.mod_mod ..

/-! ### A read that lands -/

/-- A read from an endpoint whose dies are reached brings the words of the endpoint into the window (R246, R250). -/
theorem dataIn_lands {i : Instr} {u : UnitId} {t : Tag} {p : Nat → Bool} {dies : Xfer → State → List Nat}
    {act : Xfer → State → State × Nat × List Word} {x : Xfer} {s s1 : State} {ws : List Word} {eff : State → Prop}
    (hexec : exec i s = .next (dataIn u t p dies act s)) (hread : readAt u t p x s)
    (hdies : ∀ d ∈ dies x s, passes (dieOf u) d s = true) (hact : act x s = (s1, 0, ws)) (hmem : s1.mem = s.mem)
    (hxfers : s1.xfers = s.xfers) (hunits : s1.units = s.units)
    (heff : ∀ r : State, r = setCode u t 0 (storeWords (storeBase u + x.base) ws s1) → eff r) :
    landsWords i u t x 0 ws s eff := by
  obtain ⟨hlive, hfind, hwf⟩ := hread
  have hreach : ((dies x s).all fun d => reach (dieOf u) d s) = true := by
    rw [List.all_eq_true]
    intro d hd
    exact (Bool.and_eq_true_iff.mp (hdies d hd)).1
  have hheld : ¬ ((dies x s).any fun d => held (dieOf u) d s) = true := by
    rw [List.any_eq_true]
    rintro ⟨d, hd, hh⟩
    have := (Bool.and_eq_true_iff.mp (hdies d hd)).2
    rw [hh] at this
    exact absurd this (by decide)
  have hrun : dataIn u t p dies act s = setCode u t 0 (storeWords (storeBase u + x.base) ws s1) := by
    unfold dataIn
    simp [hfind, hlive, hreach, hheld, hact]
  refine ⟨_, hexec.trans (congrArg _ hrun), ?_, fun b hb => ?_, ?_, ?_, heff _ rfl⟩
  · exact readWords_writeWords _ _ (by rwa [hmem])
  · exact (readB_writeWords_out _ _ _ (by rwa [hmem]) (by omega)).trans (by rw [hmem])
  · exact congrArg (endXfer u t 0) hxfers
  · exact hunits

/-- The state after a read has taken its results out of the buffer (R339). -/
def resultsTaken (x : Xfer) (s : State) : State := showSadc (modSadc (fun e => { e with ring := e.ring.drop (x.len / 8) }) s)

theorem sansSadc_resultsTaken (x : Xfer) (s : State) : sansSadc (resultsTaken x s) = sansSadc s := by simp [resultsTaken]

/-- The end of a sequence conversion, as a statement about the converter and its hurdles. -/
theorem entryEnd_frame (a b : Rat) (s : State) :
    sansSadc (entryEnded a b s) =
      sansSadc s := by
  rw [entryEnded, sansSadc_showSadc, sansSadc_nextEntry, sansSadc_hurdles, sansSadc_resultKept]

/-- A read of whole results takes the oldest out of the buffer into the window (R339). -/
theorem sadcResRead_lands {u : UnitId} {t : Tag} {x : Xfer} {s : State} (hread : readAt u t (· = 0x71) x s)
    (hpass : passes (dieOf u) 0 s = true) (haddr : x.addr = 0) (hlen : x.len % 8 = 0) :
    landsWords (.sadcResRead u t) u t x 0 (fitWords (x.len / 4) (s.sadc.ring.flatMap fun r => [r.1, r.2])) s fun r =>
      r.sadc = { s.sadc with ring := s.sadc.ring.drop (x.len / 8) } := by
  have htwo : x.len / 4 = 2 * (x.len / 8) := by omega
  have hact : ¬ (x.addr ≠ 0 ∨ x.len % 8 ≠ 0) := by omega
  have hframe := eq_of_sansSadc (sansSadc_resultsTaken x s)
  have hmem : (resultsTaken x s).mem = s.mem := by rw [hframe]
  have hxfers : (resultsTaken x s).xfers = s.xfers := by rw [hframe]
  have hunits : (resultsTaken x s).units = s.units := by rw [hframe]
  refine dataIn_lands (s1 := resultsTaken x s) (exec_sadcResRead ..) hread (by simpa using hpass) ?_
    hmem hxfers hunits ?_
  · rw [if_neg hact]
    dsimp only
    rw [flatMap_take_pairs, htwo, fitWords_take]
    rfl
  · rintro r rfl
    rfl

/-- Settles O25, with a view of each hurdle that the others leave as it was, and a lemma per endpoint of the buffer. -/
theorem sadcResults : Obligations.SadcResults := by
  unfold Obligations.SadcResults
  refine ⟨fun a b s hclk hentry hinj => ?_, fun s hclk hstart hgap htrim hinj => ?_, fun u t x s hread hpass haddr hlen => ?_⟩
  · refine ⟨_, exec_sadcEntryEnd_of_due hclk hentry hinj, ?_⟩
    intro i w v
    have hw : w = entryWord a b s := entryEnd_last a b s
    obtain ⟨h31, h30, h29, h2824, h2316, hcode⟩ := entryWord_fields a b s
    rw [hw]
    have hovr := h30.trans (sadcCode_ovr (entryVolts (s.word (F.sadcSeq i)) a b))
    have hlimited := hcode.trans (sadcCode_code (entryVolts (s.word (F.sadcSeq i)) a b))
    refine ⟨h31, hovr, h29, h2824, h2316, hlimited, ?_, fun h hnext => ?_, ?_⟩
    · rw [entryEnd_ring, ofNat_timeAgo]
      rfl
    · have hex := entryEnd_examined hnext a b
      rw [hcode]
      exact ⟨hex.runs, hex.active, hex.tripped, hex.event⟩
    · exact eq_of_sansSadc (entryEnd_frame a b s)
  · have hsadc := (showSadc_sadc (startPass true s)).trans (startPass_true_sadc htrim)
    exact ⟨_, exec_sadcGapEnd_of_due hclk hstart hgap htrim hinj, (startPass_shows s).2, (startPass_shows s).1, hsadc,
      eq_of_sansSadc_of_ev (by rw [sansSadc_showSadc, sansSadc_startPass]) ((showSadc_ev _).trans (startPass_ev true s))⟩

  · exact sadcResRead_lands hread hpass haddr hlen

end Sys2Proof.Machine
end

section
/-!
SUPPORT. The queues of the valves: what dropping, settling and committing shots leaves in them and beside them (R294, R298, R300).
-/

namespace Sys2Proof.Machine

/-! ### What a commit reads -/

/-- What the times of a valve's shots and its readiness follow from: the channel without its queue, the words of the die record, and
device time. -/
def commitView (w : Valve) (s : State) : Chan × Word × Nat :=
  ({ s.ejt.chans[w] with queue := [] }, s.word (F.ejtDieCfg0 (valveDie w)), s.time)

section
variable {w : Valve} {s t : State} (h : commitView w t = commitView w s)
include h

theorem shotTimes_congr (x : Shot) : shotTimes w x t = shotTimes w x s := by
  have hof (s : State) : shotTimes w x s = (x.start - 1000 * (rneShift 4 ((commitView w s).1.lag.getD 0) + (commitView w s).1.air),
      x.start - 1000 * (rneShift 4 ((commitView w s).1.lag.getD 0) + (commitView w s).1.air) +
        1000 * (bits (commitView w s).2.1 27 18 : Nat)) := rfl
  rw [hof, hof, h]

theorem readyAt_congr (e : Int) (off : Nat) : readyAt w e off t = readyAt w e off s := by
  have hof (s : State) : readyAt w e off s = match (commitView w s).1.stopped with
    | some t => max e ((t : Int) + off)
    | none => e := rfl
  rw [hof, hof, h]

theorem energised_congr : energised w t = energised w s := by
  have hof (s : State) : energised w s = (commitView w s).1.run.isSome := rfl
  rw [hof, hof, h]

theorem offMin_congr : offMin (valveDie w) t = offMin (valveDie w) s := by
  have hof (s : State) : offMin (valveDie w) s = bits (commitView w s).2.1 17 10 := rfl
  rw [hof, hof, h]

theorem commitView_time : t.time = s.time := congrArg (fun x => x.2.2) h

end

theorem raiseLim_ejt (c k i detail : Nat) (s : State) : (raiseLim c k i detail s).ejt = s.ejt := by
  unfold raiseLim
  split <;> rfl

theorem outsideValves_ejtDieCfg0 (d : Fin 2) : outsideValves (F.ejtDieCfg0 d) := by
  unfold outsideValves F.ejtDieCfg0
  omega

theorem ejtDieCfg0_ne_ejtDropWindow (d e : Fin 2) : F.ejtDieCfg0 d ≠ F.ejtDropWindow e := by
  unfold F.ejtDieCfg0 F.ejtDropWindow
  omega

theorem eraseShot_eq_erase (x : Shot) (l : List Shot) : eraseShot x l = l.erase x := by
  induction l with
  | nil => rfl
  | cons y l ih =>
    rw [eraseShot, List.erase_cons, ih]
    simp

/-! ### Dropping a shot -/

theorem dropShot_ejt (v : Valve) (f : Fld) (x : Shot) (s : State) :
    (dropShot v f x s).ejt = (modChan v (fun c => { c with queue := c.queue.erase x }) s).ejt := by
  rw [dropShot, noteDrop, raiseLim_ejt, showChan_ejt]
  simp only [modChan, bump_ejt, eraseShot_eq_erase]

theorem chans_dropShot (v w : Valve) (f : Fld) (x : Shot) (s : State) : (dropShot v f x s).ejt.chans[w] =
    if w = v then { s.ejt.chans[v] with queue := s.ejt.chans[v].queue.erase x } else s.ejt.chans[w] := by
  rw [dropShot_ejt, modChan_chans]

theorem queue_dropShot (v : Valve) (f : Fld) (x : Shot) (s : State) :
    (dropShot v f x s).ejt.chans[v].queue = s.ejt.chans[v].queue.erase x := by
  rw [chans_dropShot, if_pos rfl]

theorem dies_dropShot (v : Valve) (f : Fld) (x : Shot) (s : State) : (dropShot v f x s).ejt.dies = s.ejt.dies := by
  rw [dropShot_ejt]
  rfl

theorem time_of_sansValves {s t : State} (h : sansValves t = sansValves s) : t.time = s.time :=
  show (sansValves t).time = (sansValves s).time from congrArg State.time h

theorem commitView_of_chan {w : Valve} {s t : State} (hchan : { t.ejt.chans[w] with queue := [] } = { s.ejt.chans[w] with queue := [] })
    (hword : t.word (F.ejtDieCfg0 (valveDie w)) = s.word (F.ejtDieCfg0 (valveDie w))) (htime : t.time = s.time) :
    commitView w t = commitView w s := by
  rw [commitView, commitView, hchan, hword, htime]

theorem commitView_dropShot (v w : Valve) (x : Shot) (s : State) :
    commitView w (dropShot v (F.ejtDropWindowDropWindow (valveDie v)) x s) = commitView w s := by
  refine commitView_of_chan ?_ (word_dropShot (outsideValves_ejtDieCfg0 _) v (ejtDieCfg0_ne_ejtDropWindow _ _) x s)
    (time_of_sansValves (sansValves_dropShot ..))
  rw [chans_dropShot]
  split
  next h => rw [h]
  next => rfl

/-! ### Settling a valve -/

/-- The next shot is committed, with the times it was committed with. -/
theorem times_of_nextShot {q : List Shot} {x : Shot} {p : Int × Int × Nat} (h : nextShot q = some (x, p)) : x.times = some p := by
  unfold nextShot at h
  revert h
  refine List.foldlRecOn (motive := fun a => a = some (x, p) → x.times = some p) q _ (by simp) fun a ih y _ => ?_
  split
  next => exact ih
  next r hy =>
    rintro ⟨⟩
    exact hy
  next r z rz hy =>
    split
    · rintro ⟨⟩
      exact hy
    · exact ih

/-- What holds before a valve settles, and goes on holding when a shot is dropped that can no longer start, holds after it. -/
theorem settleValve_keeps {P : State → Prop} {v : Valve} (hdrop : ∀ t x e l off, P t → energised v t = false →
    nextShot t.ejt.chans[v].queue = some (x, e, l, off) → l < readyAt v e off t →
    P (dropShot v (F.ejtDropWindowDropWindow (valveDie v)) x t)) (n : Nat) {s : State} (hs : P s) : P (settleValve v n s) := by
  induction n generalizing s with
  | zero => exact hs
  | succ n ih =>
    unfold settleValve
    split
    · exact hs
    next hidle =>
      split
      next x e l off hx =>
        split
        next hlate => exact ih (hdrop s x e l off hs (Bool.not_eq_true _ ▸ hidle) hx hlate)
        next => exact hs
      next => exact hs

theorem chans_settleValve_ne {v w : Valve} (h : w ≠ v) (n : Nat) (s : State) :
    (settleValve v n s).ejt.chans[w] = s.ejt.chans[w] :=
  settleValve_keeps (P := fun t => t.ejt.chans[w] = s.ejt.chans[w])
    (fun t x _ _ _ ht _ _ _ => by rw [chans_dropShot, if_neg h, ht]) n rfl

theorem commitView_settleValve (v w : Valve) (n : Nat) (s : State) : commitView w (settleValve v n s) = commitView w s :=
  settleValve_keeps (P := fun t => commitView w t = commitView w s)
    (fun t x _ _ _ ht _ _ _ => (commitView_dropShot v w x t).trans ht) n rfl

theorem dies_settleValve (v : Valve) (n : Nat) (s : State) : (settleValve v n s).ejt.dies = s.ejt.dies :=
  settleValve_keeps (P := fun t => t.ejt.dies = s.ejt.dies) (fun t x _ _ _ ht _ _ _ => (dies_dropShot v _ x t).trans ht) n rfl

theorem queue_settleValve_sublist (v : Valve) (n : Nat) (s : State) :
    ((settleValve v n s).ejt.chans[v].queue).Sublist s.ejt.chans[v].queue :=
  settleValve_keeps (P := fun t => (t.ejt.chans[v].queue).Sublist s.ejt.chans[v].queue)
    (fun t x _ _ _ ht _ _ _ => by
      rw [queue_dropShot]
      exact List.erase_sublist.trans ht) n (List.Sublist.refl _)

/-- May the shot still start when the valve is free: it is uncommitted, or the valve runs or is free by its last start? -/
def mayStart (v : Valve) (y : Shot) (s : State) : Prop :=
  ∀ e l off, y.times = some (e, l, off) → energised v s = true ∨ readyAt v e off s ≤ l

theorem mayStart_congr {v : Valve} {y : Shot} {s t : State} (h : commitView v t = commitView v s) : mayStart v y t ↔ mayStart v y s := by
  unfold mayStart
  simp only [energised_congr h, readyAt_congr h]

/-- A shot that may start stays when its valve settles. -/
theorem mem_settleValve {v : Valve} {y : Shot} {s : State} (hy : y ∈ s.ejt.chans[v].queue) (hmay : mayStart v y s) (n : Nat) :
    y ∈ (settleValve v n s).ejt.chans[v].queue := by
  refine (settleValve_keeps (P := fun t => y ∈ t.ejt.chans[v].queue ∧ mayStart v y t) (fun t x e l off ht hidle hx hlate => ?_) n
    ⟨hy, hmay⟩).1
  obtain ⟨hyt, hmayt⟩ := ht
  refine ⟨?_, (mayStart_congr (commitView_dropShot v v x t)).mpr hmayt⟩
  have hne : y ≠ x := by
    rintro rfl
    rcases hmayt e l off (times_of_nextShot hx) with hrun | hready
    · rw [hidle] at hrun
      exact absurd hrun (by decide)
    · omega
  rw [queue_dropShot]
  exact (List.mem_erase_of_ne hne).mpr hyt

/-! ### Committing a shot -/

/-- The shot with the times it commits with. -/
def committed (v : Valve) (x : Shot) (s : State) : Shot :=
  { x with times := some ((shotTimes v x s).1, (shotTimes v x s).2, 10000 * offMin (valveDie v) s) }

/-- The queue with each shot equal to `x` committed. -/
def commitIn (v : Valve) (x : Shot) (s : State) (q : List Shot) : List Shot := q.map fun y => if y = x then committed v x s else y

theorem map_commit (v : Valve) (x : Shot) (s : State) (q : List Shot) : (q.map fun y => if y = x then
    ({ y with times := some ((shotTimes v x s).1, (shotTimes v x s).2, 10000 * offMin (valveDie v) s) } : Shot) else y) =
    commitIn v x s q := by
  refine List.map_congr_left fun y _ => ?_
  split
  next hy => rw [hy, committed]
  next => rfl

theorem commitShot_eq (v : Valve) (x : Shot) (s : State) : commitShot v x s =
    if (shotTimes v x s).2 < s.time then dropShot v (F.ejtDropWindowDropWindow (valveDie v)) x s
    else settleValve v 9 (modChan v (fun c => { c with queue := commitIn v x s c.queue }) s) := by
  simp only [← map_commit]
  rfl

theorem commitShot_of_late {v : Valve} {x : Shot} {s : State} (h : (shotTimes v x s).2 < s.time) :
    commitShot v x s = dropShot v (F.ejtDropWindowDropWindow (valveDie v)) x s := by
  rw [commitShot_eq, if_pos h]

theorem commitShot_of_ahead {v : Valve} {x : Shot} {s : State} (h : ¬ (shotTimes v x s).2 < s.time) :
    commitShot v x s = settleValve v 9 (modChan v (fun c => { c with queue := commitIn v x s c.queue }) s) := by
  rw [commitShot_eq, if_neg h]

/-- An uncommitted shot beside the one that commits is in the queue as often as before. -/
theorem count_commitIn (v : Valve) (x : Shot) (s : State) {y : Shot} (hy : y.times = none) (q : List Shot) :
    (commitIn v x s q).count y = if y = x then 0 else q.count y := by
  have hne : committed v x s ≠ y := by
    rintro rfl
    exact absurd hy (by simp [committed])
  have hkeep (z : Shot) : ((if z = x then committed v x s else z) = y) ↔ z = y ∧ y ≠ x := by
    split
    next hz =>
      refine ⟨fun e => absurd e hne, fun ⟨e, h⟩ => absurd (e.symm.trans hz) h⟩
    next hz => exact ⟨fun e => ⟨e, e ▸ hz⟩, fun h => h.1⟩
  induction q with
  | nil => simp [commitIn]
  | cons z q ih =>
    rw [commitIn] at ih
    rw [commitIn, List.map_cons, List.count_cons, List.count_cons, ih]
    simp only [beq_iff_eq, hkeep]
    split <;> simp_all

section
variable (v w : Valve) (x : Shot) (s : State)

theorem commitView_modQueue (g : List Shot → List Shot) :
    commitView w (modChan v (fun c => { c with queue := g c.queue }) s) = commitView w s := by
  refine commitView_of_chan ?_ rfl rfl
  rw [modChan_chans]
  split
  next h => rw [h]
  next => rfl

theorem commitView_commitShot : commitView w (commitShot v x s) = commitView w s := by
  by_cases h : (shotTimes v x s).2 < s.time
  · rw [commitShot_of_late h, commitView_dropShot]
  · rw [commitShot_of_ahead h, commitView_settleValve, commitView_modQueue]

theorem dies_commitShot : (commitShot v x s).ejt.dies = s.ejt.dies := by
  by_cases h : (shotTimes v x s).2 < s.time
  · rw [commitShot_of_late h, dies_dropShot]
  · rw [commitShot_of_ahead h, dies_settleValve]
    rfl

theorem sansValves_commitShot : sansValves (commitShot v x s) = sansValves s := by
  by_cases h : (shotTimes v x s).2 < s.time
  · rw [commitShot_of_late h, sansValves_dropShot]
  · rw [commitShot_of_ahead h, sansValves_settleValve, sansValves_modChan]

theorem chans_commitShot_ne {v w : Valve} (hw : w ≠ v) (x : Shot) (s : State) : (commitShot v x s).ejt.chans[w] = s.ejt.chans[w] := by
  by_cases h : (shotTimes v x s).2 < s.time
  · rw [commitShot_of_late h, chans_dropShot, if_neg hw]
  · rw [commitShot_of_ahead h, chans_settleValve_ne hw, modChan_chans, if_neg hw]

end

theorem queue_modChan (v : Valve) (g : List Shot → List Shot) (s : State) :
    (modChan v (fun c => { c with queue := g c.queue }) s).ejt.chans[v].queue = g s.ejt.chans[v].queue := by
  rw [modChan_chans, if_pos rfl]

/-- A commit leaves an uncommitted shot no more often than before, and the one it takes once less. -/
theorem count_commitShot_le (v : Valve) (x : Shot) {y : Shot} (hy : y.times = none) (s : State) :
    (commitShot v x s).ejt.chans[v].queue.count y ≤ (s.ejt.chans[v].queue).count y - if y = x then 1 else 0 := by
  by_cases h : (shotTimes v x s).2 < s.time
  · rw [commitShot_of_late h, queue_dropShot, List.count_erase]
    by_cases hyx : y = x
    · simp [hyx]
    · simp [hyx, Ne.symm hyx]
  · rw [commitShot_of_ahead h]
    refine ((queue_settleValve_sublist v 9 _).count_le y).trans ?_
    rw [queue_modChan, count_commitIn v x s hy]
    split <;> omega

/-- A shot that is neither taken nor late stays. -/
theorem mem_commitShot_of_ne {v : Valve} {x y : Shot} {s : State} (hne : y ≠ x) (hy : y ∈ s.ejt.chans[v].queue)
    (hmay : mayStart v y s) : y ∈ (commitShot v x s).ejt.chans[v].queue := by
  by_cases h : (shotTimes v x s).2 < s.time
  · rw [commitShot_of_late h, queue_dropShot]
    exact (List.mem_erase_of_ne hne).mpr hy
  · rw [commitShot_of_ahead h]
    refine mem_settleValve ?_ ((mayStart_congr (commitView_modQueue v v s _)).mpr hmay) 9
    rw [queue_modChan]
    exact List.mem_map.mpr ⟨y, hy, if_neg hne⟩

/-- A shot whose last start lies ahead stands committed, where it may start. -/
theorem committed_mem_commitShot {v : Valve} {x : Shot} {s : State} (hx : x ∈ s.ejt.chans[v].queue)
    (hahead : (s.time : Int) ≤ (shotTimes v x s).2) (hmay : mayStart v (committed v x s) s) :
    committed v x s ∈ (commitShot v x s).ejt.chans[v].queue := by
  rw [commitShot_of_ahead (by omega)]
  refine mem_settleValve ?_ ((mayStart_congr (commitView_modQueue v v s _)).mpr hmay) 9
  rw [queue_modChan]
  exact List.mem_map.mpr ⟨x, hx, if_pos rfl⟩

end Sys2Proof.Machine
end

section
/-!
SUPPORT. An EJECT at its actuator die: the lines it keeps, the shots of a DONE, and the steps of Table 13.4 (R298, R299).
-/

namespace Sys2Proof.Machine

/-! ### The lines that a die keeps -/

theorem lineKept_congr {s t : State} (h : t.ejt.dies = s.ejt.dies) (d : Fin 2) (b : Fin 16) (n : Nat) :
    lineKept d b n t = lineKept d b n s := by
  rw [lineKept, lineKept, h]

/-- The line found has the number it was looked for. -/
theorem num_of_lineKept {d : Fin 2} {b : Fin 16} {n : Nat} {k : Kept} {s : State} (h : lineKept d b n s = some k) : k.note.n = n :=
  of_decide_eq_true (p := k.note.n = n) (List.find?_some (p := fun k : Kept => decide (k.note.n = n)) h)

theorem lineKept_setLine {d : Fin 2} {b : Fin 16} {n : Nat} {k : Kept} {s : State} (st : LineState) (h : lineKept d b n s = some k) :
    lineKept d b n (setLine d b n st s) = some { k with st := st } := by
  have hbands : (setLine d b n st s).ejt.dies[d].bands[b].kept =
      (s.ejt.dies[d].bands[b].kept).map fun k => if k.note.n = n then { k with st := st } else k := by
    change (vmod s.ejt.dies d _)[d].bands[b].kept = _
    rw [vmod_same]
    change (vmod s.ejt.dies[d].bands b _)[b].kept = _
    rw [vmod_same]
  have hnum (k : Kept) : (if k.note.n = n then { k with st := st } else k : Kept).note = k.note := by split <;> rfl
  unfold lineKept at h ⊢
  rw [hbands, List.find?_map]
  have hcomp : (fun k : Kept => decide (k.note.n = n)) ∘ (fun k => if k.note.n = n then { k with st := st } else k) =
      fun k => decide (k.note.n = n) := funext fun k => by simp only [Function.comp, hnum]
  rw [hcomp, h, Option.map_some, if_pos (num_of_lineKept h)]

theorem chans_setLine (d : Fin 2) (b : Fin 16) (n : Nat) (st : LineState) (s : State) :
    (setLine d b n st s).ejt.chans = s.ejt.chans := rfl

theorem sansValves_setLine (d : Fin 2) (b : Fin 16) (n : Nat) (st : LineState) (s : State) :
    sansValves (setLine d b n st s) = sansValves s := rfl

/-! ### The shots of a DONE -/

/-- Commit the shots listed, in order. -/
def commitAll (l : List (Valve × Shot)) (s : State) : State := l.foldl (fun s x => commitShot x.1 x.2 s) s

theorem commitAll_cons (x : Valve × Shot) (l : List (Valve × Shot)) (s : State) :
    commitAll (x :: l) s = commitAll l (commitShot x.1 x.2 s) := rfl

theorem commitAll_keeps {α : Type} (f : State → α) (h : ∀ v x s, f (commitShot v x s) = f s) (l : List (Valve × Shot)) (s : State) :
    f (commitAll l s) = f s := by
  induction l generalizing s with
  | nil => rfl
  | cons x l ih => rw [commitAll_cons, ih, h]

theorem takeDone_eq (d : Fin 2) (b : Fin 16) (n : Nat) (s : State) :
    takeDone d b n s = setLine d b n .decided (commitAll (lineShots d b n s) s) := rfl

theorem dies_commitAll (l : List (Valve × Shot)) (s : State) : (commitAll l s).ejt.dies = s.ejt.dies :=
  commitAll_keeps (fun s : State => s.ejt.dies) dies_commitShot l s

theorem sansValves_commitAll (l : List (Valve × Shot)) (s : State) : sansValves (commitAll l s) = sansValves s :=
  commitAll_keeps sansValves sansValves_commitShot l s

theorem commitView_commitAll (w : Valve) (l : List (Valve × Shot)) (s : State) : commitView w (commitAll l s) = commitView w s :=
  commitAll_keeps (commitView w) (fun v => commitView_commitShot v w) l s

theorem chans_commitAll_of_not_mem {w : Valve} {l : List (Valve × Shot)} (h : ∀ x ∈ l, x.1 ≠ w) (s : State) :
    (commitAll l s).ejt.chans[w] = s.ejt.chans[w] := by
  induction l generalizing s with
  | nil => rfl
  | cons x l ih =>
    have htail := ih (fun y hy => h y (List.mem_cons_of_mem _ hy)) (commitShot x.1 x.2 s)
    exact htail.trans (chans_commitShot_ne (h x (List.mem_cons_self ..)).symm x.2 s)

/-- As often as an uncommitted shot is listed, so often does its commit take it from the queue. -/
theorem count_commitAll_le (w : Valve) {y : Shot} (hy : y.times = none) (l : List (Valve × Shot)) (s : State) :
    (commitAll l s).ejt.chans[w].queue.count y ≤ (s.ejt.chans[w].queue).count y - l.count (w, y) := by
  induction l generalizing s with
  | nil => simp [commitAll]
  | cons x l ih =>
    refine (ih (commitShot x.1 x.2 s)).trans ?_
    rw [List.count_cons]
    by_cases hw : w = x.1
    · subst hw
      have := count_commitShot_le x.1 x.2 hy s
      by_cases hyx : y = x.2
      · subst hyx
        simp at this ⊢
        omega
      · have hne : ¬ x = (x.1, y) := fun e => hyx (congrArg Prod.snd e).symm
        simp [hyx, hne] at this ⊢
        omega
    · have hne : ¬ x = (w, y) := fun e => hw (congrArg Prod.fst e).symm
      simp [chans_commitShot_ne hw, hne]

theorem committed_congr {w : Valve} {s t : State} (h : commitView w t = commitView w s) (y : Shot) :
    committed w y t = committed w y s := by
  rw [committed, committed, shotTimes_congr h, offMin_congr h]

theorem mayStart_of_uncommitted {y : Shot} (hy : y.times = none) (v : Valve) (s : State) : mayStart v y s := by
  intro e l off h
  rw [hy] at h
  cases h

/-- A listed shot whose last start lies ahead stands committed when all have been taken, where it may start. -/
theorem committed_mem_commitAll {w : Valve} {y : Shot} (hy : y.times = none) {l : List (Valve × Shot)}
    (hl : ∀ p ∈ l, p.2.times = none) {s : State} (hahead : (s.time : Int) ≤ (shotTimes w y s).2)
    (hmay : mayStart w (committed w y s) s)
    (hmem : (w, y) ∈ l ∧ y ∈ s.ejt.chans[w].queue ∨ committed w y s ∈ s.ejt.chans[w].queue) :
    committed w y s ∈ (commitAll l s).ejt.chans[w].queue := by
  induction l generalizing s with
  | nil => exact hmem.resolve_left fun h => absurd h.1 List.not_mem_nil
  | cons p l ih =>
    have hview := commitView_commitShot p.1 w p.2 s
    have hsame := committed_congr hview y
    rw [commitAll_cons, ← hsame]
    refine ih (fun q hq => hl q (List.mem_cons_of_mem _ hq)) ?_ ?_ ?_
    · rwa [commitView_time hview, shotTimes_congr hview]
    · rwa [hsame, mayStart_congr hview]
    · rw [hsame]
      by_cases hw : w = p.1
      · subst hw
        rcases hmem with ⟨hlist, hqueue⟩ | hdone
        · by_cases hyp : y = p.2
          · exact .inr (hyp ▸ committed_mem_commitShot (hyp ▸ hqueue) (hyp ▸ hahead) (hyp ▸ hmay))
          · refine .inl ⟨?_, mem_commitShot_of_ne hyp hqueue (mayStart_of_uncommitted hy _ s)⟩
            exact (List.mem_cons.mp hlist).resolve_left fun e => hyp (congrArg Prod.snd e)
        · refine .inr (mem_commitShot_of_ne (fun e => ?_) hdone hmay)
          have htimes := hl p (List.mem_cons_self ..)
          rw [← e] at htimes
          exact absurd htimes (by simp [committed])
      · rw [chans_commitShot_ne hw]
        refine hmem.imp_left fun ⟨hlist, hqueue⟩ => ⟨?_, hqueue⟩
        exact (List.mem_cons.mp hlist).resolve_left fun e => hw (congrArg Prod.fst e)

/-- Is the shot an uncommitted one of the line? -/
def openShot (b n : Nat) (y : Shot) : Prop := y.band = b ∧ y.line = n ∧ y.times = none

theorem mem_lineShots {d : Fin 2} {b n : Nat} {s : State} {w : Valve} {y : Shot} :
    (w, y) ∈ lineShots d b n s ↔ valveDie w = d ∧ y ∈ s.ejt.chans[w].queue ∧ openShot b n y := by
  simp [lineShots, valvesOf, openShot, and_assoc]

/-- Each uncommitted shot of the line is listed as often as it is queued. -/
theorem count_queue_le_lineShots {d : Fin 2} {b n : Nat} {w : Valve} (hw : valveDie w = d) {y : Shot} (hy : openShot b n y)
    (s : State) : (s.ejt.chans[w].queue).count y ≤ (lineShots d b n s).count (w, y) := by
  obtain ⟨hband, hline, htimes⟩ := hy
  have hvalve : w ∈ valvesOf d := List.mem_filter.mpr ⟨List.mem_finRange w, decide_eq_true hw⟩
  obtain ⟨before, after, hsplit⟩ := List.append_of_mem hvalve
  have hin : ((s.ejt.chans[w].queue.filter fun x => x.band = b && x.line = n && x.times.isNone).map fun x => (w, x)).Sublist
      (lineShots d b n s) := by
    rw [lineShots, hsplit, List.flatMap_append, List.flatMap_cons]
    exact (List.sublist_append_left ..).trans (List.sublist_append_right ..)
  refine le_trans (le_of_eq ?_) (hin.count_le (w, y))
  rw [List.count_map_of_injective _ _ (Prod.mk_right_injective w), List.count_filter (by simp [hband, hline, htimes])]

/-! ### DONE (R299) -/

section
variable {d : Fin 2} {b : Fin 16} {n : Nat} {s : State}

theorem lineKept_takeDone {k : Kept} (h : lineKept d b n s = some k) :
    lineKept d b n (takeDone d b n s) = some { k with st := .decided } := by
  rw [takeDone_eq]
  refine lineKept_setLine _ ?_
  rw [lineKept_congr (dies_commitAll ..), h]

theorem sansValves_takeDone : sansValves (takeDone d b n s) = sansValves s := by
  rw [takeDone_eq, sansValves_setLine, sansValves_commitAll]

theorem chans_takeDone (w : Valve) : (takeDone d b n s).ejt.chans[w] = (commitAll (lineShots d b n s) s).ejt.chans[w] := by
  rw [takeDone_eq]
  simp only [chans_setLine]

/-- A DONE leaves the valves of the other die. -/
theorem chans_takeDone_of_ne {w : Valve} (hw : valveDie w ≠ d) : (takeDone d b n s).ejt.chans[w] = s.ejt.chans[w] := by
  rw [chans_takeDone]
  refine chans_commitAll_of_not_mem (fun p hp e => hw ?_) s
  obtain ⟨v, y⟩ := p
  exact e ▸ (mem_lineShots.mp hp).1

/-- A DONE leaves no shot of the line uncommitted on its die. -/
theorem not_openShot_takeDone {w : Valve} (hw : valveDie w = d) {y : Shot} (hy : y ∈ (takeDone d b n s).ejt.chans[w].queue) :
    ¬ openShot b n y := by
  intro hopen
  rw [chans_takeDone] at hy
  have hcount := count_commitAll_le w hopen.2.2 (lineShots d b n s) s
  have hlisted := count_queue_le_lineShots hw hopen s
  have hpos := List.count_pos_iff.mpr hy
  omega

/-- A shot of the line whose last start lies ahead stands with its times, where its valve runs or is free by then. -/
theorem committed_mem_takeDone {w : Valve} (hw : valveDie w = d) {y : Shot} (hy : y ∈ s.ejt.chans[w].queue) (hopen : openShot b n y)
    (hahead : (s.time : Int) ≤ (shotTimes w y s).2) (hmay : mayStart w (committed w y s) s) :
    committed w y s ∈ (takeDone d b n s).ejt.chans[w].queue := by
  rw [chans_takeDone]
  refine committed_mem_commitAll hopen.2.2 (fun p hp => ?_) hahead hmay (.inl ⟨mem_lineShots.mpr ⟨hw, hy, hopen⟩, hy⟩)
  obtain ⟨v, x⟩ := p
  exact (mem_lineShots.mp hp).2.2.2.2

end

/-! ### The shot part (Table 13.4, steps 5–8) -/

section
variable {v : Valve} {x : Shot} {warm : Bool} {s : State}

/-- The checks of a shot part that refuse a command: its hold, its profile and its valve (Table 13.4, step 6). -/
def shotOk (v : Valve) (x : Shot) (s : State) : Prop :=
  1 ≤ x.hold ∧ x.hold ≤ 25500 ∧ profileLoaded (valveDie v) x.prof s = true ∧ valveEnabled v s = true

theorem not_shotOk_iff : (x.hold < 1 || 25500 < x.hold || !profileLoaded (valveDie v) x.prof s || !valveEnabled v s) = true ↔
    ¬ shotOk v x s := by
  simp only [shotOk, Bool.or_eq_true, decide_eq_true_eq, Bool.not_eq_true', not_and_or, Bool.not_eq_true, not_le, or_assoc]

theorem acceptShot_of_over (h : vinOver s = true) :
    (acceptShot v x warm s).1 = bump (F.ejtDropSupplyDropSupply (valveDie v)) s := by
  rw [acceptShot, if_pos h]

theorem acceptShot_of_refused (hover : vinOver s = false) (h : ¬ shotOk v x s) :
    (acceptShot v x warm s).1 = raiseLim 0x3002 4 v 0 (bump (F.ejtRefusedCmd (valveDie v)) s) := by
  rw [acceptShot, if_neg (by simp [hover]), if_pos (not_shotOk_iff.mpr h)]

theorem acceptShot_of_warm (hover : vinOver s = false) (h : shotOk v x s) :
    (acceptShot v x true s).1 = bump (F.ejtRefusedWarm (valveDie v)) s := by
  rw [acceptShot, if_neg (by simp [hover]), if_neg (fun e => not_shotOk_iff.mp e h), if_pos rfl]

theorem acceptShot_of_full (hover : vinOver s = false) (h : shotOk v x s) (hfull : 8 ≤ s.ejt.chans[v].queue.length) :
    (acceptShot v x false s).1 = raiseLim 0x3003 4 v 0 (bump (F.ejtDropQueueDropQueue (valveDie v)) s) := by
  rw [acceptShot, if_neg (by simp [hover]), if_neg (fun e => not_shotOk_iff.mp e h), if_neg (by decide), if_pos hfull, noteDrop]

theorem acceptShot_of_room (hover : vinOver s = false) (h : shotOk v x s) (hroom : s.ejt.chans[v].queue.length < 8) :
    (acceptShot v x false s).1 = showChan v (modChan v (fun c => { c with queue := c.queue ++ [x] }) s) := by
  rw [acceptShot, if_neg (by simp [hover]), if_neg (fun e => not_shotOk_iff.mp e h), if_neg (by decide), if_neg (by omega)]

theorem dies_acceptShot : (acceptShot v x warm s).1.ejt.dies = s.ejt.dies := by
  have hlim (c k i detail : Nat) (f : Fld) (t : State) : (raiseLim c k i detail (bump f t)).ejt.dies = t.ejt.dies := by
    rw [raiseLim_ejt, bump_ejt]
  unfold acceptShot
  extract_lets d
  split
  · rfl
  · split
    · exact hlim ..
    · split
      · rfl
      · split
        · exact hlim ..
        · dsimp only
          rw [showChan_ejt]
          rfl

end

/-- A shot that is queued stands last at its valve; other channels and all lines stay. -/
theorem showChan_queued (v : Valve) (x : Shot) (s : State) {t : State}
    (ht : t = showChan v (modChan v (fun c => { c with queue := c.queue ++ [x] }) s)) :
    t = { s with status := t.status, ejt := t.ejt } ∧ t.ejt.chans[v].queue = s.ejt.chans[v].queue ++ [x] ∧
      t.ejt.dies = s.ejt.dies ∧ ∀ w, w ≠ v → t.ejt.chans[w] = s.ejt.chans[w] := by
  have hejt : t.ejt = (modChan v (fun c => { c with queue := c.queue ++ [x] }) s).ejt := by rw [ht, showChan_ejt]
  have hstatus : sansStatus t = sansStatus (modChan v (fun c => { c with queue := c.queue ++ [x] }) s) := by
    rw [ht]
    simp [showChan]
  refine ⟨?_, ?_, ?_, fun w hw => ?_⟩
  · have h := eq_of_sansStatus hstatus
    rw [h]
    rfl
  · rw [hejt, modChan_chans, if_pos rfl]
  · rw [hejt]
    rfl
  · rw [hejt, modChan_chans, if_neg hw]

/-! ### The deadline monitor (R299) -/

theorem dies_applyDefault (d : Fin 2) (b : Fin 16) (k : Kept) (s : State) : (applyDefault d b k s).ejt.dies = s.ejt.dies := by
  unfold applyDefault
  split
  · rfl
  · refine foldl_keeps (fun s : State => s.ejt.dies) (fun s v => ?_) _ s
    extract_lets x
    split
    next s' ok hacc =>
      have hdies : s'.ejt.dies = s.ejt.dies := by
        have := dies_acceptShot (v := v) (x := x) (warm := k.note.warm) (s := s)
        rwa [hacc] at this
      split
      · rw [dies_commitShot, bump_ejt, hdies]
      · exact hdies

/-- The deadline monitor leaves its line DEFAULTED. -/
theorem lineKept_boundPass {d : Fin 2} {b : Fin 16} {k : Kept} {n : Nat} {s : State} (h : lineKept d b n s = some k) :
    lineKept d b n (boundPass d b k s) = some { k with st := .defaulted } := by
  have hn : k.note.n = n := num_of_lineKept h
  unfold boundPass
  extract_lets n' xs s1 s2 s3 part s4
  have h2 : s2.ejt.dies = s.ejt.dies := by
    refine (foldl_keeps (fun s : State => s.ejt.dies) (fun s x => ?_) xs s1).trans ?_
    · rw [showChan_ejt]
      rfl
    · rfl
  have h3 : lineKept d b n s3 = some { k with st := .defaulted } := by
    have := lineKept_setLine .defaulted ((lineKept_congr h2 d b n).trans h)
    rwa [← hn] at this ⊢
  have h4 : s4.ejt.dies = s3.ejt.dies := by
    unfold s4
    split
    · rfl
    · rw [bump_ejt]
  rw [lineKept_congr (dies_applyDefault d b k s4), lineKept_congr h4, h3]

/-! ### The steps of Table 13.4 -/

/-- The shot that a command describes. -/
def shotOf (b : List Word) : Shot :=
  { band := (cBand b).val, line := cLine b, start := cStart b, prof := cProf b, hold := cHold b, times := none }

/-- The state after the shot part of a command for a line kept. -/
def shotTaken (o : Bool) (b : List Word) (k : Kept) (s : State) : State :=
  if cNone b || o then s else (acceptShot (cValve b) (shotOf b) k.note.warm s).1

section
variable {d : Fin 2} {o : Bool} {b : List Word} {s : State}

theorem takeEject_of_bad_complement (h : complementOk b = false) : takeEject d o b s =
    raise 0x3001 1 (6 + d) 0 (setF (F.ejtFaultComplement d) 1 (bump (F.ejtComplementComplement d) (complementFail 0 s))) := by
  rw [takeEject, if_pos (by rw [h]; rfl)]

variable (hcomp : complementOk b = true)
include hcomp

theorem takeEject_of_malformed (h : ejectMalformed b = true) : takeEject d o b s = refuseCmd d s := by
  rw [takeEject, if_neg (by rw [hcomp]; decide), if_pos h]

variable (hform : ejectMalformed b = false)
include hform

theorem takeEject_of_unkept (h : lineKept d (cBand b) (cLine b) s = none) : takeEject d o b s =
    if lineOlder d (cBand b) (cLine b) s then bump F.stcLateDecisionLateDecision s else refuseCmd d s := by
  rw [takeEject, if_neg (by rw [hcomp]; decide), if_neg (by rw [hform]; decide)]
  simp only [h]

variable {k : Kept} (hk : lineKept d (cBand b) (cLine b) s = some k)
include hk

theorem takeEject_of_closed (h : k.st ≠ .open_) : takeEject d o b s = bump F.stcLateDecisionLateDecision s := by
  rw [takeEject, if_neg (by rw [hcomp]; decide), if_neg (by rw [hform]; decide)]
  simp [hk, h]

theorem takeEject_of_due (hopen : k.st = .open_) (h : k.note.bound ≤ s.time) :
    takeEject d o b s = bump F.stcLateDecisionLateDecision (boundPass d (cBand b) k s) := by
  rw [takeEject, if_neg (by rw [hcomp]; decide), if_neg (by rw [hform]; decide)]
  simp [hk, hopen, h, lineKept_boundPass hk]

theorem takeEject_of_open (hopen : k.st = .open_) (h : s.time < k.note.bound) : takeEject d o b s =
    if cDone b then takeDone d (cBand b) (cLine b) (shotTaken o b k s) else shotTaken o b k s := by
  rw [takeEject, if_neg (by rw [hcomp]; decide), if_neg (by rw [hform]; decide)]
  simp [hk, hopen, Nat.not_le.mpr h, shotTaken, shotOf]

end

/-! ### The arrival -/

/-- The state with the first message to the die taken off. -/
def tookOff (d : Fin 2) (rest : List Msg) (s : State) : State := { s with msgs := s.msgs.set d rest }

section
variable {d : Fin 2} {u : UnitId} {o : Bool} {b : List Word} {rest : List Msg} {s : State} (hmsg : s.msgs[d] = .eject u o b :: rest)
  (harr : arrives d (.eject u o b) s = true)
include hmsg harr

theorem exec_ejectArrival_of_lost (hlost : lostOnWay d (.eject u o b) s = true) :
    exec (.ejectArrival d) s = .next (drainMsgs d (bump (F.ejtDropLinkDropLink d) (tookOff d rest s))) := by
  have hlost' : lostOnWay d (.eject u o b) (tookOff d rest s) = true := hlost
  rw [exec_ejectArrival, execEjectArrival, hmsg]
  dsimp only
  rw [if_pos harr]
  change Host.Outcome.next (drainMsgs d (if lostOnWay d (.eject u o b) (tookOff d rest s) = true then _ else _)) = _
  rw [if_pos hlost']
  rfl

theorem exec_ejectArrival_of_path (hlost : lostOnWay d (.eject u o b) s = false) :
    exec (.ejectArrival d) s = .next (drainMsgs d (takeEject d o b (tookOff d rest s))) := by
  have hlost' : lostOnWay d (.eject u o b) (tookOff d rest s) = false := hlost
  rw [exec_ejectArrival, execEjectArrival, hmsg]
  dsimp only
  rw [if_pos harr]
  change Host.Outcome.next (drainMsgs d (if lostOnWay d (.eject u o b) (tookOff d rest s) = true then _ else _)) = _
  rw [if_neg (by rw [hlost']; decide)]
  rfl

end

theorem complementFail_word {a : Nat} (h0 : a ≠ F.intComplement) (h1 : a ≠ F.intComplementSeen) (k : Nat) (s : State) :
    (complementFail k s).word a = s.word a := by
  rw [complementFail, setAt, setF_word_ne _ _ h1, bump_word_ne h0]

/-- A command without its complement shows and counts that, and changes nothing else (R282). -/
theorem complement_shown (d : Fin 2) (s : State) {t : State} (ht : t = raise 0x3001 1 (6 + d) 0
    (setF (F.ejtFaultComplement d) 1 (bump (F.ejtComplementComplement d) (complementFail 0 s)))) :
    t = { s with status := t.status, ev := t.ev } ∧ getF (F.ejtFaultComplement d) t = 1 ∧
      getF (F.ejtComplementComplement d) t = min (2 ^ 32 - 1) (getF (F.ejtComplementComplement d) s + 1) := by
  have hraise (f : Fld) (t : State) : getF f (raise 0x3001 1 (6 + d) 0 t) = getF f t := rfl
  have hne : (F.ejtComplementComplement d).addr ≠ (F.ejtFaultComplement d).addr := by
    simp only [F.ejtComplementComplement, F.ejtFaultComplement, F.ejtComplement, F.ejtFault]
    omega
  have hlow : (F.ejtComplementComplement d).addr < F.intComplement ∧ (F.ejtComplementComplement d).addr < F.intComplementSeen := by
    simp only [F.ejtComplementComplement, F.ejtComplement, F.intComplement, F.intComplementSeen]
    omega
  refine ⟨eq_of_sansReport ?_, ?_, ?_⟩
  · rw [ht, complementFail]
    simp
  · rw [ht, hraise, getF_setF_lt (show 1 < 32 by decide) (show 1 < 2 ^ (1 + 1 - 1) by decide)]
  · rw [ht, hraise, getF_setF_addr _ _ hne, bump, getF_bumpBy_same (show 31 < 32 by decide),
      getF_congr (complementFail_word (by omega) (by omega) 0 s)]
    rfl

theorem shotTaken_none {o : Bool} {b : List Word} (h : o = true ∨ cNone b = true) (k : Kept) (s : State) : shotTaken o b k s = s := by
  rw [shotTaken, if_pos (by simpa [or_comm] using h)]

theorem shotTaken_some {o : Bool} {b : List Word} (ho : o = false) (hnone : cNone b = false) (k : Kept) (s : State) :
    shotTaken o b k s = (acceptShot (cValve b) (shotOf b) k.note.warm s).1 := by
  rw [shotTaken, if_neg (by simp [ho, hnone])]

theorem lineKept_shotTaken (d : Fin 2) (c : Fin 16) (n : Nat) (o : Bool) (b : List Word) (k : Kept) (s : State) :
    lineKept d c n (shotTaken o b k s) = lineKept d c n s := by
  unfold shotTaken
  split
  · rfl
  · exact lineKept_congr dies_acceptShot d c n

/-- The shot part changes no channel but its own, where its shot is queued (Table 13.4, steps 5–8). -/
theorem shotTaken_queued {b : List Word} {k : Kept} {s : State} (hnone : cNone b = false) (hover : vinOver s = false)
    (hok : shotOk (cValve b) (shotOf b) s) (hwarm : k.note.warm = false) (hroom : s.ejt.chans[cValve b].queue.length < 8) :
    shotTaken false b k s = showChan (cValve b) (modChan (cValve b) (fun c => { c with queue := c.queue ++ [shotOf b] }) s) := by
  rw [shotTaken_some rfl hnone, hwarm, acceptShot_of_room hover hok hroom]

/-- Settles O14: Table 13.4 step by step, and for a DONE an induction over the line's shots with what each commit leaves. -/
theorem ejectAcceptance : Obligations.EjectAcceptance := by
  unfold Obligations.EjectAcceptance
  intro d u o b rest s e hmsg harr m ends late v n x ok shot open_ decided
  have hends {p : State → Prop} (hlost : lostOnWay d e s = false) (h : p (takeEject d o b m)) : ends p :=
    ⟨_, exec_ejectArrival_of_path hmsg harr hlost, h⟩
  refine ⟨fun hlost => ⟨_, exec_ejectArrival_of_lost hmsg harr hlost, rfl⟩, fun hlost hcomp => ?_, fun hlost hcomp => ?_⟩
  · exact hends hlost (complement_shown d m (takeEject_of_bad_complement hcomp))
  · refine ⟨fun hform => hends hlost (takeEject_of_malformed hcomp hform), fun hform => ⟨fun hk => ?_, fun k hk => ⟨?_, ?_, ?_⟩⟩⟩
    · exact hends hlost (takeEject_of_unkept hcomp hform hk)
    · intro hopen htime
      refine ⟨shotTaken o b k m, ⟨fun h => shotTaken_none h k m, fun ho hnone hd => ?_⟩, hends hlost ?_⟩
      · subst ho hd
        have hacc := shotTaken_some rfl hnone k m
        refine ⟨fun hover => hacc.trans (acceptShot_of_over hover), fun hover hbad => hacc.trans (acceptShot_of_refused hover hbad),
          fun hover hok hwarm => ?_, fun hover hok hwarm => ⟨fun hfull => ?_, fun hroom => ?_⟩⟩
        · rw [hacc, hwarm, acceptShot_of_warm (v := cValve b) (x := shotOf b) (s := m) hover hok]
        · rw [hacc, hwarm, acceptShot_of_full (v := cValve b) (x := shotOf b) (s := m) hover hok hfull]
        · exact showChan_queued v x m (shotTaken_queued hnone hover hok hwarm hroom)
      · rw [takeEject_of_open (o := o) (s := m) hcomp hform hk hopen htime]
        have hkept := (lineKept_shotTaken d (cBand b) n o b k m).trans hk
        generalize shotTaken o b k m = r at hkept ⊢
        split
        · refine ⟨lineKept_takeDone hkept, eq_of_sansValves sansValves_takeDone, fun w => ⟨chans_takeDone_of_ne, fun hw => ?_⟩⟩
          refine ⟨fun y hy => not_openShot_takeDone hw hy, fun y hy hy' => ?_⟩
          intro z off hahead hfree
          have hoff : committed w y r = { y with times := some (z.1, z.2, off) } := by rw [committed, hw]
          rw [← hoff]
          refine committed_mem_takeDone hw hy hy' hahead fun e' l off' htimes => ?_
          rw [hoff] at htimes
          cases htimes
          exact hfree
        · rfl
    · intro hopen htime
      exact hends hlost (takeEject_of_due hcomp hform hk hopen htime)
    · intro hclosed
      exact hends hlost (takeEject_of_closed hcomp hform hk hclosed)

end Sys2Proof.Machine
end

section
/-!
SUPPORT. The discipline of device time: what taking an offset and losing a source leave as it was (R70–R72, R413).
-/

namespace Sys2Proof.Machine

/-- The state without device time and its correction, the status space, the events and the free values. -/
def sansTime (s : State) : State :=
  { s with time := 0, clock := TimePart.reset, status := [], ev := EventPart.reset, free := 0 }

theorem eq_of_sansTime {s t : State} (h : sansTime t = sansTime s) :
    t = { s with time := t.time, clock := t.clock, status := t.status, ev := t.ev, free := t.free } := by
  have hback (t : State) : t = { sansTime t with time := t.time, clock := t.clock, status := t.status, ev := t.ev, free := t.free } := rfl
  rw [hback t, h]
  rfl

theorem sansTime_ite {c : Prop} [Decidable c] (s t : State) :
    sansTime (if c then s else t) = if c then sansTime s else sansTime t := apply_ite sansTime c s t

theorem sansTime_of_sansReport {s t : State} (h : sansReport t = sansReport s) : sansTime t = sansTime s :=
  show sansTime (sansReport t) = sansTime (sansReport s) from congrArg sansTime h

@[simp] theorem sansTime_setF (f : Fld) (v : Nat) (s : State) : sansTime (setF f v s) = sansTime s := rfl

@[simp] theorem sansTime_bump (f : Fld) (s : State) : sansTime (bump f s) = sansTime s := rfl

@[simp] theorem sansTime_raise (code kind index detail : Nat) (s : State) :
    sansTime (raise code kind index detail s) = sansTime s := rfl

@[simp] theorem sansTime_modClock (f : TimePart → TimePart) (s : State) : sansTime (modClock f s) = sansTime s := rfl

@[simp] theorem sansTime_shiftTime (d : Int) (s : State) : sansTime (shiftTime d s) = sansTime s := by
  unfold shiftTime
  split <;> rfl

@[simp] theorem sansTime_stepTime (s : State) : sansTime (stepTime s) = sansTime s := by
  simp [stepTime]

@[simp] theorem sansTime_showStratum (s : State) : sansTime (showStratum s) = sansTime s := rfl

@[simp] theorem sansTime_useSource (x : TimeSrc) (s : State) : sansTime (useSource x s) = sansTime s := by
  simp [useSource]

theorem sansTime_withFree (n : Nat) (s : State) : sansTime { s with free := n } = sansTime s := rfl

@[simp] theorem sansTime_loseSource (s : State) : sansTime (loseSource s) = sansTime s := by
  unfold loseSource
  split
  · rfl
  · simp

@[simp] theorem sansTime_loseIf (x : TimeSrc) (s : State) : sansTime (loseIf x s) = sansTime s := by
  simp [loseIf, sansTime_ite]

@[simp] theorem sansTime_takeOffset (x : TimeSrc) (off : Int) (s : State) : sansTime (takeOffset x off s) = sansTime s := by
  unfold takeOffset takeFree
  extract_lets worse s1
  split
  · rfl
  · have h1 : sansTime s1 = sansTime s := by simp [s1]
    simp [sansTime_ite, sansTime_withFree, h1]

/-! ### What an offset sets -/

theorem modClock_clock (f : TimePart → TimePart) (s : State) : (modClock f s).clock = f s.clock := rfl

theorem showStratum_clock (s : State) : (showStratum s).clock = s.clock := rfl

theorem showStratum_time (s : State) : (showStratum s).time = s.time := rfl

theorem useSource_clock (x : TimeSrc) (s : State) : (useSource x s).clock = { s.clock with src := some x } := rfl

theorem useSource_time (x : TimeSrc) (s : State) : (useSource x s).time = s.time := rfl

theorem shiftTime_src (d : Int) (s : State) : (shiftTime d s).clock.src = s.clock.src := by
  unfold shiftTime
  split <;> rfl

theorem stepTime_src (s : State) : (stepTime s).clock.src = s.clock.src := by
  have hraise (t : State) : (raise 0x0112 0 0 0 t).clock = t.clock := rfl
  rw [stepTime, hraise, modClock_clock, shiftTime_src]

/-- May the module take an offset from the source: it is live, no better source is in use, and the source is allowed? -/
def takesOffset (x : TimeSrc) (s : State) : Bool :=
  live s && !(decide (srcRank x = 1) && s.clock.src.any (· ≠ x)) && srcAllowed x s

theorem not_takesOffset (x : TimeSrc) (s : State) :
    (!live s || (decide (srcRank x = 1) && s.clock.src.any (· ≠ x)) || !srcAllowed x s) = !takesOffset x s := by
  rw [takesOffset, Bool.not_and, Bool.not_and, Bool.not_not]

/-- The state with the source shown in use, the offset shown, and a free value taken for the rate. -/
def sourceUsed (x : TimeSrc) (off : Int) (s : State) : State :=
  (takeFree (useSource x (setF F.clkTimeOffsetOffset (enc 32 (clampI (-(2 ^ 31)) (2 ^ 31 - 1) off)) s))).2

/-- The correction that a new offset begins (R71). -/
def correction (off : Int) (free : Nat) (c : TimePart) : TimePart :=
  { c with remaining := -off, slewing := off ≠ 0, deferred := false, rate := ((Config.freeValue free % 201 : Nat) : Int) - 100 }

theorem takeOffset_of_taken {x : TimeSrc} {s : State} (h : takesOffset x s = true) (off : Int) : takeOffset x off s =
    if off.natAbs ≤ 1000000 then modClock (correction off s.free) (sourceUsed x off s)
    else if mayStep (modClock (correction off s.free) (sourceUsed x off s)) then
      stepTime (modClock (correction off s.free) (sourceUsed x off s))
    else setF F.clkFaultStepDeferred 1 (modClock (fun c => { c with deferred := true })
      (modClock (correction off s.free) (sourceUsed x off s))) := by
  unfold takeOffset
  extract_lets worse s1
  rw [not_takesOffset, h, if_neg (by decide)]
  rfl

theorem sourceUsed_clock (x : TimeSrc) (off : Int) (s : State) : (sourceUsed x off s).clock = { s.clock with src := some x } := by
  unfold sourceUsed takeFree
  dsimp only
  rw [useSource_clock, setF_clock]

theorem sourceUsed_time (x : TimeSrc) (off : Int) (s : State) : (sourceUsed x off s).time = s.time := by
  unfold sourceUsed takeFree
  dsimp only
  rw [useSource_time, setF_time]

/-- An offset that is taken shows its source in use (R70). -/
theorem takeOffset_src {x : TimeSrc} {s : State} (h : takesOffset x s = true) (off : Int) :
    (takeOffset x off s).clock.src = some x := by
  rw [takeOffset_of_taken h]
  have h1 : (modClock (correction off s.free) (sourceUsed x off s)).clock.src = some x := by
    rw [modClock_clock, sourceUsed_clock]
    rfl
  generalize modClock (correction off s.free) (sourceUsed x off s) = t at h1 ⊢
  split
  · exact h1
  · split
    · rw [stepTime_src]
      exact h1
    · exact h1

/-- An offset of at most 1 ms is slewed, and device time stays (R71). -/
theorem takeOffset_slews {x : TimeSrc} {s : State} (h : takesOffset x s = true) {off : Int} (hoff : off.natAbs ≤ 1000000) :
    (takeOffset x off s).clock.remaining = -off ∧ (takeOffset x off s).time = s.time := by
  rw [takeOffset_of_taken h, if_pos hoff, modClock_clock, modClock_time, sourceUsed_time]
  exact ⟨rfl, rfl⟩

end Sys2Proof.Machine
end

section
/-!
SUPPORT. The cells of the Vangad links: what every arrival leaves as it was, and what each type brings (R411–R417).
-/

namespace Sys2Proof.Machine

/-! ### What acting on a cell leaves -/

/-- What no cell acted on changes: the units, memory, the copies marked, and what was sent. -/
def carried (s : State) : Vector ExUnit 30 × List Host.Cell × List SeenCell × List Sent := (s.units, s.mem, s.net.seen, s.net.sent)

theorem carried_of_sansTime {s t : State} (h : sansTime t = sansTime s) : carried t = carried s :=
  show carried (sansTime t) = carried (sansTime s) from congrArg carried h

theorem carried_of_sansReport {s t : State} (h : sansReport t = sansReport s) : carried t = carried s :=
  show carried (sansReport t) = carried (sansReport s) from congrArg carried h

theorem carried_ite {c : Prop} [Decidable c] (s t : State) :
    carried (if c then s else t) = if c then carried s else carried t := apply_ite carried c s t

@[simp] theorem carried_setF (f : Fld) (v : Nat) (s : State) : carried (setF f v s) = carried s := rfl

@[simp] theorem carried_bump (f : Fld) (s : State) : carried (bump f s) = carried s := rfl

@[simp] theorem carried_raise (c k i d : Nat) (s : State) : carried (raise c k i d s) = carried s := rfl

@[simp] theorem carried_raiseLim (c k i d : Nat) (s : State) : carried (raiseLim c k i d s) = carried s :=
  carried_of_sansReport (sansReport_raiseLim ..)

@[simp] theorem carried_modLum (d : Fin 2) (f : LumDie → LumDie) (s : State) : carried (modLum d f s) = carried s := rfl

@[simp] theorem carried_setEdges (es : List Nat) (s : State) : carried (setEdges es s) = carried s := rfl

@[simp] theorem carried_dropPulse (c : Nat) (s : State) : carried (dropPulse c s) = carried s := rfl

@[simp] theorem carried_driveLsync (s : State) : carried (driveLsync s) = carried s := rfl

theorem sansReport_bothFd {f : Nat → State → State} (h : ∀ i s, sansReport (f i s) = sansReport s) (s : State) :
    sansReport (bothFd f s) = sansReport s := by
  unfold bothFd
  extract_lets s1
  split
  · rw [h, h]
  · exact h 0 s

/-- A request that is ignored shows and counts that, and changes nothing else. -/
@[simp] theorem sansReport_ignoreEdge (s : State) : sansReport (ignoreEdge s) = sansReport s := by
  rw [ignoreEdge, sansReport_raise]
  exact sansReport_bothFd (fun i s => by rw [sansReport_bump, sansReport_setF]) s

@[simp] theorem carried_requestEdge (c : Nat) (s : State) : carried (requestEdge c s) = carried s := by
  have hign (t : State) : carried (ignoreEdge t) = carried t := carried_of_sansReport (sansReport_ignoreEdge t)
  unfold requestEdge
  extract_lets near s1
  split
  · exact hign s
  · rw [carried_setEdges]
    exact foldl_keeps carried (fun s e => by rw [hign, carried_dropPulse]) near s

@[simp] theorem carried_lsyncPulse (c : Nat) (s : State) : carried (lsyncPulse c s) = carried s := by
  unfold lsyncPulse
  split
  · rw [carried_driveLsync]
    rfl
  · rfl

@[simp] theorem carried_takeSync (p : Fin 2) (c : Cell) (s : State) : carried (takeSync p c s) = carried s := by
  have hnet (f : List (Nat × Int) → List (Nat × Int)) (s : State) :
      carried (modNet (fun n => { n with syncE0 := f n.syncE0 }) s) = carried s := rfl
  unfold takeSync
  extract_lets e0 b late s1 at_
  have h1 : carried s1 = carried s := by simp [s1, carried_ite]
  split
  · rfl
  · split
    · rw [carried_requestEdge, h1]
    · rw [carried_lsyncPulse, hnet, carried_bump, carried_requestEdge, h1]

@[simp] theorem carried_stageLatch (d : Fin 2) (b : List Word) (s : State) : carried (stageLatch d b s) = carried s := by
  have hcompl (k : Nat) (s : State) : carried (complementFail k s) = carried s := rfl
  unfold stageLatch showLatch
  split
  · simp [hcompl]
  · simp [carried_ite]

@[simp] theorem carried_takeLatch (b : List Word) (s : State) : carried (takeLatch b s) = carried s := by
  unfold takeLatch
  split
  · rfl
  · exact foldl_keeps carried (fun s d => by rw [carried_ite, carried_stageLatch, ite_self]) _ s

@[simp] theorem carried_rxPush (kind port type source : Nat) (data : List Byte) (s : State) :
    carried (rxPush kind port type source data s) = carried s := by
  have hrx (r : List Word) (s : State) : carried (modNet (fun n => { n with rx := n.rx ++ [r] }) s) = carried s := rfl
  unfold rxPush showRx
  split
  · simp
  · simp [hrx]

@[simp] theorem carried_takeTime (p : Fin 2) (c : Cell) (s : State) : carried (takeTime p c s) = carried s := by
  have hvgd (f : VgdPort → VgdPort) (s : State) : carried (modNet (fun n => { n with vgd := vmod n.vgd p f }) s) = carried s := rfl
  unfold takeTime
  extract_lets t now s1 s2
  have h1 : carried s1 = carried s := hvgd _ s
  have h2 : carried s2 = carried s1 := carried_of_sansTime (by simp [s2, sansTime_ite])
  split
  · exact (carried_of_sansTime (by simp)).trans (h2.trans h1)
  · exact (carried_of_sansTime (sansTime_showStratum s2)).trans (h2.trans h1)

/-! ### The arrival of a cell (R411, R412) -/

/-- The state after a cell was marked and, where its type and HOPS let it, forwarded. -/
def heard (p : Fin 2) (k : Nat) (c : Cell) (s : State) : State := forward p k c (noteSeen c.source.toNat k c.cseq.toNat s)

theorem seenWithin_mono {m n : Nat} (h : m ≤ n) {source kind cseq : Nat} {s : State} (hseen : seenWithin m source kind cseq s = true) :
    seenWithin n source kind cseq s = true := by
  unfold seenWithin at hseen ⊢
  rw [List.any_eq_true] at hseen ⊢
  obtain ⟨e, he, hmatch⟩ := hseen
  refine ⟨e, he, ?_⟩
  simp only [Bool.and_eq_true, decide_eq_true_eq] at hmatch ⊢
  exact ⟨hmatch.1, by omega⟩

section
variable {p : Fin 2} {k : Nat} {c : Cell} {act : Bool → State → State} {s : State} (hclk : clocked s = true)
  (hen : vgdEnabled p s = true) (hup : vgdUp p s = true)
include hclk hen hup

theorem cellIn_of_bad_crc (hcrc : c.crc ≠ cellCrc k c) :
    cellIn p k c act s = bump (if p = 0 then F.lnkCellCrcVgd0 else F.lnkCellCrcVgd1) s := by
  rw [cellIn, if_neg (by simp [hclk, hen, hup]), if_pos hcrc]

theorem cellIn_of_own (hcrc : c.crc = cellCrc k c) (hown : ownSource c.source.toNat s = true) : cellIn p k c act s = s := by
  rw [cellIn, if_neg (by simp [hclk, hen, hup]), if_neg (not_not.mpr hcrc)]
  exact if_pos hown

theorem cellIn_of_copy (hcrc : c.crc = cellCrc k c) (hown : ownSource c.source.toNat s = false)
    (hcopy : seenWithin msCycles c.source.toNat k c.cseq.toNat s = true) :
    cellIn p k c act s = noteSeen c.source.toNat k c.cseq.toNat s := by
  rw [cellIn, if_neg (by simp [hclk, hen, hup]), if_neg (not_not.mpr hcrc)]
  dsimp only
  rw [hown, hcopy, if_neg (by decide), if_pos rfl]

theorem cellIn_of_new (hcrc : c.crc = cellCrc k c) (hown : ownSource c.source.toNat s = false)
    (hcopy : seenWithin secondCycles c.source.toNat k c.cseq.toNat s = false) :
    cellIn p k c act s = act (latchSeen c.source.toNat c.cseq.toNat s) (heard p k c s) := by
  have hms : seenWithin msCycles c.source.toNat k c.cseq.toNat s = false := by
    rw [Bool.eq_false_iff] at hcopy ⊢
    exact fun h => hcopy (seenWithin_mono (by decide) h)
  rw [cellIn, if_neg (by simp [hclk, hen, hup]), if_neg (not_not.mpr hcrc)]
  dsimp only
  rw [hown, hms, if_neg (by decide), if_neg (by decide), heard]

end

/-- What a cell of a type leaves on the other link (R412). -/
def forwarded (p : Fin 2) (k : Nat) (c : Cell) (s : State) : List Sent :=
  if 1 < c.hops ∧ (k = 1 ∨ k = 2 ∨ k = 5) ∧ vgdSends true (otherLink p) s = true then
    List.replicate (if k = 5 then 1 else 2)
      (.cell (otherLink p) k { c with hops := c.hops - 1, crc := cellCrc k { c with hops := c.hops - 1 } })
  else []

theorem noteSeen_frame (source kind cseq : Nat) (s : State) :
    noteSeen source kind cseq s = { s with net := { s.net with seen := (noteSeen source kind cseq s).net.seen } } := rfl

theorem marked_noteSeen (source kind cseq : Nat) (s : State) :
    ⟨source, kind, cseq, s.periph⟩ ∈ (noteSeen source kind cseq s).net.seen := List.mem_cons_self ..

/-- What putting a cell on a link changes of the network. -/
theorem putCell_frame (fwd : Bool) (p : Fin 2) (k : Nat) (c : Cell) (s : State) :
    putCell fwd p k c s = { s with net := { s.net with
      sent := (if vgdSends fwd p s then List.replicate (if twice k then 2 else 1) (.cell p k { c with crc := cellCrc k c }) else []) ++
        s.net.sent
      vgd := (putCell fwd p k c s).net.vgd } } := by
  unfold putCell
  cases vgdSends fwd p s with
  | false => rfl
  | true => cases twice k <;> rfl

theorem heard_net (p : Fin 2) (k : Nat) (c : Cell) (s : State) : heard p k c s = { s with net := { s.net with
      seen := (noteSeen c.source.toNat k c.cseq.toNat s).net.seen
      sent := forwarded p k c s ++ s.net.sent
      vgd := (heard p k c s).net.vgd } } := by
  have hsends : vgdSends true (otherLink p) (noteSeen c.source.toNat k c.cseq.toNat s) = vgdSends true (otherLink p) s := rfl
  unfold heard forward
  split
  next hfwd =>
    obtain ⟨hhops, hkind⟩ : 1 < c.hops ∧ (k = 1 ∨ k = 2 ∨ k = 5) := by
      simp only [Bool.and_eq_true, Bool.or_eq_true, decide_eq_true_eq, or_assoc] at hfwd
      exact hfwd
    have hsent : (if vgdSends true (otherLink p) s then List.replicate (if twice k then 2 else 1) (Sent.cell (otherLink p) k
        { c with hops := c.hops - 1, crc := cellCrc k { c with hops := c.hops - 1 } }) else []) = forwarded p k c s := by
      have htwice : (if twice k then 2 else 1) = if k = 5 then 1 else 2 := by
        rcases hkind with rfl | rfl | rfl <;> rfl
      rw [forwarded, htwice]
      simp only [hhops, hkind, true_and]
    conv_lhs => rw [putCell_frame, hsends, hsent]
    rfl
  next hfwd =>
    have hnone : forwarded p k c s = [] := by
      rw [forwarded, if_neg]
      rintro ⟨hhops, hkind, -⟩
      simp only [Bool.and_eq_true, Bool.or_eq_true, decide_eq_true_eq, or_assoc] at hfwd
      exact hfwd ⟨hhops, hkind⟩
    rw [hnone]
    rfl

/-! ### The links (R411) -/

section
variable {p : Fin 2} {s : State}

/-- Which links are up once one has changed. -/
theorem vgdUp_setAt (p r : Fin 2) (b : Bool) (s : State) : vgdUp r (setAt F.lnkPortVgdUp p b s) = if r = p then b else vgdUp r s := by
  rw [vgdUp, flagAt_setAt (by decide) (fun _ => p.isLt)]
  simp only [Fin.val_inj]
  rfl

theorem otherLink_ne (p : Fin 2) : otherLink p ≠ p := by
  revert p
  decide

theorem vgdUp_congr {s t : State} (h : getF F.lnkPortVgdUp t = getF F.lnkPortVgdUp s) (r : Fin 2) : vgdUp r t = vgdUp r s := by
  rw [vgdUp, vgdUp, flagAt, flagAt, h]

theorem exec_vgdLinkTrained_of_ready (hclk : clocked s = true) (hen : vgdEnabled p s = true) (hup : vgdUp p s = false)
    (hpin : s.pins.vgdTx = true) : exec (.vgdLinkTrained p) s =
      .next (raise 0x5002 0xD (2 + p) 0 (setF (vgdLock p) 1 (setAt F.lnkPortVgdUp p true s))) := by
  rw [exec_vgdLinkTrained, execVgdLinkTrained, if_neg (by simp [hclk, hen, hup, hpin])]

theorem vgdLock_fields (p : Fin 2) : (vgdLock p).addr = F.clkState ∧ (vgdLock p).hi < 32 ∧ (vgdLock p).lo = (vgdLock p).hi := by
  revert p
  decide

/-- A link that trains is up and shows it. -/
theorem linkTrained_shows (p : Fin 2) (s : State) {t : State}
    (ht : t = raise 0x5002 0xD (2 + p) 0 (setF (vgdLock p) 1 (setAt F.lnkPortVgdUp p true s))) :
    vgdUp p t = true ∧ getF (vgdLock p) t = 1 ∧ vgdUp (otherLink p) t = vgdUp (otherLink p) s ∧
      t.ev.queue = s.ev.queue ++ [⟨0x5002, 0xD, 2 + p.val, 0, s.time⟩] ∧ t = { s with status := t.status, ev := t.ev } := by
  obtain ⟨haddr, hhi, hlo⟩ := vgdLock_fields p
  have hraise (f : Fld) (u : State) : getF f (raise 0x5002 0xD (2 + p) 0 u) = getF f u := rfl
  have hup (r : Fin 2) : vgdUp r t = if r = p then true else vgdUp r s := by
    rw [← vgdUp_setAt]
    refine vgdUp_congr ?_ r
    rw [ht, hraise, getF_setF_addr _ _ (by rw [haddr]; decide)]
  refine ⟨by rw [hup, if_pos rfl], ?_, by rw [hup, if_neg (otherLink_ne p)], ?_, eq_of_sansReport ?_⟩
  · rw [ht, hraise, getF_set_one hhi hlo]
  · rw [ht]
    rfl
  · rw [ht, sansReport_raise, sansReport_setF, sansReport_setAt]

/-- The state as a link has gone down, before the loss of its source. -/
def linkCut (p : Fin 2) (s : State) : State :=
  modNet (fun n => { n with vgd := n.vgd.set p VgdPort.reset }) (raise 0x5001 0xD (2 + p) 0
    (setF (if p = 0 then F.lnkFaultVgd0Down else F.lnkFaultVgd1Down) 1 (setAt F.lnkPortVgdUp p false s)))

theorem exec_vgdLinkDown_of_up (hclk : clocked s = true) (hup : vgdUp p s = true) :
    exec (.vgdLinkDown p) s = .next (showStratum (loseIf (vgdSrc p) (linkCut p s))) := by
  rw [exec_vgdLinkDown, execVgdLinkDown, if_pos hclk, vgdDown, if_neg (by simp [hup])]
  rfl

theorem getF_loseIf {f : Fld} (hclk : f.addr ≠ F.clkState) (hport : f.addr ≠ F.lnkPort ∨ 21 < f.lo) (x : TimeSrc) (s : State) :
    getF f (loseIf x s) = getF f s := by
  have hmod (g : TimePart → TimePart) (t : State) : getF f (modClock g t) = getF f t := getF_setF_addr _ _ hclk
  have hset (g : Fld) (hg : g.addr = F.lnkPort) (hhi : g.hi ≤ 21) (v : Nat) (t : State) : getF f (setF g v t) = getF f t := by
    rcases hport with h | h
    · exact getF_setF_addr _ _ (hg ▸ h)
    · exact getF_setF_bits _ _ (.inr (by omega))
  unfold loseIf loseSource
  split
  · split
    · rfl
    · have hraise (u : State) : getF f (raise 0x0113 0 0 0 u) = getF f u := rfl
      rw [hraise, showStratum, hset F.lnkPortStratum rfl (by decide), hmod, hset F.lnkPortTimePort rfl (by decide),
        getF_setF_addr _ _ hclk]
  · rfl

theorem loseIf_src (x : TimeSrc) (s : State) : (loseIf x s).clock.src ≠ some x := by
  unfold loseIf
  split
  next h =>
    have hnone : (loseSource s).clock.src = none := by
      unfold loseSource
      rw [h]
      rfl
    rw [hnone]
    exact nofun
  next h => exact h

/-- Losing a source reports after what was reported. -/
theorem loseIf_queue (x : TimeSrc) (s : State) : ∃ l, (loseIf x s).ev.queue = s.ev.queue ++ l := by
  unfold loseIf loseSource
  split
  · split
    · exact ⟨[], (List.append_nil _).symm⟩
    · exact ⟨_, rfl⟩
  · exact ⟨[], (List.append_nil _).symm⟩

theorem getF_showStratum {f : Fld} (h : f.addr ≠ F.lnkPort ∨ 18 < f.lo) (s : State) : getF f (showStratum s) = getF f s := by
  rcases h with h | h
  · exact getF_setF_addr _ _ h
  · exact getF_setF_bits _ _ (.inr h)

theorem carried_linkCut (p : Fin 2) (s : State) : carried (linkCut p s) = carried s := by
  have hvgd (t : State) : carried (modNet (fun n => { n with vgd := n.vgd.set p VgdPort.reset }) t) = carried t := rfl
  rw [linkCut, hvgd, carried_raise, carried_setF, setAt, carried_setF]

theorem vgdUp_linkCut (r : Fin 2) : vgdUp r (linkCut p s) = if r = p then false else vgdUp r s := by
  have hnet (t : State) (g : NetPart → NetPart) : getF F.lnkPortVgdUp (modNet g (raise 0x5001 0xD (2 + p) 0 t)) =
      getF F.lnkPortVgdUp t := rfl
  rw [← vgdUp_setAt]
  refine vgdUp_congr ?_ r
  rw [linkCut, hnet, getF_setF_addr]
  split <;> decide

theorem fault_linkCut (p : Fin 2) (s : State) : getF (if p = 0 then F.lnkFaultVgd0Down else F.lnkFaultVgd1Down) (linkCut p s) = 1 := by
  have hnet (f : Fld) (t : State) (g : NetPart → NetPart) : getF f (modNet g (raise 0x5001 0xD (2 + p) 0 t)) = getF f t := rfl
  rw [linkCut, hnet]
  split <;> exact getF_set_one (by decide) (by decide) _

/-- A link that fails is down, shows its fault, and is no source any more. -/
theorem linkDown_shows (p : Fin 2) (s : State) {t : State} (ht : t = showStratum (loseIf (vgdSrc p) (linkCut p s))) :
    vgdUp p t = false ∧ vgdUp (otherLink p) t = vgdUp (otherLink p) s ∧ t.net.vgd[p] = VgdPort.reset ∧
      getF (if p = 0 then F.lnkFaultVgd0Down else F.lnkFaultVgd1Down) t = 1 ∧ t.clock.src ≠ some (vgdSrc p) ∧
      ∃ l, t.ev.queue = s.ev.queue ++ ⟨0x5001, 0xD, 2 + p.val, 0, s.time⟩ :: l := by
  have hup (r : Fin 2) : vgdUp r t = if r = p then false else vgdUp r s := by
    rw [← vgdUp_linkCut]
    refine vgdUp_congr ?_ r
    rw [ht, getF_showStratum (.inr (by decide)), getF_loseIf (by decide) (.inr (by decide))]
  have hfault (f : Fld) (hf : f.addr = F.lnkFault) : getF f t = getF f (linkCut p s) := by
    rw [ht, getF_showStratum (.inl (by rw [hf]; decide)), getF_loseIf (by rw [hf]; decide) (.inl (by rw [hf]; decide))]
  have hnet : t.net = (linkCut p s).net := by
    have htime : sansTime t = sansTime (linkCut p s) := by rw [ht, sansTime_showStratum, sansTime_loseIf]
    rw [eq_of_sansTime htime]
  refine ⟨by rw [hup, if_pos rfl], by rw [hup, if_neg (otherLink_ne p)], ?_, ?_, ?_, ?_⟩
  · rw [hnet]
    exact Vector.getElem_set_self p.isLt
  · rw [hfault _ (by split <;> rfl), fault_linkCut]
  · rw [ht]
    exact loseIf_src (vgdSrc p) (linkCut p s)
  · obtain ⟨l, hl⟩ := loseIf_queue (vgdSrc p) (linkCut p s)
    refine ⟨l, ?_⟩
    rw [ht]
    exact hl.trans (List.append_assoc ..)

end

/-! ### What each type brings -/

/-- A record enters the receive queue, or is dropped and counted (R417). -/
theorem rxPush_shows (kind port type source : Nat) (data : List Byte) (s : State) {t : State}
    (ht : t = rxPush kind port type source data s) :
    (s.net.rx.length < 64 → t.net.rx = s.net.rx ++ [[BitVec.ofNat 32 (kind * 2 ^ 28 + port * 2 ^ 26 + type * 2 ^ 22 + source),
      BitVec.ofNat 32 s.time, BitVec.ofNat 32 (s.time / 2 ^ 32), BitVec.ofNat 32 data.length] ++ fitWords 12 (toWords data)] ∧
      getF F.lnkRxQueued t = s.net.rx.length + 1) ∧
    (64 ≤ s.net.rx.length → t.net.rx = s.net.rx ∧ getF F.lnkRxRxDrop t = min 65535 (getF F.lnkRxRxDrop s + 1)) := by
  refine ⟨fun hroom => ?_, fun hfull => ?_⟩
  · rw [rxPush, if_neg (by omega)] at ht
    refine ⟨by rw [ht]; rfl, ?_⟩
    rw [ht, showRx]
    refine (getF_setF_lt (by decide) ?_ _).trans ?_
    · change (s.net.rx ++ [_]).length < 2 ^ 7
      rw [List.length_append, List.length_singleton]
      omega
    · exact List.length_append
  · rw [rxPush, if_pos hfull] at ht
    constructor
    · have hframe := eq_of_sansReport (sansReport_raiseLim 0x5006 0xD (if kind = 1 then 2 + port / 2 else port / 2) 0
        (bump F.lnkRxRxDrop s))
      rw [ht, hframe]
      rfl
    · rw [ht, getF_congr (raiseLim_word (by decide) ..), bump, getF_bumpBy_same (by decide)]
      rfl

/-- The state as a LATCH that a die takes is staged, before the die shows it. -/
theorem stageLatch_lum {d : Fin 2} {b : List Word} {s : State} (hcomp : complementOk b = true)
    (htime : latchTime b ≤ s.time + 60000000000) (e : Fin 2) :
    ((stageLatch d b s).lum[e]).latch = if e = d then some ⟨latchTime b, latchId b⟩ else (s.lum[e]).latch := by
  unfold stageLatch
  extract_lets s1 s2
  rw [if_neg (by simp [hcomp]), if_neg (by omega)]
  have h2 : s2.lum = s.lum := by
    unfold s2 s1
    split <;> split <;> rfl
  clear_value s2
  change ((vmod s2.lum d _)[e]).latch = _
  split
  next he =>
    rw [he, vmod_same]
  next he => rw [vmod_ne _ _ he, h2]

theorem stageLatch_word {a : Nat} (hlow : a < 0x700000) (d : Fin 2) (b : List Word) (s : State) :
    (stageLatch d b s).word a = s.word a := by
  have hset (f : Fld) {c : Nat} (hf : f.addr = c + 0x8000 * d) (hc : 0x700000 ≤ c) (v : Nat) (t : State) :
      (setF f v t).word a = t.word a := setF_word_ne t v (by omega)
  have hraise (code : Nat) (t : State) : (raise code 1 (6 + d) 0 t).word a = t.word a := rfl
  have hmod (g : LumDie → LumDie) (t : State) : (modLum d g t).word a = t.word a := rfl
  have hcompl : F.intComplement ≥ 0x700000 ∧ F.intComplementSeen ≥ 0x700000 := by decide
  unfold stageLatch
  extract_lets s1 s2
  have h1 : s1.word a = s.word a := by
    unfold s1
    split
    · rw [hraise, bump, bumpBy, hset (F.lumLatchCountLate d) (c := 0x700014) rfl (by decide)]
    · rfl
  have h2 : s2.word a = s.word a := by
    unfold s2
    split
    · rw [bump, bumpBy, hset (F.lumLatchCountSuperseded d) (c := 0x700014) rfl (by decide), h1]
    · exact h1
  split
  · rw [hraise, hset (F.lumFaultComplement d) (c := 0x700020) rfl (by decide), bump, bumpBy,
      hset (F.lumComplementComplement d) (c := 0x700018) rfl (by decide), complementFail_word (by omega) (by omega)]
  · split
    · rw [hraise, hset (F.lumFaultLatchRefused d) (c := 0x700020) rfl (by decide)]
    · rw [showLatch, hset (F.lumDieStateStaged d) (c := 0x700000) rfl (by decide), hmod, h2]

/-- The state without the illumination dies, the status space and the events. -/
def sansLum (s : State) : State := { s with lum := Vector.replicate 2 (LumDie.reset 0), status := [], ev := EventPart.reset }

theorem sansLum_of_sansReport {s t : State} (h : sansReport t = sansReport s) : sansLum t = sansLum s :=
  show sansLum (sansReport t) = sansLum (sansReport s) from congrArg sansLum h

theorem sansLum_stageLatch (d : Fin 2) (b : List Word) (s : State) : sansLum (stageLatch d b s) = sansLum s := by
  have hmod (g : LumDie → LumDie) (t : State) : sansLum (modLum d g t) = sansLum t := rfl
  unfold stageLatch
  extract_lets s1 s2
  have h2 : sansReport s2 = sansReport s := by simp [s2, s1, sansReport_ite]
  split
  · exact sansLum_of_sansReport (by simp [complementFail])
  · split
    · exact sansLum_of_sansReport (by simp)
    · exact (sansLum_of_sansReport (sansReport_setF ..)).trans ((hmod _ s2).trans (sansLum_of_sansReport h2))

theorem adUp_congr {s t : State} (hopt : t.opt = s.opt) (hword : t.word F.rstDie = s.word F.rstDie) (d : Fin 2) :
    adUp d t = adUp d s := by
  rw [adUp, adUp, dieUp, dieUp, flagAt_congr (f := F.rstDieDieUp) hword, hopt]

/-- One die's part of a LATCH that names it. -/
def latchPart (b : List Word) (s : State) (d : Fin 2) : State := if latchNames b d && adUp d s then stageLatch d b s else s

theorem latchPart_frame (b : List Word) (s : State) (d : Fin 2) :
    (latchPart b s d).time = s.time ∧ ∀ e, adUp e (latchPart b s d) = adUp e s := by
  unfold latchPart
  split
  · have hframe := sansLum_stageLatch d b s
    generalize hu : stageLatch d b s = u at hframe
    have hword : u.word F.rstDie = s.word F.rstDie := hu ▸ stageLatch_word (by decide) d b s
    exact ⟨show (sansLum u).time = (sansLum s).time by rw [hframe],
      adUp_congr (show (sansLum u).opt = (sansLum s).opt by rw [hframe]) hword⟩
  · exact ⟨rfl, fun _ => rfl⟩

theorem latchPart_lum {d : Fin 2} {b : List Word} {s : State} (hcomp : complementOk b = true)
    (htime : latchTime b ≤ s.time + 60000000000) (e : Fin 2) : ((latchPart b s d).lum[e]).latch =
      if e = d ∧ latchNames b d = true ∧ adUp d s = true then some ⟨latchTime b, latchId b⟩ else (s.lum[e]).latch := by
  unfold latchPart
  by_cases h : latchNames b d = true ∧ adUp d s = true
  · rw [if_pos (by simp [h]), stageLatch_lum hcomp htime]
    simp [h]
  · rw [if_neg (by simpa using h), if_neg fun hh => h hh.2]

/-- A LATCH whose group is listed waits at the running dies that it names (R283, R415). -/
theorem takeLatch_stages {b : List Word} {s : State} (hlive : live s = true) (hgroup : (groupsOf s).contains (latchGroup b) = true)
    (hcomp : complementOk b = true) (htime : latchTime b ≤ s.time + 60000000000) (d : Fin 2) :
    ((takeLatch b s).lum[d]).latch =
      if latchNames b d = true ∧ adUp d s = true then some ⟨latchTime b, latchId b⟩ else (s.lum[d]).latch := by
  have hrun : takeLatch b s = latchPart b (latchPart b s 0) 1 := by
    rw [takeLatch, if_neg (by rw [hlive, hgroup]; decide)]
    rfl
  obtain ⟨htime0, hup0⟩ := latchPart_frame b s 0
  rw [hrun, latchPart_lum hcomp (by rw [htime0]; exact htime), latchPart_lum hcomp htime, hup0]
  match d with
  | 0 => simp
  | 1 => simp

/-! ### TIME (R413) -/

/-- A link that announces a STRATUM below 15, while the other is down, is the best. -/
theorem bestVgd_of_only {p : Fin 2} {s : State} {n : Nat} (hmaster : bit (s.word F.lnkCfg0) 29 = false) (hen : vgdEnabled p s = true)
    (hup : vgdUp p s = true) (hother : vgdUp (otherLink p) s = false) (hstr : s.net.vgd[p].stratum = some n) (hn : n < 15) :
    bestVgd s = some p := by
  unfold bestVgd
  extract_lets str
  have hp : str p = n := by simp only [str, hen, hup, hstr, Bool.and_self, if_true, Option.getD_some]
  have hq : str (otherLink p) = 15 := by simp only [str, hother, Bool.and_false, Bool.false_eq_true, if_false]
  clear_value str
  rw [if_neg (by rw [hmaster]; decide)]
  match p with
  | 0 =>
    have h1 : str 1 = 15 := hq
    rw [if_pos (by rw [h1, hp]; simp; omega)]
  | 1 =>
    have h0 : str 0 = 15 := hq
    rw [if_neg (by rw [h0]; simp), if_pos (by omega)]

theorem takesOffset_vgd {p : Fin 2} {s : State} (hlive : live s = true) (hbest : bestVgd s = some p) :
    takesOffset (vgdSrc p) s = true := by
  match p with
  | 0 => simp [takesOffset, hlive, vgdSrc, srcRank, srcAllowed, hbest]
  | 1 => simp [takesOffset, hlive, vgdSrc, srcRank, srcAllowed, hbest]

/-- The state with the stamps of a TIME cell noted on its link. -/
def stamped (p : Fin 2) (c : Cell) (s : State) : State :=
  modNet (fun n => { n with vgd := vmod n.vgd p fun v => { v with
    last := some ((fieldAt c.payload 16 8 : Int), (s.time : Int))
    stratum := some (fieldAt c.payload 24 1)
    delay := if fieldAt c.payload 0 8 = 0 then v.delay
      else some (linkDelay (fieldAt c.payload 0 8) (fieldAt c.payload 8 8) (fieldAt c.payload 16 8) s.time) } }) s

theorem takeTime_eq (p : Fin 2) (c : Cell) (s : State) : takeTime p c s =
    let t := if (stamped p c s).clock.src = some (vgdSrc p) && bestVgd (stamped p c s) = none then loseSource (stamped p c s)
      else stamped p c s
    if bestVgd t = some p && fieldAt c.payload 0 8 ≠ 0 then
      showStratum (takeOffset (vgdSrc p) (timeOffset (fieldAt c.payload 0 8) (fieldAt c.payload 8 8) (fieldAt c.payload 16 8) s.time) t)
    else showStratum t := rfl

theorem takeTime_net (p : Fin 2) (c : Cell) (s : State) : (takeTime p c s).net = (stamped p c s).net := by
  have hframe : sansTime (takeTime p c s) = sansTime (stamped p c s) := by
    rw [takeTime_eq]
    simp [sansTime_ite]
  rw [eq_of_sansTime hframe]

/-- The link keeps the stamps, the STRATUM and, where this module's own stamp came back, the delay (R413). -/
theorem takeTime_link (p : Fin 2) (c : Cell) (s : State) :
    ((takeTime p c s).net.vgd[p]).last = some ((fieldAt c.payload 16 8 : Int), (s.time : Int)) ∧
    ((takeTime p c s).net.vgd[p]).stratum = some (fieldAt c.payload 24 1) ∧
    ((takeTime p c s).net.vgd[p]).delay = if fieldAt c.payload 0 8 = 0 then (s.net.vgd[p]).delay
      else some (linkDelay (fieldAt c.payload 0 8) (fieldAt c.payload 8 8) (fieldAt c.payload 16 8) s.time) := by
  rw [takeTime_net]
  unfold stamped modNet
  dsimp only
  rw [vmod_same]
  exact ⟨rfl, rfl, rfl⟩

/-- With no source in use and this link the only one up, its offset is taken (R70, R413). -/
theorem takeTime_source {p : Fin 2} {c : Cell} {s : State} (hen : vgdEnabled p s = true) (hup : vgdUp p s = true)
    (hlive : live s = true) (hmaster : bit (s.word F.lnkCfg0) 29 = false) (hother : vgdUp (otherLink p) s = false)
    (hsrc : s.clock.src = none) (hstr : fieldAt c.payload 24 1 < 15) (hstamp : fieldAt c.payload 0 8 ≠ 0) :
    let off := timeOffset (fieldAt c.payload 0 8) (fieldAt c.payload 8 8) (fieldAt c.payload 16 8) s.time
    (takeTime p c s).clock.src = some (vgdSrc p) ∧
      (off.natAbs ≤ 1000000 → (takeTime p c s).clock.remaining = -off ∧ (takeTime p c s).time = s.time) := by
  intro off
  have hstratum : (stamped p c s).net.vgd[p].stratum = some (fieldAt c.payload 24 1) := by
    rw [← takeTime_net]
    exact (takeTime_link p c s).2.1
  have hbest : bestVgd (stamped p c s) = some p := bestVgd_of_only hmaster hen hup hother hstratum hstr
  have hkeeps : ¬ ((stamped p c s).clock.src = some (vgdSrc p) && bestVgd (stamped p c s) = none) = true := by simp [hbest]
  have hrun : takeTime p c s = showStratum (takeOffset (vgdSrc p) off (stamped p c s)) := by
    rw [takeTime_eq]
    dsimp only
    rw [if_neg hkeeps, if_pos (by simp [hbest, hstamp])]
  have htakes : takesOffset (vgdSrc p) (stamped p c s) = true := takesOffset_vgd hlive hbest
  rw [hrun, showStratum_clock, showStratum_time]
  exact ⟨takeOffset_src htakes off, fun hoff => takeOffset_slews htakes hoff⟩

/-! ### SYNC (R117, R414) -/

theorem mem_insertSorted {α : Type} (le : α → α → Bool) (x y : α) (l : List α) : y ∈ insertSorted le x l ↔ y = x ∨ y ∈ l := by
  induction l with
  | nil => simp [insertSorted]
  | cons z l ih =>
    unfold insertSorted
    split
    · simp
    · simp [ih, or_left_comm]

theorem pendingEdges_setEdges (es : List Nat) (s : State) : pendingEdges (setEdges es s) = es := by
  cases es <;> rfl

theorem requestEdge_of_free {c : Nat} {s : State} (h : edgeTooSoon c s = false) : ∃ t, requestEdge c s =
    setEdges (insertSorted (fun x y => decide (x ≤ y)) c
      ((pendingEdges s).filter fun e => !((pendingEdges s).filter fun e => decide (c < e) && decide (e < c + 1000)).contains e)) t := by
  unfold requestEdge
  extract_lets near s1
  have hign (u : State) (x : Nat) : pendingEdges (ignoreEdge (dropPulse x u)) = pendingEdges u := by
    have hframe := eq_of_sansReport (sansReport_ignoreEdge (dropPulse x u))
    rw [hframe]
    rfl
  have h1 : pendingEdges s1 = pendingEdges s := foldl_keeps pendingEdges hign near s
  rw [if_neg (by simp [h]), h1]
  exact ⟨s1, rfl⟩

/-- A request that is not too soon stands among the edges pending, and later ones less than 10 µs behind it give way (R117). -/
theorem mem_pendingEdges_requestEdge {c : Nat} {s : State} (h : edgeTooSoon c s = false) (e : Nat) :
    e ∈ pendingEdges (requestEdge c s) ↔ e = c ∨ e ∈ pendingEdges s ∧ ¬ (c < e ∧ e < c + 1000) := by
  obtain ⟨t, ht⟩ := requestEdge_of_free h
  rw [ht, pendingEdges_setEdges, mem_insertSorted, List.mem_filter]
  refine or_congr_right (and_congr_right fun he => ?_)
  simp [he]
  omega

theorem word_bothFd {a : Nat} {f : Nat → State → State} (h : ∀ i, i < 2 → ∀ s, (f i s).word a = s.word a) (s : State) :
    (bothFd f s).word a = s.word a := by
  unfold bothFd
  extract_lets s1
  split
  · rw [h 1 (by decide), h 0 (by decide)]
  · exact h 0 (by decide) s

/-- The words of the network stand apart from what a request for an edge shows. -/
theorem word_requestEdge {a : Nat} (ha : 0x900000 ≤ a) (c : Nat) (s : State) : (requestEdge c s).word a = s.word a := by
  have hign (t : State) : (ignoreEdge t).word a = t.word a := by
    have hone (i : Nat) (hi : i < 2) (t : State) :
        (bump (F.fpdSyncSyncIgnoredCount i) (setF (F.fpdFaultSyncIgnored i) 1 t)).word a = t.word a := by
      have hcount : a ≠ F.fpdSync i := by unfold F.fpdSync; omega
      have hfault : a ≠ F.fpdFault i := by unfold F.fpdFault; omega
      rw [bump_word_ne hcount, setF_word_ne _ _ hfault]
    rw [ignoreEdge, raise_word, word_bothFd hone]
  unfold requestEdge
  extract_lets near s1
  split
  · exact hign s
  · exact foldl_keeps (fun s : State => s.word a) (fun s e => hign (dropPulse e s)) near s

theorem lsyncPulse_word (c a : Nat) (s : State) : (lsyncPulse c s).word a = s.word a := by
  unfold lsyncPulse
  split <;> rfl

theorem pendingEdges_lsyncPulse (c : Nat) (s : State) : pendingEdges (lsyncPulse c s) = pendingEdges s := by
  unfold lsyncPulse
  split <;> rfl

/-- The state as a late SYNC has been counted. -/
def lateNoted (p : Fin 2) (late : Bool) (s : State) : State :=
  if late then raise 0x5005 0xD (2 + p) 0 (bump F.lnkSyncSyncLate s) else s

/-- A SYNC cell whose edge is not too soon requests it, a late one the next (R414). -/
theorem takeSync_of_free {p : Fin 2} {c : Cell} {s : State} (hfwd : syncFwd p s = true) (hwork : working s = true)
    (hsrc : getF F.clkStateTimeSrc s ≠ 0) {b : Int} (hb : b = boundaryAt (leNat (c.payload.take 8) + 600 * (64 - c.hops)) s) {at_ : Nat}
    (hat : at_ = if b ≤ s.periph then edgeCycle s.periph else b.toNat) (hfree : edgeTooSoon at_ s = false) : takeSync p c s =
      lsyncPulse at_ (modNet (fun n => { n with syncE0 := (at_, (leNat (c.payload.take 8) : Int)) :: n.syncE0 })
        (bump F.lnkSyncSyncRx (requestEdge at_ (lateNoted p (decide (b ≤ s.periph)) s)))) := by
  have hlate : (decide (boundaryAt (leNat (c.payload.take 8) + 600 * (64 - c.hops)) s ≤ s.periph) || getF F.clkStateTimeSrc s = 0) =
      decide (b ≤ s.periph) := by rw [← hb]; simp [hsrc]
  have hperiph : (lateNoted p (decide (b ≤ s.periph)) s).periph = s.periph := by unfold lateNoted; split <;> rfl
  have hsoon : edgeTooSoon at_ (lateNoted p (decide (b ≤ s.periph)) s) = false := by
    rw [← hfree]
    unfold lateNoted
    split <;> rfl
  unfold takeSync
  extract_lets e0 b' late s1 at'
  have hlate' : late = decide (b ≤ s.periph) := hlate
  have hs1 : s1 = lateNoted p (decide (b ≤ s.periph)) s := by rw [← hlate']; rfl
  have hat' : at' = at_ := by
    rw [hat]
    unfold at'
    rw [hs1, hperiph, hlate', hb]
    simp only [decide_eq_true_eq]
    rfl
  rw [if_neg (by simp [hfwd, hwork]), hat', hs1, if_neg (by simp [hsoon])]

theorem takeSync_of_not_fwd {p : Fin 2} {c : Cell} {s : State} (hfwd : syncFwd p s = false) : takeSync p c s = s := by
  rw [takeSync, if_pos (by rw [hfwd]; rfl)]

/-- The counts of SYNC_RX and SYNC_LATE, and the edges pending, once a SYNC cell has requested its edge. -/
theorem takeSync_shows {p : Fin 2} {c : Cell} {s : State} (hfwd : syncFwd p s = true) (hwork : working s = true)
    (hsrc : getF F.clkStateTimeSrc s ≠ 0) {b : Int} (hb : b = boundaryAt (leNat (c.payload.take 8) + 600 * (64 - c.hops)) s) {at_ : Nat}
    (hat : at_ = if b ≤ s.periph then edgeCycle s.periph else b.toNat) (hfree : edgeTooSoon at_ s = false) :
    (∀ e, e ∈ pendingEdges (takeSync p c s) ↔ e = at_ ∨ (e ∈ pendingEdges s ∧ ¬ (at_ < e ∧ e < at_ + 1000))) ∧
      getF F.lnkSyncSyncRx (takeSync p c s) = min 65535 (getF F.lnkSyncSyncRx s + 1) ∧
      getF F.lnkSyncSyncLate (takeSync p c s) =
        if b ≤ s.periph then min 65535 (getF F.lnkSyncSyncLate s + 1) else getF F.lnkSyncSyncLate s := by
  rw [takeSync_of_free hfwd hwork hsrc hb hat hfree]
  have hgrid : (lateNoted p (decide (b ≤ s.periph)) s).grid = s.grid := by unfold lateNoted; split <;> rfl
  have hlateRx : getF F.lnkSyncSyncRx (lateNoted p (decide (b ≤ s.periph)) s) = getF F.lnkSyncSyncRx s := by
    unfold lateNoted
    split
    · exact getF_setF_bits _ _ (by decide)
    · rfl
  have hlate : getF F.lnkSyncSyncLate (lateNoted p (decide (b ≤ s.periph)) s) =
      if b ≤ s.periph then min 65535 (getF F.lnkSyncSyncLate s + 1) else getF F.lnkSyncSyncLate s := by
    unfold lateNoted
    by_cases h : b ≤ s.periph
    · rw [if_pos (decide_eq_true h), if_pos h]
      exact getF_bumpBy_same (f := F.lnkSyncSyncLate) (by decide) 1 s
    · rw [if_neg (by simp [h]), if_neg h]
  have hsoon : edgeTooSoon at_ (lateNoted p (decide (b ≤ s.periph)) s) = false := by
    rw [← hfree, edgeTooSoon, edgeTooSoon, pendingEdges, pendingEdges, hgrid]
  have hpend : pendingEdges (lateNoted p (decide (b ≤ s.periph)) s) = pendingEdges s := by rw [pendingEdges, pendingEdges, hgrid]
  generalize lateNoted p (decide (b ≤ s.periph)) s = u at hlateRx hlate hsoon hpend ⊢
  have hreq := mem_pendingEdges_requestEdge hsoon
  have hword : (requestEdge at_ u).word F.lnkSync = u.word F.lnkSync := word_requestEdge (by decide) at_ u
  generalize requestEdge at_ u = r at hreq hword ⊢
  refine ⟨fun e => ?_, ?_, ?_⟩
  · rw [pendingEdges_lsyncPulse, ← hpend, ← hreq]
    rfl
  · rw [getF_congr (lsyncPulse_word ..)]
    refine (getF_bumpBy_same (f := F.lnkSyncSyncRx) (by decide) 1 r).trans ?_
    rw [getF_congr (f := F.lnkSyncSyncRx) hword, hlateRx]
    rfl
  · rw [getF_congr (lsyncPulse_word ..)]
    refine (getF_setF_bits (f := F.lnkSyncSyncRx) (g := F.lnkSyncSyncLate) r _ (by decide)).trans ?_
    rw [getF_congr (f := F.lnkSyncSyncLate) hword, hlate]

/-! ### Requests (R410) -/

/-- A request that stands before the hub with the layout of its row is carried out, and concluded with its answer. -/
theorem request_of_asks {op : Nat} {modes states : List Nat} {layout : List Byte → Bool}
    {act : State → State × Option (Nat × List Byte)} {h : Hdr} {p : List Byte} {s t : State} {st : Nat} {data : List Byte}
    (hasks : asks op modes states h p s) (hrow : opTable.find? (fun r => r.op = op) = some ⟨op, modes, states⟩)
    (hlayout : layout p = true) (hact : act s = (t, some (st, data))) : request op layout act h p s = conclude h st data t := by
  obtain ⟨hhears, hok, haddr, hop, hkept, hlen, hshort, hflags, hstatus, hmode, ⟨n, hn, hhost⟩, hverify⟩ := hasks
  have hhead : ¬ (h.length.toNat ≠ p.length || decide (1448 < p.length) || decide (h.flags ≠ 0) || decide (h.status ≠ 0)) = true := by
    simp [hlen, hflags, hstatus, hshort]
  have hbusy : opBusy op s = false := by simp [opBusy, hverify]
  have hnone : refusal op layout h p s = none := by
    rw [refusal, if_neg hhead, hop, hrow]
    simp [hlayout, hmode, hhost, hn, hbusy]
  rw [request, requestThen, hhears, hok, haddr, hop, hkept]
  simp [hnone, hact]

theorem conclude_of_ok (h : Hdr) (data : List Byte) (s : State) : conclude h 0 data s = reply h 0 data s := rfl

theorem reply_of_unanswered {h : Hdr} (hans : answered h = false) (st : Nat) (data : List Byte) (s : State) : reply h st data s = s := by
  rw [reply, hans]
  rfl

/-- A LATCH datagram from another module, of a number not seen, is marked and acted on (R415). -/
theorem exec_latchDatagram_of_new {h : Hdr} {d : List Byte} {s : State} (hasks : asks 0x71 [1] [0, 1, 2, 3, 4, 5] h d s)
    (hlen : d.length = 36) (hown : ownSource (fieldAt d 32 4) s = false) (hnew : latchSeen (fieldAt d 32 4) h.seq.toNat s = false) :
    exec (.latchDatagram h d) s =
      .next (takeLatch (toWords (d.take 32)) (noteSeen (fieldAt d 32 4) latchDatagram h.seq.toNat s)) := by
  have hans : answered h = false := by
    have hmode : hdrMode h = 1 := by
      obtain ⟨-, -, -, -, -, -, -, -, -, hmode, -, -⟩ := hasks
      simpa using hmode
    simp [answered, hmode]
  rw [exec_latchDatagram, execLatchDatagram, request_of_asks (st := 0) (data := []) hasks (by decide) (by simp [sized, hlen])
    (t := takeLatch (toWords (d.take 32)) (noteSeen (fieldAt d 32 4) latchDatagram h.seq.toNat s))]
  · rw [conclude_of_ok, reply_of_unanswered hans]
  · simp [plain, hown, hnew, stOk]

/-- The state as a message has entered the queue, under a free sender. -/
def msgTaken (h : Hdr) (d : List Byte) (s : State) : State :=
  rxPush (if answered h then 3 else 2) (2 ^ h.eth.val) 0 (Config.freeValue s.free % 2 ^ 18) d { s with free := s.free + 1 }

theorem exec_cmdMsg_of_asks {h : Hdr} {d : List Byte} {s : State} (hasks : asks 0x50 [0, 1, 2] [2, 3, 4] h d s) (hlo : 4 ≤ d.length)
    (hhi : d.length ≤ 48) : exec (.cmdMsg h d) s = .next (reply h 0 [] (msgTaken h d s)) := by
  rw [exec_cmdMsg, execCmdMsg, request_of_asks (st := 0) (data := []) (t := msgTaken h d s) hasks (by decide) (by simp [inR, hlo, hhi]) ?_]
  · rw [conclude_of_ok]
  · rfl

/-- A reply leaves and is kept where the request is one that is answered; of the state it reads the port's address. -/
theorem reply_answers {h : Hdr} {s t : State} (hnet : t.net.sent = s.net.sent ∧ t.net.replies = s.net.replies)
    (haddr : ethAddr h.eth t = ethAddr h.eth s) (st : Nat) (data : List Byte) : answers h st data s (reply h st data t) := by
  obtain ⟨hsent, hreplies⟩ := hnet
  unfold answers
  cases hans : answered h with
  | false => simpa [reply_of_unanswered hans] using ⟨hsent, hreplies⟩
  | true =>
    refine ⟨Config.freeValue t.free, ?_⟩
    have hsame (r : Hdr) (u : State) (hu : ethAddr h.eth u = ethAddr h.eth s) : replyTo h r data u = replyTo h r data s := by
      unfold replyTo sealHdr
      rw [hu]
    rw [reply, hans, ← hsent, ← hreplies]
    exact ⟨by rw [← hsame _ _ haddr]; rfl, rfl⟩

/-- A reply leaves everything but what was sent, the replies kept and the free values. -/
theorem reply_frame (h : Hdr) (st : Nat) (data : List Byte) (s : State) : reply h st data s = { s with
    net := { s.net with sent := (reply h st data s).net.sent, replies := (reply h st data s).net.replies }
    free := (reply h st data s).free } := by
  cases hans : answered h with
  | false => rw [reply_of_unanswered hans]
  | true =>
    rw [reply, hans]
    rfl

/-! ### Settling the statement -/

section
variable {p : Fin 2} {s : State}

/-- The counter of bad cells of a link. -/
def crcCount (p : Fin 2) : Fld := if p = 0 then F.lnkCellCrcVgd0 else F.lnkCellCrcVgd1

theorem crcCount_fields (p : Fin 2) : (crcCount p).hi < 32 ∧ topF (crcCount p) = 65535 := by
  revert p
  decide

theorem carried_noteSeen_units (source kind cseq : Nat) (s : State) :
    (noteSeen source kind cseq s).units = s.units ∧ (noteSeen source kind cseq s).mem = s.mem := ⟨rfl, rfl⟩

/-- A cell of any type with a bad CRC only counts, the module's own is dropped, and a copy renews its mark (R411, R412). -/
theorem cell_discarded {i : Instr} {k : Nat} {c : Cell} {act : Bool → State → State} (hexec : exec i s = .next (cellIn p k c act s))
    (hclk : clocked s = true) (hen : vgdEnabled p s = true) (hup : vgdUp p s = true) :
    (c.crc ≠ cellCrc k c → ∃ t, exec i s = .next t ∧ t.units = s.units ∧ t.mem = s.mem ∧ t = { s with status := t.status } ∧
      getF (crcCount p) t = min 65535 (getF (crcCount p) s + 1)) ∧
    (c.crc = cellCrc k c → ownSource c.source.toNat s = true → exec i s = .next s) ∧
    (c.crc = cellCrc k c → ownSource c.source.toNat s = false → seenWithin msCycles c.source.toNat k c.cseq.toNat s = true →
      ∃ t, exec i s = .next t ∧ t.units = s.units ∧ t.mem = s.mem ∧ ⟨c.source.toNat, k, c.cseq.toNat, s.periph⟩ ∈ t.net.seen ∧
        t = { s with net := { s.net with seen := t.net.seen } }) := by
  obtain ⟨hhi, htop⟩ := crcCount_fields p
  refine ⟨fun hcrc => ⟨bump (crcCount p) s, ?_, bump_units .., bump_mem .., eq_of_sansStatus (sansStatus_bump ..), ?_⟩,
    fun hcrc hown => ?_, fun hcrc hown hcopy => ⟨noteSeen c.source.toNat k c.cseq.toNat s, ?_, rfl, rfl, marked_noteSeen .., rfl⟩⟩
  · rw [hexec, cellIn_of_bad_crc hclk hen hup hcrc, crcCount]
  · rw [bump, getF_bumpBy_same hhi, htop]
  · rw [hexec, cellIn_of_own hclk hen hup hcrc hown]
  · rw [hexec, cellIn_of_copy hclk hen hup hcrc hown hcopy]

/-- A new cell, acted on by `act`, is marked and forwarded. -/
theorem cell_brings {i : Instr} {k : Nat} {c : Cell} {act : Bool → State → State} {eff : State → Prop}
    (hexec : exec i s = .next (cellIn p k c act s)) (hclk : clocked s = true) (hen : vgdEnabled p s = true) (hup : vgdUp p s = true)
    (hcame : c.crc = cellCrc k c ∧ ownSource c.source.toNat s = false ∧ seenWithin secondCycles c.source.toNat k c.cseq.toNat s = false)
    (hact : ∀ t, carried (act (latchSeen c.source.toNat c.cseq.toNat s) t) = carried t)
    (heff : eff (act (latchSeen c.source.toNat c.cseq.toNat s) (heard p k c s))) :
    ∃ t, exec i s = .next t ∧ t.units = s.units ∧ t.mem = s.mem ∧ ⟨c.source.toNat, k, c.cseq.toNat, s.periph⟩ ∈ t.net.seen ∧
      t.net.sent = forwarded p k c s ++ s.net.sent ∧ eff t := by
  obtain ⟨hcrc, hown, hcopy⟩ := hcame
  have hcarried := hact (heard p k c s)
  rw [hexec, cellIn_of_new hclk hen hup hcrc hown hcopy]
  generalize act (latchSeen c.source.toNat c.cseq.toNat s) (heard p k c s) = t at hcarried heff ⊢
  have hc : carried t = (s.units, s.mem, (noteSeen c.source.toNat k c.cseq.toNat s).net.seen, forwarded p k c s ++ s.net.sent) := by
    rw [hcarried, heard_net]
    rfl
  simp only [carried, Prod.mk.injEq] at hc
  obtain ⟨hunits, hmem, hseen, hsent⟩ := hc
  exact ⟨t, rfl, hunits, hmem, hseen ▸ marked_noteSeen .., hsent, heff⟩

end

theorem heard_vgd_time (p : Fin 2) (c : Cell) (s : State) : (heard p 4 c s).net.vgd = s.net.vgd := by
  have hnot : ¬ (1 < c.hops && (4 = cellSync || 4 = cellLatch || 4 = cellOwner)) = true := by
    cases decide (1 < c.hops) <;> decide
  rw [heard, forward, if_neg hnot]
  rfl

/-- A cell that was heard has changed the network alone, and there not the receive queue. -/
theorem heard_eq (p : Fin 2) (k : Nat) (c : Cell) (s : State) : ∃ n : NetPart, heard p k c s = { s with net := n } ∧ n.rx = s.net.rx := by
  refine ⟨(heard p k c s).net, ?_, ?_⟩
  · conv_lhs => rw [heard_net]
    conv_rhs => rw [heard_net]
  · rw [heard_net]

theorem carried_ownerIn (p : Fin 2) (c : Cell) (s : State) :
    carried (if c.group = 0 || (groupsOf s).contains c.group.toNat then
      rxPush 1 (2 ^ p.val) cellOwner c.source.toNat (c.payload.take 48) s else s) = carried s := by
  rw [carried_ite, carried_rxPush, ite_self]

/-- A message that enters the queue leaves the replies kept and the ports' addresses. -/
theorem msgTaken_keeps (h : Hdr) (d : List Byte) (s : State) : (msgTaken h d s).net.replies = s.net.replies ∧
    ethAddr h.eth (msgTaken h d s) = ethAddr h.eth s := by
  have haddr : F.lnkEth0Addr + 4 * h.eth.val ≠ F.lnkRx ∧ F.lnkEth0Addr + 4 * h.eth.val ≠ F.intEvtSuppressed := by
    have := h.eth.isLt
    unfold F.lnkEth0Addr F.lnkRx F.intEvtSuppressed
    omega
  unfold msgTaken rxPush
  split
  · constructor
    · have hframe := eq_of_sansReport (sansReport_raiseLim 0x5006 0xD
        (if (if answered h then 3 else 2) = 1 then 2 + 2 ^ h.eth.val / 2 else 2 ^ h.eth.val / 2) 0
        (bump F.lnkRxRxDrop { s with free := s.free + 1 }))
      rw [hframe]
      rfl
    · exact (raiseLim_word haddr.2 ..).trans (bump_word_ne haddr.1 _)
  · exact ⟨rfl, setF_word_ne _ _ haddr.1⟩

/-- Settles O54, with a frame that every cell acted on keeps and a lemma for what each type brings. -/
theorem vangadCells : Obligations.VangadCells := by
  unfold Obligations.VangadCells
  intro p s hclk ends q cell copy marked out came brings queued latched
  refine ⟨fun hen hup hpin => ?_, fun hup => ?_, fun hen hup c => ⟨fun k hk => ?_, fun hcame => ⟨fun hfwd => ?_, ?_⟩,
    fun hcame => ⟨fun hnew => ?_, fun hold => ?_⟩, fun hcame => ?_, fun hcame => ?_, fun hcame => ⟨fun hgroup => ?_, fun hc hgroup => ?_⟩⟩,
    fun h d => ⟨fun hasks hlen hown hnew => ?_, fun hasks hlo hhi => ?_⟩⟩
  · have hshows := linkTrained_shows p s rfl
    refine ⟨_, exec_vgdLinkTrained_of_ready hclk hen hup hpin, ?_, ?_, hshows⟩
    · rw [hshows.2.2.2.2]
    · rw [hshows.2.2.2.2]
  · have hcarried : carried (showStratum (loseIf (vgdSrc p) (linkCut p s))) = carried s := by
      rw [carried_of_sansTime (sansTime_showStratum _), carried_of_sansTime (sansTime_loseIf ..), carried_linkCut]
    exact ⟨_, exec_vgdLinkDown_of_up hclk hup, congrArg (·.1) hcarried, congrArg (·.2.1) hcarried, linkDown_shows p s rfl⟩
  · simp only [List.mem_cons, List.not_mem_nil, or_false] at hk
    rcases hk with rfl | rfl | rfl | rfl | rfl
    · exact cell_discarded (exec_vgdSyncCell ..) hclk hen hup
    · exact cell_discarded (exec_vgdLatchCell ..) hclk hen hup
    · exact cell_discarded (exec_vgdHandoffCell ..) hclk hen hup
    · exact cell_discarded (exec_vgdTimeCell ..) hclk hen hup
    · exact cell_discarded (exec_vgdOwnerCell ..) hclk hen hup
  · refine cell_brings (exec_vgdSyncCell ..) hclk hen hup hcame (carried_takeSync p c) ?_
    obtain ⟨n, hn, -⟩ := heard_eq p 1 c s
    have hidle : takeSync p c { s with net := n } = { s with net := n } := takeSync_of_not_fwd hfwd
    rw [hn, hidle]
    exact ⟨rfl, rfl⟩
  · intro hfwd hwork hsrc b at_ hfree
    refine cell_brings (exec_vgdSyncCell ..) hclk hen hup hcame (carried_takeSync p c) ?_
    obtain ⟨n, hn, -⟩ := heard_eq p 1 c s
    rw [hn]
    exact takeSync_shows (s := { s with net := n }) hfwd hwork hsrc rfl rfl hfree
  · refine cell_brings (exec_vgdLatchCell ..) hclk hen hup hcame (fun t => ?_) ?_
    · rw [hnew]
      exact carried_takeLatch _ t
    · obtain ⟨n, hn, -⟩ := heard_eq p 2 c s
      rw [hnew, hn]
      exact fun hlive hgroup hcomp htime => takeLatch_stages (s := { s with net := n }) hlive hgroup hcomp htime
  · refine cell_brings (exec_vgdLatchCell ..) hclk hen hup hcame (fun t => ?_) ?_
    · rw [hold]
      rfl
    · obtain ⟨n, hn, -⟩ := heard_eq p 2 c s
      rw [hold, hn]
      exact ⟨rfl, rfl⟩
  · refine cell_brings (exec_vgdHandoffCell ..) hclk hen hup hcame (carried_rxPush _ _ _ _ _) ?_
    obtain ⟨n, hn, hrx⟩ := heard_eq p 3 c s
    rw [hn]
    have hshows := rxPush_shows 1 (2 ^ p.val) 3 c.source.toNat (c.payload.take 48) { s with net := n } rfl
    rwa [hrx] at hshows
  · refine cell_brings (exec_vgdTimeCell ..) hclk hen hup hcame (carried_takeTime p c) ?_
    have hvgd := heard_vgd_time p c s
    obtain ⟨n, hn, -⟩ := heard_eq p 4 c s
    rw [hn] at hvgd ⊢
    obtain ⟨hlast, hstratum, hdelay⟩ := takeTime_link p c { s with net := n }
    rw [show n.vgd = s.net.vgd from hvgd] at hdelay
    refine ⟨hlast, hstratum, hdelay, fun hlive hmaster hother hsrc hstr hstamp => ?_⟩
    exact takeTime_source (s := { s with net := n }) hen hup hlive hmaster hother hsrc hstr hstamp
  · refine cell_brings (exec_vgdOwnerCell ..) hclk hen hup hcame (carried_ownerIn p c) ?_
    obtain ⟨n, hn, hrx⟩ := heard_eq p 5 c s
    have hlisted : (c.group = 0 || (groupsOf { s with net := n }).contains c.group.toNat) = true := by
      rw [Bool.or_eq_true, decide_eq_true_eq]
      exact hgroup
    rw [hn, if_pos hlisted]
    have hshows := rxPush_shows 1 (2 ^ p.val) 5 c.source.toNat (c.payload.take 48) { s with net := n } rfl
    rwa [hrx] at hshows
  · refine cell_brings (exec_vgdOwnerCell ..) hclk hen hup hcame (carried_ownerIn p c) ?_
    obtain ⟨n, hn, hrx⟩ := heard_eq p 5 c s
    have hunlisted : ¬ (c.group = 0 || (groupsOf { s with net := n }).contains c.group.toNat) = true := by
      rw [Bool.or_eq_true, decide_eq_true_eq, not_or]
      exact ⟨hc, Bool.eq_false_iff.mp hgroup⟩
    rw [hn, if_neg hunlisted]
    exact hrx
  · have hcarried := carried_takeLatch (toWords (d.take 32)) (noteSeen (fieldAt d 32 4) latchDatagram h.seq.toNat s)
    refine ⟨_, exec_latchDatagram_of_new hasks hlen hown hnew, congrArg (·.1) hcarried, congrArg (·.2.1) hcarried, ?_,
      congrArg (·.2.2.2) hcarried⟩
    exact fun hlive hgroup hcomp htime => takeLatch_stages hlive hgroup hcomp htime
  · have hcarried : carried (msgTaken h d s) = carried s := carried_rxPush ..
    have hreply := reply_frame h 0 [] (msgTaken h d s)
    obtain ⟨hreplies, haddr⟩ := msgTaken_keeps h d s
    have hans := reply_answers (h := h) ⟨congrArg (·.2.2.2) hcarried, hreplies⟩ haddr 0 []
    have hword (f : Fld) : getF f (reply h 0 [] (msgTaken h d s)) = getF f (msgTaken h d s) :=
      getF_congr (word_congr (by rw [hreply]) (by rw [hreply]) _)
    have hrx : (reply h 0 [] (msgTaken h d s)).net.rx = (msgTaken h d s).net.rx := by rw [hreply]
    have hunits : (reply h 0 [] (msgTaken h d s)).units = (msgTaken h d s).units := by rw [hreply]
    have hmem : (reply h 0 [] (msgTaken h d s)).mem = (msgTaken h d s).mem := by rw [hreply]
    refine ⟨_, exec_cmdMsg_of_asks hasks hlo hhi, hunits.trans (congrArg (·.1) hcarried), hmem.trans (congrArg (·.2.1) hcarried), hans,
      Config.freeValue s.free % 2 ^ 18, Nat.mod_lt _ (by decide), ?_⟩
    simp only [queued, hword, hrx]
    exact rxPush_shows _ _ _ _ d { s with free := s.free + 1 } rfl

end Sys2Proof.Machine
end

section
/-!
SUPPORT. The Ethernet ports: links, frames and addresses (R405, R406, R422), PTP (R407), heartbeats and ALIVE (R418, R419).
-/

namespace Sys2Proof.Machine

/-! ### Links (R422) -/

section
variable {e : Fin 2} {s : State}

theorem ethUp_congr {s t : State} (h : getF F.lnkPortEthUp t = getF F.lnkPortEthUp s) (r : Fin 2) : ethUp r t = ethUp r s := by
  rw [ethUp, ethUp, flagAt, flagAt, h]

/-- Which ports are up once one has changed. -/
theorem ethUp_setAt (e r : Fin 2) (b : Bool) (s : State) : ethUp r (setAt F.lnkPortEthUp e b s) = if r = e then b else ethUp r s := by
  rw [ethUp, flagAt_setAt (by decide) (fun _ => e.isLt)]
  simp only [Fin.val_inj]
  rfl

theorem ethLock_fields (e : Fin 2) : (ethLock e).addr = F.clkState ∧ (ethLock e).hi < 32 ∧ (ethLock e).lo = (ethLock e).hi ∧
    (ethLock e).hi < 7 := by
  revert e
  decide

theorem ethDownFld_fields (e : Fin 2) : (ethDownFld e).addr = F.lnkFault ∧ (ethDownFld e).hi < 32 ∧
    (ethDownFld e).lo = (ethDownFld e).hi := by
  revert e
  decide

/-- The words of the groups in force stand as long as the settings do. -/
theorem groupsOf_congr {s t : State} (h : ∀ i < 8, t.word (F.lnkCfg2 + 4 * i) = s.word (F.lnkCfg2 + 4 * i)) : groupsOf t = groupsOf s := by
  unfold groupsOf
  congr 1
  refine List.flatMap_congr fun i hi => ?_
  rw [h i (List.mem_range.mp hi)]

theorem foldl_send_sent (f : Nat → Sent) (l : List Nat) (s : State) :
    (l.foldl (fun s g => send (f g) s) s).net.sent = l.reverse.map f ++ s.net.sent := by
  induction l generalizing s with
  | nil => rfl
  | cons g l ih =>
    rw [List.foldl_cons, ih, List.reverse_cons, List.map_append, List.append_assoc]
    rfl

theorem sansNet_foldl_send (f : Nat → Sent) (l : List Nat) (s : State) :
    ∃ n, l.foldl (fun s g => send (f g) s) s = { s with net := n } := by
  induction l generalizing s with
  | nil => exact ⟨s.net, rfl⟩
  | cons g l ih =>
    obtain ⟨n, hn⟩ := ih (send (f g) s)
    exact ⟨n, hn⟩

/-- The state as a port has come up, before its membership reports. -/
def portRaised (e : Fin 2) (s : State) : State := raise 0x5004 0xD e 0 (setF (ethLock e) 1 (setAt F.lnkPortEthUp e true s))

theorem exec_ethLinkUp_of_down (hclk : clocked s = true) (hup : ethUp e s = false) (hpin : s.pins.ethTx = true) :
    exec (.ethLinkUp e) s = .next (joinGroups e (portRaised e s)) := by
  rw [exec_ethLinkUp, execEthLinkUp, if_neg (by simp [hclk, hup, hpin])]
  rfl

theorem word_portRaised {a : Nat} (hport : a ≠ F.lnkPort) (hclk : a ≠ F.clkState) (e : Fin 2) (s : State) :
    (portRaised e s).word a = s.word a := by
  rw [portRaised, raise_word, setF_word_ne _ _ (by rw [(ethLock_fields e).1]; exact hclk), setAt, setF_word_ne _ _ hport]

theorem groupsOf_portRaised (e : Fin 2) (s : State) : groupsOf (portRaised e s) = groupsOf s := by
  refine groupsOf_congr fun i hi => word_portRaised ?_ ?_ e s
  · unfold F.lnkCfg2 F.lnkPort
    omega
  · unfold F.lnkCfg2 F.clkState
    omega

/-- A port that comes up shows it and reports its memberships. -/
theorem linkUp_shows (e : Fin 2) (s : State) {t : State} (ht : t = joinGroups e (portRaised e s)) :
    ethUp e t = true ∧ ethUp (otherLink e) t = ethUp (otherLink e) s ∧ getF (ethLock e) t = 1 ∧
      t.net.sent = ((0 :: groupsOf s).reverse.map fun g => .igmp e (groupAddr g)) ++ s.net.sent ∧
      t.ev.queue = s.ev.queue ++ [⟨0x5004, 0xD, e.val, 0, s.time⟩] ∧ t = { s with net := t.net, status := t.status, ev := t.ev } := by
  obtain ⟨haddr, hhi, hlo, -⟩ := ethLock_fields e
  have hjoin : t = (0 :: groupsOf s).foldl (fun s g => send (.igmp e (groupAddr g)) s) (portRaised e s) := by
    rw [ht, joinGroups, groupsOf_portRaised]
  have hsent := foldl_send_sent (fun g => .igmp e (groupAddr g)) (0 :: groupsOf s) (portRaised e s)
  obtain ⟨n, hn⟩ := sansNet_foldl_send (fun g => .igmp e (groupAddr g)) (0 :: groupsOf s) (portRaised e s)
  have hframe := eq_of_sansReport (s := s) (t := portRaised e s) (by simp [portRaised])
  rw [hn] at hjoin hsent
  have hraise (f : Fld) : getF f t = getF f (setF (ethLock e) 1 (setAt F.lnkPortEthUp e true s)) := by
    rw [hjoin]
    rfl
  have hup (r : Fin 2) : ethUp r t = if r = e then true else ethUp r s := by
    rw [← ethUp_setAt]
    refine ethUp_congr ?_ r
    rw [hraise, getF_setF_addr _ _ (by rw [haddr]; decide)]
  refine ⟨by rw [hup, if_pos rfl], by rw [hup, if_neg (otherLink_ne e)], by rw [hraise, getF_set_one hhi hlo], ?_, ?_, ?_⟩
  · rw [hjoin]
    exact hsent
  · rw [hjoin]
    rfl
  · rw [hjoin, hframe]

/-- A lock of a PLL is shown apart from the source of device time. -/
theorem getF_loseIf_lock {f : Fld} (haddr : f.addr = F.clkState) (hhi : f.hi < 7) (x : TimeSrc) (s : State) :
    getF f (loseIf x s) = getF f s := by
  have hport (g : Fld) (hg : g.addr = F.lnkPort) (v : Nat) (t : State) : getF f (setF g v t) = getF f t :=
    getF_setF_addr _ _ (by rw [haddr, hg]; decide)
  have hset (g : Fld) (hlo : 7 ≤ g.lo) (v : Nat) (t : State) : getF f (setF g v t) = getF f t :=
    getF_setF_bits _ _ (.inl (by omega))
  have hmod (g : TimePart → TimePart) (t : State) : getF f (modClock g t) = getF f t :=
    hset F.clkStateSlewing (by decide) _ _
  have hraise (u : State) : getF f (raise 0x0113 0 0 0 u) = getF f u := rfl
  unfold loseIf loseSource
  split
  · split
    · rfl
    · rw [hraise, showStratum, hport _ rfl, hmod, hport _ rfl, hset _ (by decide)]
  · rfl

/-! ### The loss of a link, and of a master (R70, R407, R422) -/

/-- PTP on a port has forgotten its master, before the loss of its source. -/
def ptpCut (e : Fin 2) (s : State) : State :=
  modNet (fun n => { n with ptp := n.ptp.set e { PtpPort.reset with
    nextSync := n.ptp[e].nextSync, nextReq := n.ptp[e].nextReq, nextAnnounce := n.ptp[e].nextAnnounce } }) s

theorem ptpStop_eq (e : Fin 2) (s : State) : ptpStop e s = loseIf (ethSrc e) (ptpCut e s) := rfl

theorem loseIf_time (x : TimeSrc) (s : State) : (loseIf x s).time = s.time := by
  have hraise (t : State) : (raise 0x0113 0 0 0 t).time = t.time := rfl
  unfold loseIf loseSource
  split
  · split
    · rfl
    · rw [hraise, showStratum_time, modClock_time, setF_time, setF_time]
  · rfl

/-- PTP that stops leaves what was sent, device time, the units and memory, follows no master, and is no source. -/
theorem ptpStop_shows (e : Fin 2) (s : State) : ((ptpStop e s).net.ptp[e]).slave = false ∧ (ptpStop e s).clock.src ≠ some (ethSrc e) ∧
    (ptpStop e s).net.sent = s.net.sent ∧ (ptpStop e s).time = s.time ∧ (ptpStop e s).units = s.units ∧
    (ptpStop e s).mem = s.mem := by
  have hframe : sansTime (ptpStop e s) = sansTime (ptpCut e s) := by rw [ptpStop_eq, sansTime_loseIf]
  have hsrc : (ptpStop e s).clock.src ≠ some (ethSrc e) := loseIf_src (ethSrc e) (ptpCut e s)
  have htime : (ptpStop e s).time = s.time := (loseIf_time ..).trans rfl
  have hptp : ((ptpCut e s).net.ptp[e]).slave = false := by
    unfold ptpCut modNet
    dsimp only
    rw [show ∀ (v : Vector PtpPort 2) x, (v.set e.val x e.isLt)[e] = x from fun v x => Vector.getElem_set_self e.isLt]
    rfl
  generalize ptpStop e s = t at hframe hsrc htime ⊢
  rw [eq_of_sansTime hframe] at htime hsrc ⊢
  exact ⟨hptp, hsrc, rfl, htime, rfl, rfl⟩

/-- The state as a port has lost its link, before PTP on it stops. -/
def portCut (e : Fin 2) (s : State) : State := raise 0x5003 0xD e 0 (setF (ethDownFld e) 1 (setAt F.lnkPortEthUp e false s))

theorem ethDown_of_up (hup : ethUp e s = true) : ethDown e s = ptpStop e (portCut e s) := by
  rw [ethDown, if_neg (by simp [hup])]
  rfl

theorem getF_ptpStop {f : Fld} (hclk : f.addr ≠ F.clkState) (hport : f.addr ≠ F.lnkPort ∨ 21 < f.lo) (e : Fin 2) (s : State) :
    getF f (ptpStop e s) = getF f s := (getF_loseIf hclk hport _ (ptpCut e s)).trans rfl

/-- A port that loses its link shows its fault, and PTP on it stops (R422). -/
theorem ethDown_shows (hup : ethUp e s = true) {t : State} (ht : t = ethDown e s) :
    ethUp e t = false ∧ ethUp (otherLink e) t = ethUp (otherLink e) s ∧ getF (ethDownFld e) t = 1 ∧ t.clock.src ≠ some (ethSrc e) ∧
      (t.net.ptp[e]).slave = false ∧ ∃ l, t.ev.queue = s.ev.queue ++ ⟨0x5003, 0xD, e.val, 0, s.time⟩ :: l := by
  obtain ⟨haddr, hhi, hlo⟩ := ethDownFld_fields e
  rw [ethDown_of_up hup] at ht
  obtain ⟨hslave, hsrc, -⟩ := ptpStop_shows e (portCut e s)
  have hraise (f : Fld) : getF f (portCut e s) = getF f (setF (ethDownFld e) 1 (setAt F.lnkPortEthUp e false s)) := rfl
  have hport (r : Fin 2) : ethUp r t = if r = e then false else ethUp r s := by
    rw [← ethUp_setAt]
    refine ethUp_congr ?_ r
    rw [ht, getF_ptpStop (by decide) (.inr (by decide)), hraise, getF_setF_addr _ _ (by rw [haddr]; decide)]
  have hqueue : ∃ l, t.ev.queue = s.ev.queue ++ ⟨0x5003, 0xD, e.val, 0, s.time⟩ :: l := by
    obtain ⟨l, hl⟩ := loseIf_queue (ethSrc e) (ptpCut e (portCut e s))
    refine ⟨l, ?_⟩
    rw [ht]
    exact hl.trans (List.append_assoc ..)
  refine ⟨by rw [hport, if_pos rfl], by rw [hport, if_neg (otherLink_ne e)], ?_, ht ▸ hsrc, ht ▸ hslave, hqueue⟩
  rw [ht, getF_ptpStop (by rw [haddr]; decide) (.inl (by rw [haddr]; decide)), hraise, getF_set_one hhi hlo]

theorem ethDown_units_mem (e : Fin 2) (s : State) : (ethDown e s).units = s.units ∧ (ethDown e s).mem = s.mem := by
  unfold ethDown
  split
  · exact ⟨rfl, rfl⟩
  · obtain ⟨-, -, -, -, hunits, hmem⟩ := ptpStop_shows e (portCut e s)
    exact ⟨hunits, hmem⟩

theorem getF_ethLock_ethDown (e : Fin 2) (s : State) : getF (ethLock e) (ethDown e s) = getF (ethLock e) s := by
  obtain ⟨haddr, -, -, hhi⟩ := ethLock_fields e
  unfold ethDown
  split
  · rfl
  · refine (getF_loseIf_lock haddr hhi _ (ptpCut e (portCut e s))).trans ?_
    have hraise (f : Fld) : getF f (ptpCut e (portCut e s)) = getF f (setF (ethDownFld e) 1 (setAt F.lnkPortEthUp e false s)) := rfl
    rw [hraise, getF_setF_addr _ _ (by rw [haddr, (ethDownFld_fields e).1]; decide), setAt,
      getF_setF_addr _ _ (by rw [haddr]; decide)]

end

/-! ### A PLL that loses lock (R68) -/

section
variable {e : Fin 2} {s : State}

theorem not_unpowered_of_clocked (h : clocked s = true) : s.mode ≠ .unpowered := by
  intro hmode
  unfold clocked at h
  rw [hmode, Bool.and_false] at h
  exact absurd h (by decide)

theorem exec_serdesUnlock_eth (hclk : clocked s = true) (e : Fin 2) :
    exec (.serdesUnlock (Fin.ofNat 4 e.val)) s = .next (ethDown e (setF (ethLock e) 0 s)) := by
  have hlow : (Fin.ofNat 4 e.val).val < 2 := by
    revert e
    decide
  have hback : Fin.ofNat 2 (Fin.ofNat 4 e.val).val = e := by
    revert e
    decide
  have hclk' (f : Fld) : clocked (setF f 0 s) = true := hclk
  rw [exec_serdesUnlock, execSerdesUnlock, if_neg (not_unpowered_of_clocked hclk), if_pos hlow]
  dsimp only
  rw [hback, if_pos (hclk' _)]

theorem exec_serdesUnlock_vgd (hclk : clocked s = true) (e : Fin 2) :
    exec (.serdesUnlock (Fin.ofNat 4 (2 + e.val))) s = .next (vgdDown e (setF (vgdLock e) 0 s)) := by
  have hhigh : ¬ (Fin.ofNat 4 (2 + e.val)).val < 2 := by
    revert e
    decide
  have hback : Fin.ofNat 2 (Fin.ofNat 4 (2 + e.val)).val = e := by
    revert e
    decide
  have hclk' (f : Fld) : clocked (setF f 0 s) = true := hclk
  rw [exec_serdesUnlock, execSerdesUnlock, if_neg (not_unpowered_of_clocked hclk), if_neg hhigh]
  dsimp only
  rw [hback, if_pos (hclk' _)]

/-- A PLL that loses its lock takes its port down, and its lock is shown lost. -/
theorem serdesUnlock_eth (hup : ethUp e s = true) : ethUp e (setF (ethLock e) 0 s) = true ∧
    ethUp (otherLink e) (setF (ethLock e) 0 s) = ethUp (otherLink e) s ∧
    getF (ethLock e) (ethDown e (setF (ethLock e) 0 s)) = 0 := by
  obtain ⟨haddr, hhi, -⟩ := ethLock_fields e
  have hport (r : Fin 2) : ethUp r (setF (ethLock e) 0 s) = ethUp r s :=
    ethUp_congr (getF_setF_addr _ _ (by rw [haddr]; decide)) r
  exact ⟨(hport e).trans hup, hport _, by rw [getF_ethLock_ethDown, getF_setF_lt hhi (by positivity)]⟩

theorem vgdDown_of_up (hup : vgdUp e s = true) : vgdDown e s = showStratum (loseIf (vgdSrc e) (linkCut e s)) := by
  rw [vgdDown, if_neg (by simp [hup])]
  rfl

theorem vgdLock_low (e : Fin 2) : (vgdLock e).hi < 7 := by
  revert e
  decide

theorem serdesUnlock_vgd (hup : vgdUp e s = true) : vgdUp e (vgdDown e (setF (vgdLock e) 0 s)) = false ∧
    getF (vgdLock e) (vgdDown e (setF (vgdLock e) 0 s)) = 0 ∧ (vgdDown e (setF (vgdLock e) 0 s)).units = s.units ∧
    (vgdDown e (setF (vgdLock e) 0 s)).mem = s.mem := by
  obtain ⟨haddr, hhi, -⟩ := vgdLock_fields e
  have hlow := vgdLock_low e
  have hup' : vgdUp e (setF (vgdLock e) 0 s) = true :=
    (vgdUp_congr (getF_setF_addr _ _ (by rw [haddr]; decide)) e).trans hup
  have hzero : getF (vgdLock e) (setF (vgdLock e) 0 s) = 0 := getF_setF_lt hhi (by positivity) s
  have hcarried : carried (setF (vgdLock e) 0 s) = carried s := carried_setF ..
  generalize setF (vgdLock e) 0 s = u at hup' hzero hcarried ⊢
  rw [vgdDown_of_up hup']
  obtain ⟨hdown, -⟩ := linkDown_shows e u rfl
  have hc : carried (showStratum (loseIf (vgdSrc e) (linkCut e u))) = carried s := by
    rw [carried_of_sansTime (sansTime_showStratum _), carried_of_sansTime (sansTime_loseIf ..), carried_linkCut, hcarried]
  refine ⟨hdown, ?_, congrArg (·.1) hc, congrArg (·.2.1) hc⟩
  have hraise (f : Fld) (t : State) (g : NetPart → NetPart) : getF f (modNet g (raise 0x5001 0xD (2 + e) 0 t)) = getF f t := rfl
  rw [getF_showStratum (.inl (by rw [haddr]; decide)), getF_loseIf_lock haddr hlow, linkCut, hraise,
    getF_setF_addr _ _ (by rw [haddr]; split <;> decide), setAt, getF_setF_addr _ _ (by rw [haddr]; decide), hzero]

end

/-! ### Frames and addresses (R405, R406) -/

section
variable {e : Fin 2} {s : State} (hrun : ethRuns e s = true)
include hrun

/-- A frame that is tagged, long or bad is counted. -/
theorem exec_ethFrameReceive_of_bad {f : EthFrame} (hbad : f.vlan = true ∨ 1518 < f.length ∨ f.fcsOk = false) :
    exec (.ethFrameReceive e f) s = .next (bump (if e = 0 then F.lnkFrameDropEth0 else F.lnkFrameDropEth1) s) := by
  rw [exec_ethFrameReceive, execEthFrameReceive, if_pos]
  rw [hrun]
  rcases hbad with h | h | h <;> simp [h]

theorem exec_arpRequest_own (src : Word) (data : List Byte) : exec (.arpRequest e (ethAddr e s) src data) s =
    .next (send (.arp e src (macOf e s ++ ipBytes (ethAddr e s) ++ data ++ ipBytes src)) s) := by
  rw [exec_arpRequest, execArpRequest, if_pos (by simp [hrun])]

theorem exec_icmpEcho_own (mac : BitVec 48) (src : Word) (data : List Byte) :
    exec (.icmpEcho e mac (ethAddr e s) src data) s = .next (send (.echo e mac src data) s) := by
  rw [exec_icmpEcho, execIcmpEcho, if_pos (by simp [hrun])]

omit hrun in
theorem exec_arpRequest_other {dst : Word} (h : dst ≠ ethAddr e s) (src : Word) (data : List Byte) :
    exec (.arpRequest e dst src data) s = .next s := by
  rw [exec_arpRequest, execArpRequest, if_neg (by simp [h])]

omit hrun in
theorem exec_icmpEcho_other {dst : Word} (h : dst ≠ ethAddr e s) (mac : BitVec 48) (src : Word) (data : List Byte) :
    exec (.icmpEcho e mac dst src data) s = .next s := by
  rw [exec_icmpEcho, execIcmpEcho, if_neg (by simp [h])]

/-- The link-local address drawn by a free value (R406). -/
def drawnAddr (s : State) : Word := BitVec.ofNat 32 (0xA9FE0100 + Config.freeValue s.free % 65024)

/-- The state as a port has taken a new link-local address. -/
def readdressed (e : Fin 2) (s : State) : State :=
  raise 0x5008 0xD e 0 (setF F.lnkFaultAddrConflict 1 (({ s with free := s.free + 1 } : State).setWord (F.lnkEth0Addr + 4 * e.val)
    (drawnAddr s)))

theorem exec_addrConflict_of_local (hlocal : flagAt F.lnkPortLinkLocal e s = true) :
    exec (.addrConflict e) s = .next (readdressed e s) := by
  rw [exec_addrConflict, execAddrConflict, if_neg (by simp [hrun, hlocal])]
  rfl

omit hrun in
/-- A conflict draws an address of the range, for this port alone. -/
theorem readdressed_shows (e : Fin 2) (s : State) {t : State} (ht : t = readdressed e s) :
    0xA9FE0100 ≤ (ethAddr e t).toNat ∧ (ethAddr e t).toNat ≤ 0xA9FEFEFF ∧ ethAddr (otherLink e) t = ethAddr (otherLink e) s ∧
      getF F.lnkFaultAddrConflict t = 1 ∧ t.ev.queue = s.ev.queue ++ [⟨0x5008, 0xD, e.val, 0, s.time⟩] ∧
      t = { s with free := t.free, status := t.status, ev := t.ev } := by
  have haddr (r : Fin 2) : F.lnkEth0Addr + 4 * r.val ≠ F.lnkFault := by
    unfold F.lnkEth0Addr F.lnkFault
    omega
  have hother : F.lnkEth0Addr + 4 * (otherLink e).val ≠ F.lnkEth0Addr + 4 * e.val := fun h =>
    otherLink_ne e (Fin.ext (by omega))
  have hown : ethAddr e t = drawnAddr s := by
    rw [ht, readdressed, ethAddr, raise_word, setF_word_ne _ _ (haddr e), word_setWord_same]
  have hnat : (drawnAddr s).toNat = 0xA9FE0100 + Config.freeValue s.free % 65024 := by
    rw [drawnAddr, BitVec.toNat_ofNat, Nat.mod_eq_of_lt (by omega)]
  refine ⟨by rw [hown, hnat]; omega, by rw [hown, hnat]; omega, ?_, ?_, ?_, ?_⟩
  · rw [ht, readdressed, ethAddr, raise_word, setF_word_ne _ _ (haddr _), word_setWord_ne _ hother]
    rfl
  · rw [ht]
    exact getF_set_one (by decide) (by decide) _
  · rw [ht]
    rfl
  · rw [ht]
    rfl

end

/-! ### Heartbeats (R418) -/

section
variable {e : Fin 2} {s : State}

/-- The state as a heartbeat has been counted. -/
def beatCounted (s : State) : State :=
  { setF F.lnkHbCountCount ((getF F.lnkHbCountCount s + 1) % 2 ^ 32) s with free := s.free + 1 }

/-- What a heartbeat tells behind its state: cause, boot, count, time, source and fault. -/
def beatTail (s : State) : List Byte :=
  leBytes 1 (getF F.rstCauseLast s) ++ leBytes 2 (getF F.lnkHbBoot s) ++ leBytes 4 (getF F.lnkHbCountCount s) ++ leBytes 8 s.time ++
    leBytes 1 (getF F.clkStateTimeSrc s) ++ leBytes 1 (faultReason s) ++ [0, 0]

theorem length_leBytes (n x : Nat) : (leBytes n x).length = n := by
  induction n generalizing x with
  | zero => rfl
  | succ n ih => rw [leBytes, List.length_cons, ih]

theorem length_beatTail (s : State) : (beatTail s).length = 19 := by
  simp [beatTail, length_leBytes]

theorem heartbeatBytes_eq (st : Nat) (s : State) : heartbeatBytes st s = leBytes 8 (uidOf s).toNat ++ leBytes 1 st ++ beatTail s := by
  simp only [heartbeatBytes, beatTail, List.append_assoc]

theorem word_beatCounted {a : Nat} (h : a ≠ F.lnkHbCount) (s : State) : (beatCounted s).word a = s.word a := setF_word_ne s _ h

/-- The datagram of a heartbeat. -/
def beatSent (e : Fin 2) (st x : Nat) (r : List Byte) (s : State) : Sent :=
  .datagram e none (groupAddr (bits (s.word F.lnkCfg1) 31 16)) udpPort
    (sealHdr e (groupAddr (bits (s.word F.lnkCfg1) 31 16)) udpPort (sentHdr 0x70 (devnum s) (BitVec.ofNat 32 x) 28 0 0)
      (leBytes 8 (uidOf s).toNat ++ leBytes 1 st ++ r) s) (leBytes 8 (uidOf s).toNat ++ leBytes 1 st ++ r)

theorem exec_heartbeatSend_of_host {st : Nat} (hhost : hostState s = some st) (hrun : ethRuns e s = true) :
    exec (.heartbeatSend e) s =
      .next (send (beatSent e st (Config.freeValue s.free) (beatTail (beatCounted s)) s) (beatCounted s)) := by
  have hsends : (ethUp e (beatCounted s) && (beatCounted s).pins.ethTx) = true := by
    have hup : ethUp e (beatCounted s) = ethUp e s := ethUp_congr (getF_setF_addr _ _ (by decide)) e
    have hpin : (beatCounted s).pins = s.pins := rfl
    rw [hup, hpin]
    simp only [ethRuns, Bool.and_eq_true] at hrun ⊢
    exact ⟨hrun.1.2, hrun.2⟩
  have hcfg : (beatCounted s).word F.lnkCfg1 = s.word F.lnkCfg1 := word_beatCounted (by decide) s
  have huid : uidOf (beatCounted s) = uidOf s := by
    rw [uidOf, uidOf, word_beatCounted (by decide), word_beatCounted (by decide)]
  have hdev : devnum (beatCounted s) = devnum s := by
    have hflag (f : Fld) (hf : f.addr = F.lnkNet) : getF f (beatCounted s) = getF f s :=
      getF_congr (word_beatCounted (by rw [hf]; decide) s)
    rw [devnum, devnum, flag, flag, hflag _ rfl, hflag _ rfl]
  have haddr : ethAddr e (beatCounted s) = ethAddr e s := by
    refine word_beatCounted ?_ s
    unfold F.lnkEth0Addr F.lnkHbCount
    omega
  have hseal (ip : Word) (h : Hdr) (data : List Byte) :
      sealHdr e ip udpPort h data (beatCounted s) = sealHdr e ip udpPort h data s := by
    unfold sealHdr
    rw [haddr]
  have hrun' : exec (.heartbeatSend e) s = .next (sendDatagram e (groupAddr (bits ((beatCounted s).word F.lnkCfg1) 31 16))
      (sentHdr 0x70 (devnum (beatCounted s)) (BitVec.ofNat 32 (Config.freeValue s.free)) 28 0 0) (heartbeatBytes st (beatCounted s))
      (beatCounted s)) := by
    rw [exec_heartbeatSend, execHeartbeatSend, hhost]
    dsimp only
    rw [hrun]
    rfl
  rw [hrun', sendDatagram, if_pos hsends, heartbeatBytes_eq, hseal, hcfg, hdev, huid, beatSent]

/-- A heartbeat leaves and is counted. -/
theorem beat_shows (x : Sent) (s : State) : getF F.lnkHbCountCount (send x (beatCounted s)) = (getF F.lnkHbCountCount s + 1) % 2 ^ 32 ∧
    (send x (beatCounted s)).net.sent = [x] ++ s.net.sent ∧
    send x (beatCounted s) = { s with
      net := (send x (beatCounted s)).net, free := (send x (beatCounted s)).free, status := (send x (beatCounted s)).status } := by
  refine ⟨?_, rfl, rfl⟩
  exact (getF_setF_same s F.lnkHbCountCount _ (by decide)).trans (Nat.mod_mod ..)

end

/-! ### PTP (R407) -/

section
variable {e : Fin 2} {s : State}

theorem modPtp_eq (e : Fin 2) (f : PtpPort → PtpPort) (s : State) :
    modPtp e f s = { s with net := { s.net with ptp := s.net.ptp.set e (f s.net.ptp[e]) } } := rfl

theorem modPtp_ptp (e : Fin 2) (f : PtpPort → PtpPort) (s : State) : (modPtp e f s).net.ptp[e] = f s.net.ptp[e] :=
  vmod_same s.net.ptp e f

theorem sansTime_ptpOffset (e : Fin 2) (s : State) : sansTime (ptpOffset e s) = sansTime s := by
  unfold ptpOffset
  split
  · exact sansTime_takeOffset ..
  · rfl

/-- Without a path delay no offset is formed. -/
theorem ptpOffset_of_no_delay (h : s.net.ptp[e].delay = none) : ptpOffset e s = s := by
  unfold ptpOffset
  split
  next hd => rw [h] at hd; cases hd
  next => rfl

theorem ptpOffset_of_known {t1 t2 d : Int} (hpair : s.net.ptp[e].pair = some (t1, t2)) (hdelay : s.net.ptp[e].delay = some d) :
    ptpOffset e s = takeOffset (ethSrc e) (t2 - t1 - d) s := by
  rw [ptpOffset, hpair, hdelay]

/-- A port as a Sync has been paired with its time, and a Delay_Req has left at device time `now`. -/
def PtpPort.paired (t1 t2 : Int) (now : Nat) (q : PtpPort) : PtpPort :=
  { q with sync := none, pair := some (t1, t2), req := some (q.nextReq, (now : Int)), nextReq := (q.nextReq + 1) % 65536 }

/-- The state as a Sync has been paired with its time, and the Delay_Req has left. -/
def paired (e : Fin 2) (t1 t2 : Int) (s : State) : State :=
  sendPtp e .delayReq s.net.ptp[e].nextReq s.time (modPtp e (PtpPort.paired t1 t2 s.time) s)

theorem modPtp_congr {e : Fin 2} {f g : PtpPort → PtpPort} {s : State} (h : f s.net.ptp[e] = g s.net.ptp[e]) :
    modPtp e f s = modPtp e g s := by
  rw [modPtp_eq, modPtp_eq, h]

theorem ptpPair_eq (e : Fin 2) (t1 t2 : Int) (s : State) : ptpPair e t1 t2 s = ptpOffset e (paired e t1 t2 s) := by
  unfold ptpPair paired
  extract_lets n t3 u
  have hu : u = modPtp e (PtpPort.paired t1 t2 s.time) s := modPtp_congr rfl
  rw [hu]

/-- What following a Sync leaves: the Delay_Req has left, and the stamps wait. -/
theorem ptpPair_follows (e : Fin 2) (t1 t2 : Int) (s : State) : (ptpPair e t1 t2 s).units = s.units ∧ (ptpPair e t1 t2 s).mem = s.mem ∧
    (ptpPair e t1 t2 s).net.sent = [.ptp e (ptpCarrier true s) (ptpDomain s) .delayReq s.net.ptp[e].nextReq s.time] ++ s.net.sent ∧
    ((ptpPair e t1 t2 s).net.ptp[e]).sync = none ∧ ((ptpPair e t1 t2 s).net.ptp[e]).pair = some (t1, t2) ∧
    ((ptpPair e t1 t2 s).net.ptp[e]).req = some (s.net.ptp[e].nextReq, (s.time : Int)) ∧
    (s.net.ptp[e].delay = none → (ptpPair e t1 t2 s).clock = s.clock ∧ (ptpPair e t1 t2 s).time = s.time) := by
  have hframe : sansTime (ptpPair e t1 t2 s) = sansTime (paired e t1 t2 s) := by rw [ptpPair_eq, sansTime_ptpOffset]
  have hptp : (paired e t1 t2 s).net.ptp[e] = s.net.ptp[e].paired t1 t2 s.time := modPtp_ptp ..
  have hnone (h : s.net.ptp[e].delay = none) : ptpPair e t1 t2 s = paired e t1 t2 s := by
    rw [ptpPair_eq, ptpOffset_of_no_delay]
    rw [hptp]
    exact h
  refine ⟨?_, ?_, ?_, ?_, ?_, ?_, fun h => ?_⟩
  · rw [eq_of_sansTime hframe]
    rfl
  · rw [eq_of_sansTime hframe]
    rfl
  · rw [eq_of_sansTime hframe]
    rfl
  · rw [eq_of_sansTime hframe]
    dsimp only
    rw [hptp, PtpPort.paired]
  · rw [eq_of_sansTime hframe]
    dsimp only
    rw [hptp, PtpPort.paired]
  · rw [eq_of_sansTime hframe]
    dsimp only
    rw [hptp, PtpPort.paired]
  · rw [hnone h]
    exact ⟨rfl, rfl⟩

section
variable {m : PtpMsg} (hhears : ptpHears e m s = true)
include hhears

theorem exec_ptpDelayReq_of_master (hmaster : ptpMaster e s = true) : exec (.ptpDelayReq e m) s =
    .next (send (.ptp e (ptpCarrier false s) (ptpDomain s) .delayResp m.seq.toNat m.taken) s) := by
  rw [exec_ptpDelayReq, execPtpDelayReq, if_pos (by simp [hhears, hmaster])]
  rfl

section
variable (hparent : fromParent e m s = true)
include hparent

theorem exec_ptpSync_of_two_steps (htwo : m.twoStep = true) :
    exec (.ptpSync e m) s = .next (modPtp e (fun q => { q with sync := some (m.seq.toNat, m.taken) }) s) := by
  rw [exec_ptpSync, execPtpSync, if_neg (by simp [hhears, hparent]), if_pos htwo]

theorem exec_ptpSync_of_one_step (hone : m.twoStep = false) : exec (.ptpSync e m) s = .next (ptpPair e m.origin m.taken s) := by
  rw [exec_ptpSync, execPtpSync, if_neg (by simp [hhears, hparent]), if_neg (by simp [hone])]

theorem exec_ptpFollowUp_of_sync {t2 : Int} (hsync : s.net.ptp[e].sync = some (m.seq.toNat, t2)) :
    exec (.ptpFollowUp e m) s = .next (ptpPair e m.origin t2 s) := by
  rw [exec_ptpFollowUp, execPtpFollowUp, hsync]
  dsimp only
  rw [if_pos (by simp [hhears, hparent])]

/-- The state as the path delay has been taken from a Delay_Resp. -/
def delayTaken (e : Fin 2) (d : Int) (s : State) : State := modPtp e (fun q => { q with req := none, delay := some d }) s

theorem exec_ptpDelayResp_of_req {t1 t2 t3 : Int} (hreq : s.net.ptp[e].req = some (m.seq.toNat, t3))
    (hpair : s.net.ptp[e].pair = some (t1, t2)) :
    exec (.ptpDelayResp e m) s = .next (ptpOffset e (delayTaken e ((t2 - t1 + (m.origin - t3)) / 2) s)) := by
  rw [exec_ptpDelayResp, execPtpDelayResp, hreq, hpair]
  dsimp only
  rw [if_pos (by simp [hhears, hparent])]
  rfl

end

end

/-- A port may be a source as long as the settings allow it. -/
theorem srcAllowed_eth {t : State} (h : srcAllowed (ethSrc e) s = true) (hword : t.word F.lnkCfg0 = s.word F.lnkCfg0) :
    srcAllowed (ethSrc e) t = true := by
  unfold ethSrc at h ⊢
  split at h
  next he =>
    rw [if_pos he]
    rw [srcAllowed] at h ⊢
    rwa [hword]
  next he =>
    rw [if_neg he]
    rw [srcAllowed] at h ⊢
    rwa [hword]

/-- The path delay is kept, and an offset by it is taken where no source is in use (R407, R408). -/
theorem delayTaken_shows {t1 t2 : Int} (hpair : s.net.ptp[e].pair = some (t1, t2)) (d : Int) {t : State}
    (ht : t = ptpOffset e (delayTaken e d s)) : t.units = s.units ∧ t.mem = s.mem ∧ (t.net.ptp[e]).delay = some d ∧
      (t.net.ptp[e]).req = none ∧ t.net.sent = s.net.sent ∧
      (live s = true → srcAllowed (ethSrc e) s = true → s.clock.src = none →
        t.clock.src = some (ethSrc e) ∧ ((t2 - t1 - d).natAbs ≤ 1000000 → t.clock.remaining = -(t2 - t1 - d))) := by
  have hport : (delayTaken e d s).net.ptp[e] = { s.net.ptp[e] with req := none, delay := some d } := modPtp_ptp ..
  have hframe : sansTime t = sansTime (delayTaken e d s) := by rw [ht, sansTime_ptpOffset]
  have hnet : t.net = (delayTaken e d s).net := by rw [eq_of_sansTime hframe]
  have hoff : t = takeOffset (ethSrc e) (t2 - t1 - d) (delayTaken e d s) := by
    rw [ht]
    refine ptpOffset_of_known ?_ ?_ <;> rw [hport]
    exact hpair
  refine ⟨?_, ?_, ?_, ?_, ?_, fun hlive hallowed hsrc => ?_⟩
  · rw [eq_of_sansTime hframe]
    rfl
  · rw [eq_of_sansTime hframe]
    rfl
  · rw [hnet, hport]
  · rw [hnet, hport]
  · rw [hnet]
    rfl
  · have htakes : takesOffset (ethSrc e) (delayTaken e d s) = true := by
      have hsrc' : (delayTaken e d s).clock.src = none := hsrc
      have hlive' : live (delayTaken e d s) = true := hlive
      have hallowed' : srcAllowed (ethSrc e) (delayTaken e d s) = true := srcAllowed_eth hallowed rfl
      simp [takesOffset, hsrc', hlive', hallowed']
    rw [hoff]
    exact ⟨takeOffset_src htakes _, fun h => (takeOffset_slews htakes h).1⟩

/-! ### The best master (R407) -/

/-- Is the clock one to follow: better than the module's own, or the module is slave-only? -/
def betterThanOwn (c : PtpClock) (s : State) : Bool := (ownClock s).prio1 = 255 || betterClock c (ownClock s)

/-- Is it of the master followed, or better than that? -/
def bestHeard (e : Fin 2) (m : PtpMsg) (s : State) : Bool :=
  fromParent e m s || s.net.ptp[e].parent.all fun x => betterClock m.clock x

theorem exec_ptpAnnounce_of_own {m : PtpMsg} (hown : m.clock.identity = clockIdentity s) : exec (.ptpAnnounce e m) s = .next s := by
  rw [exec_ptpAnnounce, execPtpAnnounce]
  dsimp only
  rw [if_pos (by simp [hown])]

theorem exec_ptpAnnounce_eq {m : PtpMsg} (hhears : ptpHears e m s = true) (hother : m.clock.identity ≠ clockIdentity s) : exec (.ptpAnnounce e m) s = .next (
    if betterThanOwn m.clock s then (if bestHeard e m s then follow e m.clock s else s)
    else if fromParent e m s then ptpStop e s else s) := by
  rw [exec_ptpAnnounce, execPtpAnnounce]
  dsimp only
  rw [if_neg (by simp [hhears, hother])]
  rfl

/-- A clock that is followed is the port's master; what the port knew of another is gone. -/
theorem follow_shows (e : Fin 2) (m : PtpMsg) (s : State) : ((follow e m.clock s).net.ptp[e]).parent = some m.clock ∧
    (fromParent e m s = true → (follow e m.clock s).net.ptp[e] = { s.net.ptp[e] with parent := some m.clock }) ∧
    (fromParent e m s = false → ((follow e m.clock s).net.ptp[e]).sync = none ∧ ((follow e m.clock s).net.ptp[e]).pair = none ∧
      ((follow e m.clock s).net.ptp[e]).delay = none) ∧
    (follow e m.clock s).net.ptp[otherLink e] = s.net.ptp[otherLink e] ∧
    follow e m.clock s = { s with net := (follow e m.clock s).net } := by
  have hne := otherLink_ne e
  have hother (f : PtpPort → PtpPort) : (modPtp e f s).net.ptp[otherLink e] = s.net.ptp[otherLink e] := vmod_ne _ _ hne
  have hif : follow e m.clock s = if fromParent e m s then modPtp e (fun q => { q with parent := some m.clock }) s
    else modPtp e (fun q => { q with parent := some m.clock, sync := none, pair := none, req := none, delay := none }) s := rfl
  rw [hif]
  cases fromParent e m s with
  | true => exact ⟨by rw [if_pos rfl, modPtp_ptp], fun _ => modPtp_ptp .., nofun, hother _, rfl⟩
  | false =>
    rw [if_neg (by decide), modPtp_ptp]
    exact ⟨rfl, nofun, fun _ => ⟨rfl, rfl, rfl⟩, hother _, rfl⟩

/-! ### A master's messages (R407) -/

/-- Is an Announce due? -/
def announceDue (e : Fin 2) (s : State) : Bool := s.net.ptp[e].announceAt.all fun a => decide (a + 2 * secondCycles ≤ s.periph)

/-- A port as an Announce has left at PERIPH cycle `now`. -/
def PtpPort.announcing (now : Nat) (q : PtpPort) : PtpPort :=
  { q with nextAnnounce := (q.nextAnnounce + 1) % 65536, announceAt := some now }

/-- A port as a Sync has left at PERIPH cycle `now`. -/
def PtpPort.syncing (now : Nat) (q : PtpPort) : PtpPort := { q with nextSync := (q.nextSync + 1) % 65536, syncAt := some now }

/-- Less than `c` cycles have passed since the last time, or it has come again. -/
theorem any_lt_add (o : Option Nat) (now c : Nat) :
    (o.any fun t => decide (now < t + c)) = !(o.all fun a => decide (a + c ≤ now)) := by
  cases o with
  | none => rfl
  | some a => simp [← decide_not]

theorem ptpAnnounce_eq (e : Fin 2) (s : State) : ptpAnnounce e s = if announceDue e s then
    send (.announce e (ptpCarrier false s) (ptpDomain s) s.net.ptp[e].nextAnnounce (announced e s))
      (modPtp e (PtpPort.announcing s.periph) s) else s := by
  unfold ptpAnnounce
  extract_lets q
  rw [any_lt_add]
  change (if (!announceDue e s) = true then s else _) = _
  cases announceDue e s <;> rfl

/-- An Announce leaves the Syncs' number and device time. -/
theorem ptpAnnounce_keeps (e : Fin 2) (s : State) : (ptpAnnounce e s).net.ptp[e].nextSync = s.net.ptp[e].nextSync ∧
    (ptpAnnounce e s).time = s.time := by
  rw [ptpAnnounce_eq]
  split
  · refine ⟨?_, rfl⟩
    exact (congrArg PtpPort.nextSync (modPtp_ptp e (PtpPort.announcing s.periph) s)).trans rfl
  · exact ⟨rfl, rfl⟩

/-- The state as a Sync and its Follow_Up have left, once an Announce that was due has. -/
def syncSent (e : Fin 2) (s : State) : State :=
  sendPtp e .followUp s.net.ptp[e].nextSync s.time (sendPtp e .sync s.net.ptp[e].nextSync 0
    (modPtp e (PtpPort.syncing s.periph) (ptpAnnounce e s)))

theorem exec_ptpSyncSend_of_due (hrun : ethRuns e s = true) (hen : bit (s.word F.lnkCfg0) (25 + e.val) = true)
    (hmaster : ptpMaster e s = true) (hdue : ∀ a, s.net.ptp[e].syncAt = some a → a + syncCycles s ≤ s.periph) :
    exec (.ptpSyncSend e) s = .next (syncSent e s) := by
  have hnot : (s.net.ptp[e].syncAt.any fun t => decide (s.periph < t + syncCycles s)) = false := by
    cases h : s.net.ptp[e].syncAt with
    | none => rfl
    | some a => simpa using hdue a h
  rw [exec_ptpSyncSend, execPtpSyncSend]
  dsimp only
  rw [hnot, if_neg (by simp [hrun, hen, hmaster])]
  obtain ⟨hseq, htime⟩ := ptpAnnounce_keeps e s
  have hport : modPtp e (fun q => { q with nextSync := (s.net.ptp[e].nextSync + 1) % 65536, syncAt := some s.periph })
      (ptpAnnounce e s) = modPtp e (PtpPort.syncing s.periph) (ptpAnnounce e s) :=
    modPtp_congr (by rw [PtpPort.syncing, hseq])
  have htime' : (modPtp e (PtpPort.syncing s.periph) (ptpAnnounce e s)).time = s.time := htime
  rw [hport, htime', syncSent]

/-- The Announce that is due with a Sync, if one is. -/
def announceOf (e : Fin 2) (s : State) : List Sent :=
  if announceDue e s then [.announce e (ptpCarrier false s) (ptpDomain s) s.net.ptp[e].nextAnnounce (announced e s)] else []

/-- A port as a Sync has left, with an Announce where that was due. -/
def PtpPort.mastered (due : Bool) (now : Nat) (q : PtpPort) : PtpPort :=
  { q with
    nextSync := (q.nextSync + 1) % 65536
    syncAt := some now
    nextAnnounce := if due then (q.nextAnnounce + 1) % 65536 else q.nextAnnounce
    announceAt := if due then some now else q.announceAt }

/-- A master's Sync and Follow_Up leave with one number, over the carriers in force, and its Announce where it is due. -/
theorem syncSent_shows (e : Fin 2) (s : State) {t : State} (ht : t = syncSent e s) : t.units = s.units ∧ t.mem = s.mem ∧
    t.net.sent = ([.ptp e (ptpCarrier false s) (ptpDomain s) .followUp s.net.ptp[e].nextSync s.time,
      .ptp e (ptpCarrier true s) (ptpDomain s) .sync s.net.ptp[e].nextSync 0] ++ announceOf e s) ++ s.net.sent ∧
    t.net.ptp = s.net.ptp.set e (s.net.ptp[e].mastered (announceDue e s) s.periph) ∧ t = { s with net := t.net } := by
  have hsent (f : PtpPort → PtpPort) (u : State) : (modPtp e f u).net.sent = u.net.sent := rfl
  have hptp : (modPtp e (PtpPort.syncing s.periph) (ptpAnnounce e s)).net.ptp =
      s.net.ptp.set e (s.net.ptp[e].mastered (announceDue e s) s.periph) := by
    rw [ptpAnnounce_eq]
    cases announceDue e s with
    | false => rfl
    | true =>
      have htwice (v : Vector PtpPort 2) : vmod (vmod v e (PtpPort.announcing s.periph)) e (PtpPort.syncing s.periph) =
          v.set e (v[e].mastered true s.periph) := by
        have hself := vmod_same v e (PtpPort.announcing s.periph)
        have hset : (vmod v e (PtpPort.announcing s.periph)).set e (PtpPort.syncing s.periph (PtpPort.announcing s.periph v[e])) =
            v.set e (PtpPort.syncing s.periph (PtpPort.announcing s.periph v[e])) := Vector.set_set ..
        rw [vmod, hself, hset]
        rfl
      exact htwice s.net.ptp
  have hannounce : (ptpAnnounce e s).net.sent = announceOf e s ++ s.net.sent ∧ ptpAnnounce e s = { s with net := (ptpAnnounce e s).net } := by
    rw [ptpAnnounce_eq, announceOf]
    cases announceDue e s <;> exact ⟨rfl, rfl⟩
  obtain ⟨hann, hframe⟩ := hannounce
  have hall : syncSent e s = send (.ptp e (ptpCarrier false s) (ptpDomain s) .followUp s.net.ptp[e].nextSync s.time)
      (send (.ptp e (ptpCarrier true s) (ptpDomain s) .sync s.net.ptp[e].nextSync 0)
        (modPtp e (PtpPort.syncing s.periph) (ptpAnnounce e s))) := by
    rw [syncSent, hframe]
    rfl
  have hnet : (modPtp e (PtpPort.syncing s.periph) (ptpAnnounce e s)).net.sent = announceOf e s ++ s.net.sent := (hsent ..).trans hann
  have hrest : modPtp e (PtpPort.syncing s.periph) (ptpAnnounce e s) =
      { s with net := (modPtp e (PtpPort.syncing s.periph) (ptpAnnounce e s)).net } := by
    rw [hframe]
    rfl
  rw [ht, hall]
  generalize modPtp e (PtpPort.syncing s.periph) (ptpAnnounce e s) = u at hptp hnet hrest ⊢
  refine ⟨?_, ?_, ?_, hptp, ?_⟩
  · rw [hrest]
    rfl
  · rw [hrest]
    rfl
  · exact congrArg (fun l => _ :: _ :: l) hnet
  · rw [hrest]
    rfl

end

/-! ### ALIVE (R419), and a master that is heard no more (R407) -/

section
variable {e : Fin 2} {s : State}

theorem exec_ptpAnnounceTimeout_of_slave (hclk : clocked s = true) (hslave : s.net.ptp[e].slave = true) :
    exec (.ptpAnnounceTimeout e) s = .next (ptpStop e s) := by
  rw [exec_ptpAnnounceTimeout, execPtpAnnounceTimeout, hclk, hslave]
  rfl

theorem exec_aliveToggle_of_working {c : Nat} (hwork : working s = true) (hran : s.units[26].ranAt = some c)
    (hcore : s.periph ≤ c + 100000) (hmonitor : s.periph ≤ s.ejt.monitorAt + 100000) :
    exec .aliveToggle s = .next { s with pins := { s.pins with alive := !s.pins.alive } } := by
  have hany : (s.units[(26 : UnitId)].ranAt.any fun c => decide (s.periph ≤ c + 100000)) = true := by
    have hran' : s.units[(26 : UnitId)].ranAt = some c := hran
    rw [hran', Option.any_some, decide_eq_true hcore]
  rw [exec_aliveToggle, execAliveToggle, if_pos (by rw [hwork, hany, decide_eq_true hmonitor]; rfl)]

end

/-! ### O56 -/

theorem ethRuns_of_up {e : Fin 2} {s : State} (hclk : clocked s = true) (hup : ethUp e s = true) (hpin : s.pins.ethTx = true) :
    ethRuns e s = true := by
  rw [ethRuns, hclk, hup, hpin]
  rfl

/-- The counter of discarded frames of a port. -/
def frameDrop (e : Fin 2) : Fld := if e = 0 then F.lnkFrameDropEth0 else F.lnkFrameDropEth1

theorem frameDrop_fields (e : Fin 2) : (frameDrop e).hi < 32 ∧ topF (frameDrop e) = 65535 := by
  revert e
  decide

/-- Settles O56, with a lemma for what each command of a port shows. -/
theorem ethernetPorts : Obligations.EthernetPorts := by
  unfold Obligations.EthernetPorts
  intro e s hclk ends o l2 event general sends down
  refine ⟨fun hup hpin => ?_, fun hup => ⟨?_, ?_⟩, fun hup => ?_, fun hup hpin => ?_, fun m hhears => ?_, fun hslave => ?_,
    fun c hwork hran hcore hmonitor => exec_aliveToggle_of_working hwork hran hcore hmonitor⟩
  · obtain ⟨-, -, -, -, -, hframe⟩ := linkUp_shows e s rfl
    refine ⟨_, exec_ethLinkUp_of_down hclk hup hpin, ?_, ?_, linkUp_shows e s rfl⟩
    · rw [hframe]
    · rw [hframe]
  · obtain ⟨hunits, hmem⟩ := ethDown_units_mem e s
    refine ⟨ethDown e s, ?_, hunits, hmem, ethDown_shows hup rfl⟩
    rw [exec_ethLinkDown, execEthLinkDown, if_pos hclk]
  · obtain ⟨hup', hother, hlock⟩ := serdesUnlock_eth hup
    obtain ⟨hunits, hmem⟩ := ethDown_units_mem e (setF (ethLock e) 0 s)
    have hshows := ethDown_shows hup' rfl
    rw [hother] at hshows
    exact ⟨_, exec_serdesUnlock_eth hclk e, hunits, hmem, hshows, hlock⟩
  · obtain ⟨hdown, hlock, hunits, hmem⟩ := serdesUnlock_vgd hup
    exact ⟨_, exec_serdesUnlock_vgd hclk e, hunits, hmem, hdown, hlock⟩
  · have hrun := ethRuns_of_up hclk hup hpin
    refine ⟨fun f hbad => ?_, fun src data => ⟨exec_arpRequest_own hrun src data, fun mac => exec_icmpEcho_own hrun mac src data⟩,
      fun mac dst src data hdst => ⟨exec_arpRequest_other hdst src data, exec_icmpEcho_other hdst mac src data⟩, fun hlocal => ?_,
      fun st hhost => ?_, fun hen hmaster => ?_⟩
    · obtain ⟨hhi, htop⟩ := frameDrop_fields e
      refine ⟨bump (frameDrop e) s, exec_ethFrameReceive_of_bad hrun hbad, bump_units .., bump_mem .., ?_,
        eq_of_sansStatus (sansStatus_bump ..)⟩
      change getF (frameDrop e) _ = _
      rw [bump, getF_bumpBy_same hhi, htop]
      rfl
    · obtain ⟨-, -, -, -, -, hframe⟩ := readdressed_shows e s rfl
      refine ⟨_, exec_addrConflict_of_local hrun hlocal, ?_, ?_, readdressed_shows e s rfl⟩
      · rw [hframe]
      · rw [hframe]
    · obtain ⟨hcount, hsent, hframe⟩ := beat_shows (beatSent e st (Config.freeValue s.free) (beatTail (beatCounted s)) s) s
      refine ⟨_, exec_heartbeatSend_of_host hhost hrun, ?_, ?_, hcount, ⟨_, _, hsent, length_beatTail _⟩, hframe⟩
      · rw [hframe]
      · rw [hframe]
    · intro q due hdue
      obtain ⟨hunits, hmem, hshows⟩ := syncSent_shows e s rfl
      exact ⟨_, exec_ptpSyncSend_of_due hrun hen hmaster hdue, hunits, hmem, hshows⟩
  · refine ⟨fun hparent => ⟨fun htwo => exec_ptpSync_of_two_steps hhears hparent htwo, fun hone => ?_, fun t2 hsync => ?_,
      fun t1 t2 t3 hreq hpair => ?_⟩, fun hmaster => exec_ptpDelayReq_of_master hhears hmaster,
      fun hown => exec_ptpAnnounce_of_own hown, fun hother => ?_⟩
    · obtain ⟨hunits, hmem, hfollows⟩ := ptpPair_follows e m.origin m.taken s
      exact ⟨_, exec_ptpSync_of_one_step hhears hparent hone, hunits, hmem, hfollows⟩
    · obtain ⟨hunits, hmem, hfollows⟩ := ptpPair_follows e m.origin t2 s
      exact ⟨_, exec_ptpFollowUp_of_sync hhears hparent hsync, hunits, hmem, hfollows⟩
    · obtain ⟨hunits, hmem, hshows⟩ := delayTaken_shows hpair ((t2 - t1 + (m.origin - t3)) / 2) rfl
      exact ⟨_, exec_ptpDelayResp_of_req hhears hparent hreq hpair, hunits, hmem, hshows⟩
    · have hexec := exec_ptpAnnounce_eq hhears hother
      refine ⟨fun (hbetter : betterThanOwn m.clock s = true) (hbest : bestHeard e m s = true) => ?_,
        fun (hbetter : betterThanOwn m.clock s = true) (hbest : bestHeard e m s = false) => ?_,
        fun (hbetter : betterThanOwn m.clock s = false) hparent => ?_, fun (hbetter : betterThanOwn m.clock s = false) hparent => ?_⟩
      · rw [if_pos hbetter, if_pos hbest] at hexec
        obtain ⟨-, -, -, -, hframe⟩ := follow_shows e m s
        refine ⟨_, hexec, ?_, ?_, follow_shows e m s⟩
        · rw [hframe]
        · rw [hframe]
      · rwa [if_pos hbetter, if_neg (Bool.eq_false_iff.mp hbest)] at hexec
      · rwa [if_neg (Bool.eq_false_iff.mp hbetter), if_neg (Bool.eq_false_iff.mp hparent)] at hexec
      · rw [if_neg (Bool.eq_false_iff.mp hbetter), if_pos hparent] at hexec
        obtain ⟨hslave, hsrc, hsent, htime, hunits, hmem⟩ := ptpStop_shows e s
        exact ⟨_, hexec, hunits, hmem, hslave, hsrc, hsent, htime⟩
  · obtain ⟨hstopped, hsrc, hsent, htime, hunits, hmem⟩ := ptpStop_shows e s
    exact ⟨_, exec_ptpAnnounceTimeout_of_slave hclk hslave, hunits, hmem, hstopped, hsrc, hsent, htime⟩

end Sys2Proof.Machine
end

section
/-!
SUPPORT. Transfers of a unit (R472, Table 10.4), and the DDR5 channels (R85, R234–R238).
-/

namespace Sys2Proof.Machine

/-! ### Words of memory -/

theorem readWords_eq_map (m : List Host.Cell) (a n : Nat) :
    readWords m a n = (List.range n).map fun i => readW m (a + 4 * i) := by
  induction n generalizing a with
  | zero => rfl
  | succ n ih =>
    rw [readWords, ih, List.range_succ_eq_map, List.map_cons, List.map_map]
    simp only [List.cons.injEq, Nat.mul_zero, Nat.add_zero, true_and]
    exact List.map_congr_left fun i _ => by rw [Function.comp_apply, Nat.mul_succ, Nat.add_assoc, Nat.add_comm 4]

theorem length_readWords (m : List Host.Cell) (a n : Nat) : (readWords m a n).length = n := by
  rw [readWords_eq_map, List.length_map, List.length_range]

theorem badAt_of_memBad_nil {s : State} (h : s.memBad = []) (a : Nat) : badAt a s = false := by
  rw [badAt, h, List.contains_nil]

/-! ### The transfer that comes first under a tag -/

theorem mem_of_firstXfer {u : UnitId} {t : Tag} {x : Xfer} {s : State} (h : firstXfer u t s = some x) :
    x.unit = u ∧ x.tag = t ∧ x.code = none := by
  have hx := List.find?_some h
  simpa [and_assoc] using hx

/-! ### Sources that pass parity (Table 10.4) -/

theorem checkSource_of_whole {x : Xfer} {s : State} (h : wholeSource x s) : checkSource x s = (s, false) := by
  unfold wholeSource sourceBad at h
  unfold checkSource
  split
  next ws hlost =>
    rw [hlost] at h
    have hall : ws.any (·.2) = false := by
      simp only [List.any_eq_false]
      exact fun p hp => by simpa using h p.2 (List.mem_map_of_mem hp)
    rw [hall]
  next hlost =>
    rw [hlost] at h
    rw [checkLoad_of_clean fun a ha => h _ (List.mem_map_of_mem ha)]
    rfl

theorem badSource_of_whole {x : Xfer} {s : State} (h : wholeSource x s) (dst : Nat) : badSource x dst s = [] := by
  unfold wholeSource sourceBad at h
  unfold badSource
  split
  next ws hlost =>
    rw [hlost] at h
    rw [List.map_eq_nil_iff, List.filter_eq_nil_iff]
    exact fun p hp => by simp [h p.1.2 (List.mem_map_of_mem (List.of_mem_zip hp).1)]
  next hlost =>
    rw [hlost] at h
    rw [List.map_eq_nil_iff, List.filter_eq_nil_iff]
    exact fun a ha => by simp [h _ (List.mem_map_of_mem ha)]

/-! ### An access to a channel (R85, R235–R237) -/

theorem reach_held_of_passes {a b : Nat} {s : State} (h : passes a b s = true) : reach a b s = true ∧ held a b s = false := by
  simpa [passes] using h

section
variable {u : UnitId} {t : Tag} {x : Xfer} {c : Fin 4} {s : State} (hep : x.ep = 0x20 + c.val)
include hep

theorem chan_of_ep : Fin.ofNat 4 (x.ep - 0x20) = c := by
  rw [hep, Nat.add_sub_cancel_left]
  exact Fin.ofNat_val_eq_self c

theorem filter_ddr_of_first (hfirst : firstXfer u t s = some x) :
    (firstXfer u t s).filter (fun x => decide (0x20 ≤ x.ep) && decide (x.ep ≤ 0x23)) = some x := by
  have hrange : (decide (0x20 ≤ x.ep) && decide (x.ep ≤ 0x23)) = true := by
    rw [Bool.and_eq_true, decide_eq_true_eq, decide_eq_true_eq]
    omega
  rw [hfirst, Option.filter_some, if_pos hrange]

variable (hlive : live s = true) (hfirst : firstXfer u t s = some x) (hpass : passes (dieOf u) c s = true)
include hlive hfirst hpass

theorem exec_ddrAccess_of_refused {code : Nat} {counts : Bool} (h : ddrRefusal c x s = some (code, counts)) :
    exec (.ddrAccess u t) s = .next (setCode u t code (if counts then countRefused s else s)) := by
  obtain ⟨hreach, hheld⟩ := reach_held_of_passes hpass
  rw [exec_ddrAccess, execDdrAccess, filter_ddr_of_first hep hfirst]
  simp only [chan_of_ep hep, hlive, hreach, hheld, h, Bool.not_true, Bool.false_eq_true, if_false]

theorem exec_ddrAccess_of_taken (h : ddrRefusal c x s = none) :
    exec (.ddrAccess u t) s = .next (if x.out then ddrWrite c x s else ddrRead c x s) := by
  obtain ⟨hreach, hheld⟩ := reach_held_of_passes hpass
  rw [exec_ddrAccess, execDdrAccess, filter_ddr_of_first hep hfirst]
  simp only [chan_of_ep hep, hlive, hreach, hheld, h, Bool.not_true, Bool.false_eq_true, if_false]

end

theorem countRefused_shows (s : State) : (countRefused s).xfers = s.xfers ∧ (countRefused s).units = s.units ∧
    (countRefused s).mem = s.mem ∧
    getF F.rstDdrRefusedDdrRefused (countRefused s) = min (2 ^ 32 - 1) (getF F.rstDdrRefusedDdrRefused s + 1) := by
  have hcount := getF_bump_same (f := F.rstDdrRefusedDdrRefused) (by decide) s
  by_cases htold : s.boot.refusedOnce = true
  · have heq : countRefused s = bump F.rstDdrRefusedDdrRefused s := if_pos htold
    rw [heq]
    exact ⟨rfl, rfl, rfl, hcount⟩
  · have heq : countRefused s = raise 0x0230 0 0 0 { bump F.rstDdrRefusedDdrRefused s with
        boot := { s.boot with refusedOnce := true } } := if_neg htold
    rw [heq]
    exact ⟨rfl, rfl, rfl, hcount⟩

/-- What a refused access that counts leaves (R85). -/
theorem ddrAccess_counts {u : UnitId} {t : Tag} {s : State} (h : exec (.ddrAccess u t) s = .next (setCode u t 4 (countRefused s))) :
    ∃ r, exec (.ddrAccess u t) s = .next r ∧ (r.xfers = (setCode u t 4 s).xfers ∧ r.units = s.units) ∧ sameMem s r ∧
      getF F.rstDdrRefusedDdrRefused r = min (2 ^ 32 - 1) (getF F.rstDdrRefusedDdrRefused s + 1) := by
  obtain ⟨hxfers, hunits, hmem, hcount⟩ := countRefused_shows s
  refine ⟨_, h, ⟨?_, hunits⟩, fun a => ?_, hcount⟩
  · rw [setCode, hxfers, setCode]
  · rw [setCode, hmem]

/-- A write whose source passes parity stores its words. -/
theorem ddrWrite_of_whole {x : Xfer} {s : State} (h : wholeSource x s) (c : Fin 4) :
    ddrWrite c x s = setCode x.unit x.tag 0
      (markBad [] (storeWords (ddrBase c + 8 * x.addr) (sourceWords x s) s)) := by
  rw [ddrWrite, checkSource_of_whole h]
  simp only [badSource_of_whole h]
  rfl

/-- A read whose bursts pass gives the channel's words: what it stores, and what else it leaves. -/
theorem ddrRead_of_clean {c : Fin 4} {x : Xfer} {s : State} (hbad : s.memBad = [])
    (hfail : ∀ y ∈ s.ddr[c].failing, y.1 ≠ x.unit ∨ y.2.1 ≠ x.tag) :
    (ddrRead c x s).mem = writeWords (storeBase x.unit + x.base) (readWords s.mem (ddrBase c + 8 * x.addr) (x.len / 4)) s.mem ∧
    (ddrRead c x s).xfers = endXfer x.unit x.tag 0 s.xfers ∧ (ddrRead c x s).units = s.units := by
  have hstuck : ((burstsOf (8 * x.addr) x.len).filter fun b =>
      (wordAddrs (ddrBase c + 64 * b) 16).any fun w => badAt w s) = [] := by
    rw [List.filter_eq_nil_iff]
    exact fun b _ => by simp [badAt_of_memBad_nil hbad]
  have hmine : (s.ddr[c].failing.filter fun y => decide (y.1 = x.unit) && decide (y.2.1 = x.tag)) = [] := by
    rw [List.filter_eq_nil_iff]
    exact fun y hy => by simpa [imp_iff_not_or] using hfail y hy
  have hwords : ((List.range (x.len / 4)).map fun i => burstWord c [] (8 * x.addr + 4 * i) s) =
      readWords s.mem (ddrBase c + 8 * x.addr) (x.len / 4) := by
    rw [readWords_eq_map]
    exact List.map_congr_left fun i _ => by simp [burstWord, Nat.add_assoc]
  have hhit : ((burstsOf (8 * x.addr) x.len).any fun b => ([] : List Nat).contains b) = false := by simp
  unfold ddrRead
  simp only [hstuck, hmine, List.map_nil, List.append_nil, List.foldl_nil, hwords, hhit, Bool.false_eq_true, if_false]
  split
  · exact ⟨rfl, rfl, rfl⟩
  · exact ⟨rfl, rfl, rfl⟩

/-! ### Bursts, alerts and the refresh rate (R236–R238) -/

theorem sansReport_burstFail (a : Nat) (s : State) : sansReport (burstFail a s) = sansReport s := by simp [burstFail]

theorem reread_burstFail (a : Nat) (s : State) : getF F.stcDdrCountReread (burstFail a s) = getF F.stcDdrCountReread s := by
  unfold burstFail
  rw [getF_congr (raiseLim_word (by decide) ..), getF_setF_addr _ _ (by decide), bump, bumpBy, getF_setF_bits _ _ (by decide),
    getF_setF_addr _ _ (by decide), getF_setF_addr _ _ (by decide)]

/-- A read burst that fails `n` times in a row (R236). -/
theorem ddrReadBurst_counts {c : Fin 4} {a : BitVec 30} {x : Xfer} {s : State} (n : Nat) (hlive : live s = true)
    (hfind : (s.xfers.find? fun x => !x.out && x.code.isNone && x.ep = 0x20 + c.val &&
      (burstsOf (8 * x.addr) x.len).contains a.toNat && (ddrRefusal c x s).isNone &&
      !(s.ddr[c]).failing.contains (x.unit, x.tag, a.toNat)) = some x) :
    ∃ t, exec (.ddrReadBurst c a n) s = .next t ∧
      getF F.stcDdrCountReread t = min 65535 (getF F.stcDdrCountReread s + min n 3) ∧
      (t.ddr[c]).failing = (if n < 4 then (s.ddr[c]).failing else (x.unit, x.tag, a.toNat) :: (s.ddr[c]).failing) ∧
      t = { s with ddr := t.ddr, status := t.status, ev := t.ev } := by
  have hcount := getF_bumpBy_same (f := F.stcDdrCountReread) (by decide) (min n 3) s
  by_cases hn : n < 4
  · refine ⟨bumpBy F.stcDdrCountReread (min n 3) s, ?_, hcount, (if_pos hn).symm, rfl⟩
    rw [exec_ddrReadBurst, execDdrReadBurst]
    simp only [hfind, hlive, hn, Bool.not_true, Bool.false_eq_true, if_false, if_true]
  · have hframe := eq_of_sansReport (sansReport_burstFail (ddrBase c + 64 * a.toNat) (bumpBy F.stcDdrCountReread (min n 3) s))
    refine ⟨modDdr c (fun e => { e with failing := (x.unit, x.tag, a.toNat) :: e.failing })
      (burstFail (ddrBase c + 64 * a.toNat) (bumpBy F.stcDdrCountReread (min n 3) s)), ?_, ?_, ?_, ?_⟩
    · rw [exec_ddrReadBurst, execDdrReadBurst]
      simp only [hfind, hlive, hn, Bool.not_true, Bool.false_eq_true, if_false]
    · exact (reread_burstFail ..).trans hcount
    · rw [if_neg hn, modDdr, vmod_same, hframe]
      rfl
    · rw [modDdr, hframe]
      rfl

section
variable {c : Fin 4} {s : State} (hclk : clocked s = true) (hsize : ddrSize c s ≠ 0) (hup : dieUp c s = true)
include hclk hsize hup

/-- A fourth ALERT_N in a row makes the channel fatal (R237). -/
theorem ddrAlert_retries (n : Nat) (hfatal : flagAt F.stcDdrFatal c s = false) : ∃ t, exec (.ddrAlert c n) s = .next t ∧
    getF F.stcCaRetryCaRetry t = min (2 ^ 32 - 1) (getF F.stcCaRetryCaRetry s + min n 3) ∧
    flagAt F.stcDdrFatal c t = decide (4 ≤ n) ∧ (4 ≤ n → getF F.stcFaultDdrChannelFatal t = 1) ∧
    t = { s with status := t.status, ev := t.ev } := by
  have hcount := getF_bumpBy_same (f := F.stcCaRetryCaRetry) (by decide) (min n 3) s
  have hexec : exec (.ddrAlert c n) s = .next (if n < 4 then bumpBy F.stcCaRetryCaRetry (min n 3) s else
      raise 0x2004 8 c 0 (setF F.stcFaultDdrChannelFatal 1 (setAt F.stcDdrFatal c true
        (bumpBy F.stcCaRetryCaRetry (min n 3) s)))) := by
    rw [exec_ddrAlert, execDdrAlert]
    simp only [hclk, hsize, hfatal, hup, Bool.not_true, decide_false, Bool.or_self, Bool.false_eq_true, if_false]
  by_cases hn : n < 4
  · rw [if_pos hn] at hexec
    refine ⟨_, hexec, hcount, ?_, fun h => absurd hn (Nat.not_lt.mpr h), rfl⟩
    rw [decide_eq_false (Nat.not_le.mpr hn), ← hfatal]
    exact flagAt_congr (setF_word_ne s _ (by decide))
  · rw [if_neg hn] at hexec
    refine ⟨_, hexec, ?_, ?_, fun _ => getF_set_one (by decide) (by decide) _, rfl⟩
    · rw [getF_congr (raise_word ..), getF_setF_addr _ _ (by decide), setAt, getF_setF_addr _ _ (by decide)]
      exact hcount
    · rw [decide_eq_true (Nat.not_lt.mp hn), flagAt_congr (raise_word ..), flagAt_congr (setF_word_ne _ _ (by decide)),
        flagAt_setAt (by decide) (fun _ => c.isLt) _ _, if_pos rfl]

/-- The SPD hub sensor sets the refresh rate (R238). -/
theorem ddrTempCheck_refresh (v : Int) : ∃ t, exec (.ddrTempCheck c v) s = .next t ∧
    flagAt F.stcDdrRefresh2x c t = (if 85 ≤ v then true else if v < 82 then false else flagAt F.stcDdrRefresh2x c s) ∧
    t.ddr = s.ddr.set c { s.ddr[c] with hot := decide (95 ≤ v) } ∧
    t = { s with ddr := t.ddr, status := t.status, ev := t.ev } := by
  let s1 := if 85 ≤ v then setAt F.stcDdrRefresh2x c true s else if v < 82 then setAt F.stcDdrRefresh2x c false s else s
  let s2 := if (decide (95 ≤ v) && !s1.ddr[c].hot) = true then raise 0x2005 8 c 0 s1 else s1
  have hexec : exec (.ddrTempCheck c v) s = .next (modDdr c (fun e => { e with hot := decide (95 ≤ v) }) s2) := by
    rw [exec_ddrTempCheck, execDdrTempCheck]
    simp only [hclk, hsize, hup, Bool.not_true, decide_false, Bool.or_self, Bool.false_eq_true, if_false]
    rfl
  have hframe1 : s1 = { s with status := s1.status } := eq_of_sansStatus (by
    rw [sansStatus_ite, sansStatus_ite, sansStatus_setAt, sansStatus_setAt, ite_self, ite_self])
  have hframe2 : sansReport s2 = sansReport s1 := by rw [sansReport_ite, sansReport_raise, ite_self]
  have hword : s2.word F.stcDdr = s1.word F.stcDdr := by rw [word_ite, raise_word, ite_self]
  have hframe : s2 = { s with status := s2.status, ev := s2.ev } := by
    have h := eq_of_sansReport hframe2
    rwa [hframe1] at h
  refine ⟨_, hexec, ?_, ?_, ?_⟩
  · refine (flagAt_congr hword).trans ?_
    rw [apply_ite (flagAt F.stcDdrRefresh2x c), apply_ite (flagAt F.stcDdrRefresh2x c),
      flagAt_setAt (by decide) (fun _ => c.isLt), flagAt_setAt (by decide) (fun _ => c.isLt), if_pos rfl, if_pos rfl]
  · rw [modDdr, hframe]
    rfl
  · rw [modDdr, hframe]

end

/-! ### O42 -/

/-- Settles O42: an access by the check that refuses it or by what it stores, the rest by the case of each command. -/
theorem ddrChannels : Obligations.DdrChannels := by
  unfold Obligations.DdrChannels
  intro c s
  refine ⟨fun u t x hlive hwf hfirst hep hpass => ?_, fun a n x hlive hfind => ddrReadBurst_counts n hlive hfind,
    fun hclk hsize hup => ⟨fun n hfatal => ddrAlert_retries hclk hsize hup n hfatal, fun v => ddrTempCheck_refresh hclk hsize hup v⟩⟩
  have hrefused {code : Nat} {counts : Bool} (h : ddrRefusal c x s = some (code, counts)) :=
    exec_ddrAccess_of_refused hep hlive hfirst hpass h
  obtain ⟨rfl, rfl, -⟩ := mem_of_firstXfer hfirst
  intro size here store code counts
  refine ⟨fun hfatal => hrefused (counts := false) (by simp [ddrRefusal, hfatal]),
    fun hfatal (htrained : s.ddr[c.val].trained = false) =>
      ddrAccess_counts (hrefused (counts := true) (by simp [ddrRefusal, hfatal, htrained])),
    fun hfatal (htrained : s.ddr[c.val].trained = true) => ⟨fun (hsize : ddrSize c s = 0) =>
      hrefused (counts := false) (by simp [ddrRefusal, hfatal, htrained, hsize]),
      fun (hsize : ddrSize c s ≠ 0) (hout : x.len % 8 ≠ 0 ∨ ddrSize c s < 8 * x.addr + x.len) =>
        hrefused (counts := false) (by simp [ddrRefusal, hfatal, htrained, hsize, hout]),
      fun (hsize : ddrSize c s ≠ 0) hlen (hin : 8 * x.addr + x.len ≤ ddrSize c s) => ?_⟩⟩
  have hwithin : ¬ (x.len % 8 ≠ 0 ∨ ddrSize c s < 8 * x.addr + x.len) := by omega
  refine ⟨fun (hwiped : s.ddr[c.val].wiped = false) (hpassed : s.ddr[c.val].passed < 8 * x.addr + x.len) =>
    ddrAccess_counts (hrefused (counts := true) (by
      simp [ddrRefusal, hfatal, htrained, hsize, hwithin, hwiped, hpassed])), fun hopen => ?_⟩
  have htaken : ddrRefusal c x s = none := by
    have hgo : (!s.ddr[c.val].wiped && decide (s.ddr[c.val].passed < 8 * x.addr + x.len)) = false := by
      rcases hopen with (h : s.ddr[c.val].wiped = true) | (h : _ ≤ s.ddr[c.val].passed)
      · rw [h, Bool.not_true, Bool.false_and]
      · rw [decide_eq_false (Nat.not_lt.mpr h), Bool.and_false]
    simp [ddrRefusal, hfatal, htrained, hsize, hwithin, hgo]
  have hexec := exec_ddrAccess_of_taken hep hlive hfirst hpass htaken
  refine ⟨fun hout hwhole => ?_, fun hin hfail hbad => ?_⟩
  · rw [if_pos hout, ddrWrite_of_whole hwhole] at hexec
    exact ⟨_, hexec, ⟨rfl, rfl⟩, readWords_writeWords _ _ hwf, fun b hb => readB_writeWords_out _ _ _ hwf hb⟩
  · obtain ⟨hmem, hxfers, hunits⟩ := ddrRead_of_clean hbad hfail
    have hlen : (readWords s.mem here (x.len / 4)).length = x.len / 4 := length_readWords ..
    rw [if_neg (Bool.eq_false_iff.mp hin)] at hexec
    refine ⟨_, hexec, ⟨hxfers, hunits⟩, ?_, fun b hb => ?_⟩
    · rw [hmem]
      calc readWords (writeWords store (readWords s.mem here (x.len / 4)) s.mem) store (x.len / 4)
          = readWords (writeWords store (readWords s.mem here (x.len / 4)) s.mem) store
              (readWords s.mem here (x.len / 4)).length := by rw [hlen]
        _ = readWords s.mem here (x.len / 4) := readWords_writeWords _ _ hwf
    · rw [hmem]
      exact readB_writeWords_out _ _ _ hwf (by rw [length_readWords]; exact hb)

end Sys2Proof.Machine
end

section
/-!
SUPPORT. The requests of the command protocol (R403, R406, R409, R410): how a request is carried out and answered, what it
reads of the status space and of the record store, and what leaving a low-power state or a shutdown changes.
-/

namespace Sys2Proof.Machine

/-! ### How a request is carried out (R410) -/

section
variable {op : Nat} {modes states : List Nat} {layout : List Byte → Bool} {act : State → State × Option (Nat × List Byte)}
  {after : State → State} {h : Hdr} {p : List Byte} {s t : State} {st : Nat} {data : List Byte}

theorem refusal_of_asks (hasks : asks op modes states h p s)
    (hrow : opTable.find? (fun r => r.op = op) = some ⟨op, modes, states⟩) (hlayout : layout p = true) :
    refusal op layout h p s = none := by
  obtain ⟨-, -, -, hop, -, hlen, hshort, hflags, hstatus, hmode, ⟨n, hn, hhost⟩, hverify⟩ := hasks
  have hhead : ¬ (h.length.toNat ≠ p.length || decide (1448 < p.length) || decide (h.flags ≠ 0) || decide (h.status ≠ 0)) = true := by
    simp [hlen, hflags, hstatus, hshort]
  rw [refusal, if_neg hhead, hop, hrow]
  simp [hlayout, hmode, hhost, hn, opBusy, hverify]

/-- A request that stands before the hub with the layout of its row ends with the STATUS its action answers. -/
theorem requestThen_of_asks (hasks : asks op modes states h p s)
    (hrow : opTable.find? (fun r => r.op = op) = some ⟨op, modes, states⟩) (hlayout : layout p = true)
    (hact : act s = (t, some (st, data))) :
    requestThen op layout act after h p s = if st = stOk then after (conclude h st data t) else conclude h st data t := by
  have hnone := refusal_of_asks hasks hrow hlayout
  obtain ⟨hhears, hok, haddr, hop, hkept, -⟩ := hasks
  rw [requestThen, hhears, hok, haddr, hop, hkept]
  simp [hnone, hact]

/-- A request that is carried out is answered with STATUS 0. -/
theorem request_of_asks_ok (hasks : asks op modes states h p s)
    (hrow : opTable.find? (fun r => r.op = op) = some ⟨op, modes, states⟩) (hlayout : layout p = true)
    (hact : act s = (t, some (0, data))) : request op layout act h p s = reply h 0 data t :=
  (request_of_asks hasks hrow hlayout hact).trans (conclude_of_ok h data t)

/-- A request whose answer comes later has no reply yet. -/
theorem request_of_asks_later (hasks : asks op modes states h p s)
    (hrow : opTable.find? (fun r => r.op = op) = some ⟨op, modes, states⟩) (hlayout : layout p = true)
    (hact : act s = (t, none)) : request op layout act h p s = t := by
  have hnone := refusal_of_asks hasks hrow hlayout
  obtain ⟨hhears, hok, haddr, hop, hkept, -⟩ := hasks
  rw [request, requestThen, hhears, hok, haddr, hop, hkept]
  simp [hnone, hact]

/-- A repeated request is answered again with the reply kept, and counted. -/
theorem requestThen_of_kept {r : KeptReply} (hhears : hears h p s = true) (hok : dgramOk h = true) (haddr : addressed h s = true)
    (hans : answered h = true) (hkept : keptReply h s = some r) (hop : h.opcode.toNat = op) :
    requestThen op layout act after h p s = send (replyTo h r.hdr r.data s) (bump F.lnkCmdDuplicate s) := by
  rw [requestThen, hhears, hok, haddr, hop, hkept, hans]
  simp

end

/-! ### What a reply needs of the state that a request has left -/

/-- A request has left units, memory and what was sent as they were, and the address of the port it came to. -/
def serves (h : Hdr) (s t : State) : Prop :=
  t.units = s.units ∧ t.mem = s.mem ∧ (t.net.sent = s.net.sent ∧ t.net.replies = s.net.replies) ∧ ethAddr h.eth t = ethAddr h.eth s

theorem serves_of_eq {h : Hdr} {s : State} : serves h s s := ⟨rfl, rfl, ⟨rfl, rfl⟩, rfl⟩

theorem serves_of_sansReport {h : Hdr} {s t : State} (hsans : sansReport t = sansReport s)
    (haddr : ethAddr h.eth t = ethAddr h.eth s) : serves h s t := by
  have hframe := eq_of_sansReport hsans
  exact ⟨by rw [hframe], by rw [hframe], ⟨by rw [hframe], by rw [hframe]⟩, haddr⟩

/-- The addresses of the ports stand in words of their own. -/
theorem page_ethAddr (e : Fin 2) : F.lnkEth0Addr + 4 * e.val = 0x900004 ∨ F.lnkEth0Addr + 4 * e.val = 0x900008 := by
  revert e
  decide

theorem ethAddr_ne {a : Nat} (h : a ≠ 0x900004 ∧ a ≠ 0x900008) (e : Fin 2) : F.lnkEth0Addr + 4 * e.val ≠ a := by
  have := page_ethAddr e
  omega

/-- The reply to a request leaves: the answer is kept, and all but the network and the free values stands as the request left it. -/
theorem reply_ends {h : Hdr} {s t : State} (hserves : serves h s t) (st : Nat) (data : List Byte) :
    (reply h st data t).units = s.units ∧ (reply h st data t).mem = s.mem ∧ answers h st data s (reply h st data t) := by
  obtain ⟨hunits, hmem, hnet, haddr⟩ := hserves
  refine ⟨?_, ?_, reply_answers hnet haddr st data⟩
  · rw [reply_frame, hunits]
  · rw [reply_frame, hmem]

theorem reply_word (h : Hdr) (st : Nat) (data : List Byte) (a : Nat) (s : State) : (reply h st data s).word a = s.word a := by
  rw [reply_frame]
  rfl

/-! ### READ and EVENTS (R260, R440, R450) -/

section
variable {s : State} (hbad : s.statusBad = []) (hlatch : s.latches = [])
include hbad hlatch

theorem readMany_of_quiet (a n : Nat) (hhi : ∀ i, i < n → hiOf ((a + 4 * i) % 2 ^ 32 / 4 * 4) = none) :
    readMany a n s = (s, (List.range n).map fun i => liveWord ((a + 4 * i) % 2 ^ 32 / 4 * 4) s) := by
  induction n generalizing a with
  | zero => rfl
  | succ n ih =>
    have hread : readStatus hostReader (a % 2 ^ 32) s = (s, liveWord (a % 2 ^ 32 / 4 * 4) s) := by
      have h0 : hiOf (a % 2 ^ 32 / 4 * 4) = none := hhi 0 n.succ_pos
      have hgood : s.statusBad.contains (a % 2 ^ 32 / 4 * 4) = false := by rw [hbad, List.contains_nil]
      rw [readStatus]
      simp only [parityCheck_of_good hgood, h0, hlatch, List.find?_nil]
    have hstep (i : Nat) : a + 4 * (i + 1) = a + 4 + 4 * i := by omega
    rw [readMany, hread]
    simp only []
    rw [ih (a + 4) fun i hi => by rw [← hstep]; exact hhi (i + 1) (Nat.succ_lt_succ hi), List.range_succ_eq_map, List.map_cons,
      List.map_map]
    simp only [Function.comp_def, Nat.succ_eq_add_one, hstep, Nat.mul_zero, Nat.add_zero]

end

/-- What is gathered in turn without a change of state. -/
theorem foldl_gathers {σ α β : Type} {g : σ × List β → α → σ × List β} {f : α → List β} {s : σ}
    (h : ∀ acc i, g (s, acc) i = (s, acc ++ f i)) (is : List α) (acc : List β) :
    is.foldl g (s, acc) = (s, acc ++ is.flatMap f) := by
  induction is generalizing acc with
  | nil => simp
  | cons i is ih => rw [List.foldl_cons, h, ih, List.flatMap_cons, List.append_assoc]

/-- No word of the event ring latches another. -/
theorem hiOf_of_ring {a : Nat} (h : ringBase ≤ a) : hiOf a = none := by
  unfold ringBase at h
  have hclk : a ≠ F.clkTimeLo := by
    unfold F.clkTimeLo
    omega
  have hdies (i : Nat) (hi : i < 2) : a ≠ F.fpdSyncTimeLo i ∧ a ≠ F.lumLatchTimeLo i := by
    unfold F.fpdSyncTimeLo F.lumLatchTimeLo
    omega
  rw [hiOf, if_neg hclk, List.findSome?_eq_none_iff]
  intro i hi
  obtain ⟨hfpd, hlum⟩ := hdies i (List.mem_range.mp hi)
  rw [if_neg hfpd, if_neg hlum]

/-- The slot of a record in the ring, word by word. -/
theorem ringAddr_aligned (k w : Nat) (hw : w < 4) :
    (ringBase + 16 * (k % 256) + 4 * w) % 2 ^ 32 / 4 * 4 = ringBase + 16 * (k % 256) + 4 * w := by
  unfold ringBase
  omega

/-! ### EVT_CLR (R443) -/

/-- No field of a port's address can be cleared. -/
theorem clearedBits_of_ro {fs : List FieldSpec} (h : ∀ f ∈ fs, f.acc = .ro) (m : Word) : clearedBits fs m = 0 := by
  have hkeeps (l : List FieldSpec) (hl : ∀ f ∈ l, f.acc = .ro) (a : Word) : l.foldl (fun a f =>
      if f.acc ≠ .ro ∧ m &&& bitMask f.hi f.lo ≠ 0 then a ||| bitMask f.hi f.lo else a) a = a := by
    induction l generalizing a with
    | nil => rfl
    | cons f l ih =>
      obtain ⟨hf, hl⟩ := List.forall_mem_cons.mp hl
      rw [List.foldl_cons, if_neg fun hc => hc.1 hf, ih hl]
  exact hkeeps fs h 0

theorem fieldsAt_ethAddr_ro (opt : Opt) (e : Fin 2) : ∀ f ∈ fieldsAt opt (F.lnkEth0Addr + 4 * e.val), f.acc = .ro := by
  revert e
  cases opt
  · decide
  · decide

theorem ethAddr_clearStatus (e : Fin 2) (a : Nat) (m : Word) (s : State) : ethAddr e (clearStatus (a / 4 * 4) m s) = ethAddr e s := by
  have ha : a / 4 * 4 / 4 * 4 = a / 4 * 4 := by omega
  by_cases hb : F.lnkEth0Addr + 4 * e.val = a / 4 * 4
  · rw [ethAddr, ethAddr, hb, clearStatus_word ha, ← hb, clearedBits_of_ro (fieldsAt_ethAddr_ro s.opt e)]
    exact BitVec.and_allOnes
  · exact clearStatus_word_ne ha hb m s

theorem clearStatus_aligned (a : Nat) (m : Word) (s : State) : clearStatus (a / 4 * 4) m s = clearStatus a m s := by
  have ha : a / 4 * 4 / 4 * 4 = a / 4 * 4 := by omega
  simp only [clearStatus, ha]

/-! ### The end of a shutdown (R355) -/

theorem sansStatus_setBias (d : Fin 2) (on : Bool) (s : State) : sansStatus (setBias d on s) = sansStatus s := by
  unfold setBias
  simp only [sansStatus_ite, sansStatus_setF, ite_self]

theorem sansStatus_setLowBias (d : Fin 2) (s : State) : sansStatus (setLowBias d s) = sansStatus s := by
  rw [setLowBias, sansStatus_ite, sansStatus_setBias, ite_self]

theorem sansStatus_standbyBias (s : State) : sansStatus (standbyBias s) = sansStatus s := by
  rw [standbyBias, sansStatus_setLowBias, sansStatus_setLowBias]

theorem sansStatus_moveShutter (d : Fin 2) (close : Bool) (s : State) : sansStatus (moveShutter d close s) = sansStatus s := by
  simp only [moveShutter, takeShutter, sansStatus_ite, sansStatus_bump, sansStatus_setF, ite_self]

theorem sansStatus_moveShutters (close : Bool) (s : State) : sansStatus (moveShutters close s) = sansStatus s := by
  unfold moveShutters
  rw [sansStatus_ite, sansStatus_foldl fun s d => by rw [sansStatus_ite, sansStatus_moveShutter, ite_self], ite_self]

/-- The fields in which the dies' levels and the device's are shown. -/
def thmShown (d : Fin 8) : List Fld :=
  [F.thmDieTemp d, F.thmDieLevel d, F.thmDieStep d, F.thmStateHottest, F.thmStateStep, F.thmStateWarning, F.thmStateResumeReady]

/-- What none of those fields is part of, the levels shown leave. -/
theorem showThm_keeps {γ : Type} (π : State → γ) (hπ : ∀ d, ∀ f ∈ thmShown d, ∀ v s, π (setF f v s) = π s) (s : State) :
    π (showThm s) = π s := by
  have hset {f : Fld} (d : Fin 8) (hf : f ∈ thmShown d) (v : Nat) (s : State) : π (setF f v s) = π s := hπ d f hf v s
  unfold showThm
  extract_lets t ds read u v w
  have ht : π t = π s := by
    refine foldl_keeps π (fun s d => ?_) _ s
    split
    · rfl
    · split
      · rw [hset d (by simp [thmShown]), hset d (by simp [thmShown]), hset d (by simp [thmShown])]
      · rw [hset d (by simp [thmShown]), hset d (by simp [thmShown])]
  have hu : π u = π t := by
    unfold u
    clear_value read
    cases read with
    | nil => rfl
    | cons x rest => exact hset 0 (by simp [thmShown]) ..
  calc π (setF F.thmStateResumeReady _ w) = π w := hset 0 (by simp [thmShown]) ..
    _ = π v := hset 0 (by simp [thmShown]) ..
    _ = π u := hset 0 (by simp [thmShown]) ..
    _ = π s := hu.trans ht

theorem sansStatus_showThm (s : State) : sansStatus (showThm s) = sansStatus s :=
  showThm_keeps sansStatus (fun _ _ _ _ _ => rfl) s

theorem page_thmShown (d : Fin 8) : ∀ f ∈ thmShown d, page f.addr = 0x7c := by
  revert d
  decide

theorem word_showThm {a : Nat} (h : page a ≠ 0x7c) (s : State) : (showThm s).word a = s.word a :=
  showThm_keeps (·.word a) (fun d f hf v s => setF_word_ne s v fun e => h (by rw [e, page_thmShown d f hf])) s

theorem beside_thmShown (d : Fin 8) : ∀ f ∈ thmShown d, f.addr = F.thmState → f.hi < 28 := by
  revert d
  decide

/-- What is shown of the dies leaves the shutdown in force. -/
theorem inShutdown_showThm (s : State) : inShutdown (showThm s) = inShutdown s := by
  have hkeeps : getF F.thmStateShutdown (showThm s) = getF F.thmStateShutdown s := by
    refine showThm_keeps (getF F.thmStateShutdown) (fun d f hf v s => ?_) s
    by_cases ha : f.addr = F.thmState
    · exact getF_setF_bits s v (.inr (beside_thmShown d f hf ha))
    · exact getF_setF_addr s v fun e => ha e.symm
  rw [inShutdown, flag, hkeeps]
  rfl

/-- What a request that ends a shutdown must keep: what a reply needs, the events, whether the device is in shutdown, and whether
the store holds its writes. -/
def kept (e : Fin 2) (s : State) : Vector ExUnit 30 × List Host.Cell × NetPart × EventPart × Bool × Nat × Word :=
  (s.units, s.mem, s.net, s.ev, inShutdown s, getF F.nvsStateHeld s, ethAddr e s)

theorem kept_of_sansStatus {e : Fin 2} {s t : State} (hsans : sansStatus t = sansStatus s)
    (hword : ∀ a, page a ≠ 0x10 → t.word a = s.word a) : kept e t = kept e s := by
  have hframe := eq_of_sansStatus hsans
  have hshut : getF F.thmStateShutdown t = getF F.thmStateShutdown s := getF_congr (hword _ (by decide))
  have hheld : getF F.nvsStateHeld t = getF F.nvsStateHeld s := getF_congr (hword _ (by decide))
  have haddr : ethAddr e t = ethAddr e s := hword _ (by revert e; decide)
  rw [kept, inShutdown, flag, hshut, hheld, haddr, hframe]
  rfl

theorem kept_standbyBias (e : Fin 2) (s : State) : kept e (standbyBias s) = kept e s :=
  kept_of_sansStatus (sansStatus_standbyBias s) fun _ ha => congrArg Aside.word (aside_standbyBias ha s)

theorem kept_moveShutters (e : Fin 2) (close : Bool) (s : State) : kept e (moveShutters close s) = kept e s :=
  kept_of_sansStatus (sansStatus_moveShutters close s) fun _ ha => congrArg Aside.word (aside_moveShutters ha close s)

/-- A word of a page apart from the calibration's and the store's. -/
theorem word_wantSave {a : Nat} (hcal : page a ≠ 0x38) (hnvs : page a ≠ 0x80) (s : State) : (wantSave s).word a = s.word a :=
  congrArg Aside.word (aside_wantSave hcal hnvs s)

theorem held_showNvs (s : State) : getF F.nvsStateHeld (showNvs s) = getF F.nvsStateHeld s := by
  unfold showNvs
  dsimp only
  rw [getF_setF_addr _ _ (by decide), getF_setF_addr _ _ (by decide), getF_setF_addr _ _ (by decide),
    getF_setF_bits _ _ (by decide), getF_setF_bits _ _ (by decide), getF_setF_bits _ _ (by decide)]

theorem word_startRun {a : Nat} (h : a ≠ F.calState) (r : CalRun) (s : State) : (startRun r s).word a = s.word a :=
  (setF_word_ne (clearPending r.item s) _ h).trans (setF_word_ne s _ h)

theorem showNvs_net_ev (s : State) : (showNvs s).net = s.net ∧ (showNvs s).ev = s.ev := by simp [showNvs]

theorem startRun_net_ev (r : CalRun) (s : State) : (startRun r s).net = s.net ∧ (startRun r s).ev = s.ev := ⟨rfl, rfl⟩

/-- SAVE changes the calibration, the store and what they show. -/
theorem wantSave_keeps (s : State) : (wantSave s).net = s.net ∧ (wantSave s).ev = s.ev ∧
    getF F.nvsStateHeld (wantSave s) = getF F.nvsStateHeld s := by
  unfold wantSave
  split
  · unfold setPending
    split
    · exact ⟨rfl, rfl, rfl⟩
    · exact ⟨rfl, rfl, getF_congr (setF_word_ne s _ (by decide))⟩
  · rcases startSave_cases s with hs | ⟨f, g, hs⟩
    · rw [hs]
      exact ⟨rfl, rfl, rfl⟩
    · have hmod (t : State) : (modNvs f t).net = t.net ∧ (modNvs f t).ev = t.ev ∧
          getF F.nvsStateHeld (modNvs f t) = getF F.nvsStateHeld t := ⟨rfl, rfl, rfl⟩
      have hcal (t : State) : (modCal g t).net = t.net ∧ (modCal g t).ev = t.ev ∧
          getF F.nvsStateHeld (modCal g t) = getF F.nvsStateHeld t := ⟨rfl, rfl, rfl⟩
      rw [hs, (showNvs_net_ev _).1, (showNvs_net_ev _).2, held_showNvs, (hmod _).1, (hmod _).2.1, (hmod _).2.2,
        (startRun_net_ev ..).1, (startRun_net_ev ..).2, getF_congr (word_startRun (by decide) ..)]
      exact hcal s

theorem kept_wantSave (e : Fin 2) (s : State) : kept e (wantSave s) = kept e s := by
  obtain ⟨hnet, hev, hheld⟩ := wantSave_keeps s
  have hunits : (wantSave s).units = s.units := units_of_aside (aside_wantSave (a := F.thmState) (by decide) (by decide) s)
  have hshut : getF F.thmStateShutdown (wantSave s) = getF F.thmStateShutdown s := getF_congr (word_wantSave (by decide) (by decide) s)
  have haddr : ethAddr e (wantSave s) = ethAddr e s := word_wantSave (by revert e; decide) (by revert e; decide) s
  rw [kept, hunits, wantSave_mem, hnet, hev, inShutdown, flag, hshut, hheld, haddr]
  rfl

theorem kept_startLeave (e : Fin 2) (park : Bool) (s : State) : kept e (startLeave park s) = kept e s := rfl

/-- A device that has left the shutdown. -/
def leftShutdown (s : State) : State :=
  showThm (raise 0x3304 0 0 0 (setF F.nvsStateHeld 0 (setF F.intStateSafe (b2n (otpBad s)) (setF F.thmStateShutdown 0 s))))

/-- Where a device that has left the shutdown goes, by the mode in which it entered it (R355). -/
def returned (s : State) : State :=
  match s.mode with
  | .running => startLeave true s
  | .exiting park => standbyBias (startLeave park s)
  | .standby => wantSave (standbyBias s)
  | .park => wantSave (moveShutters true s)
  | _ => s

theorem resumeDevice_of_ready {s : State} (hshut : inShutdown s = true) (hready : flag F.thmStateResumeReady s = true)
    (hlive : live s = true) : resumeDevice s = (returned (leftShutdown s), true) := by
  unfold resumeDevice returned leftShutdown
  simp only [hshut, hready, hlive, Bool.not_true, Bool.or_self, Bool.false_eq_true, if_false]
  generalize showThm _ = t
  cases t.mode <;> rfl

theorem resumeDevice_of_unready {s : State} (hshut : inShutdown s = true) (hready : flag F.thmStateResumeReady s = false) :
    resumeDevice s = (raise 0x3305 0 0 0 (setF F.thmFaultResumeRefused 1 s), false) := by
  unfold resumeDevice
  simp only [hshut, hready, Bool.not_true, Bool.not_false, Bool.true_or, Bool.false_eq_true, if_false, if_true]

theorem kept_returned (e : Fin 2) (s : State) : kept e (returned s) = kept e s := by
  unfold returned
  split
  · exact kept_startLeave e true s
  · exact (kept_standbyBias e _).trans (kept_startLeave e _ s)
  · exact (kept_wantSave e _).trans (kept_standbyBias e s)
  · exact (kept_wantSave e _).trans (kept_moveShutters e true s)
  · rfl

theorem kept_released (e : Fin 2) (s : State) : kept e (leftShutdown s) =
    (s.units, s.mem, s.net, { s.ev with queue := s.ev.queue ++ [⟨0x3304, 0, 0, 0, s.time⟩] }, false, 0, ethAddr e s) := by
  have hframe := eq_of_sansStatus (sansStatus_showThm (raise 0x3304 0 0 0 (setF F.nvsStateHeld 0
    (setF F.intStateSafe (b2n (otpBad s)) (setF F.thmStateShutdown 0 s)))))
  have hshut : inShutdown (leftShutdown s) = false := by
    rw [leftShutdown, inShutdown_showThm]
    have h0 : getF F.thmStateShutdown (setF F.nvsStateHeld 0 (setF F.intStateSafe (b2n (otpBad s)) (setF F.thmStateShutdown 0 s))) = 0 := by
      rw [getF_setF_addr _ _ (by decide), getF_setF_addr _ _ (by decide), getF_setF_same _ _ _ (by decide)]
      rfl
    rw [inShutdown, flag, getF_congr (raise_word ..), h0]
    rfl
  have hheld : getF F.nvsStateHeld (leftShutdown s) = 0 := by
    rw [leftShutdown, getF_congr (word_showThm (by decide) _), getF_congr (raise_word ..), getF_setF_same _ _ _ (by decide)]
    rfl
  have haddr : ethAddr e (leftShutdown s) = ethAddr e s := by
    have hpage : page (F.lnkEth0Addr + 4 * e.val) ≠ 0x7c := by revert e; decide
    rw [leftShutdown, ethAddr, word_showThm hpage, raise_word, setF_word_ne _ _ (ethAddr_ne (by decide) e),
      setF_word_ne _ _ (ethAddr_ne (by decide) e), setF_word_ne _ _ (ethAddr_ne (by decide) e), ethAddr]
  rw [kept, hshut, hheld, haddr, leftShutdown, hframe]
  rfl

theorem mode_released (s : State) : (leftShutdown s).mode = s.mode := by
  rw [leftShutdown, eq_of_sansStatus (sansStatus_showThm _)]
  rfl

/-! ### NVS (R380–R383) -/

theorem wordBytes_append (a b c d : Byte) : wordBytes (d ++ c ++ b ++ a) = [a, b, c, d] := by
  unfold wordBytes
  simp only [List.cons.injEq, and_true]
  refine ⟨?_, ?_, ?_, ?_⟩
  all_goals
    ext i hi
    simp only [BitVec.getElem_setWidth, BitVec.getLsbD_ushiftRight, BitVec.getLsbD_append]
    grind

theorem toBytes_append (xs ys : List Word) : toBytes (xs ++ ys) = toBytes xs ++ toBytes ys := List.flatMap_append

theorem toBytes_take (n : Nat) (ws : List Word) : toBytes (ws.take n) = (toBytes ws).take (4 * n) := by
  induction n generalizing ws with
  | zero => simp [toBytes]
  | succ n ih =>
    cases ws with
    | nil => simp [toBytes]
    | cons w ws =>
      have hw (l : List Word) : toBytes (w :: l) = wordBytes w ++ toBytes l := List.flatMap_cons
      rw [List.take_succ_cons, hw, hw, ih, Nat.mul_succ, Nat.add_comm, ← wordBytes_length w, List.take_length_add_append]

/-- The bytes packed into words come out again, the last word filled up. -/
theorem toBytes_toWords (bs : List Byte) : ∃ fill, toBytes (toWords bs) = bs ++ fill := by
  induction bs using toWords.induct with
  | case1 a b c d t ih =>
    obtain ⟨fill, ih⟩ := ih
    refine ⟨fill, ?_⟩
    rw [toWords, toBytes, List.flatMap_cons, wordBytes_append]
    exact congrArg ([a, b, c, d] ++ ·) ih
  | case2 => exact ⟨[], rfl⟩
  | case3 a => exact ⟨[0, 0, 0], by rw [toWords, toBytes, List.flatMap_singleton, wordBytes_append]; rfl⟩
  | case4 a b => exact ⟨[0, 0], by rw [toWords, toBytes, List.flatMap_singleton, wordBytes_append]; rfl⟩
  | case5 a b c => exact ⟨[0], by rw [toWords, toBytes, List.flatMap_singleton, wordBytes_append]; rfl⟩

/-- The first bytes of words cut to a window that holds them. -/
theorem toBytes_fitWords {n : Nat} {ws : List Word} {bs fill : List Byte} (hbs : toBytes ws = bs ++ fill) (hfit : bs.length ≤ 4 * n) :
    (toBytes (fitWords n ws)).take bs.length = bs := by
  rw [fitWords, toBytes_take, toBytes_append, hbs, List.take_take, Nat.min_eq_left hfit, List.append_assoc, List.take_left]

theorem unlockBits_of_open {p i : Nat} {s : State} (h : (unlockBits p s).2.testBit i = true) : (unlockBits p s).1 = s := by
  unfold unlockBits at h ⊢
  dsimp only at h ⊢
  split
  · rfl
  next hne =>
    rw [if_neg hne, Nat.zero_testBit] at h
    exact absurd h Bool.false_ne_true

/-- A record that is present, unlocked and no password reads with its header and its bytes, where they fit (R381). -/
theorem nvsRead_of_found {p k n : Nat} {s : State} {c : Copy} (hopen : (unlockBits p s).2.testBit p = true)
    (hplain : ¬ (p = 0 ∧ 0x510 ≤ k ∧ k ≤ 0x517)) (hfound : resolve p k s.nvs = .found c) (hfit : 16 + (copyBytes c).length ≤ n) :
    nvsRead p k n s = (s, fitWords (n / 4) (nvsHeader 0 (copyBytes c).length c.seq ++ toWords (copyBytes c))) := by
  have hstate := unlockBits_of_open hopen
  have hpw : (!(unlockBits p s).2.testBit p || (decide (p = 0) && inR 0x510 k 0x517)) = false := by
    rw [hopen, inR, ← Bool.decide_and, ← Bool.decide_and, decide_eq_false hplain]
    rfl
  unfold nvsRead
  simp only [hpw, hstate, hfound, Bool.false_eq_true, if_false, if_neg (Nat.not_lt.mpr hfit)]

theorem length_nvsHeader (status len seq : Nat) : (toBytes (nvsHeader status len seq)).length = 16 := rfl

/-- The length that a reply to a read takes from the header (R381). -/
theorem length_of_header {len : Nat} (hlen : len < 2 ^ 16) (seq n : Nat) (ws : List Word) :
    bits (nth 0 (fitWords (n + 1) (nvsHeader 0 len seq ++ ws)) 0) 15 0 = len := by
  have hfirst : nth 0 (fitWords (n + 1) (nvsHeader 0 len seq ++ ws)) 0 = BitVec.ofNat 32 (0 * 2 ^ 28 + len) := rfl
  rw [hfirst, bits, BitVec.toNat_ofNat]
  omega

/-- A write of an owner's record where it is open and the queue has room follows what waits (R380, R383). -/
theorem nvsRequest_of_open {a : Nat} {bs : List Byte} {s : State} (haddr : nvsAddrOk a = true) (hop : nvsOpOf a = 0)
    (hopen : (unlockBits (nvsPartOf a) s).2.testBit (4 + nvsPartOf a) = true)
    (howner : deviceKey (nvsPartOf a) (nvsKeyOf a) = false) (hlen : nvsLenOk bs = true) (hroom : s.nvs.queue.length < 16) :
    nvsRequest a bs s = (nvsQueue ⟨nvsPartOf a, nvsKeyOf a, bs, 0, none, false⟩ s, 0) := by
  have hstate := unlockBits_of_open hopen
  unfold nvsRequest nvsWrite
  simp [haddr, hop, hopen, howner, hlen, hstate, Nat.not_le.mpr hroom]

/-- What waits to be written: the queue, and behind it the device's own writes. -/
theorem waiting_nvsQueue (w : NvsWrite) (s : State) : (nvsQueue w s).nvs.queue ++ (nvsQueue w s).nvs.later =
    s.nvs.queue ++ s.nvs.later ++ [w] := by
  rw [nvsQueue, showNvs_nvs]
  change (feed _).queue ++ (feed _).later = _
  rw [feed, List.append_assoc, List.take_append_drop, List.append_assoc]

/-! ### SET_NET (R403, R406) -/

/-- The field that shows the mode of a port. -/
def modeFld (e : Fin 2) : Fld := if e = 0 then F.lnkPortEth0Mode else F.lnkPortEth1Mode

theorem modeFld_fields (e : Fin 2) : (modeFld e).addr = F.lnkPort ∧ (modeFld e).hi < 32 ∧ 23 < (modeFld e).lo ∧
    (modeFld e).hi + 1 - (modeFld e).lo = 2 := by
  revert e
  decide

theorem modeFld_ne {d e : Fin 2} (h : d ≠ e) : (modeFld d).hi < (modeFld e).lo ∨ (modeFld e).hi < (modeFld d).lo := by
  revert d e
  decide

/-- The addresses and masks of a port, and its place on its link-local address, as they are set for it. -/
def portAddressed (e : Fin 2) (ip mask : Word) (s : State) : State :=
  setAt F.lnkPortLinkLocal e false
    (modNet (fun n => { n with masks := n.masks.set e mask }) (s.setWord (F.lnkEth0Addr + 4 * e.val) ip))

theorem setPort_eq (e : Fin 2) (ip mask : Word) (mode : Nat) (s : State) : setPort e ip mask mode s =
    if ip = 0 then setF (modeFld e) mode s else portAddressed e ip mask (setF (modeFld e) mode s) := rfl

theorem portAddressed_word {a : Nat} {e : Fin 2} (haddr : a ≠ F.lnkEth0Addr + 4 * e.val) (hport : a ≠ F.lnkPort) (ip mask : Word)
    (s : State) : (portAddressed e ip mask s).word a = s.word a :=
  (setF_word_ne _ _ hport).trans (word_setWord_ne s haddr ip)

theorem portAddressed_field {f : Fld} (e : Fin 2) (hf : f.addr = F.lnkPort) (hlo : 23 < f.lo) (ip mask : Word) (s : State) :
    getF f (portAddressed e ip mask s) = getF f s := by
  have hne : f.addr ≠ F.lnkEth0Addr + 4 * e.val := by
    rw [hf]
    exact (ethAddr_ne (by decide) e).symm
  exact (getF_setF_bits _ _ (.inr hlo)).trans (getF_setWord_ne hne ip s)

/-- What a port's settings leave: everything but its masks and the status space, and there all but its address and LNK.PORT. -/
theorem setPort_frame (e : Fin 2) (ip mask : Word) (mode : Nat) (s : State) : setPort e ip mask mode s = { s with
    net := { s.net with masks := (setPort e ip mask mode s).net.masks }, status := (setPort e ip mask mode s).status } := by
  rw [setPort_eq]
  split <;> rfl

theorem setPort_word {a : Nat} {e : Fin 2} (haddr : a ≠ F.lnkEth0Addr + 4 * e.val) (hport : a ≠ F.lnkPort) (ip mask : Word)
    (mode : Nat) (s : State) : (setPort e ip mask mode s).word a = s.word a := by
  have hmode : (setF (modeFld e) mode s).word a = s.word a := setF_word_ne s _ (by rw [(modeFld_fields e).1]; exact hport)
  rw [setPort_eq, word_ite, portAddressed_word haddr hport, hmode, ite_self]

/-- The mode of either port after the settings of one. -/
theorem setPort_mode {mode : Nat} (hmode : mode ≤ 3) (d e : Fin 2) (ip mask : Word) (s : State) :
    getF (modeFld d) (setPort e ip mask mode s) = if d = e then mode else getF (modeFld d) s := by
  obtain ⟨hd, -, hdlo, -⟩ := modeFld_fields d
  obtain ⟨-, hehi, -, hwidth⟩ := modeFld_fields e
  have hset : getF (modeFld d) (setF (modeFld e) mode s) = if d = e then mode else getF (modeFld d) s := by
    split
    next h =>
      subst h
      exact getF_setF_lt hehi (by rw [hwidth]; omega) s
    next h => exact getF_setF_bits s mode (modeFld_ne h)
  rw [setPort_eq, apply_ite (getF (modeFld d)), portAddressed_field e hd hdlo, ite_self, hset]

/-- The address and mask of the other port stay. -/
theorem setPort_other {d e : Fin 2} (h : d ≠ e) (ip mask : Word) (mode : Nat) (s : State) :
    ethAddr d (setPort e ip mask mode s) = ethAddr d s ∧ (setPort e ip mask mode s).net.masks[d] = s.net.masks[d] ∧
    flagAt F.lnkPortLinkLocal d (setPort e ip mask mode s) = flagAt F.lnkPortLinkLocal d s := by
  have hval : d.val ≠ e.val := fun hv => h (Fin.ext hv)
  have hbits : flagAt F.lnkPortLinkLocal d (setF (modeFld e) mode s) = flagAt F.lnkPortLinkLocal d s := by
    rw [flagAt, getF_setF_bits s mode (.inl (modeFld_fields e).2.2.1)]
    rfl
  refine ⟨setPort_word (by omega) (ethAddr_ne (by decide) d) .., ?_, ?_⟩
  · rw [setPort_eq]
    split
    · rfl
    · exact Vector.getElem_set_ne e.isLt d.isLt hval.symm
  · rw [setPort_eq, apply_ite (flagAt F.lnkPortLinkLocal d), hbits]
    have hlocal (t : State) : flagAt F.lnkPortLinkLocal d (portAddressed e ip mask t) = flagAt F.lnkPortLinkLocal d t := by
      rw [portAddressed, flagAt_setAt (by decide) (fun hb => absurd hb Bool.false_ne_true), if_neg hval]
      exact flagAt_congr (word_setWord_ne t (ethAddr_ne (by decide) e).symm ip)
    rw [hlocal, hbits, ite_self]

/-- The address and mask that a port is given; an address of zero leaves both. -/
theorem setPort_own (e : Fin 2) (ip mask : Word) (mode : Nat) (s : State) :
    (ip = 0 → ethAddr e (setPort e ip mask mode s) = ethAddr e s ∧ (setPort e ip mask mode s).net.masks[e] = s.net.masks[e]) ∧
    (ip ≠ 0 → ethAddr e (setPort e ip mask mode s) = ip ∧ (setPort e ip mask mode s).net.masks[e] = mask ∧
      flagAt F.lnkPortLinkLocal e (setPort e ip mask mode s) = false) := by
  refine ⟨fun h => ?_, fun h => ?_⟩
  · rw [setPort_eq, if_pos h]
    exact ⟨setF_word_ne s _ (by rw [(modeFld_fields e).1]; exact ethAddr_ne (by decide) e), rfl⟩
  · rw [setPort_eq, if_neg h]
    refine ⟨?_, Vector.getElem_set_self _, ?_⟩
    · exact (setF_word_ne _ _ (ethAddr_ne (by decide) e)).trans (word_setWord_same _ _ _)
    · exact (flagAt_setAt (by decide) (fun hb => absurd hb Bool.false_ne_true) _ _).trans (if_pos rfl)

/-- The number that SET_NET gives the module. -/
def numbered (p : List Byte) (s : State) : State := setF F.lnkNetDevnum (fieldAt p 0 4) (setF F.lnkNetNumValid 1 s)

/-- The settings that SET_NET gives a port. -/
def portSet (p : List Byte) (e : Fin 2) (s : State) : State :=
  setPort e (BitVec.ofNat 32 (fieldAt p (4 + 12 * e.val) 4)) (BitVec.ofNat 32 (fieldAt p (8 + 12 * e.val) 4))
    (fieldAt p (12 + 12 * e.val) 4) s

theorem setNet_eq (p : List Byte) (s : State) : setNet p s = portSet p 1 (portSet p 0 (numbered p s)) := rfl

theorem setNet_frame (p : List Byte) (s : State) : (setNet p s).units = s.units ∧ (setNet p s).mem = s.mem ∧
    (setNet p s).net.sent = s.net.sent ∧ (setNet p s).net.replies = s.net.replies := by
  have hport (e : Fin 2) (t : State) : (portSet p e t).units = t.units ∧ (portSet p e t).mem = t.mem ∧
      (portSet p e t).net.sent = t.net.sent ∧ (portSet p e t).net.replies = t.net.replies := by
    rw [portSet, setPort_frame]
    exact ⟨rfl, rfl, rfl, rfl⟩
  obtain ⟨hunits, hmem, hsent, hreplies⟩ := hport 0 (numbered p s)
  obtain ⟨hunits1, hmem1, hsent1, hreplies1⟩ := hport 1 (portSet p 0 (numbered p s))
  rw [setNet_eq]
  exact ⟨hunits1.trans hunits, hmem1.trans hmem, hsent1.trans hsent, hreplies1.trans hreplies⟩

theorem numbered_shows {p : List Byte} (hn : fieldAt p 0 4 ≤ 0x3FFFE) (s : State) :
    getF F.lnkNetNumValid (numbered p s) = 1 ∧ getF F.lnkNetDevnum (numbered p s) = fieldAt p 0 4 := by
  refine ⟨?_, getF_setF_lt (by decide) (Nat.lt_of_le_of_lt hn (by decide)) _⟩
  exact (getF_setF_bits _ _ (by decide)).trans (getF_set_one (by decide) (by decide) s)

theorem word_portSet_net (p : List Byte) (e : Fin 2) (s : State) : (portSet p e s).word F.lnkNet = s.word F.lnkNet :=
  setPort_word (ethAddr_ne (by decide) e).symm (by decide) ..

theorem ethAddr_numbered (p : List Byte) (e : Fin 2) (s : State) : ethAddr e (numbered p s) = ethAddr e s :=
  (setF_word_ne _ _ (ethAddr_ne (by decide) e)).trans (setF_word_ne s _ (ethAddr_ne (by decide) e))

theorem portSet_own (p : List Byte) (e : Fin 2) (s : State) :
    let ip := BitVec.ofNat 32 (fieldAt p (4 + 12 * e.val) 4)
    (ip = 0 → ethAddr e (portSet p e s) = ethAddr e s ∧ (portSet p e s).net.masks[e] = s.net.masks[e]) ∧
    (ip ≠ 0 → ethAddr e (portSet p e s) = ip ∧ (portSet p e s).net.masks[e] = BitVec.ofNat 32 (fieldAt p (8 + 12 * e.val) 4) ∧
      flagAt F.lnkPortLinkLocal e (portSet p e s) = false) := setPort_own e _ _ _ s

theorem portSet_other (p : List Byte) {d e : Fin 2} (h : d ≠ e) (s : State) : ethAddr d (portSet p e s) = ethAddr d s ∧
    (portSet p e s).net.masks[d] = s.net.masks[d] ∧ flagAt F.lnkPortLinkLocal d (portSet p e s) = flagAt F.lnkPortLinkLocal d s :=
  setPort_other h _ _ _ s

/-- What SET_NET shows: the number, and of each port the mode and an address that is not zero (R403, R406). -/
theorem setNet_shows {p : List Byte} (hn : fieldAt p 0 4 ≤ 0x3FFFE) (h0 : fieldAt p 12 4 ≤ 3) (h1 : fieldAt p 24 4 ≤ 3) (s : State) :
    getF F.lnkNetNumValid (setNet p s) = 1 ∧ getF F.lnkNetDevnum (setNet p s) = fieldAt p 0 4 ∧
    getF F.lnkPortEth0Mode (setNet p s) = fieldAt p 12 4 ∧ getF F.lnkPortEth1Mode (setNet p s) = fieldAt p 24 4 ∧
    ∀ e : Fin 2,
      let ip := BitVec.ofNat 32 (fieldAt p (4 + 12 * e.val) 4)
      (ip = 0 → ethAddr e (setNet p s) = ethAddr e s ∧ (setNet p s).net.masks[e] = s.net.masks[e]) ∧
      (ip ≠ 0 → ethAddr e (setNet p s) = ip ∧ (setNet p s).net.masks[e] = BitVec.ofNat 32 (fieldAt p (8 + 12 * e.val) 4) ∧
        flagAt F.lnkPortLinkLocal e (setNet p s) = false) := by
  have hnet : (setNet p s).word F.lnkNet = (numbered p s).word F.lnkNet := (word_portSet_net p 1 _).trans (word_portSet_net p 0 _)
  obtain ⟨hvalid, hnum⟩ := numbered_shows hn s
  have hmode0 : getF (modeFld 0) (setNet p s) = fieldAt p 12 4 :=
    (setPort_mode h1 0 1 _ _ _).trans (setPort_mode h0 0 0 _ _ _)
  have hmode1 : getF (modeFld 1) (setNet p s) = fieldAt p 24 4 := setPort_mode h1 1 1 _ _ _
  refine ⟨(getF_congr hnet).trans hvalid, (getF_congr hnet).trans hnum, hmode0, hmode1, ?_⟩
  intro e
  match e with
  | 0 =>
    obtain ⟨hzero, haddr⟩ := portSet_own p 0 (numbered p s)
    obtain ⟨haddr1, hmask1, hlocal1⟩ := portSet_other p (d := 0) (e := 1) (by decide) (portSet p 0 (numbered p s))
    rw [setNet_eq, haddr1, hmask1, hlocal1]
    intro ip
    exact ⟨fun h => ⟨(hzero h).1.trans (ethAddr_numbered p 0 s), (hzero h).2⟩, haddr⟩
  | 1 =>
    obtain ⟨hzero, haddr⟩ := portSet_own p 1 (portSet p 0 (numbered p s))
    obtain ⟨haddr0, hmask0, -⟩ := portSet_other p (d := 1) (e := 0) (by decide) (numbered p s)
    intro ip
    exact ⟨fun h => ⟨(hzero h).1.trans (haddr0.trans (ethAddr_numbered p 1 s)), (hzero h).2.trans hmask0⟩, haddr⟩

/-! ### What each request leaves -/

/-- The command answers a next state in which units and memory are as before, and `eff` holds. -/
def leaves (s : State) (i : Instr) (eff : State → Prop) : Prop := ∃ t, exec i s = .next t ∧ t.units = s.units ∧ t.mem = s.mem ∧ eff t

section
variable {h : Hdr} {p : List Byte} {s t : State}

theorem leaves_of_reply {i : Instr} {eff : State → Prop} {st : Nat} {data : List Byte} (hexec : exec i s = .next (reply h st data t))
    (hserves : serves h s t) (heff : answers h st data s (reply h st data t) → eff (reply h st data t)) : leaves s i eff := by
  obtain ⟨hunits, hmem, hans⟩ := reply_ends hserves st data
  exact ⟨_, hexec, hunits, hmem, heff hans⟩

theorem cmdRead_leaves (hasks : asks 1 [0, 2] [0, 1, 2, 3, 4, 5] h p s) (hlen : p.length = 6) (hlo : 1 ≤ fieldAt p 4 2)
    (hhi : fieldAt p 4 2 ≤ 256) (hbad : s.statusBad = []) (hlatch : s.latches = [])
    (hplain : ∀ i, i < fieldAt p 4 2 → hiOf ((fieldAt p 0 4 + 4 * i) % 2 ^ 32 / 4 * 4) = none) :
    leaves s (.cmdRead h p) fun t => answers h 0 (toBytes ((List.range (fieldAt p 4 2)).map fun i =>
      liveWord ((fieldAt p 0 4 + 4 * i) % 2 ^ 32 / 4 * 4) s)) s t ∧ t.status = s.status := by
  refine leaves_of_reply (t := s) ?_ serves_of_eq fun hans => ⟨hans, by rw [reply_frame]⟩
  rw [exec_cmdRead, execCmdRead, request_of_asks_ok hasks (by decide) (by simp [sized, inR, hlen, hlo, hhi]) ?_]
  rw [readMany_of_quiet hbad hlatch _ _ hplain]
  rfl

theorem cmdEvtClr_leaves (hasks : asks 2 [0, 1, 2] [2, 3, 4, 5] h p s) (hlen : p.length = 8) :
    leaves s (.cmdEvtClr h p) fun t => answers h 0 [] s t ∧ ∀ b, t.word b = if b = fieldAt p 4 4 / 4 * 4 then
      s.word (fieldAt p 4 4 / 4 * 4) &&&
        ~~~ (clearedBits (fieldsAt s.opt (fieldAt p 4 4 / 4 * 4)) (BitVec.ofNat 32 (fieldAt p 0 4))) else s.word b := by
  let t := clearStatus (fieldAt p 4 4 / 4 * 4) (BitVec.ofNat 32 (fieldAt p 0 4)) s
  have hsans : sansStatus t = sansStatus s := by
    rw [show t = { s with status := t.status } from clearStatus_frame ..]
    rfl
  refine leaves_of_reply (t := t) ?_ (serves_of_sansReport (sansReport_of_sansStatus hsans) (ethAddr_clearStatus ..)) fun hans =>
    ⟨hans, fun b => ?_⟩
  · rw [exec_cmdEvtClr, execCmdEvtClr, request_of_asks_ok hasks (t := t) (by decide) (by simp [sized, hlen]) ?_]
    rw [show t = clearStatus (fieldAt p 4 4) (BitVec.ofNat 32 (fieldAt p 0 4)) s from clearStatus_aligned ..]
    rfl
  · have haligned : fieldAt p 4 4 / 4 * 4 / 4 * 4 = fieldAt p 4 4 / 4 * 4 := by omega
    rw [reply_word]
    split
    next hb => rw [hb, clearStatus_word haligned]
    next hb => exact clearStatus_word_ne haligned hb _ _

theorem cmdEvents_leaves (hasks : asks 3 [0, 2] [0, 1, 2, 3, 4, 5] h p s) (hlen : p.length = 2) (hlo : 1 ≤ fieldAt p 0 2)
    (hhi : fieldAt p 0 2 ≤ 64) (hbad : s.statusBad = []) (hlatch : s.latches = []) :
    let n := getF F.intEvtHostNext s
    let k := min (fieldAt p 0 2) (unread s)
    leaves s (.cmdEvents h p) fun t => getF F.intEvtHostNext t = (n + k) % 2 ^ 32 ∧ t.ev = s.ev ∧
      answers h 0 (leBytes 4 n ++ leBytes 2 k ++ [0, 0] ++ toBytes ((List.range k).flatMap fun i =>
        (List.range 4).map fun w => liveWord (ringBase + 16 * ((n + i) % 256) + 4 * w) s)) s t := by
  intro n k
  have hread (i : Nat) : readMany (ringBase + 16 * ((n + i) % 256)) 4 s =
      (s, (List.range 4).map fun w => liveWord (ringBase + 16 * ((n + i) % 256) + 4 * w) s) := by
    rw [readMany_of_quiet hbad hlatch _ _ fun w hw => by
      rw [ringAddr_aligned _ _ hw, hiOf_of_ring (Nat.le_trans (Nat.le_add_right ..) (Nat.le_add_right ..))]]
    exact congrArg (Prod.mk s) (List.map_congr_left fun w hw => by rw [ringAddr_aligned _ _ (List.mem_range.mp hw)])
  have hserves : serves h s (setF F.intEvtHostNext ((n + k) % 2 ^ 32) s) :=
    serves_of_sansReport (sansReport_setF ..) (setF_word_ne s _ (ethAddr_ne (by decide) _))
  refine leaves_of_reply ?_ hserves fun hans => ⟨?_, by rw [reply_frame]; rfl, hans⟩
  · rw [exec_cmdEvents, execCmdEvents, request_of_asks_ok hasks (by decide) (by simp [sized, inR, hlen, hlo, hhi]) ?_]
    dsimp only
    rw [foldl_gathers (f := fun i => (List.range 4).map fun w => liveWord (ringBase + 16 * ((n + i) % 256) + 4 * w) s)
      (fun acc i => by simp only [n, hread]), List.nil_append]
    rfl
  · rw [getF_congr (reply_word ..)]
    exact getF_setF_lt (by decide) (Nat.mod_lt _ (by decide)) s

/-- A device that the hub serves is not frozen (R418). -/
theorem freeze_of_hostState {n : Nat} (hhost : hostState s = some n) : s.freeze.since = none := by
  unfold hostState at hhost
  split at hhost
  · exact absurd hhost (by simp)
  next hfreeze => simpa using hfreeze

/-- The hub names state 5 in a shutdown alone (R418). -/
theorem inShutdown_of_hostState (hhost : hostState s = some 5) : inShutdown s = true := by
  unfold hostState at hhost
  grind

/-- The exit from STANDBY or PARK begins (R91). -/
theorem cmdWake_leaves (hasks : asks 0x10 [0, 1, 2] [3, 4] h p s) (hempty : p = []) (hshut : inShutdown s = false) {park : Bool}
    (hm : s.mode = if park then .park else .standby) :
    leaves s (.cmdWake h p) fun t => t.mode = .exiting park ∧ answers h 0 [] s t ∧ t.status = s.status := by
  obtain ⟨-, -, -, -, -, -, -, -, -, -, ⟨n, -, hhost⟩, -⟩ := id hasks
  have hleave : leaveLow s = startLeave park s := leaveLow_of_low hshut (freeze_of_hostState hhost) hm
  refine leaves_of_reply (t := startLeave park s) ?_ ⟨rfl, rfl, ⟨rfl, rfl⟩, rfl⟩ fun hans => ⟨?_, hans, ?_⟩
  · rw [exec_cmdWake, execCmdWake, request_of_asks_ok hasks (by decide) (by simp [sized, hempty]) ?_]
    rw [← hleave]
    rfl
  · rw [reply_frame]
    rfl
  · rw [reply_frame]
    rfl

/-- A shutdown that may end ends (R355). -/
theorem cmdResume_leaves (hasks : asks 0x11 [0, 1, 2] [5] h p s) (hempty : p = []) (hlive : live s = true)
    (hready : flag F.thmStateResumeReady s = true) : leaves s (.cmdResume h p) fun t =>
      inShutdown t = false ∧ getF F.nvsStateHeld t = 0 ∧ answers h 0 [] s t ∧ (s.mode = .running → t.mode = .exiting true) ∧
      ∃ l, t.ev.queue = s.ev.queue ++ ⟨0x3304, 0, 0, 0, s.time⟩ :: l := by
  obtain ⟨-, -, -, -, -, -, -, -, -, -, ⟨n, hn, hhost⟩, -⟩ := id hasks
  rw [List.mem_singleton.mp hn] at hhost
  have hkept := (kept_returned h.eth (leftShutdown s)).trans (kept_released h.eth s)
  simp only [kept, Prod.mk.injEq] at hkept
  obtain ⟨hunits, hmem, hnet, hev, hshut, hheld, haddr⟩ := hkept
  refine leaves_of_reply (t := returned (leftShutdown s)) ?_ ⟨hunits, hmem, by rw [hnet]; exact ⟨rfl, rfl⟩, haddr⟩ fun hans =>
    ⟨?_, ?_, hans, fun hrun => ?_, [], ?_⟩
  · rw [exec_cmdResume, execCmdResume, request_of_asks_ok hasks (by decide) (by simp [sized, hempty]) ?_]
    rw [plain, resumeDevice_of_ready (inShutdown_of_hostState hhost) hready hlive]
    rfl
  · rw [inShutdown, flag, getF_congr (reply_word ..)]
    exact hshut
  · rw [getF_congr (reply_word ..)]
    exact hheld
  · rw [reply_frame]
    have hmode := (mode_released s).trans hrun
    change (returned (leftShutdown s)).mode = _
    rw [returned, hmode]
    rfl
  · rw [reply_frame]
    exact congrArg EventPart.queue hev

/-- A shutdown that may not end yet goes on, and RESUME is refused (R355). -/
theorem cmdResume_refused (hasks : asks 0x11 [0, 1, 2] [5] h p s) (hempty : p = []) (hready : flag F.thmStateResumeReady s = false) :
    leaves s (.cmdResume h p) fun t =>
      inShutdown t = true ∧ getF F.thmFaultResumeRefused t = 1 ∧ answers h 2 [] s t ∧ t.mode = s.mode := by
  obtain ⟨-, -, -, -, -, -, -, -, -, -, ⟨n, hn, hhost⟩, -⟩ := id hasks
  rw [List.mem_singleton.mp hn] at hhost
  have hshut := inShutdown_of_hostState hhost
  let t := bump F.lnkCmdRefused (raise 0x3305 0 0 0 (setF F.thmFaultResumeRefused 1 s))
  have hserves : serves h s t :=
    serves_of_sansReport rfl ((setF_word_ne _ _ (ethAddr_ne (by decide) _)).trans (setF_word_ne s _ (ethAddr_ne (by decide) _)))
  refine leaves_of_reply (t := t) ?_ hserves fun hans => ⟨?_, ?_, hans, by rw [reply_frame]; rfl⟩
  · rw [exec_cmdResume, execCmdResume, request_of_asks (st := 2) (data := []) hasks (by decide) (by simp [sized, hempty]) ?_]
    · rfl
    · rw [plain, resumeDevice_of_unready hshut hready]
      rfl
  · rw [inShutdown, flag, getF_congr (reply_word ..)]
    have hsame : getF F.thmStateShutdown t = getF F.thmStateShutdown s :=
      getF_congr ((setF_word_ne _ _ (by decide)).trans (setF_word_ne s _ (by decide)))
    rw [hsame]
    exact hshut
  · rw [getF_congr (reply_word ..)]
    exact (getF_congr (setF_word_ne _ _ (by decide))).trans (getF_set_one (by decide) (by decide) s)

/-- An unlocked record is read (R381). -/
theorem cmdNvs_reads (hasks : asks 0x40 [0, 2] [2, 3, 4, 5] h p s) (haddr : nvsAddrOk (fieldAt p 0 4) = true)
    (hop : nvsOpOf (fieldAt p 0 4) = 0) (hlen : p.length = 4)
    (hopen : (unlockBits (nvsPartOf (fieldAt p 0 4)) s).2.testBit (nvsPartOf (fieldAt p 0 4)) = true)
    (hplain : ¬ (nvsPartOf (fieldAt p 0 4) = 0 ∧ 0x510 ≤ nvsKeyOf (fieldAt p 0 4) ∧ nvsKeyOf (fieldAt p 0 4) ≤ 0x517)) {c : Copy}
    (hfound : resolve (nvsPartOf (fieldAt p 0 4)) (nvsKeyOf (fieldAt p 0 4)) s.nvs = .found c)
    (hfit : 16 + (copyBytes c).length ≤ 1448) (hsmall : (copyBytes c).length < 2 ^ 16) : leaves s (.cmdNvs h p) fun t =>
      answers h 0 (toBytes (nvsHeader 0 (copyBytes c).length c.seq) ++ copyBytes c) s t ∧ t.nvs = s.nvs := by
  refine leaves_of_reply (t := s) ?_ serves_of_eq fun hans => ⟨hans, by rw [reply_frame]⟩
  obtain ⟨fill, hfill⟩ := toBytes_toWords (copyBytes c)
  have hbytes : toBytes (nvsHeader 0 (copyBytes c).length c.seq ++ toWords (copyBytes c)) =
      (toBytes (nvsHeader 0 (copyBytes c).length c.seq) ++ copyBytes c) ++ fill := by
    rw [toBytes_append, hfill, List.append_assoc]
  have hlength : (toBytes (nvsHeader 0 (copyBytes c).length c.seq) ++ copyBytes c).length = 16 + (copyBytes c).length := by
    rw [List.length_append, length_nvsHeader]
  have hcut : (toBytes (fitWords 362 (nvsHeader 0 (copyBytes c).length c.seq ++ toWords (copyBytes c)))).take
      (16 + (copyBytes c).length) = toBytes (nvsHeader 0 (copyBytes c).length c.seq) ++ copyBytes c := by
    rw [← hlength]
    exact toBytes_fitWords hbytes (by rw [hlength]; omega)
  rw [exec_cmdNvs, execCmdNvs, request_of_asks_ok hasks (by decide) (by simp [hlen]) ?_]
  simp only [hlen, hop, haddr, nvsRead_of_found hopen hplain hfound hfit, decide_true, Bool.and_self, if_true, Bool.not_true,
    Bool.false_eq_true, if_false, Nat.reduceDiv, length_of_header hsmall, hcut, stOk]

/-- An owner's write is queued (R380, R383). -/
theorem cmdNvs_queues (hasks : asks 0x40 [0, 2] [2, 3, 4, 5] h p s) (haddr : nvsAddrOk (fieldAt p 0 4) = true)
    (hop : nvsOpOf (fieldAt p 0 4) = 0) (hlo : 8 ≤ p.length) (hwhole : p.length % 4 = 0)
    (hopen : (unlockBits (nvsPartOf (fieldAt p 0 4)) s).2.testBit (4 + nvsPartOf (fieldAt p 0 4)) = true)
    (howner : deviceKey (nvsPartOf (fieldAt p 0 4)) (nvsKeyOf (fieldAt p 0 4)) = false) (hroom : s.nvs.queue.length < 16) :
    leaves s (.cmdNvs h p) fun t => t.nvs.queue ++ t.nvs.later = s.nvs.queue ++ s.nvs.later ++
      [⟨nvsPartOf (fieldAt p 0 4), nvsKeyOf (fieldAt p 0 4), p.drop 4, 0, none, false⟩] ∧ answers h 0 [] s t := by
  obtain ⟨-, -, -, -, -, -, hshort, -⟩ := id hasks
  have hlen : nvsLenOk (p.drop 4) = true := by
    rw [nvsLenOk, List.length_drop, Bool.and_eq_true, decide_eq_true_eq, decide_eq_true_eq]
    omega
  let w : NvsWrite := ⟨nvsPartOf (fieldAt p 0 4), nvsKeyOf (fieldAt p 0 4), p.drop 4, 0, none, false⟩
  have hsans : sansStatus (nvsQueue w s) = sansStatus (modNvs (pushWrites [w]) s) := sansStatus_showNvs _
  have hword : (nvsQueue w s).word (F.lnkEth0Addr + 4 * h.eth.val) = s.word (F.lnkEth0Addr + 4 * h.eth.val) :=
    word_showNvs (by generalize h.eth = e; revert e; decide) _
  have hserves : serves h s (nvsQueue w s) := by
    rw [serves, ethAddr, hword, eq_of_sansStatus hsans]
    exact ⟨rfl, rfl, ⟨rfl, rfl⟩, rfl⟩
  refine leaves_of_reply ?_ hserves fun hans => ⟨?_, hans⟩
  · rw [exec_cmdNvs, execCmdNvs, request_of_asks_ok hasks (by decide) (by simp [hwhole]; omega) ?_]
    have hlong : (decide (p.length = 4) && decide (nvsOpOf (fieldAt p 0 4) = 0)) = false := by
      rw [decide_eq_false (by omega), Bool.false_and]
    simp only [hlong, nvsRequest_of_open haddr hop hopen howner hlen hroom, Bool.false_eq_true, if_false, if_true, stOk, w]
  · rw [reply_frame]
    exact waiting_nvsQueue w s

/-- The reply to SET_NET leaves from the old address, and then the settings stand (R403, R406). -/
theorem cmdSetNet_sets (hasks : asks 0x60 [2] [0, 1, 2, 3, 4, 5] h p s) (hlen : p.length = 28) (h0 : fieldAt p 12 4 ≤ 3)
    (h1 : fieldAt p 24 4 ≤ 3) (hn : fieldAt p 0 4 ≤ 0x3FFFE) : leaves s (.cmdSetNet h p) fun t => answers h 0 [] s t ∧
      getF F.lnkNetNumValid t = 1 ∧ getF F.lnkNetDevnum t = fieldAt p 0 4 ∧ getF F.lnkPortEth0Mode t = fieldAt p 12 4 ∧
      getF F.lnkPortEth1Mode t = fieldAt p 24 4 ∧ ∀ e : Fin 2,
        let ip := BitVec.ofNat 32 (fieldAt p (4 + 12 * e.val) 4)
        (ip = 0 → ethAddr e t = ethAddr e s ∧ t.net.masks[e] = s.net.masks[e]) ∧
        (ip ≠ 0 → ethAddr e t = ip ∧ t.net.masks[e] = BitVec.ofNat 32 (fieldAt p (8 + 12 * e.val) 4) ∧
          flagAt F.lnkPortLinkLocal e t = false) := by
  obtain ⟨hunits, hmem, hans⟩ := reply_ends (serves_of_eq (h := h) (s := s)) 0 []
  obtain ⟨hunits1, hmem1, hsent, hreplies⟩ := setNet_frame p (reply h 0 [] s)
  obtain ⟨hvalid, hnum, hmode0, hmode1, hports⟩ := setNet_shows hn h0 h1 (reply h 0 [] s)
  have haddr (e : Fin 2) : ethAddr e (reply h 0 [] s) = ethAddr e s := reply_word ..
  have hmask (e : Fin 2) : (reply h 0 [] s).net.masks[e] = s.net.masks[e] := by rw [reply_frame]
  refine ⟨setNet p (reply h 0 [] s), ?_, hunits1.trans hunits, hmem1.trans hmem, ?_, hvalid, hnum, hmode0, hmode1, ?_⟩
  · rw [exec_cmdSetNet, execCmdSetNet, requestThen_of_asks (st := 0) (data := []) (t := s) hasks (by decide)
      (by simp [sized, hlen, h0, h1]) (by rw [plain, decide_eq_true hn]; rfl)]
    rfl
  · rwa [answers, hsent, hreplies]
  · intro e ip
    obtain ⟨hzero, hset⟩ := hports e
    exact ⟨fun hip => ⟨(hzero hip).1.trans (haddr e), (hzero hip).2.trans (hmask e)⟩, hset⟩

theorem cmdSetNet_refused (hasks : asks 0x60 [2] [0, 1, 2, 3, 4, 5] h p s) (hlen : p.length = 28) (h0 : fieldAt p 12 4 ≤ 3)
    (h1 : fieldAt p 24 4 ≤ 3) (hn : 0x3FFFE < fieldAt p 0 4) : leaves s (.cmdSetNet h p) fun t => answers h 2 [] s t ∧
      getF F.lnkCmdRefused t = min 65535 (getF F.lnkCmdRefused s + 1) := by
  have hserves : serves h s (bump F.lnkCmdRefused s) :=
    serves_of_sansReport (sansReport_bump ..) (setF_word_ne s _ (ethAddr_ne (by decide) _))
  refine leaves_of_reply ?_ hserves fun hans => ⟨hans, (getF_congr (reply_word ..)).trans (getF_bump_same (by decide) s)⟩
  rw [exec_cmdSetNet, execCmdSetNet, requestThen_of_asks (st := 2) (data := []) (t := s) hasks (by decide)
    (by simp [sized, hlen, h0, h1]) (by rw [plain, decide_eq_false (Nat.not_le.mpr hn)]; rfl)]
  rfl

theorem datagramDiscard_counts (hhears : hears h p s = true) (hbad : dgramOk h = false) : leaves s (.datagramDiscard h p) fun t =>
    getF F.lnkCmdRefused t = min 65535 (getF F.lnkCmdRefused s + 1) ∧ t = { s with status := t.status } := by
  refine ⟨bump F.lnkCmdRefused s, ?_, bump_units .., bump_mem .., getF_bump_same (by decide) s, rfl⟩
  rw [exec_datagramDiscard, execDatagramDiscard, hhears, hbad]
  rfl

/-- Each request of Table 19.2 that is answered is carried out as one of its opcode. -/
theorem exec_answeredRequest {img : Image} {x : Nat × Instr} (hx : x ∈ [(1, Instr.cmdRead h p), (2, .cmdEvtClr h p),
    (3, .cmdEvents h p), (0x10, .cmdWake h p), (0x11, .cmdResume h p), (0x20, .cmdImage h p img), (0x21, .cmdLoad h p img),
    (0x30, .cmdAttest h p), (0x31, .cmdAuth h p), (0x40, .cmdNvs h p), (0x60, .cmdSetNet h p)]) :
    ∃ layout act after, exec x.2 s = .next (requestThen x.1 layout act after h p s) := by
  simp only [List.mem_cons, List.not_mem_nil, or_false] at hx
  rcases hx with rfl | rfl | rfl | rfl | rfl | rfl | rfl | rfl | rfl | rfl | rfl
  all_goals exact ⟨_, _, _, rfl⟩

/-- A request that its source repeats is answered with the reply kept, and counted. -/
theorem request_answered_again {r : KeptReply} {i : Instr} {op : Nat} (hhears : hears h p s = true) (hok : dgramOk h = true)
    (haddr : addressed h s = true) (hans : answered h = true) (hkept : keptReply h s = some r) (hop : h.opcode.toNat = op)
    (hexec : ∃ layout act after, exec i s = .next (requestThen op layout act after h p s)) : leaves s i fun t =>
      t.net = { s.net with sent := replyTo h r.hdr r.data s :: s.net.sent } ∧
      getF F.lnkCmdDuplicate t = min 65535 (getF F.lnkCmdDuplicate s + 1) ∧ t = { s with net := t.net, status := t.status } := by
  obtain ⟨layout, act, after, hexec⟩ := hexec
  rw [requestThen_of_kept hhears hok haddr hans hkept hop] at hexec
  exact ⟨_, hexec, rfl, rfl, rfl, getF_bump_same (f := F.lnkCmdDuplicate) (by decide) s, rfl⟩

end

/-! ### O52 -/

/-- Settles O52, with a lemma for what each request leaves. -/
theorem requests : Obligations.Requests := by
  unfold Obligations.Requests
  intro h p img s ends all quiet
  refine ⟨datagramDiscard_counts, fun r hhears hok haddr hans hkept x hx hop =>
      request_answered_again hhears hok haddr hans hkept hop (exec_answeredRequest hx), fun hasks hlen => ?_,
    fun hasks hlen => cmdEvtClr_leaves hasks hlen,
    fun hasks hlen hlo hhi hquiet => cmdEvents_leaves hasks hlen hlo hhi hquiet.1 hquiet.2,
    fun hasks hempty hshut => ⟨fun hm => cmdWake_leaves hasks hempty hshut (park := false) hm, fun hm => ?_⟩,
    fun hasks hempty hlive => ⟨fun hready => cmdResume_leaves hasks hempty hlive hready, fun hready =>
      cmdResume_refused hasks hempty hready⟩,
    fun hasks => ?_, fun hasks hlen h0 h1 => ?_⟩
  · exact fun hlo hhi hquiet hplain => cmdRead_leaves hasks hlen hlo hhi hquiet.1 hquiet.2 hplain
  · obtain ⟨t, hexec, hunits, hmem, hmode, hans, -⟩ := cmdWake_leaves hasks hempty hshut (park := true) hm
    exact ⟨t, hexec, hunits, hmem, hmode, hans⟩
  · intro a q k haddr hop
    exact ⟨fun hlen hopen hplain c hfound hfit hsmall => cmdNvs_reads hasks haddr hop hlen hopen hplain hfound hfit hsmall,
      fun hlo hwhole hopen howner hroom => cmdNvs_queues hasks haddr hop hlo hwhole hopen howner hroom⟩
  · exact ⟨fun hn => cmdSetNet_sets hasks hlen h0 h1 hn, fun hn => cmdSetNet_refused hasks hlen h0 h1 hn⟩

end Sys2Proof.Machine
end

section
/-!
SUPPORT. Placing code, the slots' and the counter's reports, and the words and parts of the hub through a full reset (R83, R87,
R265, R388, R395).
-/

namespace Sys2Proof.Machine

/-! ### The slots of the owner's keys (R388) -/

/-- The state without what it shows and reports, and without the subjects that have been reported once. -/
def sansTold (s : State) : State := { sansReport s with sec := { s.sec with toldCompl := [], toldLow := [] } }

theorem eq_of_sansTold {s t : State} (h : sansTold t = sansTold s) :
    t = { s with status := t.status, ev := t.ev, sec := { s.sec with toldCompl := t.sec.toldCompl, toldLow := t.sec.toldLow } } := by
  have hback (t : State) : t = { sansTold t with
      status := t.status, ev := t.ev
      sec := { (sansTold t).sec with toldCompl := t.sec.toldCompl, toldLow := t.sec.toldLow } } := rfl
  rw [hback t, h]
  rfl

theorem sansTold_of_sansReport {s t : State} (h : sansReport t = sansReport s) : sansTold t = sansTold s :=
  show sansTold (sansReport t) = sansTold (sansReport s) from congrArg sansTold h

/-- The words in which a failed complement shows. -/
def complementWords : List Nat := [F.secFault, F.intComplement, F.intComplementSeen, F.intEvtSuppressed]

theorem sansTold_checkSlot (s : State) (i : Nat) : sansTold (checkSlot s i) = sansTold s := by
  have hnoted : sansReport (setF F.secFaultComplement 1 (complementFail 6 s)) = sansReport s := by simp [complementFail]
  have htold (t : State) : sansTold { t with sec := { t.sec with toldCompl := i :: t.sec.toldCompl } } = sansTold t := rfl
  unfold checkSlot
  split
  · rfl
  · dsimp only
    split
    · exact sansTold_of_sansReport ((sansReport_bump ..).trans hnoted)
    · exact (sansTold_of_sansReport (sansReport_raise ..)).trans ((htold _).trans (sansTold_of_sansReport hnoted))

theorem sansTold_checkSlots (s : State) : sansTold (checkSlots s) = sansTold s := foldl_keeps sansTold sansTold_checkSlot _ s

theorem checkSlots_word {a : Nat} (ha : a ∉ complementWords) (s : State) : (checkSlots s).word a = s.word a := by
  simp only [complementWords, List.mem_cons, List.not_mem_nil, or_false, not_or] at ha
  obtain ⟨hfault, hcompl, hseen, hsuppressed⟩ := ha
  refine foldl_keeps (fun s : State => s.word a) (fun s i => ?_) _ s
  have hnoted : (setF F.secFaultComplement 1 (complementFail 6 s)).word a = s.word a :=
    (setF_word_ne _ _ hfault).trans (complementFail_word hcompl hseen 6 s)
  unfold checkSlot
  split
  · rfl
  · dsimp only
    split
    · exact (bump_word_ne (f := F.intEvtSuppressedSuppressed) hsuppressed _).trans hnoted
    · exact hnoted

theorem sansTold_checkCounter (signer : Option Nat) (s : State) : sansTold (checkCounter signer s) = sansTold s := by
  unfold checkCounter
  extract_lets who
  split
  · rfl
  · split <;> rfl

theorem checkCounter_word {a : Nat} (ha : a ≠ F.intEvtSuppressed) (signer : Option Nat) (s : State) :
    (checkCounter signer s).word a = s.word a := by
  unfold checkCounter
  extract_lets who
  split
  · rfl
  · split
    · exact bump_word_ne (f := F.intEvtSuppressedSuppressed) ha s
    · rfl

/-! ### Placing code (R265) -/

/-- The state without what it shows and reports, and without the units and the memory. -/
def sansPlaced (s : State) : State :=
  { sansReport s with units := Vector.replicate 30 ExUnit.reset, mem := [], memBad := [], backing := [] }

theorem eq_of_sansPlaced {s t : State} (h : sansPlaced t = sansPlaced s) : t = { s with
    status := t.status, ev := t.ev, units := t.units, mem := t.mem, memBad := t.memBad, backing := t.backing } := by
  have hback (t : State) : t = { sansPlaced t with
      status := t.status, ev := t.ev, units := t.units, mem := t.mem, memBad := t.memBad, backing := t.backing } := rfl
  rw [hback t, h]
  rfl

theorem sansPlaced_of_sansReport {s t : State} (h : sansReport t = sansReport s) : sansPlaced t = sansPlaced s :=
  show sansPlaced (sansReport t) = sansPlaced (sansReport s) from congrArg sansPlaced h

section
variable (u : UnitId) (e : ExUnit) (consts : List (Nat × List Word)) (s : State)

theorem sansPlaced_placeUnit : sansPlaced (placeUnit u e consts s) = sansPlaced s := by
  unfold placeUnit
  extract_lets t
  have hstore (s : State) (x : Nat × List Word) : sansPlaced (storeWords (storeBase u + x.1) x.2 s) = sansPlaced s := rfl
  have ht : sansPlaced t = sansPlaced s := foldl_keeps sansPlaced hstore consts _
  exact (sansPlaced_of_sansReport rfl).trans ht

theorem storeWords_word (b a : Nat) (ws : List Word) : (storeWords b ws s).word a = s.word a := rfl

theorem placeUnit_units : (placeUnit u e consts s).units = vmod s.units u fun _ => e := by
  unfold placeUnit
  extract_lets t
  exact foldl_keeps (fun s : State => s.units) (fun s x => storeWords_units ..) consts _

theorem placeUnit_word {a : Nat} (ha : page a ≠ 0x50) : (placeUnit u e consts s).word a = s.word a := by
  have hu : u.val < 30 := u.isLt
  have hne (b : Nat) (hb : page b = 0x50) : a ≠ b := fun h => ha (h ▸ hb)
  unfold placeUnit
  extract_lets t
  have ht : t.word a = s.word a := foldl_keeps (fun s : State => s.word a) (fun s x => storeWords_word ..) consts _
  have hstate : page (F.isaUState u) = 0x50 := by
    unfold page F.isaUState
    omega
  have hpc : page (F.isaUExcPc u) = 0x50 := by
    unfold page F.isaUExcPc
    omega
  exact (setF_word_ne _ _ (hne _ hstate)).trans ((setF_word_ne _ _ (hne _ hstate)).trans ((setF_word_ne _ _ (hne _ hpc)).trans ht))

end

section
variable (c : ClusterCode) (p : Fin 26) (s : State)

theorem sansPlaced_placeCluster : sansPlaced (placeCluster c p s) = sansPlaced s := sansPlaced_placeUnit ..

theorem placeCluster_units :
    (placeCluster c p s).units = vmod s.units (clusterUnit p) fun _ => startUnit c.code c.handler c.windows := placeUnit_units ..

theorem placeCluster_word {a : Nat} (ha : page a ≠ 0x50) : (placeCluster c p s).word a = s.word a := placeUnit_word _ _ _ _ ha

end

/-- The clusters of a placement, each with the code that `cs` names for it. -/
def placeClusters (cs : List (Nat × ClusterCode)) (pl : List (Nat × Fin 26)) (s : State) : State :=
  pl.foldl (fun s x =>
    match cs.find? fun k => k.1 = x.1 with
    | some k => placeCluster k.2 x.2 s
    | none => s) s

section
variable (cs : List (Nat × ClusterCode)) (pl : List (Nat × Fin 26)) (s : State)

theorem sansPlaced_placeClusters : sansPlaced (placeClusters cs pl s) = sansPlaced s := by
  refine foldl_keeps sansPlaced (fun s x => ?_) pl s
  split
  · exact sansPlaced_placeCluster ..
  · rfl

theorem placeClusters_word {a : Nat} (ha : page a ≠ 0x50) : (placeClusters cs pl s).word a = s.word a := by
  refine foldl_keeps (fun s : State => s.word a) (fun s x => ?_) pl s
  split
  · exact placeCluster_word _ _ _ ha
  · rfl

end

/-- The hub's units and then every cluster at reset, before the clusters of a placement. -/
def placeHub (img : Image) (s : State) : State :=
  (List.finRange 26).foldl (fun s (p : Fin 26) => placeUnit (clusterUnit p) ExUnit.reset [] s)
    ((List.finRange 4).foldl (fun s (c : Fin 4) =>
      placeUnit ⟨26 + c.val, by omega⟩ (startUnit (nth [] img.hub c) (nth none img.hubHandler c) []) (nth [] img.hubConsts c) s) s)

/-- The image shown as the one that runs. -/
def showImage (img : Image) (pl : List (Nat × Fin 26)) (s : State) : State :=
  let s := setF F.isaLoadVersion img.version.toNat (setF F.isaBudgetDeclared (img.budget.getD 0) s)
  { s with boot := { s.boot with running := some img, place := pl } }

theorem placeImage_eq (img : Image) (pl : List (Nat × Fin 26)) (s : State) :
    placeImage img pl s = showImage img pl (placeClusters (clustersOf img) pl (placeHub img s)) := rfl

section
variable (img : Image) (pl : List (Nat × Fin 26)) (s : State)

theorem sansPlaced_placeHub : sansPlaced (placeHub img s) = sansPlaced s :=
  (foldl_keeps sansPlaced (fun s _ => sansPlaced_placeUnit _ _ _ s) _ _).trans
    (foldl_keeps sansPlaced (fun s _ => sansPlaced_placeUnit _ _ _ s) _ s)

theorem placeHub_word {a : Nat} (ha : page a ≠ 0x50) : (placeHub img s).word a = s.word a :=
  (foldl_keeps (fun s : State => s.word a) (fun s _ => placeUnit_word _ _ _ s ha) _ _).trans
    (foldl_keeps (fun s : State => s.word a) (fun s _ => placeUnit_word _ _ _ s ha) _ s)

theorem placeImage_keeps : sansPlaced (placeImage img pl s) =
    sansPlaced { s with boot := { s.boot with running := some img, place := pl } } := by
  have hframe := eq_of_sansPlaced ((sansPlaced_placeClusters (clustersOf img) pl (placeHub img s)).trans (sansPlaced_placeHub img s))
  rw [placeImage_eq, hframe]
  rfl

theorem placeImage_word {a : Nat} (ha : page a ≠ 0x50) : (placeImage img pl s).word a = s.word a := by
  have hne (b : Nat) (hb : page b = 0x50) : a ≠ b := fun h => ha (h ▸ hb)
  rw [placeImage_eq]
  refine (setF_word_ne _ _ (hne _ (by decide))).trans ((setF_word_ne _ _ (hne _ (by decide))).trans ?_)
  rw [placeClusters_word _ _ _ ha, placeHub_word _ _ ha]

end

/-- An image placed with its digest and signer shown, before the boot goes on. -/
def imageTaken (img : Image) (pl : List (Nat × Fin 26)) (s : State) : State :=
  setF F.secStateImageSigner img.signer.toNat (placeImage img pl { s with sec := { s.sec with imageHash := sha384 img.raw } })

theorem takeImage_eq (img : Image) (pl : List (Nat × Fin 26)) (s : State) : takeImage img pl s =
    setF F.rstBootStage (if flag F.rstBootIndexReady (imageTaken img pl s) then 4 else 3) (imageTaken img pl s) := rfl

/-- An image that is taken is placed, and its digest kept (R391). -/
theorem takeImage_keeps (img : Image) (pl : List (Nat × Fin 26)) (s : State) : sansPlaced (takeImage img pl s) = sansPlaced { s with
    boot := { s.boot with running := some img, place := pl }, sec := { s.sec with imageHash := sha384 img.raw } } := by
  rw [takeImage_eq]
  refine (sansPlaced_of_sansReport (sansReport_setF ..)).trans ((sansPlaced_of_sansReport (sansReport_setF ..)).trans ?_)
  exact placeImage_keeps img pl { s with sec := { s.sec with imageHash := sha384 img.raw } }

theorem imageTaken_word {a : Nat} (ha : page a ≠ 0x50) (hstate : a ≠ F.secState) (img : Image) (pl : List (Nat × Fin 26)) (s : State) :
    (imageTaken img pl s).word a = s.word a := (setF_word_ne _ _ hstate).trans (placeImage_word img pl _ ha)

/-! ### Placing clusters again (R265, R399) -/

theorem loaderRefuse_keeps (who : Option UnitId) (code : Nat) (s : State) : sansReport (loaderRefuse who code s) = sansReport s := rfl

theorem loaderRefuse_word {a : Nat} (ha : page a ≠ 0x50) (who : Option UnitId) (code : Nat) (s : State) :
    (loaderRefuse who code s).word a = s.word a := by
  have hne (b : Nat) (hb : page b = 0x50) : a ≠ b := fun h => ha (h ▸ hb)
  exact (setF_word_ne _ _ (hne _ (by decide))).trans (setF_word_ne _ _ (hne _ (by decide)))

section
variable (who : Option UnitId) (img : Image) (ks : List Nat) (s : State)

/-- The logical clusters of an image that `ks` names. -/
def namedClusters : List (Nat × ClusterCode) := (clustersOf img).filter fun k => ks.contains k.1

/-- What the loader answers for those clusters beside the others' placements. -/
def checkAgain : Nat × List (Nat × Fin 26) :=
  loaderCheck false img (namedClusters img ks) (s.boot.place.filter fun x => !ks.contains x.1) s

theorem replace_of_passed {pl : List (Nat × Fin 26)} (h : checkAgain img ks s = (0, pl)) : replace who img ks s =
    let t := placeClusters (namedClusters img ks) (pl.filter fun x => ks.contains x.1) s
    ({ t with boot := { t.boot with place := pl } }, 0) := by
  unfold checkAgain namedClusters at h
  unfold replace
  dsimp only
  rw [h]
  rfl

theorem replace_of_failed {code : Nat} {pl : List (Nat × Fin 26)} (h : checkAgain img ks s = (code, pl)) (hcode : code ≠ 0) :
    replace who img ks s = (loaderRefuse who code s, code) := by
  unfold checkAgain namedClusters at h
  unfold replace
  dsimp only
  rw [h]
  split
  next heq => exact absurd (Prod.mk.inj heq).1 hcode
  next heq => rw [(Prod.mk.inj heq).1]

end

section
variable (img : Image) (s : State)

theorem measureLoad_frame (k : Nat) : measureLoad img k s = { s with
    sec := { s.sec with program := (measureLoad img k s).sec.program }, status := (measureLoad img k s).status } := by
  unfold measureLoad
  split <;> rfl

theorem measureLoad_word {a : Nat} (ha : a ≠ F.secLoads) (k : Nat) : (measureLoad img k s).word a = s.word a := by
  unfold measureLoad
  split
  · rfl
  · exact bump_word_ne (f := F.secLoadsLoads) ha _

theorem measureLoads_frame (ks : List Nat) : ks.foldl (fun s k => measureLoad img k s) s = { s with
    sec := { s.sec with program := (ks.foldl (fun s k => measureLoad img k s) s).sec.program }
    status := (ks.foldl (fun s k => measureLoad img k s) s).status } := by
  induction ks generalizing s with
  | nil => rfl
  | cons k ks ih =>
    rw [List.foldl_cons, ih (measureLoad img k s), measureLoad_frame]

end

/-- What placing clusters again leaves as it was: all but the units, the memory, the placements and the program measurement. -/
theorem placeAgain_keeps (who : Option UnitId) (img : Image) (ks : List Nat) (s : State) : sansPlaced (placeAgain who img ks s).1 =
    sansPlaced { s with boot := { s.boot with place := (placeAgain who img ks s).1.boot.place }
                        sec := { s.sec with program := (placeAgain who img ks s).1.sec.program } } := by
  rcases hcheck : checkAgain img ks s with ⟨code, pl⟩
  by_cases hcode : code = 0
  · rw [hcode] at hcheck
    have ht := eq_of_sansPlaced (sansPlaced_placeClusters (namedClusters img ks) (pl.filter fun x => ks.contains x.1) s)
    rw [placeAgain, replace_of_passed who img ks s hcheck]
    dsimp only
    rw [measureLoads_frame, ht]
    rfl
  · obtain ⟨n, rfl⟩ := Nat.exists_eq_succ_of_ne_zero hcode
    rw [placeAgain, replace_of_failed who img ks s hcheck hcode]
    rfl

theorem placeAgain_word {a : Nat} (ha : page a ≠ 0x50) (hloads : a ≠ F.secLoads) (who : Option UnitId) (img : Image) (ks : List Nat)
    (s : State) : (placeAgain who img ks s).1.word a = s.word a := by
  rcases hcheck : checkAgain img ks s with ⟨code, pl⟩
  by_cases hcode : code = 0
  · rw [hcode] at hcheck
    rw [placeAgain, replace_of_passed who img ks s hcheck]
    exact (foldl_keeps (fun s : State => s.word a) (fun s k => measureLoad_word img s hloads k) ks _).trans
      (placeClusters_word _ _ _ ha)
  · obtain ⟨n, rfl⟩ := Nat.exists_eq_succ_of_ne_zero hcode
    rw [placeAgain, replace_of_failed who img ks s hcheck hcode]
    exact loaderRefuse_word ha _ _ s

end Sys2Proof.Machine
end

section
/-!
SUPPORT. What a full reset keeps of the hub's records: the security engine's, the image slots, the record store, and the words of
the life cycle and of the heartbeat (R76, R83, R87, R93, R418).
-/

namespace Sys2Proof.Machine

/-- The words of the life cycle and of the heartbeat, which a full reset keeps whole and does not show anew. -/
def spared : List Nat := [F.lcsState, F.lcsInfo, F.lnkHb]

theorem word_resetShown_spared {a : Nat} (ha : a ∈ spared) (c : Cause) (s n : State) : (resetShown c s n).word a = n.word a := by
  have hplace : (a < 0x500000 ∨ 0x900000 ≤ a) ∧ ∀ k : Fin 4, a ≠ F.thmDdrMargin k := by
    revert a
    decide
  obtain ⟨hout, hmargin⟩ := hplace
  have hne (b : Nat) (hb : b ∉ spared) : a ≠ b := fun e => hb (e ▸ ha)
  have hstate (u : UnitId) : a ≠ F.isaUState u := by
    unfold F.isaUState
    omega
  unfold resetShown
  extract_lets n1 n2 n3 n4 n5 n6 n7 n8 n9 b
  have h2 : n2.word a = n1.word a := by
    unfold n2
    rw [word_ite, foldl_keeps (fun n : State => n.word a) fun n k => word_setWord_ne n (hmargin k) _,
      word_setWord_ne _ (hne _ (by decide)), ite_self]
  have h8 : n8.word a = n7.word a := foldl_keeps (fun n : State => n.word a) (fun n u => setF_word_ne n _ (hstate u)) _ n7
  simp (disch := exact hne _ (by decide)) only [n9, h8, n7, n6, n5, n4, n3, h2, n1, resetPort, setF_word_ne, word_setWord_ne, word_ite,
    ite_self]

section
variable (c : Cause) (m : Mode) (s : State)

/-- The parts of the hub that a full reset keeps something of. -/
theorem fullReset_parts : ∃ n : State, fullReset c m s = resetShown c (stopped c s) n ∧ n.opt = s.opt ∧
    n.nvs = (stopped c s).nvs.kept ∧ n.sec = s.sec.kept ∧ n.boot.slotA = s.boot.slotA ∧ n.boot.slotB = s.boot.slotB ∧
    n.status = (loseWords (fun _ => true) (stopped c s)).status := by
  have hframe := stopped_frame c s
  have hopt : (stopped c s).opt = s.opt := by rw [hframe]
  have hsec : (stopped c s).sec = s.sec := by rw [hframe]
  unfold fullReset
  extract_lets s1 wait s2 cold ddr shut port n0 r0 r1 r2 r3 r4 r5 r6 r7 n
  have hs2 : stopped c s = s2 := rfl
  have hboot : s2.boot.slotA = s.boot.slotA ∧ s2.boot.slotB = s.boot.slotB := by
    have hs1 : s1.boot = s.boot := by
      unfold s1
      split <;> rfl
    have hnote : s2.boot = (noteCause c s1).boot := by
      unfold s2
      rw [nvsInterrupt_frame, eq_of_sansValves (sansValves_valvesOff _)]
    rw [hnote, ← hs1]
    exact ⟨rfl, rfl⟩
  rw [hs2] at hopt hsec ⊢
  clear_value s2
  exact ⟨n, rfl, hopt, rfl, congrArg SecPart.kept hsec, hboot.1, hboot.2, rfl⟩

theorem fullReset_kept : (fullReset c m s).sec = s.sec.kept ∧ (fullReset c m s).nvs = (stopped c s).nvs.kept ∧
    (fullReset c m s).boot.slotA = s.boot.slotA ∧ (fullReset c m s).boot.slotB = s.boot.slotB := by
  obtain ⟨n, hn, -, hnvs, hsec, hA, hB, -⟩ := fullReset_parts c m s
  rw [hn, eq_of_sansStatus (sansStatus_resetShown c (stopped c s) n)]
  exact ⟨hsec, hnvs, hA, hB⟩

theorem fullReset_word_spared {a : Nat} (ha : a ∈ spared) : (fullReset c m s).word a = (stopped c s).word a := by
  have hkept : keptWord a = true := by
    revert a
    decide
  obtain ⟨n, hn, hopt, -, -, -, -, hstatus⟩ := fullReset_parts c m s
  have hopt2 : (stopped c s).opt = s.opt := by rw [stopped_frame]
  rw [hn, word_resetShown_spared ha]
  exact (word_congr (hopt.trans (hopt2.symm.trans (loseWords_opt ..).symm)) hstatus a).trans (word_loseWords_kept hkept _ _)

/-- The words of the life cycle stand through a full reset. -/
theorem fullReset_lifecycle {a : Nat} (ha : a = F.lcsState ∨ a = F.lcsInfo) : (fullReset c m s).word a = s.word a := by
  have hspared : a ∈ spared ∧ a < 0x600000 ∧ a ≠ F.rstCause := by
    rcases ha with rfl | rfl <;> decide
  obtain ⟨hmem, hlow, hcause⟩ := hspared
  rw [fullReset_word_spared c m s hmem, stopped_word_of_ne hlow hcause]

end

end Sys2Proof.Machine
end

section
/-!
SUPPORT. The security engine (R80, R92, R93, R263, R265, R390–R399): images and code from the host, authorisation blocks, and
attestation.
-/

namespace Sys2Proof.Machine

/-! ### The end of a request that is answered later (R410) -/

section
variable (h : Hdr) (st : Nat) (data : List Byte) {s t : State}

/-- The answer of a request, and the count of those refused. -/
theorem conclude_frame (t : State) : conclude h st data t = { t with
    net := { t.net with sent := (conclude h st data t).net.sent, replies := (conclude h st data t).net.replies }
    free := (conclude h st data t).free, status := (conclude h st data t).status } := by
  unfold conclude
  rw [reply_frame]
  split <;> rfl

theorem conclude_word {a : Nat} (ha : a ≠ F.lnkCmd) (t : State) : (conclude h st data t).word a = t.word a := by
  unfold conclude
  rw [reply_word, word_ite, bump_word_ne ha, ite_self]

theorem conclude_answers (hnet : t.net = s.net) (haddr : ethAddr h.eth t = ethAddr h.eth s) :
    answers h st data s (conclude h st data t) := by
  have hkeeps : (if st = stMalformed ∨ st = stRefused then bump F.lnkCmdRefused t else t).net = s.net := by
    split <;> exact hnet
  refine reply_answers (by rw [hkeeps]; exact ⟨rfl, rfl⟩) ?_ st data
  have hword : ethAddr h.eth (if st = stMalformed ∨ st = stRefused then bump F.lnkCmdRefused t else t) = ethAddr h.eth t := by
    unfold ethAddr
    rw [word_ite, bump_word_ne (ethAddr_ne (by decide) _), ite_self]
  rw [hword, haddr]

end

/-- What a request leaves that changes nothing but what is shown, reported and answered. -/
def unmoved (s t : State) : Prop := t.units = s.units ∧ t.mem = s.mem ∧ t.mode = s.mode

theorem conclude_told {h : Hdr} {st : Nat} {data : List Byte} {s t : State} (ht : sansTold t = sansTold s) :
    unmoved s (conclude h st data t) ∧ (conclude h st data t).boot = s.boot ∧ (conclude h st data t).sec.verify = s.sec.verify ∧
    (conclude h st data t).sec.auths = s.sec.auths := by
  rw [unmoved, conclude_frame, eq_of_sansTold ht]
  exact ⟨⟨rfl, rfl, rfl⟩, rfl, rfl, rfl⟩

theorem net_of_told {s t : State} (ht : sansTold t = sansTold s) : t.net = s.net := by rw [eq_of_sansTold ht]

/-! ### Chunks of an image or of code from the host (R80, R265) -/

/-- The state as a chunk leaves what has come. -/
def keepChunks (op : Nat) (bs : List Byte) (s : State) : State := { s with boot := { s.boot with chunkOp := op, chunks := bs } }

/-- What has come before a chunk. -/
def gotBefore (op : Nat) (p : List Byte) (s : State) : List Byte :=
  if s.boot.chunkOp = op ∧ fieldAt p 0 4 ≠ 0 then s.boot.chunks else []

/-- The image whose last chunk has come: its bytes, and the signature they end with. -/
def signedBy (img : Image) (bs : List Byte) : Image := { img with raw := bs.take (bs.length - 96), sig := bs.drop (bs.length - 96) }

section
variable {op : Nat} {img : Image} {h : Hdr} {p : List Byte} {s : State}

/-- A chunk that does not continue what has come discards it. -/
theorem takeChunk_of_gap (hoff : fieldAt p 0 4 ≠ 0) (hgap : fieldAt p 0 4 ≠ (gotBefore op p s).length) :
    takeChunk op img h p s = (keepChunks op [] s, some (1, [])) := by
  have hgot : fieldAt p 0 4 ≠ (if s.boot.chunkOp = op then s.boot.chunks else []).length := by simpa [gotBefore, hoff] using hgap
  unfold takeChunk
  simp only [hoff, hgot, ne_eq, not_false_eq_true, decide_true, Bool.and_self, if_true]
  rfl

/-- A chunk that continues what has come is kept, and the last starts the check. -/
theorem takeChunk_of_next (hnext : fieldAt p 0 4 = (gotBefore op p s).length) : takeChunk op img h p s =
    let bs := gotBefore op p s ++ p.drop 8
    if fieldAt p 4 4 = 0 then (keepChunks op bs s, some (0, []))
    else (modSec (fun e => { e with verify := some (op = 0x21, h, signedBy img bs) }) (keepChunks op [] s), none) := by
  have hgo : (decide (fieldAt p 0 4 ≠ 0) && decide (fieldAt p 0 4 ≠ (if s.boot.chunkOp = op then s.boot.chunks else []).length)) = false := by
    by_cases hoff : fieldAt p 0 4 = 0
    · simp [hoff]
    · have hlen : fieldAt p 0 4 = (if s.boot.chunkOp = op then s.boot.chunks else []).length := by simpa [gotBefore, hoff] using hnext
      rw [← hlen]
      simp
  have hgot : (if fieldAt p 0 4 = 0 then [] else if s.boot.chunkOp = op then s.boot.chunks else []) = gotBefore op p s := by
    unfold gotBefore
    by_cases hoff : fieldAt p 0 4 = 0 <;> simp [hoff]
  unfold takeChunk
  simp only [hgo, hgot, Bool.false_eq_true, if_false]
  rfl

end

/-- The two requests that bring an image or code: what they are, and the states that accept them. -/
def chunkOp (isLoad : Bool) : Nat := if isLoad = true then 0x21 else 0x20

theorem exec_chunk (isLoad : Bool) (h : Hdr) (p : List Byte) (img : Image) (s : State) :
    exec (if isLoad = true then .cmdLoad h p img else .cmdImage h p img) s =
      .next (request (chunkOp isLoad) chunkOk (fun s => takeChunk (chunkOp isLoad) img h p s) h p s) := by
  cases isLoad <;> rfl

theorem find_chunkRow (isLoad : Bool) : opTable.find? (fun r => r.op = chunkOp isLoad) =
    some ⟨chunkOp isLoad, [0, 2], if isLoad = true then [2, 3] else [0]⟩ := by
  cases isLoad <;> decide

section
variable {isLoad : Bool} {h : Hdr} {p : List Byte} {s : State}
  (hasks : asks (chunkOp isLoad) [0, 2] (if isLoad = true then [2, 3] else [0]) h p s) (hlen : 8 ≤ p.length) (img : Image)
include hasks hlen

theorem chunkOk_of_asks (hlast : fieldAt p 4 4 ≤ 1) : chunkOk p = true := by
  obtain ⟨-, -, -, -, -, -, hshort, -⟩ := hasks
  simp [chunkOk, inR, hlen, hshort, hlast]

theorem chunk_discarded (hoff : fieldAt p 0 4 ≠ 0) (hgap : fieldAt p 0 4 ≠ (gotBefore (chunkOp isLoad) p s).length)
    (hlast : fieldAt p 4 4 ≤ 1) : ∃ t, exec (if isLoad = true then .cmdLoad h p img else .cmdImage h p img) s = .next t ∧
      unmoved s t ∧ t.boot.chunks = [] ∧ answers h 1 [] s t := by
  have hreq := requestThen_of_asks (after := id) hasks (find_chunkRow isLoad) (chunkOk_of_asks hasks hlen hlast)
    (takeChunk_of_gap (img := img) (h := h) hoff hgap)
  refine ⟨_, (exec_chunk ..).trans (congrArg Host.Outcome.next hreq), ?_⟩
  rw [if_neg (by decide)]
  refine ⟨?_, ?_, conclude_answers h 1 [] rfl rfl⟩
  · rw [conclude_frame]
    exact ⟨rfl, rfl, rfl⟩
  · rw [conclude_frame]
    rfl

theorem chunk_kept (hnext : fieldAt p 0 4 = (gotBefore (chunkOp isLoad) p s).length) (hmore : fieldAt p 4 4 = 0) :
    ∃ t, exec (if isLoad = true then .cmdLoad h p img else .cmdImage h p img) s = .next t ∧
      unmoved s t ∧ t.boot.chunks = gotBefore (chunkOp isLoad) p s ++ p.drop 8 ∧
      t.boot.chunkOp = chunkOp isLoad ∧ answers h 0 [] s t := by
  have hact := takeChunk_of_next (img := img) (h := h) hnext
  rw [if_pos hmore] at hact
  have hreq := request_of_asks_ok hasks (find_chunkRow isLoad) (chunkOk_of_asks hasks hlen (by omega)) hact
  refine ⟨_, (exec_chunk ..).trans (congrArg Host.Outcome.next hreq), ?_, ?_, ?_, reply_answers ⟨rfl, rfl⟩ rfl 0 []⟩
  · rw [reply_frame]
    exact ⟨rfl, rfl, rfl⟩
  · rw [reply_frame]
    rfl
  · rw [reply_frame]
    rfl

theorem chunk_last (hnext : fieldAt p 0 4 = (gotBefore (chunkOp isLoad) p s).length) (hend : fieldAt p 4 4 = 1) :
    ∃ t, exec (if isLoad = true then .cmdLoad h p img else .cmdImage h p img) s = .next t ∧
      unmoved s t ∧ t.boot.chunks = [] ∧ t.net = s.net ∧
      t.sec = { s.sec with verify := some (isLoad, h, signedBy img (gotBefore (chunkOp isLoad) p s ++ p.drop 8)) } := by
  have hact := takeChunk_of_next (img := img) (h := h) hnext
  rw [if_neg (by omega)] at hact
  have hload : decide (chunkOp isLoad = 0x21) = isLoad := by cases isLoad <;> rfl
  rw [hload] at hact
  have hreq := request_of_asks_later hasks (find_chunkRow isLoad) (chunkOk_of_asks hasks hlen (by omega)) hact
  exact ⟨_, (exec_chunk ..).trans (congrArg Host.Outcome.next hreq), ⟨rfl, rfl, rfl⟩, rfl, rfl, rfl⟩

end

/-! ### The check of an image or of code (R80, R263, R265, R391) -/

/-- The state as the check of what the host sent finds it, the slots used. -/
def verified (s : State) : State := checkSlots (modSec (fun e => { e with verify := none }) s)

theorem verified_keeps (s : State) : sansTold (verified s) = sansTold { s with sec := { s.sec with verify := none } } :=
  sansTold_checkSlots _

theorem verified_frame (s : State) : verified s = { s with
    status := (verified s).status, ev := (verified s).ev
    sec := { s.sec with verify := none, toldCompl := (verified s).sec.toldCompl, toldLow := (verified s).sec.toldLow } } :=
  eq_of_sansTold (verified_keeps s)

theorem verified_hub (s : State) : (verified s).mode = s.mode ∧ (verified s).net = s.net ∧ (verified s).sec.verify = none := by
  rw [verified_frame]
  exact ⟨rfl, rfl, rfl⟩

theorem verified_word {a : Nat} (ha : a ∉ complementWords) (s : State) : (verified s).word a = s.word a := checkSlots_word ha _

theorem page_ethAddr_ne (e : Fin 2) : page (F.lnkEth0Addr + 4 * e.val) ≠ 0x50 := by
  revert e
  decide

theorem ethAddr_not_complement (e : Fin 2) : F.lnkEth0Addr + 4 * e.val ∉ complementWords := by
  revert e
  decide

/-- The answer to an image that the loader has checked. -/
def answerImage (h : Hdr) (img : Image) (s : State) (check : Nat × List (Nat × Fin 26)) : State :=
  if check.1 = 0 then conclude h 0 [] (takeImage img check.2 (setF F.rstBootSlot 2 s))
  else conclude h 2 (codeBytes check.1) (loaderRefuse none check.1 s)

/-- The answer to code that has been placed again, or refused. -/
def answerLoad (h : Hdr) (placed : State × Nat) : State :=
  if placed.2 = 0 then conclude h 0 [] placed.1 else conclude h 2 (codeBytes placed.2) placed.1

section
variable {b : Bool} {h : Hdr} {img : Image} {s : State} (hclk : clocked s = true) (hverify : s.sec.verify = some (b, h, img))
include hclk hverify

theorem exec_imageVerify_of_clocked : exec .imageVerify s = .next (
    if imageHolds img (verified s) = false then conclude h 2 [] (verifyFail img.signer.toNat (verified s))
    else if b = true then answerLoad h (placeAgain none img (affected img (verified s)) (verified s))
    else answerImage h img (verified s) (loaderCheck true img (clustersOf img) [] (verified s))) := by
  rw [exec_imageVerify, execImageVerify, hverify]
  simp only [hclk, ← verified.eq_def, Bool.not_true, Bool.false_eq_true, if_false, Bool.not_eq_true']
  congr 1
  split
  · rfl
  · split
    · generalize placeAgain none img (affected img (verified s)) (verified s) = x
      obtain ⟨t, n⟩ := x
      cases n <;> rfl
    · generalize loaderCheck true img (clustersOf img) [] (verified s) = x
      obtain ⟨n, pl⟩ := x
      cases n <;> rfl

theorem imageVerify_forged (hbad : imageHolds img (verified s) = false) : ∃ t, exec .imageVerify s = .next t ∧
    unmoved s t ∧ t.boot = s.boot ∧ t.sec.verify = none ∧ getF F.secFaultVerifyFail t = 1 ∧ answers h 2 [] s t := by
  have htold : sansTold (verifyFail img.signer.toNat (verified s)) = sansTold { s with sec := { s.sec with verify := none } } :=
    (sansTold_of_sansReport rfl).trans (verified_keeps s)
  obtain ⟨hsame, hboot, hnone, -⟩ := conclude_told (h := h) (st := 2) (data := []) htold
  have hexec := exec_imageVerify_of_clocked hclk hverify
  rw [if_pos hbad] at hexec
  refine ⟨_, hexec, hsame, hboot, hnone, ?_, conclude_answers h 2 [] ?_ ?_⟩
  · rw [getF_congr (conclude_word h 2 [] (by decide) _)]
    exact getF_set_one (by decide) rfl (verified s)
  · exact (net_of_told htold).trans rfl
  · exact (setF_word_ne _ _ (ethAddr_ne (by decide) _)).trans (verified_word (ethAddr_not_complement _) s)

/-- An image that passes is placed from host slot 2 (R80). -/
theorem imageVerify_placed (hb : b = false) (hgood : imageHolds img (verified s) = true)
    (hcheck : (loaderCheck true img (clustersOf img) [] (verified s)).1 = 0) : ∃ t, exec .imageVerify s = .next t ∧
      t.boot.running = some img ∧ t.boot.place = (loaderCheck true img (clustersOf img) [] (verified s)).2 ∧ t.sec.verify = none ∧
      t.sec.imageHash = sha384 img.raw ∧ getF F.rstBootSlot t = 2 ∧ answers h 0 [] s t := by
  have hexec := exec_imageVerify_of_clocked hclk hverify
  rw [if_neg (by simp [hgood]), if_neg (by simp [hb]), answerImage, if_pos hcheck] at hexec
  generalize (loaderCheck true img (clustersOf img) [] (verified s)).2 = pl at hexec
  have hframe := eq_of_sansPlaced (takeImage_keeps img pl (setF F.rstBootSlot 2 (verified s)))
  have hword (a : Nat) (ha : page a ≠ 0x50) (hstate : a ≠ F.secState) (hboot : a ≠ F.rstBoot) :
      (takeImage img pl (setF F.rstBootSlot 2 (verified s))).word a = (verified s).word a := by
    rw [takeImage_eq, setF_word_ne _ _ hboot, imageTaken_word ha hstate, setF_word_ne _ _ hboot]
  have hslot : getF F.rstBootSlot (takeImage img pl (setF F.rstBootSlot 2 (verified s))) = 2 := by
    rw [takeImage_eq, getF_setF_bits _ _ (by decide), getF_congr (imageTaken_word (by decide) (by decide) ..)]
    exact getF_setF_lt (by decide) (by decide) _
  refine ⟨_, hexec, ?_, ?_, ?_, ?_, ?_, conclude_answers h 0 [] ?_ ?_⟩
  · rw [conclude_frame, hframe]
  · rw [conclude_frame, hframe]
  · rw [conclude_frame, hframe]
    exact (verified_hub s).2.2
  · rw [conclude_frame, hframe]
  · rw [getF_congr (conclude_word h 0 [] (by decide) _), hslot]
  · rw [hframe]
    exact (net_of_told (verified_keeps s)).trans rfl
  · exact (hword _ (page_ethAddr_ne _) (ethAddr_ne (by decide) _) (ethAddr_ne (by decide) _)).trans
      (verified_word (ethAddr_not_complement _) s)

theorem imageVerify_refused (hb : b = false) (hgood : imageHolds img (verified s) = true)
    (hcheck : (loaderCheck true img (clustersOf img) [] (verified s)).1 ≠ 0) : ∃ t, exec .imageVerify s = .next t ∧
      unmoved s t ∧ t.boot = s.boot ∧ t.sec.verify = none ∧
      answers h 2 (codeBytes (loaderCheck true img (clustersOf img) [] (verified s)).1) s t := by
  have hexec := exec_imageVerify_of_clocked hclk hverify
  rw [if_neg (by simp [hgood]), if_neg (by simp [hb]), answerImage, if_neg hcheck] at hexec
  generalize (loaderCheck true img (clustersOf img) [] (verified s)).1 = code at hexec
  have htold : sansTold (loaderRefuse none code (verified s)) = sansTold { s with sec := { s.sec with verify := none } } :=
    (sansTold_of_sansReport (loaderRefuse_keeps ..)).trans (verified_keeps s)
  obtain ⟨hsame, hboot, hnone, -⟩ := conclude_told (h := h) (st := 2) (data := codeBytes code) htold
  refine ⟨_, hexec, hsame, hboot, hnone, conclude_answers h 2 _ ?_ ?_⟩
  · exact (net_of_told htold).trans rfl
  · exact (loaderRefuse_word (page_ethAddr_ne _) ..).trans (verified_word (ethAddr_not_complement _) s)

/-- Code that passes its signature check is placed again, or refused by the loader (R265). -/
theorem imageVerify_loads (hb : b = true) (hgood : imageHolds img (verified s) = true) :
    let placed := placeAgain none img (affected img (verified s)) (verified s)
    ∃ t, exec .imageVerify s = .next t ∧ t.units = placed.1.units ∧ t.mem = placed.1.mem ∧
      t.boot = placed.1.boot ∧ t.mode = s.mode ∧ t.sec.verify = none ∧
      (placed.2 = 0 → answers h 0 [] s t) ∧ (placed.2 ≠ 0 → answers h 2 (codeBytes placed.2) s t) := by
  intro placed
  have hexec : exec .imageVerify s = .next (answerLoad h placed) := by
    rw [exec_imageVerify_of_clocked hclk hverify, if_neg (by simp [hgood]), if_pos hb]
  have hframe := eq_of_sansPlaced (placeAgain_keeps none img (affected img (verified s)) (verified s))
  have hhub : placed.1.mode = s.mode ∧ placed.1.net = s.net ∧ placed.1.sec.verify = none := by
    unfold placed
    rw [hframe]
    exact verified_hub s
  have haddr : ethAddr h.eth placed.1 = ethAddr h.eth s :=
    (placeAgain_word (page_ethAddr_ne _) (ethAddr_ne (by decide) _) ..).trans (verified_word (ethAddr_not_complement _) s)
  clear_value placed
  obtain ⟨t, code⟩ := placed
  obtain ⟨hmode, hnet, hnone⟩ := hhub
  refine ⟨_, hexec, ?_⟩
  unfold answerLoad
  by_cases hcode : code = 0
  · rw [if_pos hcode, conclude_frame]
    refine ⟨rfl, rfl, rfl, hmode, hnone, fun _ => ?_, fun hne => absurd hcode hne⟩
    rw [← conclude_frame]
    exact conclude_answers h 0 [] hnet haddr
  · rw [if_neg hcode, conclude_frame]
    refine ⟨rfl, rfl, rfl, hmode, hnone, fun h0 => absurd h0 hcode, fun _ => ?_⟩
    rw [← conclude_frame]
    exact conclude_answers h 2 (codeBytes code) hnet haddr

end

/-! ### Blocks that wait (R393, R395) -/

/-- A SYS instruction that nothing holds back raises EXC_RANGE, or acts once it has passed. -/
theorem sysOp_acts {u : UnitId} {wide : Bool} {rs : List RegRef} {bad : State → Bool} {act : State → State} {s : State}
    (h : issues u .sys wide rs s) :
    sysOp u wide rs bad act s = if bad s = true then takeExc u 7 wide s else act (advance u wide s) := issue_acts h

theorem srcVal_advance (u : UnitId) (b : Src) (wide : Bool) (s : State) : srcVal u b (advance u wide s) = srcVal u b s := by
  cases b with
  | imm w => rfl
  | reg n => exact getS_advance ..

theorem pushAuth_shows (r : AuthReq) (s : State) : (pushAuth r s).units = s.units ∧ (pushAuth r s).mem = s.mem ∧
    (pushAuth r s).mode = s.mode ∧ (pushAuth r s).net = s.net ∧ getF F.secStateAuthBusy (pushAuth r s) = 1 ∧
    (pushAuth r s).sec = { s.sec with auths := s.sec.auths ++ [r] } :=
  ⟨rfl, rfl, rfl, rfl, getF_set_one (by decide) rfl _, rfl⟩

/-- SYS.LIFECYCLE puts its block behind those waiting, or raises EXC_RANGE (R289). -/
theorem exec_sysLifecycle_of_issues {u : UnitId} {b : Src} {s : State} (h : issues u .sys (srcImm b) (srcRegs b) s) :
    let a := (srcVal u b s).toNat
    let n := authLen (readB s.mem (storeBase u + a + 5)).toNat
    exec (.sysLifecycle u b) s = .next (if a % 4 ≠ 0 ∨ storeSize u < a + 212 ∨ storeSize u < a + n then takeExc u 7 (srcImm b) s
      else pushAuth ⟨readBytes s.mem (storeBase u + a) n, none⟩ (advance u (srcImm b) s)) := by
  intro a n
  rw [exec_sysLifecycle, execSysLifecycle]
  dsimp only
  rw [sysOp_acts h, srcVal_advance, advance_mem]
  simp only [Bool.or_eq_true, decide_eq_true_eq, or_assoc]
  rfl

/-- The layout of AUTH, and what it does with a block (R395). -/
def authLayout (p : List Byte) : Bool := p.length = authLen (authSigner p)

def takeAuth (h : Hdr) (p : List Byte) (s : State) : State × Option (Nat × List Byte) :=
  if authType p = 1 then (refuseAuth ⟨p, some h⟩ s, some (2, []))
  else if authUnderWay s = true then
    if (takeFree s).1 % 2 = 0 then ((takeFree s).2, some (3, [])) else (pushAuth ⟨p, some h⟩ (takeFree s).2, none)
  else (pushAuth ⟨p, some h⟩ s, none)

theorem exec_cmdAuth_eq (h : Hdr) (p : List Byte) (s : State) :
    exec (.cmdAuth h p) s = .next (request 0x31 authLayout (takeAuth h p) h p s) := rfl

/-- What the refusal of a block shows (R394). -/
theorem refuseAuth_keeps (r : AuthReq) (s : State) : sansReport (refuseAuth r s) = sansReport s := by
  simp [refuseAuth, sansReport_ite]

theorem refuseAuth_shown (r : AuthReq) (a : Nat) (s : State) :
    (refuseAuth r s).word a = (setF F.secFaultAuthRefused 1 (bump F.secCountAuthRefused s)).word a := by
  unfold refuseAuth
  dsimp only
  split <;> rfl

theorem refuseAuth_word {a : Nat} (hfault : a ≠ F.secFault) (hcount : a ≠ F.secCount) (r : AuthReq) (s : State) :
    (refuseAuth r s).word a = s.word a := by
  rw [refuseAuth_shown, setF_word_ne _ _ hfault, bump_word_ne hcount]

theorem refuseAuth_counts (r : AuthReq) (s : State) : getF F.secFaultAuthRefused (refuseAuth r s) = 1 ∧
    getF F.secCountAuthRefused (refuseAuth r s) = min 65535 (getF F.secCountAuthRefused s + 1) := by
  refine ⟨(getF_congr (refuseAuth_shown ..)).trans (getF_set_one (by decide) rfl _), (getF_congr (refuseAuth_shown ..)).trans ?_⟩
  rw [getF_setF_addr _ _ (by decide)]
  exact getF_bump_same (by decide) s

section
variable {h : Hdr} {p : List Byte} {s : State} (hasks : asks 0x31 [0, 2] [2, 3, 4] h p s) (hlen : p.length = authLen (authSigner p))
include hasks hlen

/-- A key block waits, or finds another under way and is answered BUSY, as the model's free value says (R395). -/
theorem cmdAuth_waits (htype : authType p ≠ 1) : ∃ t, exec (.cmdAuth h p) s = .next t ∧
    ((unmoved s t ∧ t.net = s.net ∧ getF F.secStateAuthBusy t = 1 ∧
        t.sec = { s.sec with auths := s.sec.auths ++ [⟨p, some h⟩] }) ∨
      authUnderWay s = true ∧ unmoved s t ∧ t.sec = s.sec ∧ answers h 3 [] s t) := by
  have hwaits (t : State) (ht : unmoved s t ∧ t.net = s.net ∧ t.sec = s.sec) (hact : takeAuth h p s = (pushAuth ⟨p, some h⟩ t, none)) :
      exec (.cmdAuth h p) s = .next (pushAuth ⟨p, some h⟩ t) ∧ unmoved s (pushAuth ⟨p, some h⟩ t) ∧
        (pushAuth ⟨p, some h⟩ t).net = s.net ∧ getF F.secStateAuthBusy (pushAuth ⟨p, some h⟩ t) = 1 ∧
        (pushAuth ⟨p, some h⟩ t).sec = { s.sec with auths := s.sec.auths ++ [⟨p, some h⟩] } := by
    obtain ⟨hsame, hnet, hsec⟩ := ht
    obtain ⟨hunits, hmem, hmode, hnet1, hshows, hsec1⟩ := pushAuth_shows ⟨p, some h⟩ t
    have hreq := request_of_asks_later (layout := authLayout) hasks (by decide) (decide_eq_true hlen) hact
    rw [hsec] at hsec1
    exact ⟨(exec_cmdAuth_eq ..).trans (congrArg Host.Outcome.next hreq), hsame, hnet, hshows, hsec1⟩
  by_cases hbusy : authUnderWay s = true
  · by_cases hfree : (takeFree s).1 % 2 = 0
    · have hact : takeAuth h p s = ((takeFree s).2, some (3, [])) := by rw [takeAuth, if_neg htype, if_pos hbusy, if_pos hfree]
      have hreq := requestThen_of_asks (after := id) (layout := authLayout) hasks (by decide) (decide_eq_true hlen) hact
      rw [if_neg (by decide)] at hreq
      refine ⟨_, (exec_cmdAuth_eq ..).trans (congrArg Host.Outcome.next hreq), .inr ⟨hbusy, ?_, ?_, conclude_answers h 3 [] rfl rfl⟩⟩
      · rw [unmoved, conclude_frame]
        exact ⟨rfl, rfl, rfl⟩
      · rw [conclude_frame]
        rfl
    · obtain ⟨hexec, hends⟩ := hwaits (takeFree s).2 ⟨⟨rfl, rfl, rfl⟩, rfl, rfl⟩
        (by rw [takeAuth, if_neg htype, if_pos hbusy, if_neg hfree])
      exact ⟨_, hexec, .inl hends⟩
  · obtain ⟨hexec, hends⟩ := hwaits s ⟨⟨rfl, rfl, rfl⟩, rfl, rfl⟩ (by rw [takeAuth, if_neg htype, if_neg hbusy])
    exact ⟨_, hexec, .inl hends⟩

/-- A life-cycle block from the host is refused, counted and reported (R92). -/
theorem cmdAuth_refused (htype : authType p = 1) : ∃ t, exec (.cmdAuth h p) s = .next t ∧ unmoved s t ∧ t.sec = s.sec ∧
    answers h 2 [] s t ∧ getF F.secFaultAuthRefused t = 1 ∧
    getF F.secCountAuthRefused t = min 65535 (getF F.secCountAuthRefused s + 1) ∧
    t.ev.queue = s.ev.queue ++ [⟨0x0222, 0, 0, 0, s.time⟩] := by
  have hact : takeAuth h p s = (refuseAuth ⟨p, some h⟩ s, some (2, [])) := by rw [takeAuth, if_pos htype]
  have hreq := requestThen_of_asks (after := id) (layout := authLayout) hasks (by decide) (decide_eq_true hlen) hact
  rw [if_neg (by decide)] at hreq
  have hframe := eq_of_sansReport (refuseAuth_keeps ⟨p, some h⟩ s)
  have hqueue : (refuseAuth ⟨p, some h⟩ s).ev.queue = s.ev.queue ++ [⟨0x0222, 0, 0, 0, s.time⟩] := by
    simp [refuseAuth, htype, raise]
  obtain ⟨hfault, hcount⟩ := refuseAuth_counts ⟨p, some h⟩ s
  refine ⟨_, (exec_cmdAuth_eq ..).trans (congrArg Host.Outcome.next hreq), ?_, ?_, conclude_answers h 2 [] ?_ ?_, ?_, ?_, ?_⟩
  · rw [unmoved, conclude_frame, hframe]
    exact ⟨rfl, rfl, rfl⟩
  · rw [conclude_frame, hframe]
  · rw [hframe]
  · exact refuseAuth_word (ethAddr_ne (by decide) _) (ethAddr_ne (by decide) _) ..
  · exact (getF_congr (conclude_word h 2 [] (by decide) _)).trans hfault
  · exact (getF_congr (conclude_word h 2 [] (by decide) _)).trans hcount
  · rw [conclude_frame]
    exact hqueue

end

/-! ### Attestation (R397, R398) -/

/-- What ATTEST does (R398). -/
def takeAttest (h : Hdr) (p : List Byte) (s : State) : State × Option (Nat × List Byte) :=
  if s.sec.attest.isSome = true then (bump F.secCountAttestRefused s, some (3, []))
  else (setF F.secStateAttestBusy 1 (modSec (fun e => { e with attest := some (h, p) }) s), none)

theorem exec_cmdAttest_eq (h : Hdr) (p : List Byte) (s : State) :
    exec (.cmdAttest h p) s = .next (request 0x30 (sized 32) (takeAttest h p) h p s) := rfl

/-- Bytes from the generator change the generator alone. -/
theorem randomBytes_frame (n : Nat) (s : State) :
    (randomBytes n s).2 = { s with sec := { s.sec with drbg := (randomBytes n s).2.sec.drbg } } := by
  unfold randomBytes
  generalize drbgTake s.sec.drbg ((n + 15) / 16) = x
  rfl

theorem randomBytes_congr {s t : State} (hdrbg : t.sec.drbg = s.sec.drbg) (n : Nat) :
    (randomBytes n t).1 = (randomBytes n s).1 ∧ (randomBytes n t).2.sec.drbg = (randomBytes n s).2.sec.drbg := by
  unfold randomBytes
  rw [hdrbg]
  generalize drbgTake s.sec.drbg ((n + 15) / 16) = x
  exact ⟨rfl, rfl⟩

section
variable {h : Hdr} {p : List Byte} {s : State}

theorem cmdAttest_taken (hasks : asks 0x30 [0, 2] [0, 1, 2, 3, 4, 5] h p s) (hlen : p.length = 32) (hfree : s.sec.attest = none) :
    ∃ t, exec (.cmdAttest h p) s = .next t ∧ unmoved s t ∧ t.net = s.net ∧ getF F.secStateAttestBusy t = 1 ∧
      t.sec = { s.sec with attest := some (h, p) } := by
  have hact : takeAttest h p s = (setF F.secStateAttestBusy 1 (modSec (fun e => { e with attest := some (h, p) }) s), none) := by
    rw [takeAttest, if_neg (by simp [hfree])]
  have hreq := request_of_asks_later (layout := sized 32) hasks (by decide) (decide_eq_true hlen) hact
  exact ⟨_, (exec_cmdAttest_eq ..).trans (congrArg Host.Outcome.next hreq), ⟨rfl, rfl, rfl⟩, rfl, getF_set_one (by decide) rfl _, rfl⟩

theorem cmdAttest_busy (hasks : asks 0x30 [0, 2] [0, 1, 2, 3, 4, 5] h p s) (hlen : p.length = 32) (hbusy : s.sec.attest ≠ none) :
    ∃ t, exec (.cmdAttest h p) s = .next t ∧ unmoved s t ∧ t.sec = s.sec ∧ answers h 3 [] s t ∧
      getF F.secCountAttestRefused t = min 65535 (getF F.secCountAttestRefused s + 1) := by
  have hact : takeAttest h p s = (bump F.secCountAttestRefused s, some (3, [])) := by
    rw [takeAttest, if_pos (Option.isSome_iff_ne_none.mpr hbusy)]
  have hreq := requestThen_of_asks (after := id) (layout := sized 32) hasks (by decide) (decide_eq_true hlen) hact
  rw [if_neg (by decide)] at hreq
  refine ⟨_, (exec_cmdAttest_eq ..).trans (congrArg Host.Outcome.next hreq), ?_, ?_, conclude_answers h 3 [] rfl ?_, ?_⟩
  · rw [unmoved, conclude_frame]
    exact ⟨rfl, rfl, rfl⟩
  · rw [conclude_frame]
    rfl
  · exact bump_word_ne (ethAddr_ne (by decide) _) s
  · exact (getF_congr (conclude_word h 3 [] (by decide) _)).trans (getF_bump_same (by decide) s)

/-- The report leaves with its signature, whose nonce comes from the generator (R397, R400). -/
theorem attestReport_leaves {nonce : List Byte} (hclk : clocked s = true) (hattest : s.sec.attest = some (h, nonce)) :
    ∃ t, exec .attestReport s = .next t ∧ unmoved s t ∧
      t.sec = { s.sec with attest := none, drbg := (randomBytes 48 s).2.sec.drbg } ∧ getF F.secStateAttestBusy t = 0 ∧
      answers h 0 (reportBytes nonce s ++ fitBytes 96 (ecSign s.sec.identity (1 + beNat (randomBytes 48 s).1 % (ecN - 1))
        (sha384 (reportBytes nonce s)))) s t := by
  obtain ⟨hbytes, hdrbg⟩ := randomBytes_congr
    (t := setF F.secStateAttestBusy 0 (modSec (fun e => { e with attest := none }) s)) (s := s) rfl 48
  have hframe := randomBytes_frame 48 (setF F.secStateAttestBusy 0 (modSec (fun e => { e with attest := none }) s))
  rw [hdrbg] at hframe
  have hexec : exec .attestReport s = .next (conclude h 0 (reportBytes nonce s ++ fitBytes 96 (ecSign s.sec.identity
      (1 + beNat (randomBytes 48 s).1 % (ecN - 1)) (sha384 (reportBytes nonce s))))
        (randomBytes 48 (setF F.secStateAttestBusy 0 (modSec (fun e => { e with attest := none }) s))).2) := by
    rw [exec_attestReport, execAttestReport, hattest]
    simp only [hclk, Bool.not_true, Bool.false_eq_true, if_false, hbytes, hframe, stOk]
    rfl
  rw [hframe] at hexec
  generalize (randomBytes 48 s).2.sec.drbg = g at hexec ⊢
  generalize reportBytes nonce s ++ fitBytes 96 (ecSign s.sec.identity (1 + beNat (randomBytes 48 s).1 % (ecN - 1))
    (sha384 (reportBytes nonce s))) = r at hexec ⊢
  refine ⟨_, hexec, ?_, ?_, ?_, conclude_answers h 0 r rfl ?_⟩
  · rw [unmoved, conclude_frame]
    exact ⟨rfl, rfl, rfl⟩
  · rw [conclude_frame]
    rfl
  · exact (getF_congr (conclude_word h 0 r (by decide) _)).trans (getF_setF_lt (by decide) (by decide) _)
  · exact setF_word_ne _ _ (ethAddr_ne (by decide) _)

end

/-! ### The slots of the owner's keys (R388, R394) -/

theorem putDigit_lt {v i x : Nat} (hv : v < 256) (hi : i < 4) (hx : x < 4) : putDigit v i x < 256 := by
  unfold putDigit
  interval_cases i <;> omega

theorem digit_putDigit {v i k x : Nat} (hv : v < 256) (hi : i < 4) (hk : k < 4) (hx : x < 4) :
    putDigit v i x / 4 ^ k % 4 = if k = i then x else v / 4 ^ k % 4 := by
  unfold putDigit
  interval_cases i <;> interval_cases k <;> simp <;> omega

theorem slotState_congr {s t : State} (h : t.word F.secKeys = s.word F.secKeys) (i : Nat) : slotState i t = slotState i s := by
  have hslots : getF F.secKeysSlots t = getF F.secKeysSlots s := getF_congr h
  have hcompl : getF F.secKeysSlotsN t = getF F.secKeysSlotsN s := getF_congr h
  rw [slotState, slotState, hslots, hcompl]

theorem slotState_of_fields {s t : State} (hslots : getF F.secKeysSlots t = getF F.secKeysSlots s)
    (hcompl : getF F.secKeysSlotsN t = getF F.secKeysSlotsN s) (i : Nat) : slotState i t = slotState i s := by
  rw [slotState, slotState, hslots, hcompl]

/-- A slot written with its complement holds its state, and the others stay. -/
theorem slotState_setSlot {i k x : Nat} (hi : i < 4) (hk : k < 4) (hx : x < 4) (s : State) :
    slotState k (setSlot i x s) = if k = i then x else slotState k s := by
  have hv : getF F.secKeysSlots s < 256 := Nat.lt_of_le_of_lt (getF_le_topF ..) (by decide)
  have hn : getF F.secKeysSlotsN s < 256 := Nat.lt_of_le_of_lt (getF_le_topF ..) (by decide)
  have hx3 : 3 - x < 4 := by omega
  have hslots : getF F.secKeysSlots (setSlot i x s) = putDigit (getF F.secKeysSlots s) i x :=
    getF_setF_lt (by decide) (putDigit_lt hv hi hx) _
  have hcompl : getF F.secKeysSlotsN (setSlot i x s) = putDigit (getF F.secKeysSlotsN s) i (3 - x) :=
    (getF_setF_bits _ _ (by decide)).trans (getF_setF_lt (by decide) (putDigit_lt hn hi hx3) _)
  unfold slotState
  rw [hslots, hcompl, digit_putDigit hv hi hk hx, digit_putDigit hn hi hk hx3]
  split
  · rw [if_pos (by omega)]
  · rfl

theorem setSlot_word {a : Nat} (ha : a ≠ F.secKeys) (i x : Nat) (s : State) : (setSlot i x s).word a = s.word a :=
  (setF_word_ne _ _ ha).trans (setF_word_ne _ _ ha)

theorem setSlot_keeps (code i x : Nat) (s : State) : sansReport (raise code 0xE i 0 (setSlot i x s)) = sansReport s := by
  simp [setSlot]

theorem setSlot_count (i x : Nat) (s : State) : getF F.secKeysCount (setSlot i x s) = getF F.secKeysCount s :=
  (getF_setF_bits _ _ (by decide)).trans (getF_setF_bits _ _ (by decide))

/-! ### The check of a block (R394) -/

/-- The state as the check of the oldest block finds it: the block taken, the slots used, a failed complement counted. -/
def authFound (r : AuthReq) (rest : List AuthReq) (s : State) : State :=
  let s := checkSlots (setF F.secStateAuthBusy (b2n (!rest.isEmpty)) (modSec (fun e => { e with auths := rest }) s))
  if authCompl r.data = true then s else complementFail 7 s

theorem authFound_keeps (r : AuthReq) (rest : List AuthReq) (s : State) :
    sansTold (authFound r rest s) = sansTold { s with sec := { s.sec with auths := rest } } := by
  have hslots := sansTold_checkSlots (setF F.secStateAuthBusy (b2n (!rest.isEmpty)) (modSec (fun e => { e with auths := rest }) s))
  unfold authFound
  dsimp only
  split
  · exact hslots.trans (sansTold_of_sansReport rfl)
  · exact (sansTold_of_sansReport (by simp [complementFail])).trans (hslots.trans (sansTold_of_sansReport rfl))

theorem authFound_word {a : Nat} (ha : a ∉ complementWords) (hstate : a ≠ F.secState) (r : AuthReq) (rest : List AuthReq) (s : State) :
    (authFound r rest s).word a = s.word a := by
  have hslots := (checkSlots_word ha
    (setF F.secStateAuthBusy (b2n (!rest.isEmpty)) (modSec (fun e => { e with auths := rest }) s))).trans (setF_word_ne _ _ hstate)
  simp only [complementWords, List.mem_cons, List.not_mem_nil, or_false, not_or] at ha
  obtain ⟨-, hcompl, hseen, -⟩ := ha
  unfold authFound
  dsimp only
  split
  · exact hslots
  · exact (complementFail_word hcompl hseen 7 _).trans hslots

/-- The reply to a block's source, where one waits for it. -/
def answerAuth (r : AuthReq) (st : Nat) (t : State) : State :=
  match r.reply with
  | some h => conclude h st [] t
  | none => t

theorem answerAuth_frame (r : AuthReq) (st : Nat) (t : State) : answerAuth r st t = { t with
    net := { t.net with sent := (answerAuth r st t).net.sent, replies := (answerAuth r st t).net.replies }
    free := (answerAuth r st t).free, status := (answerAuth r st t).status } := by
  unfold answerAuth
  cases r.reply with
  | none => rfl
  | some h => exact conclude_frame ..

theorem answerAuth_word {a : Nat} (ha : a ≠ F.lnkCmd) (r : AuthReq) (st : Nat) (t : State) :
    (answerAuth r st t).word a = t.word a := by
  unfold answerAuth
  cases r.reply with
  | none => rfl
  | some h => exact conclude_word h st [] ha t

theorem answerAuth_ends {r : AuthReq} {st : Nat} {rest : List AuthReq} {s t : State} (hsame : unmoved s t) (hnet : t.net = s.net)
    (haddr : ∀ e, ethAddr e t = ethAddr e s) (hauths : t.sec.auths = rest) : unmoved s (answerAuth r st t) ∧
      (answerAuth r st t).sec.auths = rest ∧ ∀ h, r.reply = some h → answers h st [] s (answerAuth r st t) := by
  refine ⟨?_, ?_, fun h hreply => ?_⟩
  · rw [unmoved, answerAuth_frame]
    exact hsame
  · rw [answerAuth_frame]
    exact hauths
  · rw [answerAuth, hreply]
    exact conclude_answers h st [] hnet (haddr _)

section
variable {r : AuthReq} {rest : List AuthReq} {s : State} (hclk : clocked s = true) (hauths : s.sec.auths = r :: rest)
include hclk hauths

theorem exec_authBlockCheck_of_waiting : exec .authBlockCheck s = .next (
    if authOk r (authFound r rest s) = true then answerAuth r 0 (acceptAuth r (authFound r rest s))
    else answerAuth r 2 (refuseAuth r (authFound r rest s))) := by
  rw [exec_authBlockCheck, execAuthBlockCheck, hauths]
  simp only [hclk, Bool.not_true, Bool.false_eq_true, if_false]
  change Host.Outcome.next (match r.reply with
    | some h => conclude h (if authOk r (authFound r rest s) = true then stOk else stRefused) []
        (if authOk r (authFound r rest s) = true then acceptAuth r (authFound r rest s) else refuseAuth r (authFound r rest s))
    | none => if authOk r (authFound r rest s) = true then acceptAuth r (authFound r rest s) else refuseAuth r (authFound r rest s)) = _
  generalize authFound r rest s = t
  unfold answerAuth
  cases authOk r t with
  | false => cases r.reply <;> rfl
  | true => cases r.reply <;> rfl

/-- A block that fails a check changes neither slots nor counter, and is counted (R394). -/
theorem authBlock_refused (hbad : authOk r (authFound r rest s) = false) : ∃ t, exec .authBlockCheck s = .next t ∧ unmoved s t ∧
    (t.sec.auths = rest ∧ ∀ h, r.reply = some h → answers h 2 [] s t) ∧ t.word F.secKeys = s.word F.secKeys ∧
    t.word F.lcsState = s.word F.lcsState ∧ getF F.secFaultAuthRefused t = 1 ∧
    getF F.secCountAuthRefused t = min 65535 (getF F.secCountAuthRefused s + 1) := by
  have hexec := exec_authBlockCheck_of_waiting hclk hauths
  rw [if_neg (by simp [hbad])] at hexec
  have htold : sansTold (refuseAuth r (authFound r rest s)) = sansTold { s with sec := { s.sec with auths := rest } } :=
    (sansTold_of_sansReport (refuseAuth_keeps ..)).trans (authFound_keeps ..)
  have hframe := eq_of_sansTold htold
  have hword (a : Nat) (ha : a ∉ complementWords) (hstate : a ≠ F.secState) (hcount : a ≠ F.secCount) :
      (refuseAuth r (authFound r rest s)).word a = s.word a :=
    (refuseAuth_word (fun e => ha (by rw [e]; decide)) hcount ..).trans (authFound_word ha hstate ..)
  obtain ⟨hfault, hcount⟩ := refuseAuth_counts r (authFound r rest s)
  have hcount0 : getF F.secCountAuthRefused (authFound r rest s) = getF F.secCountAuthRefused s :=
    getF_congr (authFound_word (by decide) (by decide) ..)
  obtain ⟨hsame, hrest, hans⟩ := answerAuth_ends (r := r) (st := 2) (rest := rest) (s := s) (t := refuseAuth r (authFound r rest s))
    (by rw [unmoved, hframe]; exact ⟨rfl, rfl, rfl⟩) (by rw [hframe])
    (fun e => hword _ (ethAddr_not_complement e) (ethAddr_ne (by decide) e) (ethAddr_ne (by decide) e)) (by rw [hframe])
  refine ⟨_, hexec, hsame, ⟨hrest, hans⟩, ?_, ?_, ?_, ?_⟩
  · exact (answerAuth_word (by decide) ..).trans (hword _ (by decide) (by decide) (by decide))
  · exact (answerAuth_word (by decide) ..).trans (hword _ (by decide) (by decide) (by decide))
  · exact (getF_congr (answerAuth_word (by decide) ..)).trans hfault
  · exact ((getF_congr (answerAuth_word (by decide) ..)).trans hcount).trans (by rw [hcount0])

end

/-! ### A block that every check passes (R394) -/

/-- What the checks of a block that passes say of its reply, its counter, its signer and its target. -/
theorem authOk_says {r : AuthReq} {s : State} (hok : authOk r s = true) : (r.reply.isNone = true ↔ authType r.data = 1) ∧
    getF F.secKeysCount s < 1024 ∧ authSignerOk (authType r.data) (authSigner r.data) (authTarget r.data) s = true ∧
    authTargetOk (authType r.data) (authTarget r.data) (ecKeyOk ((r.data.drop 20).take 96)) s = true := by
  simp only [authOk, Bool.and_eq_true, decide_eq_true_eq] at hok
  obtain ⟨⟨⟨⟨⟨⟨-, hreply⟩, -⟩, -⟩, hcount⟩, hsigner⟩, htarget⟩ := hok.1
  exact ⟨Iff.of_eq hreply, hcount, hsigner, htarget⟩

/-- The counter advanced for a block, and a low one reported (R395). -/
def blockCounted (r : AuthReq) (s : State) : State :=
  checkCounter (some (authSigner r.data)) (setF F.secKeysCount (getF F.secKeysCount s + 1) s)

theorem blockCounted_keeps (r : AuthReq) (s : State) : sansTold (blockCounted r s) = sansTold s :=
  (sansTold_checkCounter ..).trans (sansTold_of_sansReport rfl)

theorem blockCounted_word {a : Nat} (hkeys : a ≠ F.secKeys) (hsuppressed : a ≠ F.intEvtSuppressed) (r : AuthReq) (s : State) :
    (blockCounted r s).word a = s.word a := (checkCounter_word hsuppressed ..).trans (setF_word_ne _ _ hkeys)

theorem blockCounted_keys (r : AuthReq) (s : State) :
    (blockCounted r s).word F.secKeys = (setF F.secKeysCount (getF F.secKeysCount s + 1) s).word F.secKeys :=
  checkCounter_word (by decide) ..

theorem blockCounted_slot (r : AuthReq) (i : Nat) (s : State) : slotState i (blockCounted r s) = slotState i s := by
  refine (slotState_congr (blockCounted_keys r s) i).trans (slotState_of_fields ?_ ?_ i)
  · exact getF_setF_bits _ _ (by decide)
  · exact getF_setF_bits _ _ (by decide)

theorem blockCounted_count {s : State} (h : getF F.secKeysCount s < 1024) (r : AuthReq) :
    getF F.secKeysCount (blockCounted r s) = getF F.secKeysCount s + 1 :=
  (getF_congr (blockCounted_keys r s)).trans (getF_setF_lt (by decide) (Nat.lt_of_le_of_lt h (by decide)) _)

/-- The owner's key that a block brings, in its slot. -/
def keyHeld (r : AuthReq) (s : State) : State :=
  modSec (fun e => { e with keys := e.keys.set (Fin.ofNat 4 (authTarget r.data)) ((r.data.drop 20).take 96) }) s

theorem acceptAuth_of_add {r : AuthReq} (htype : authType r.data = 2) (s : State) : acceptAuth r s =
    raise 0x4102 0xE (authTarget r.data) 0 (setSlot (authTarget r.data) 1 (keyHeld r (blockCounted r s))) := by
  unfold acceptAuth
  rw [htype]
  rfl

theorem acceptAuth_of_revoke {r : AuthReq} (htype : authType r.data = 3) (s : State) : acceptAuth r s =
    raise 0x4103 0xE (authTarget r.data) 0 (setSlot (authTarget r.data) 2 (blockCounted r s)) := by
  unfold acceptAuth
  rw [htype]
  rfl

theorem acceptAuth_of_transition {r : AuthReq} (htype : authType r.data = 1) (s : State) :
    acceptAuth r s = changeLifecycle (authTarget r.data) (blockCounted r s) := by
  unfold acceptAuth
  rw [htype]
  rfl

section
variable {r : AuthReq} {rest : List AuthReq} {s : State} (hclk : clocked s = true) (hauths : s.sec.auths = r :: rest)
  (hok : authOk r (authFound r rest s) = true)
include hclk hauths hok

/-- A key block that passes advances the counter and writes its slot alone. -/
theorem authBlock_writes {x code : Nat} {u : State} (hx : x < 4) (hi : authTarget r.data < 4)
    (hu : u = blockCounted r (authFound r rest s) ∨ u = keyHeld r (blockCounted r (authFound r rest s)))
    (haccept : acceptAuth r (authFound r rest s) = raise code 0xE (authTarget r.data) 0 (setSlot (authTarget r.data) x u)) :
    ∃ t, exec .authBlockCheck s = .next t ∧ unmoved s t ∧
      (t.sec.auths = rest ∧ ∀ h, r.reply = some h → answers h 0 [] s t) ∧
      getF F.secKeysCount t = getF F.secKeysCount s + 1 ∧
      ∀ k, k < 4 → slotState k t = if k = authTarget r.data then x else slotState k s := by
  have hexec := exec_authBlockCheck_of_waiting hclk hauths
  rw [if_pos hok, haccept] at hexec
  obtain ⟨-, hroom, -⟩ := authOk_says hok
  have hcounted := eq_of_sansTold ((blockCounted_keeps r (authFound r rest s)).trans (authFound_keeps r rest s))
  have hparts : unmoved s u ∧ u.net = s.net ∧ u.sec.auths = rest := by
    rcases hu with rfl | rfl
    · rw [unmoved, hcounted]
      exact ⟨⟨rfl, rfl, rfl⟩, rfl, rfl⟩
    · rw [unmoved, keyHeld, hcounted]
      exact ⟨⟨rfl, rfl, rfl⟩, rfl, rfl⟩
  have huword (a : Nat) : u.word a = (blockCounted r (authFound r rest s)).word a := by
    rcases hu with rfl | rfl <;> rfl
  obtain ⟨hsame, hnet, hrest⟩ := hparts
  have haddr (e : Fin 2) : ethAddr e (raise code 0xE (authTarget r.data) 0 (setSlot (authTarget r.data) x u)) = ethAddr e s := by
    have hfound := authFound_word (ethAddr_not_complement e) (ethAddr_ne (by decide) e) r rest s
    rw [ethAddr, raise_word, setSlot_word (ethAddr_ne (by decide) e), huword,
      blockCounted_word (ethAddr_ne (by decide) e) (ethAddr_ne (by decide) e), hfound]
    rfl
  have hkeys : (authFound r rest s).word F.secKeys = s.word F.secKeys := authFound_word (by decide) (by decide) ..
  have hshown := eq_of_sansReport (setSlot_keeps code (authTarget r.data) x u)
  obtain ⟨hsame1, hrest1, hans⟩ := answerAuth_ends (r := r) (st := 0) (rest := rest) (s := s)
    (t := raise code 0xE (authTarget r.data) 0 (setSlot (authTarget r.data) x u)) (by rw [unmoved, hshown]; exact hsame)
    (by rw [hshown]; exact hnet) haddr (by rw [hshown]; exact hrest)
  refine ⟨_, hexec, hsame1, ⟨hrest1, hans⟩, ?_, fun k hk => ?_⟩
  · have hcount : getF F.secKeysCount u = getF F.secKeysCount s + 1 := by
      rw [getF_congr (huword _), blockCounted_count hroom, getF_congr (f := F.secKeysCount) hkeys]
    rw [getF_congr (answerAuth_word (by decide) ..), getF_congr (raise_word ..), setSlot_count, hcount]
  · have hslot : slotState k u = slotState k s :=
      (slotState_congr (huword _) k).trans ((blockCounted_slot r k _).trans (slotState_congr hkeys k))
    rw [slotState_congr (answerAuth_word (by decide) ..), slotState_congr (raise_word ..), slotState_setSlot hi hk hx, hslot]

/-- A block that names an EMPTY slot makes it ACTIVE. -/
theorem authBlock_adds (htype : authType r.data = 2) : ∃ t, exec .authBlockCheck s = .next t ∧ unmoved s t ∧
    (t.sec.auths = rest ∧ ∀ h, r.reply = some h → answers h 0 [] s t) ∧ slotState (authTarget r.data) s = 0 ∧
    slotState (authTarget r.data) t = 1 ∧ getF F.secKeysCount t = getF F.secKeysCount s + 1 ∧
    ∀ k, k < 4 → k ≠ authTarget r.data → slotState k t = slotState k s := by
  obtain ⟨-, -, -, htarget⟩ := authOk_says hok
  rw [htype, authTargetOk] at htarget
  simp only [Bool.and_eq_true, decide_eq_true_eq] at htarget
  obtain ⟨⟨hi, hempty⟩, -⟩ := htarget
  obtain ⟨t, hexec, hsame, hdone, hcount, hslot⟩ := authBlock_writes hclk hauths hok (x := 1) (by decide) hi (.inr rfl)
    (acceptAuth_of_add htype _)
  refine ⟨t, hexec, hsame, hdone, ?_, ?_, hcount, fun k hk hne => (hslot k hk).trans (if_neg hne)⟩
  · exact (slotState_congr (authFound_word (by decide) (by decide) ..) _).symm.trans hempty
  · exact (hslot _ hi).trans (if_pos rfl)

/-- A block that names an ACTIVE slot makes it REVOKED, while another is ACTIVE. -/
theorem authBlock_revokes (htype : authType r.data = 3) : ∃ t, exec .authBlockCheck s = .next t ∧ unmoved s t ∧
    (t.sec.auths = rest ∧ ∀ h, r.reply = some h → answers h 0 [] s t) ∧ slotState (authTarget r.data) s = 1 ∧
    slotState (authTarget r.data) t = 2 ∧ getF F.secKeysCount t = getF F.secKeysCount s + 1 ∧
    (∀ k, k < 4 → k ≠ authTarget r.data → slotState k t = slotState k s) ∧ ∃ k, k < 4 ∧ slotState k t = 1 := by
  obtain ⟨-, -, -, htarget⟩ := authOk_says hok
  rw [htype, authTargetOk] at htarget
  simp only [Bool.and_eq_true, slotActive, decide_eq_true_eq, List.any_eq_true, List.mem_range] at htarget
  obtain ⟨⟨hi, hactive⟩, k, hk, hne, -, hother⟩ := htarget
  have hfound (j : Nat) : slotState j (authFound r rest s) = slotState j s :=
    slotState_congr (authFound_word (by decide) (by decide) ..) j
  obtain ⟨t, hexec, hsame, hdone, hcount, hslot⟩ := authBlock_writes hclk hauths hok (x := 2) (by decide) hi (.inl rfl)
    (acceptAuth_of_revoke htype _)
  refine ⟨t, hexec, hsame, hdone, ?_, ?_, hcount, fun j hj hne => (hslot j hj).trans (if_neg hne), k, hk, ?_⟩
  · exact (hfound _).symm.trans hactive
  · exact (hslot _ hi).trans (if_pos rfl)
  · exact (hslot k hk).trans ((if_neg hne).trans ((hfound k).symm.trans hother))

end

/-! ### A life-cycle transition (R93, R394) -/

theorem transitionOk_target {signer target : Nat} {s : State} (h : transitionOk signer target s = true) :
    target = 2 ∨ target = 4 ∨ target = 8 := by
  unfold transitionOk at h
  dsimp only at h
  split at h <;> simp_all

/-- The outputs off before a transition. -/
def outputsOff (s : State) : State :=
  (List.finRange 2).foldl (fun s (d : Fin 2) => if diePresent s.opt (4 + d) then setBias d false s else s)
    (lampsOff 1 (lampsOff 0 (valvesOff s)))

/-- A transition programmed, with its wipe pending, before the reset. -/
def transitionMade (target : Nat) (from_ : Nat) (s : State) : State :=
  let s := modSec (fun e => { e with otp := (BitVec.ofNat 8 target, ~~~ (BitVec.ofNat 8 target)) }) s
  let s := if from_ = 4 && target = 2 then setF F.lcsInfoReentriesLeft (getF F.lcsInfoReentriesLeft s - 1) s else s
  setF F.lcsInfoWipePending 1 (setF F.lcsStateState target (setF F.lcsStateStateN (255 - target) s))

theorem changeLifecycle_eq (target : Nat) (s : State) : changeLifecycle target s =
    fullReset .lcsChange .inReset (transitionMade target (getF F.lcsStateState s) (outputsOff s)) := rfl

theorem transitionMade_shows {target : Nat} (htarget : target < 256) (from_ : Nat) (s : State) :
    (transitionMade target from_ s).sec.otp = (BitVec.ofNat 8 target, ~~~ (BitVec.ofNat 8 target)) ∧
    getF F.lcsStateState (transitionMade target from_ s) = target ∧ getF F.lcsInfoWipePending (transitionMade target from_ s) = 1 := by
  unfold transitionMade
  extract_lets t u
  have hu : u.sec = t.sec := by
    unfold u
    split <;> rfl
  refine ⟨congrArg SecPart.otp hu, ?_, getF_set_one (by decide) rfl _⟩
  rw [getF_setF_addr _ _ (by decide)]
  exact getF_setF_lt (by decide) htarget _

/-- What a transition leaves: the device in reset, its new state programmed and shown, the wipe pending. -/
theorem changeLifecycle_ends {target : Nat} (htarget : target < 256) (s : State) : (changeLifecycle target s).mode = .inReset ∧
    (changeLifecycle target s).sec.otp = (BitVec.ofNat 8 target, ~~~ (BitVec.ofNat 8 target)) ∧
    getF F.lcsStateState (changeLifecycle target s) = target ∧ getF F.lcsInfoWipePending (changeLifecycle target s) = 1 ∧
    getF F.rstCauseLcsChange (changeLifecycle target s) = 1 ∧ (changeLifecycle target s).units = Vector.replicate 30 ExUnit.reset := by
  obtain ⟨hotp, hstate, hwipe⟩ := transitionMade_shows htarget (getF F.lcsStateState s) (outputsOff s)
  rw [changeLifecycle_eq]
  generalize transitionMade target (getF F.lcsStateState s) (outputsOff s) = u at hotp hstate hwipe
  obtain ⟨hmode, hunits, -⟩ := fullReset_takenDown .lcsChange .inReset u
  obtain ⟨hsec, -⟩ := fullReset_kept .lcsChange .inReset u
  refine ⟨hmode, ?_, ?_, ?_, fullReset_cause .lcsChange .inReset u, hunits⟩
  · rw [hsec]
    exact hotp
  · exact (getF_congr (fullReset_lifecycle .lcsChange .inReset u (.inl rfl))).trans hstate
  · exact (getF_congr (fullReset_lifecycle .lcsChange .inReset u (.inr rfl))).trans hwipe

/-- A life-cycle block that passes begins the change with a full reset. -/
theorem authBlock_transitions {r : AuthReq} {rest : List AuthReq} {s : State} (hclk : clocked s = true)
    (hauths : s.sec.auths = r :: rest) (hok : authOk r (authFound r rest s) = true) (htype : authType r.data = 1) :
    ∃ t, exec .authBlockCheck s = .next t ∧ t.mode = .inReset ∧
      t.sec.otp = (BitVec.ofNat 8 (authTarget r.data), ~~~ (BitVec.ofNat 8 (authTarget r.data))) ∧
      getF F.lcsStateState t = authTarget r.data ∧ getF F.lcsInfoWipePending t = 1 ∧ getF F.rstCauseLcsChange t = 1 ∧
      t.units = Vector.replicate 30 ExUnit.reset := by
  obtain ⟨hreply, -, hsigner, -⟩ := authOk_says hok
  have hnone : r.reply = none := Option.isNone_iff_eq_none.mp (hreply.mpr htype)
  rw [htype] at hsigner
  have htarget := transitionOk_target hsigner
  have hexec := exec_authBlockCheck_of_waiting hclk hauths
  rw [if_pos hok, acceptAuth_of_transition htype, answerAuth, hnone] at hexec
  exact ⟨_, hexec, changeLifecycle_ends (by omega) _⟩

/-! ### O53 -/

/-- Settles O53, with a lemma for each request, block and check. -/
theorem securityEngine : Obligations.SecurityEngine := by
  unfold Obligations.SecurityEngine
  intro s ends same
  refine ⟨?_, ?_, ?_, fun h p hasks hlen => ?_, ?_, fun h p hasks hlen => ?_, fun h nonce hclk hattest =>
    attestReport_leaves hclk hattest⟩
  · intro h p img b i op off got hasks hlen
    exact ⟨fun hoff hgap hlast => chunk_discarded hasks hlen img hoff hgap hlast, fun hnext =>
      ⟨fun hmore => chunk_kept hasks hlen img hnext hmore, fun hend => chunk_last hasks hlen img hnext hend⟩⟩
  · intro hclk h img b hverify s1 check placed
    exact ⟨imageVerify_forged hclk hverify, fun hb hgood =>
      ⟨imageVerify_placed hclk hverify hb hgood, imageVerify_refused hclk hverify hb hgood⟩, imageVerify_loads hclk hverify⟩
  · intro u b hissues a n
    have hexec : exec (.sysLifecycle u b) s = .next (if a % 4 ≠ 0 ∨ storeSize u < a + 212 ∨ storeSize u < a + n then
        takeExc u 7 (srcImm b) s else pushAuth ⟨readBytes s.mem (storeBase u + a) n, none⟩ (advance u (srcImm b) s)) :=
      exec_sysLifecycle_of_issues hissues
    refine ⟨fun halign hfit hlong => ?_, fun hbad => by rw [hexec, if_pos hbad]⟩
    rw [if_neg (by omega)] at hexec
    obtain ⟨hunits, hmem, -, -, hshows, hsec⟩ := pushAuth_shows ⟨readBytes s.mem (storeBase u + a) n, none⟩ (advance u (srcImm b) s)
    exact ⟨_, hexec, hunits, hmem, hshows, hsec⟩
  · exact ⟨cmdAuth_waits hasks hlen, cmdAuth_refused hasks hlen⟩
  · intro hclk r rest hauths s0 s1 i done
    exact ⟨fun hok => ⟨authBlock_adds hclk hauths hok, authBlock_revokes hclk hauths hok, authBlock_transitions hclk hauths hok⟩,
      authBlock_refused hclk hauths⟩
  · exact ⟨cmdAttest_taken hasks hlen, cmdAttest_busy hasks hlen⟩

end Sys2Proof.Machine
end

section
/-!
SUPPORT. A cluster reset beside another store (R89, R234): why O45, which speaks of every state, does not hold.
-/

namespace Sys2Proof.Machine

/-! ### A transfer that reads past its store

A cluster reset lets the words of an OUT transfer leave the store, and a failing word of a DDR-backed page is fetched again as it
leaves. The statement names no bound for the transfers under way, so one of them may stand past its cluster's store; the word that is
fetched again is then another unit's. -/

/-- Hub core 0 runs; a transfer of cluster 0 stands at the first word of its data memory, which fails parity and has a good copy in
DDR5. -/
def strayed : State :=
  { setF (F.isaUStateState 26) 1 (setF F.rstDieDieUp 1 State.reset) with
    mem := [(2 ^ 40, 1)]
    memBad := [storeBase 26]
    backing := [(storeBase 26, 2 ^ 40)]
    xfers := [{ unit := 0, tag := 0, out := true, ep := 0x20, addr := 0, base := storeBase 26, len := 4, code := none }] }

/-- The operand of SYS.RESET that names cluster 0. -/
def resetCluster0 : Src := .imm 2

theorem strayed_issues : issues 26 .sys (srcImm resetCluster0) (srcRegs resetCluster0) strayed := by
  unfold issues
  decide +kernel

theorem strayed_inRange : resetBad (srcVal 26 resetCluster0 strayed) strayed = false := by decide +kernel

/-- The reset of cluster 0 changes the hub core's data memory. -/
theorem strayed_changes : readB (sysReset 26 resetCluster0 strayed).mem (storeBase 26) ≠ readB strayed.mem (storeBase 26) := by
  decide +kernel

/-! ### O45 -/

/-- Refutes O45: the reset of cluster 0 changes the data memory of hub core 0, where a transfer of that cluster stands past its
store. -/
theorem not_resetsAndReload : ¬ Obligations.ResetsAndReload := by
  unfold Obligations.ResetsAndReload
  rintro ⟨hresets, -⟩
  obtain ⟨-, -, hcluster⟩ := hresets 26 resetCluster0 strayed strayed_issues strayed_inRange (.sysResetCluster 26 resetCluster0)
    (by simp)
  obtain ⟨r, hexec, -, -, -, hstays, -⟩ := hcluster (by decide) 0 (by decide)
  obtain rfl : sysReset 26 resetCluster0 strayed = r := Host.Outcome.next.inj hexec
  obtain ⟨-, hmem⟩ := hstays 26 (by decide)
  exact strayed_changes (hmem (storeBase 26) (Nat.le_refl _) (by decide))

end Sys2Proof.Machine
end

section
/-!
SUPPORT. The steps from the signature check to the first instruction, and the wipes (R79–R81, R84, R93, R96, R235, R263, R379,
R391, R399).
-/

namespace Sys2Proof.Machine

/-- A fold that changes what `π` reads at one element alone changes it once. -/
theorem foldl_once {σ α γ : Type} {π : σ → γ} {f : γ → γ} {g : σ → α → σ} {x : α} {l : List α} (hx : x ∈ l) (hnodup : l.Nodup)
    (hother : ∀ s y, y ≠ x → π (g s y) = π s) (hown : ∀ s, π (g s x) = f (π s)) (s : σ) : π (l.foldl g s) = f (π s) := by
  have hskips (l : List α) (hl : x ∉ l) (s : σ) : π (l.foldl g s) = π s :=
    List.foldlRecOn (motive := fun t => π t = π s) l g rfl fun t ht y hy =>
      (hother t y fun e => hl (e ▸ hy)).trans ht
  obtain ⟨l₁, l₂, rfl⟩ := List.append_of_mem hx
  obtain ⟨-, hright, hdisjoint⟩ := List.nodup_append.mp hnodup
  have hl₁ : x ∉ l₁ := fun h => hdisjoint x h x List.mem_cons_self rfl
  rw [List.foldl_append, List.foldl_cons, hskips l₂ (List.nodup_cons.mp hright).1, hown, hskips l₁ hl₁]

/-! ### DDR5: training and the wipe (R84, R235) -/

theorem all_channels (p : DdrChan → Bool) (v : Vector DdrChan 4) : v.toList.all p = true ↔ ∀ c : Fin 4, p v[c] = true := by
  rw [List.all_eq_true]
  refine ⟨fun h c => h _ (by simp), fun h e he => ?_⟩
  obtain ⟨i, hi, rfl⟩ := Vector.mem_iff_getElem.mp (Vector.mem_toList_iff.mp he)
  exact h ⟨i, hi⟩

theorem not_all_channels (p : DdrChan → Bool) (v : Vector DdrChan 4) (c : Fin 4) (h : p v[c] = false) : v.toList.all p = false := by
  rw [Bool.eq_false_iff]
  intro hall
  exact Bool.false_ne_true (h.symm.trans ((all_channels p v).mp hall c))

theorem showWipe_frame (s : State) : showWipe s = { s with status := (showWipe s).status } := rfl

theorem showWipe_word {a : Nat} (ha : a ≠ F.rstDdrWipe) (s : State) : (showWipe s).word a = s.word a :=
  (setF_word_ne _ _ ha).trans (setF_word_ne _ _ ha)

theorem ddrSize_congr {s t : State} (h : t.word F.stcDdrSize = s.word F.stcDdrSize) (c : Fin 4) : ddrSize c t = ddrSize c s := by
  have hsize : getF F.stcDdrSizeSize t = getF F.stcDdrSizeSize s := getF_congr h
  rw [ddrSize, ddrSize, hsize]

/-- What training does to one channel. -/
def trainChannel (eyes : List (BitVec 16)) (s : State) (c : Fin 4) : State :=
  if ddrSize c s = 0 then modDdr c (fun e => { e with trained := true, wiped := true }) s
  else
    let e := nth 0 eyes c
    let s := setF (F.thmDdrMarginReadEye c) (e.toNat / 256) (setF (F.thmDdrMarginWriteEye c) (e.toNat % 256) s)
    let s := modDdr c (fun e => { e with trained := true }) s
    if (e.toNat / 256 < 16 || e.toNat % 256 < 16) && s.mode ≠ .park && !inShutdown s then wearOut 4 8 c s else s

/-- The size as the SPD hubs give it. -/
def shownSize (size : BitVec 8) (s : State) : State :=
  setF F.stcDdrSizeSize (if s.opt = .zt8 then size.toNat else size.toNat % 16) s

theorem exec_ddrTraining_of_untrained {size : BitVec 8} {eyes : List (BitVec 16)} {s : State} (hclk : clocked s = true) {c : Fin 4}
    (hc : (s.ddr[c]).trained = false) : exec (.ddrTrainingComplete size eyes) s =
      .next (showWipe ((List.finRange 4).foldl (trainChannel eyes) (shownSize size s))) := by
  rw [exec_ddrTrainingComplete, execDdrTrainingComplete, hclk, not_all_channels _ s.ddr c hc]
  rfl

/-- What wear of the DDR5 changes. -/
theorem wearOut_ddr_frame (kind index : Nat) (s : State) : wearOut 4 kind index s = { s with
    thm := (wearOut 4 kind index s).thm, status := (wearOut 4 kind index s).status, ev := (wearOut 4 kind index s).ev } := by
  unfold wearOut
  dsimp only
  split <;> rfl

theorem wearOut_ddr_word {a : Nat} (ha : a ≠ F.thmWear) (kind index : Nat) (s : State) : (wearOut 4 kind index s).word a = s.word a := by
  unfold wearOut
  dsimp only
  split
  · rfl
  · exact setF_word_ne (f := F.thmWearDdr) s 1 ha

theorem trainChannel_frame (eyes : List (BitVec 16)) (s : State) (c : Fin 4) : trainChannel eyes s c = { s with
    ddr := (trainChannel eyes s c).ddr, thm := (trainChannel eyes s c).thm, status := (trainChannel eyes s c).status
    ev := (trainChannel eyes s c).ev } := by
  unfold trainChannel
  split
  · rfl
  · dsimp only
    split
    · rw [wearOut_ddr_frame]
      rfl
    · rfl

/-- What training makes of one channel: its size, its state and its eyes. -/
def channelView (c : Fin 4) (s : State) : Nat × DdrChan × Nat × Nat :=
  (ddrSize c s, s.ddr[c], getF (F.thmDdrMarginReadEye c) s, getF (F.thmDdrMarginWriteEye c) s)

def trainedView (e : BitVec 16) (x : Nat × DdrChan × Nat × Nat) : Nat × DdrChan × Nat × Nat :=
  if x.1 = 0 then (x.1, { x.2.1 with trained := true, wiped := true }, x.2.2) else
    (x.1, { x.2.1 with trained := true }, e.toNat / 256, e.toNat % 256)

/-- A channel fitted with its eyes shown, and trained. -/
def eyesShown (e : BitVec 16) (c : Fin 4) (s : State) : State :=
  modDdr c (fun x => { x with trained := true })
    (setF (F.thmDdrMarginReadEye c) (e.toNat / 256) (setF (F.thmDdrMarginWriteEye c) (e.toNat % 256) s))

theorem trainChannel_of_absent {c : Fin 4} {s : State} (h : ddrSize c s = 0) (eyes : List (BitVec 16)) :
    trainChannel eyes s c = modDdr c (fun e => { e with trained := true, wiped := true }) s := by rw [trainChannel, if_pos h]

theorem trainChannel_of_fitted {c : Fin 4} {s : State} (h : ddrSize c s ≠ 0) (eyes : List (BitVec 16)) :
    trainChannel eyes s c = eyesShown (nth 0 eyes c) c s ∨
    trainChannel eyes s c = wearOut 4 8 c (eyesShown (nth 0 eyes c) c s) := by
  rw [trainChannel, if_neg h]
  dsimp only
  split
  · exact .inr rfl
  · exact .inl rfl

theorem thmDdrMargin_apart (c : Fin 4) : F.thmDdrMargin c ≠ F.thmWear ∧ F.stcDdrSize ≠ F.thmDdrMargin c ∧
    ∀ d : Fin 4, c ≠ d → F.thmDdrMargin c ≠ F.thmDdrMargin d := by
  revert c
  decide

theorem channelView_congr {c : Fin 4} {s t : State} (hsize : t.word F.stcDdrSize = s.word F.stcDdrSize) (hddr : t.ddr[c] = s.ddr[c])
    (hmargin : t.word (F.thmDdrMargin c) = s.word (F.thmDdrMargin c)) : channelView c t = channelView c s := by
  have hread : getF (F.thmDdrMarginReadEye c) t = getF (F.thmDdrMarginReadEye c) s := getF_congr hmargin
  have hwrite : getF (F.thmDdrMarginWriteEye c) t = getF (F.thmDdrMarginWriteEye c) s := getF_congr hmargin
  rw [channelView, channelView, hddr, hread, hwrite, ddrSize_congr hsize]

theorem channelView_wearOut (c d : Fin 4) (s : State) : channelView c (wearOut 4 8 d s) = channelView c s := by
  obtain ⟨hwear, -, -⟩ := thmDdrMargin_apart c
  exact channelView_congr (wearOut_ddr_word (by decide) ..) (by rw [wearOut_ddr_frame]) (wearOut_ddr_word hwear ..)

theorem channelView_eyesShown {c : Fin 4} {s : State} (h : ddrSize c s ≠ 0) (e : BitVec 16) :
    channelView c (eyesShown e c s) = trainedView e (channelView c s) := by
  obtain ⟨-, hsize, -⟩ := thmDdrMargin_apart c
  have heye : e.toNat < 65536 := e.isLt
  have hread : getF (F.thmDdrMarginReadEye c) (eyesShown e c s) = e.toNat / 256 :=
    getF_setF_lt (show 15 < 32 by decide) (show e.toNat / 256 < 256 by omega) _
  have hwrite : getF (F.thmDdrMarginWriteEye c) (eyesShown e c s) = e.toNat % 256 :=
    (getF_setF_bits _ _ (.inl (show 7 < 8 by decide))).trans
      (getF_setF_lt (show 7 < 32 by decide) (show e.toNat % 256 < 256 by omega) _)
  have hword : (eyesShown e c s).word F.stcDdrSize = s.word F.stcDdrSize := (setF_word_ne _ _ hsize).trans (setF_word_ne _ _ hsize)
  have hddr : (eyesShown e c s).ddr[c] = { s.ddr[c] with trained := true } := vmod_same ..
  have hview : (channelView c s).1 ≠ 0 := h
  rw [trainedView, if_neg hview, channelView, hread, hwrite, ddrSize_congr hword, hddr]
  rfl

/-- Training makes of a channel what its size and its eyes say. -/
theorem trainChannel_own (eyes : List (BitVec 16)) (c : Fin 4) (s : State) :
    channelView c (trainChannel eyes s c) = trainedView (nth 0 eyes c) (channelView c s) := by
  by_cases h : ddrSize c s = 0
  · have hview : (channelView c s).1 = 0 := h
    rw [trainChannel_of_absent h, trainedView, if_pos hview]
    exact Prod.ext rfl (Prod.ext (vmod_same ..) rfl)
  · rcases trainChannel_of_fitted h eyes with ht | ht
    · rw [ht, channelView_eyesShown h]
    · rw [ht, channelView_wearOut, channelView_eyesShown h]

/-- And leaves the others. -/
theorem trainChannel_other (eyes : List (BitVec 16)) {c d : Fin 4} (hne : d ≠ c) (s : State) :
    channelView c (trainChannel eyes s d) = channelView c s := by
  have hshown : channelView c (eyesShown (nth 0 eyes d) d s) = channelView c s := by
    obtain ⟨-, -, hother⟩ := thmDdrMargin_apart c
    obtain ⟨-, hsize, -⟩ := thmDdrMargin_apart d
    have hmargin := hother d hne.symm
    refine channelView_congr ?_ (vmod_ne _ _ hne.symm) ?_
    · exact (setF_word_ne _ _ hsize).trans (setF_word_ne _ _ hsize)
    · exact (setF_word_ne _ _ hmargin).trans (setF_word_ne _ _ hmargin)
  by_cases h : ddrSize d s = 0
  · rw [trainChannel_of_absent h]
    exact channelView_congr rfl (vmod_ne _ _ hne.symm) rfl
  · rcases trainChannel_of_fitted h eyes with ht | ht
    · rw [ht, hshown]
    · rw [ht, channelView_wearOut, hshown]

/-- What a channel shows that training has made so of a channel. -/
theorem trainedView_says {c : Fin 4} {e : BitVec 16} {s t : State} (h : channelView c t = trainedView e (channelView c s)) :
    (t.ddr[c]).trained = true ∧ (t.ddr[c]).wiped = ((s.ddr[c]).wiped || decide (ddrSize c t = 0)) ∧
    (ddrSize c t ≠ 0 → getF (F.thmDdrMarginReadEye c) t = e.toNat / 256 ∧ getF (F.thmDdrMarginWriteEye c) t = e.toNat % 256) := by
  by_cases h0 : ddrSize c s = 0
  · rw [trainedView, if_pos (show (channelView c s).1 = 0 from h0)] at h
    obtain ⟨hsize, hrest⟩ := Prod.mk.inj h
    obtain ⟨hddr, -⟩ := Prod.mk.inj hrest
    rw [hddr, show ddrSize c t = 0 from hsize.trans h0]
    exact ⟨rfl, by simp, fun hne => absurd rfl hne⟩
  · rw [trainedView, if_neg (show (channelView c s).1 ≠ 0 from h0)] at h
    obtain ⟨hsize, hrest⟩ := Prod.mk.inj h
    obtain ⟨hddr, hmargin⟩ := Prod.mk.inj hrest
    have hfitted : ddrSize c t ≠ 0 := fun h => h0 (hsize.symm.trans h)
    rw [hddr, decide_eq_false hfitted, Bool.or_false]
    exact ⟨rfl, rfl, fun _ => Prod.mk.inj hmargin⟩

theorem trainChannels_frame (eyes : List (BitVec 16)) (l : List (Fin 4)) (s : State) : l.foldl (trainChannel eyes) s = { s with
    ddr := (l.foldl (trainChannel eyes) s).ddr, thm := (l.foldl (trainChannel eyes) s).thm
    status := (l.foldl (trainChannel eyes) s).status, ev := (l.foldl (trainChannel eyes) s).ev } := by
  induction l generalizing s with
  | nil => rfl
  | cons c l ih =>
    rw [List.foldl_cons, ih (trainChannel eyes s c), trainChannel_frame]

/-- Training shows the size and trains every channel (R235). -/
theorem ddrTraining_ends {size : BitVec 8} {eyes : List (BitVec 16)} {s : State} (hclk : clocked s = true) {c : Fin 4}
    (hc : (s.ddr[c]).trained = false) : ∃ t, exec (.ddrTrainingComplete size eyes) s = .next t ∧
      getF F.stcDdrSizeSize t = (if s.opt = .zt8 then size.toNat else size.toNat % 16) ∧
      (∀ c : Fin 4, (t.ddr[c]).trained = true ∧ (t.ddr[c]).wiped = ((s.ddr[c]).wiped || decide (ddrSize c t = 0)) ∧
        (ddrSize c t ≠ 0 → getF (F.thmDdrMarginReadEye c) t = (nth 0 eyes c).toNat / 256 ∧
          getF (F.thmDdrMarginWriteEye c) t = (nth 0 eyes c).toNat % 256)) ∧
      t = { s with ddr := t.ddr, thm := t.thm, status := t.status, ev := t.ev } := by
  have hview (c : Fin 4) : channelView c (showWipe ((List.finRange 4).foldl (trainChannel eyes) (shownSize size s))) =
      trainedView (nth 0 eyes c) (channelView c (shownSize size s)) := by
    have hshow (t : State) : channelView c (showWipe t) = channelView c t := by
      have hmargin : F.thmDdrMargin c ≠ F.rstDdrWipe := by
        revert c
        decide
      exact channelView_congr (showWipe_word (by decide) t) rfl (showWipe_word hmargin t)
    rw [hshow]
    exact foldl_once (List.mem_finRange c) (List.nodup_finRange 4) (fun s d hd => trainChannel_other eyes hd s)
      (trainChannel_own eyes c) _
  have hsize : (showWipe ((List.finRange 4).foldl (trainChannel eyes) (shownSize size s))).word F.stcDdrSize =
      (shownSize size s).word F.stcDdrSize := by
    rw [showWipe_word (by decide)]
    refine foldl_keeps (fun t : State => t.word F.stcDdrSize) (fun t d => ?_) _ _
    obtain ⟨-, hne, -⟩ := thmDdrMargin_apart d
    have hshown : (eyesShown (nth 0 eyes d) d t).word F.stcDdrSize = t.word F.stcDdrSize :=
      (setF_word_ne _ _ hne).trans (setF_word_ne _ _ hne)
    by_cases h : ddrSize d t = 0
    · rw [trainChannel_of_absent h]
      rfl
    · rcases trainChannel_of_fitted h eyes with ht | ht
      · rw [ht, hshown]
      · rw [ht, wearOut_ddr_word (by decide), hshown]
  refine ⟨_, exec_ddrTraining_of_untrained hclk hc, ?_, fun c => ?_, ?_⟩
  · rw [getF_congr hsize]
    have hlt := size.isLt
    refine getF_setF_lt (by decide) (show _ < 256 from ?_) s
    split <;> omega
  · exact trainedView_says (s := shownSize size s) (hview c)
  · rw [showWipe_frame, trainChannels_frame]
    rfl

/-- All DDR5 passed by the wipe (R84). -/
def allWiped (s : State) : State := { s with
  ddr := Vector.ofFn fun c => { s.ddr[c] with wiped := true, passed := ddrSize c s }
  mem := s.mem.filter fun c => decide (c.1 < 2 ^ 40)
  memBad := s.memBad.filter fun a => decide (a < 2 ^ 40) }

/-- An address that is not listed reads zero. -/
theorem readB_unlisted {m : List Host.Cell} {a : Nat} (h : ∀ c ∈ m, c.1 ≠ a) : readB m a = 0 := by
  induction m with
  | nil => rfl
  | cons c m ih =>
    obtain ⟨hc, hm⟩ := List.forall_mem_cons.mp h
    rw [readB, if_neg hc.symm, ih hm]

theorem readB_below (m : List Host.Cell) (a : Nat) :
    readB (m.filter fun c => decide (c.1 < 2 ^ 40)) a = if a < 2 ^ 40 then readB m a else 0 := by
  split
  next h => exact readB_filter (fun x => decide_eq_true h) m
  next h =>
    refine readB_unlisted fun c hc e => h ?_
    exact e ▸ of_decide_eq_true (List.mem_filter.mp hc).2

theorem ddrWipe_ends {s : State} (hclk : clocked s = true) (htrained : ∀ c : Fin 4, (s.ddr[c]).trained = true)
    (howed : ∃ c : Fin 4, (s.ddr[c]).wiped = false) : ∃ t, exec .ddrWipeComplete s = .next t ∧
      (∀ a, readB t.mem a = if a < 2 ^ 40 then readB s.mem a else 0) ∧ (∀ c : Fin 4, (t.ddr[c]).wiped = true) ∧
      (∀ a ∈ t.memBad, a < 2 ^ 40) ∧ getF F.rstDdrWipeProgress t = 255 ∧
      t = { s with ddr := t.ddr, mem := t.mem, memBad := t.memBad, status := t.status } := by
  obtain ⟨c, hc⟩ := howed
  have hexec : exec .ddrWipeComplete s = .next (setF F.rstDdrWipeProgress 255 (showWipe (allWiped s))) := by
    rw [exec_ddrWipeComplete, execDdrWipeComplete, hclk, (all_channels _ s.ddr).mpr htrained, not_all_channels _ s.ddr c hc]
    rfl
  have hframe : setF F.rstDdrWipeProgress 255 (showWipe (allWiped s)) =
      { allWiped s with status := (setF F.rstDdrWipeProgress 255 (showWipe (allWiped s))).status } :=
    eq_of_sansStatus ((sansStatus_setF ..).trans ((sansStatus_setF ..).trans (sansStatus_setF ..)))
  refine ⟨_, hexec, readB_below s.mem, fun c => ?_, fun a ha => ?_, getF_setF_lt (by decide) (by decide) _, by
    rw [hframe]
    rfl⟩
  · change ((allWiped s).ddr[c]).wiped = true
    simp [allWiped]
  · exact of_decide_eq_true (List.mem_filter.mp ha).2

/-! ### The check of a slot's image (R80, R263, R391) -/

/-- A slot's image that the checks have failed, before another slot is chosen. -/
def slotMarked (s : State) : State :=
  let k := getF F.rstBootSlot s
  let s := setF (if k = 0 then F.rstBootSlotAFail else F.rstBootSlotBFail) 1 s
  raise 0x0210 0 0 0 { s with boot := { s.boot with failed := k :: s.boot.failed } }

theorem slotFails_eq (s : State) : slotFails s = chooseSlot (slotMarked s) := rfl

/-- The field that marks a slot. -/
def slotFail (k : Nat) : Fld := if k = 0 then F.rstBootSlotAFail else F.rstBootSlotBFail

theorem slotFail_fields (k : Nat) : (slotFail k).addr = F.rstBoot ∧ (slotFail k).hi < 32 ∧ (slotFail k).lo = (slotFail k).hi ∧
    (slotFail k).hi < 4 := by
  unfold slotFail
  split <;> decide

/-- Choosing a slot leaves what marks the failed ones. -/
theorem chooseSlot_slotFail (k : Nat) (s : State) : getF (slotFail k) (chooseSlot s) = getF (slotFail k) s := by
  obtain ⟨-, -, -, hhi⟩ := slotFail_fields k
  have hshown (f : Fld) (hf : 4 ≤ f.lo) (v : Nat) (s : State) : getF (slotFail k) (setF f v s) = getF (slotFail k) s :=
    getF_setF_bits s v (.inl (Nat.lt_of_lt_of_le hhi hf))
  have hraise (s : State) : getF (slotFail k) (raise 0x0211 0 0 0 s) = getF (slotFail k) s := rfl
  unfold chooseSlot
  split
  · rw [hshown F.rstBootStage (by decide), hshown F.rstBootSlot (by decide)]
  · rw [hraise, hshown F.rstBootStage (by decide), hshown F.rstBootSlot (by decide)]

theorem slotFails_ends (s : State) : (slotFails s).units = s.units ∧ (slotFails s).mem = s.mem ∧
    (slotFails s).boot.running = s.boot.running ∧ (slotFails s).boot.failed = getF F.rstBootSlot s :: s.boot.failed ∧
    getF (slotFail (getF F.rstBootSlot s)) (slotFails s) = 1 := by
  have hframe := eq_of_sansReport (sansReport_chooseSlot (slotMarked s))
  obtain ⟨-, hhi, hlo, -⟩ := slotFail_fields (getF F.rstBootSlot s)
  have hmark : getF (slotFail (getF F.rstBootSlot s)) (slotMarked s) = 1 := getF_set_one hhi hlo s
  refine ⟨?_, ?_, ?_, ?_, ?_⟩
  · rw [slotFails_eq, hframe]
    rfl
  · rw [slotFails_eq, hframe]
    rfl
  · rw [slotFails_eq, hframe]
    rfl
  · rw [slotFails_eq, hframe]
    rfl
  · rw [slotFails_eq, chooseSlot_slotFail, hmark]

section
variable {img : Image} {s : State} (hboot : booting s = true) (himg : bootImage s = some img) (hstage : getF F.rstBootStage s = 2)
include hboot himg hstage

theorem exec_signatureVerified_of_booting : exec .signatureVerified s = .next (
    if imageHolds img (checkSlots s) = false then slotFails (verifyFail img.signer.toNat (checkSlots s))
    else if (loaderCheck true img (clustersOf img) [] (checkSlots s)).1 = 0 then
      takeImage img (loaderCheck true img (clustersOf img) [] (checkSlots s)).2 (checkSlots s)
    else slotFails (loaderRefuse none (loaderCheck true img (clustersOf img) [] (checkSlots s)).1 (checkSlots s))) := by
  rw [exec_signatureVerified, execSignatureVerified, himg]
  simp only [hboot, hstage, Bool.not_true, Bool.false_or, ne_eq, not_true_eq_false, decide_false, Bool.false_eq_true, if_false,
    Bool.not_eq_true']
  congr 1
  split
  · rfl
  · generalize loaderCheck true img (clustersOf img) [] (checkSlots s) = x
    obtain ⟨n, pl⟩ := x
    cases n <;> rfl

/-- An image that fails a check marks its slot and changes nothing else of the device (R80). -/
theorem signature_fails (hbad : imageHolds img (checkSlots s) = false ∨
    (loaderCheck true img (clustersOf img) [] (checkSlots s)).1 ≠ 0) : ∃ t, exec .signatureVerified s = .next t ∧
      t.units = s.units ∧ t.mem = s.mem ∧ t.boot.running = s.boot.running ∧
      t.boot.failed = getF F.rstBootSlot s :: s.boot.failed ∧ getF (slotFail (getF F.rstBootSlot s)) t = 1 := by
  have hslots := eq_of_sansTold (sansTold_checkSlots s)
  have hends (t : State) (ht : sansReport t = sansReport (checkSlots s))
      (hword : t.word F.rstBoot = (checkSlots s).word F.rstBoot) : (slotFails t).units = s.units ∧ (slotFails t).mem = s.mem ∧
        (slotFails t).boot.running = s.boot.running ∧ (slotFails t).boot.failed = getF F.rstBootSlot s :: s.boot.failed ∧
        getF (slotFail (getF F.rstBootSlot s)) (slotFails t) = 1 := by
    have hslot : getF F.rstBootSlot t = getF F.rstBootSlot s := getF_congr (hword.trans (checkSlots_word (by decide) s))
    obtain ⟨hunits, hmem, hrunning, hfailed, hmark⟩ := slotFails_ends t
    rw [hslot] at hfailed hmark
    have hframe := eq_of_sansReport ht
    refine ⟨hunits.trans ?_, hmem.trans ?_, hrunning.trans ?_, hfailed.trans ?_, hmark⟩
    · rw [hframe, hslots]
    · rw [hframe, hslots]
    · rw [hframe, hslots]
    · rw [hframe, hslots]
  have hexec := exec_signatureVerified_of_booting hboot himg hstage
  by_cases hforged : imageHolds img (checkSlots s) = false
  · rw [if_pos hforged] at hexec
    exact ⟨_, hexec, hends _ rfl (setF_word_ne _ _ (by decide))⟩
  · rw [if_neg hforged, if_neg (hbad.resolve_left hforged)] at hexec
    exact ⟨_, hexec, hends _ (loaderRefuse_keeps ..) (loaderRefuse_word (by decide) ..)⟩

end

/-! ### An image that is placed (R263, R391) -/

/-- The unit of a hub core. -/
def hubUnit (c : Fin 4) : UnitId := ⟨26 + c.val, by omega⟩

theorem clusterUnit_ne_hubUnit (p : Fin 26) (c : Fin 4) : hubUnit c ≠ clusterUnit p := by
  intro h
  have := congrArg Fin.val h
  unfold hubUnit clusterUnit at this
  dsimp only at this
  omega

theorem placeClusters_hub (cs : List (Nat × ClusterCode)) (pl : List (Nat × Fin 26)) (c : Fin 4) (s : State) :
    (placeClusters cs pl s).units[hubUnit c] = s.units[hubUnit c] := by
  refine foldl_keeps (fun s : State => s.units[hubUnit c]) (fun s x => ?_) pl s
  split
  · rw [placeCluster_units]
    exact vmod_ne _ _ (clusterUnit_ne_hubUnit _ _)
  · rfl

/-- Each hub core takes its own section. -/
theorem placeHub_hub (img : Image) (c : Fin 4) (s : State) :
    (placeHub img s).units[hubUnit c] = startUnit (nth [] img.hub c) (nth none img.hubHandler c) [] := by
  have hclusters (s : State) : ((List.finRange 26).foldl (fun s (p : Fin 26) =>
      placeUnit (clusterUnit p) ExUnit.reset [] s) s).units[hubUnit c] = s.units[hubUnit c] := by
    refine foldl_keeps (fun s : State => s.units[hubUnit c]) (fun s p => ?_) _ s
    rw [placeUnit_units]
    exact vmod_ne _ _ (clusterUnit_ne_hubUnit _ _)
  rw [placeHub, hclusters]
  refine foldl_once (π := fun s : State => s.units[hubUnit c])
    (f := fun _ => startUnit (nth [] img.hub c) (nth none img.hubHandler c) []) (List.mem_finRange c) (List.nodup_finRange 4)
    (fun s d hd => ?_) (fun s => ?_) s
  · rw [placeUnit_units]
    refine vmod_ne _ _ fun h => hd (Fin.ext ?_)
    have := congrArg Fin.val h
    unfold hubUnit at this
    dsimp only at this
    omega
  · rw [placeUnit_units]
    exact vmod_same ..

theorem showImage_units (img : Image) (pl : List (Nat × Fin 26)) (s : State) : (showImage img pl s).units = s.units := rfl

theorem takeImage_hub (img : Image) (pl : List (Nat × Fin 26)) (c : Fin 4) (s : State) :
    (takeImage img pl s).units[hubUnit c] = startUnit (nth [] img.hub c) (nth none img.hubHandler c) [] := by
  rw [takeImage_eq, setF_units, imageTaken, setF_units, placeImage_eq, showImage_units, placeClusters_hub, placeHub_hub]

/-- An image that passes is placed, its digest kept, and the boot goes on. -/
theorem signature_passes {img : Image} {s : State} (hboot : booting s = true) (himg : bootImage s = some img)
    (hstage : getF F.rstBootStage s = 2) (hgood : imageHolds img (checkSlots s) = true)
    (hcheck : (loaderCheck true img (clustersOf img) [] (checkSlots s)).1 = 0) : ∃ t, exec .signatureVerified s = .next t ∧
      t.boot.running = some img ∧ t.boot.place = (loaderCheck true img (clustersOf img) [] (checkSlots s)).2 ∧
      t.sec.imageHash = sha384 img.raw ∧ getF F.isaLoadVersion t = img.version.toNat ∧
      getF F.rstBootStage t = (if flag F.rstBootIndexReady s then 4 else 3) ∧
      ∀ c : Fin 4, t.units[26 + c.val] = startUnit (nth [] img.hub c) (nth none img.hubHandler c) [] := by
  have hexec := exec_signatureVerified_of_booting hboot himg hstage
  rw [if_neg (by simp [hgood]), if_pos hcheck] at hexec
  generalize (loaderCheck true img (clustersOf img) [] (checkSlots s)).2 = pl at hexec
  have hframe := eq_of_sansPlaced (takeImage_keeps img pl (checkSlots s))
  have hword : (imageTaken img pl (checkSlots s)).word F.rstBoot = s.word F.rstBoot :=
    (imageTaken_word (by decide) (by decide) ..).trans (checkSlots_word (by decide) s)
  have hready : flag F.rstBootIndexReady (imageTaken img pl (checkSlots s)) = flag F.rstBootIndexReady s := by
    rw [flag, flag, getF_congr hword]
  refine ⟨_, hexec, by rw [hframe], by rw [hframe], by rw [hframe], ?_, ?_, fun c => takeImage_hub img pl c _⟩
  · rw [takeImage_eq, getF_setF_addr _ _ (by decide), imageTaken, getF_setF_addr _ _ (by decide), placeImage_eq]
    exact getF_setF_lt (by decide) img.version.isLt _
  · rw [takeImage_eq, hready]
    refine getF_setF_lt (by decide) ?_ _
    split <;> decide

/-! ### The index and the models (R79, R81, R379) -/

theorem aside_foldl {α : Type} {a : Nat} {g : State → α → State} (h : ∀ s x, aside a (g s x) = aside a s) (l : List α) (s : State) :
    aside a (l.foldl g s) = aside a s := foldl_keeps (aside a) h l s

section
variable {a : Nat} (ha : page a ≠ 0x80)
include ha

theorem aside_noteConflict (hint : page a ≠ 0xA0) (p k : Nat) (s : State) : aside a (noteConflict p k s) = aside a s := by
  have hshown : aside a (setF F.nvsLastConflictPartition p (setF F.nvsLastConflictKey k (setF F.nvsFaultConflict 1
      (bump F.nvsConflictConflicts s)))) = aside a s := by
    rw [aside_setF_page ha rfl, aside_setF_page ha rfl, aside_setF_page ha rfl]
    exact aside_setF_page ha rfl _ s
  unfold noteConflict
  dsimp only
  split
  · exact (aside_setF_page hint rfl _ _).trans hshown
  · exact hshown

theorem aside_showPw (s : State) : aside a (showPw s) = aside a s := by
  unfold showPw
  rw [aside_setF_page ha rfl, aside_setF_page ha rfl]

/-- The index moves nothing beside the record store and its window. -/
theorem aside_buildIndex (hint : page a ≠ 0xA0) (s : State) : aside a (buildIndex s) = aside a s := by
  have haccess (w : Word) (t : State) : aside a (t.setWord F.nvsAccess w) = aside a t := by
    unfold aside
    rw [word_setWord_ne t (fun e => ha (by rw [e]; rfl))]
    rfl
  unfold buildIndex
  extract_lets s1 s2 s3 bad s4 u s5
  have h1 : aside a s1 = aside a s := aside_setF_page ha rfl _ s
  have hconflict (t : State) (x : Nat × Nat) : aside a (noteConflict x.1 x.2 t) = aside a t := aside_noteConflict ha hint x.1 x.2 t
  have h4 : aside a s4 = aside a s3 := by rw [aside_foldl hconflict]
  rw [aside_showNvs ha, aside_showPw ha, aside_setF_page ha rfl, aside_setF_page ha rfl, haccess, h4]
  exact h1

end

theorem aside_loadMargin {a : Nat} (hpwr : a ≠ F.pwrVcoreSet) (hage : ∀ d : Fin 8, a ≠ F.thmDieAge d) (s : State) :
    aside a (loadMargin s) = aside a s := by
  have hstep (v : Nat) (t : State) : aside a (setF F.pwrVcoreSetStep v t) = aside a t := aside_setF v hpwr t
  have hages (v : Nat) (d : Fin 8) (t : State) : aside a (setF (F.thmDieAgeAge d) v t) = aside a t := aside_setF v (hage d) t
  unfold loadMargin
  dsimp only
  split
  · split
    · exact hstep 0 s
    · rfl
  · next b _ =>
    have hstep' (t : State) (d : Fin 8) : aside a (setF (F.thmDieAgeAge d) (u16At b (3 + 4 * d.val)) t) = aside a t := hages _ d t
    have hkeep (t : State) (m : ThmPart) : aside a { t with thm := m } = aside a t := rfl
    rw [hkeep, aside_foldl hstep']
    split
    · exact hstep _ s
    · rfl

/-- The state once the index stands. -/
def indexed (s : State) : State :=
  let s := loadMargin (buildIndex s)
  setF F.nvsIndexTimeUs (min 65535 ((s.time - s.boot.releasedAt) / 1000)) (setF F.rstBootIndexReady 1 s)

theorem aside_loadMargin_rstBoot (s : State) : aside F.rstBoot (loadMargin (buildIndex s)) = aside F.rstBoot s :=
  (aside_loadMargin (by decide) (by decide) _).trans (aside_buildIndex (by decide) (by decide) s)

theorem indexed_frame (s : State) : indexed s = { loadMargin (buildIndex s) with status := (indexed s).status } :=
  eq_of_sansStatus ((sansStatus_setF ..).trans (sansStatus_setF ..))

theorem indexed_shows (s : State) : (indexed s).units = s.units ∧ (indexed s).mode = s.mode ∧
    getF F.rstBootIndexReady (indexed s) = 1 ∧ getF F.rstBootStage (indexed s) = getF F.rstBootStage s := by
  have haside := aside_loadMargin_rstBoot s
  refine ⟨?_, ?_, ?_, ?_⟩
  · rw [indexed_frame]
    exact congrArg Aside.units haside
  · rw [indexed_frame]
    exact congrArg Aside.mode haside
  · exact (getF_setF_addr _ _ (by decide)).trans (getF_setF_lt (by decide) (by decide) _)
  · calc getF F.rstBootStage (indexed s) = getF F.rstBootStage (setF F.rstBootIndexReady 1 (loadMargin (buildIndex s))) :=
          getF_setF_addr _ _ (by decide)
      _ = getF F.rstBootStage (loadMargin (buildIndex s)) := getF_setF_bits _ _ (.inr (by decide))
      _ = getF F.rstBootStage s := getF_of_aside haside

section
variable {s : State} (hboot : booting s = true)
include hboot

theorem mode_of_booting : s.mode = .boot := by
  unfold booting at hboot
  simp only [Bool.and_eq_true, decide_eq_true_eq] at hboot
  exact hboot.2

/-- The index becomes ready, and a boot that waited for it alone goes on. -/
theorem index_ready (hindex : flag F.rstBootIndexReady s = false) (hwipe : flag F.lcsInfoWipePending s = false) :
    ∃ t, exec .indexComplete s = .next t ∧ getF F.rstBootIndexReady t = 1 ∧ t.units = s.units ∧ t.mem = s.mem ∧ t.mode = .boot ∧
      getF F.rstBootStage t = (if getF F.rstBootStage s = 3 then 4 else getF F.rstBootStage s) := by
  obtain ⟨hunits, hmode, hready, hstage⟩ := indexed_shows s
  have hexec : exec .indexComplete s =
      .next (if getF F.rstBootStage (indexed s) = 3 then setF F.rstBootStage 4 (indexed s) else indexed s) := by
    rw [exec_indexComplete, execIndexComplete, hboot, hindex, hwipe]
    rfl
  refine ⟨_, hexec, ?_⟩
  have hmem := execIndexComplete_mem s _ hexec
  rw [hstage] at hmem ⊢
  split
  · next h3 =>
    rw [if_pos h3] at hmem
    have hstepMode (t : State) : (setF F.rstBootStage 4 t).mode = t.mode := rfl
    refine ⟨?_, ?_, hmem, ?_, getF_setF_lt (by decide) (by decide) _⟩
    · exact (getF_setF_bits _ _ (.inl (by decide))).trans hready
    · rw [setF_units, hunits]
    · rw [hstepMode, hmode, mode_of_booting hboot]
  · next h3 =>
    rw [if_neg h3] at hmem
    exact ⟨hready, hunits, hmem, hmode.trans (mode_of_booting hboot), hstage⟩

end

/-- What loading the models leaves: all but the models, the trims and what is shown of them. -/
def loadView (s : State) : Vector ExUnit 30 × Mode × Opt × NvsPart := (s.units, s.mode, s.opt, s.nvs)

theorem loadView_status (s : State) (x) : loadView { s with status := x } = loadView s := rfl
theorem loadView_cal (s : State) (x) : loadView { s with cal := x } = loadView s := rfl
theorem loadView_corr (s : State) (x) : loadView { s with corr := x } = loadView s := rfl
theorem loadView_ev (s : State) (x) : loadView { s with ev := x } = loadView s := rfl
theorem loadView_ejt (s : State) (x) : loadView { s with ejt := x } = loadView s := rfl

theorem hasModel_congr {s t : State} (h : t.nvs = s.nvs) (d : Fin 2) : hasModel d t = hasModel d s := by
  have hentry (row col : Nat) : factoryEntry d row col t = factoryEntry d row col s := by rw [factoryEntry, factoryEntry, h]
  rw [hasModel, hasModel]
  simp only [hentry]

section
variable (d : Fin 2) (s : State)

theorem loadModel_view (mine : Nat → Bool) : loadView (loadModel d mine s) = loadView s := by
  have hcount (t : State) : loadView (countBad t) = loadView t := loadView_status t _
  have hraise (code kind index detail : Nat) (t : State) : loadView (raise code kind index detail t) = loadView t := loadView_ev t _
  have hmod (f : CorrDie → CorrDie) (t : State) : loadView (modCorr d f t) = loadView t := loadView_corr t _
  unfold loadModel
  dsimp only
  rw [hcount]
  split
  · rw [hmod, loadView_corr]
  · rw [hraise, hmod, loadView_corr]

theorem loadModel_dies (mine : Nat → Bool) : (loadModel d mine s).corr.dies =
    vmod s.corr.dies d fun e => { e with noModel := !hasModel d s } := by
  unfold loadModel
  dsimp only
  split <;> rfl

/-- One learned lag is taken up, and shown. -/
def takeLag (b : List Byte) (s : State) (i : Nat) : State :=
  let v : Valve := Fin.ofNat 128 (64 * d.val + i)
  let x := u16At b (2 * v.val)
  showChan v (if x = 0xFFFF then s else modChan v (fun c => { c with lag := some (16 * (x : Int)) }) s)

theorem showChan_frame (v : Valve) : showChan v s = { s with status := (showChan v s).status } := by
  refine eq_of_sansStatus ?_
  unfold showChan
  simp only [sansStatus_setF]

theorem takeLag_view (b : List Byte) (i : Nat) : loadView (takeLag d b s i) = loadView s ∧ (takeLag d b s i).corr = s.corr := by
  unfold takeLag
  dsimp only
  rw [showChan_frame, loadView_status]
  split
  · exact ⟨rfl, rfl⟩
  · exact ⟨loadView_ejt s _, rfl⟩

/-- The channels' trims of an actuator die as its records give them. -/
def csnTrims : List Int :=
  match record 2 (0x218 + d.val) s, record 0 (0x526 + d.val) s with
  | some b, _ => (List.range 64).map fun i => i8At b i
  | none, some f => (List.range 64).map fun i => i8At f i
  | none, none => List.replicate 64 0

theorem loadActuatorTrims_cases :
    loadActuatorTrims d s = modCal (fun c => { c with csn := c.csn.set d (csnTrims d s), csnNext := c.csnNext.set d none }) s ∨
    ∃ b, loadActuatorTrims d s = (List.range 64).foldl (takeLag d b)
      (modCal (fun c => { c with csn := c.csn.set d (csnTrims d s), csnNext := c.csnNext.set d none }) s) := by
  unfold loadActuatorTrims
  dsimp only
  split
  · exact .inl rfl
  · next b _ => exact .inr ⟨b, rfl⟩

theorem loadActuatorTrims_view : loadView (loadActuatorTrims d s) = loadView s ∧ (loadActuatorTrims d s).corr = s.corr := by
  rcases loadActuatorTrims_cases d s with h | ⟨b, h⟩
  · rw [h]
    exact ⟨rfl, rfl⟩
  · rw [h]
    exact ⟨foldl_keeps loadView (fun t i => (takeLag_view d t b i).1) _ _,
      foldl_keeps State.corr (fun t i => (takeLag_view d t b i).2) _ _⟩

theorem loadFocalTrims_frame : loadFocalTrims d s = { s with cal := (loadFocalTrims d s).cal } := rfl

/-- A focal die that is fitted loads its models and its trims. -/
def loadFocal : State := if diePresent s.opt (4 + d) then loadFocalTrims d (loadModel d (fun _ => true) s) else s

theorem loadFocal_view : loadView (loadFocal d s) = loadView s := by
  unfold loadFocal
  split
  · rw [loadFocalTrims_frame, loadView_cal]
    exact loadModel_view d s _
  · rfl

theorem loadFocal_dies : (loadFocal d s).corr.dies =
    if diePresent s.opt (4 + d) then vmod s.corr.dies d fun e => { e with noModel := !hasModel d s } else s.corr.dies := by
  unfold loadFocal
  split
  · rw [loadFocalTrims_frame]
    dsimp only
    exact loadModel_dies d s _
  · rfl

/-- What the load does for the dies of one number. -/
def loadDie (s : State) (d : Fin 2) : State :=
  let s := loadFocal d s
  if diePresent s.opt (6 + d) then loadActuatorTrims d s else s

theorem loadAll_eq : loadAll s = loadSadcTrims (loadDie (loadDie s 0) 1) := rfl

theorem loadDie_cases : loadDie s d = loadFocal d s ∨ loadDie s d = loadActuatorTrims d (loadFocal d s) := by
  unfold loadDie
  dsimp only
  split
  · exact .inr rfl
  · exact .inl rfl

theorem loadDie_view : loadView (loadDie s d) = loadView s := by
  rcases loadDie_cases d s with h | h
  · rw [h, loadFocal_view]
  · rw [h, (loadActuatorTrims_view ..).1, loadFocal_view]

theorem loadDie_dies : (loadDie s d).corr.dies =
    if diePresent s.opt (4 + d) then vmod s.corr.dies d fun e => { e with noModel := !hasModel d s } else s.corr.dies := by
  rcases loadDie_cases d s with h | h
  · rw [h, loadFocal_dies]
  · rw [h, (loadActuatorTrims_view ..).2, loadFocal_dies]

end

theorem loadSadcTrims_view (s : State) : loadView (loadSadcTrims s) = loadView s ∧ (loadSadcTrims s).corr = s.corr := by
  unfold loadSadcTrims
  split <;> exact ⟨rfl, rfl⟩

/-- A focal die without a factory record runs without a model (R81). -/
theorem loadAll_noModel {d : Fin 2} {s : State} (h : diePresent s.opt (4 + d) = true) :
    ((loadAll s).corr.dies[d]).noModel = !hasModel d s := by
  have hview := loadDie_view 0 s
  have hopt : (loadDie s 0).opt = s.opt := congrArg (·.2.2.1) hview
  have hmodel : hasModel 1 (loadDie s 0) = hasModel 1 s := hasModel_congr (congrArg (·.2.2.2) hview) 1
  rw [loadAll_eq, (loadSadcTrims_view _).2, loadDie_dies, hopt, hmodel]
  rcases (by omega : d = 0 ∨ d = 1) with rfl | rfl
  · have hfirst : ((loadDie s 0).corr.dies[(0 : Fin 2)]).noModel = !hasModel 0 s := by
      rw [loadDie_dies, if_pos h, vmod_same]
    split
    · rw [vmod_ne _ _ (by decide), hfirst]
    · exact hfirst
  · rw [if_pos h, vmod_same]

theorem loadCounts_frame (d : Fin 2) (s : State) : loadCounts d s = { s with status := (loadCounts d s).status } := by
  refine eq_of_sansStatus ?_
  unfold loadCounts
  dsimp only
  refine (sansStatus_foldl (fun t n => ?_) _ _).trans (sansStatus_foldl (fun t v => ?_) _ _)
  · exact sansStatus_setF ..
  · exact sansStatus_setF ..

/-- The state with the models, the trims and the counts of the dies that are up. -/
def loaded (s : State) : State :=
  (List.finRange 2).foldl (fun s (d : Fin 2) => if adUp d s then loadCounts d s else s) (loadAll s)

theorem loaded_frame (s : State) : loaded s = { loadAll s with status := (loaded s).status } := by
  refine eq_of_sansStatus (sansStatus_foldl (fun t d => ?_) _ _)
  rw [sansStatus_ite, loadCounts_frame]
  exact ite_self _

theorem loadAll_view (s : State) : loadView (loadAll s) = loadView s := by
  rw [loadAll_eq, (loadSadcTrims_view _).1, loadDie_view, loadDie_view]

/-- The models become ready, and a focal die without one is marked. -/
theorem models_ready {s : State} (hboot : booting s = true) (hindex : flag F.rstBootIndexReady s = true)
    (hmodel : flag F.rstBootModelReady s = false) : ∃ t, exec .pixelModelLoaded s = .next t ∧
      getF F.rstBootModelReady t = 1 ∧ t.units = s.units ∧ t.mem = s.mem ∧ t.mode = .boot ∧
      ∀ d : Fin 2, diePresent s.opt (4 + d) = true → (t.corr.dies[d]).noModel = !(hasModel d s) := by
  have hexec : exec .pixelModelLoaded s = .next (setF F.rstBootModelReady 1 (loaded s)) := by
    rw [exec_pixelModelLoaded, execPixelModelLoaded, hboot, hindex, hmodel]
    rfl
  have hview := loadAll_view s
  refine ⟨_, hexec, getF_setF_lt (by decide) (by decide) _, ?_, execPixelModelLoaded_mem s _ hexec, ?_, fun d hd => ?_⟩
  · rw [setF_units, loaded_frame]
    exact congrArg (·.1) hview
  · refine Eq.trans ?_ (mode_of_booting hboot)
    have hmode : (setF F.rstBootModelReady 1 (loaded s)).mode = (loaded s).mode := rfl
    rw [hmode, loaded_frame]
    exact congrArg (·.2.1) hview
  · have hcorr : (setF F.rstBootModelReady 1 (loaded s)).corr = (loaded s).corr := rfl
    rw [hcorr, loaded_frame]
    exact loadAll_noModel hd

/-! ### What stopping the outputs leaves (R427, R428) -/

/-- `t` follows `s` with the hub as it was, the word at `a` as it was, and its events behind those that waited. -/
structure Follows (a : Nat) (s t : State) : Prop where
  word : t.word a = s.word a
  mode : t.mode = s.mode
  units : t.units = s.units
  sec : t.sec = s.sec
  alive : t.pins.alive = s.pins.alive
  queue : s.ev.queue <+: t.ev.queue

namespace Follows

variable {a : Nat} {s t u : State}

theorem refl (a : Nat) (s : State) : Follows a s s := ⟨rfl, rfl, rfl, rfl, rfl, List.prefix_rfl⟩

theorem trans (h : Follows a s t) (h' : Follows a t u) : Follows a s u :=
  ⟨h'.word.trans h.word, h'.mode.trans h.mode, h'.units.trans h.units, h'.sec.trans h.sec, h'.alive.trans h.alive,
    h.queue.trans h'.queue⟩

theorem foldl {α : Type} {g : State → α → State} (h : ∀ s x, Follows a s (g s x)) (l : List α) (s : State) :
    Follows a s (l.foldl g s) :=
  List.foldlRecOn (motive := fun t => Follows a s t) l g (refl a s) fun _ ht x _ => ht.trans (h _ x)

theorem ite {c : Prop} [Decidable c] (h : Follows a s t) (h' : Follows a s u) : Follows a s (if c then t else u) := by
  split
  · exact h
  · exact h'

theorem setF {f : Fld} (h : a ≠ f.addr) (v : Nat) (s : State) : Follows a s (setF f v s) :=
  ⟨setF_word_ne _ _ h, rfl, rfl, rfl, rfl, List.prefix_rfl⟩

theorem raise (a code kind index detail : Nat) (s : State) : Follows a s (raise code kind index detail s) :=
  ⟨rfl, rfl, rfl, rfl, rfl, List.prefix_append ..⟩

theorem modChan (a : Nat) (v : Valve) (g : Chan → Chan) (s : State) : Follows a s (modChan v g s) :=
  ⟨rfl, rfl, rfl, rfl, rfl, List.prefix_rfl⟩

theorem modLum (a : Nat) (d : Fin 2) (g : LumDie → LumDie) (s : State) : Follows a s (modLum d g s) :=
  ⟨rfl, rfl, rfl, rfl, rfl, List.prefix_rfl⟩

/-- A field of another window. -/
theorem setF_page {f : Fld} {p : Nat} (h : page a ≠ p) (hf : page f.addr = p) (v : Nat) (s : State) : Follows a s (Machine.setF f v s) :=
  setF (fun e => h (by rw [e, hf])) v s

end Follows

section
variable {a : Nat} (ha : page a ≠ 0x60)
include ha

/-- A field of a valve. -/
theorem Follows.setF_valve {f : Fld} {c : Nat} {v : Valve} (hf : f.addr = c + 0x8000 * (valveDie v).val + 0x20 * valveChan v)
    (hc : page c = 0x60 ∧ c % 0x10000 < 0x1020) (x : Nat) (s : State) : Follows a s (Machine.setF f x s) := by
  have hk := valveChan_lt v
  refine Follows.setF_page ha ?_ x s
  unfold page at hc ⊢
  omega

theorem follows_showChan (v : Valve) (s : State) : Follows a s (showChan v s) := by
  unfold showChan
  exact (((Follows.setF_valve ha rfl (by decide) _ _).trans (Follows.setF_valve ha rfl (by decide) _ _)).trans
    (Follows.setF_valve ha rfl (by decide) _ _)).trans (Follows.setF_valve ha rfl (by decide) _ _)

theorem follows_showDie (d : Fin 2) (s : State) : Follows a s (showDie d s) := by
  have hpage : page (F.ejtDieState d) = 0x60 := by
    unfold page F.ejtDieState
    omega
  exact (Follows.setF_page ha hpage _ _).trans (Follows.setF_page ha hpage _ _)

theorem follows_ageingCheck (v : Valve) (s : State) : Follows a s (ageingCheck v s) := by
  have hset (x : Nat) (t : State) : Follows a t (setF (F.ejtVStateAgeing (valveDie v) (valveChan v)) x t) :=
    Follows.setF_valve ha rfl (by decide) x t
  unfold ageingCheck
  dsimp only
  refine .ite (hset 0 s) (.ite (.ite (.refl a s) ((hset 1 s).trans (.raise ..))) (.ite (hset 0 s) (.refl a s)))

theorem follows_endSearch (v : Valve) (lag : Option Nat) (s : State) : Follows a s (endSearch v lag s) := by
  have hresult (x : Nat) (t : State) : Follows a t (setF (F.ejtVStateLastResult (valveDie v) (valveChan v)) x t) :=
    Follows.setF_valve ha rfl (by decide) x t
  have hdip (x : Nat) (t : State) : Follows a t (setF (F.ejtVDipLastDip (valveDie v) (valveChan v)) x t) :=
    Follows.setF_valve ha rfl (by decide) x t
  have hcount (t : State) : Follows a t (bump (F.ejtVCountNoMotion (valveDie v) (valveChan v)) t) :=
    Follows.setF_valve ha rfl (by decide) _ t
  unfold endSearch
  dsimp only
  split
  · exact .refl a s
  · refine .ite (.refl a s) ?_
    split
    · exact ((((Follows.modChan a v _ s).trans (hdip _ _)).trans (hresult _ _)).trans (follows_showChan ha v _)).trans
        (follows_ageingCheck ha v _)
    · have hnone (t : State) (h : Follows a s t) (n : Nat) : Follows a s (if n = 16 then raise 0x3006 4 v 0 t else t) :=
        .ite (h.trans (.raise ..)) h
      exact hnone _ (((Follows.modChan a v _ s).trans (hresult _ _)).trans (hcount _)) _

theorem follows_endRun (v : Valve) (quench : Bool) (s : State) : Follows a s (endRun v quench s) := by
  have hawait (t : State) : Follows a t (coilAwait v t) := Follows.modChan a v _ t
  exact ((((follows_endSearch ha v _ s).trans (hawait _)).trans (Follows.modChan a v _ _)).trans (follows_showChan ha v _)).trans
    (follows_showDie ha _ _)

theorem follows_stopRuns (d : Fin 2) (s : State) : Follows a s (stopRuns d s) := by
  have hend (t : State) (v : Valve) : Follows a t (if energised v t then endRun v false t else t) :=
    .ite (follows_endRun ha v false t) (.refl a t)
  have hclear (t : State) (v : Valve) : Follows a t (modChan v (fun c => { c with quench := false, clamp := none }) t) :=
    .modChan a v _ t
  exact ((Follows.foldl hend _ s).trans (Follows.foldl hclear _ _)).trans (follows_showDie ha d _)

end

theorem follows_lampsOff {a : Nat} (ha : page a ≠ 0x70) (d : Fin 2) (s : State) : Follows a s (lampsOff d s) := by
  have hstop (n : Strng) (t : State) : Follows a t (beginStop n (modStr n (fun e => { e with decaying := true, sw := false }) t)) :=
    ((Follows.modLum a _ _ t).trans (Follows.modLum a _ _ _)).trans (Follows.modLum a _ _ _)
  have hstring (t : State) (n : Strng) : Follows a t (stopString n t) := by
    have hset := (Follows.setF_page (f := F.lumSStateRunning (strDie n) (strIdx n)) ha (page_lumSState n) 0 t).trans
      (Follows.setF_page (f := F.lumSStateHeadroom (strDie n) (strIdx n)) ha (page_lumSState n) 0 _)
    exact .ite (hset.trans (hstop n _)) hset
  exact (Follows.modLum a d _ s).trans (Follows.foldl hstring _ _)

section
variable {a : Nat} (ha : page a ≠ 0x10)
include ha

theorem follows_setBias_off (d : Fin 2) (s : State) : Follows a s (setBias d false s) :=
  (Follows.setF_page (f := F.fpdStateBiasOn d) ha (page_fpdState d) 0 s).trans
    (Follows.setF_page (f := F.fpdStateSettling d) ha (page_fpdState d) 0 _)

theorem follows_takeShutter (d : Fin 2) (s : State) : Follows a s (takeShutter d s) :=
  ((Follows.setF_page (f := F.fpdShutterCfgHold d) ha (page_fpdShutterCfg d) _ s).trans
    (Follows.setF_page (f := F.fpdShutterCfgReopen d) ha (page_fpdShutterCfg d) _ _)).trans
    (Follows.setF_page (f := F.fpdShutterCfgTravel d) ha (page_fpdShutterCfg d) _ _)

theorem follows_releaseShutter (d : Fin 2) (s : State) : Follows a s (releaseShutter d s) :=
  .ite ((follows_takeShutter ha d s).trans (Follows.setF_page (f := F.fpdStateShutter d) ha (page_fpdState d) _ _)) (.refl a s)

theorem follows_releaseShutters (s : State) : Follows a s (releaseShutters s) := by
  have htaint (d : Fin 2) (t : State) : Follows a t (endShutTaint d t) :=
    .ite (.refl a t) ⟨rfl, rfl, rfl, rfl, rfl, List.prefix_rfl⟩
  exact Follows.foldl (fun t d => .ite ((follows_releaseShutter ha d t).trans (htaint d _)) (.refl a t)) _ s

theorem follows_biasOff (s : State) : Follows a s
    ((List.finRange 2).foldl (fun s (d : Fin 2) => if diePresent s.opt (4 + d) then setBias d false s else s) (releaseShutters s)) :=
  (follows_releaseShutters ha s).trans (Follows.foldl (fun t d => .ite (follows_setBias_off ha d t) (.refl a t)) _ _)

end

/-- The words that a freeze leaves: those of the reset and of the security engine. -/
def hubWord (a : Nat) : Prop := page a = 2 ∨ page a = 0x88

/-- The runs, the lamps, the shutters and the bias off, as a freeze begins. -/
def darkened (s : State) : State :=
  (List.finRange 2).foldl (fun s (d : Fin 2) => if diePresent s.opt (4 + d) then setBias d false s else s)
    (releaseShutters (lampsOff 1 (lampsOff 0 (stopRuns 1 (stopRuns 0 s)))))

/-- The links cut, and the freeze shown. -/
def frozenShown (src : Nat) (s : State) : State :=
  setF F.intStateFrozen 1 (setF F.intStateSafe 1 (setF F.intStateSource src (cutLsync (setF F.lnkPortVgdUp 0 (setF F.lnkPortEthUp 0 s)))))

/-- The times of the freeze kept, and the ports at rest. -/
def clocksStopped (s : State) : State :=
  { s with
    freeze := { s.freeze with since := some (s.tick, s.time), requested := none, resumeRefused := false }
    pins := { s.pins with ethTx := false, vgdTx := false }
    net := { s.net with vgd := Vector.replicate 2 VgdPort.reset, ptp := Vector.replicate 2 PtpPort.reset } }

theorem freezeNow_eq (src : Nat) (s : State) : freezeNow src s = showStratum (clocksStopped (frozenShown src (darkened s))) := rfl

theorem since_freezeNow (src : Nat) (s : State) : (freezeNow src s).freeze.since.isSome = true := by
  rw [freezeNow_eq]
  rfl

section
variable {a : Nat} (ha : hubWord a)
include ha

theorem page_of_hubWord {p : Nat} (h2 : 2 ≠ p) (h88 : 0x88 ≠ p) : page a ≠ p := by
  rcases ha with h | h <;> rw [h] <;> assumption

theorem follows_darkened (s : State) : Follows a s (darkened s) := by
  have hvalve := page_of_hubWord ha (p := 0x60) (by decide) (by decide)
  have hlamp := page_of_hubWord ha (p := 0x70) (by decide) (by decide)
  have hfocal := page_of_hubWord ha (p := 0x10) (by decide) (by decide)
  exact ((((follows_stopRuns hvalve 0 s).trans (follows_stopRuns hvalve 1 _)).trans (follows_lampsOff hlamp 0 _)).trans
    (follows_lampsOff hlamp 1 _)).trans (follows_biasOff hfocal _)

theorem follows_frozenShown (src : Nat) (s : State) : Follows a s (frozenShown src s) := by
  have hport {f : Fld} (hf : page f.addr = 0x90) (v : Nat) (t : State) : Follows a t (setF f v t) :=
    .setF_page (page_of_hubWord ha (by decide) (by decide)) hf v t
  have hstate {f : Fld} (hf : page f.addr = 0xA0) (v : Nat) (t : State) : Follows a t (setF f v t) :=
    .setF_page (page_of_hubWord ha (by decide) (by decide)) hf v t
  have hlsync (t : State) : Follows a t (cutLsync t) := ⟨rfl, rfl, rfl, rfl, rfl, List.prefix_rfl⟩
  have hcut := ((hport (f := F.lnkPortEthUp) rfl 0 s).trans (hport (f := F.lnkPortVgdUp) rfl 0 _)).trans (hlsync _)
  exact ((hcut.trans (hstate (f := F.intStateSource) rfl src _)).trans (hstate (f := F.intStateSafe) rfl 1 _)).trans
    (hstate (f := F.intStateFrozen) rfl 1 _)

/-- A freeze leaves the hub's code and its measurement. -/
theorem follows_freezeNow (src : Nat) (s : State) : Follows a s (freezeNow src s) := by
  have hstopped (t : State) : Follows a t (clocksStopped t) := ⟨rfl, rfl, rfl, rfl, rfl, List.prefix_rfl⟩
  have hstratum (t : State) : Follows a t (showStratum t) :=
    .setF_page (page_of_hubWord ha (p := 0x90) (by decide) (by decide)) rfl _ t
  rw [freezeNow_eq]
  exact (((follows_darkened ha s).trans (follows_frozenShown ha src _)).trans (hstopped _)).trans (hstratum _)

end

/-! ### The first instruction (R78, R96, R399) -/

/-- The device runs, with the time since the release shown. -/
def begun (s : State) : State :=
  setF F.rstBootBootTime (min 65535 ((s.time - s.boot.releasedAt) / 1000)) (setF F.rstBootStage 5 { s with mode := .running })

/-- The clock losses of the reset are told. -/
def lossesTold (s : State) : State :=
  let s := if s.boot.clkLoss then raise 0x0110 0 0 0 s else s
  if s.boot.pllLoss then raise 0x0111 0 0 0 s else s

/-- The program measurement starts. -/
def measured (s : State) : State := setF F.secLoadsLoads 0 { s with sec := { s.sec with program := s.sec.imageHash } }

/-- The device as it runs its first instruction. -/
def launched (s : State) : State :=
  let s := begun s
  let s := measured (lossesTold (raise (resetEvent s.boot.cause) 0 0 (bits (s.word F.rstCause) 8 0) s))
  let s := { s with boot := { s.boot with clkLoss := false, pllLoss := false } }
  setF F.intStateSafe (b2n (inShutdown s)) s

theorem follows_lossesTold (a : Nat) (s : State) : Follows a s (lossesTold s) ∧ (lossesTold s).freeze = s.freeze := by
  unfold lossesTold
  dsimp only
  constructor
  · exact (Follows.ite (.raise ..) (.refl a s)).trans (.ite (.raise ..) (.refl a _))
  · split <;> split <;> rfl

/-- What the first instruction shows. -/
structure Launched (s t : State) : Prop where
  mode : t.mode = .running
  stage : getF F.rstBootStage t = 5
  time : getF F.rstBootBootTime t = min 65535 ((s.time - s.boot.releasedAt) / 1000)
  alive : t.pins.alive = s.pins.alive
  program : t.sec.program = s.sec.imageHash
  loads : getF F.secLoadsLoads t = 0
  units : t.units = s.units
  queue : s.ev.queue ++ [⟨resetEvent s.boot.cause, 0, 0, bits (s.word F.rstCause) 8 0, s.time⟩] <+: t.ev.queue

theorem Launched.follows {s t u : State} (h : Launched s t) (hword : ∀ a, hubWord a → Follows a t u) : Launched s u := by
  have hboot := hword F.rstBoot (.inl rfl)
  have hloads := hword F.secLoads (.inr rfl)
  exact ⟨hboot.mode.trans h.mode, (getF_congr hboot.word).trans h.stage, (getF_congr hboot.word).trans h.time,
    hboot.alive.trans h.alive, (congrArg SecPart.program hboot.sec).trans h.program, (getF_congr hloads.word).trans h.loads,
    hboot.units.trans h.units, h.queue.trans hboot.queue⟩

theorem launched_launches (s : State) : Launched s (launched s) ∧ (launched s).freeze = s.freeze := by
  have htold := follows_lossesTold F.rstBoot (raise (resetEvent s.boot.cause) 0 0 (bits ((begun s).word F.rstCause) 8 0) (begun s))
  obtain ⟨⟨hword, hmode, hunits, hsec, halive, hqueue⟩, hfreeze⟩ := htold
  have hboot : (launched s).word F.rstBoot = (begun s).word F.rstBoot :=
    (setF_word_ne _ _ (by decide)).trans ((setF_word_ne _ _ (by decide)).trans hword)
  have hcause : (begun s).word F.rstCause = s.word F.rstCause := (setF_word_ne _ _ (by decide)).trans (setF_word_ne _ _ (by decide))
  refine ⟨⟨hmode, ?_, ?_, halive, congrArg SecPart.imageHash hsec, ?_, hunits, hcause ▸ hqueue⟩, hfreeze⟩
  · calc getF F.rstBootStage (launched s) = getF F.rstBootStage (begun s) := getF_congr hboot
      _ = getF F.rstBootStage (setF F.rstBootStage 5 { s with mode := .running }) := getF_setF_bits _ _ (.inl (by decide))
      _ = 5 := getF_setF_lt (by decide) (by decide) _
  · calc getF F.rstBootBootTime (launched s) = getF F.rstBootBootTime (begun s) := getF_congr hboot
      _ = _ := getF_setF_lt (by decide) (Nat.lt_of_le_of_lt (Nat.min_le_left ..) (by decide)) _
  · exact (getF_setF_addr _ _ (by decide)).trans (getF_setF_lt (by decide) (by decide) _)

theorem exec_firstInstruction_of_ready {s : State} (hboot : booting s = true) (hcode : s.boot.running.isSome = true)
    (hindex : flag F.rstBootIndexReady s = true) (hmodel : flag F.rstBootModelReady s = true) (hE : getF F.rstBootStage s ≠ 0xE)
    (hF : getF F.rstBootStage s ≠ 0xF) : exec .firstInstruction s = .next (
      match (launched s).freeze.requested with
      | some src => freezeNow src (launched s)
      | none => { launched s with pins := { (launched s).pins with alive := true } }) := by
  have hnone : s.boot.running.isNone = false := by
    rw [← Option.not_isSome, hcode]
    rfl
  have hcond : (!booting s || s.boot.running.isNone || !flag F.rstBootIndexReady s || !flag F.rstBootModelReady s ||
      getF F.rstBootStage s = 0xE || getF F.rstBootStage s = 0xF) = false := by simp [hboot, hnone, hindex, hmodel, hE, hF]
  rw [exec_firstInstruction, execFirstInstruction, if_neg (Bool.eq_false_iff.mp hcond)]
  rfl

/-- The first instruction makes the device run, or freezes it at once where that was requested. -/
theorem first_instruction {s : State} (hboot : booting s = true) (hcode : s.boot.running.isSome = true)
    (hindex : flag F.rstBootIndexReady s = true) (hmodel : flag F.rstBootModelReady s = true) (hE : getF F.rstBootStage s ≠ 0xE)
    (hF : getF F.rstBootStage s ≠ 0xF) : ∃ t, exec .firstInstruction s = .next t ∧ t.mode = .running ∧ getF F.rstBootStage t = 5 ∧
      getF F.rstBootBootTime t = min 65535 ((s.time - s.boot.releasedAt) / 1000) ∧
      t.pins.alive = (s.freeze.requested.isNone || s.pins.alive) ∧
      t.sec.program = s.sec.imageHash ∧ getF F.secLoadsLoads t = 0 ∧ t.units = s.units ∧ t.mem = s.mem ∧
      t.freeze.since.isSome = s.freeze.requested.isSome ∧
      ∃ l, t.ev.queue = s.ev.queue ++ ⟨resetEvent s.boot.cause, 0, 0, bits (s.word F.rstCause) 8 0, s.time⟩ :: l := by
  have hexec := exec_firstInstruction_of_ready hboot hcode hindex hmodel hE hF
  obtain ⟨hlaunched, hfreeze⟩ := launched_launches s
  have hqueue {q r : List EvRec} {x : EvRec} (h : q ++ [x] <+: r) : ∃ l, r = q ++ x :: l := by
    obtain ⟨l, rfl⟩ := h
    exact ⟨l, by simp⟩
  rw [hfreeze] at hexec
  refine ⟨_, hexec, ?_⟩
  have hmem := execFirstInstruction_mem s _ hexec
  cases hrequested : s.freeze.requested with
  | some src =>
    rw [hrequested] at hmem
    dsimp only at hmem ⊢
    have ht := hlaunched.follows fun a ha => follows_freezeNow ha src (launched s)
    exact ⟨ht.mode, ht.stage, ht.time, ht.alive, ht.program, ht.loads, ht.units, hmem, since_freezeNow src (launched s),
      hqueue ht.queue⟩
  | none =>
    rw [hrequested] at hmem
    dsimp only at hmem ⊢
    have hrunning : s.freeze.since = none := by
      unfold booting at hboot
      simp only [Bool.and_eq_true, Option.isNone_iff_eq_none] at hboot
      exact hboot.1
    refine ⟨hlaunched.mode, hlaunched.stage, hlaunched.time, rfl, hlaunched.program, hlaunched.loads, hlaunched.units, hmem, ?_,
      hqueue hlaunched.queue⟩
    rw [hfreeze, hrunning]
    rfl

/-! ### The wipe of a life-cycle transition (R92, R93) -/

/-- What the wipe leaves: all but the record store, the status space and the events. -/
def sansErased (s : State) : State := { s with nvs := NvsPart.reset, status := [], ev := EventPart.reset }

theorem eq_of_sansErased {s t : State} (h : sansErased t = sansErased s) :
    t = { s with nvs := t.nvs, status := t.status, ev := t.ev } := by
  have hback (t : State) : t = { sansErased t with nvs := t.nvs, status := t.status, ev := t.ev } := rfl
  rw [hback t, h]
  rfl

theorem sansErased_of_sansReport {s t : State} (h : sansReport t = sansReport s) : sansErased t = sansErased s :=
  show sansErased (sansReport t) = sansErased (sansReport s) from congrArg sansErased h

section
variable (i : Nat) (s : State)

theorem sansErased_eraseSector : sansErased (eraseSector i s) = sansErased s := by
  have hnvs (f : NvsPart → NvsPart) (t : State) : sansErased (modNvs f t) = sansErased t := rfl
  have hset (f : Fld) (v : Nat) (t : State) : sansErased (setF f v t) = sansErased t := rfl
  have hraise (code kind index detail : Nat) (t : State) : sansErased (raise code kind index detail t) = sansErased t := rfl
  unfold eraseSector
  dsimp only
  split
  · rw [hraise, hset, hnvs, hnvs]
  · exact hnvs _ s

theorem eraseSector_word {a : Nat} (ha : a ≠ F.nvsFault) : (eraseSector i s).word a = s.word a := by
  unfold eraseSector
  dsimp only
  split
  · exact setF_word_ne (f := F.nvsFaultWear) _ 1 ha
  · rfl

theorem eraseSector_copies : (eraseSector i s).nvs.copies = s.nvs.copies.filter fun c => c.sector ≠ i := by
  unfold eraseSector
  dsimp only
  split <;> rfl

end

theorem mem_eraseSectors (c : Copy) (l : List Nat) (s : State) :
    c ∈ (l.foldl (fun s i => eraseSector i s) s).nvs.copies ↔ c ∈ s.nvs.copies ∧ c.sector ∉ l := by
  induction l generalizing s with
  | nil => simp
  | cons i l ih =>
    rw [List.foldl_cons, ih, eraseSector_copies]
    simp only [List.mem_filter, List.mem_cons, decide_eq_true_eq]
    tauto

/-- The sectors of a partition that are to be erased. -/
def ownSectors (p : Nat) (s : State) : List Nat :=
  (bankSectors p 0 ++ bankSectors p 1).filter fun i => (sectorAt i s.nvs).st ≠ .free

section
variable (p : Nat) (s : State)

theorem erasePartition_eq : erasePartition p s =
    modNvs (fun n => { n with copies := n.copies.filter (fun c => c.part ≠ p), opens := n.opens.filter fun x => x.1 / 2 ≠ p })
      ((ownSectors p s).foldl (fun s i => eraseSector i s) s) := rfl

theorem mem_erasePartition (c : Copy) :
    c ∈ (erasePartition p s).nvs.copies ↔ (c ∈ s.nvs.copies ∧ c.sector ∉ ownSectors p s) ∧ c.part ≠ p := by
  have hcopies : (erasePartition p s).nvs.copies =
      ((ownSectors p s).foldl (fun s i => eraseSector i s) s).nvs.copies.filter fun c => c.part ≠ p := rfl
  rw [hcopies, List.mem_filter, mem_eraseSectors, decide_eq_true_eq]

theorem sansErased_erasePartition : sansErased (erasePartition p s) = sansErased s :=
  foldl_keeps sansErased (fun s i => sansErased_eraseSector i s) (ownSectors p s) s

theorem erasePartition_word {a : Nat} (ha : a ≠ F.nvsFault) : (erasePartition p s).word a = s.word a :=
  foldl_keeps (fun t : State => t.word a) (fun t i => eraseSector_word i t ha) (ownSectors p s) s

end

theorem bounds_of_mem_bankSectors {p b i : Nat} (h : i ∈ bankSectors p b) :
    (partRange p).1 ≤ i ∧ i < (partRange p).1 + (partRange p).2 := by
  unfold bankSectors at h
  simp only [List.mem_filter, List.mem_map, List.mem_range] at h
  obtain ⟨⟨j, hj, rfl⟩, -⟩ := h
  omega

/-- The sectors of VENDOR are no other partition's. -/
theorem vendor_sector_kept {p i : Nat} (hp : p = 1 ∨ p = 2 ∨ p = 3) (h : i ∈ bankSectors 0 0 ++ bankSectors 0 1) (s : State) :
    i ∉ ownSectors p s := by
  intro hown
  have hvendor : i < 320 := by
    rcases List.mem_append.mp h with h | h <;> exact (bounds_of_mem_bankSectors h).2
  have hother : (partRange p).1 ≤ i := by
    rcases List.mem_append.mp (List.mem_filter.mp hown).1 with h | h <;> exact (bounds_of_mem_bankSectors h).1
  have hfirst : 320 ≤ (partRange p).1 := by rcases hp with rfl | rfl | rfl <;> decide
  omega

/-- Taking room moves no copy. -/
theorem takeRoom_copies {p b w i : Nat} {n m : NvsPart} (h : takeRoom p b w n = some (i, m)) : m.copies = n.copies := by
  unfold takeRoom at h
  dsimp only at h
  split at h
  · obtain ⟨-, rfl⟩ := Prod.mk.inj (Option.some.inj h)
    rfl
  · obtain ⟨-, rfl⟩ := Prod.mk.inj (Option.some.inj h)
    rfl
  · exact absurd h nofun

/-- The completion mark of life-cycle state `st`. -/
def markOf (st seq i : Nat) : Copy :=
  copyOf { part := 0, key := 0x501, data := [BitVec.ofNat 8 st], gen := 0, counter := none, save := false } ⟨seq, i, 4, 0, 0⟩ true

theorem completionMark_keeps (st : Nat) (s : State) : sansErased (completionMark st s) = sansErased s ∧
    (∀ a, a ≠ F.nvsWrites → (completionMark st s).word a = s.word a) ∧
    ∃ l, (completionMark st s).nvs.copies = l ++ s.nvs.copies ∧ ∀ c ∈ l, c.part = 0 ∧ c.key = 0x501 := by
  unfold completionMark
  dsimp only
  split
  · next i n hroom =>
    refine ⟨rfl, fun a ha => setF_word_ne (f := F.nvsWritesWrites) _ _ ha,
      [markOf st (nextSeq 0 0x501 s.nvs) i], ?_, List.forall_mem_singleton.mpr ⟨rfl, rfl⟩⟩
    rw [← takeRoom_copies hroom]
    rfl
  · exact ⟨rfl, fun _ _ => rfl, [], rfl, nofun⟩

/-- The records outside VENDOR, and the owner's passwords in it, are gone. -/
def partitionsErased (s : State) : State :=
  modNvs (fun n => { n with
    copies := n.copies.filter fun c => !(c.part = 0 && inR 0x512 c.key 0x517)
    pws := n.pws.filter fun x => decide (x.1 < 2) }) (erasePartition 3 (erasePartition 2 (erasePartition 1 s)))

theorem partitionsErased_keeps (s : State) : sansErased (partitionsErased s) = sansErased s ∧
    ∀ a, a ≠ F.nvsFault → (partitionsErased s).word a = s.word a := by
  have hnvs (f : NvsPart → NvsPart) (t : State) : sansErased (modNvs f t) = sansErased t := rfl
  have hword (f : NvsPart → NvsPart) (a : Nat) (t : State) : (modNvs f t).word a = t.word a := rfl
  constructor
  · rw [partitionsErased, hnvs, sansErased_erasePartition, sansErased_erasePartition, sansErased_erasePartition]
  · intro a ha
    rw [partitionsErased, hword, erasePartition_word _ _ ha, erasePartition_word _ _ ha, erasePartition_word _ _ ha]

theorem mem_partitionsErased (c : Copy) (s : State) : c ∈ (partitionsErased s).nvs.copies ↔
    c ∈ (erasePartition 3 (erasePartition 2 (erasePartition 1 s))).nvs.copies ∧ ¬ (c.part = 0 ∧ 0x512 ≤ c.key ∧ c.key ≤ 0x517) := by
  have hnvs (f : NvsPart → NvsPart) (t : State) : (modNvs f t).nvs = f t.nvs := rfl
  rw [partitionsErased, hnvs, List.mem_filter]
  simp only [inR, Bool.not_eq_true', Bool.and_eq_false_iff, decide_eq_false_iff_not]
  exact and_congr_right fun _ => by omega

theorem part_of_partitionsErased {c : Copy} {s : State} (h : c ∈ (partitionsErased s).nvs.copies) :
    c ∈ s.nvs.copies ∧ c.part ≠ 1 ∧ c.part ≠ 2 ∧ c.part ≠ 3 := by
  rw [mem_partitionsErased, mem_erasePartition, mem_erasePartition, mem_erasePartition] at h
  tauto

theorem vendor_of_partitionsErased {c : Copy} {s : State} (h : c ∈ s.nvs.copies) (hpart : c.part = 0)
    (hsector : c.sector ∈ bankSectors 0 0 ++ bankSectors 0 1) (hkey : ¬ (0x512 ≤ c.key ∧ c.key ≤ 0x517)) :
    c ∈ (partitionsErased s).nvs.copies := by
  have hkept {p : Nat} (hp : p = 1 ∨ p = 2 ∨ p = 3) (t : State) : c.sector ∉ ownSectors p t := vendor_sector_kept hp hsector t
  rw [mem_partitionsErased, mem_erasePartition, mem_erasePartition, mem_erasePartition, hpart]
  exact ⟨⟨⟨⟨⟨⟨⟨h, hkept (.inl rfl) _⟩, by decide⟩, hkept (.inr (.inl rfl)) _⟩, by decide⟩, hkept (.inr (.inr rfl)) _⟩, by decide⟩,
    fun hin => hkey hin.2⟩

/-- The network keys go with an owner's life-cycle states. -/
def keysCleared (s : State) : State :=
  if getF F.lcsStateState s = 4 || getF F.lcsStateState s = 8 then
    setF F.secKeysSlots 0 (setF F.secKeysSlotsN 255 { s with sec := { s.sec with keys := Vector.replicate 4 [] } })
  else s

theorem keysCleared_shows (s : State) : (keysCleared s).units = s.units ∧ (keysCleared s).nvs = s.nvs ∧
    (getF F.lcsStateState s = 4 ∨ getF F.lcsStateState s = 8 → (keysCleared s).sec.keys = Vector.replicate 4 []) := by
  unfold keysCleared
  simp only [Bool.or_eq_true, decide_eq_true_eq]
  split
  · exact ⟨rfl, rfl, fun _ => rfl⟩
  · next h => exact ⟨rfl, rfl, fun h' => absurd h' h⟩

/-- The state at the end of the wipe, before the life-cycle check. -/
def wipeMarked (s : State) : State :=
  setF F.lcsInfoWipePending 0 (completionMark (getF F.lcsStateState (partitionsErased s)) (keysCleared (partitionsErased s)))

theorem exec_lifecycleWipe_of_pending {s : State} (hboot : booting s = true) (hwipe : flag F.lcsInfoWipePending s = true)
    (hotp : otpBad s = false) : exec .lifecycleWipeComplete s =
      .next (checkLifecycle (raise 0x0220 0 0 0 (showNvs (wipeMarked s)))) := by
  rw [exec_lifecycleWipeComplete, execLifecycleWipeComplete, hboot, hwipe, hotp]
  rfl

theorem checkLifecycle_info (s : State) : (checkLifecycle s).word F.lcsInfo = s.word F.lcsInfo := by
  have hchoose (t : State) : (chooseSlot t).word F.lcsInfo = t.word F.lcsInfo := by
    unfold chooseSlot
    split <;> simp (disch := decide) only [setF_word_ne, raise_word]
  unfold checkLifecycle complementFail setAt bump bumpBy
  simp (disch := decide) only [word_ite, hchoose, setF_word_ne, raise_word, ite_self]

/-- The wipe leaves no record outside VENDOR, and there its completion mark alone is new. -/
theorem lifecycle_wiped {s : State} (hboot : booting s = true) (hwipe : flag F.lcsInfoWipePending s = true) (hotp : otpBad s = false) :
    ∃ t, exec .lifecycleWipeComplete s = .next t ∧ getF F.lcsInfoWipePending t = 0 ∧
      (∀ c ∈ t.nvs.copies, (c ∈ s.nvs.copies ∧ c.part ≠ 1 ∧ c.part ≠ 2 ∧ c.part ≠ 3) ∨ (c.part = 0 ∧ c.key = 0x501)) ∧
      (∀ c ∈ s.nvs.copies, c.part = 0 → c.sector ∈ bankSectors 0 0 ++ bankSectors 0 1 → ¬ (0x512 ≤ c.key ∧ c.key ≤ 0x517) →
        c ∈ t.nvs.copies) ∧
      t.units = s.units ∧ t.mem = s.mem ∧
      (getF F.lcsStateState s = 4 ∨ getF F.lcsStateState s = 8 → t.sec.keys = Vector.replicate 4 []) := by
  have hexec := exec_lifecycleWipe_of_pending hboot hwipe hotp
  have hreport : sansReport (checkLifecycle (raise 0x0220 0 0 0 (showNvs (wipeMarked s)))) = sansReport (wipeMarked s) := by
    rw [sansReport_checkLifecycle, sansReport_raise]
    exact sansReport_of_sansStatus (sansStatus_showNvs _)
  have hframe := eq_of_sansReport hreport
  obtain ⟨herased, hword⟩ := partitionsErased_keeps s
  obtain ⟨hkeyUnits, hkeyNvs, hkeys⟩ := keysCleared_shows (partitionsErased s)
  obtain ⟨hmark, -, l, hcopies, hnew⟩ := completionMark_keeps (getF F.lcsStateState (partitionsErased s)) (keysCleared (partitionsErased s))
  have hmarkFrame := eq_of_sansErased hmark
  have hstate : getF F.lcsStateState (partitionsErased s) = getF F.lcsStateState s := getF_congr (hword _ (by decide))
  have hnvs : (wipeMarked s).nvs.copies = l ++ (partitionsErased s).nvs.copies := by rw [← hkeyNvs]; exact hcopies
  have hunits : (wipeMarked s).units = s.units := by
    rw [wipeMarked, setF_units, hmarkFrame]
    refine hkeyUnits.trans ?_
    rw [eq_of_sansErased herased]
  have hsec : (wipeMarked s).sec = (keysCleared (partitionsErased s)).sec := by
    have hset (t : State) : (setF F.lcsInfoWipePending 0 t).sec = t.sec := rfl
    rw [wipeMarked, hset, hmarkFrame]
  refine ⟨_, hexec, ?_, ?_, ?_, by rw [hframe]; exact hunits, execLifecycleWipeComplete_mem s _ hexec, ?_⟩
  · have hshown : (checkLifecycle (raise 0x0220 0 0 0 (showNvs (wipeMarked s)))).word F.lcsInfo = (wipeMarked s).word F.lcsInfo := by
      rw [checkLifecycle_info, raise_word, word_showNvs (by decide)]
    exact (getF_congr hshown).trans (getF_setF_lt (by decide) (by decide) _)
  · rw [hframe]
    dsimp only
    rw [hnvs]
    intro c hc
    exact (List.mem_append.mp hc).elim (fun h => .inr (hnew c h)) fun h => .inl (part_of_partitionsErased h)
  · rw [hframe]
    dsimp only
    rw [hnvs]
    intro c hc hpart hsector hkey
    exact List.mem_append_right l (vendor_of_partitionsErased hc hpart hsector hkey)
  · rw [hframe]
    dsimp only
    rw [hsec, ← hstate]
    exact hkeys

/-! ### O49 -/

/-- Settles O49: one lemma for each step of the boot, for the two wipes and for the training of DDR5. -/
theorem bootSteps : Obligations.BootSteps := by
  intro s
  refine ⟨fun hboot => ⟨fun img himg hstage => ⟨fun hgood hcheck => ?_, fun hbad => ?_⟩, fun hindex hwipe => ?_,
    fun hindex hmodel => ?_, fun hcode hindex hmodel hE hF => ?_, fun hwipe hotp => ?_⟩, fun hclk huntrained size eyes => ?_,
    fun hclk htrained hunwiped => ?_⟩
  · exact signature_passes hboot himg hstage hgood hcheck
  · exact signature_fails hboot himg hstage hbad
  · exact index_ready hboot hindex hwipe
  · exact models_ready hboot hindex hmodel
  · exact first_instruction hboot hcode hindex hmodel hE hF
  · exact lifecycle_wiped hboot hwipe hotp
  · exact ddrTraining_ends hclk huntrained.choose_spec
  · exact ddrWipe_ends hclk htrained hunwiped

end Sys2Proof.Machine
end

section
/-!
SUPPORT. A read of COR.BLIND beside the record it reads (R157, R472): why O36, which speaks of every state, does not hold.
-/

namespace Sys2Proof.Machine

/-! ### A blind-row record longer than its row

A read of COR.BLIND gives the columns of a stream die in die reset as 0 with TAINT. The statement asks this of the dies that correct
columns of the focal die alone, and names no length for the record held. Word 3,076 of a record that is longer than its row stands for
column 3,072 of focal die 0, which would be stream die 3's: no die that corrects a column of focal die 0. -/

/-- A record of 3,077 words, all 0. -/
def longRecord : List Word := List.replicate 3077 0

/-- A read of all words of a record of row 48 of focal die 0. -/
def longRead : Xfer := { unit := 2, tag := 0, out := false, ep := 0x41, addr := 0, base := 0, len := 12308, code := none }

/-- Stream die 3 alone is down, and cluster 0 of stream die 1 reads the long record. -/
def overlong : State :=
  { setF F.rstDieDieUp 0xF7 State.reset with
    corr := { State.reset.corr with dies := vmod State.reset.corr.dies 0 fun e => { e with blind := [longRecord] } }
    xfers := [longRead] }

theorem overlong_reads : readAt 2 0 (· = 0x41) longRead overlong := by
  unfold readAt
  decide +kernel

theorem overlong_passes : passes (dieOf 2) (streamDieOf overlong.opt (longRead.addr / 2) 0) overlong = true := by decide +kernel

theorem overlong_corrected : ∀ e ∈ corrDies overlong.opt (Fin.ofNat 2 (longRead.addr / 2)).val, dieUp e overlong = true := by
  decide +kernel

/-- The words of the record as the read gives them. -/
def longReply : List Word :=
  longRecord.zipIdx.map fun p => if 4 ≤ p.2 && !dieUp (streamDieOf overlong.opt 0 (p.2 - 4)) overlong then 0x2000000 else p.1

theorem fitWords_of_length {n : Nat} {ws : List Word} (h : ws.length = n) : fitWords n ws = ws := by simp [fitWords, ← h]

theorem length_longRecord : longRecord.length = 3077 := List.length_replicate ..

theorem length_longReply : longReply.length = 3077 := by rw [longReply, List.length_map, List.length_zipIdx, length_longRecord]

/-- The last word read is not the last word held. -/
theorem longReply_ne : longReply ≠ longRecord := by
  have hheld : longRecord[3076]? = some 0 := List.getElem?_replicate_of_lt (by decide)
  have hmarked : (4 ≤ 3076 && !dieUp (streamDieOf overlong.opt 0 3072) overlong) = true := by decide +kernel
  have hread : longReply[3076]? = some 0x2000000 := by
    rw [longReply, List.getElem?_map, List.getElem?_zipIdx, hheld]
    exact congrArg some (if_pos hmarked)
  intro h
  rw [h, hheld] at hread
  exact absurd hread (by decide)

theorem overlong_lands : landsWords (.corBlindRead 2 0) 2 0 longRead 0 longReply overlong fun _ => True :=
  dataIn_lands rfl overlong_reads (List.forall_mem_singleton.mpr overlong_passes)
    (congrArg (fun ws => (overlong, 0, ws)) (fitWords_of_length length_longReply)) rfl rfl rfl fun _ _ => trivial

/-! ### O36 -/

/-- Refutes O36: of a blind-row record that is longer than its row, a read gives the words past the row as those of a stream die that is
down, where the record holds others. -/
theorem not_pixelCorrectionResults : ¬ Obligations.PixelCorrectionResults := by
  unfold Obligations.PixelCorrectionResults
  rintro ⟨-, -, hblind, -⟩
  obtain ⟨r, hexec, hwords, -⟩ := hblind 2 0 longRead overlong overlong_reads overlong_passes (by decide) (by decide) overlong_corrected
  obtain ⟨r', hexec', hwords', -⟩ := overlong_lands
  obtain rfl : r' = r := Host.Outcome.next.inj (hexec'.symm.trans hexec)
  have hheld : fitWords (longRead.len / 4) (blindHeld (Fin.ofNat 2 (longRead.addr / 2)) (longRead.addr % 2) overlong) = longRecord :=
    fitWords_of_length length_longRecord
  rw [hheld, length_longRecord] at hwords
  rw [length_longReply] at hwords'
  exact longReply_ne (hwords'.symm.trans hwords)

end Sys2Proof.Machine
end
